-- ==== Sys2Proof/Word.lean ====
section
/-! DEFINITION. The machine word, the byte, and the fixed-width words that registers hold (R107). -/

namespace Sys2Proof

/-- A 64-bit register or address value (R107). -/
abbrev Word := BitVec 64

/-- One byte of any memory or buffer (R6). -/
abbrev Byte := BitVec 8

/-- A 32-bit instruction word (R112). -/
abbrev Word32 := BitVec 32

/-- A 512-bit descriptor register (R107). -/
abbrev Desc := BitVec 512

/-- A 1024-bit value of a cluster's vector path (R221). -/
abbrev Wide := BitVec 1024

/-- The number of a register of the x or f file (R107). -/
abbrev RegNo := BitVec 5

end Sys2Proof
end

