-- ==== Sys2Proof/Machine/Num.lean ====
section
/-! DEFINITION. Number formats and arithmetic (R43 to R71): element types, exact values, rounding, overflow, NaN
selection, conversions, sums. Values are exact signed dyadic numbers, rounded once at the end. -/

namespace Sys2Proof.Machine

/-- An element type (R43), in the order of its codes. -/
inductive ET where
  | i8 | n8 | i16 | i32 | i64 | q4 | q3 | e4m3 | e5m2 | bf16 | f16 | f32 | f64 | cf64 | e2m1 | cf32
  deriving DecidableEq, Repr

/-- The element type of a 4-bit code (R43). -/
def ET.ofCode (c : Nat) : ET :=
  match c % 16 with
  | 0 => .i8 | 1 => .n8 | 2 => .i16 | 3 => .i32 | 4 => .i64 | 5 => .q4 | 6 => .q3 | 7 => .e4m3
  | 8 => .e5m2 | 9 => .bf16 | 10 => .f16 | 11 => .f32 | 12 => .f64 | 13 => .cf64 | 14 => .e2m1 | _ => .cf32

/-- The 4-bit code of an element type (R43). -/
def ET.code : ET → Nat
  | .i8 => 0 | .n8 => 1 | .i16 => 2 | .i32 => 3 | .i64 => 4 | .q4 => 5 | .q3 => 6 | .e4m3 => 7
  | .e5m2 => 8 | .bf16 => 9 | .f16 => 10 | .f32 => 11 | .f64 => 12 | .cf64 => 13 | .e2m1 => 14 | .cf32 => 15

/-- The width of an element in bits (R43). -/
def ET.bits : ET → Nat
  | .i8 => 8 | .n8 => 8 | .i16 => 16 | .i32 => 32 | .i64 => 64 | .q4 => 4 | .q3 => 3 | .e4m3 => 8
  | .e5m2 => 8 | .bf16 => 16 | .f16 => 16 | .f32 => 32 | .f64 => 64 | .cf64 => 128 | .e2m1 => 4 | .cf32 => 64

/-- The size in bytes of an element of one byte or more (R44). -/
def ET.bytes (t : ET) : Nat := t.bits / 8

/-- Whether the type packs below a byte (R44, R46, R52). -/
def ET.packed : ET → Bool
  | .q4 | .q3 | .e2m1 => true
  | _ => false

/-- Whether the type is an integer type of one byte or more (R43). -/
def ET.isInt : ET → Bool
  | .i8 | .n8 | .i16 | .i32 | .i64 => true
  | _ => false

/-- The types VALU and the others call F: bf16, f16, f32 and f64 (R240). -/
def ET.isF : ET → Bool
  | .bf16 | .f16 | .f32 | .f64 => true
  | _ => false

/-- Complex types (R43). -/
def ET.isC : ET → Bool
  | .cf64 | .cf32 => true
  | _ => false

/-- The component type of a complex type, else the type itself (R67). -/
def ET.comp : ET → ET
  | .cf64 => .f64
  | .cf32 => .f32
  | t => t

/-- The alignment in bytes of an element (R44): its size, but 8 for cf64, and 1 for packed types. -/
def ET.align : ET → Nat
  | .cf64 => 8
  | .q4 | .q3 | .e2m1 => 1
  | t => t.bytes

/-- A floating layout (R49): exponent and fraction widths, bias, whether the all-ones exponent is reserved. -/
structure Fmt where
  ebits : Nat
  mbits : Nat
  bias : Nat
  ieee : Bool
  deriving DecidableEq, Repr

/-- The layout of a floating type (R43, R49). -/
def ET.fmt? : ET → Option Fmt
  | .e4m3 => some ⟨4, 3, 7, false⟩
  | .e5m2 => some ⟨5, 2, 15, true⟩
  | .bf16 => some ⟨8, 7, 127, true⟩
  | .f16 => some ⟨5, 10, 15, true⟩
  | .f32 => some ⟨8, 23, 127, true⟩
  | .f64 => some ⟨11, 52, 1023, true⟩
  | .e2m1 => some ⟨2, 1, 1, false⟩
  | _ => none

def Fmt.f32 : Fmt := ⟨8, 23, 127, true⟩
def Fmt.f64 : Fmt := ⟨11, 52, 1023, true⟩
def Fmt.bf16 : Fmt := ⟨8, 7, 127, true⟩
def Fmt.e4m3 : Fmt := ⟨4, 3, 7, false⟩
def Fmt.e2m1 : Fmt := ⟨2, 1, 1, false⟩

/-- A floating value, exact: a NaN with its sign and its fraction left-aligned to 52 bits (bit 51 the quiet bit, R49),
a signed infinity, or (−1)^neg · m · 2^e, where m = 0 is a signed zero. -/
inductive FVal where
  | nan (neg : Bool) (frac : Nat)
  | inf (neg : Bool)
  | fin (neg : Bool) (m : Nat) (e : Int)
  deriving DecidableEq, Repr

/-- The default NaN (R49): positive, quiet bit alone. -/
def FVal.dnan : FVal := .nan false (2 ^ 51)

/-- +0. -/
def FVal.zero : FVal := .fin false 0 0

def FVal.isNaN : FVal → Bool
  | .nan _ _ => true
  | _ => false

def FVal.isInf : FVal → Bool
  | .inf _ => true
  | _ => false

def FVal.isZero : FVal → Bool
  | .fin _ 0 _ => true
  | _ => false

def FVal.neg? : FVal → Bool
  | .nan s _ => s
  | .inf s => s
  | .fin s _ _ => s

/-- A signalling NaN: the quiet bit clear (R49). -/
def FVal.isSNaN : FVal → Bool
  | .nan _ f => !(f.testBit 51)
  | _ => false

/-- A NaN with its quiet bit set (R60). -/
def FVal.quiet : FVal → FVal
  | .nan s f => .nan s (f ||| 2 ^ 51)
  | v => v

/-- The value with its sign inverted, NaNs included (R67). -/
def FVal.negate : FVal → FVal
  | .nan s f => .nan (!s) f
  | .inf s => .inf (!s)
  | .fin s m e => .fin (!s) m e

/-- The value with its sign cleared. -/
def FVal.abs : FVal → FVal
  | .nan _ f => .nan false f
  | .inf _ => .inf false
  | .fin _ m e => .fin false m e

/-- The bits of a floating type read as a value (R49, R51). -/
def Fmt.decode (f : Fmt) (x : Nat) : FVal :=
  let m := x % 2 ^ f.mbits
  let e := x / 2 ^ f.mbits % 2 ^ f.ebits
  let s := x.testBit (f.ebits + f.mbits)
  let top := 2 ^ f.ebits - 1
  if e = top && f.ieee then
    if m = 0 then .inf s else .nan s (m * 2 ^ (52 - f.mbits))
  else if f == Fmt.e4m3 && e = top && m = 7 then .nan s (2 ^ 51)
  else if e = 0 then .fin s m (1 - (f.bias : Int) - f.mbits)
  else .fin s (m + 2 ^ f.mbits) ((e : Int) - f.bias - f.mbits)

/-- The rounding modes (R55). -/
inductive RMode where
  | rne | rz | sr
  deriving DecidableEq, Repr

/-- The mode an RM field selects, given the default of RND.DEF (R55). -/
def RMode.ofField (rm dflt : BitVec 2) : RMode :=
  match rm with
  | 0b00#2 => .rne
  | 0b01#2 => .rz
  | 0b10#2 => .sr
  | _ => match dflt with
    | 0b01#2 => .rz
    | 0b10#2 => .sr
    | _ => .rne

/-- One step of the stochastic generator (R57). -/
def xorShift32 (x : Word32) : Word32 :=
  let x := x ^^^ (x <<< 13)
  let x := x ^^^ (x >>> 17)
  x ^^^ (x <<< 5)

/-- The seed of generator `lane` for journal number `n` (R57). -/
def seedLane (seed : Word32) (lane : Nat) (n : Word32) : Word32 :=
  let x := seed ^^^ (BitVec.ofNat 32 (lane * 0x9E3779B9)) ^^^ n
  if x = 0 then 1 else x

/-- The largest binary exponent of a finite value of the type (R49). -/
def Fmt.emax (f : Fmt) : Int :=
  if f.ieee then (2 ^ f.ebits : Nat) - 2 - (f.bias : Int) else (2 ^ f.ebits : Nat) - 1 - (f.bias : Int)

/-- The significand of the largest finite value (R49): all ones, but 0b1110 in e4m3. -/
def Fmt.maxSig (f : Fmt) : Nat :=
  if f == Fmt.e4m3 then 14 else 2 ^ (f.mbits + 1) - 1

/-- m · 2^e rounded to an integer multiple of 2^q (R55, R58): the multiple and whether the result is inexact.
`st` is the generator state that SR uses. -/
def roundAt (rm : RMode) (st : Word32) (m : Nat) (e q : Int) : Nat × Bool :=
  if q ≤ e then (m * 2 ^ (e - q).toNat, false)
  else
    let k := (q - e).toNat
    let n := m / 2 ^ k
    let r := m % 2 ^ k
    if r = 0 then (n, false)
    else match rm with
      | .rz => (n, true)
      | .rne =>
        let half := 2 ^ (k - 1)
        (if r > half || (r = half && n % 2 = 1) then n + 1 else n, true)
      | .sr => (n + (r * 2 ^ 32 + st.toNat * 2 ^ k) / 2 ^ (k + 32), true)

/-- What one rounding into a floating type finds, before overflow is resolved (R59, R431). -/
structure Rounded where
  n : Nat
  q : Int
  inexact : Bool
  ovf : Bool
  tiny : Bool
  deriving DecidableEq, Repr

/-- Is n · 2^q above the largest finite value of the type? -/
def Fmt.exceeds (f : Fmt) (n : Nat) (q : Int) : Bool :=
  let qt := f.emax - f.mbits
  if q ≤ qt then decide (n > f.maxSig * 2 ^ (qt - q).toNat) else decide (n * 2 ^ (q - qt).toNat > f.maxSig)

/-- The exponent of the leading bit of m · 2^e, for m ≠ 0. -/
def topExp (m : Nat) (e : Int) : Int := (Nat.log2 m : Int) + e

/-- The rounding of a non-zero magnitude into a type's unbounded exponent range (R58, R59). -/
def Fmt.round (f : Fmt) (rm : RMode) (st : Word32) (m : Nat) (e : Int) : Rounded :=
  let emin : Int := 1 - (f.bias : Int)
  let x := topExp m e
  let q := (if x < emin then emin else x) - f.mbits
  let q := if rm = .sr && q > f.emax - f.mbits then f.emax - f.mbits else q
  let r := roundAt rm st m e q
  let u := roundAt rm st m e (x - f.mbits)
  let tiny := decide (u.1 = 0 ∨ topExp u.1 (x - f.mbits) < emin)
  ⟨r.1, q, r.2, f.exceeds r.1 q, tiny && r.2⟩

/-- The bits of sign and magnitude n · 2^q, which the type holds exactly. -/
def Fmt.pack (f : Fmt) (s : Bool) (n : Nat) (q : Int) : Nat :=
  let sb := if s then 2 ^ (f.ebits + f.mbits) else 0
  if n = 0 then sb
  else
    let emin : Int := 1 - (f.bias : Int)
    let x := topExp n q
    if x < emin then
      let k := emin - f.mbits
      sb + (if k ≤ q then n * 2 ^ (q - k).toNat else n / 2 ^ (k - q).toNat)
    else
      let k := x - f.mbits
      let sig := if k ≤ q then n * 2 ^ (q - k).toNat else n / 2 ^ (k - q).toNat
      sb + (x + f.bias).toNat * 2 ^ f.mbits + (sig - 2 ^ f.mbits)

/-- The largest finite value with a sign (R49). -/
def Fmt.maxBits (f : Fmt) (s : Bool) : Nat := f.pack s f.maxSig (f.emax - f.mbits)

/-- The bits of a NaN in a type (R60 (2)): the sign and the most significant fraction bits, quiet; e4m3 keeps the sign. -/
def Fmt.nanBits (f : Fmt) (s : Bool) (frac : Nat) : Nat :=
  let sb := if s then 2 ^ (f.ebits + f.mbits) else 0
  if f.ieee then
    sb + (2 ^ f.ebits - 1) * 2 ^ f.mbits + ((frac ||| 2 ^ 51) / 2 ^ (52 - f.mbits)) % 2 ^ f.mbits
  else if f == Fmt.e4m3 then sb + 0x7F
  else sb

/-- The bits of an infinity in a type; e4m3 has none and takes NaN, e2m1 takes 6 (R59). -/
def Fmt.infBits (f : Fmt) (s : Bool) : Nat :=
  let sb := if s then 2 ^ (f.ebits + f.mbits) else 0
  if f.ieee then sb + (2 ^ f.ebits - 1) * 2 ^ f.mbits
  else if f == Fmt.e4m3 then sb + 0x7F
  else f.maxBits s

/-- The IEEE conditions (R62). -/
structure FFlags where
  invalid : Bool := false
  divZero : Bool := false
  overflow : Bool := false
  underflow : Bool := false
  inexact : Bool := false
  deriving DecidableEq, Repr

/-- The conditions of two parts of one operation together. -/
def FFlags.or (a b : FFlags) : FFlags :=
  ⟨a.invalid || b.invalid, a.divZero || b.divZero, a.overflow || b.overflow, a.underflow || b.underflow,
    a.inexact || b.inexact⟩

/-- Deliver a value in a floating type (R59, R60): rounded once, overflow and saturation resolved; with the conditions
that the rounding raises. `st` is the generator state under SR. -/
def Fmt.deliver (f : Fmt) (rm : RMode) (sat : Bool) (st : Word32) (v : FVal) : Nat × FFlags :=
  match v with
  | .nan s p => (f.nanBits s p, {})
  | .inf s => (if sat then f.maxBits s else f.infBits s, {})
  | .fin s m e =>
    if m = 0 then (f.pack s 0 0, {})
    else
      let r := f.round rm st m e
      if r.ovf then
        (if sat || rm = .rz then f.maxBits s else f.infBits s, { overflow := true, inexact := true })
      else (f.pack s r.n r.q, { inexact := r.inexact, underflow := r.tiny })

/-- The value rounded to nearest even in a type, with no saturation, as a value (R55). -/
def Fmt.rne (f : Fmt) (v : FVal) : FVal := f.decode (f.deliver .rne false 0 v).1

/-- The first NaN of the operands in their order, quieted (R60 (1)). -/
def firstNaN : List FVal → Option FVal
  | [] => none
  | v :: t => if v.isNaN then some v.quiet else firstNaN t

/-- The exact sum of two finite or infinite values; an exact zero from cancelling terms is +0, and −0 only when both
are −0 (IEEE 754); ∞ − ∞ is the default NaN (R60 (3)). -/
def FVal.addCore (a b : FVal) : FVal :=
  match a, b with
  | .inf s, .inf t => if s = t then .inf s else .dnan
  | .inf s, _ => .inf s
  | _, .inf t => .inf t
  | .fin s m e, .fin t n g =>
    let k := if e ≤ g then e else g
    let x : Int := (m * 2 ^ (e - k).toNat : Nat)
    let y : Int := (n * 2 ^ (g - k).toNat : Nat)
    let z := (if s then -x else x) + (if t then -y else y)
    if z = 0 then .fin (s && t && m = 0 && n = 0) 0 0
    else .fin (decide (z < 0)) z.natAbs k
  | a, _ => a

/-- The exact sum with NaN selection in operand order (R60). -/
def FVal.add (a b : FVal) : FVal :=
  match firstNaN [a, b] with
  | some n => n
  | none => a.addCore b

/-- The exact product without NaN operands; 0 × ∞ is the default NaN. -/
def FVal.mulCore (a b : FVal) : FVal :=
  match a, b with
  | .inf s, .inf t => .inf (s != t)
  | .inf s, .fin t m _ => if m = 0 then .dnan else .inf (s != t)
  | .fin s m _, .inf t => if m = 0 then .dnan else .inf (s != t)
  | .fin s m e, .fin t n g => .fin (s != t) (m * n) (if m * n = 0 then 0 else e + g)
  | a, _ => a

def FVal.mul (a b : FVal) : FVal :=
  match firstNaN [a, b] with
  | some n => n
  | none => a.mulCore b

/-- The exact value of a × b + c, NaNs in the order multiplier, multiplicand, addend (R60). 0 × ∞ beside a NaN addend
gives that NaN (R142, R244). -/
def FVal.fma (a b c : FVal) : FVal :=
  match firstNaN [a, b, c] with
  | some n => n
  | none =>
    let p := a.mulCore b
    if p.isNaN then p else p.addCore c

/-- a − b: the second operand's sign is inverted, a NaN's is not (R60, R142). -/
def FVal.sub (a b : FVal) : FVal := if b.isNaN then a.add b else a.add b.negate

/-- a × b − c (R244), NaNs in the order a, b, c. -/
def FVal.fms (a b c : FVal) : FVal := if c.isNaN then a.fma b c else a.fma b c.negate

/-- c − a × b (R244, R389), NaNs in the order a, b, c. -/
def FVal.fnma (a b c : FVal) : FVal := if a.isNaN then a.fma b c else a.negate.fma b c

/-- A quotient with 80 significant bits and a sticky bit, for finite non-zero operands: enough for one correct
rounding to any type under RNE and RZ. -/
def divSticky (s : Bool) (m : Nat) (e : Int) (n : Nat) (g : Int) : FVal :=
  let k := 80 + Nat.log2 n
  let num := m * 2 ^ k
  let q := num / n
  .fin s (2 * q + (if num % n = 0 then 0 else 1)) (e - g - k - 1)

/-- a / b for non-NaN operands, exact up to the sticky bit (R142). -/
def FVal.divCore (a b : FVal) : FVal :=
  match a, b with
  | .inf _, .inf _ => .dnan
  | .inf s, .fin t _ _ => .inf (s != t)
  | .fin s _ _, .inf t => .fin (s != t) 0 0
  | .fin s m e, .fin t n g =>
    if n = 0 then (if m = 0 then .dnan else .inf (s != t))
    else if m = 0 then .fin (s != t) 0 0
    else divSticky (s != t) m e n g
  | a, _ => a

def FVal.div (a b : FVal) : FVal :=
  match firstNaN [a, b] with
  | some n => n
  | none => a.divCore b

/-- The integer square root of `x`, bit by bit from bit `i − 1` down, starting from `r`. -/
def isqrtFrom (x : Nat) : Nat → Nat → Nat
  | 0, r => r
  | i + 1, r =>
    let t := r + 2 ^ i
    isqrtFrom x i (if t * t ≤ x then t else r)

/-- The integer square root. -/
def isqrt (x : Nat) : Nat := isqrtFrom x (Nat.log2 x / 2 + 1) 0

/-- √a (R142, R247): √−0 = −0, a negative non-zero operand gives the default NaN; exact up to a sticky bit. -/
def FVal.sqrt (a : FVal) : FVal :=
  match a with
  | .nan _ _ => a.quiet
  | .inf s => if s then .dnan else a
  | .fin s m e =>
    if m = 0 then a
    else if s then .dnan
    else
      let odd := e % 2
      let m1 := m * 2 ^ odd.toNat
      let e1 := e - odd
      let x := m1 * 2 ^ 200
      let r := isqrt x
      .fin false (2 * r + (if r * r = x then 0 else 1)) (e1 / 2 - 101)

/-- The order of two non-NaN values: −0 and +0 equal. Less than. -/
def FVal.lt (a b : FVal) : Bool :=
  match a, b with
  | .inf s, .inf t => s && !t
  | .inf s, .fin _ _ _ => s
  | .fin _ _ _, .inf t => !t
  | .fin s m e, .fin t n g =>
    let k := if e ≤ g then e else g
    let x : Int := (m * 2 ^ (e - k).toNat : Nat)
    let y : Int := (n * 2 ^ (g - k).toNat : Nat)
    decide ((if s then -x else x) < (if t then -y else y))
  | _, _ => false

/-- Numeric equality of two values; false for a NaN; +0 = −0 (R143). -/
def FVal.feq (a b : FVal) : Bool := !a.isNaN && !b.isNaN && !a.lt b && !b.lt a

/-- Less than with −0 below +0 (R71, R143, R242). -/
def FVal.ltz (a b : FVal) : Bool :=
  a.lt b || (a.isZero && b.isZero && a.neg? && !b.neg?)

/-- The lesser, with −0 < +0 and NaNs under R60 (R71, R143). -/
def FVal.min (a b : FVal) : FVal :=
  match firstNaN [a, b] with
  | some n => n
  | none => if b.ltz a then b else a

/-- The greater, with −0 < +0 and NaNs under R60 (R71, R143). -/
def FVal.max (a b : FVal) : FVal :=
  match firstNaN [a, b] with
  | some n => n
  | none => if a.ltz b then b else a

/-- An integer as a value. -/
def FVal.ofInt (i : Int) : FVal := .fin (decide (i < 0)) i.natAbs 0

/-- A value rounded to an integer by the mode (R61): the integer, and whether rounding changed the value.
Infinities and NaNs do not reach it. -/
def FVal.toInt (rm : RMode) (st : Word32) (v : FVal) : Int × Bool :=
  match v with
  | .fin s m e =>
    let r := roundAt rm st m e 0
    (if s then -(r.1 : Int) else r.1, r.2)
  | _ => (0, false)

/-- A number with its kind: what an element of a type holds (R43). -/
inductive Val where
  | int (i : Int)
  | flt (f : FVal)
  | cplx (re im : FVal)
  deriving DecidableEq, Repr

/-- Two's complement reading of `w` bits. -/
def signedOf (w x : Nat) : Int :=
  let x := x % 2 ^ w
  if x < 2 ^ (w - 1) then x else (x : Int) - (2 ^ w : Nat)

/-- The bits of an integer in `w` bits, modulo 2^w (R45). -/
def wrapBits (w : Nat) (i : Int) : Nat := (i % ((2 ^ w : Nat) : Int)).toNat

/-- The least value of an integer type, signed or unsigned (R45). -/
def intMin (w : Nat) (uns : Bool) : Int := if uns then 0 else -((2 ^ (w - 1) : Nat) : Int)

/-- The greatest value of an integer type, signed or unsigned (R45). -/
def intMax (w : Nat) (uns : Bool) : Int := if uns then ((2 ^ w : Nat) : Int) - 1 else ((2 ^ (w - 1) : Nat) : Int) - 1

/-- Clamp to an integer range (R45, R61). -/
def clampInt (lo hi i : Int) : Int := if i < lo then lo else if hi < i then hi else i

/-- The bits of an exact integer result: clamped when saturating, wrapped otherwise (R45). -/
def intBits (w : Nat) (uns sat : Bool) (i : Int) : Nat :=
  wrapBits w (if sat then clampInt (intMin w uns) (intMax w uns) i else i)

/-- Whether a type reads unsigned: n8 itself, or i16, i32 and i64 under the unsigned variant (R237). -/
def ET.unsigned (t : ET) (variant : Bool) : Bool := t = .n8 || (variant && (t = .i16 || t = .i32 || t = .i64))

/-- The value of an element's bits (R43); `variant` reads wide integers unsigned. An e2m1 code is read without its
block scale. -/
def ET.decode (t : ET) (variant : Bool) (x : Nat) : Val :=
  match t with
  | .cf64 => .cplx (Fmt.f64.decode (x % 2 ^ 64)) (Fmt.f64.decode (x / 2 ^ 64 % 2 ^ 64))
  | .cf32 => .cplx (Fmt.f32.decode (x % 2 ^ 32)) (Fmt.f32.decode (x / 2 ^ 32 % 2 ^ 32))
  | t => match t.fmt? with
    | some f => .flt (f.decode (x % 2 ^ t.bits))
    | none => if t.unsigned variant then .int (x % 2 ^ t.bits : Nat) else .int (signedOf t.bits x)

/-- The floating value of a number: an integer exactly, the real part of a complex. -/
def Val.toF : Val → FVal
  | .int i => FVal.ofInt i
  | .flt f => f
  | .cplx re _ => re

/-- Convert a number into a real element type (R61, R59, R60). `gen` is the generator state that SR draws from. -/
def convReal (t : ET) (uns : Bool) (rm : RMode) (sat : Bool) (gen : Word32) (v : Val) : Nat :=
  match t.fmt? with
  | some f => (f.deliver rm sat gen v.toF).1
  | none =>
    let u := t.unsigned uns
    match v with
    | .int i => intBits t.bits u sat i
    | v => match v.toF with
      | .nan _ _ => 0
      | .inf s => wrapBits t.bits (if s then intMin t.bits u else intMax t.bits u)
      | f => wrapBits t.bits (clampInt (intMin t.bits u) (intMax t.bits u) (f.toInt rm gen).1)

/-- Convert(v, ET, RM, SAT) (R190): complex types convert by component; a real source has imaginary part +0. -/
def convert (t : ET) (uns : Bool) (rm : RMode) (sat : Bool) (gen : Word32) (v : Val) : Nat :=
  if t.isC then
    let c := t.comp
    match v with
    | .cplx re im => convReal c uns rm sat gen (.flt re) + 2 ^ c.bits * convReal c uns rm sat gen (.flt im)
    | v => convReal c uns rm sat gen v
  else convReal t uns rm sat gen v

/-- The saturating conversion that also counts overflow (R431): the bits and ov. -/
def convertQuant (t : ET) (rm : RMode) (gen : Word32) (y : FVal) : Nat × Bool :=
  match t.fmt? with
  | some f =>
    match y with
    | .fin s m e =>
      if m = 0 then (f.pack s 0 0, false)
      else
        let r := f.round rm gen m e
        if r.ovf then (f.maxBits s, true) else (f.pack s r.n r.q, false)
    | .inf s => (f.maxBits s, false)
    | .nan s p => (f.nanBits s p, false)
  | none =>
    let lo := intMin t.bits false
    let hi := intMax t.bits false
    match y with
    | .nan _ _ => (0, false)
    | .inf s => (wrapBits t.bits (if s then lo else hi), false)
    | f =>
      let i := (f.toInt rm gen).1
      (wrapBits t.bits (clampInt lo hi i), decide (i < lo ∨ hi < i))

/-- The value of an E8M0 scale byte (R52): 2^(X−127); 0xFF is a NaN scale (R255). -/
def e8m0 (x : Nat) : FVal := if x = 0xFF then .dnan else .fin false 1 ((x : Int) - 127)

/-- The magnitude of an e2m1 code with its sign (R51), as an exact value scaled by 2^(X−127) (R52). -/
def e2m1Val (code x : Nat) : FVal :=
  if x = 0xFF then .dnan
  else match Fmt.e2m1.decode (code % 16) with
    | .fin s m e => .fin s m (if m = 0 then 0 else e + ((x : Int) - 127))
    | v => v

/-- ⌊log2 |v|⌋ of a finite non-zero value. -/
def FVal.ilog2 : FVal → Int
  | .fin _ m e => topExp m e
  | _ => 0

/-- The greatest magnitude of a list of values: the exponent-aligned maximum. -/
def maxAbs : List FVal → FVal
  | [] => .zero
  | v :: t => let r := maxAbs t; if r.lt v.abs then v.abs else r

/-- Clamp an integer into a natural range. -/
def clampNat (lo hi : Nat) (i : Int) : Nat := if i < lo then lo else if (hi : Int) < i then hi else i.toNat

/-- The scale byte of a block of values (R53). -/
def e2m1Scale (vs : List FVal) : Nat :=
  if vs.any (fun v => v.isNaN || v.isInf) then 0xFF
  else
    let a := maxAbs vs
    if a.isZero then 0 else clampNat 0 254 (a.ilog2 - 2 + 127)

/-- One e2m1 code (R53): v / 2^(X−127) rounded to the magnitudes of R51; above 6 becomes 6; a zero keeps its sign;
code 0 in a NaN block. -/
def e2m1Code (rm : RMode) (gen : Word32) (x : Nat) (v : FVal) : Nat :=
  if x = 0xFF then 0
  else match v with
    | .fin s m e => (Fmt.e2m1.deliver rm true gen (.fin s m (if m = 0 then 0 else e - ((x : Int) - 127)))).1
    | _ => 0

/-- The exact sum of a list of exact values, the first NaN winning; −0 only if every term is −0 (R65, R66). -/
def exactSum : List FVal → FVal
  | [] => .fin true 0 0
  | v :: t => v.add (exactSum t)

/-- Truncation toward zero to a multiple of 2^q (R63, R66). -/
def truncAt (q : Int) (v : FVal) : FVal :=
  match v with
  | .fin s m e => if q ≤ e then v else .fin s (m / 2 ^ (q - e).toNat) q
  | v => v

/-- The largest ⌊log2 |v|⌋ of the non-zero finite values of a list, if there is one (R63, R66). -/
def topLog : List FVal → Option Int
  | [] => none
  | v :: t =>
    match v with
    | .fin _ m e =>
      if m = 0 then topLog t
      else match topLog t with
        | some x => some (if x < topExp m e then topExp m e else x)
        | none => some (topExp m e)
    | _ => topLog t

/-- One real term of a CIM group: the code, and the activation it multiplies (R63). -/
structure CimTerm where
  code : Int
  act : FVal
  deriving DecidableEq, Repr

/-- The exact product of a code and a finite activation. -/
def CimTerm.prod (t : CimTerm) : FVal := (FVal.ofInt t.code).mulCore t.act

/-- The infinite terms of a group have both signs, or meet a code of 0 (R65). -/
def cimInvalid (ts : List CimTerm) : Bool :=
  ts.any (fun t => t.act.isInf && t.code = 0) ||
  (ts.any (fun t => t.act.isInf && !(t.act.neg? != decide (t.code < 0))) &&
    ts.any (fun t => t.act.isInf && (t.act.neg? != decide (t.code < 0))))

/-- The group sum Σ (R63, R65) of exact products: `bf` truncates each product under the largest one. -/
def groupSum (bf : Bool) (ps : List FVal) : FVal :=
  match firstNaN ps with
  | some n => n
  | none =>
    if ps.any FVal.isInf then exactSum ps
    else match topLog ps with
      | none => .zero
      | some t =>
        let s := exactSum (if bf then ps.map (truncAt (t - 24)) else ps)
        match s with
        | .fin _ 0 _ => .zero
        | s => s

/-- Σ of a CIM group of code and activation pairs (R63, R65). -/
def cimSum (bf : Bool) (ts : List CimTerm) : FVal :=
  match firstNaN (ts.map CimTerm.act) with
  | some n => n
  | none => if cimInvalid ts then .dnan else groupSum bf (ts.map CimTerm.prod)

/-- One bf16 tile chunk (R66): products as pairs (a, b), the accumulator kept whole. -/
def tileChunk (acc : FVal) (ps : List (FVal × FVal)) : FVal :=
  match firstNaN (acc :: (ps.map (fun p => [p.1, p.2])).flatten) with
  | some n => n
  | none =>
    let xs := ps.map (fun p => p.1.mulCore p.2)
    match firstNaN xs with
    | some n => n
    | none =>
      if acc.isInf || xs.any FVal.isInf then exactSum (acc :: xs)
      else match topLog (acc :: xs) with
        | none => exactSum (acc :: xs)
        | some t => Fmt.f32.rne (exactSum (acc :: xs.map (truncAt (t - 48))))

/-- acc := acc + a·b in a complex type (R67): two fused steps per component, each rounded RNE. -/
def cmac (f : Fmt) (a b acc : FVal × FVal) : FVal × FVal :=
  let re := f.rne (a.1.fma b.1 acc.1)
  let re := f.rne (a.2.negate.fma b.2 re)
  let im := f.rne (a.1.fma b.2 acc.2)
  let im := f.rne (a.2.fma b.1 im)
  (re, im)

/-- The sum RoundNE(a + b) of a reduction in a type (R68). -/
def Fmt.sum2 (f : Fmt) (a b : FVal) : FVal := f.rne (a.add b)

/-- The largest power of two less than n, for n ≥ 2 (R69). -/
def splitPow2 (n : Nat) : Nat := 2 ^ Nat.log2 (n - 1)

/-- A sum over a binary tree whose splits `split depth lo n` gives (R68, R69); `fuel` bounds the depth. -/
def treeSum (f : Fmt) (split : Nat → Nat → Nat) : Nat → Nat → List FVal → FVal
  | 0, _, _ => .zero
  | _ + 1, _, [] => .zero
  | _ + 1, _, [v] => v
  | fuel + 1, lo, vs =>
    let n := vs.length
    let m := split lo n
    f.sum2 (treeSum f split fuel lo (vs.take m)) (treeSum f split fuel (lo + m) (vs.drop m))

/-- CanonSum (R69). -/
def canonSum (f : Fmt) (vs : List FVal) : FVal := treeSum f (fun _ n => splitPow2 n) (vs.length + 1) 0 vs

/-- A sum in some binary association, in the order of the values, with splits drawn from `pick` (R68, default mode). -/
def assocSum (f : Fmt) (pick : Nat → Nat → Nat) (vs : List FVal) : FVal :=
  treeSum f (fun lo n => 1 + pick lo n % (n - 1)) (vs.length + 1) 0 vs

/-- MaxFmt of the types a scale may be formed for (R168); none for the others. -/
def maxFmt : ET → Option FVal
  | .i8 => some (.ofInt 127)
  | .q4 => some (.ofInt 7)
  | .q3 => some (.ofInt 3)
  | .e4m3 => some (.ofInt 448)
  | .e5m2 => some (.ofInt 57344)
  | .f16 => some (.ofInt 65504)
  | .e2m1 => some (.ofInt 6)
  | _ => none

/-- ⌊log2 (a / b)⌋ of positive finite values, exactly. -/
def log2Quot (a b : FVal) : Int :=
  match a, b with
  | .fin _ m e, .fin _ n g =>
    let x := topExp m e - topExp n g
    if (FVal.fin false m e).lt ((FVal.fin false n g).mulCore (.fin false 1 x)) then x - 1 else x
  | _, _ => 0

/-- The scale of R168 for a record's AMAX bits: an E8M0 byte (pow2) or f32 bits (exact with margin m). -/
def qscaleOf (t : ET) (exact : Bool) (m : Nat) (amax : Nat) : Nat :=
  let a := (Fmt.f32.decode (amax % 2 ^ 32)).abs
  let mx := (maxFmt t).getD .zero
  match a with
  | .nan _ _ => if exact then 0x7FC00000 else 0xFF
  | .inf _ => 0
  | .fin _ 0 _ => if exact then 0x3F800000 else 127
  | a =>
    if exact then (Fmt.f32.deliver .rne true 0 (mx.divCore (a.mulCore (.fin false 1 m)))).1
    else clampNat 0 254 (127 + log2Quot mx a)

/-- A scale read as a value (R195, R255, R315): an E8M0 byte or f32 bits. -/
def scaleVal (exact : Bool) (s : Nat) : FVal := if exact then Fmt.f32.decode s else e8m0 (s % 256)

/-- RoundUp(|v|, f32) as bits: toward +∞, saturating at the largest finite value (R324). -/
def roundUpF32 (v : FVal) : Nat :=
  match v with
  | .fin _ m e =>
    if m = 0 then 0
    else
      let f := Fmt.f32
      let x := topExp m e
      let q := (if x < -126 then -126 else x) - 23
      let r := roundAt .rz 0 m e q
      let n := if r.2 then r.1 + 1 else r.1
      if f.exceeds n q then 0x7F7FFFFF else f.pack false n q
  | _ => 0

end Sys2Proof.Machine
end

