-- ==== Sys2Proof/Syntax/Types.lean ====
section
/-! DEFINITION. What an instruction or a machine event carries, besides plain bit fields: the queue or the
context an event concerns, and the packets and messages that reach the module from outside. -/

namespace Sys2Proof

/-- The wait and signal fields of a long instruction's word 1 (R113, R115). -/
structure WaitSig where
  wsem : BitVec 8
  wthr : BitVec 12
  ssem : BitVec 8
  sinc : BitVec 4
  deriving DecidableEq, Repr

/-- The queues and engines of a core that run journalled commands (R22). A COLL.ABT runs ahead of every COLL of its core, and a COLL behind it waits. -/
inductive Queue where
  | load | store | gather | reduce | matrix | launcher | coll | sill | abort
  deriving DecidableEq, Repr

/-- What the residue check of a jig step finds (R310, R311): an outside fact, since it comes from a column's failure. -/
inductive ResidueCheck where
  | ok
  /-- a column fails and a spare takes its place -/
  | retry (unitNo : Nat)
  /-- a column fails and no spare is left -/
  | uncorrectable (unitNo : Nat)
  deriving DecidableEq, Repr

/-- The work that waits for firmware after cause 0x0B (R368, R369). -/
inductive AccWork where
  | context (ctx : Nat)
  | command (q : Queue)
  deriving DecidableEq, Repr

/-- The operations a merge atomic or merge element may perform (R121, R147). -/
inductive MergeOp where
  | add | fadd | bfadd2 | min | max | minn | maxn | fmin | fmax | and | or | xor | swap
  deriving DecidableEq, Repr

/-- What a Faunnak packet asks for (R401, R402). -/
inductive FabricBody where
  | load (pa : Nat) (size : Nat)
  | store (pa : Nat) (data : List Byte)
  | atomic (op : MergeOp) (pa : Nat) (size : Nat) (operand : Word)
  | compareSwap (pa : Nat) (size : Nat) (expected new : Word)
  | merge (op : MergeOp) (pa : Nat) (size : Nat) (operand : Word) (release mw det : Bool)
  | scribeInit (pa : Nat) (et : BitVec 4)
  | scribeNext (pa : Nat)
  | scribeRead (pa : Nat) (size : Nat)
  | scribeMerge (pa : Nat) (data : List Nat)
  | response (data : List Byte)
  | ack
  | error (poison : Bool)
  | collStep (bay : Nat) (round src step : Nat) (data : List Byte) (det : Bool)
  deriving DecidableEq, Repr

/-- A Faunnak packet: source and destination package, key slot the access names, and its body (R401, R402, R84); `also` the further packages
whose merges a router has combined into it (R405). -/
structure FabricPacket where
  src : Nat
  also : List Nat
  dst : Nat
  slot : Nat
  body : FabricBody
  deriving DecidableEq, Repr

/-- A collective step message (R402 VC 3, R406): the round, the member position it comes from, its contribution and
whether that member's bent or RECV page asks for deterministic mode. -/
structure CollMsg where
  round : BitVec 32
  src : Nat
  data : List Byte
  det : Bool
  deriving DecidableEq, Repr

/-- A COLL.ABT's message to a member's engine (R409). -/
structure CollAbortMsg where
  round : BitVec 32
  src : Nat
  deriving DecidableEq, Repr

/-- What a received Ethernet frame carries (R410): an ARP request, a neighbour solicitation, a UDP datagram, a PTP message in a frame of its own, or
anything else. -/
inductive FrameKind where
  | arp (addr : List Byte)
  | neighbor (addr : List Byte)
  | udp (dst : List Byte) (port : Nat)
  | ptp
  | other
  deriving DecidableEq, Repr

/-- A received Ethernet frame (R410): its port, its length in bytes and what it carries. -/
structure EthFrame where
  port : Nat
  length : Nat
  kind : FrameKind
  deriving DecidableEq, Repr

/-- A RoCEv2 packet as a port receives it (R411, R412): its destination address, BTH and RETH fields, sealed payload and tag. -/
structure RocePacket where
  port : Nat
  dst : List Byte
  reliableConnected : Bool
  opcode : Byte
  qpn : BitVec 24
  psn : BitVec 24
  rkey : BitVec 32
  va : Word
  len : BitVec 32
  payload : List Byte
  tag : List Byte
  header : List Byte
  /-- marked by the network for congestion -/
  ecn : Bool
  deriving DecidableEq, Repr

/-- How a PTP message travelled (R414). -/
inductive PtpTransport where
  | udp4 | udp6 | ethernet
  deriving DecidableEq, Repr

/-- The PTP messages a time receiver acts on (R414); times are in nanoseconds. `dataset` is an announce message's
data set in the order the default best-master algorithm compares it. -/
inductive PtpMessage where
  | announce (port : Nat) (tr : PtpTransport) (domain : Nat) (sender : Nat) (dataset : List Nat)
  | sync (port : Nat) (tr : PtpTransport) (domain : Nat) (sender : Nat) (seqId : Nat) (twoStep : Bool) (origin : Nat)
  | followUp (port : Nat) (tr : PtpTransport) (domain : Nat) (sender : Nat) (seqId : Nat) (origin : Nat)
  | delayResp (port : Nat) (tr : PtpTransport) (domain : Nat) (sender : Nat) (seqId : Nat) (received : Nat)
  deriving DecidableEq, Repr

/-- A configuration record (R421): the fields the module reads from it. -/
structure ConfigRecord where
  pkg : Nat
  addresses : List (List Byte)
  ptpDomain : Nat
  routes : List (Nat × Nat)
  ownerKeys : List (List Byte)
  floor : Nat
  deriving DecidableEq, Repr

/-- A firmware image as boot ROM finds it (R420): the image, its security version and build number, the public key it comes with and its
signature. -/
structure Firmware where
  image : List Byte
  version : BitVec 64
  build : BitVec 64
  vendorKey : List Byte
  signature : List Byte
  deriving DecidableEq, Repr

/-- What bring-up meets outside the module's own state (R428): the root secret as the PUF gives it, the firmware, the trained channels, the cores of
each bay that pass their tests, by their physical index in the bay, and whether the flash list of cores to disable is authentic. -/
structure BringUp where
  root : List Byte
  firmware : Firmware
  chans : Nat
  passed : List (List Nat)
  flashListValid : Bool
  deriving DecidableEq, Repr

/-- The modes of SLD (R194): how the source is walked. -/
inductive SldMode where
  | plain | strided | transpose | gather
  deriving DecidableEq, Repr

/-- SST's quantising choice (R179 row 0x02, R195): none, a power-of-two scale, or an exact scale with margin `m`;
`dw` takes the window from the captured SCRB.WIN. -/
inductive SstQuant where
  | none
  | pow2 (dw : Bool)
  | exact (m : BitVec 2) (dw : Bool)
  deriving DecidableEq, Repr

/-- The spaces SALLOC and SFREE name (R179 row 0x08). -/
inductive LocalSpace where
  | srf | wb | acc
  deriving DecidableEq, Repr

/-- An 8-byte unit of protected storage inside the module (R424): of a core's SRF, WB, ACC or scale rows; of a context's vector registers,
scalars or operand ports in a cluster; of a line of a bay's L2 slice; or a line of a control core's data cache. -/
inductive StorageUnit where
  | buffer (core : Nat) (sp : LocalSpace) (unitNo : Nat)
  | scaleRows (core unitNo : Nat)
  | vector (core ctx cid reg unitNo : Nat)
  | scalar (core ctx cid reg : Nat)
  | operand (core ctx cid port unitNo : Nat)
  | l2 (bay line unitNo : Nat)
  | l1 (core line : Nat)
  deriving DecidableEq, Repr

/-- What error detection finds (R424): an outside fact. The first three speak of the HBM4 location of the event; the last of an uncorrectable error
in other storage of the module (log 90). -/
inductive EccCheck where
  | ok | corrected | uncorrectable
  | storage (u : StorageUnit)
  deriving DecidableEq, Repr

/-- A line of a cache (R99): its physical address div 64, in a core's data cache, or in the L2 slice of the bay (none). -/
structure CachedAt where
  line : Nat
  core : Option Nat
  deriving DecidableEq, Repr

/-- What the power manager and the die sensors measure (R422, R427): module input power in W, and each bay's hottest die in °C. -/
structure PowerReading where
  watts : Nat
  temps : List Int
  deriving DecidableEq, Repr

/-- Who signed a configuration record offered as an update (R421). -/
inductive RecordSigner where
  | vendor | owner (index : Nat) | nobody
  deriving DecidableEq, Repr

end Sys2Proof
end

