-- ==== Sys2Proof/Syntax.lean ====
section
/-! DEFINITION. The instructions of the control core and the events of the machine: one constructor for every row of
the opcode table. Fields are named as the table names them; a field has the width of its encoding, so every value of
the field is a value of the type. The long commands follow R179. -/

namespace Sys2Proof

inductive Instr where
  /-- ADD (R137): Sets x[XD] to x[XA] plus x[XB], modulo 2^64. -/
  | add (d : RegNo) (a : RegNo) (b : RegNo)
  /-- SUB (R137): Sets x[XD] to x[XA] minus x[XB], modulo 2^64. -/
  | sub (d : RegNo) (a : RegNo) (b : RegNo)
  /-- AND (R137): Sets x[XD] to the bitwise and of two registers. -/
  | and (d : RegNo) (a : RegNo) (b : RegNo)
  /-- OR (R137): Sets x[XD] to the bitwise or of two registers. -/
  | or (d : RegNo) (a : RegNo) (b : RegNo)
  /-- XOR (R137): Sets x[XD] to the bitwise xor of two registers. -/
  | xor (d : RegNo) (a : RegNo) (b : RegNo)
  /-- SLL (R137): Shifts left logically by the low six bits of x[XB]. -/
  | sll (d : RegNo) (a : RegNo) (b : RegNo)
  /-- SRL (R137): Shifts right logically, filling with zeros. -/
  | srl (d : RegNo) (a : RegNo) (b : RegNo)
  /-- SRA (R137): Shifts right arithmetically, filling with bit 63. -/
  | sra (d : RegNo) (a : RegNo) (b : RegNo)
  /-- SLT (R137): Sets 1 when x[XA] is less than x[XB] as i64, else 0. -/
  | slt (d : RegNo) (a : RegNo) (b : RegNo)
  /-- SLT_N (R137): Sets 1 when x[XA] is less than x[XB] as n64, else 0. -/
  | sltN (d : RegNo) (a : RegNo) (b : RegNo)
  /-- MIN (R137): Sets the lesser of two registers as i64. -/
  | min (d : RegNo) (a : RegNo) (b : RegNo)
  /-- MAX (R137): Sets the greater of two registers as i64. -/
  | max (d : RegNo) (a : RegNo) (b : RegNo)
  /-- MIN_N (R137): Sets the lesser of two registers as n64. -/
  | minN (d : RegNo) (a : RegNo) (b : RegNo)
  /-- MAX_N (R137): Sets the greater of two registers as n64. -/
  | maxN (d : RegNo) (a : RegNo) (b : RegNo)
  /-- ROR (R137): Rotates x[XA] right by the low six bits of x[XB]. -/
  | ror (d : RegNo) (a : RegNo) (b : RegNo)
  /-- CLZ (R137): Counts leading zero bits of x[XA]; 64 for zero. -/
  | clz (d : RegNo) (a : RegNo)
  /-- CTZ (R137): Counts trailing zero bits of x[XA]; 64 for zero. -/
  | ctz (d : RegNo) (a : RegNo)
  /-- POPC (R137): Counts the one bits of x[XA]. -/
  | popc (d : RegNo) (a : RegNo)
  /-- ADD_W (R137): Adds and sign-extends the low 32 bits of the sum. -/
  | addW (d : RegNo) (a : RegNo) (b : RegNo)
  /-- SUB_W (R137): Subtracts and sign-extends the low 32 bits of the difference. -/
  | subW (d : RegNo) (a : RegNo) (b : RegNo)
  /-- MUL (R138): Sets the low 64 bits of the product. -/
  | mul (d : RegNo) (a : RegNo) (b : RegNo)
  /-- MULH (R138): Sets the high 64 bits of the signed 128-bit product. -/
  | mulh (d : RegNo) (a : RegNo) (b : RegNo)
  /-- MULH_N (R138): Sets the high 64 bits of the unsigned 128-bit product. -/
  | mulhN (d : RegNo) (a : RegNo) (b : RegNo)
  /-- DIV (R138): Signed division toward zero; all ones for a zero divisor, no trap. -/
  | div (d : RegNo) (a : RegNo) (b : RegNo)
  /-- DIV_N (R138): Unsigned division; 2^64 - 1 for a zero divisor. -/
  | divN (d : RegNo) (a : RegNo) (b : RegNo)
  /-- REM (R138): Signed remainder with the sign of the dividend; the dividend for a zero divisor. -/
  | rem (d : RegNo) (a : RegNo) (b : RegNo)
  /-- REM_N (R138): Unsigned remainder; the dividend for a zero divisor. -/
  | remN (d : RegNo) (a : RegNo) (b : RegNo)
  /-- ADDI (R139): Adds a sign-extended 16-bit immediate. -/
  | addi (d : RegNo) (a : RegNo) (i : BitVec 16)
  /-- ANDI (R139): Ands with a zero-extended 16-bit immediate. -/
  | andi (d : RegNo) (a : RegNo) (i : BitVec 16)
  /-- ORI (R139): Ors with a zero-extended 16-bit immediate. -/
  | ori (d : RegNo) (a : RegNo) (i : BitVec 16)
  /-- XORI (R139): Xors with a zero-extended 16-bit immediate. -/
  | xori (d : RegNo) (a : RegNo) (i : BitVec 16)
  /-- SLTI (R139): Signed compare with a sign-extended immediate. -/
  | slti (d : RegNo) (a : RegNo) (i : BitVec 16)
  /-- SLTI_N (R139): Unsigned compare with a sign-extended immediate. -/
  | sltiN (d : RegNo) (a : RegNo) (i : BitVec 16)
  /-- SLLI (R139): Shifts left logically by an immediate count. -/
  | slli (d : RegNo) (a : RegNo) (n : BitVec 6)
  /-- SRLI (R139): Shifts right logically by an immediate count. -/
  | srli (d : RegNo) (a : RegNo) (n : BitVec 6)
  /-- SRAI (R139): Shifts right arithmetically by an immediate count. -/
  | srai (d : RegNo) (a : RegNo) (n : BitVec 6)
  /-- RORI (R139): Rotates right by an immediate count. -/
  | rori (d : RegNo) (a : RegNo) (n : BitVec 6)
  /-- LUI (R139): Loads a sign-extended immediate shifted left by 16. -/
  | lui (d : RegNo) (i : BitVec 16)
  /-- LPC (R139): Sets PC plus a sign-extended immediate shifted left by 16. -/
  | lpc (d : RegNo) (i : BitVec 16)
  /-- FADD_F64 (R142): Adds two f64 values, rounding once by RM. -/
  | faddF64 (d : RegNo) (a : RegNo) (b : RegNo) (m : BitVec 2)
  /-- FSUB_F64 (R142): Subtracts two f64 values. -/
  | fsubF64 (d : RegNo) (a : RegNo) (b : RegNo) (m : BitVec 2)
  /-- FMUL_F64 (R142): Multiplies two f64 values. -/
  | fmulF64 (d : RegNo) (a : RegNo) (b : RegNo) (m : BitVec 2)
  /-- FDIV_F64 (R142): Divides two f64 values. -/
  | fdivF64 (d : RegNo) (a : RegNo) (b : RegNo) (m : BitVec 2)
  /-- FSQRT_F64 (R142): Takes the f64 square root. -/
  | fsqrtF64 (d : RegNo) (a : RegNo) (m : BitVec 2)
  /-- FMIN_F64 (R143): Sets the lesser f64 value, -0 below +0. -/
  | fminF64 (d : RegNo) (a : RegNo) (b : RegNo)
  /-- FMAX_F64 (R143): Sets the greater f64 value. -/
  | fmaxF64 (d : RegNo) (a : RegNo) (b : RegNo)
  /-- FMA_F64 (R142): Sets fd to fa times fb plus fd with one rounding, f64. -/
  | fmaF64 (d : RegNo) (a : RegNo) (b : RegNo) (m : BitVec 2)
  /-- FABS_F64 (R142): Clears the sign bit of an f64 value. -/
  | fabsF64 (d : RegNo) (a : RegNo)
  /-- FNEG_F64 (R142): Inverts the sign bit of an f64 value. -/
  | fnegF64 (d : RegNo) (a : RegNo)
  /-- FEQ_F64 (R143): Writes 1 to x[XD] when two f64 values are equal. -/
  | feqF64 (d : RegNo) (a : RegNo) (b : RegNo)
  /-- FLT_F64 (R143): Writes 1 when fa is less than fb, f64. -/
  | fltF64 (d : RegNo) (a : RegNo) (b : RegNo)
  /-- FLE_F64 (R143): Writes 1 when fa is at most fb, f64. -/
  | fleF64 (d : RegNo) (a : RegNo) (b : RegNo)
  /-- FCLASS_F64 (R143): Writes the class code of an f64 value. -/
  | fclassF64 (d : RegNo) (a : RegNo)
  /-- FADD_F32 (R142): Adds two f32 values, rounding once by RM. -/
  | faddF32 (d : RegNo) (a : RegNo) (b : RegNo) (m : BitVec 2)
  /-- FSUB_F32 (R142): Subtracts two f32 values. -/
  | fsubF32 (d : RegNo) (a : RegNo) (b : RegNo) (m : BitVec 2)
  /-- FMUL_F32 (R142): Multiplies two f32 values. -/
  | fmulF32 (d : RegNo) (a : RegNo) (b : RegNo) (m : BitVec 2)
  /-- FDIV_F32 (R142): Divides two f32 values. -/
  | fdivF32 (d : RegNo) (a : RegNo) (b : RegNo) (m : BitVec 2)
  /-- FSQRT_F32 (R142): Takes the f32 square root. -/
  | fsqrtF32 (d : RegNo) (a : RegNo) (m : BitVec 2)
  /-- FMIN_F32 (R143): Sets the lesser f32 value. -/
  | fminF32 (d : RegNo) (a : RegNo) (b : RegNo)
  /-- FMAX_F32 (R143): Sets the greater f32 value. -/
  | fmaxF32 (d : RegNo) (a : RegNo) (b : RegNo)
  /-- FMA_F32 (R142): Fused multiply-add in f32 into fd. -/
  | fmaF32 (d : RegNo) (a : RegNo) (b : RegNo) (m : BitVec 2)
  /-- FABS_F32 (R142): Clears the sign bit of an f32 value. -/
  | fabsF32 (d : RegNo) (a : RegNo)
  /-- FNEG_F32 (R142): Inverts the sign bit of an f32 value. -/
  | fnegF32 (d : RegNo) (a : RegNo)
  /-- FEQ_F32 (R143): Writes 1 when two f32 values are equal. -/
  | feqF32 (d : RegNo) (a : RegNo) (b : RegNo)
  /-- FLT_F32 (R143): Writes 1 when fa is less than fb, f32. -/
  | fltF32 (d : RegNo) (a : RegNo) (b : RegNo)
  /-- FLE_F32 (R143): Writes 1 when fa is at most fb, f32. -/
  | fleF32 (d : RegNo) (a : RegNo) (b : RegNo)
  /-- FCLASS_F32 (R143): Writes the class code of an f32 value. -/
  | fclassF32 (d : RegNo) (a : RegNo)
  /-- CVT_F64_I64 (R144): Converts x[XA] as i64 to f64. -/
  | cvtF64I64 (d : RegNo) (a : RegNo) (m : BitVec 2)
  /-- CVT_F64_N64 (R144): Converts x[XA] as n64 to f64. -/
  | cvtF64N64 (d : RegNo) (a : RegNo) (m : BitVec 2)
  /-- CVT_I64_F64 (R144): Converts f64 to i64, rounding and clamping. -/
  | cvtI64F64 (d : RegNo) (a : RegNo) (m : BitVec 2)
  /-- CVT_N64_F64 (R144): Converts f64 to n64, rounding and clamping. -/
  | cvtN64F64 (d : RegNo) (a : RegNo) (m : BitVec 2)
  /-- CVT_F32_I64 (R144): Converts x[XA] as i64 to f32. -/
  | cvtF32I64 (d : RegNo) (a : RegNo) (m : BitVec 2)
  /-- CVT_F32_N64 (R144): Converts x[XA] as n64 to f32. -/
  | cvtF32N64 (d : RegNo) (a : RegNo) (m : BitVec 2)
  /-- CVT_I64_F32 (R144): Converts f32 to i64. -/
  | cvtI64F32 (d : RegNo) (a : RegNo) (m : BitVec 2)
  /-- CVT_N64_F32 (R144): Converts f32 to n64. -/
  | cvtN64F32 (d : RegNo) (a : RegNo) (m : BitVec 2)
  /-- CVT_F64_F32 (R144): Widens f32 to f64 exactly. -/
  | cvtF64F32 (d : RegNo) (a : RegNo)
  /-- CVT_F32_F64 (R144): Narrows f64 to f32, rounding by RM. -/
  | cvtF32F64 (d : RegNo) (a : RegNo) (m : BitVec 2)
  /-- FMV_X (R144): Copies the 64 bits of an f register into an x register. -/
  | fmvX (d : RegNo) (a : RegNo)
  /-- FMV_F (R144): Copies the 64 bits of an x register into an f register. -/
  | fmvF (d : RegNo) (a : RegNo)
  /-- LD_B (R145): Loads a byte, sign-extended. -/
  | ldB (d : RegNo) (a : RegNo) (c : BitVec 4) (o : BitVec 2) (f : BitVec 10)
  /-- LD_H (R145): Loads 2 bytes, sign-extended. -/
  | ldH (d : RegNo) (a : RegNo) (c : BitVec 4) (o : BitVec 2) (f : BitVec 10)
  /-- LD_W (R145): Loads 4 bytes, sign-extended. -/
  | ldW (d : RegNo) (a : RegNo) (c : BitVec 4) (o : BitVec 2) (f : BitVec 10)
  /-- LD_D (R145): Loads 8 bytes. -/
  | ldD (d : RegNo) (a : RegNo) (c : BitVec 4) (o : BitVec 2) (f : BitVec 10)
  /-- LD_BN (R145): Loads a byte, zero-extended. -/
  | ldBn (d : RegNo) (a : RegNo) (c : BitVec 4) (o : BitVec 2) (f : BitVec 10)
  /-- LD_HN (R145): Loads 2 bytes, zero-extended. -/
  | ldHn (d : RegNo) (a : RegNo) (c : BitVec 4) (o : BitVec 2) (f : BitVec 10)
  /-- LD_WN (R145): Loads 4 bytes, zero-extended. -/
  | ldWn (d : RegNo) (a : RegNo) (c : BitVec 4) (o : BitVec 2) (f : BitVec 10)
  /-- LD_FW (R145): Loads an f32 into an f register, upper bits zero. -/
  | ldFw (d : RegNo) (a : RegNo) (c : BitVec 4) (o : BitVec 2) (f : BitVec 10)
  /-- LD_FD (R145): Loads an f64 into an f register. -/
  | ldFd (d : RegNo) (a : RegNo) (c : BitVec 4) (o : BitVec 2) (f : BitVec 10)
  /-- LD_A16 (R101): Loads 16 bytes single-copy atomically into an even register pair. -/
  | ldA16 (d : BitVec 4) (a : RegNo) (c : BitVec 4) (o : BitVec 2) (f : BitVec 10)
  /-- LD_V16 (R145): Loads 16 bytes as two atomic 8-byte halves into a register pair. -/
  | ldV16 (d : BitVec 4) (a : RegNo) (c : BitVec 4) (o : BitVec 2) (f : BitVec 10)
  /-- ST_B (R145): Stores the low byte of x[XS]. -/
  | stB (s : RegNo) (a : RegNo) (c : BitVec 4) (o : BitVec 2) (f : BitVec 10)
  /-- ST_H (R145): Stores the low 2 bytes. -/
  | stH (s : RegNo) (a : RegNo) (c : BitVec 4) (o : BitVec 2) (f : BitVec 10)
  /-- ST_W (R145): Stores the low 4 bytes. -/
  | stW (s : RegNo) (a : RegNo) (c : BitVec 4) (o : BitVec 2) (f : BitVec 10)
  /-- ST_D (R145): Stores 8 bytes. -/
  | stD (s : RegNo) (a : RegNo) (c : BitVec 4) (o : BitVec 2) (f : BitVec 10)
  /-- ST_FW (R145): Stores bits 31:0 of an f register. -/
  | stFw (s : RegNo) (a : RegNo) (c : BitVec 4) (o : BitVec 2) (f : BitVec 10)
  /-- ST_FD (R145): Stores all 64 bits of an f register. -/
  | stFd (s : RegNo) (a : RegNo) (c : BitVec 4) (o : BitVec 2) (f : BitVec 10)
  /-- ST_A16 (R101): Stores a register pair as one atomic 16-byte unit. -/
  | stA16 (s : BitVec 4) (a : RegNo) (c : BitVec 4) (o : BitVec 2) (f : BitVec 10)
  /-- ST_V16 (R145): Stores a register pair as two atomic 8-byte halves. -/
  | stV16 (s : BitVec 4) (a : RegNo) (c : BitVec 4) (o : BitVec 2) (f : BitVec 10)
  /-- AMO_W (R147): Performs the 4-byte atomic operation that AOP names at home, optionally as a merge. -/
  | amoW (d : RegNo) (a : RegNo) (b : RegNo) (p : BitVec 4) (m : BitVec 1) (o : BitVec 2) (c : BitVec 4)
  /-- AMO_D (R147): Performs the 8-byte atomic operation that AOP names at home, optionally as a merge. -/
  | amoD (d : RegNo) (a : RegNo) (b : RegNo) (p : BitVec 4) (m : BitVec 1) (o : BitVec 2) (c : BitVec 4)
  /-- CAS_W (R148): Compares and swaps 4 bytes bit for bit at home. -/
  | casW (d : RegNo) (a : RegNo) (b : RegNo) (o : BitVec 2) (c : BitVec 4)
  /-- CAS_D (R148): Compares and swaps 8 bytes bit for bit at home. -/
  | casD (d : RegNo) (a : RegNo) (b : RegNo) (o : BitVec 2) (c : BitVec 4)
  /-- BEQ (R140): Branches when two registers are equal. -/
  | beq (a : RegNo) (b : RegNo) (o : BitVec 16)
  /-- BNE (R140): Branches when two registers differ. -/
  | bne (a : RegNo) (b : RegNo) (o : BitVec 16)
  /-- BLT (R140): Branches on signed less than. -/
  | blt (a : RegNo) (b : RegNo) (o : BitVec 16)
  /-- BGE (R140): Branches on signed greater or equal. -/
  | bge (a : RegNo) (b : RegNo) (o : BitVec 16)
  /-- BLT_N (R140): Branches on unsigned less than. -/
  | bltN (a : RegNo) (b : RegNo) (o : BitVec 16)
  /-- BGE_N (R140): Branches on unsigned greater or equal. -/
  | bgeN (a : RegNo) (b : RegNo) (o : BitVec 16)
  /-- J (R140): Jumps PC-relative by a 26-bit word offset. -/
  | j (o : BitVec 26)
  /-- JAL (R140): Jumps and writes PC + 4 to x31. -/
  | jal (o : BitVec 26)
  /-- JALR (R140): Jumps to x[XA] plus an immediate, writing the link to x[XD]. -/
  | jalr (d : RegNo) (a : RegNo) (i : BitVec 16)
  /-- FENCE (R290): Stalls until the fence takes effect at its scope over the classes of CMASK. -/
  | fence (s : BitVec 3) (o : BitVec 2) (m : BitVec 16)
  /-- GETS (R170): Reads a state register into x[XD]. -/
  | gets (d : RegNo) (i : BitVec 12)
  /-- PUTS (R170): Writes x[XA] to a state register under its access level. -/
  | puts (a : RegNo) (i : BitVec 12)
  /-- MWAIT (R151): Arms a line monitor and waits for the 8-byte word to differ or its line to be written. -/
  | mwait (d : RegNo) (a : RegNo)
  /-- PHREG (R157): Registers the peg with a phaser in a mode. -/
  | phreg (m : BitVec 2) (n : BitVec 10)
  /-- PHDROP (R157): Removes the peg's membership, counting as a signal when due. -/
  | phdrop (n : BitVec 10)
  /-- PHSIG (R157): Raises the peg's local phase on a phaser. -/
  | phsig (n : BitVec 10)
  /-- PHWAIT (R157): Waits until the phaser reaches the peg's local phase. -/
  | phwait (d : RegNo) (n : BitVec 10)
  /-- SEMSIG (R153): Adds a signed 16-bit increment to a semaphore, trapping on overflow. -/
  | semsig (a : RegNo) (n : BitVec 8)
  /-- SEMWAIT (R153): Stalls until a semaphore count reaches the threshold. -/
  | semwait (a : RegNo) (n : BitVec 8)
  /-- SEMWAIT_S (R153): Waits on a semaphore, suspending a pinned peg. -/
  | semwaitS (a : RegNo) (n : BitVec 8)
  /-- SEMRD (R153): Reads a semaphore count. -/
  | semrd (d : RegNo) (n : BitVec 8)
  /-- SPAWN (R159): Creates a ready peg from a 64-byte template. -/
  | spawn (d : RegNo) (a : RegNo)
  /-- JOIN (R160): Suspends until the peg's JoinCount is zero. -/
  | join
  /-- YIELD (R161): Suspends the peg and requeues it as the youngest. -/
  | yield
  /-- EXIT (R161): Drains the peg's work, releases its allocations and ends it. -/
  | exit
  /-- BENT_NEW (R162): Creates a child bent from a 256-byte template. -/
  | bentNew (d : RegNo) (a : RegNo)
  /-- BENT_KILL (R163): Puts a bent and its descendants into draining. -/
  | bentKill (a : RegNo)
  /-- ENQ (R164): Makes a peg record ready in its bent and returns a status. -/
  | enq (d : RegNo) (a : RegNo)
  /-- SCRB_INIT (R165): Initialises a scribe record at home. -/
  | scrbInit (a : RegNo) (t : BitVec 4)
  /-- SCRB_NEXT (R166): Advances a record's epoch and clears its statistics. -/
  | scrbNext (d : RegNo) (a : RegNo)
  /-- SCRB_RD (R167): Reads one 4-byte word of a scribe record. -/
  | scrbRd (d : RegNo) (a : RegNo) (w : BitVec 5)
  /-- QSCALE_POW2 (R168): Forms an E8M0 quantisation scale from a record. -/
  | qscalePow2 (d : RegNo) (a : RegNo) (t : BitVec 4) (v : BitVec 1) (w : BitVec 2)
  /-- QSCALE_EXACT (R168): Forms an exact f32 quantisation scale from a record. -/
  | qscaleExact (d : RegNo) (a : RegNo) (t : BitVec 4) (v : BitVec 1) (w : BitVec 2) (m : BitVec 2)
  /-- EST (R169): Writes an engine register. -/
  | est (d : RegNo) (a : RegNo) (i : BitVec 12)
  /-- ELD (R169): Reads an engine register. -/
  | eld (d : RegNo) (a : RegNo) (i : BitVec 12)
  /-- TRAP (R171): Takes the breakpoint trap with IDX in TRAP.INFO. -/
  | trap (i : BitVec 12)
  /-- TRET (R358): Ends a trap handler, resumes at TRAP.PC and starts replay. -/
  | tret
  /-- ECALL (R173): Calls a firmware service. -/
  | ecall (i : BitVec 12)
  /-- TLBI (R174): Removes the translations covering one address from every bay. -/
  | tlbi (a : RegNo)
  /-- TLBI_ALL (R174): Removes every translation of the tree. -/
  | tlbiAll
  /-- KLOCK (R386): Locks kernel instruction memory lines, evicting idle lower-priority locks. -/
  | klock (d : RegNo) (a : RegNo)
  /-- KUNLOCK (R175): Releases the bent's locks on the named lines. -/
  | kunlock (a : RegNo)
  /-- IFLUSH (R176): Waits for earlier stores and invalidates every instruction cache. -/
  | iflush
  /-- TSTAMP (R177): Reads the global timestamp. -/
  | tstamp (d : RegNo)
  /-- JDROP (R172): Ends the trapped work without completing it, optionally signalling. -/
  | jdrop (a : RegNo)
  /-- SLD (R194): Journals a load from global memory into the SRF, an open WB region or the ACC. -/
  | sld (mode : SldMode) (cj : Bool) (c a b : BitVec 4) (ws : WaitSig)
  /-- SST (R195): Journals a store of a local buffer into global memory, optionally quantising. -/
  | sst (q : SstQuant) (c a b : BitVec 4) (ws : WaitSig)
  /-- SGTH (R196): Journals a gather of global elements into the SRF through an index. -/
  | sgth (c a b : BitVec 4) (ws : WaitSig)
  /-- SSCT (R196): Journals a scatter, or scatter-add, of SRF elements into global memory. -/
  | ssct (mrg : Bool) (c a b : BitVec 4) (ws : WaitSig)
  /-- SRED (R197): Journals a merge-add of SRF or ACC elements into global memory. -/
  | sred (c a b : BitVec 4) (ws : WaitSig)
  /-- SCPY (R198): Journals a converting copy between local spaces. -/
  | scpy (a b : BitVec 4) (ws : WaitSig)
  /-- SBANK (R199): Journals a change of an SRF bank's format register. -/
  | sbank (k : BitVec 4) (a : RegNo) (ws : WaitSig)
  /-- SALLOC (R193): Journals the claim of an SRF, WB or ACC range for the peg. -/
  | salloc (sp : LocalSpace) (a b : RegNo) (ws : WaitSig)
  /-- SFREE (R193): Journals the release of one allocation. -/
  | sfree (sp : LocalSpace) (a b : RegNo) (ws : WaitSig)
  /-- SEAT (R200): Journals the seating of WB macros as a region. -/
  | seat (bwd : Bool) (a : BitVec 4) (ws : WaitSig)
  /-- UNSEAT (R200): Journals the return of a seated region to open. -/
  | unseat (a : BitVec 4) (ws : WaitSig)
  /-- KRUN (R201): Journals the launch of a kernel context from a launch block. -/
  | krun (c : BitVec 4) (a : RegNo) (ws : WaitSig)
  /-- JIG_GO (R203): Captures the shadow jig table and journals a forward run. -/
  | jigGo (ws : WaitSig)
  /-- JIG_REV (R203): Captures the shadow jig table and journals a reversed run. -/
  | jigRev (ws : WaitSig)
  /-- FIN_SET (R204): Sets FIN.CW and FIN.SCALE in matrix-engine order. -/
  | finSet (a b : RegNo) (ws : WaitSig)
  /-- COLL (R205): Journals a collective on the bay's collective engine. -/
  | coll (c : BitVec 4) (a : RegNo) (ws : WaitSig)
  /-- COLL_ABT (R205): Journals the abort of a collective round on every answering member. -/
  | collAbt (c : BitVec 4) (a : RegNo) (ws : WaitSig)
  /-- SILL_LOAD (R206): Journals the load of a timetable into a range of sill channels. -/
  | sillLoad (c : BitVec 4) (a b : RegNo) (ws : WaitSig)
  /-- SILL_GO (R206): Journals arming sill channels to start at a timestamp, or a stop request. -/
  | sillGo (a b : RegNo) (ws : WaitSig)
  /-- DESC_LD (R207): Loads a 64-byte descriptor into a d register. -/
  | descLd (c a : BitVec 4) (b : RegNo)
  /-- JRNL_RD (R183): Reads journal state selected by SEL. -/
  | jrnlRd (a b : RegNo)
  /-- BUNDLE_ISSUE (R217): One issue of a bundle by a ready context: moves, guards, triggers and landings, or a precise trap. -/
  | bundleIssue (core ctx : Nat)
  /-- STALL_STEP (R380): A compatibility-mode context performs a stall step before an A2 landing issue. -/
  | stallStep (core ctx : Nat)
  /-- IMEM_LINE_FILL (R376): A missing kernel image line arrives in a cache frame. -/
  | imemLineFill (core ctx : Nat)
  /-- CONTEXT_LAUNCH (R202): A KRUN's group, slot, window and banks become free and its context starts. -/
  | contextLaunch (core : Nat)
  /-- CONTEXT_HALT (R263): A halted context's in-flight results land, merges are made and resources freed. -/
  | contextHalt (core ctx : Nat)
  /-- SRFX_FLAG_SET (R270): A gld or gst finishes and sets its flag, or delivers a late error. -/
  | srfxFlagSet (core ctx k : Nat)
  /-- SEMARM_FLAG_SET (R273): A semaphore reaches an armed threshold and the watch sets its flag. -/
  | semarmFlagSet (core ctx k : Nat)
  /-- PHARM_FLAG_SET (R274): A phaser reaches the armed phase and the watch sets its flag. -/
  | pharmFlagSet (core ctx k : Nat)
  /-- COMMAND_START (R187): A command at its queue head has its wait met and takes its reservation, then checks operands. -/
  | commandStart (core : Nat) (q : Queue)
  /-- COMMAND_ELEMENT (R192): A command performs its next element, or stops precisely at a faulting one. -/
  | commandElement (core : Nat) (q : Queue)
  /-- COMMAND_COMPLETE (R185): A command completes, releases its reservation and adds SINC to its semaphore. -/
  | commandComplete (core : Nat) (q : Queue)
  /-- JIG_RUN_START (R304): A captured table becomes active and its run is checked before any step. -/
  | jigRunStart (core : Nat)
  /-- JIG_STEP (R305): A jig step commits its accumulator updates and, when finishing, its D writes. -/
  | jigStep (core : Nat) (r : ResidueCheck)
  /-- SCRIBE_MERGE (R326): A writer's statistics merge into a record at home, or count as late. -/
  | scribeMerge (idx : Nat)
  /-- PEG_DISPATCH (R340): A dispatcher runs the chosen ready peg on an idle core, restoring saved state when needed. -/
  | pegDispatch (core : Nat)
  /-- WAITING_PEG_READY (R339): A waiting peg's condition holds and it becomes ready with its result in A0. -/
  | waitingPegReady (peg : Nat)
  /-- MWAIT_SPIN_EXPIRY (R150): The spin quantum ends and the waiting peg suspends. -/
  | mwaitSpinExpiry (core : Nat)
  /-- MWAIT_TIMEOUT (R151): MWAIT.TMO expires and wakes the peg. -/
  | mwaitTimeout (peg : Nat)
  /-- MONITOR_LOSS (R151): The directory drops the watch and wakes the peg. -/
  | monitorLoss (peg : Nat)
  /-- PRIORITY_AGEING (R341): An AGE interval passes without dispatch and a bent's effective priority rises. -/
  | priorityAgeing (bay bent : Nat)
  /-- PREEMPTION_REQUEST (R342): A higher-priority ready peg pre-empts a running peg. -/
  | preemptionRequest (peg : Nat)
  /-- CONTEXT_REST_FREEZE (R364): A context being pre-empted or killed freezes at its next rest point. -/
  | contextRestFreeze (core ctx : Nat)
  /-- PREEMPTION_ESCALATED (R364): REST.WIN expires and the context freezes at its next issue boundary. -/
  | preemptionEscalated (core ctx : Nat)
  /-- PREEMPTION_COMPLETE (R365): Everything has stopped; state is saved to frames and the peg record written. -/
  | preemptionComplete (core : Nat)
  /-- PEG_MIGRATION (R371): Firmware moves a pinned peg to another core. -/
  | pegMigration (peg core : Nat)
  /-- TRAP_DELIVERY (R356): A pending trap is delivered at a peg's instruction boundary to its handler. -/
  | trapDelivery
  /-- DEFERRED_DATA_TRAP (R434): A poisoned or failed answer arrives for an access that issued earlier. -/
  | deferredDataTrap
  /-- KILL (R373): A draining bent's peg takes kill at its boundary and its work is discarded. -/
  | kill (peg : Nat)
  /-- WATCHDOG (R359): A handler runs one second, or traps while HACT is set, and firmware kills the bent. -/
  | watchdog (core : Nat)
  /-- ACC_FIRST_USE (R369): Firmware swaps an accumulator window between bents and resumes the work. -/
  | accFirstUse (core : Nat) (w : AccWork)
  /-- BENT_RECORD_WRITEBACK (R337): The Z fields of a bent record are written back at least once per millisecond. -/
  | bentRecordWriteback (bent : Nat)
  /-- PAGE_WALK (R104): A walker serves outstanding misses to one page. -/
  | pageWalk (bay bent : Nat) (va : Word)
  /-- HOME_ACCESS (R282): An access performs at its home channel after directory invalidation. -/
  | homeAccess (idx : Nat) (ecc : EccCheck)
  /-- MERGE_AT_HOME (R70): A merge performs at home, entering the exact accumulator in deterministic mode. -/
  | mergeAtHome (idx : Nat) (other : Option Nat)
  /-- SCRUB (R425): A controller scrubs a location of its channel. -/
  | scrub (pa : Nat) (ecc : EccCheck)
  /-- SILL_RUN_START (R394): The start timestamp arrives and an armed channel begins pass 0. -/
  | sillRunStart (ch : Nat)
  /-- SILL_WAIT (R391): A timetable entry waits N ticks. -/
  | sillWait (ch : Nat)
  /-- SILL_MV (R389): A timetable entry performs up to two moves, possibly triggering units. -/
  | sillMv (ch : Nat)
  /-- SILL_RD (R394): A timetable entry reads a line of the granule, optionally locking it. -/
  | sillRd (ch : Nat)
  /-- SILL_WR (R394): A timetable entry writes wb to a line, optionally tagging and unlocking. -/
  | sillWr (ch : Nat)
  /-- SILL_REF (R391): A timetable entry performs a refresh every EVERY passes. -/
  | sillRef (ch : Nat)
  /-- SILL_GATE (R396): A timetable entry reads a flag with acquire and holds until it is met. -/
  | sillGate (ch : Nat)
  /-- SILL_LDS (R394): A timetable entry loads 4 bytes into a scalar register. -/
  | sillLds (ch : Nat)
  /-- SILL_PASS_END (R395): The last pass ends: statistics merge, then loop or DONE add. -/
  | sillPassEnd (ch : Nat)
  /-- SILL_GATE_REREAD (R396): A holding channel rereads its flag after a write to its line or each microsecond. -/
  | sillGateReread (ch : Nat)
  /-- SILL_GATE_TIMEOUT (R398): A gate holds past SILL.GTO and the channel stops with cause 0x1D. -/
  | sillGateTimeout (ch : Nat)
  /-- SILL_REFRESH_INSERT (R394): 3900 ticks without refresh insert a 60-tick refresh. -/
  | sillRefreshInsert (ch : Nat)
  /-- FABRIC_PACKET (R401): A Faunnak packet arrives and is forwarded or performed. -/
  | fabricPacket (p : FabricPacket)
  /-- FABRIC_TIMEOUT (R403): A window access or merge has no answer in 100 us and takes cause 0x1C. -/
  | fabricTimeout (idx : Nat)
  /-- FABRIC_ERROR_ANSWER (R403): The home package answers with an error and the access takes cause 0x1C. -/
  | fabricErrorAnswer (idx : Nat)
  /-- LINK_BRING_UP (R404): Two security processors authenticate and key a link. -/
  | linkBringUp (peer : Nat) (authentic : Bool)
  /-- LINK_KEY_RENEWAL (R404): A link's key is renewed before 2^32 packets. -/
  | linkKeyRenewal (peer : Nat)
  /-- COLL_STEP_MESSAGE (R406): A collective step message arrives and is applied or held. -/
  | collStepMessage (bay : Nat) (m : CollMsg)
  /-- COLL_TIMEOUT (R409): COLL.TMO expires and the COLL stops with cause 0x16. -/
  | collTimeout (core : Nat) (n : BitVec 32)
  /-- COLL_ABT_MESSAGE (R409): A member receives an abort, drops the round and stops its COLL. -/
  | collAbtMessage (bay : Nat) (m : CollAbortMsg)
  /-- RDMA_WRITE (R411): A RoCEv2 write into a staging window is checked and performed. -/
  | rdmaWrite (p : RocePacket)
  /-- RDMA_READ (R411): A RoCEv2 read of a staging window is checked and answered. -/
  | rdmaRead (p : RocePacket)
  /-- ROCE_INVALID_REQUEST (R411): An unsupported RoCEv2 opcode or transport gets an invalid-request NAK. -/
  | roceInvalidRequest (p : RocePacket)
  /-- ARP_REQUEST (R410): The port answers ARP for its configured address. -/
  | arpRequest (port : Nat) (addr : List Byte)
  /-- NEIGHBOR_DISCOVERY (R410): The port answers IPv6 neighbour discovery. -/
  | neighborDiscovery (port : Nat) (addr : List Byte)
  /-- FRAME_DROP (R410): Any other received frame is dropped. -/
  | frameDrop (f : EthFrame)
  /-- PTP_MESSAGE (R414): A PTP message updates time reception and steps or slews the timestamp. -/
  | ptpMessage (m : PtpMessage)
  /-- DATAGRAM_DROP (R415): A control datagram with a bad tag, old SEQ or reserved byte is dropped. -/
  | datagramDrop (dg : List Byte)
  /-- INIT (R416): A signed handshake request opens a session and is answered with ACCEPT. -/
  | init (dg : List Byte)
  /-- CREATE_BENT (R417): Creates a root bent, maps its quota and binds its queue pairs. -/
  | createBent (dg : List Byte)
  /-- KILL_BENT (R417): Kills a bent as BENT.KILL does. -/
  | killBent (dg : List Byte)
  /-- ENQUEUE_PEG (R417): Enqueues a peg record from the staging window after ordering earlier writes. -/
  | enqueuePeg (dg : List Byte)
  /-- LOAD_IMAGE (R378): Loads a native, sealed or Vuzen image into a bent's image space. -/
  | loadImage (dg : List Byte)
  /-- KEY_INSTALL (R417): Installs a memory slot key or a queue-pair key. -/
  | keyInstall (dg : List Byte)
  /-- ATTESTATION (R420): Returns a signed report over a challenge. -/
  | attestation (dg : List Byte)
  /-- TELEMETRY (R427): Returns telemetry and events. -/
  | telemetry (dg : List Byte)
  /-- DUMP_RETRIEVAL (R430): Delivers the owner's decrypted dump sections. -/
  | dumpRetrieval (dg : List Byte)
  /-- POWER_SAMPLE (R422): Every 100 us the power manager measures input power and steps the clock. -/
  | powerSample (m : PowerReading)
  /-- THERMAL_HOLD (R423): A die reaches 105 C and the clock is held at 1.0 GHz. -/
  | thermalHold (bay : Nat) (temp : Int)
  /-- THERMAL_RELEASE (R423): The die falls below 100 C and the hold ends. -/
  | thermalRelease (bay : Nat) (temp : Int)
  /-- THERMAL_TRIP (R423): A die reaches 115 C, a fatal error. -/
  | thermalTrip (bay : Nat) (temp : Int)
  /-- INPUT_POWER_FAULT (R429): An input power fault is a fatal error. -/
  | inputPowerFault
  /-- POWER_UP (R428): Input power is applied and bring-up runs. -/
  | powerUp (b : BringUp)
  /-- RESET_INPUT (R428): The reset input is asserted and bring-up runs again. -/
  | resetInput (b : BringUp)
  /-- ILLEGAL_INSTRUCTION (R126): A fetched control-core word or long pair that no table assigns takes cause 0x01 before any effect. -/
  | illegalInstruction
  /-- INSTRUCTION_FETCH_FAULT (R136): A control-core fetch fails its checks and traps at the fetched address. -/
  | instructionFetchFault
  /-- LINE_EVICTION (R99): A cached line of a read-only-cacheable window page is evicted at any moment, so the next read fetches the home's current bytes. -/
  | lineEviction (bay : Nat) (l : CachedAt)
  /-- COLL_ABT_MEMBER_TIMEOUT (R409): A member that has not answered a COLL.ABT within its COLL.TMO is skipped so the abort can complete. -/
  | collAbtMemberTimeout (core : Nat) (n : BitVec 32)
  /-- CONFIGURATION_RECORD_UPDATE (R421): A new configuration record signed by the vendor or a current owner key is accepted, or it is rejected and the old one stays in force. -/
  | configurationRecordUpdate (r : ConfigRecord) (signer : RecordSigner)
  /-- FIRMWARE_STATE_ERROR (R429): An uncorrectable error in firmware's own state is a fatal error, leading to the kill of every bent and the dump. -/
  | firmwareStateError
  /-- POWER_REMOVAL (R429): Input power is removed: all state, including a held dump, is lost until power returns. -/
  | powerRemoval
  deriving DecidableEq, Repr

end Sys2Proof
end

