-- ==== Sys2Proof/Config.lean ====
section
/-! DEFINITION. What one module fixes and the spec leaves open: free values, keys, cryptographic and firmware values,
and the turns that the outside world and the parallel agents take. None of them has a body, so nothing can be proved
of the value it gives. -/

namespace Sys2Proof

/-- Who acts in a turn: a control core takes its next instruction boundary, or a machine event happens. -/
inductive Act where
  | core (c : Nat)
  | event (i : Instr)
  deriving DecidableEq, Repr, Inhabited

/-- One turn of the machine: nanoseconds and clocks that pass before it, whether the accesses it issues are left
pending, and who acts (log entries 1, 8 and 12). -/
structure Turn where
  dt : Nat
  dclk : Nat
  defer : Bool
  act : Act
  deriving DecidableEq, Repr, Inhabited

namespace Config

/-- DESIGN CHOICE (log 1): the turn taken when none is queued, by the number of the turn. -/
opaque freeTurn : Nat → Turn

/-- A free value of the machine's own (log 13), by a counter of the state. -/
opaque freeWord : Nat → Word

/-- DESIGN CHOICE (log 28): the nanoseconds that the clock servo would slew by in a turn (R414), by the number of the turn. -/
opaque slewTaken : Nat → Nat

/-- DESIGN CHOICE (log 15): the split of a default-mode sum (R68), by the counter, the position and the length. -/
opaque sumSplit : Nat → Nat → Nat → Nat

/-- UNVERIFIED (log 14): the f32 bits of special function `fn` at an f32 input, before R247 and the flush control. -/
opaque vsfu : Nat → BitVec 32 → BitVec 32

/-- DESIGN CHOICE (log 89): whether, in a clock, a context's stream port 0 to 15 (eight sin, then eight sout) is short of staged bytes or of room
(R224), or, as number 16, the translations of its SRFX operations are still to come (R269); by clock, context and number. -/
opaque portHolds : Nat → Nat → Nat → Bool

/-- The key that the CTR_DRBG puts into slot `slot` at its `n`-th draw (R418), log 17. -/
opaque drbgKey : Nat → Nat → BitVec 512

/-- The key of a queue pair at reset (R418), log 17. -/
opaque drbgQpKey : Nat → Nat → BitVec 256

/-- The key that another package holds in a slot (R84, R418), by package and slot, log 16. -/
opaque peerKey : Nat → Nat → BitVec 512

/-- SLH-DSA verification (log 17): public key, message, signature. -/
opaque slhVerify : List Byte → List Byte → List Byte → Bool

/-- The SLH-DSA-SHA2-128f public key of a seed, and a signature under a seed over a message (R419), log 17. -/
opaque slhKey : List Byte → List Byte
opaque slhSign : List Byte → List Byte → List Byte

/-- ML-KEM-768 encapsulation (log 17) by the draw number: ciphertext and shared secret. -/
opaque kemEncaps : Nat → List Byte → List Byte × List Byte

/-- The bytes of a draw of the CTR_DRBG (R418), by draw number and index (log 17). -/
opaque drbgByte : Nat → Nat → Byte

/-- The device root secret (R419), log 17. -/
opaque rootSecret : List Byte

/-- The vendor's certificate of the identity public key (R419), and the digest of the vendor key that boot ROM holds (R420), log 17. -/
opaque identityCert : List Byte
opaque vendorKeyDigest : List Byte

/-- The key that two packages' security processors agree on for their link (R404), by peer and renewal, log 17. -/
opaque linkKey : Nat → Nat → BitVec 256

/-- The firmware that runs at reset, and the version of its bundler (R173, R420), log 17. -/
opaque firmwareImage : List Byte
opaque firmwareVersion : BitVec 64
opaque firmwareBuild : BitVec 64
opaque bundlerVersion : BitVec 32

/-- The queue pair of the requester that a queue pair is connected to, which its answers name (R411), log 17. -/
opaque peerQpn : Nat → BitVec 24

/-- The bytes of a configuration record (R420, R421), whose layout no rule gives, log 17. -/
opaque recordBytes : ConfigRecord → List Byte

/-- The bytes and the start map that the bundler makes of a Vuzen form (R383), or none when it refuses it for a reason that
is the bundler's own: the image's length or its live registers (log 18). -/
opaque bundle : List Byte → Option (List Byte × List Byte)

/-- The HBM4 present on another package (R81), by package id. -/
opaque peerCapacity : Nat → Nat

/-- Where firmware's reserved HBM4 holds the kernel image space of a bent (R375), by bent, log 92. -/
opaque imageBase : Nat → Nat

/-- Where firmware would place the tables and quota pages of a created bent (R417), by a counter of the state (log 19). -/
opaque quotaBase : Nat → Nat

end Config

end Sys2Proof
end

