-- ==== Sys2Proof/Machine/Table.lean ====
section
/-! DEFINITION. Sparse tables keyed by numbers, and byte tables in the one canonical form of memory: addresses strictly
rising, no entry equal to 0, which is what an unlisted address reads as. -/

namespace Sys2Proof.Machine

/-- A sparse table: pairs of key and value, keys rising. -/
abbrev AMap (α : Type) := List (Nat × α)

/-- The entry of a key. -/
def AMap.find? {α : Type} : AMap α → Nat → Option α
  | [], _ => none
  | (k, v) :: t, n => if k = n then some v else AMap.find? t n

/-- The entry of a key, or a default. -/
def AMap.get {α : Type} (m : AMap α) (n : Nat) (d : α) : α := (m.find? n).getD d

/-- Remove a key. -/
def AMap.erase {α : Type} : AMap α → Nat → AMap α
  | [], _ => []
  | (k, v) :: t, n => if k = n then AMap.erase t n else (k, v) :: AMap.erase t n

/-- Put an entry, keys kept rising. -/
def AMap.put {α : Type} : AMap α → Nat → α → AMap α
  | [], n, x => [(n, x)]
  | (k, v) :: t, n, x =>
    if n < k then (n, x) :: (k, v) :: t
    else if k = n then (n, x) :: t
    else (k, v) :: AMap.put t n x

/-- Whether a key has an entry. -/
def AMap.has {α : Type} (m : AMap α) (n : Nat) : Bool := (m.find? n).isSome

/-- The keys. -/
def AMap.keys {α : Type} (m : AMap α) : List Nat := m.map Prod.fst

/-- The values. -/
def AMap.vals {α : Type} (m : AMap α) : List α := m.map Prod.snd

/-- Change the entry of a key that has one. -/
def AMap.modify {α : Type} (m : AMap α) (n : Nat) (f : α → α) : AMap α :=
  match m.find? n with
  | some v => m.put n (f v)
  | none => m

/-- A table of bytes; unlisted addresses read 0. -/
abbrev ByteMap := List Host.Cell

/-- The byte at an address. -/
def ByteMap.rd (m : ByteMap) (a : Nat) : Byte := AMap.get m a 0

/-- Write one byte, keeping the canonical form. -/
def ByteMap.wr (m : ByteMap) (a : Nat) (b : Byte) : ByteMap :=
  if b = 0 then AMap.erase m a else AMap.put m a b

/-- Read `n` bytes from an address upward. -/
def ByteMap.rdN (m : ByteMap) (a : Nat) : Nat → List Byte
  | 0 => []
  | n + 1 => m.rd a :: ByteMap.rdN m (a + 1) n

/-- Write bytes from an address upward. -/
def ByteMap.wrN (m : ByteMap) (a : Nat) : List Byte → ByteMap
  | [] => m
  | b :: t => ByteMap.wrN (m.wr a b) (a + 1) t

/-- The keys of a table rise strictly from above `lo`. -/
def risesFrom {α : Type} : Nat → AMap α → Bool
  | _, [] => true
  | lo, (k, _) :: t => decide (lo ≤ k) && risesFrom (k + 1) t

/-- The canonical form of a byte table. -/
def ByteMap.wf (m : ByteMap) : Bool := risesFrom 0 m && m.all (fun c => c.2 != 0)

/-- The number little-endian bytes hold (R6). -/
def leNat : List Byte → Nat
  | [] => 0
  | b :: t => b.toNat + 256 * leNat t

/-- A number as `n` little-endian bytes (R6). -/
def leBytes : Nat → Nat → List Byte
  | 0, _ => []
  | n + 1, x => BitVec.ofNat 8 x :: leBytes n (x / 256)

/-- Bits hi..lo of a number. -/
def bitsOf (x hi lo : Nat) : Nat := x / 2 ^ lo % 2 ^ (hi + 1 - lo)

/-- The natural numbers from `lo`, `n` of them. -/
def rangeFrom : Nat → Nat → List Nat
  | _, 0 => []
  | lo, n + 1 => lo :: rangeFrom (lo + 1) n

/-- The positions of a list, with its elements. -/
def indexed {α : Type} : Nat → List α → List (Nat × α)
  | _, [] => []
  | i, a :: t => (i, a) :: indexed (i + 1) t

/-- The element at a position, if there is one. -/
def nth? {α : Type} : List α → Nat → Option α
  | [], _ => none
  | a :: _, 0 => some a
  | _ :: t, n + 1 => nth? t n

/-- Replace the element at a position. -/
def setNth {α : Type} : List α → Nat → α → List α
  | [], _, _ => []
  | _ :: t, 0, x => x :: t
  | a :: t, n + 1, x => a :: setNth t n x

/-- Remove the element at a position. -/
def dropNth {α : Type} : List α → Nat → List α
  | [], _ => []
  | _ :: t, 0 => t
  | a :: t, n + 1 => a :: dropNth t n

/-- The smallest number of a list. -/
def minNat : List Nat → Option Nat
  | [] => none
  | a :: t => match minNat t with
    | none => some a
    | some b => some (if a ≤ b then a else b)

end Sys2Proof.Machine
end

