-- ==== Sys2Proof/Machine/Crypto.lean ====
section
/-! DEFINITION. The ciphers and hashes that the spec names with their standards: AES-256 (R84, R384), its XTS mode on 32-byte units (R84), GHASH and
the tag of GCM (R384, R404, R412, R415), SHA-256 (R419, R420) and HKDF-SHA-256 (R384, R416, R419, R430). -/

namespace Sys2Proof.Machine

/-! ## The field of AES -/

/-- Multiplication by x in GF(2^8) modulo x^8 + x^4 + x^3 + x + 1. -/
def xtime (a : Byte) : Byte := (a <<< 1) ^^^ (if a.getLsbD 7 then 0x1B else 0)

/-- Product of two elements, over the bits of the second, `n` of them. -/
def gmulFrom : Nat → Byte → Byte → Byte
  | 0, _, _ => 0
  | n + 1, a, b => (if b.getLsbD 0 then a else 0) ^^^ gmulFrom n (xtime a) (b >>> 1)

def gmul (a b : Byte) : Byte := gmulFrom 8 a b

/-- The inverse a^254, 0 for 0: a^2 · a^4 · … · a^128. -/
def ginvFrom : Nat → Byte → Byte
  | 0, _ => 1
  | n + 1, a => let q := gmul a a; gmul q (ginvFrom n q)

def ginv (a : Byte) : Byte := ginvFrom 7 a

/-- The substitution of AES. -/
def sbox (a : Byte) : Byte :=
  let b := ginv a
  b ^^^ b.rotateLeft 1 ^^^ b.rotateLeft 2 ^^^ b.rotateLeft 3 ^^^ b.rotateLeft 4 ^^^ 0x63

/-- Its inverse. -/
def sboxInv (a : Byte) : Byte := ginv (a.rotateLeft 1 ^^^ a.rotateLeft 3 ^^^ a.rotateLeft 6 ^^^ 0x05)

/-! ## AES-256 -/

/-- Bytes combined by exclusive or. -/
def xorBytes (a b : List Byte) : List Byte := List.zipWith (· ^^^ ·) a b

/-- The byte at a position of a block. -/
def blockByte (s : List Byte) (i : Nat) : Byte := (nth? s i).getD 0

/-- Blocks of 16 bytes combined by exclusive or. -/
def xorBlock (a b : List Byte) : List Byte := (rangeFrom 0 16).map (fun i => blockByte a i ^^^ blockByte b i)

/-- A list in blocks of `n`, `k` blocks at most. -/
def blocksOf {α : Type} (n : Nat) : Nat → List α → List (List α)
  | 0, _ => []
  | k + 1, l => if l.isEmpty then [] else l.take n :: blocksOf n k (l.drop n)

/-- The expanded key, newest word first: `n` words from word `i` on, for a key of 8 words. -/
def expandKey : Nat → Nat → Byte → List (List Byte) → List (List Byte)
  | 0, _, _, w => w
  | n + 1, i, rcon, w =>
    let last := (nth? w 0).getD []
    let back := (nth? w 7).getD []
    let t :=
      if i % 8 = 0 then
        match (last.drop 1 ++ last.take 1).map sbox with
        | a :: r => (a ^^^ rcon) :: r
        | [] => []
      else if i % 8 = 4 then last.map sbox
      else last
    expandKey n (i + 1) (if i % 8 = 0 then xtime rcon else rcon) (xorBytes back t :: w)

/-- The 15 round keys of a 256-bit key, whose bytes stand in ascending significance as they stand in memory. -/
def roundKeys (key : BitVec 256) : List (List Byte) :=
  let w := (blocksOf 4 8 (leBytes 32 key.toNat)).reverse
  (blocksOf 4 15 (expandKey 52 8 1 w).reverse).map List.flatten

/-- Row r of the state moves r places (the state is stored by columns). -/
def shiftRows (s : List Byte) : List Byte := (rangeFrom 0 16).map (fun i => blockByte s ((i + 4 * (i % 4)) % 16))

def shiftRowsInv (s : List Byte) : List Byte := (rangeFrom 0 16).map (fun i => blockByte s ((i + 12 * (i % 4)) % 16))

/-- One column times the circulant matrix of four coefficients. -/
def mixColumn (m c : List Byte) : List Byte :=
  (rangeFrom 0 4).map (fun r => ((rangeFrom 0 4).map (fun k => gmul (blockByte m ((k + 4 - r) % 4)) (blockByte c k))).foldl (· ^^^ ·) 0)

def mixColumns (m s : List Byte) : List Byte := ((blocksOf 4 4 s).map (mixColumn m)).flatten

/-- Encryption of one block under round keys: the first is added before the rounds, the last round mixes no columns. -/
def aesRounds : List (List Byte) → List Byte → List Byte
  | [], s => s
  | [k], s => xorBlock (shiftRows (s.map sbox)) k
  | k :: t, s => aesRounds t (xorBlock (mixColumns [2, 3, 1, 1] (shiftRows (s.map sbox))) k)

def aesEncrypt (key : BitVec 256) (b : List Byte) : List Byte :=
  match roundKeys key with
  | [] => b
  | k :: t => aesRounds t (xorBlock b k)

/-- Decryption of one block under the round keys in reverse. -/
def aesRoundsInv : List (List Byte) → List Byte → List Byte
  | [], s => s
  | [k], s => xorBlock ((shiftRowsInv s).map sboxInv) k
  | k :: t, s => aesRoundsInv t (mixColumns [14, 11, 13, 9] (xorBlock ((shiftRowsInv s).map sboxInv) k))

def aesDecrypt (key : BitVec 256) (b : List Byte) : List Byte :=
  match (roundKeys key).reverse with
  | [] => b
  | k :: t => aesRoundsInv t (xorBlock b k)

/-! ## XTS -/

/-- Multiplication by x in GF(2^128), bytes little-endian (IEEE 1619). -/
def xtsNext (t : Nat) : Nat := (2 * t) % 2 ^ 128 ^^^ (if 2 ^ 127 ≤ t then 0x87 else 0)

/-- A 32-byte unit through XTS (R84): the data key is the low half of the slot's key, the tweak key the high half, the tweak the physical address of
the unit. -/
def xtsUnit (crypt : BitVec 256 → List Byte → List Byte) (key : BitVec 512) (pa : Nat) (data : List Byte) : List Byte :=
  let t0 := leNat (aesEncrypt (key.extractLsb' 256 256) (leBytes 16 pa))
  let one (t : Nat) (b : List Byte) : List Byte := xorBlock (crypt (key.extractLsb' 0 256) (xorBlock b (leBytes 16 t))) (leBytes 16 t)
  one t0 (data.take 16) ++ one (xtsNext t0) (data.drop 16)

def xtsEncrypt (key : BitVec 512) (pa : Nat) (data : List Byte) : List Byte := xtsUnit aesEncrypt key pa data

def xtsDecrypt (key : BitVec 512) (pa : Nat) (data : List Byte) : List Byte := xtsUnit aesDecrypt key pa data

/-! ## GCM -/

/-- The product of GHASH: bit 0 of a block is the most significant bit of its first byte. -/
def ghashMulFrom : Nat → Nat → Nat → Nat → Nat
  | 0, _, _, z => z
  | n + 1, x, v, z =>
    ghashMulFrom n (2 * x % 2 ^ 128) (v / 2 ^^^ (if v % 2 = 1 then 0xE1 * 2 ^ 120 else 0)) (if 2 ^ 127 ≤ x then z ^^^ v else z)

def ghashMul (x y : Nat) : Nat := ghashMulFrom 128 x y 0

/-- Big-endian numbers. -/
def beNat (b : List Byte) : Nat := leNat b.reverse

def beBytes (n x : Nat) : List Byte := (leBytes n x).reverse

/-- GHASH over blocks of 16 bytes, the last one filled with zeros. -/
def ghash (h : Nat) (bs : List (List Byte)) (y : Nat) : Nat :=
  bs.foldl (fun y b => ghashMul (y ^^^ (beNat b * 2 ^ (8 * (16 - b.length)))) h) y

/-- Block `n` of the key stream of GCM with a 96-bit nonce; 1 masks the tag and 2 is the first of the data. -/
def gcmBlock (key : BitVec 256) (nonce : List Byte) (n : Nat) : List Byte := aesEncrypt key (nonce.take 12 ++ beBytes 4 n)

/-- Byte `i` of the key stream over the data. -/
def gcmPad (key : BitVec 256) (nonce : List Byte) (i : Nat) : Byte := blockByte (gcmBlock key nonce (2 + i / 16)) (i % 16)

/-- The 16 bytes of the tag over additional data and ciphertext. -/
def gcmTagBytes (key : BitVec 256) (nonce aad ct : List Byte) : List Byte :=
  let h := beNat (aesEncrypt key (List.replicate 16 0))
  let y := ghash h (blocksOf 16 (aad.length + 1) aad) 0
  let y := ghash h (blocksOf 16 (ct.length + 1) ct) y
  let y := ghash h [beBytes 8 (8 * aad.length) ++ beBytes 8 (8 * ct.length)] y
  xorBlock (beBytes 16 y) (gcmBlock key nonce 1)

/-! ## SHA-256 and HKDF -/

/-- The integer square and cube root of `n` by bits, from bit `k` down. -/
def rootFrom (p n : Nat) : Nat → Nat → Nat
  | 0, r => r
  | k + 1, r => rootFrom p n k (if (r + 2 ^ k) ^ p ≤ n then r + 2 ^ k else r)

/-- The first 64 primes. -/
def firstPrimes : List Nat :=
  [2, 3, 5, 7, 11, 13, 17, 19, 23, 29, 31, 37, 41, 43, 47, 53] ++ [59, 61, 67, 71, 73, 79, 83, 89, 97, 101, 103, 107, 109, 113, 127, 131] ++
  [137, 139, 149, 151, 157, 163, 167, 173, 179, 181, 191, 193, 197, 199, 211, 223] ++
  [227, 229, 233, 239, 241, 251, 257, 263, 269, 271, 277, 281, 283, 293, 307, 311]

/-- The constants of SHA-256: 32 bits of the fractions of the primes' cube and square roots. -/
def shaK : List Word32 := firstPrimes.map (fun p => BitVec.ofNat 32 (rootFrom 3 (p * 2 ^ 96) 36 0))

def shaH : List Word32 := (firstPrimes.take 8).map (fun p => BitVec.ofNat 32 (rootFrom 2 (p * 2 ^ 64) 37 0))

/-- The message schedule, newest word first: `n` more words. -/
def shaSchedule : Nat → List Word32 → List Word32
  | 0, w => w
  | n + 1, w =>
    let at_ (i : Nat) : Word32 := (nth? w i).getD 0
    let a := at_ 14
    let b := at_ 1
    let s0 := a.rotateRight 7 ^^^ a.rotateRight 18 ^^^ (a >>> 3)
    let s1 := b.rotateRight 17 ^^^ b.rotateRight 19 ^^^ (b >>> 10)
    shaSchedule n ((at_ 15 + s0 + at_ 6 + s1) :: w)

/-- One round, on the eight working words and a round's constant and schedule word. -/
def shaRound (v : List Word32) (kw : Word32 × Word32) : List Word32 :=
  match v with
  | [a, b, c, d, e, f, g, h] =>
    let s1 := e.rotateRight 6 ^^^ e.rotateRight 11 ^^^ e.rotateRight 25
    let t1 := h + s1 + ((e &&& f) ^^^ (~~~e &&& g)) + kw.1 + kw.2
    let s0 := a.rotateRight 2 ^^^ a.rotateRight 13 ^^^ a.rotateRight 22
    let t2 := s0 + ((a &&& b) ^^^ (a &&& c) ^^^ (b &&& c))
    [t1 + t2, a, b, c, d + t1, e, f, g]
  | v => v

/-- The compression of one 64-byte block. -/
def shaBlock (h : List Word32) (b : List Byte) : List Word32 :=
  let w := (blocksOf 4 16 b).map (fun q => BitVec.ofNat 32 (beNat q))
  let v := (List.zip shaK (shaSchedule 48 w.reverse).reverse).foldl shaRound h
  List.zipWith (· + ·) h v

/-- SHA-256. -/
def sha256 (m : List Byte) : List Byte :=
  let p := m ++ [0x80] ++ List.replicate ((119 - m.length % 64) % 64) 0 ++ beBytes 8 (8 * m.length)
  (((blocksOf 64 (p.length / 64 + 1) p).foldl shaBlock shaH).map (fun w => beBytes 4 w.toNat)).flatten

/-- HMAC-SHA-256. -/
def hmac (key m : List Byte) : List Byte :=
  let k := if 64 < key.length then sha256 key else key
  let k := k ++ List.replicate (64 - k.length) 0
  sha256 (k.map (· ^^^ 0x5C) ++ sha256 (k.map (· ^^^ 0x36) ++ m))

/-- The blocks of HKDF's expansion, `n` of them from number `i`. -/
def hkdfExpand (prk info : List Byte) : Nat → Nat → List Byte → List Byte
  | 0, _, _ => []
  | n + 1, i, last => let t := hmac prk (last ++ info ++ leBytes 1 i); t ++ hkdfExpand prk info n (i + 1) t

/-- HKDF-SHA-256: input key, salt, info, length in bytes. -/
def hkdf (ikm salt info : List Byte) (len : Nat) : List Byte :=
  let prk := hmac (if salt.isEmpty then List.replicate 32 0 else salt) ikm
  (hkdfExpand prk info ((len + 31) / 32) 1 []).take len

end Sys2Proof.Machine
end

