-- ==== Sys2Proof/Machine/State.lean ====
section
/-! DEFINITION. The state of the module: every piece of state the spec names, as plain data; the reasons a step stops;
and the state after reset. INVENTORY.md lists each field with the rule that names it and its reset value. -/

namespace Sys2Proof.Machine

/-- Why a step stops with a fault. No rule of the spec stops the machine, so only the model's own grounds stand here. -/
inductive Fault where
  /-- Raised by the meanings of events that act on HBM4 outside every present address (R80): no such location exists.
  Safe: the machine has no such step. -/
  | absentLocation (pa : Nat)
  deriving DecidableEq, Repr

/-- Why a step refuses. -/
inductive Refusal where
  /-- Raised by an arm of `exec` whose instruction has no meaning yet. Safe: nothing can be proved of it. -/
  | notModelled (mnemonic : String)
  deriving DecidableEq, Repr

/-! ## Traps -/

/-- A trap as it is delivered (R353 to R356): kind, cause, TRAP.INFO and TRAP.ADDR, the journal number that ranks it (R357),
and whether it is a deferred data trap (R434). `rank` orders traps that share one number. -/
structure Trap where
  kind : Nat
  code : Nat
  info : Word
  addr : Word
  seq : Option (BitVec 32)
  rank : Nat
  deferred : Bool
  deriving DecidableEq, Repr

/-- The trap registers of a peg and its other state registers (R109, R353 to R355). -/
structure PegRegs where
  rndDef : Word
  rngSeed : Word
  fpCsr : Word
  ordScope : Word
  scrbWin : Word
  scrbRthr : Word
  mwaitTmo : Word
  collTmo : Word
  sillGto : Word
  klockStat : Word
  trapCause : Word
  trapPc : Word
  trapInfo : Word
  trapAddr : Word
  deriving DecidableEq, Repr

/-! ## Agents and accesses -/

/-- The agents of the memory model (R279). -/
inductive Agent where
  | peg (id : Nat)
  | queue (core : Nat) (q : Queue)
  | context (uid : Nat)
  | sill (ch : Nat)
  | remote (pkg : Nat)
  | host (qpn : Nat)
  deriving DecidableEq, Repr

/-- How a loaded value is written to its register (R120). -/
inductive LoadDest where
  | none
  | x (r : RegNo) (bytes : Nat) (signed : Bool)
  | f (r : RegNo) (bytes : Nat)
  | pair (r : RegNo)
  deriving DecidableEq, Repr

/-- Where an access goes, once translated (R74, R79): physical address, key slot unless shared-clear, and the leaf's
deterministic, merge-window and cache-policy attributes. -/
structure Loc where
  pa : Nat
  slot : Option Nat
  det : Bool
  mw : Bool
  cp : Nat
  deriving DecidableEq, Repr

/-- What a pending access does when it performs (R281, R282). -/
inductive AccessKind where
  | load (dest : LoadDest)
  | store (data : List Byte)
  | amo (op : MergeOp) (operand : Word) (dest : LoadDest)
  | cas (expected new : Word) (dest : LoadDest)
  deriving DecidableEq, Repr

/-- An access issued and not yet performed (R146, R281): `ord` as R120 codes it, `sent` when it was sent (R403), `lost` once it
took cause 0x1C for want of an answer (R403), `core` the core that awaits its data. -/
structure Access where
  /-- stamp of its issue: program order within its agent -/
  no : Nat
  agent : Agent
  core : Nat
  bent : Nat
  cls : Nat
  ord : Nat
  kind : AccessKind
  va : Word
  loc : Loc
  size : Nat
  sent : Nat
  lost : Bool
  deriving DecidableEq, Repr

/-- The local statistics of a writer (R324) and what its binding read fixed (R325). -/
structure Stats where
  epoch : Nat
  et : Nat
  eLo : Int
  count : Nat
  nan : Nat
  inf : Nat
  zero : Nat
  amax : Nat
  bins : List Nat
  deriving DecidableEq, Repr

/-- An issuer of a merge (R147, R197, R289): the stamp of its issue, which earlier accesses of the issuer precede, its agent, the peg whose
releases wait, the bent and address it translated under, and the stamp of the command that made it, if one did. -/
structure Party where
  no : Nat
  agent : Agent
  peg : Nat
  bent : Nat
  cmd : Option Nat
  cls : Nat
  va : Word
  deriving DecidableEq, Repr

/-- A merge accepted and not yet performed at home (R147, R197, R289): the issuers that still wait for it, several where a router combined
their merges (R405), none once the last has given it up (R403); and the request. -/
structure Merge where
  parties : List Party
  op : MergeOp
  loc : Loc
  size : Nat
  operand : Word
  det : Bool
  release : Bool
  sent : Nat
  deriving DecidableEq, Repr

/-- A statistics merge on its way to its record (R326), with the stamps of its issue and of the command that owes it (R289). -/
structure RecordMerge where
  no : Nat
  agent : Agent
  peg : Nat
  bent : Nat
  cmd : Option Nat
  cls : Nat
  va : Word
  loc : Loc
  stats : Stats
  sent : Nat
  lost : Bool
  deriving DecidableEq, Repr

/-- The value of an open exact accumulator (R70): a finite exact number m · 2^e with its sign, or what special operands
made of it. -/
inductive ExactSum where
  | num (neg : Bool) (m : Nat) (e : Int)
  | inf (neg : Bool)
  | nan
  deriving DecidableEq, Repr

/-- An open exact accumulator of a location (R70): bytes and format of the location, two lanes for bfadd2. -/
structure Accum where
  pa : Nat
  size : Nat
  two : Bool
  slot : Option Nat
  lo : ExactSum
  hi : ExactSum
  deriving DecidableEq, Repr

/-- A translation that a bay's TLB holds (R104, R73): tag, virtual base, size in bytes, physical base and the leaf's fields. -/
structure TlbEntry where
  root : Nat
  base : Nat
  size : Nat
  leaf : BitVec 64
  deriving DecidableEq, Repr

/-- What a walk ends with (R75, R76): the translation that it installs, or the cause and the level at which it stopped. -/
inductive WalkResult where
  | page (t : TlbEntry)
  | stop (cause level : Nat)
  deriving DecidableEq, Repr

/-- A walk that a bay's walkers have begun and not ended (R104), for the tree with a root and a page of 4 KiB: every miss to the page that
meets it receives its result. -/
structure Walk where
  root : Nat
  page : Nat
  result : WalkResult
  deriving DecidableEq, Repr

/-- A line of a cache (R94, R96): the slot it was decrypted under, none for one in clear. A line of a read-only-cacheable window page holds the
64 bytes as they were fetched and its poisoned units (R99, R424); a coherent line, whose bytes are its home's, holds none. -/
structure CacheLine where
  slot : Option Nat
  data : List Byte
  poison : List Nat
  deriving DecidableEq, Repr

/-- A fence that has accesses of its agent still before it (R290): the stamp of its issue, its order as R124 codes it and its mask. -/
structure Fence where
  agent : Agent
  no : Nat
  ord : Nat
  mask : BitVec 16
  deriving DecidableEq, Repr

/-! ## Journal -/

/-- Which command an entry holds, with the flags of its word 0 (R179). -/
inductive CmdOp where
  | sld (mode : SldMode) (cj : Bool)
  | sst (q : SstQuant)
  | sgth
  | ssct (mrg : Bool)
  | sred
  | scpy
  | sbank (k : BitVec 4)
  | salloc (sp : LocalSpace)
  | sfree (sp : LocalSpace)
  | seat (bwd : Bool)
  | unseat
  | krun
  | jigGo
  | jigRev
  | finSet
  | coll
  | collAbt
  | sillLoad
  | sillGo
  deriving DecidableEq, Repr

/-- The state of a journal entry (R182). A queued entry at the head of its queue is waiting; a complete one leaves the journal. -/
inductive CmdState where
  | queued | running | stopped
  deriving DecidableEq, Repr

/-- A typed-buffer unit a reservation covers (R187): SRF bank, WB macro or ACC window. -/
structure Claim where
  space : LocalSpace
  unitNo : Nat
  write : Bool
  deriving DecidableEq, Repr

/-- A journal entry (R180, R182, R211). -/
structure Cmd where
  seq : BitVec 32
  /-- stamp of its issue: accesses of its peg with smaller stamps precede it (R294) -/
  no : Nat
  op : CmdOp
  cls : Nat
  peg : Nat
  bent : Nat
  ws : WaitSig
  xa : Word
  xb : Word
  da : Desc
  db : Desc
  di : Desc
  rnd : BitVec 2
  seed : Word32
  win : Nat
  thr : Nat
  scope : Nat
  collTmo : Nat
  sillGto : Nat
  /-- the jig table captured (R180) -/
  table : AMap Word
  st : CmdState
  wok : Bool
  claims : List Claim
  held : Bool
  /-- operand checks passed and element 0's block read (R191, R180) -/
  ready : Bool
  block : List Byte
  progress : Nat
  scale : Option Nat
  ovf : Nat
  counted : Option Nat
  stats : Option Stats
  gens : AMap Word32
  /-- raw bytes of source elements that were read ahead of their turn (R186), by 4 times the element, plus the unit -/
  ahead : AMap (List Byte)
  /-- statistics merge issued (R327), and the scale of an SST written out (R195) -/
  merged : Bool
  scaled : Bool
  /-- finish words standing when a run started (R204) -/
  finCw : Word
  finScale : Word
  /-- elements of C a run has reached, for ZERO (R305) -/
  touched : AMap Unit
  /-- outputs that the finish pipeline has made, in order (R314) -/
  outputs : Nat
  /-- locations of a SILL.LOAD's segment and addresses with their page sizes, by virtual address (R392) -/
  locs : AMap (Loc × Nat)
  /-- virtual addresses whose translation a TLBI has dropped since (R392) -/
  unmapped : AMap Unit
  /-- timestamp of the start, for COLL.TMO (R408) -/
  started : Nat
  /-- contributions received by member (R406), and the mode known of each -/
  got : AMap (List Byte)
  det : Bool
  /-- members that answered a COLL.ABT or were skipped (R409) -/
  answered : List Nat
  /-- context launched by a KRUN; it has halted, or JDROP has ended the entry (R172) -/
  ctx : Option Nat
  halted : Bool
  dropped : Bool
  /-- statistics a halted context still owes to records (R327) -/
  owed : List (Nat × Stats)
  /-- when the access it waits for was sent to a window (R403) -/
  asked : Option Nat
  trap : Option Trap
  deriving DecidableEq, Repr

/-! ## Kernel contexts -/

/-- An operand port (R235): 1024 bits, the scalar mark and the scalar. -/
structure OPort where
  bits : Wide
  s : Bool
  v : Word
  deriving DecidableEq, Repr

/-- What a context holds in one cluster (R218): vector window, scalars, predicates, x ports by unit, operand ports by
4·unit + k; and the 8-byte units of them that are poisoned (R424, R426): of v(i) by 4·i + unit, of s(i) by i, of an operand port by
32·port + unit, its scalar being unit 16. -/
structure CtxCluster where
  v : AMap (BitVec 256)
  s : AMap Word
  p : AMap (BitVec 128)
  x : AMap Wide
  o : AMap OPort
  vBad : AMap Unit
  sBad : AMap Unit
  oBad : AMap Unit
  deriving DecidableEq, Repr

/-- Where a landing result goes (R225, R227, R263): a vector register, a scalar, a predicate, an x port, a loop counter, or
`n` pushed bytes of output `idx` at SRF byte `at_`. -/
inductive LandDest where
  | v (idx : Nat)
  | s (idx : Nat)
  | p (idx : Nat)
  | x (unitNo : Nat)
  | lc (idx : Nat)
  | sout (idx at_ n : Nat)
  deriving DecidableEq, Repr

/-- A result in flight (R361): cluster, destination, value, the bytes of it that are written, the issues still to come before the
one that it lands at (its remaining count r, R362), and, in compatibility mode, the step count it waits for (R380). -/
structure Flight where
  cid : Nat
  dest : LandDest
  value : Wide
  mask : BitVec 128
  rem : Nat
  step : Nat
  deriving DecidableEq, Repr

/-- A stream binding (R201, R224) with its read or write position and, for an output, its record. -/
structure Binding where
  base : Nat
  len : Nat
  scrb : Nat
  et : Nat
  pos : Nat
  stats : Option Stats
  deriving DecidableEq, Repr

/-- A held move (R230): its slot word, its bundle's long immediate, and the index of the stepped side at the next issue. -/
structure HeldMove where
  slot : Word
  imm : Word
  idx : Int
  deriving DecidableEq, Repr

/-- What a global access of a context does when it performs: a gld into SRF byte `at_` (R268), a store, or a redirected SPL load
into lane group `lgb` of its x port (R276). -/
inductive SrfxKind where
  | gld (at_ : Nat)
  | store (data : List Byte)
  | spill (lgb : Nat)
  deriving DecidableEq, Repr

/-- An 8-byte unit of a context's global access (R102, R270): its bytes' offset in the access, its location and its length. -/
structure SrfxPart where
  off : Nat
  loc : Loc
  len : Nat
  deriving DecidableEq, Repr

/-- A global access that a context issued and that has not performed whole (R270, R276): the number of its issue, which the accesses of one issue
share (R279), the units still to perform, and the bytes that a redirected load has read. -/
structure SrfxOp where
  no : Nat
  kind : SrfxKind
  cid : Nat
  cls : Nat
  flag : Option Nat
  va : Word
  parts : List SrfxPart
  got : ByteMap
  size : Nat
  sent : Nat
  deriving DecidableEq, Repr

/-- What follows the two delay issues of a branch (R231, R263, R264). -/
inductive AfterDelay where
  | goto (target : Nat)
  | halt
  | rest
  deriving DecidableEq, Repr

/-- A kernel context (R32, R361). -/
structure Context where
  uid : Nat
  slot : Nat
  first : Nat
  size : Nat
  base : Nat
  vwin : Nat
  bent : Nat
  peg : Nat
  seq : BitVec 32
  role : Nat
  cls : Nat
  accw : List Nat
  ins : List Binding
  outs : List Binding
  thr : Nat
  rnd : BitVec 2
  seed : Word32
  gens : AMap Word32
  cl : List CtxCluster
  lc : AMap (BitVec 32)
  flags : BitVec 16
  ovc : Nat
  pc : Nat
  rep : Nat
  delays : List (Nat × AfterDelay)
  holds : AMap HeldMove
  flight : List Flight
  srfx : List SrfxOp
  /-- armed watches by flag: semaphore and threshold, phaser and phase (R273, R274) -/
  semWatch : AMap (Nat × Nat)
  phWatch : AMap (Nat × BitVec 32)
  deferred : List Trap
  w : Nat
  steps : Nat
  compat : Bool
  redir : Bool
  ovfBase : Nat
  restNow : Bool
  /-- a stall step has been made for the coming issue (R381) -/
  stalled : Bool
  /-- frozen by its own trap, at a rest point or by escalation (R362) -/
  frozen : Bool
  /-- halted: its last issue has been made (R263) -/
  ended : Bool
  trap : Option Trap
  /-- waits for firmware after cause 0x0B (R369): the window -/
  accWait : Option Nat
  /-- the clock of its last issue (R348) -/
  issuedAt : Option Nat
  deriving DecidableEq, Repr

/-! ## Cores -/

/-- A seated region (R296). -/
structure Region where
  macro0 : Nat
  count : Nat
  k : Nat
  n : Nat
  et : Nat
  gs : Nat
  bwd : Bool
  bent : Nat
  peg : Nat
  deriving DecidableEq, Repr

/-- An allocation entry (R193). -/
structure Alloc where
  space : LocalSpace
  base : Nat
  len : Nat
  peg : Nat
  bent : Nat
  deriving DecidableEq, Repr

/-- A frame of kernel instruction memory (R375, R385). -/
structure Frame where
  bent : Nat
  line : Nat
  locked : Bool
  stamp : Nat
  /-- the key that its line was read under (R375) -/
  key : BitVec 512
  deriving DecidableEq, Repr

/-- MWAIT spinning on a core (R151): the line watched, the address, and the clock and timestamp when the spin began. -/
structure Spin where
  line : Nat
  va : Word
  since : Nat
  sinceTs : Nat
  woken : Bool
  deriving DecidableEq, Repr

/-- A core: control core, engines, typed buffers, clusters. -/
structure Core where
  x : Vector Word 32
  f : Vector Word 32
  d : Vector Desc 16
  pc : Word
  regs : PegRegs
  /-- the running peg -/
  peg : Option Nat
  dispatched : Nat
  /-- nanoseconds that the handler had run before `hactFrom`, and the timestamp it has run from (R359) -/
  hactTime : Nat
  hactFrom : Nat
  spin : Option Spin
  /-- when an instruction that waits for its own data was sent to a window (R434, R403) -/
  asked : Option Nat
  /-- when the fetch now outstanding was sent to a window (R136, R403) -/
  fetchAsked : Option Nat
  /-- clock of the pre-emption request, while one is pending (R364) -/
  preempt : Option Nat
  /-- the ready peg that the pre-emption is for (R342) -/
  preemptFor : Option Nat
  /-- pre-emption has reached its boundary: the control core has stopped -/
  halted : Bool
  icache : AMap Word32
  /-- lines of read-only-cacheable window pages that the L1 data cache holds (R99), by address div 64 -/
  dcache : AMap CacheLine
  ageLimit : Word
  restWin : Word
  spillMode : Word
  accOwn : AMap Word
  sems : AMap (BitVec 16)
  jnext : BitVec 32
  journal : List Cmd
  comp : AMap (BitVec 32)
  srf : ByteMap
  srfPoison : AMap Unit
  srfFmt : AMap Word
  wb : ByteMap
  wbPoison : AMap Unit
  /-- the macros' scale rows: two bytes an entry, macro m's at 8192·m (R297) -/
  scaleRows : ByteMap
  scalePoison : AMap Unit
  regions : List Region
  acc : ByteMap
  accPoison : AMap Unit
  allocs : List Alloc
  finCw : Word
  finScale : Word
  jigActive : AMap Word
  jigShadow : AMap Word
  jigIdx : AMap Word
  jigSteps : BitVec 32
  /-- columns retired, by unit: macros 0 to 31, tiles 32 to 39 (R310) -/
  retired : AMap Nat
  /-- the core refuses jig runs (R311) -/
  refuse : Bool
  ctxs : List Context
  /-- spill memory of the eight clusters, 8 KiB each (R275) -/
  spill : ByteMap
  frames : List Frame
  deriving DecidableEq, Repr

/-! ## Pegs and bents -/

/-- The state of a live peg (R339). -/
inductive PegState where
  | ready | running | waiting
  deriving DecidableEq, Repr

/-- What a waiting peg waits for (R152). -/
inductive Wait where
  | join
  | phaser (bay ph : Nat) (raised : Bool)
  | sem (n thr : Nat)
  | memory (line : Nat) (va : Word) (since tmo : Nat)
  deriving DecidableEq, Repr

/-- A core frame (R365): what a pre-empted peg held on its core, buffers as the bytes and poison marks of its ranges; and the core
it comes from. -/
structure CoreFrame where
  step : Word
  allocs : List Alloc
  srf : ByteMap
  srfPoison : AMap Unit
  srfFmt : AMap Word
  wb : ByteMap
  wbPoison : AMap Unit
  scaleRows : ByteMap
  scalePoison : AMap Unit
  regions : List Region
  ctxs : List Context
  spill : ByteMap
  cmds : List Cmd
  finCw : Word
  finScale : Word
  jigActive : AMap Word
  jigShadow : AMap Word
  jigIdx : AMap Word
  jigSteps : BitVec 32
  /-- windows that a migration has spilled, with the core that they come from (R371) -/
  spilled : List (Nat × Nat)
  fromCore : Nat
  deriving DecidableEq, Repr

/-- A live peg as the Zevar keeps it (R343): its record, its place and its wait. -/
structure Peg where
  recAddr : Word
  bent : Nat
  st : PegState
  /-- the bay whose pool holds its entry; none in an overflow queue (R343) -/
  pool : Option Nat
  pin : Bool
  core : Nat
  psave : Bool
  link : Word
  parent : Option Nat
  joins : Nat
  /-- the moment it last entered state 1 (R340) -/
  age : Nat
  readySince : Nat
  wait : Option Wait
  /-- its wait's condition is met and its result written -/
  met : Bool
  pending : List Trap
  frameNo : Option Nat
  coreFrameNo : Option Nat
  coreFrame : Option CoreFrame
  /-- TRAP.CAUSE, TRAP.INFO and TRAP.ADDR of a peg that is not running (R109), and the time its handler has run (R359) -/
  cause : Word
  info : Word
  addr : Word
  hactTime : Nat
  /-- held for a restore mismatch (R372) -/
  held : Bool
  deriving DecidableEq, Repr

/-- A part of a bent's image space as loaded (R378): its range and whether its contexts run in compatibility mode. -/
structure ImagePart where
  off : Nat
  len : Nat
  compat : Bool
  deriving DecidableEq, Repr

/-- A bent: the Zevar's own copy of its record (R335, R337) and what it keeps for it. -/
structure Bent where
  parent : Option Nat
  level : Nat
  prio : Nat
  priv : Bool
  det : Bool
  drain : Bool
  /-- clock at which draining began (R373) -/
  drainAt : Nat
  lockLost : Bool
  inh : Nat
  key : Nat
  phBase : Nat
  phCnt : Nat
  maxCores : Nat
  maxCtx : Nat
  hbmq : Nat
  hpc : Word
  save : Word
  ptroot : Nat
  ovq : Word
  ovqn : Nat
  ovqh : BitVec 32
  ovqt : BitVec 32
  recn : Nat
  recBase : Word
  stage : Word
  stagen : Nat
  brg : List Word
  dispatches : BitVec 64
  preempts : BitVec 64
  traps : BitVec 64
  spawns : BitVec 64
  /-- the owner key of the session that created its root (R416, R418) -/
  owner : List Byte
  effPrio : Nat
  /-- timestamp from which the ageing interval runs (R341) -/
  agedAt : Nat
  /-- stamp of the last dispatch (R340) -/
  lastDispatch : Nat
  /-- record slots in use (R339) -/
  slots : AMap Unit
  /-- pegs of the overflow queue, oldest first (R343) -/
  overflow : List Nat
  /-- bridge counts by 4·bay + j (R346) -/
  bridge : AMap Nat
  image : ByteMap
  /-- the key that each 32-byte unit of the image space was written under (R375) -/
  imageKey : AMap (BitVec 512)
  starts : AMap Unit
  parts : List ImagePart
  usedFrames : AMap Unit
  usedCoreFrames : AMap Unit
  /-- firmware's bookkeeping of its spill slots (R369), by 256 · core + window -/
  spills : AMap Nat
  /-- physical base and size of a created bent's tables and quota pages (R417) -/
  quotaAt : Nat
  quotaLen : Nat
  last : Option (Nat × Nat)
  deriving DecidableEq, Repr

/-- The members of a phaser (R156, R274, R346). -/
inductive Member where
  | peg (id : Nat)
  | context (uid : Nat)
  | bridge (bent j : Nat)
  deriving DecidableEq, Repr

/-- The modes of a phaser member (R125, R157). -/
inductive PhMode where
  | sig | wait | sigwait
  deriving DecidableEq, Repr

/-- A phaser (R156): its phase and its members with mode and local phase. -/
structure Phaser where
  p : BitVec 32
  members : List (Member × PhMode × BitVec 32)
  deriving DecidableEq, Repr

/-- A bay (R17): ageing register, phasers, TLB and walkers, L2 lines, collective engine. -/
structure Bay where
  age : Word
  phasers : AMap Phaser
  tlb : List TlbEntry
  walks : List Walk
  /-- lines of the L2 slice, by physical address div 64 -/
  l2 : AMap CacheLine
  /-- rounds aborted at this engine (R407, R409) -/
  aborted : List (BitVec 32)
  /-- step messages of rounds not yet started here (R407) -/
  held : List CollMsg
  temp : Int
  hold : Bool
  deriving DecidableEq, Repr

/-! ## Sill units -/

/-- The state of a channel's timetable (R393). -/
inductive SillState where
  | empty | loaded | armed | running | holding | done | stopped
  deriving DecidableEq, Repr

/-- A unit of a sill (R389): operands, result, results in flight with the tick they land at. -/
structure SillUnit where
  o0 : Desc
  o1 : Desc
  x : Desc
  flight : List (Nat × Desc)
  deriving DecidableEq, Repr

/-- A channel's sill unit (R388 to R398). -/
structure Sill where
  st : SillState
  /-- its state before it was armed (R206) -/
  prior : SillState
  bent : Nat
  header : List Byte
  entries : List Word
  /-- granules of the channel, as virtual and physical addresses in ascending virtual order (R390) -/
  granules : List (Nat × Nat)
  /-- virtual addresses whose translation a TLBI dropped (R392) -/
  dropped : AMap Unit
  /-- the translated locations of the segment's granules and of DONE, FLAG and LADR addresses, with the page size, by virtual
  address -/
  locs : AMap (Loc × Nat)
  peg : Nat
  seq : BitVec 32
  core : Nat
  start : Nat
  gto : Nat
  pass : Nat
  entry : Nat
  tick : Nat
  sr : AMap Word32
  lm : AMap Desc
  rd0 : Desc
  rd1 : Desc
  rdFlight : List (Nat × Bool × Desc)
  wb : Desc
  gp : Word32
  add : SillUnit
  cmp : SillUnit
  sfn : SillUnit
  lock : Option Nat
  holdSince : Nat
  lastRefresh : Nat
  stats : Option Stats
  stopReq : Bool
  /-- a DONE add that waits for the statistics merge (R395) -/
  doneOwed : Bool
  /-- when an access of the channel was sent to a window (R403) -/
  asked : Option Nat
  deriving DecidableEq, Repr

/-! ## Fabric, host, management -/

/-- A package of the fabric as this one knows it (R81, R403, R404). -/
structure Peer where
  capacity : Nat
  answers : Bool
  linkUp : Bool
  keyEpoch : Nat
  key : BitVec 256
  packets : Nat
  deriving DecidableEq, Repr

/-- A control session (R415, R416): `owner` the owner key that opened it. -/
structure Session where
  num : Nat
  owner : List Byte
  seqIn : Nat
  seqOut : Nat
  keyIn : BitVec 256
  keyOut : BitVec 256
  deriving DecidableEq, Repr

/-- A queue pair (R411, R412): `port` the port it works on, once a packet has come. -/
structure QueuePair where
  bent : Nat
  port : Option Nat
  key : BitVec 256
  psn : Nat
  packetsIn : Nat
  packetsOut : Nat
  /-- messages completed -/
  msn : Nat
  /-- offset and remaining length of the RDMA WRITE in progress -/
  writeAt : Nat
  writeLeft : Nat
  /-- answers as they were sent, header and sealed payload, by extended PSN (R412) -/
  sent : AMap (List Byte × List Byte)
  deriving DecidableEq, Repr

/-- What the module sends out (MODEL's own trace, log 20). -/
inductive OutMsg where
  | datagram (bytes : List Byte)
  | fabric (p : FabricPacket)
  | roce (port : Nat) (header payload : List Byte)
  | arpReply (port : Nat) (addr : List Byte)
  | neighborReply (port : Nat) (addr : List Byte)
  | collStep (toPkg toBay : Nat) (m : CollMsg)
  | collAbort (toPkg toBay : Nat) (m : CollAbortMsg)
  | delayReq (port : Nat) (seqId : Nat)
  deriving DecidableEq, Repr

/-- An event of telemetry (R427). -/
structure Event where
  ts : Nat
  kind : Nat
  unitNo : Nat
  bent : Nat
  owner : List Byte
  deriving DecidableEq, Repr

/-- What the clock servo of R414 keeps: whether it has locked, the correction still to be slewed in nanoseconds and the
part of an interval not yet used, the time transmitter chosen with its data set, sender and port and when it last announced itself,
and the Sync in progress. -/
structure Ptp where
  locked : Bool
  slew : Int
  slewPart : Nat
  best : Option (List Nat × Nat × Nat)
  bestAt : Nat
  syncAt : Option (Nat × Nat)
  origin : Option Nat
  delaySent : Option (Nat × Nat)
  deriving DecidableEq, Repr

/-- The phase of service (R428, R429): in service; below R40's counts; stopped in bring-up; after a fatal error; without
power. -/
inductive Phase where
  | service | belowCounts | stopped | fatal | off
  deriving DecidableEq, Repr

/-- A section of the dump (R430): its owner key, none for the vendor, with the index that the key had; its bent; its contents, and which of their
8-byte units are poisoned (R426). -/
structure DumpSection where
  owner : Option (List Byte)
  index : Nat
  bent : Nat
  data : List Byte
  poison : List Nat
  deriving DecidableEq, Repr

/-- The dump (R430): when, why, and its sections. -/
structure Dump where
  ts : Nat
  cause : Nat
  sections : List DumpSection
  deriving DecidableEq, Repr

/-- What power, errors and bring-up keep (R38 to R42, R421 to R429). -/
structure Module where
  phase : Phase
  config : ConfigRecord
  /-- SHA-256, security version and build number of the running firmware (R173, R420) -/
  fwHash : List Byte
  fwVersion : BitVec 64
  fwBuild : BitVec 64
  chans : Nat
  bayCores : List Nat
  /-- physical numbers, 256 · bay + index, of the logical cores in order (R41); none listed while every core is enabled -/
  physical : List Nat
  flashList : List Nat
  listed : List Nat
  clockMHz : Nat
  avgPower : Nat
  samples : List Nat
  /-- when the last sample was taken (R422), by `elapsed` -/
  sampledAt : Option Nat
  capping : Bool
  corrected : BitVec 64
  poisonings : BitVec 64
  columns : BitVec 32
  events : List Event
  dump : Option Dump
  bentMax : Nat
  bentBase : Word
  draws : Nat
  deriving DecidableEq, Repr

/-- The whole machine. -/
structure State where
  /-- MODEL's own: turns queued (log 1), turns taken, the acting core, whether this turn's accesses stay pending, the counter of
  free values -/
  sched : List Turn
  turns : Nat
  cur : Nat
  defer : Bool
  free : Nat
  /-- MODEL's own: stamps for ages and identities -/
  stamp : Nat
  /-- the global timestamp (R414) -/
  timestamp : Nat
  /-- MODEL's own: nanoseconds since reset, which intervals in microseconds count (R403, R341, R408) -/
  elapsed : Nat
  clk : Nat
  cores : AMap Core
  bays : AMap Bay
  pegs : AMap Peg
  bents : AMap Bent
  mem : ByteMap
  /-- physical 8-byte units that are poisoned, by address div 8 (R424) -/
  poison : AMap Unit
  /-- the key each 32-byte unit was written under, by address div 32 (R84); unlisted units are in clear -/
  unitKey : AMap (BitVec 512)
  accums : List Accum
  pending : List Access
  fences : List Fence
  merges : List Merge
  recordMerges : List RecordMerge
  /-- key slots whose key was installed or redrawn (R83, R418) -/
  keys : AMap (BitVec 512)
  sills : AMap Sill
  peers : AMap Peer
  /-- merge packets that this package's router holds for forwarding (R405) -/
  router : List FabricPacket
  sessions : List Session
  nextSession : Nat
  qps : AMap QueuePair
  outbox : List OutMsg
  ptp : Ptp
  mgmt : Module
  deriving DecidableEq, Repr

/-! ## Reset -/

/-- The peg registers at reset, and after a dispatch with PSAVE = 0 (R108, R109). -/
def PegRegs.reset : PegRegs :=
  { rndDef := 0, rngSeed := 0, fpCsr := 0, ordScope := 0b011, scrbWin := 0, scrbRthr := 0, mwaitTmo := 0x1000
    collTmo := 0x2710, sillGto := 0x3E8, klockStat := 0, trapCause := 0, trapPc := 0, trapInfo := 0, trapAddr := 0 }

/-- A core after reset. Registers that no rule gives a reset value are 0 (DESIGN CHOICE, log 3); buffers are zero (log 5). -/
def Core.reset : Core :=
  { x := Vector.replicate 32 0, f := Vector.replicate 32 0, d := Vector.replicate 16 0, pc := 0, regs := PegRegs.reset
    peg := none, dispatched := 0, hactTime := 0, hactFrom := 0, spin := none, asked := none, fetchAsked := none, preempt := none, preemptFor := none, halted := false, icache := [], dcache := []
    ageLimit := 0x40, restWin := 0x10000, spillMode := 0, accOwn := [], sems := [], jnext := 0, journal := [], comp := []
    srf := [], srfPoison := [], srfFmt := [], wb := [], wbPoison := [], scaleRows := [], scalePoison := [], regions := [], acc := []
    accPoison := [], allocs := [], finCw := 0, finScale := 0, jigActive := [], jigShadow := [], jigIdx := [], jigSteps := 0
    retired := [], refuse := false, ctxs := [], spill := [], frames := [] }

/-- A bay after reset. -/
def Bay.reset : Bay :=
  { age := 0x64, phasers := [], tlb := [], walks := [], l2 := [], aborted := [], held := [], temp := 0, hold := false }

/-- A phaser that nothing has used (DESIGN CHOICE, log 3: phase 0). -/
def Phaser.reset : Phaser := { p := 0, members := [] }

def SillUnit.reset : SillUnit := { o0 := 0, o1 := 0, x := 0, flight := [] }

/-- A sill unit after reset (R393). -/
def Sill.reset : Sill :=
  { st := .empty, prior := .empty, bent := 0, header := [], entries := [], granules := [], dropped := [], locs := [], peg := 0, seq := 0
    core := 0, start := 0, gto := 0, pass := 0, entry := 0, tick := 0, sr := [], lm := [], rd0 := 0, rd1 := 0
    rdFlight := [], wb := 0, gp := 0, add := SillUnit.reset, cmp := SillUnit.reset, sfn := SillUnit.reset
    lock := none, holdSince := 0, lastRefresh := 0, stats := none, stopReq := false, doneOwed := false
    asked := none }

/-- The configuration record in force at reset (DESIGN CHOICE, log 6). -/
def ConfigRecord.reset : ConfigRecord :=
  { pkg := 0, addresses := [], ptpDomain := 0, routes := [], ownerKeys := [], floor := 0 }

/-- Management state at reset (DESIGN CHOICE, logs 3 and 6: a full module in service). -/
def Module.reset : Module :=
  { phase := .service, config := ConfigRecord.reset, fwHash := sha256 Config.firmwareImage, fwVersion := Config.firmwareVersion
    fwBuild := Config.firmwareBuild, chans := 384, bayCores := [256, 256, 256, 256, 256, 256, 256, 256], physical := []
    flashList := [], listed := [], clockMHz := 3300, avgPower := 0, samples := [], sampledAt := none, capping := false, corrected := 0
    poisonings := 0, columns := 0, events := [], dump := none, bentMax := 0xFFFFFE, bentBase := 0, draws := 0 }

/-- The machine after reset. -/
def State.reset : State :=
  { sched := [], turns := 0, cur := 0, defer := false, free := 0, stamp := 0, timestamp := 0, elapsed := 0, clk := 0, cores := []
    bays := [], pegs := [], bents := [], mem := [], poison := [], unitKey := [], accums := [], pending := [], fences := [], merges := []
    recordMerges := [], keys := [], sills := [], peers := [], router := [], sessions := [], nextSession := 1
    qps := [], outbox := []
    ptp := { locked := false, slew := 0, slewPart := 0, best := none, bestAt := 0, syncAt := none, origin := none, delaySent := none }
    mgmt := Module.reset }

end Sys2Proof.Machine
end

