-- ==== Sys2Proof/Machine/Mem.lean ====
section
/-! DEFINITION. Global memory at home: presence (R80, R81), keys (R83 to R87), poison (R426), exact accumulators (R70), the watch on
lines (R151) and locked granules (R399). Every access to HBM4 goes through the operations of this file. -/

namespace Sys2Proof.Machine

/-! ## Module shape -/

/-- The core with a number; a core nothing has touched is as at reset. -/
def State.core (s : State) (c : Nat) : Core := s.cores.get c Core.reset

def State.setCore (s : State) (c : Nat) (k : Core) : State := { s with cores := s.cores.put c k }

def State.bay (s : State) (b : Nat) : Bay := s.bays.get b Bay.reset

def State.setBay (s : State) (b : Nat) (y : Bay) : State := { s with bays := s.bays.put b y }

def State.sill (s : State) (ch : Nat) : Sill := s.sills.get ch Sill.reset

def State.setSill (s : State) (ch : Nat) (u : Sill) : State := { s with sills := s.sills.put ch u }

/-- The number of enabled cores, DEV.CNT:CORES (R38, R41). -/
def State.coreCount (s : State) : Nat := s.mgmt.bayCores.foldl (· + ·) 0

/-- The bay and the index in it of logical core `c` (R41). -/
def locateCore : List Nat → Nat → Nat → Nat × Nat
  | [], b, c => (b, c)
  | n :: t, b, c => if c < n then (b, c) else locateCore t (b + 1) (c - n)

def State.bayOf (s : State) (c : Nat) : Nat := (locateCore s.mgmt.bayCores 0 c).1

def State.inBay (s : State) (c : Nat) : Nat := (locateCore s.mgmt.bayCores 0 c).2

/-- CORE.ID (R38). -/
def State.coreId (s : State) (c : Nat) : Word :=
  BitVec.ofNat 64 (s.inBay c * 2 ^ 14 + s.bayOf c * 2 ^ 11 + c % 2 ^ 11)

/-- DEV.CNT (R38). -/
def State.devCnt (s : State) : Word :=
  BitVec.ofNat 64 (s.mgmt.config.pkg * 2 ^ 32 + s.mgmt.chans * 2 ^ 16 + s.coreCount)

/-- DEV.STEP of this stepping, B1 (R1). -/
def devStep : Word := 0xB1

/-- A fresh stamp; stamps rise with every use. -/
def State.tick (s : State) : Nat × State := (s.stamp, { s with stamp := s.stamp + 1 })

/-! ## Physical map -/

/-- Bytes of HBM4 present (R41, R80). -/
def State.capacity (s : State) : Nat := s.mgmt.chans * 2 ^ 31

/-- Where a physical address leads (R80, R81). -/
inductive Region80 where
  | hbm (off : Nat)
  | window (pkg off : Nat)
  | management
  | absent
  deriving DecidableEq, Repr

/-- The physical map (R80, R81); the window of the module's own id is its own HBM4 as far as that is present, and beyond it an address that no
location answers for. -/
def State.region (s : State) (pa : Nat) : Region80 :=
  if pa < 0xC000000000 then
    if pa < s.capacity then .hbm pa else .absent
  else if pa < 0x10000000000 then .absent
  else if pa < 0x1000000000000 then
    let p := pa / 2 ^ 40 - 1
    let o := pa % 2 ^ 40
    if o < 0xC000000000 then
      if p = s.mgmt.config.pkg && decide (o < s.capacity) then .hbm o else .window p o
    else .absent
  else if 0xF000000000000 ≤ pa ∧ pa < 0x10000000000000 then .management
  else .absent

/-- The one name of a location: an address through the module's own window is the HBM4 address itself (R81). -/
def State.home (s : State) (pa : Nat) : Nat :=
  match s.region pa with
  | .hbm o => o
  | _ => pa

/-- The package a location's home is in, if it is another one. -/
def State.remote? (s : State) (pa : Nat) : Option Nat :=
  match s.region pa with
  | .window p _ => if p = s.mgmt.config.pkg then none else some p
  | _ => none

/-! ## Packets -/

/-- The next package on the way to another (R402): by the configured route, or over a link of its own. -/
def State.hop (s : State) (dst : Nat) : Nat :=
  match List.find? (fun (r : Nat × Nat) => decide (r.1 = dst)) s.mgmt.config.routes with
  | some r => r.2
  | none => dst

/-- Another package as this one knows it; without a link to it, only its HBM4 (R81). -/
def State.peer (s : State) (p : Nat) : Peer :=
  s.peers.get p { capacity := Config.peerCapacity p, answers := true, linkUp := false, keyEpoch := 0, key := 0, packets := 0 }

/-- The number of packets of an access: none crosses a 256-byte boundary (R401). -/
def packetsOf (pa n : Nat) : Nat := (pa + n - 1) / 256 - pa / 256 + 1

/-- Whether a link can send `n` packets: it is up, and its key need not be renewed first (R404). -/
def Peer.sends (q : Peer) (n : Nat) : Bool := q.linkUp && decide (q.packets + n < 2 ^ 32)

/-- Whether `n` packets to another package go out and it answers them (R403, R404): over the link of the way there. -/
def State.reachable (s : State) (p n : Nat) : Bool := (s.peer (s.hop p)).sends n && (s.peer p).answers

/-- Packets to another package are counted on the link that they take (R404). -/
def State.countPackets (s : State) (p n : Nat) : State :=
  let h := s.hop p
  { s with peers := s.peers.put h { s.peer h with packets := (s.peer h).packets + n } }

/-- An access to `n` bytes at `pa` is sent: its packets, where its home is another package's (R401, R404). -/
def State.sent (s : State) (pa n : Nat) : State :=
  match s.remote? pa with
  | none => s
  | some p => if s.reachable p (packetsOf pa n) then s.countPackets p (packetsOf pa n) else s

/-- What answers an access to a location (R81, R403). -/
inductive Answer where
  | here | refused | silent
  deriving DecidableEq, Repr

/-- How the home of `n` bytes at `pa` answers. -/
def State.answer (s : State) (pa n : Nat) : Answer :=
  match s.region pa with
  | .window p o =>
    if p = s.mgmt.config.pkg then .refused
    else if s.reachable p (packetsOf pa n) then
      if o + n ≤ (s.peer p).capacity then .here else .refused
    else .silent
  | _ => .here

/-- ChannelOf (R82): the channel and the offset in it of a present HBM4 address, on a module of `c` channels. -/
def channelOf (c a : Nat) : Nat × Nat :=
  let g := a / 256
  let row := g / c
  let h := (bitsOf row 8 0) ^^^ (bitsOf row 17 9) ^^^ (bitsOf row 22 18)
  ((g % c + h) % c, row * 256 + a % 256)

/-! ## Keys -/

/-- The key in a slot (R83, R418). -/
def State.keyOf (s : State) (slot : Nat) : BitVec 512 := (s.keys.find? slot).getD (Config.drbgKey slot 0)

/-- The key that a unit is encrypted under by a slot, at the unit's home: for a window, the slot with that number in the other package (R84, R418). -/
def State.keyAt (s : State) (slot u : Nat) : BitVec 512 :=
  match s.remote? (32 * u) with
  | some p => Config.peerKey p slot
  | none => s.keyOf slot

/-- The physical address of a unit at its home, which is its tweak (R84). -/
def State.tweakOf (s : State) (u : Nat) : Nat :=
  match s.region (32 * u) with
  | .window _ o => o
  | _ => 32 * u

/-- The stored bytes of a unit: those written in clear, or the ciphertext of those written under a key (R79, R84). -/
def State.unitStored (s : State) (u : Nat) : List Byte :=
  let d := ByteMap.rdN s.mem (32 * u) 32
  match s.unitKey.find? u with
  | none => d
  | some k => xtsEncrypt k (s.tweakOf u) d

/-- Whether a unit was last written as `slot` sees it. -/
def State.sameKey (s : State) (slot : Option Nat) (u : Nat) : Bool :=
  match s.unitKey.find? u, slot with
  | none, none => true
  | some k, some t => decide (k = s.keyAt t u)
  | _, _ => false

/-- A unit as seen under `slot` (none: in clear): the bytes themselves when the unit was written that way, else its stored bytes, or what the
slot's key makes of those (R84, R87). -/
def State.unitUnder (s : State) (slot : Option Nat) (u : Nat) : List Byte :=
  if s.sameKey slot u then ByteMap.rdN s.mem (32 * u) 32
  else match slot with
    | none => s.unitStored u
    | some t => xtsDecrypt (s.keyAt t u) (s.tweakOf u) (s.unitStored u)

/-- The byte at a home address, read under a slot. -/
def State.byteAt (s : State) (slot : Option Nat) (pa : Nat) : Byte :=
  if s.sameKey slot (pa / 32) then ByteMap.rd s.mem pa
  else (nth? (s.unitUnder slot (pa / 32)) (pa % 32)).getD 0

/-- `n` bytes from a home address upward. -/
def State.bytesAt (s : State) (slot : Option Nat) (pa : Nat) : Nat → List Byte
  | 0 => []
  | n + 1 => s.byteAt slot pa :: State.bytesAt s slot (pa + 1) n

/-- Bring a unit under a slot's key: the read, decrypt, encrypt part of R85. -/
def State.rekey (s : State) (slot : Option Nat) (u : Nat) : State :=
  if s.sameKey slot u then s
  else
    { s with
      mem := ByteMap.wrN s.mem (32 * u) (s.unitUnder slot u)
      unitKey := match slot with
        | none => AMap.erase s.unitKey u
        | some t => AMap.put s.unitKey u (s.keyAt t u) }

/-- Write one byte at a home address under a slot. -/
def State.putByte (s : State) (slot : Option Nat) (pa : Nat) (b : Byte) : State :=
  let s := s.rekey slot (pa / 32)
  { s with mem := ByteMap.wr s.mem pa b }

/-- Write bytes from a home address upward. -/
def State.putBytes (s : State) (slot : Option Nat) (pa : Nat) : List Byte → State
  | [] => s
  | b :: t => State.putBytes (s.putByte slot pa b) slot (pa + 1) t

/-! ## Poison -/

/-- Whether a unit of `n` bytes at `pa` holds poison (R426). -/
def State.poisoned (s : State) (pa n : Nat) : Bool :=
  n != 0 && (rangeFrom (pa / 8) ((pa + n - 1) / 8 - pa / 8 + 1)).any (fun u => AMap.has s.poison u)

/-- The units a write of `n` bytes at `pa` covers whole lose their poison (R426). -/
def clearPoison (p : AMap Unit) (pa n : Nat) : AMap Unit :=
  p.filter (fun e => !(decide (pa ≤ 8 * e.1) && decide (8 * e.1 + 8 ≤ pa + n)))

/-! ## Exact accumulators -/

/-- The exact value a floating value opens an accumulator with (R70). -/
def ExactSum.of : FVal → ExactSum
  | .nan _ _ => .nan
  | .inf s => .inf s
  | .fin s m e => .num s m e

/-- An exact sum as a value; the default NaN for what NaNs or opposed infinities made. -/
def ExactSum.val : ExactSum → FVal
  | .nan => .dnan
  | .inf s => .inf s
  | .num s m e => .fin s m e

/-- Add one contribution exactly (R70). -/
def ExactSum.add (a : ExactSum) (v : FVal) : ExactSum := ExactSum.of (a.val.add v)

/-- The floating format of an accumulator's lanes. -/
def Accum.fmt (a : Accum) : Fmt := if a.size = 8 then .f64 else if a.two || a.size = 2 then .bf16 else .f32

/-- The bytes that closing an accumulator writes: the exact sum rounded once, RNE (R70). -/
def Accum.bytes (a : Accum) : List Byte :=
  let f := a.fmt
  let w := f.ebits + f.mbits + 1
  let lo := (f.deliver .rne false 0 a.lo.val).1
  if a.two then leBytes 4 (lo + 2 ^ w * (f.deliver .rne false 0 a.hi.val).1) else leBytes a.size lo

/-- Whether an accumulator's location meets `n` bytes at `pa`. -/
def Accum.meets (a : Accum) (pa n : Nat) : Bool := decide (a.pa < pa + n) && decide (pa < a.pa + a.size)

/-- Close the accumulators that `n` bytes at `pa` meet (R70). -/
def State.closeAccums (s : State) (pa n : Nat) : State :=
  let hit := s.accums.filter (fun a => a.meets pa n)
  if hit.isEmpty then s
  else
    hit.foldl (fun s a => s.putBytes a.slot a.pa a.bytes) { s with accums := s.accums.filter (fun a => !a.meets pa n) }

/-! ## Watches and locks -/

/-- A write to `n` bytes at `pa` performs: every watch on a line it touches is a wake event (R151). -/
def State.wake (s : State) (pa n : Nat) : State :=
  let hit (line : Nat) : Bool := decide (line < pa + n) && decide (pa < line + 64)
  let pegs := s.pegs.map (fun e => match e.2.wait with
    | some (.memory l _ _ _) => if hit l then (e.1, { e.2 with met := true }) else e
    | _ => e)
  let cores := s.cores.map (fun e => match e.2.spin with
    | some sp => if hit sp.line then (e.1, { e.2 with spin := some { sp with woken := true } }) else e
    | none => e)
  { s with pegs := pegs, cores := cores }

/-- The granule that a sill unit holds locked (R391, R399): its physical address. -/
def Sill.lockedAt (u : Sill) : Option Nat :=
  match u.lock with
  | some j => (nth? u.granules j).map Prod.snd
  | none => none

/-- Whether another agent's access to `n` bytes at `pa` must wait for a sill unit's unlock (R399). -/
def State.lockedOut (s : State) (pa n : Nat) : Bool :=
  s.sills.any (fun e => match e.2.lockedAt with
    | some g => decide (g < pa + n) && decide (pa < g + 256)
    | none => false)

/-! ## Cached lines -/

/-- Whether a cached line is of a window page, which no home keeps coherent (R99). -/
def CacheLine.stale (c : CacheLine) : Bool := !c.data.isEmpty

/-- A line of a list of caches is invalidated where it is coherent. -/
def dropLine (m : AMap CacheLine) (line : Nat) : AMap CacheLine :=
  match m.find? line with
  | some c => if c.stale then m else m.erase line
  | none => m

/-- The lines that `n` bytes at an address touch. -/
def linesOf (pa n : Nat) : List Nat := rangeFrom (pa / 64) ((pa + n - 1) / 64 - pa / 64 + 1)

/-- A write or an atomic performs at home: the directory has invalidated the copies of its lines in every L2 (R94, R95, R282). -/
def State.dropLines (s : State) (pa n : Nat) : State :=
  if s.bays.any (fun e => (linesOf pa n).any (fun u => e.2.l2.has u)) then
    { s with bays := s.bays.map (fun e => (e.1, { e.2 with l2 := (linesOf pa n).foldl dropLine e.2.l2 })) }
  else s

/-! ## Accesses at home -/

/-- Read `n` bytes of a location at home: an access that is no merge-add closes its accumulators first (R70). -/
def State.readLoc (s : State) (l : Loc) (n : Nat) : State × List Byte :=
  let s := s.closeAccums l.pa n
  (s, s.bytesAt l.slot l.pa n)

/-- Write bytes of a location at home (R85, R282, R426). -/
def State.writeLoc (s : State) (l : Loc) (data : List Byte) : State :=
  let n := data.length
  let s := (s.closeAccums l.pa n).dropLines l.pa n
  let s := s.putBytes l.slot l.pa data
  { s with poison := clearPoison s.poison l.pa n }.wake l.pa n

/-! ## Atomic operations -/

/-- The format of a floating merge or atomic on `size` bytes. -/
def mergeFmt (op : MergeOp) (size : Nat) : Fmt :=
  match op with
  | .bfadd2 => .bf16
  | _ => if size = 8 then .f64 else if size = 2 then .bf16 else .f32

/-- The two bf16 lanes of bfadd2 (R147). -/
def bfadd2 (a b : Nat) : Nat :=
  let lane (x y : Nat) := (Fmt.bf16.deliver .rne false 0 ((Fmt.bf16.decode (x % 2 ^ 16)).add (Fmt.bf16.decode (y % 2 ^ 16)))).1
  lane a b + 2 ^ 16 * lane (a / 2 ^ 16) (b / 2 ^ 16)

/-- AOp of R147 on the bits of `size` bytes: the memory operand first. -/
def aop (op : MergeOp) (size a b : Nat) : Nat :=
  let w := 8 * size
  let m := 2 ^ w
  let f := mergeFmt op size
  match op with
  | .add => (a + b) % m
  | .and => (a &&& b) % m
  | .or => (a ||| b) % m
  | .xor => (a ^^^ b) % m
  | .swap => b % m
  | .min => if signedOf w a ≤ signedOf w b then a % m else b % m
  | .max => if signedOf w a ≤ signedOf w b then b % m else a % m
  | .minn => if a % m ≤ b % m then a % m else b % m
  | .maxn => if a % m ≤ b % m then b % m else a % m
  | .fadd => (f.deliver .rne false 0 ((f.decode (a % m)).add (f.decode (b % m)))).1
  | .bfadd2 => bfadd2 a b
  | .fmin => (f.deliver .rne false 0 ((f.decode (a % m)).min (f.decode (b % m)))).1
  | .fmax => (f.deliver .rne false 0 ((f.decode (a % m)).max (f.decode (b % m)))).1

/-- Whether an operation is a floating merge-add, which deterministic mode sums exactly (R70, R147). -/
def isFaddOp : MergeOp → Bool
  | .fadd | .bfadd2 => true
  | _ => false

/-- Enter a deterministic merge-add into the exact accumulator of its location, opening one if there is none (R70). -/
def State.accumulate (s : State) (l : Loc) (op : MergeOp) (size : Nat) (operand : Nat) : State :=
  let two := op = .bfadd2
  let f := mergeFmt op size
  let lo := f.decode (if two then operand % 2 ^ 16 else operand % 2 ^ (8 * size))
  let hi := f.decode (if two then operand / 2 ^ 16 % 2 ^ 16 else 0)
  match s.accums.find? (fun a => a.pa = l.pa && a.size = size && a.two = two) with
  | some a =>
    { s with accums := { a with lo := a.lo.add lo, hi := a.hi.add hi } ::
        s.accums.filter (fun b => !(b.pa = l.pa && b.size = size && b.two = two)) }
  | none =>
    let s := s.closeAccums l.pa size
    let old := leNat (s.bytesAt l.slot l.pa size)
    let o0 := f.decode (if two then old % 2 ^ 16 else old)
    let o1 := f.decode (if two then old / 2 ^ 16 % 2 ^ 16 else 0)
    { s with accums :=
        { pa := l.pa, size := size, two := two, slot := l.slot, lo := (ExactSum.of o0).add lo
          hi := (ExactSum.of o1).add hi } :: s.accums }

/-- A merge performs at home (R70, R147, R426): into a poisoned unit it only is acknowledged; a deterministic floating add
enters the accumulator. -/
def State.mergeAtHome (s : State) (l : Loc) (op : MergeOp) (size : Nat) (operand : Nat) (det : Bool) : State :=
  if s.poisoned l.pa size then s
  else if det && isFaddOp op then ((s.dropLines l.pa size).accumulate l op size operand).wake l.pa size
  else
    let r := s.readLoc l size
    r.1.writeLoc l (leBytes size (aop op size (leNat r.2) operand))

end Sys2Proof.Machine
end

