-- ==== Sys2Proof/Machine/Trans.lean ====
section
/-! DEFINITION. Translation (R72 to R79, R104, R105) and the checks of an access (R135). -/

namespace Sys2Proof.Machine

/-- What an access needs of a leaf (R77). Reads, writes and fetches go through the bay's L2 (R94); `both`, an atomic or record access, and
`home`, a read that the home answers itself (R321), do not. -/
inductive Need where
  | read | write | both | exec | home
  deriving DecidableEq, Repr

/-- Bit `i` of an entry. -/
def pteBit (e : BitVec 64) (i : Nat) : Bool := e.getLsbD i

/-- PA of an entry, in place (R74). -/
def ptePa (e : BitVec 64) : Nat := (e.extractLsb' 12 40).toNat * 2 ^ 12

/-- KEY of an entry (R74). -/
def pteKey (e : BitVec 64) : Nat := (e.extractLsb' 52 8).toNat

/-- CP of an entry (R74). -/
def pteCp (e : BitVec 64) : Nat := (e.extractLsb' 8 2).toNat

/-- A page table entry as the walker reads it: 8 bytes at home, as they were last written (R105; log 21). -/
def State.pte (s : State) (pa : Nat) : BitVec 64 := BitVec.ofNat 64 (leNat (ByteMap.rdN s.mem (s.home pa) 8))

/-- The levels of a walk (R73): shift of the index, its width; the page a leaf there maps has 2^shift bytes. -/
def walkLevels : List (Nat × Nat) := [(39, 17), (30, 9), (21, 9), (12, 9)]

/-- Whether an entry is one that no walk may use at a level (R75): `sh` the level's shift. -/
def badEntry (e : BitVec 64) (sh : Nat) : Bool :=
  !pteBit e 0 || e.extractLsb' 60 4 != 0 || pteBit e 10 ||
  (if pteBit e 4 then
    decide (sh = 12) || e.extractLsb' 5 7 != 0 || pteKey e != 0
  else
    decide (sh = 39) || decide (ptePa e % 2 ^ sh ≠ 0) || (pteBit e 5 && decide (sh ≠ 12)) ||
    decide (pteCp e = 3) || (decide (pteCp e = 2) && pteBit e 2))

/-- Whether a physical address is absent (R80, R81). -/
def State.absent (s : State) (pa : Nat) : Bool :=
  match s.region pa with
  | .absent => true
  | _ => false

/-- The translation a walk installs (R76): the page of the leaf, or the 64 KiB of a contiguous group. -/
def tlbOf (root va : Nat) (e : BitVec 64) (sh : Nat) : TlbEntry :=
  let size := if pteBit e 5 then 2 ^ 16 else 2 ^ sh
  { root := root, base := va / size * size, size := size, leaf := e }

/-- The walk from a table (R73, R75): the leaf's translation, or the cause and the level at which it stopped. A table outside every present
address has no entry to use (DESIGN CHOICE, log 88). -/
def State.walkFrom (s : State) (root va : Nat) : List (Nat × Nat) → Nat → WalkResult
  | [], _ => .stop 0x06 3
  | (sh, w) :: rest, table =>
    let at_ := table + 8 * (va / 2 ^ sh % 2 ^ w)
    let level := 3 - rest.length
    if s.absent at_ then .stop 0x06 level
    else if s.poisoned (s.home at_) 8 then .stop 0x1B level
    else
      let e := s.pte at_
      if badEntry e sh then .stop 0x06 level
      else if pteBit e 4 then State.walkFrom s root va rest (ptePa e)
      else if s.absent (ptePa e) then .stop 0x06 level
      else .page (tlbOf root va e sh)

/-- The root of a bent's tree (R73), at most 8 levels up. -/
def rootOf (bents : AMap Bent) : Nat → Nat → Nat
  | 0, b => b
  | n + 1, b => match bents.find? b with
    | some r => match r.parent with
      | some p => rootOf bents n p
      | none => b
    | none => b

def State.root (s : State) (b : Nat) : Nat := rootOf s.bents 8 b

/-- Whether a TLB entry serves an address (R104). -/
def TlbEntry.covers (t : TlbEntry) (root va : Nat) : Bool :=
  decide (t.root = root) && decide (t.base ≤ va) && decide (va < t.base + t.size)

/-- The walk of an address in a tree that starts now (R73, R105). -/
def State.walk (s : State) (root va : Nat) : WalkResult :=
  match s.bents.find? root with
  | none => .stop 0x06 0
  | some r => s.walkFrom root va walkLevels r.ptroot

/-- What a miss receives (R104): the result of the outstanding walk that it meets, or of a walk of its own. -/
def State.missed (s : State) (bay root va : Nat) : WalkResult :=
  match (s.bay bay).walks.find? (fun w => decide (w.root = root) && decide (w.page = va / 4096)) with
  | some w => w.result
  | none => s.walk root va

/-- The translation of an address in a tree, from the bay's TLB or by a walk (R104). -/
def State.lookup (s : State) (bay root va : Nat) : Except Nat TlbEntry :=
  match (s.bay bay).tlb.find? (fun t => t.covers root va) with
  | some t => .ok t
  | none => match s.missed bay root va with
    | .page t => .ok t
    | .stop c _ => .error c

/-- Entries of a bay's TLB and its walkers (R104). -/
def tlbSize : Nat := 4096

def walkers : Nat := 8

/-- The number of no bay: agents that reach memory at its home, below no L2 slice and no bay's TLB (R94). -/
def homeBay : Nat := 8

/-- The window lines of a cache that lie in none of the pages (R99). -/
def dropPages (ts : List TlbEntry) (m : AMap CacheLine) : AMap CacheLine :=
  m.filter (fun e => !(e.2.stale && ts.any (fun t =>
    let lo := ptePa t.leaf / t.size * t.size
    decide (lo ≤ 64 * e.1) && decide (64 * e.1 < lo + t.size))))

/-- Window lines of some pages leave a bay: its L2 slice and its cores' data caches (R99). -/
def State.dropStale (s : State) (bay : Nat) (ts : List TlbEntry) : State :=
  let y := s.bay bay
  let s := if y.l2.any (fun e => e.2.stale) then s.setBay bay { y with l2 := dropPages ts y.l2 } else s
  { s with cores := s.cores.map (fun e =>
      if s.bayOf e.1 = bay && !e.2.dcache.isEmpty then (e.1, { e.2 with dcache := dropPages ts e.2.dcache }) else e) }

/-- A translation enters a bay's TLB in place of the oldest ones, whose window lines go with them (R99, R104). -/
def State.enterTlb (s : State) (bay : Nat) (t : TlbEntry) : State :=
  let old := s.bay bay
  let gone := old.tlb.drop (tlbSize - 1)
  let s := if gone.isEmpty then s else s.dropStale bay gone
  let y := s.bay bay
  s.setBay bay { y with tlb := (t :: y.tlb).take tlbSize }

/-- A miss of bent `b` installs what its walk found (R76, R104). -/
def State.install (s : State) (bay b : Nat) (va : Word) : State :=
  let root := s.root b
  if homeBay ≤ bay || (s.bay bay).tlb.any (fun t => t.covers root va.toNat) then s
  else match s.missed bay root va.toNat with
    | .page t => s.enterTlb bay t
    | .stop _ _ => s

/-- The physical address a translation gives (R76). -/
def TlbEntry.pa (t : TlbEntry) (va : Nat) : Nat := ptePa t.leaf / t.size * t.size + va % t.size

/-- Whether a leaf has the bits an access needs (R77). -/
def permits (e : BitVec 64) : Need → Bool
  | .read | .home => pteBit e 1
  | .write => pteBit e 2
  | .both => pteBit e 1 && pteBit e 2
  | .exec => pteBit e 1 && pteBit e 3

/-- Whether a physical address is in the management space (R77, R80). -/
def State.isManagement (s : State) (pa : Nat) : Bool :=
  match s.region pa with
  | .management => true
  | _ => false

/-- Whether accesses through a leaf's location are cached in L2 (R78): local pages but uncached ones, and read-only-cacheable window pages. -/
def State.cached (s : State) (l : Loc) : Bool :=
  match s.remote? l.pa with
  | some _ => l.cp = 2
  | none => l.cp ≠ 1

/-- Whether the bay's L2 holds the line of a location under another slot than the one it is read with (R96); a shared-clear access is not
checked (R79). -/
def State.tagClash (s : State) (bay : Nat) (l : Loc) : Bool :=
  match l.slot, (s.bay bay).l2.find? (l.pa / 64) with
  | some t, some c => s.cached l && decide (c.slot ≠ some t)
  | _, _ => false

/-- Whether an access goes through its bay's L2 (R94, R95, R321). -/
def Need.throughL2 : Need → Bool
  | .read | .write | .exec => true
  | .both | .home => false

/-- The checks of R135 after alignment, for bent `b` through a bay: the location or the cause. -/
def State.translate (s : State) (bay b : Nat) (va : Word) (need : Need) : Except Nat Loc :=
  if va.extractLsb' 56 8 ≠ 0 then .error 0x06
  else match s.lookup bay (s.root b) va.toNat with
    | .error c => .error c
    | .ok t =>
      let pa := t.pa va.toNat
      let key := match s.bents.find? b with
        | some r => r.key
        | none => 0
      if s.isManagement pa || !permits t.leaf need then .error 0x07
      else if !pteBit t.leaf 11 && (key = 0 || pteKey t.leaf != key) then .error 0x08
      else
        let l : Loc := { pa := s.home pa, slot := if pteBit t.leaf 11 then none else some key
                         det := pteBit t.leaf 7, mw := pteBit t.leaf 6, cp := pteCp t.leaf }
        if need.throughL2 && s.tagClash bay l then .error 0x08 else .ok l

/-- Access(va, size, kind) of R135: alignment first, then the rest. -/
def State.access (s : State) (bay b : Nat) (va : Word) (size : Nat) (need : Need) : Except Nat Loc :=
  if va.toNat % size ≠ 0 then .error 0x05 else s.translate bay b va need

/-- A put into a cache of at most `size` lines; the line with the lowest address makes room (R16; log 91). -/
def cachePut (size : Nat) (m : AMap CacheLine) (line : Nat) (c : CacheLine) : AMap CacheLine :=
  if size ≤ m.length && !m.has line then AMap.put (m.drop 1) line c else m.put line c

/-- Lines of an L2 slice of 32 MiB, and of a control core's 32 KiB data cache (R16). -/
def l2Lines : Nat := 524288

def l1Lines : Nat := 512

/-- The coherent lines of `n` bytes at a location enter the bay's L2 slice under the slot that the access names (R94, R96). -/
def State.cacheLines (s : State) (bay : Nat) (l : Loc) (n : Nat) : State :=
  if homeBay ≤ bay || !s.cached l || (s.remote? l.pa).isSome then s
  else
    let y := s.bay bay
    let new := (linesOf l.pa n).filter (fun u => !y.l2.has u)
    if new.isEmpty then s
    else s.setBay bay { y with l2 := new.foldl (fun m u => cachePut l2Lines m u ⟨l.slot, [], []⟩) y.l2 }

/-- An access of bent `b` has been translated (R76, R94, R104): its translation stays in the bay's TLB, and, where it goes through the L2, its lines
in the slice; what is sent to another package for it is counted. -/
def State.touched (s : State) (bay b : Nat) (va : Word) (l : Loc) (n : Nat) (need : Need) : State :=
  let s := s.install bay b va
  if need.throughL2 && s.cached l then s.cacheLines bay l n else s.sent l.pa n

/-- Remove the translations of a tree that cover an address, or all of them, from every bay, with the walks that have begun and the
read-only-cacheable lines of their pages (R99, R105, R174). -/
def State.tlbInvalidate (s : State) (root : Nat) (va : Option Nat) : State :=
  let drop (t : TlbEntry) : Bool := match va with
    | some a => t.covers root a
    | none => decide (t.root = root)
  let walked (w : Walk) : Bool := decide (w.root = root) && (match va, w.result with
    | none, _ => true
    | some a, .page t => t.covers root a || decide (w.page = a / 4096)
    | some a, .stop _ _ => decide (w.page = a / 4096))
  -- the page as the tables map it now, for lines that were fetched under a translation the TLB no longer holds
  let now (bay : Nat) : List TlbEntry := match va with
    | some a => match s.lookup bay root a with
      | .ok t => [t]
      | .error _ => []
    | none => []
  s.bays.foldl (fun (s : State) e =>
    let gone := e.2.tlb.filter drop ++ now e.1
    let s := match va with
      | some _ => s.dropStale e.1 gone
      | none =>
        let y := s.bay e.1
        let s : State := s.setBay e.1 { y with l2 := y.l2.filter (fun c => !c.2.stale) }
        { s with cores := s.cores.map (fun (k : Nat × Core) => if s.bayOf k.1 = e.1 then (k.1, { k.2 with dcache := [] }) else k) }
    let y := s.bay e.1
    s.setBay e.1 { y with tlb := y.tlb.filter (fun t => !drop t), walks := y.walks.filter (fun w => !walked w) }) s

end Sys2Proof.Machine
end

