-- ==== Sys2Proof/Machine/Ops.lean ====
section
/-! DEFINITION. The operations that instruction meanings share: the registers of the acting core, its peg and bent, taking a trap and
returning from one (R352 to R359), and firmware's kill of a bent (R373). -/

namespace Sys2Proof.Machine

/-- What a meaning answers. -/
abbrev Result := Host.Outcome State Fault Refusal

/-! ## Registers -/

/-- x[r]; x0 reads as zero (R107). -/
def Core.getX (k : Core) (r : RegNo) : Word := if r = 0 then 0 else k.x.get ⟨r.toNat, r.isLt⟩

/-- x[r] := v; a write to x0 is discarded (R107). -/
def Core.putX (k : Core) (r : RegNo) (v : Word) : Core :=
  if r = 0 then k else { k with x := k.x.set r.toNat v r.isLt }

/-- f[r] (R107). -/
def Core.getF (k : Core) (r : RegNo) : Word := k.f.get ⟨r.toNat, r.isLt⟩

def Core.putF (k : Core) (r : RegNo) (v : Word) : Core := { k with f := k.f.set r.toNat v r.isLt }

/-- d[r] (R107). -/
def Core.getD (k : Core) (r : BitVec 4) : Desc := k.d.get ⟨r.toNat, r.isLt⟩

def Core.putD (k : Core) (r : BitVec 4) (v : Desc) : Core := { k with d := k.d.set r.toNat v r.isLt }

/-- The acting core. -/
def State.me (s : State) : Core := s.core s.cur

def State.setMe (s : State) (k : Core) : State := s.setCore s.cur k

def State.getX (s : State) (r : RegNo) : Word := s.me.getX r

def State.putX (s : State) (r : RegNo) (v : Word) : State := s.setMe (s.me.putX r v)

def State.getF (s : State) (r : RegNo) : Word := s.me.getF r

def State.putF (s : State) (r : RegNo) (v : Word) : State := s.setMe (s.me.putF r v)

/-- The address of the executing instruction. -/
def State.pc (s : State) : Word := s.me.pc

def State.setPc (s : State) (pc : Word) : State := s.setMe { s.me with pc := pc }

/-- Go on at the next 32-bit instruction (R134). -/
def State.skip (s : State) : State := s.setPc (s.pc + 4)

/-- Write x[r] and go on: what most instructions do (R134). -/
def State.retX (s : State) (r : RegNo) (v : Word) : Result := .next ((s.putX r v).skip)

/-- Write f[r] and go on. -/
def State.retF (s : State) (r : RegNo) (v : Word) : Result := .next ((s.putF r v).skip)

/-- An answer that changes nothing: a stalled instruction, or an event that the state does not enable (log 2). -/
def State.stay (s : State) : Result := .next s

/-! ## The running peg -/

/-- The peg on the acting core. -/
def State.pegId (s : State) : Option Nat := s.me.peg

def State.peg? (s : State) : Option Peg :=
  match s.me.peg with
  | some p => s.pegs.find? p
  | none => none

/-- The bent of the running peg; 0, firmware's own number (R337), where no peg runs. -/
def State.myBent (s : State) : Nat :=
  match s.peg? with
  | some p => p.bent
  | none => 0

/-- Whether the running peg is privileged (R109, R336). -/
def State.privileged (s : State) : Bool :=
  match s.bents.find? s.myBent with
  | some b => b.priv
  | none => false

def State.setPeg (s : State) (id : Nat) (p : Peg) : State := { s with pegs := s.pegs.put id p }

def State.modPeg (s : State) (id : Nat) (f : Peg → Peg) : State := { s with pegs := s.pegs.modify id f }

def State.modBent (s : State) (b : Nat) (f : Bent → Bent) : State := { s with bents := s.bents.modify b f }

/-- HACT of a TRAP.CAUSE value (R353). -/
def hact (cause : Word) : Bool := cause.getLsbD 15

/-- KIND of a TRAP.CAUSE value (R353). -/
def trapKind (cause : Word) : Nat := (cause.extractLsb' 12 3).toNat

/-- CODE of a TRAP.CAUSE value (R353). -/
def trapCode (cause : Word) : Nat := (cause.extractLsb' 0 8).toNat

/-- The acting core's bay. -/
def State.myBay (s : State) : Nat := s.bayOf s.cur

/-- An event of telemetry is recorded (R427). -/
def State.note (s : State) (kind unitNo bent : Nat) : State :=
  let owner := match s.bents.find? bent with
    | some b => b.owner
    | none => []
  let e : Event := { ts := s.timestamp, kind := kind, unitNo := unitNo, bent := bent, owner := owner }
  { s with mgmt := { s.mgmt with events := s.mgmt.events ++ [e] } }

/-! ## Bents and their ends -/

/-- Whether bent `b` is `a` or below it, looking up at most `n` levels. -/
def isUnder (bents : AMap Bent) : Nat → Nat → Nat → Bool
  | 0, b, a => decide (b = a)
  | n + 1, b, a => decide (b = a) || (match bents.find? b with
    | some r => match r.parent with
      | some p => isUnder bents n p a
      | none => false
    | none => false)

/-- Whether bent `b` is `a` or a descendant of it (R36: at most 8 levels). -/
def State.under (s : State) (b a : Nat) : Bool := isUnder s.bents 8 b a

/-- The bent and its ancestors. -/
def chainOf (bents : AMap Bent) : Nat → Nat → List Nat
  | 0, b => [b]
  | n + 1, b => b :: (match bents.find? b with
    | some r => match r.parent with
      | some p => chainOf bents n p
      | none => []
    | none => [])

def State.chain (s : State) (b : Nat) : List Nat := chainOf s.bents 8 b

/-- Write 8 bytes into a bent's save area (R366) where the checks of R135 let firmware; nothing where they do not. -/
def State.saveWrite (s : State) (b : Nat) (off : Nat) (data : List Byte) : State :=
  match s.bents.find? b with
  | none => s
  | some r => match s.translate homeBay b (r.save + BitVec.ofNat 64 off) .write with
    | .error _ => s
    | .ok l => s.writeLoc l data

/-- Record the cause that ends a bent in LAST of its save area, unless one is recorded (R366, R373). -/
def State.recordLast (s : State) (b cause kind : Nat) : State :=
  match s.bents.find? b with
  | none => s
  | some r => match r.last with
    | some _ => s
    | none =>
      let s := s.saveWrite b 0x30 (leBytes 8 (kind * 2 ^ 8 + cause))
      s.modBent b (fun r => { r with last := some (cause, kind) })

/-- DRAIN on a bent and every descendant (R373); their sill channels stop and become empty (R398). -/
def State.drain (s : State) (b : Nat) : State :=
  { s with
    bents := s.bents.map (fun e =>
      if s.under e.1 b && !e.2.drain then (e.1, { e.2 with drain := true, drainAt := s.clk }) else e)
    sills := s.sills.filter (fun e => !s.under e.2.bent b) }

/-- Firmware kills a bent and records why (R359, R373, R433). -/
def State.killBent (s : State) (b cause kind : Nat) : State := (s.recordLast b cause kind).drain b

/-! ## Taking a trap -/

/-- The TRAP.CAUSE value of a delivered trap (R353): HACT set. -/
def causeWord (kind code : Nat) : Word := BitVec.ofNat 64 (2 ^ 15 + kind % 8 * 2 ^ 12 + code % 2 ^ 8)

/-- Deliver a trap on the acting core (R356): the trap registers, TRAP.PC, the TRAPS counter, and the pc at the bent's HPC. No x, f
or d register changes. -/
def State.deliver (s : State) (t : Trap) (pc : Word) : State :=
  let b := s.myBent
  let hpc := match s.bents.find? b with
    | some r => r.hpc
    | none => 0
  let k := s.me
  let s := s.setMe { k with
    pc := hpc, hactTime := 0, hactFrom := s.timestamp, spin := none, asked := none
    regs := { k.regs with trapCause := causeWord t.kind t.code, trapInfo := t.info, trapAddr := t.addr, trapPc := pc } }
  s.modBent b (fun r => { r with traps := r.traps + 1 })

/-- Whether the running peg's bent has a handler (R359). -/
def State.hasHandler (s : State) : Bool :=
  match s.bents.find? s.myBent with
  | some r => r.hpc != 0
  | none => false

/-- Take a trap at the boundary `pc` (R356, R359): to the handler; to firmware, which kills the bent, when there is none. -/
def State.takeTrap (s : State) (t : Trap) (pc : Word) : State :=
  if s.hasHandler then s.deliver t pc else s.killBent s.myBent t.code t.kind

/-- A synchronous trap of the executing instruction (R134, R356): while the handler runs it is the watchdog's (R359). -/
def State.trapWith (s : State) (code : Nat) (addr info : Word) : Result :=
  if hact s.me.regs.trapCause then .next (s.killBent s.myBent 0x18 0)
  else .next (s.takeTrap ⟨0, code, info, addr, none, 0, false⟩ s.pc)

/-- A trap without an address or further information (R354, R355). -/
def State.trap (s : State) (code : Nat) : Result := s.trapWith code 0 0

/-- A trap of an access, with the address it reports (R355): causes 0x05 to 0x08, 0x1B and 0x1C. -/
def State.trapAt (s : State) (code : Nat) (va : Word) : Result := s.trapWith code va 0

/-- A trap becomes pending for a peg (R356). -/
def State.pend (s : State) (id : Nat) (t : Trap) : State :=
  s.modPeg id (fun p => { p with pending := p.pending ++ [t] })

/-- The trap of a journal entry (R354): kind 2 or 3, SEQ and ELEM. -/
def cmdTrap (kind code : Nat) (seq : BitVec 32) (elem : Nat) (addr : Word) (rank : Nat) : Trap :=
  { kind := kind, code := code, info := BitVec.ofNat 64 (seq.toNat * 2 ^ 32 + elem % 2 ^ 32), addr := addr
    seq := some seq, rank := rank, deferred := false }

/-- Number s1 ranks before s2 (R357). -/
def seqBefore (next s1 s2 : BitVec 32) : Bool := decide ((next - s1).toNat > (next - s2).toNat)

/-- Whether pending trap `a` is older than `b` (R357): deferred data traps in program order, then by journal number. -/
def Trap.older (next : BitVec 32) (a b : Trap) : Bool :=
  if a.deferred != b.deferred then a.deferred
  else if a.deferred then decide (a.rank < b.rank)
  else match a.seq, b.seq with
    | some x, some y => if x = y then decide (a.rank < b.rank) else seqBefore next x y
    | none, some _ => true
    | _, none => false

/-- The position of the oldest pending trap (R357). -/
def oldestTrap (next : BitVec 32) : List Trap → Option Trap
  | [] => none
  | t :: r => match oldestTrap next r with
    | none => some t
    | some u => some (if u.older next t then u else t)

/-- Remove one occurrence of a trap. -/
def removeTrap (t : Trap) : List Trap → List Trap
  | [] => []
  | u :: r => if u = t then r else u :: removeTrap t r

/-! ## Returning -/

/-- The state part of TRET (R358): HACT cleared, on at TRAP.PC. -/
def State.returnFromTrap (s : State) : State :=
  let k := s.me
  s.setMe { k with
    pc := k.regs.trapPc, hactTime := 0, hactFrom := 0
    regs := { k.regs with trapCause := k.regs.trapCause &&& ~~~ (0x8000 : Word) } }

end Sys2Proof.Machine
end

