-- ==== Sys2Proof/Machine/Boot.lean ====
section
/-! DEFINITION. A fresh bent, and a peg with a program placed in memory: how a test or a host puts a program into the machine (log 7). -/

namespace Sys2Proof.Machine

/-- A root bent with nothing set (R335): every field 0 except those that a root must have. -/
def Bent.fresh : Bent :=
  { parent := none, level := 1, prio := 0, priv := false, det := false, drain := false, drainAt := 0, lockLost := false, inh := 0, key := 0
    phBase := 0, phCnt := 0, maxCores := 1, maxCtx := 0, hbmq := 0, hpc := 0, save := 0, ptroot := 0, ovq := 0
    ovqn := 256, ovqh := 0, ovqt := 0, recn := 0, recBase := 0, stage := 0, stagen := 0, brg := [0xFF, 0xFF, 0xFF, 0xFF]
    dispatches := 0, preempts := 0, traps := 0, spawns := 0, owner := [], effPrio := 0, agedAt := 0
    lastDispatch := 0, slots := [], overflow := [], bridge := [], image := [], imageKey := [], starts := [], parts := []
    usedFrames := [], usedCoreFrames := [], spills := [], quotaAt := 0, quotaLen := 0, last := none }

/-- A peg as creation leaves it (R159, R339): ready, free. -/
def Peg.fresh (recAddr : Word) (bent : Nat) : Peg :=
  { recAddr := recAddr, bent := bent, st := .ready, pool := some 0, pin := false, core := 0, psave := false, link := 0
    parent := none, joins := 0, age := 0, readySince := 0, wait := none, met := false, pending := [], frameNo := none
    coreFrameNo := none, coreFrame := none, cause := 0, info := 0, addr := 0, hactTime := 0, held := false }

/-- A leaf (R74): valid, with RD, WR and EX, shared-clear, at a physical base. -/
def clearLeaf (pa : Nat) : Nat := pa + 2 ^ 11 + 0b1111

/-- A table entry (R74). -/
def tableEntry (pa : Nat) : Nat := pa + 2 ^ 4 + 1

/-- The root bent of `withProgram`: number 1, privileged, handler at 0x2000, level-0 table at 0x10_0000. -/
def programBent : Bent :=
  { Bent.fresh with priv := true, maxCores := 2048, maxCtx := 65536, hpc := 0x2000, ptroot := 0x100000 }

/-- A program in place: bent 1's tables map the first GiB of its addresses, in clear, to physical 1 GiB; its peg 1 runs on core 0
at 0x1000, where the bytes stand; core 0 takes the next turn. -/
def State.withProgram (s : State) (bytes : List Byte) : State :=
  let mem := ByteMap.wrN s.mem 0x100000 (leBytes 8 (tableEntry 0x200000))
  let mem := ByteMap.wrN mem 0x200000 (leBytes 8 (clearLeaf 0x40000000))
  let mem := ByteMap.wrN mem 0x40001000 bytes
  let k := s.core 0
  { s.setCore 0 { k with peg := some 1, pc := 0x1000 } with
    sched := [⟨0, 0, false, .core 0⟩]
    mem := mem
    bents := s.bents.put 1 programBent
    pegs := s.pegs.put 1 { Peg.fresh 0x3000 1 with st := .running } }

end Sys2Proof.Machine
end

