-- ==== Sys2Proof/WellFormed.lean ====
section
/-! DEFINITION. The value rules that the fields of an instruction obey beyond their widths (R114, R115, R119 to R126, R168): a
term that breaks one is no instruction. -/

namespace Sys2Proof

/-- The wait and signal rules of R115. -/
def WaitSig.wf (w : WaitSig) : Bool :=
  (w.wsem != 255 || w.wthr == 0) && ((w.ssem == 255) == (w.sinc == 0))

/-- Rounding modes of control-core instructions: RM = 0b10 is reserved (R55, R119). -/
def rmOk (m : BitVec 2) : Bool := m != 0b10

/-- Orders of a load: release is reserved (R120). -/
def loadOrdOk (o : BitVec 2) : Bool := o != 0b10

/-- Orders of a store: acquire is reserved (R120). -/
def storeOrdOk (o : BitVec 2) : Bool := o != 0b01

/-- The AOP, MRG, ORD and XD rules of R121; `d8` for AMO.D, where bfadd2 is illegal. -/
def amoOk (d8 : Bool) (d : RegNo) (p : BitVec 4) (m : BitVec 1) (o : BitVec 2) : Bool :=
  decide (p.toNat ≤ 0xC) && !(d8 && p == 0x2) &&
  (m == 0 || (d == 0 && p != 0xC && o != 0b01 && o != 0b11))

/-- The types QSCALE accepts (R168). -/
def qscaleEt (t : BitVec 4) : Bool :=
  t == 0x0 || t == 0x5 || t == 0x6 || t == 0x7 || t == 0x8 || t == 0xA || t == 0xE

/-- DW and w of QSCALE (R125, R168). -/
def qscaleWin (v : BitVec 1) (w : BitVec 2) : Bool := v == 0 || w == 0

/-- A core number names a core (R16). -/
def coreOk (c : Nat) : Bool := decide (c < 2048)

/-- A bay number (R17). -/
def bayOk (b : Nat) : Bool := decide (b < 8)

/-- A channel number (R16). -/
def chanOk (c : Nat) : Bool := decide (c < 384)

/-- An Ethernet port number (R18). -/
def portOk (p : Nat) : Bool := decide (p < 2)

/-- A configuration record that names a package and at most four owner keys (R421). -/
def configOk (r : ConfigRecord) : Bool := decide (r.pkg < 255) && decide (r.ownerKeys.length ≤ 4)

/-- Units that a module can have at most: eight bays of cores with their physical numbers, and the channels (R16, R17, R428). -/
def bringUpOk (b : BringUp) : Bool :=
  decide (b.passed.length = 8) && b.passed.all (fun l => l.all (fun n => decide (n < 256))) && decide (b.chans ≤ 384)

/-- The value rules of each instruction and event. -/
def Instr.wf : Instr → Bool
  | .faddF64 _ _ _ m | .fsubF64 _ _ _ m | .fmulF64 _ _ _ m | .fdivF64 _ _ _ m | .fmaF64 _ _ _ m => rmOk m
  | .faddF32 _ _ _ m | .fsubF32 _ _ _ m | .fmulF32 _ _ _ m | .fdivF32 _ _ _ m | .fmaF32 _ _ _ m => rmOk m
  | .fsqrtF64 _ _ m | .fsqrtF32 _ _ m => rmOk m
  | .cvtF64I64 _ _ m | .cvtF64N64 _ _ m | .cvtI64F64 _ _ m | .cvtN64F64 _ _ m => rmOk m
  | .cvtF32I64 _ _ m | .cvtF32N64 _ _ m | .cvtI64F32 _ _ m | .cvtN64F32 _ _ m | .cvtF32F64 _ _ m => rmOk m
  | .ldB _ _ _ o _ | .ldH _ _ _ o _ | .ldW _ _ _ o _ | .ldD _ _ _ o _ | .ldBn _ _ _ o _ | .ldHn _ _ _ o _
  | .ldWn _ _ _ o _ | .ldFw _ _ _ o _ | .ldFd _ _ _ o _ => loadOrdOk o
  | .ldA16 d _ _ o _ | .ldV16 d _ _ o _ => d != 0 && loadOrdOk o
  | .stB _ _ _ o _ | .stH _ _ _ o _ | .stW _ _ _ o _ | .stD _ _ _ o _ | .stFw _ _ _ o _ | .stFd _ _ _ o _ => storeOrdOk o
  | .stA16 _ _ _ o _ | .stV16 _ _ _ o _ => storeOrdOk o
  | .amoW d _ _ p m o _ => amoOk false d p m o
  | .amoD d _ _ p m o _ => amoOk true d p m o
  | .fence s _ m => decide (s.toNat ≤ 4) && m != 0
  | .phreg m _ => m != 0
  | .semsig _ n | .semwait _ n | .semwaitS _ n => n != 255
  | .semrd _ n => n != 255
  | .qscalePow2 _ _ t v w => qscaleEt t && qscaleWin v w
  | .qscaleExact _ _ t v w _ => qscaleEt t && qscaleWin v w
  | .sld _ _ _ _ _ ws | .sst _ _ _ _ ws | .ssct _ _ _ _ ws => ws.wf
  | .sgth _ _ _ ws | .sred _ _ _ ws => ws.wf
  | .scpy _ _ ws | .sbank _ _ ws | .salloc _ _ _ ws | .sfree _ _ _ ws | .seat _ _ ws | .unseat _ ws => ws.wf
  | .krun _ _ ws | .jigGo ws | .jigRev ws | .finSet _ _ ws | .coll _ _ ws | .collAbt _ _ ws => ws.wf
  | .sillLoad _ _ _ ws | .sillGo _ _ ws => ws.wf
  | .bundleIssue c _ | .stallStep c _ | .imemLineFill c _ | .contextLaunch c | .contextHalt c _ => coreOk c
  | .srfxFlagSet c _ k | .semarmFlagSet c _ k | .pharmFlagSet c _ k => coreOk c && decide (k < 2 ^ 32)
  | .commandStart c _ | .commandElement c _ | .commandComplete c _ | .jigRunStart c | .jigStep c _ => coreOk c
  | .pegDispatch c | .mwaitSpinExpiry c | .contextRestFreeze c _ | .preemptionEscalated c _ | .preemptionComplete c => coreOk c
  | .pegMigration _ c | .watchdog c | .accFirstUse c _ | .collTimeout c _ | .collAbtMemberTimeout c _ => coreOk c
  | .priorityAgeing b _ | .pageWalk b _ _ | .collStepMessage b _ | .collAbtMessage b _ => bayOk b
  | .lineEviction b l => bayOk b && (match l.core with
    | some c => coreOk c
    | none => true)
  | .thermalHold b _ | .thermalRelease b _ | .thermalTrip b _ => bayOk b
  | .sillRunStart c | .sillWait c | .sillMv c | .sillRd c | .sillWr c | .sillRef c | .sillGate c | .sillLds c => chanOk c
  | .sillPassEnd c | .sillGateReread c | .sillGateTimeout c | .sillRefreshInsert c => chanOk c
  | .arpRequest p _ | .neighborDiscovery p _ => portOk p
  | .frameDrop f => portOk f.port
  | .powerUp b | .resetInput b => bringUpOk b
  | .configurationRecordUpdate r _ => configOk r
  | _ => true

end Sys2Proof
end

