-- ==== Sys2Proof/Decode.lean ====
section
/-! DEFINITION. Decoding and encoding of control-core instructions (R112 to R126, R179). Decoding is total on any bytes and
rejects by name; the encoder writes the same fields, most significant first. Machine events have no encoding. -/

namespace Sys2Proof

/-- Why bytes are no instruction (R126): too few of them, a word no table assigns (an opcode, a sub-operation or a reserved field),
or a value the tables mark illegal. -/
inductive Reject where
  | truncated | unassigned | reservedValue
  deriving DecidableEq, Repr

namespace Decode

/-- OP 0x01: ADD, SUB, AND, OR, XOR, SLL, SRL, SRA, SLT, SLT_N, MIN, MAX, MIN_N, MAX_N, ROR, CLZ, CTZ, POPC, ADD_W, SUB_W (R137). -/
def opInt (w : Word32) : Option Instr :=
  if w.extractLsb' 0 11 = 0#11 then
    some (.add (w.extractLsb' 21 5) (w.extractLsb' 16 5) (w.extractLsb' 11 5))
  else if w.extractLsb' 0 11 = 1#11 then
    some (.sub (w.extractLsb' 21 5) (w.extractLsb' 16 5) (w.extractLsb' 11 5))
  else if w.extractLsb' 0 11 = 2#11 then
    some (.and (w.extractLsb' 21 5) (w.extractLsb' 16 5) (w.extractLsb' 11 5))
  else if w.extractLsb' 0 11 = 3#11 then
    some (.or (w.extractLsb' 21 5) (w.extractLsb' 16 5) (w.extractLsb' 11 5))
  else if w.extractLsb' 0 11 = 4#11 then
    some (.xor (w.extractLsb' 21 5) (w.extractLsb' 16 5) (w.extractLsb' 11 5))
  else if w.extractLsb' 0 11 = 5#11 then
    some (.sll (w.extractLsb' 21 5) (w.extractLsb' 16 5) (w.extractLsb' 11 5))
  else if w.extractLsb' 0 11 = 6#11 then
    some (.srl (w.extractLsb' 21 5) (w.extractLsb' 16 5) (w.extractLsb' 11 5))
  else if w.extractLsb' 0 11 = 7#11 then
    some (.sra (w.extractLsb' 21 5) (w.extractLsb' 16 5) (w.extractLsb' 11 5))
  else if w.extractLsb' 0 11 = 8#11 then
    some (.slt (w.extractLsb' 21 5) (w.extractLsb' 16 5) (w.extractLsb' 11 5))
  else if w.extractLsb' 0 11 = 9#11 then
    some (.sltN (w.extractLsb' 21 5) (w.extractLsb' 16 5) (w.extractLsb' 11 5))
  else if w.extractLsb' 0 11 = 10#11 then
    some (.min (w.extractLsb' 21 5) (w.extractLsb' 16 5) (w.extractLsb' 11 5))
  else if w.extractLsb' 0 11 = 11#11 then
    some (.max (w.extractLsb' 21 5) (w.extractLsb' 16 5) (w.extractLsb' 11 5))
  else if w.extractLsb' 0 11 = 12#11 then
    some (.minN (w.extractLsb' 21 5) (w.extractLsb' 16 5) (w.extractLsb' 11 5))
  else if w.extractLsb' 0 11 = 13#11 then
    some (.maxN (w.extractLsb' 21 5) (w.extractLsb' 16 5) (w.extractLsb' 11 5))
  else if w.extractLsb' 0 11 = 14#11 then
    some (.ror (w.extractLsb' 21 5) (w.extractLsb' 16 5) (w.extractLsb' 11 5))
  else if w.extractLsb' 0 16 = 15#16 then some (.clz (w.extractLsb' 21 5) (w.extractLsb' 16 5))
  else if w.extractLsb' 0 16 = 16#16 then some (.ctz (w.extractLsb' 21 5) (w.extractLsb' 16 5))
  else if w.extractLsb' 0 16 = 17#16 then some (.popc (w.extractLsb' 21 5) (w.extractLsb' 16 5))
  else if w.extractLsb' 0 11 = 18#11 then
    some (.addW (w.extractLsb' 21 5) (w.extractLsb' 16 5) (w.extractLsb' 11 5))
  else if w.extractLsb' 0 11 = 19#11 then
    some (.subW (w.extractLsb' 21 5) (w.extractLsb' 16 5) (w.extractLsb' 11 5))
  else none

/-- OP 0x02: MUL, MULH, MULH_N, DIV, DIV_N, REM, REM_N (R138). -/
def opMulDiv (w : Word32) : Option Instr :=
  if w.extractLsb' 0 11 = 0#11 then
    some (.mul (w.extractLsb' 21 5) (w.extractLsb' 16 5) (w.extractLsb' 11 5))
  else if w.extractLsb' 0 11 = 1#11 then
    some (.mulh (w.extractLsb' 21 5) (w.extractLsb' 16 5) (w.extractLsb' 11 5))
  else if w.extractLsb' 0 11 = 2#11 then
    some (.mulhN (w.extractLsb' 21 5) (w.extractLsb' 16 5) (w.extractLsb' 11 5))
  else if w.extractLsb' 0 11 = 3#11 then
    some (.div (w.extractLsb' 21 5) (w.extractLsb' 16 5) (w.extractLsb' 11 5))
  else if w.extractLsb' 0 11 = 4#11 then
    some (.divN (w.extractLsb' 21 5) (w.extractLsb' 16 5) (w.extractLsb' 11 5))
  else if w.extractLsb' 0 11 = 5#11 then
    some (.rem (w.extractLsb' 21 5) (w.extractLsb' 16 5) (w.extractLsb' 11 5))
  else if w.extractLsb' 0 11 = 6#11 then
    some (.remN (w.extractLsb' 21 5) (w.extractLsb' 16 5) (w.extractLsb' 11 5))
  else none

/-- OP 0x09: SLLI, SRLI, SRAI, RORI (R139). -/
def opShift (w : Word32) : Option Instr :=
  if w.extractLsb' 6 10 = 0#10 then
    some (.slli (w.extractLsb' 21 5) (w.extractLsb' 16 5) (w.extractLsb' 0 6))
  else if w.extractLsb' 6 10 = 1#10 then
    some (.srli (w.extractLsb' 21 5) (w.extractLsb' 16 5) (w.extractLsb' 0 6))
  else if w.extractLsb' 6 10 = 2#10 then
    some (.srai (w.extractLsb' 21 5) (w.extractLsb' 16 5) (w.extractLsb' 0 6))
  else if w.extractLsb' 6 10 = 3#10 then
    some (.rori (w.extractLsb' 21 5) (w.extractLsb' 16 5) (w.extractLsb' 0 6))
  else none

/-- OP 0x0C: FADD_F64, FSUB_F64, FMUL_F64, FDIV_F64, FSQRT_F64, FMIN_F64, FMAX_F64, FMA_F64, FABS_F64, FNEG_F64, FEQ_F64, FLT_F64, FLE_F64, FCLASS_F64 (R142). -/
def opFp64 (w : Word32) : Option Instr :=
  if w.extractLsb' 0 9 = 0#9 then
    some (.faddF64 (w.extractLsb' 21 5) (w.extractLsb' 16 5) (w.extractLsb' 11 5) (w.extractLsb' 9 2))
  else if w.extractLsb' 0 9 = 1#9 then
    some (.fsubF64 (w.extractLsb' 21 5) (w.extractLsb' 16 5) (w.extractLsb' 11 5) (w.extractLsb' 9 2))
  else if w.extractLsb' 0 9 = 2#9 then
    some (.fmulF64 (w.extractLsb' 21 5) (w.extractLsb' 16 5) (w.extractLsb' 11 5) (w.extractLsb' 9 2))
  else if w.extractLsb' 0 9 = 3#9 then
    some (.fdivF64 (w.extractLsb' 21 5) (w.extractLsb' 16 5) (w.extractLsb' 11 5) (w.extractLsb' 9 2))
  else if w.extractLsb' 0 9 = 4#9 ∧ w.extractLsb' 11 5 = 0#5 then
    some (.fsqrtF64 (w.extractLsb' 21 5) (w.extractLsb' 16 5) (w.extractLsb' 9 2))
  else if w.extractLsb' 0 11 = 5#11 then
    some (.fminF64 (w.extractLsb' 21 5) (w.extractLsb' 16 5) (w.extractLsb' 11 5))
  else if w.extractLsb' 0 11 = 6#11 then
    some (.fmaxF64 (w.extractLsb' 21 5) (w.extractLsb' 16 5) (w.extractLsb' 11 5))
  else if w.extractLsb' 0 9 = 7#9 then
    some (.fmaF64 (w.extractLsb' 21 5) (w.extractLsb' 16 5) (w.extractLsb' 11 5) (w.extractLsb' 9 2))
  else if w.extractLsb' 0 16 = 8#16 then some (.fabsF64 (w.extractLsb' 21 5) (w.extractLsb' 16 5))
  else if w.extractLsb' 0 16 = 9#16 then some (.fnegF64 (w.extractLsb' 21 5) (w.extractLsb' 16 5))
  else if w.extractLsb' 0 11 = 10#11 then
    some (.feqF64 (w.extractLsb' 21 5) (w.extractLsb' 16 5) (w.extractLsb' 11 5))
  else if w.extractLsb' 0 11 = 11#11 then
    some (.fltF64 (w.extractLsb' 21 5) (w.extractLsb' 16 5) (w.extractLsb' 11 5))
  else if w.extractLsb' 0 11 = 12#11 then
    some (.fleF64 (w.extractLsb' 21 5) (w.extractLsb' 16 5) (w.extractLsb' 11 5))
  else if w.extractLsb' 0 16 = 13#16 then some (.fclassF64 (w.extractLsb' 21 5) (w.extractLsb' 16 5))
  else none

/-- OP 0x0D: FADD_F32, FSUB_F32, FMUL_F32, FDIV_F32, FSQRT_F32, FMIN_F32, FMAX_F32, FMA_F32, FABS_F32, FNEG_F32, FEQ_F32, FLT_F32, FLE_F32, FCLASS_F32 (R142). -/
def opFp32 (w : Word32) : Option Instr :=
  if w.extractLsb' 0 9 = 0#9 then
    some (.faddF32 (w.extractLsb' 21 5) (w.extractLsb' 16 5) (w.extractLsb' 11 5) (w.extractLsb' 9 2))
  else if w.extractLsb' 0 9 = 1#9 then
    some (.fsubF32 (w.extractLsb' 21 5) (w.extractLsb' 16 5) (w.extractLsb' 11 5) (w.extractLsb' 9 2))
  else if w.extractLsb' 0 9 = 2#9 then
    some (.fmulF32 (w.extractLsb' 21 5) (w.extractLsb' 16 5) (w.extractLsb' 11 5) (w.extractLsb' 9 2))
  else if w.extractLsb' 0 9 = 3#9 then
    some (.fdivF32 (w.extractLsb' 21 5) (w.extractLsb' 16 5) (w.extractLsb' 11 5) (w.extractLsb' 9 2))
  else if w.extractLsb' 0 9 = 4#9 ∧ w.extractLsb' 11 5 = 0#5 then
    some (.fsqrtF32 (w.extractLsb' 21 5) (w.extractLsb' 16 5) (w.extractLsb' 9 2))
  else if w.extractLsb' 0 11 = 5#11 then
    some (.fminF32 (w.extractLsb' 21 5) (w.extractLsb' 16 5) (w.extractLsb' 11 5))
  else if w.extractLsb' 0 11 = 6#11 then
    some (.fmaxF32 (w.extractLsb' 21 5) (w.extractLsb' 16 5) (w.extractLsb' 11 5))
  else if w.extractLsb' 0 9 = 7#9 then
    some (.fmaF32 (w.extractLsb' 21 5) (w.extractLsb' 16 5) (w.extractLsb' 11 5) (w.extractLsb' 9 2))
  else if w.extractLsb' 0 16 = 8#16 then some (.fabsF32 (w.extractLsb' 21 5) (w.extractLsb' 16 5))
  else if w.extractLsb' 0 16 = 9#16 then some (.fnegF32 (w.extractLsb' 21 5) (w.extractLsb' 16 5))
  else if w.extractLsb' 0 11 = 10#11 then
    some (.feqF32 (w.extractLsb' 21 5) (w.extractLsb' 16 5) (w.extractLsb' 11 5))
  else if w.extractLsb' 0 11 = 11#11 then
    some (.fltF32 (w.extractLsb' 21 5) (w.extractLsb' 16 5) (w.extractLsb' 11 5))
  else if w.extractLsb' 0 11 = 12#11 then
    some (.fleF32 (w.extractLsb' 21 5) (w.extractLsb' 16 5) (w.extractLsb' 11 5))
  else if w.extractLsb' 0 16 = 13#16 then some (.fclassF32 (w.extractLsb' 21 5) (w.extractLsb' 16 5))
  else none

/-- OP 0x0E: CVT_F64_I64, CVT_F64_N64, CVT_I64_F64, CVT_N64_F64, CVT_F32_I64, CVT_F32_N64, CVT_I64_F32, CVT_N64_F32, CVT_F64_F32, CVT_F32_F64, FMV_X, FMV_F (R144). -/
def opFcvt (w : Word32) : Option Instr :=
  if w.extractLsb' 0 9 = 0#9 ∧ w.extractLsb' 11 5 = 0#5 then
    some (.cvtF64I64 (w.extractLsb' 21 5) (w.extractLsb' 16 5) (w.extractLsb' 9 2))
  else if w.extractLsb' 0 9 = 1#9 ∧ w.extractLsb' 11 5 = 0#5 then
    some (.cvtF64N64 (w.extractLsb' 21 5) (w.extractLsb' 16 5) (w.extractLsb' 9 2))
  else if w.extractLsb' 0 9 = 2#9 ∧ w.extractLsb' 11 5 = 0#5 then
    some (.cvtI64F64 (w.extractLsb' 21 5) (w.extractLsb' 16 5) (w.extractLsb' 9 2))
  else if w.extractLsb' 0 9 = 3#9 ∧ w.extractLsb' 11 5 = 0#5 then
    some (.cvtN64F64 (w.extractLsb' 21 5) (w.extractLsb' 16 5) (w.extractLsb' 9 2))
  else if w.extractLsb' 0 9 = 4#9 ∧ w.extractLsb' 11 5 = 0#5 then
    some (.cvtF32I64 (w.extractLsb' 21 5) (w.extractLsb' 16 5) (w.extractLsb' 9 2))
  else if w.extractLsb' 0 9 = 5#9 ∧ w.extractLsb' 11 5 = 0#5 then
    some (.cvtF32N64 (w.extractLsb' 21 5) (w.extractLsb' 16 5) (w.extractLsb' 9 2))
  else if w.extractLsb' 0 9 = 6#9 ∧ w.extractLsb' 11 5 = 0#5 then
    some (.cvtI64F32 (w.extractLsb' 21 5) (w.extractLsb' 16 5) (w.extractLsb' 9 2))
  else if w.extractLsb' 0 9 = 7#9 ∧ w.extractLsb' 11 5 = 0#5 then
    some (.cvtN64F32 (w.extractLsb' 21 5) (w.extractLsb' 16 5) (w.extractLsb' 9 2))
  else if w.extractLsb' 0 16 = 8#16 then some (.cvtF64F32 (w.extractLsb' 21 5) (w.extractLsb' 16 5))
  else if w.extractLsb' 0 9 = 9#9 ∧ w.extractLsb' 11 5 = 0#5 then
    some (.cvtF32F64 (w.extractLsb' 21 5) (w.extractLsb' 16 5) (w.extractLsb' 9 2))
  else if w.extractLsb' 0 16 = 10#16 then some (.fmvX (w.extractLsb' 21 5) (w.extractLsb' 16 5))
  else if w.extractLsb' 0 16 = 11#16 then some (.fmvF (w.extractLsb' 21 5) (w.extractLsb' 16 5))
  else none

/-- OP 0x32: GETS, PUTS (R170). -/
def opState (w : Word32) : Option Instr :=
  if w.extractLsb' 0 4 = 0#4 ∧ w.extractLsb' 16 5 = 0#5 then
    some (.gets (w.extractLsb' 21 5) (w.extractLsb' 4 12))
  else if w.extractLsb' 0 4 = 1#4 ∧ w.extractLsb' 21 5 = 0#5 then
    some (.puts (w.extractLsb' 16 5) (w.extractLsb' 4 12))
  else none

/-- OP 0x33: MWAIT, PHREG, PHDROP, PHSIG, PHWAIT, SEMSIG, SEMWAIT, SEMWAIT_S, SEMRD (R151). -/
def opWait (w : Word32) : Option Instr :=
  if w.extractLsb' 0 16 = 0#16 then some (.mwait (w.extractLsb' 21 5) (w.extractLsb' 16 5))
  else if w.extractLsb' 0 4 = 1#4 ∧ w.extractLsb' 16 10 = 0#10 then
    some (.phreg (w.extractLsb' 14 2) (w.extractLsb' 4 10))
  else if w.extractLsb' 0 4 = 2#4 ∧ w.extractLsb' 14 12 = 0#12 then some (.phdrop (w.extractLsb' 4 10))
  else if w.extractLsb' 0 4 = 3#4 ∧ w.extractLsb' 14 12 = 0#12 then some (.phsig (w.extractLsb' 4 10))
  else if w.extractLsb' 0 4 = 4#4 ∧ w.extractLsb' 14 7 = 0#7 then
    some (.phwait (w.extractLsb' 21 5) (w.extractLsb' 4 10))
  else if w.extractLsb' 0 4 = 5#4 ∧ w.extractLsb' 12 4 = 0#4 ∧ w.extractLsb' 21 5 = 0#5 then
    some (.semsig (w.extractLsb' 16 5) (w.extractLsb' 4 8))
  else if w.extractLsb' 0 4 = 6#4 ∧ w.extractLsb' 12 4 = 0#4 ∧ w.extractLsb' 21 5 = 0#5 then
    some (.semwait (w.extractLsb' 16 5) (w.extractLsb' 4 8))
  else if w.extractLsb' 0 4 = 7#4 ∧ w.extractLsb' 12 4 = 0#4 ∧ w.extractLsb' 21 5 = 0#5 then
    some (.semwaitS (w.extractLsb' 16 5) (w.extractLsb' 4 8))
  else if w.extractLsb' 0 4 = 8#4 ∧ w.extractLsb' 12 9 = 0#9 then
    some (.semrd (w.extractLsb' 21 5) (w.extractLsb' 4 8))
  else none

/-- OP 0x34: SPAWN, JOIN, YIELD, EXIT, BENT_NEW, BENT_KILL, ENQ (R159). -/
def opPeg (w : Word32) : Option Instr :=
  if w.extractLsb' 0 16 = 0#16 then some (.spawn (w.extractLsb' 21 5) (w.extractLsb' 16 5))
  else if w.extractLsb' 0 26 = 1#26 then some (.join)
  else if w.extractLsb' 0 26 = 2#26 then some (.yield)
  else if w.extractLsb' 0 26 = 3#26 then some (.exit)
  else if w.extractLsb' 0 16 = 4#16 then some (.bentNew (w.extractLsb' 21 5) (w.extractLsb' 16 5))
  else if w.extractLsb' 0 16 = 5#16 ∧ w.extractLsb' 21 5 = 0#5 then some (.bentKill (w.extractLsb' 16 5))
  else if w.extractLsb' 0 16 = 6#16 then some (.enq (w.extractLsb' 21 5) (w.extractLsb' 16 5))
  else none

/-- OP 0x35: SCRB_INIT, SCRB_NEXT, SCRB_RD, QSCALE_POW2, QSCALE_EXACT (R165). -/
def opScribe (w : Word32) : Option Instr :=
  if w.extractLsb' 0 4 = 0#4 ∧ w.extractLsb' 8 8 = 0#8 ∧ w.extractLsb' 21 5 = 0#5 then
    some (.scrbInit (w.extractLsb' 16 5) (w.extractLsb' 4 4))
  else if w.extractLsb' 0 16 = 1#16 then some (.scrbNext (w.extractLsb' 21 5) (w.extractLsb' 16 5))
  else if w.extractLsb' 0 4 = 2#4 ∧ w.extractLsb' 9 7 = 0#7 then
    some (.scrbRd (w.extractLsb' 21 5) (w.extractLsb' 16 5) (w.extractLsb' 4 5))
  else if w.extractLsb' 0 9 = 3#9 then
    some (.qscalePow2 (w.extractLsb' 21 5) (w.extractLsb' 16 5) (w.extractLsb' 12 4) (w.extractLsb' 11 1) (w.extractLsb' 9 2))
  else if w.extractLsb' 0 6 = 3#6 ∧ w.extractLsb' 8 1 = 1#1 then
    some (.qscaleExact (w.extractLsb' 21 5) (w.extractLsb' 16 5) (w.extractLsb' 12 4) (w.extractLsb' 11 1) (w.extractLsb' 9 2) (w.extractLsb' 6 2))
  else none

/-- OP 0x36: EST, ELD (R169). -/
def opEngine (w : Word32) : Option Instr :=
  if w.extractLsb' 0 4 = 0#4 then some (.est (w.extractLsb' 21 5) (w.extractLsb' 16 5) (w.extractLsb' 4 12))
  else if w.extractLsb' 0 4 = 1#4 then some (.eld (w.extractLsb' 21 5) (w.extractLsb' 16 5) (w.extractLsb' 4 12))
  else none

/-- OP 0x37: TRAP, TRET, ECALL, TLBI, TLBI_ALL, KLOCK, KUNLOCK, IFLUSH, TSTAMP, JDROP (R171). -/
def opSystem (w : Word32) : Option Instr :=
  if w.extractLsb' 0 4 = 0#4 ∧ w.extractLsb' 16 10 = 0#10 then some (.trap (w.extractLsb' 4 12))
  else if w.extractLsb' 0 26 = 1#26 then some (.tret)
  else if w.extractLsb' 0 4 = 2#4 ∧ w.extractLsb' 16 10 = 0#10 then some (.ecall (w.extractLsb' 4 12))
  else if w.extractLsb' 0 16 = 3#16 ∧ w.extractLsb' 21 5 = 0#5 then some (.tlbi (w.extractLsb' 16 5))
  else if w.extractLsb' 0 26 = 19#26 then some (.tlbiAll)
  else if w.extractLsb' 0 16 = 4#16 then some (.klock (w.extractLsb' 21 5) (w.extractLsb' 16 5))
  else if w.extractLsb' 0 16 = 5#16 ∧ w.extractLsb' 21 5 = 0#5 then some (.kunlock (w.extractLsb' 16 5))
  else if w.extractLsb' 0 26 = 6#26 then some (.iflush)
  else if w.extractLsb' 0 21 = 7#21 then some (.tstamp (w.extractLsb' 21 5))
  else if w.extractLsb' 0 16 = 8#16 ∧ w.extractLsb' 21 5 = 0#5 then some (.jdrop (w.extractLsb' 16 5))
  else none

/-- A 32-bit word by its major opcode (R116), before the value rules. -/
def word (w : Word32) : Option Instr :=
  match w.extractLsb' 26 6 with
  | 0x01#6 => opInt w
  | 0x02#6 => opMulDiv w
  | 0x03#6 => some (.addi (w.extractLsb' 21 5) (w.extractLsb' 16 5) (w.extractLsb' 0 16))
  | 0x04#6 => some (.andi (w.extractLsb' 21 5) (w.extractLsb' 16 5) (w.extractLsb' 0 16))
  | 0x05#6 => some (.ori (w.extractLsb' 21 5) (w.extractLsb' 16 5) (w.extractLsb' 0 16))
  | 0x06#6 => some (.xori (w.extractLsb' 21 5) (w.extractLsb' 16 5) (w.extractLsb' 0 16))
  | 0x07#6 => some (.slti (w.extractLsb' 21 5) (w.extractLsb' 16 5) (w.extractLsb' 0 16))
  | 0x08#6 => some (.sltiN (w.extractLsb' 21 5) (w.extractLsb' 16 5) (w.extractLsb' 0 16))
  | 0x09#6 => opShift w
  | 0x0A#6 => if w.extractLsb' 16 5 = 0#5 then some (.lui (w.extractLsb' 21 5) (w.extractLsb' 0 16)) else none
  | 0x0B#6 => if w.extractLsb' 16 5 = 0#5 then some (.lpc (w.extractLsb' 21 5) (w.extractLsb' 0 16)) else none
  | 0x0C#6 => opFp64 w
  | 0x0D#6 => opFp32 w
  | 0x0E#6 => opFcvt w
  | 0x10#6 => some (.ldB (w.extractLsb' 21 5) (w.extractLsb' 16 5) (w.extractLsb' 12 4) (w.extractLsb' 10 2) (w.extractLsb' 0 10))
  | 0x11#6 => some (.ldH (w.extractLsb' 21 5) (w.extractLsb' 16 5) (w.extractLsb' 12 4) (w.extractLsb' 10 2) (w.extractLsb' 0 10))
  | 0x12#6 => some (.ldW (w.extractLsb' 21 5) (w.extractLsb' 16 5) (w.extractLsb' 12 4) (w.extractLsb' 10 2) (w.extractLsb' 0 10))
  | 0x13#6 => some (.ldD (w.extractLsb' 21 5) (w.extractLsb' 16 5) (w.extractLsb' 12 4) (w.extractLsb' 10 2) (w.extractLsb' 0 10))
  | 0x14#6 => some (.ldBn (w.extractLsb' 21 5) (w.extractLsb' 16 5) (w.extractLsb' 12 4) (w.extractLsb' 10 2) (w.extractLsb' 0 10))
  | 0x15#6 => some (.ldHn (w.extractLsb' 21 5) (w.extractLsb' 16 5) (w.extractLsb' 12 4) (w.extractLsb' 10 2) (w.extractLsb' 0 10))
  | 0x16#6 => some (.ldWn (w.extractLsb' 21 5) (w.extractLsb' 16 5) (w.extractLsb' 12 4) (w.extractLsb' 10 2) (w.extractLsb' 0 10))
  | 0x17#6 => some (.ldFw (w.extractLsb' 21 5) (w.extractLsb' 16 5) (w.extractLsb' 12 4) (w.extractLsb' 10 2) (w.extractLsb' 0 10))
  | 0x18#6 => some (.ldFd (w.extractLsb' 21 5) (w.extractLsb' 16 5) (w.extractLsb' 12 4) (w.extractLsb' 10 2) (w.extractLsb' 0 10))
  | 0x19#6 => if w.extractLsb' 21 1 = 0#1 then some (.ldA16 (w.extractLsb' 22 4) (w.extractLsb' 16 5) (w.extractLsb' 12 4) (w.extractLsb' 10 2) (w.extractLsb' 0 10)) else none
  | 0x1A#6 => if w.extractLsb' 21 1 = 0#1 then some (.ldV16 (w.extractLsb' 22 4) (w.extractLsb' 16 5) (w.extractLsb' 12 4) (w.extractLsb' 10 2) (w.extractLsb' 0 10)) else none
  | 0x1C#6 => some (.stB (w.extractLsb' 21 5) (w.extractLsb' 16 5) (w.extractLsb' 12 4) (w.extractLsb' 10 2) (w.extractLsb' 0 10))
  | 0x1D#6 => some (.stH (w.extractLsb' 21 5) (w.extractLsb' 16 5) (w.extractLsb' 12 4) (w.extractLsb' 10 2) (w.extractLsb' 0 10))
  | 0x1E#6 => some (.stW (w.extractLsb' 21 5) (w.extractLsb' 16 5) (w.extractLsb' 12 4) (w.extractLsb' 10 2) (w.extractLsb' 0 10))
  | 0x1F#6 => some (.stD (w.extractLsb' 21 5) (w.extractLsb' 16 5) (w.extractLsb' 12 4) (w.extractLsb' 10 2) (w.extractLsb' 0 10))
  | 0x20#6 => some (.stFw (w.extractLsb' 21 5) (w.extractLsb' 16 5) (w.extractLsb' 12 4) (w.extractLsb' 10 2) (w.extractLsb' 0 10))
  | 0x21#6 => some (.stFd (w.extractLsb' 21 5) (w.extractLsb' 16 5) (w.extractLsb' 12 4) (w.extractLsb' 10 2) (w.extractLsb' 0 10))
  | 0x22#6 => if w.extractLsb' 21 1 = 0#1 then some (.stA16 (w.extractLsb' 22 4) (w.extractLsb' 16 5) (w.extractLsb' 12 4) (w.extractLsb' 10 2) (w.extractLsb' 0 10)) else none
  | 0x23#6 => if w.extractLsb' 21 1 = 0#1 then some (.stV16 (w.extractLsb' 22 4) (w.extractLsb' 16 5) (w.extractLsb' 12 4) (w.extractLsb' 10 2) (w.extractLsb' 0 10)) else none
  | 0x24#6 => some (.amoW (w.extractLsb' 21 5) (w.extractLsb' 16 5) (w.extractLsb' 11 5) (w.extractLsb' 7 4) (w.extractLsb' 6 1) (w.extractLsb' 4 2) (w.extractLsb' 0 4))
  | 0x25#6 => some (.amoD (w.extractLsb' 21 5) (w.extractLsb' 16 5) (w.extractLsb' 11 5) (w.extractLsb' 7 4) (w.extractLsb' 6 1) (w.extractLsb' 4 2) (w.extractLsb' 0 4))
  | 0x26#6 => if w.extractLsb' 6 5 = 0#5 then some (.casW (w.extractLsb' 21 5) (w.extractLsb' 16 5) (w.extractLsb' 11 5) (w.extractLsb' 4 2) (w.extractLsb' 0 4)) else none
  | 0x27#6 => if w.extractLsb' 6 5 = 0#5 then some (.casD (w.extractLsb' 21 5) (w.extractLsb' 16 5) (w.extractLsb' 11 5) (w.extractLsb' 4 2) (w.extractLsb' 0 4)) else none
  | 0x28#6 => some (.beq (w.extractLsb' 21 5) (w.extractLsb' 16 5) (w.extractLsb' 0 16))
  | 0x29#6 => some (.bne (w.extractLsb' 21 5) (w.extractLsb' 16 5) (w.extractLsb' 0 16))
  | 0x2A#6 => some (.blt (w.extractLsb' 21 5) (w.extractLsb' 16 5) (w.extractLsb' 0 16))
  | 0x2B#6 => some (.bge (w.extractLsb' 21 5) (w.extractLsb' 16 5) (w.extractLsb' 0 16))
  | 0x2C#6 => some (.bltN (w.extractLsb' 21 5) (w.extractLsb' 16 5) (w.extractLsb' 0 16))
  | 0x2D#6 => some (.bgeN (w.extractLsb' 21 5) (w.extractLsb' 16 5) (w.extractLsb' 0 16))
  | 0x2E#6 => some (.j (w.extractLsb' 0 26))
  | 0x2F#6 => some (.jal (w.extractLsb' 0 26))
  | 0x30#6 => some (.jalr (w.extractLsb' 21 5) (w.extractLsb' 16 5) (w.extractLsb' 0 16))
  | 0x31#6 => if w.extractLsb' 16 5 = 0#5 then some (.fence (w.extractLsb' 23 3) (w.extractLsb' 21 2) (w.extractLsb' 0 16)) else none
  | 0x32#6 => opState w
  | 0x33#6 => opWait w
  | 0x34#6 => opPeg w
  | 0x35#6 => opScribe w
  | 0x36#6 => opEngine w
  | 0x37#6 => opSystem w
  | _ => none

/-- The wait and signal fields of word 1 (R113). -/
def waitSig (w1 : Word32) : WaitSig :=
  ⟨w1.extractLsb' 24 8, w1.extractLsb' 12 12, w1.extractLsb' 4 8, w1.extractLsb' 0 4⟩

/-- A d operand: its field's bit 4 is reserved (R179). -/
def dField (x : BitVec 5) : Option (BitVec 4) :=
  if x.extractLsb' 4 1 = 0#1 then some (x.extractLsb' 0 4) else none

/-- SLD's FLG (R179): ST, TR and GA exclude each other, CJ goes with any. -/
def sldFlags (flg : BitVec 6) : Option (SldMode × Bool) :=
  match flg with
  | 0x0#6 => some (.plain, false)
  | 0x1#6 => some (.strided, false)
  | 0x2#6 => some (.transpose, false)
  | 0x4#6 => some (.gather, false)
  | 0x8#6 => some (.plain, true)
  | 0x9#6 => some (.strided, true)
  | 0xA#6 => some (.transpose, true)
  | 0xC#6 => some (.gather, true)
  | _ => none

/-- SST's FLG (R179): bit 0 Q, 1 EXACT, 3:2 m, 4 DW, 5 reserved. -/
def sstFlags (flg : BitVec 6) : Option SstQuant :=
  if flg.extractLsb' 5 1 = 1#1 then none
  else if flg.extractLsb' 0 1 = 0#1 then
    if flg = 0#6 then some .none else none
  else if flg.extractLsb' 1 1 = 0#1 then
    if flg.extractLsb' 2 2 = 0#2 then some (.pow2 (flg.extractLsb' 4 1 = 1#1)) else none
  else some (.exact (flg.extractLsb' 2 2) (flg.extractLsb' 4 1 = 1#1))

/-- SALLOC's and SFREE's FLG (R179). -/
def spaceFlags (flg : BitVec 6) : Option LocalSpace :=
  match flg with
  | 0#6 => some .srf
  | 1#6 => some .wb
  | 2#6 => some .acc
  | _ => none

/-- A long instruction by its CMD (R123, R179), before the value rules. -/
def long (w0 w1 : Word32) : Option Instr :=
  let xa := w0.extractLsb' 15 5
  let xb := w0.extractLsb' 10 5
  let c := w0.extractLsb' 6 4
  let flg := w0.extractLsb' 0 6
  let ws := waitSig w1
  match w0.extractLsb' 20 6 with
  | 0x01#6 => do
    let a ← dField xa
    let b ← dField xb
    let f ← sldFlags flg
    some (.sld f.1 f.2 c a b ws)
  | 0x02#6 => do
    let a ← dField xa
    let b ← dField xb
    let q ← sstFlags flg
    some (.sst q c a b ws)
  | 0x03#6 => do
    let a ← dField xa
    let b ← dField xb
    if flg = 0#6 then some (.sgth c a b ws) else none
  | 0x04#6 => do
    let a ← dField xa
    let b ← dField xb
    if flg.extractLsb' 1 5 = 0#5 then some (.ssct (flg.extractLsb' 0 1 = 1#1) c a b ws) else none
  | 0x05#6 => do
    let a ← dField xa
    let b ← dField xb
    if flg = 0#6 then some (.sred c a b ws) else none
  | 0x06#6 => do
    let a ← dField xa
    let b ← dField xb
    if flg = 0#6 ∧ c = 0#4 then some (.scpy a b ws) else none
  | 0x07#6 =>
    if xb = 0#5 ∧ c = 0#4 ∧ flg.extractLsb' 4 2 = 0#2 then some (.sbank (flg.extractLsb' 0 4) xa ws) else none
  | 0x08#6 => do
    let sp ← spaceFlags flg
    if c = 0#4 then some (.salloc sp xa xb ws) else none
  | 0x09#6 => do
    let sp ← spaceFlags flg
    if c = 0#4 then some (.sfree sp xa xb ws) else none
  | 0x0A#6 => do
    let a ← dField xa
    if xb = 0#5 ∧ c = 0#4 ∧ flg.extractLsb' 1 5 = 0#5 then some (.seat (flg.extractLsb' 0 1 = 1#1) a ws) else none
  | 0x0B#6 => do
    let a ← dField xa
    if xb = 0#5 ∧ c = 0#4 ∧ flg = 0#6 then some (.unseat a ws) else none
  | 0x0C#6 => if xb = 0#5 ∧ flg = 0#6 then some (.krun c xa ws) else none
  | 0x0D#6 => if xa = 0#5 ∧ xb = 0#5 ∧ c = 0#4 ∧ flg = 0#6 then some (.jigGo ws) else none
  | 0x0E#6 => if xa = 0#5 ∧ xb = 0#5 ∧ c = 0#4 ∧ flg = 0#6 then some (.jigRev ws) else none
  | 0x0F#6 => if c = 0#4 ∧ flg = 0#6 then some (.finSet xa xb ws) else none
  | 0x10#6 => if xb = 0#5 ∧ flg = 0#6 then some (.coll c xa ws) else none
  | 0x11#6 => if xb = 0#5 ∧ flg = 0#6 then some (.collAbt c xa ws) else none
  | 0x12#6 => if flg = 0#6 then some (.sillLoad c xa xb ws) else none
  | 0x13#6 => if c = 0#4 ∧ flg = 0#6 then some (.sillGo xa xb ws) else none
  | 0x14#6 => do
    let a ← dField xa
    if flg = 0#6 ∧ ws = ⟨255, 0, 255, 0⟩ then some (.descLd c a xb) else none
  | 0x15#6 => if c = 0#4 ∧ flg = 0#6 ∧ ws = ⟨255, 0, 255, 0⟩ then some (.jrnlRd xa xb) else none
  | _ => none

/-- An instruction that the value rules accept (R126). -/
def accept : Option Instr → Except Reject Instr
  | none => .error .unassigned
  | some i => if i.wf then .ok i else .error .reservedValue

/-- The word of four little-endian bytes (R112). -/
def word32 (b0 b1 b2 b3 : Byte) : Word32 := b3 ++ b2 ++ b1 ++ b0

/-- Whether a word is word 0 of a long instruction (R112). -/
def isLong (w : Word32) : Bool := w.extractLsb' 26 6 = 0x3F#6

/-- A 32-bit instruction word. -/
def short (w : Word32) : Except Reject Instr := accept (word w)

/-- Decode the instruction at the head of a list of bytes; the answer carries the bytes that follow it. -/
def bytes : List Byte → Except Reject (Instr × List Byte)
  | b0 :: b1 :: b2 :: b3 :: rest =>
    if isLong (word32 b0 b1 b2 b3) then
      match rest with
      | c0 :: c1 :: c2 :: c3 :: rest' =>
        match accept (long (word32 b0 b1 b2 b3) (word32 c0 c1 c2 c3)) with
        | .ok i => .ok (i, rest')
        | .error r => .error r
      | _ => .error .truncated
    else
      match short (word32 b0 b1 b2 b3) with
      | .ok i => .ok (i, rest)
      | .error r => .error r
  | _ => .error .truncated

end Decode

/-- The words of an instruction, word 0 first (R113). An event has no words. -/
def Encode.long0 (cmd : BitVec 6) (xa xb : BitVec 5) (c : BitVec 4) (flg : BitVec 6) : Word32 :=
  0x3F#6 ++ cmd ++ xa ++ xb ++ c ++ flg

/-- Word 1 of a long instruction (R113). -/
def Encode.long1 (ws : WaitSig) : Word32 := ws.wsem ++ ws.wthr ++ ws.ssem ++ ws.sinc

/-- Word 1 that neither waits nor signals (R115). -/
def Encode.noWait : Word32 := 0xFF000FF0#32

/-- A d operand's field. -/
def Encode.dReg (d : BitVec 4) : BitVec 5 := 0#1 ++ d

/-- A flag bit. -/
def Encode.flag (b : Bool) : BitVec 1 := BitVec.ofBool b

/-- SLD's FLG (R179). -/
def Encode.sldFlags (m : SldMode) (cj : Bool) : BitVec 6 :=
  0#2 ++ Encode.flag cj ++ (match m with
    | .plain => 0b000#3
    | .strided => 0b001#3
    | .transpose => 0b010#3
    | .gather => 0b100#3)

/-- SST's FLG (R179). -/
def Encode.sstFlags : SstQuant → BitVec 6
  | .none => 0#6
  | .pow2 dw => 0#1 ++ Encode.flag dw ++ 0#2 ++ 0b01#2
  | .exact m dw => 0#1 ++ Encode.flag dw ++ m ++ 0b11#2

/-- The space code of SALLOC and SFREE (R179). -/
def Encode.space : LocalSpace → BitVec 6
  | .srf => 0#6
  | .wb => 1#6
  | .acc => 2#6

/-- The words of an instruction, from the encoding tables of R113 to R125 and R179. -/
def encode : Instr → List Word32
  | .add d a b => [0x1#6 ++ d ++ a ++ b ++ 0x0#11]
  | .sub d a b => [0x1#6 ++ d ++ a ++ b ++ 0x1#11]
  | .and d a b => [0x1#6 ++ d ++ a ++ b ++ 0x2#11]
  | .or d a b => [0x1#6 ++ d ++ a ++ b ++ 0x3#11]
  | .xor d a b => [0x1#6 ++ d ++ a ++ b ++ 0x4#11]
  | .sll d a b => [0x1#6 ++ d ++ a ++ b ++ 0x5#11]
  | .srl d a b => [0x1#6 ++ d ++ a ++ b ++ 0x6#11]
  | .sra d a b => [0x1#6 ++ d ++ a ++ b ++ 0x7#11]
  | .slt d a b => [0x1#6 ++ d ++ a ++ b ++ 0x8#11]
  | .sltN d a b => [0x1#6 ++ d ++ a ++ b ++ 0x9#11]
  | .min d a b => [0x1#6 ++ d ++ a ++ b ++ 0xA#11]
  | .max d a b => [0x1#6 ++ d ++ a ++ b ++ 0xB#11]
  | .minN d a b => [0x1#6 ++ d ++ a ++ b ++ 0xC#11]
  | .maxN d a b => [0x1#6 ++ d ++ a ++ b ++ 0xD#11]
  | .ror d a b => [0x1#6 ++ d ++ a ++ b ++ 0xE#11]
  | .clz d a => [0x1#6 ++ d ++ a ++ 0xF#16]
  | .ctz d a => [0x1#6 ++ d ++ a ++ 0x10#16]
  | .popc d a => [0x1#6 ++ d ++ a ++ 0x11#16]
  | .addW d a b => [0x1#6 ++ d ++ a ++ b ++ 0x12#11]
  | .subW d a b => [0x1#6 ++ d ++ a ++ b ++ 0x13#11]
  | .mul d a b => [0x2#6 ++ d ++ a ++ b ++ 0x0#11]
  | .mulh d a b => [0x2#6 ++ d ++ a ++ b ++ 0x1#11]
  | .mulhN d a b => [0x2#6 ++ d ++ a ++ b ++ 0x2#11]
  | .div d a b => [0x2#6 ++ d ++ a ++ b ++ 0x3#11]
  | .divN d a b => [0x2#6 ++ d ++ a ++ b ++ 0x4#11]
  | .rem d a b => [0x2#6 ++ d ++ a ++ b ++ 0x5#11]
  | .remN d a b => [0x2#6 ++ d ++ a ++ b ++ 0x6#11]
  | .addi d a i => [0x3#6 ++ d ++ a ++ i]
  | .andi d a i => [0x4#6 ++ d ++ a ++ i]
  | .ori d a i => [0x5#6 ++ d ++ a ++ i]
  | .xori d a i => [0x6#6 ++ d ++ a ++ i]
  | .slti d a i => [0x7#6 ++ d ++ a ++ i]
  | .sltiN d a i => [0x8#6 ++ d ++ a ++ i]
  | .slli d a n => [0x9#6 ++ d ++ a ++ 0x0#10 ++ n]
  | .srli d a n => [0x9#6 ++ d ++ a ++ 0x1#10 ++ n]
  | .srai d a n => [0x9#6 ++ d ++ a ++ 0x2#10 ++ n]
  | .rori d a n => [0x9#6 ++ d ++ a ++ 0x3#10 ++ n]
  | .lui d i => [0xA#6 ++ d ++ 0x0#5 ++ i]
  | .lpc d i => [0xB#6 ++ d ++ 0x0#5 ++ i]
  | .faddF64 d a b m => [0xC#6 ++ d ++ a ++ b ++ m ++ 0x0#9]
  | .fsubF64 d a b m => [0xC#6 ++ d ++ a ++ b ++ m ++ 0x1#9]
  | .fmulF64 d a b m => [0xC#6 ++ d ++ a ++ b ++ m ++ 0x2#9]
  | .fdivF64 d a b m => [0xC#6 ++ d ++ a ++ b ++ m ++ 0x3#9]
  | .fsqrtF64 d a m => [0xC#6 ++ d ++ a ++ 0x0#5 ++ m ++ 0x4#9]
  | .fminF64 d a b => [0xC#6 ++ d ++ a ++ b ++ 0x5#11]
  | .fmaxF64 d a b => [0xC#6 ++ d ++ a ++ b ++ 0x6#11]
  | .fmaF64 d a b m => [0xC#6 ++ d ++ a ++ b ++ m ++ 0x7#9]
  | .fabsF64 d a => [0xC#6 ++ d ++ a ++ 0x8#16]
  | .fnegF64 d a => [0xC#6 ++ d ++ a ++ 0x9#16]
  | .feqF64 d a b => [0xC#6 ++ d ++ a ++ b ++ 0xA#11]
  | .fltF64 d a b => [0xC#6 ++ d ++ a ++ b ++ 0xB#11]
  | .fleF64 d a b => [0xC#6 ++ d ++ a ++ b ++ 0xC#11]
  | .fclassF64 d a => [0xC#6 ++ d ++ a ++ 0xD#16]
  | .faddF32 d a b m => [0xD#6 ++ d ++ a ++ b ++ m ++ 0x0#9]
  | .fsubF32 d a b m => [0xD#6 ++ d ++ a ++ b ++ m ++ 0x1#9]
  | .fmulF32 d a b m => [0xD#6 ++ d ++ a ++ b ++ m ++ 0x2#9]
  | .fdivF32 d a b m => [0xD#6 ++ d ++ a ++ b ++ m ++ 0x3#9]
  | .fsqrtF32 d a m => [0xD#6 ++ d ++ a ++ 0x0#5 ++ m ++ 0x4#9]
  | .fminF32 d a b => [0xD#6 ++ d ++ a ++ b ++ 0x5#11]
  | .fmaxF32 d a b => [0xD#6 ++ d ++ a ++ b ++ 0x6#11]
  | .fmaF32 d a b m => [0xD#6 ++ d ++ a ++ b ++ m ++ 0x7#9]
  | .fabsF32 d a => [0xD#6 ++ d ++ a ++ 0x8#16]
  | .fnegF32 d a => [0xD#6 ++ d ++ a ++ 0x9#16]
  | .feqF32 d a b => [0xD#6 ++ d ++ a ++ b ++ 0xA#11]
  | .fltF32 d a b => [0xD#6 ++ d ++ a ++ b ++ 0xB#11]
  | .fleF32 d a b => [0xD#6 ++ d ++ a ++ b ++ 0xC#11]
  | .fclassF32 d a => [0xD#6 ++ d ++ a ++ 0xD#16]
  | .cvtF64I64 d a m => [0xE#6 ++ d ++ a ++ 0x0#5 ++ m ++ 0x0#9]
  | .cvtF64N64 d a m => [0xE#6 ++ d ++ a ++ 0x0#5 ++ m ++ 0x1#9]
  | .cvtI64F64 d a m => [0xE#6 ++ d ++ a ++ 0x0#5 ++ m ++ 0x2#9]
  | .cvtN64F64 d a m => [0xE#6 ++ d ++ a ++ 0x0#5 ++ m ++ 0x3#9]
  | .cvtF32I64 d a m => [0xE#6 ++ d ++ a ++ 0x0#5 ++ m ++ 0x4#9]
  | .cvtF32N64 d a m => [0xE#6 ++ d ++ a ++ 0x0#5 ++ m ++ 0x5#9]
  | .cvtI64F32 d a m => [0xE#6 ++ d ++ a ++ 0x0#5 ++ m ++ 0x6#9]
  | .cvtN64F32 d a m => [0xE#6 ++ d ++ a ++ 0x0#5 ++ m ++ 0x7#9]
  | .cvtF64F32 d a => [0xE#6 ++ d ++ a ++ 0x8#16]
  | .cvtF32F64 d a m => [0xE#6 ++ d ++ a ++ 0x0#5 ++ m ++ 0x9#9]
  | .fmvX d a => [0xE#6 ++ d ++ a ++ 0xA#16]
  | .fmvF d a => [0xE#6 ++ d ++ a ++ 0xB#16]
  | .ldB d a c o f => [0x10#6 ++ d ++ a ++ c ++ o ++ f]
  | .ldH d a c o f => [0x11#6 ++ d ++ a ++ c ++ o ++ f]
  | .ldW d a c o f => [0x12#6 ++ d ++ a ++ c ++ o ++ f]
  | .ldD d a c o f => [0x13#6 ++ d ++ a ++ c ++ o ++ f]
  | .ldBn d a c o f => [0x14#6 ++ d ++ a ++ c ++ o ++ f]
  | .ldHn d a c o f => [0x15#6 ++ d ++ a ++ c ++ o ++ f]
  | .ldWn d a c o f => [0x16#6 ++ d ++ a ++ c ++ o ++ f]
  | .ldFw d a c o f => [0x17#6 ++ d ++ a ++ c ++ o ++ f]
  | .ldFd d a c o f => [0x18#6 ++ d ++ a ++ c ++ o ++ f]
  | .ldA16 d a c o f => [0x19#6 ++ d ++ 0x0#1 ++ a ++ c ++ o ++ f]
  | .ldV16 d a c o f => [0x1A#6 ++ d ++ 0x0#1 ++ a ++ c ++ o ++ f]
  | .stB s a c o f => [0x1C#6 ++ s ++ a ++ c ++ o ++ f]
  | .stH s a c o f => [0x1D#6 ++ s ++ a ++ c ++ o ++ f]
  | .stW s a c o f => [0x1E#6 ++ s ++ a ++ c ++ o ++ f]
  | .stD s a c o f => [0x1F#6 ++ s ++ a ++ c ++ o ++ f]
  | .stFw s a c o f => [0x20#6 ++ s ++ a ++ c ++ o ++ f]
  | .stFd s a c o f => [0x21#6 ++ s ++ a ++ c ++ o ++ f]
  | .stA16 s a c o f => [0x22#6 ++ s ++ 0x0#1 ++ a ++ c ++ o ++ f]
  | .stV16 s a c o f => [0x23#6 ++ s ++ 0x0#1 ++ a ++ c ++ o ++ f]
  | .amoW d a b p m o c => [0x24#6 ++ d ++ a ++ b ++ p ++ m ++ o ++ c]
  | .amoD d a b p m o c => [0x25#6 ++ d ++ a ++ b ++ p ++ m ++ o ++ c]
  | .casW d a b o c => [0x26#6 ++ d ++ a ++ b ++ 0x0#5 ++ o ++ c]
  | .casD d a b o c => [0x27#6 ++ d ++ a ++ b ++ 0x0#5 ++ o ++ c]
  | .beq a b o => [0x28#6 ++ a ++ b ++ o]
  | .bne a b o => [0x29#6 ++ a ++ b ++ o]
  | .blt a b o => [0x2A#6 ++ a ++ b ++ o]
  | .bge a b o => [0x2B#6 ++ a ++ b ++ o]
  | .bltN a b o => [0x2C#6 ++ a ++ b ++ o]
  | .bgeN a b o => [0x2D#6 ++ a ++ b ++ o]
  | .j o => [0x2E#6 ++ o]
  | .jal o => [0x2F#6 ++ o]
  | .jalr d a i => [0x30#6 ++ d ++ a ++ i]
  | .fence s o m => [0x31#6 ++ s ++ o ++ 0x0#5 ++ m]
  | .gets d i => [0x32#6 ++ d ++ 0x0#5 ++ i ++ 0x0#4]
  | .puts a i => [0x32#6 ++ 0x0#5 ++ a ++ i ++ 0x1#4]
  | .mwait d a => [0x33#6 ++ d ++ a ++ 0x0#16]
  | .phreg m n => [0x33#6 ++ 0x0#10 ++ m ++ n ++ 0x1#4]
  | .phdrop n => [0x33#6 ++ 0x0#12 ++ n ++ 0x2#4]
  | .phsig n => [0x33#6 ++ 0x0#12 ++ n ++ 0x3#4]
  | .phwait d n => [0x33#6 ++ d ++ 0x0#7 ++ n ++ 0x4#4]
  | .semsig a n => [0x33#6 ++ 0x0#5 ++ a ++ 0x0#4 ++ n ++ 0x5#4]
  | .semwait a n => [0x33#6 ++ 0x0#5 ++ a ++ 0x0#4 ++ n ++ 0x6#4]
  | .semwaitS a n => [0x33#6 ++ 0x0#5 ++ a ++ 0x0#4 ++ n ++ 0x7#4]
  | .semrd d n => [0x33#6 ++ d ++ 0x0#9 ++ n ++ 0x8#4]
  | .spawn d a => [0x34#6 ++ d ++ a ++ 0x0#16]
  | .join => [0x34#6 ++ 0x1#26]
  | .yield => [0x34#6 ++ 0x2#26]
  | .exit => [0x34#6 ++ 0x3#26]
  | .bentNew d a => [0x34#6 ++ d ++ a ++ 0x4#16]
  | .bentKill a => [0x34#6 ++ 0x0#5 ++ a ++ 0x5#16]
  | .enq d a => [0x34#6 ++ d ++ a ++ 0x6#16]
  | .scrbInit a t => [0x35#6 ++ 0x0#5 ++ a ++ 0x0#8 ++ t ++ 0x0#4]
  | .scrbNext d a => [0x35#6 ++ d ++ a ++ 0x1#16]
  | .scrbRd d a w => [0x35#6 ++ d ++ a ++ 0x0#7 ++ w ++ 0x2#4]
  | .qscalePow2 d a t v w => [0x35#6 ++ d ++ a ++ t ++ v ++ w ++ 0x3#9]
  | .qscaleExact d a t v w m => [0x35#6 ++ d ++ a ++ t ++ v ++ w ++ 0x1#1 ++ m ++ 0x3#6]
  | .est d a i => [0x36#6 ++ d ++ a ++ i ++ 0x0#4]
  | .eld d a i => [0x36#6 ++ d ++ a ++ i ++ 0x1#4]
  | .trap i => [0x37#6 ++ 0x0#10 ++ i ++ 0x0#4]
  | .tret => [0x37#6 ++ 0x1#26]
  | .ecall i => [0x37#6 ++ 0x0#10 ++ i ++ 0x2#4]
  | .tlbi a => [0x37#6 ++ 0x0#5 ++ a ++ 0x3#16]
  | .tlbiAll => [0x37#6 ++ 0x13#26]
  | .klock d a => [0x37#6 ++ d ++ a ++ 0x4#16]
  | .kunlock a => [0x37#6 ++ 0x0#5 ++ a ++ 0x5#16]
  | .iflush => [0x37#6 ++ 0x6#26]
  | .tstamp d => [0x37#6 ++ d ++ 0x7#21]
  | .jdrop a => [0x37#6 ++ 0x0#5 ++ a ++ 0x8#16]
  | .sld m cj c a b ws => [Encode.long0 0x01#6 (Encode.dReg a) (Encode.dReg b) c (Encode.sldFlags m cj), Encode.long1 ws]
  | .sst q c a b ws => [Encode.long0 0x02#6 (Encode.dReg a) (Encode.dReg b) c (Encode.sstFlags q), Encode.long1 ws]
  | .sgth c a b ws => [Encode.long0 0x03#6 (Encode.dReg a) (Encode.dReg b) c 0#6, Encode.long1 ws]
  | .ssct mrg c a b ws => [Encode.long0 0x04#6 (Encode.dReg a) (Encode.dReg b) c (0#5 ++ Encode.flag mrg), Encode.long1 ws]
  | .sred c a b ws => [Encode.long0 0x05#6 (Encode.dReg a) (Encode.dReg b) c 0#6, Encode.long1 ws]
  | .scpy a b ws => [Encode.long0 0x06#6 (Encode.dReg a) (Encode.dReg b) 0#4 0#6, Encode.long1 ws]
  | .sbank k a ws => [Encode.long0 0x07#6 a 0#5 0#4 (0#2 ++ k), Encode.long1 ws]
  | .salloc sp a b ws => [Encode.long0 0x08#6 a b 0#4 (Encode.space sp), Encode.long1 ws]
  | .sfree sp a b ws => [Encode.long0 0x09#6 a b 0#4 (Encode.space sp), Encode.long1 ws]
  | .seat bwd a ws => [Encode.long0 0x0A#6 (Encode.dReg a) 0#5 0#4 (0#5 ++ Encode.flag bwd), Encode.long1 ws]
  | .unseat a ws => [Encode.long0 0x0B#6 (Encode.dReg a) 0#5 0#4 0#6, Encode.long1 ws]
  | .krun c a ws => [Encode.long0 0x0C#6 a 0#5 c 0#6, Encode.long1 ws]
  | .jigGo ws => [Encode.long0 0x0D#6 0#5 0#5 0#4 0#6, Encode.long1 ws]
  | .jigRev ws => [Encode.long0 0x0E#6 0#5 0#5 0#4 0#6, Encode.long1 ws]
  | .finSet a b ws => [Encode.long0 0x0F#6 a b 0#4 0#6, Encode.long1 ws]
  | .coll c a ws => [Encode.long0 0x10#6 a 0#5 c 0#6, Encode.long1 ws]
  | .collAbt c a ws => [Encode.long0 0x11#6 a 0#5 c 0#6, Encode.long1 ws]
  | .sillLoad c a b ws => [Encode.long0 0x12#6 a b c 0#6, Encode.long1 ws]
  | .sillGo a b ws => [Encode.long0 0x13#6 a b 0#4 0#6, Encode.long1 ws]
  | .descLd c a b => [Encode.long0 0x14#6 (Encode.dReg a) b c 0#6, Encode.noWait]
  | .jrnlRd a b => [Encode.long0 0x15#6 a b 0#4 0#6, Encode.noWait]
  | .bundleIssue _ _ => []
  | .stallStep _ _ => []
  | .imemLineFill _ _ => []
  | .contextLaunch _ => []
  | .contextHalt _ _ => []
  | .srfxFlagSet _ _ _ => []
  | .semarmFlagSet _ _ _ => []
  | .pharmFlagSet _ _ _ => []
  | .commandStart _ _ => []
  | .commandElement _ _ => []
  | .commandComplete _ _ => []
  | .jigRunStart _ => []
  | .jigStep _ _ => []
  | .scribeMerge _ => []
  | .pegDispatch _ => []
  | .waitingPegReady _ => []
  | .mwaitSpinExpiry _ => []
  | .mwaitTimeout _ => []
  | .monitorLoss _ => []
  | .priorityAgeing _ _ => []
  | .preemptionRequest _ => []
  | .contextRestFreeze _ _ => []
  | .preemptionEscalated _ _ => []
  | .preemptionComplete _ => []
  | .pegMigration _ _ => []
  | .trapDelivery => []
  | .deferredDataTrap => []
  | .kill _ => []
  | .watchdog _ => []
  | .accFirstUse _ _ => []
  | .bentRecordWriteback _ => []
  | .pageWalk _ _ _ => []
  | .homeAccess _ _ => []
  | .mergeAtHome _ _ => []
  | .scrub _ _ => []
  | .sillRunStart _ => []
  | .sillWait _ => []
  | .sillMv _ => []
  | .sillRd _ => []
  | .sillWr _ => []
  | .sillRef _ => []
  | .sillGate _ => []
  | .sillLds _ => []
  | .sillPassEnd _ => []
  | .sillGateReread _ => []
  | .sillGateTimeout _ => []
  | .sillRefreshInsert _ => []
  | .fabricPacket _ => []
  | .fabricTimeout _ => []
  | .fabricErrorAnswer _ => []
  | .linkBringUp _ _ => []
  | .linkKeyRenewal _ => []
  | .collStepMessage _ _ => []
  | .collTimeout _ _ => []
  | .collAbtMessage _ _ => []
  | .rdmaWrite _ => []
  | .rdmaRead _ => []
  | .roceInvalidRequest _ => []
  | .arpRequest _ _ => []
  | .neighborDiscovery _ _ => []
  | .frameDrop _ => []
  | .ptpMessage _ => []
  | .datagramDrop _ => []
  | .init _ => []
  | .createBent _ => []
  | .killBent _ => []
  | .enqueuePeg _ => []
  | .loadImage _ => []
  | .keyInstall _ => []
  | .attestation _ => []
  | .telemetry _ => []
  | .dumpRetrieval _ => []
  | .powerSample _ => []
  | .thermalHold _ _ => []
  | .thermalRelease _ _ => []
  | .thermalTrip _ _ => []
  | .inputPowerFault => []
  | .powerUp _ => []
  | .resetInput _ => []
  | .illegalInstruction => []
  | .instructionFetchFault => []
  | .lineEviction _ _ => []
  | .collAbtMemberTimeout _ _ => []
  | .configurationRecordUpdate _ _ => []
  | .firmwareStateError => []
  | .powerRemoval => []

/-- The bytes of words, each little-endian, the first word at the lowest address (R112). -/
def bytesOfWords : List Word32 → List Byte
  | [] => []
  | w :: t => w.extractLsb' 0 8 :: w.extractLsb' 8 8 :: w.extractLsb' 16 8 :: w.extractLsb' 24 8 :: bytesOfWords t

/-- The eight bytes that the bits of a table word lay down: word 0 is bits 31..0, word 1 bits 63..32. -/
def tableBytes (w : Nat) : List Byte := bytesOfWords [BitVec.ofNat 32 w, BitVec.ofNat 32 (w / 2 ^ 32)]

/-- The instruction that the decoder reads from a table word of `nbits` bits; the bits above are 0. -/
def decodeTableWord (nbits w : Nat) : Option Instr :=
  match Decode.bytes (tableBytes (w % 2 ^ nbits)) with
  | .ok (i, _) => some i
  | .error _ => none

end Sys2Proof
end

