-- ==== Sys2Proof/Machine/Order.lean ====
section
/-! DEFINITION. Issuing and performing global accesses (R146, R279 to R294), and the stalls that fences, releases and precise reads
make (R149, R289, R403, R434). -/

namespace Sys2Proof.Machine

/-! ## Class order -/

def AccessKind.isRead : AccessKind → Bool
  | .load _ => true
  | _ => false

def AccessKind.isWrite : AccessKind → Bool
  | .store _ => true
  | _ => false

def AccessKind.isAtomic : AccessKind → Bool
  | .amo _ _ _ | .cas _ _ _ => true
  | _ => false

/-- Whether the bytes of two accesses overlap. -/
def overlap (a n b m : Nat) : Bool := decide (a < b + m) && decide (b < a + n)

/-- Whether an earlier access of an agent is ordered before a later one (R284). -/
def orderedBefore (a b : Access) : Bool :=
  overlap a.loc.pa a.size b.loc.pa b.size ||
  (decide (a.cls = b.cls) &&
    (a.kind.isRead || a.kind.isAtomic || b.kind.isWrite || b.kind.isAtomic || (a.ord = 3 && b.ord = 3)))

/-- What class order and fences look at in an access (R284, R290): its stamp and class, whether it reads or is a non-merge atomic, whether it
writes or is an atomic, and whether it is seq-cst. -/
structure OrderKey where
  no : Nat
  cls : Nat
  reads : Bool
  writes : Bool
  sc : Bool
  deriving DecidableEq, Repr

def Access.placed (a : Access) : OrderKey :=
  { no := a.no, cls := a.cls, reads := a.kind.isRead || a.kind.isAtomic, writes := a.kind.isWrite || a.kind.isAtomic, sc := a.ord = 3 }

/-- Whether the mask of a fence covers a class. -/
def Fence.covers (f : Fence) (c : Nat) : Bool := f.mask.getLsbD c

/-- Whether one fence orders a covered access before it before one after it (R290). -/
def Fence.orders (f : Fence) (a b : OrderKey) : Bool :=
  f.covers a.cls && f.covers b.cls && (f.ord = 3 || (f.ord != 1 && a.reads) || (f.ord != 0 && b.writes))

/-- Whether the fences of an agent order an access before a later one (R290). Seq-cst fences and accesses stand in one order (R291), so what a
seq-cst fence covers precedes what a later seq-cst fence of the agent covers, and the agent's later seq-cst accesses. -/
def State.fencedBefore (s : State) (ag : Agent) (a b : OrderKey) : Bool :=
  s.fences.any (fun f => decide (f.agent = ag) && decide (a.no < f.no) && decide (f.no ≤ b.no) && (f.orders a b ||
    (f.ord = 3 && f.covers a.cls && (b.sc ||
      s.fences.any (fun g => decide (g.agent = ag) && g.ord = 3 && decide (f.no ≤ g.no) && decide (g.no ≤ b.no) && g.covers b.cls)))))

/-- Merges of an agent that bytes which it accesses overlap (R281, R284): those issued up to a stamp, statistics merges included (R328). -/
def State.mergeBefore (s : State) (ag : Agent) (no pa n : Nat) : Bool :=
  s.merges.any (fun m => m.parties.any (fun q => decide (q.agent = ag) && decide (q.no ≤ no)) && overlap m.loc.pa m.size pa n) ||
  s.recordMerges.any (fun m => decide (m.agent = ag) && decide (m.no ≤ no) && !m.lost && overlap m.loc.pa 128 pa n)

/-- Merges of an agent, issued so far, that bytes overlap. -/
def State.mergeOverlap (s : State) (ag : Agent) (pa n : Nat) : Bool := s.mergeBefore ag s.stamp pa n

/-- Whether a pending access of an agent must perform before a later one of its `n` bytes at `pa` (R284, R290). -/
def State.precedes (s : State) (e : Access) (b : OrderKey) (pa n : Nat) (sameClass : Bool) : Bool :=
  overlap e.loc.pa e.size pa n || (decide (e.cls = b.cls) && sameClass) || s.fencedBefore e.agent e.placed b

/-- Whether an access must still wait for earlier ones of its agent; accesses that lost their answer bind nothing (R403). -/
def State.mustWait (s : State) (a : Access) : Bool :=
  s.pending.any (fun e => decide (e.agent = a.agent) && decide (e.no < a.no) && !e.lost &&
    (orderedBefore e a || s.fencedBefore a.agent e.placed a.placed)) ||
  s.mergeBefore a.agent a.no a.loc.pa a.size

/-! ## Performing -/

/-- The value a loaded number gives its register (R120). -/
def extendTo (bytes : Nat) (signed : Bool) (v : Nat) : Word :=
  if signed then BitVec.ofInt 64 (signedOf (8 * bytes) v) else BitVec.ofNat 64 (v % 2 ^ (8 * bytes))

/-- Write what a load or atomic returns (R120, R147). -/
def Core.putLoad (k : Core) (d : LoadDest) (v : Nat) : Core :=
  match d with
  | .none => k
  | .x r n sg => k.putX r (extendTo n sg v)
  | .f r n => k.putF r (extendTo n false v)
  | .pair r => (k.putX r (BitVec.ofNat 64 v)).putX (r + 1) (BitVec.ofNat 64 (v / 2 ^ 64))

/-- Whether a location lies on a read-only-cacheable window page (R99). -/
def State.isStale (s : State) (l : Loc) : Bool := l.cp = 2 && (s.remote? l.pa).isSome

/-- A line of a window page as a read through a slot fetches it from its home (R99): its bytes, and which of its 8-byte units are poisoned. -/
def State.homeLine (s : State) (slot : Option Nat) (line : Nat) : CacheLine :=
  { slot := slot, data := s.bytesAt slot (64 * line) 64, poison := (rangeFrom 0 8).filter (fun u => s.poison.has (8 * line + u)) }

/-- The line that a cache returns for a slot (R96). -/
def hitLine (m : AMap CacheLine) (slot : Option Nat) (line : Nat) : Option CacheLine :=
  match m.find? line with
  | some c => if c.stale && c.slot = slot then some c else none
  | none => none

/-- The line that a read would meet, in the control core's data cache if the reader is one, then in the bay's L2, then at home. -/
def State.lineSeen (s : State) (core : Option Nat) (bay : Nat) (slot : Option Nat) (line : Nat) : CacheLine :=
  match (match core with
    | some c => hitLine (s.core c).dcache slot line
    | none => none) with
  | some c => c
  | none => (hitLine (s.bay bay).l2 slot line).getD (s.homeLine slot line)

/-- A line that no cache holds is fetched with packets of its own (R401). -/
def State.fetchedLine (s : State) (core : Option Nat) (bay : Nat) (slot : Option Nat) (line : Nat) : State :=
  let inL1 : Bool := match core with
    | some c => (hitLine (s.core c).dcache slot line).isSome
    | none => false
  if inL1 || (hitLine (s.bay bay).l2 slot line).isSome then s else s.sent (64 * line) 64

/-- The caches keep a line that they have returned (R78, R94). -/
def State.keepLine (s : State) (core : Option Nat) (bay line : Nat) (c : CacheLine) : State :=
  let s := if bay < homeBay && (hitLine (s.bay bay).l2 c.slot line).isNone then
      s.setBay bay { s.bay bay with l2 := cachePut l2Lines (s.bay bay).l2 line c }
    else s
  match core with
  | some k =>
    if (hitLine (s.core k).dcache c.slot line).isNone then
      s.setCore k { s.core k with dcache := cachePut l1Lines (s.core k).dcache line c }
    else s
  | none => s

/-- The slot that a read sees a byte under: a shared-clear read that hits a line of the bay's L2 receives its plaintext (R96). -/
def State.seenSlot (s : State) (bay : Nat) (l : Loc) (pa : Nat) : Option Nat :=
  match l.slot, (s.bay bay).l2.find? (pa / 64) with
  | none, some c => if s.cached l then c.slot else none
  | o, _ => o

/-- The bytes a read through the caches returns: `core` is that of a control core's own read, which has a data cache. A read-only-cacheable
window page may serve lines fetched earlier, and keeps what it fetches (R99). -/
def State.fetchLoc (s : State) (core : Option Nat) (bay : Nat) (l : Loc) (n : Nat) : State × List Byte :=
  if s.isStale l then
    let s := s.closeAccums l.pa n
    let got := (linesOf l.pa n).map (fun u => (u, s.lineSeen core bay l.slot u))
    (got.foldl (fun s e => (s.fetchedLine core bay l.slot e.1).keepLine core bay e.1 e.2) s,
      (rangeFrom l.pa n).map (fun a => match got.find? (fun e => decide (e.1 = a / 64)) with
        | some e => (nth? e.2.data (a % 64)).getD 0
        | none => 0))
  else
    let s := s.closeAccums l.pa n
    (s, if l.slot.isSome || (s.bay bay).l2.isEmpty then s.bytesAt l.slot l.pa n
      else (rangeFrom l.pa n).map (fun a => s.byteAt (s.seenSlot bay l a) a))

/-- Whether the bytes that a read through the caches would return are poisoned (R426). -/
def State.readPoisoned (s : State) (core : Option Nat) (bay : Nat) (l : Loc) (n : Nat) : Bool :=
  if s.isStale l then
    (rangeFrom (l.pa / 8) ((l.pa + n - 1) / 8 - l.pa / 8 + 1)).any (fun u => (s.lineSeen core bay l.slot (u / 8)).poison.contains (u % 8))
  else s.poisoned l.pa n

/-- The deferred data trap of an access (R434). -/
def Access.trap (a : Access) (code : Nat) : Trap :=
  { kind := 0, code := code, info := BitVec.ofNat 64 (2 ^ 12), addr := a.va, seq := none, rank := a.no, deferred := true }

/-- Raise an access's deferred data trap at its peg; the two halves of one 16-byte access (R101) raise one. -/
def State.deferTrap (s : State) (a : Access) (code : Nat) : State :=
  match a.agent with
  | .peg id =>
    (match s.pegs.find? id with
    | some p => if p.pending.any (fun t => t.deferred && decide (t.rank = a.no)) then s else s.pend id (a.trap code)
    | none => s)
  | _ => s

/-- Perform an access at home (R282, R283, R426): a poisoned unit that it reads takes cause 0x1B, deferred (R434); one that has taken cause 0x1C for want
of an answer raises nothing more and returns nothing (R403). -/
def State.performHere (s : State) (a : Access) : State :=
  match a.kind with
  | .load d =>
    if s.readPoisoned (some a.core) (s.bayOf a.core) a.loc a.size then s.deferTrap a 0x1B
    else
      let r := s.fetchLoc (some a.core) (s.bayOf a.core) a.loc a.size
      if a.lost then r.1 else r.1.setCore a.core ((r.1.core a.core).putLoad d (leNat r.2))
  | .store data => (s.writeLoc a.loc data).cacheLines (s.bayOf a.core) a.loc a.size
  | .amo op b d =>
    if s.poisoned a.loc.pa a.size then (if a.lost then s else s.deferTrap a 0x1B)
    else
      let r := s.readLoc a.loc a.size
      let old := leNat r.2
      let s := r.1.writeLoc a.loc (leBytes a.size (aop op a.size old b.toNat))
      if a.lost then s else s.setCore a.core ((s.core a.core).putLoad d old)
  | .cas e n d =>
    if s.poisoned a.loc.pa a.size then (if a.lost then s else s.deferTrap a 0x1B)
    else
      let r := s.readLoc a.loc a.size
      let old := leNat r.2
      let s := if old = e.toNat % 2 ^ (8 * a.size) then r.1.writeLoc a.loc (leBytes a.size n.toNat) else r.1.dropLines a.loc.pa a.size
      if a.lost then s else s.setCore a.core ((s.core a.core).putLoad d old)

/-- An access meets its home (R81): it performs, or the home refuses it and cause 0x1C is deferred. -/
def State.perform (s : State) (a : Access) : State :=
  match s.answer a.loc.pa a.size with
  | .refused => if a.lost then s else s.deferTrap a 0x1C
  | _ => s.performHere a

/-- Whether an access can meet its home now: it answers, no sill unit locks it out, and no earlier access must perform first. -/
def State.canPerform (s : State) (a : Access) : Bool :=
  !(s.answer a.loc.pa a.size = .silent) && !s.lockedOut a.loc.pa a.size && !s.mustWait a

/-- Issue an access (R146): it performs at once, or stays pending when the turn defers it or it cannot perform yet. -/
def State.issue (s : State) (a : Access) : State :=
  if !s.defer && s.canPerform a then s.perform a else { s with pending := s.pending ++ [a] }

/-! ## Stalls -/

/-- The agent of the running peg. -/
def State.myAgent (s : State) : Agent :=
  match s.pegId with
  | some p => .peg p
  | none => .remote s.mgmt.config.pkg

/-- Whether class `c` is in a class mask. -/
def inMask (mask : BitVec 16) (c : Nat) : Bool := mask.getLsbD c

/-- Every class. -/
def allClasses : BitVec 16 := 0xFFFF

/-- Whether an agent has a pending access of the covered classes that `p` selects. -/
def State.owes (s : State) (ag : Agent) (mask : BitVec 16) (p : AccessKind → Bool) : Bool :=
  s.pending.any (fun a => decide (a.agent = ag) && !a.lost && inMask mask a.cls && p a.kind)

/-- Whether the command with an issue stamp is incomplete (R182): it stands in a journal, or in the core frame of a pre-empted peg (R365). -/
def State.incomplete (s : State) (no : Nat) : Bool :=
  s.cores.any (fun e => e.2.journal.any (fun c => decide (c.no = no))) ||
  s.pegs.any (fun e => match e.2.coreFrame with
    | some f => f.cmds.any (fun c => decide (c.no = no))
    | none => false)

/-- A sill unit's own merges bind no peg (R289). -/
def Agent.isSill : Agent → Bool
  | .sill _ => true
  | _ => false

/-- Whether the command that a merge belongs to, if one, has completed. -/
def State.completed (s : State) (cmd : Option Nat) : Bool :=
  match cmd with
  | none => true
  | some n => !s.incomplete n

/-- Whether a release of a peg over the classes waits for a merge (R289): a merge of its own, or one of a command of its that has
completed, scribe merges included (R328). -/
def State.mergesOwed (s : State) (id : Nat) (mask : BitVec 16) : Bool :=
  s.merges.any (fun m => m.parties.any (fun q => decide (q.peg = id) && inMask mask q.cls && s.completed q.cmd)) ||
  s.recordMerges.any (fun m => decide (m.peg = id) && !m.agent.isSill && !m.lost && inMask mask m.cls && s.completed m.cmd)

/-- Whether a scope waits for merges (R289): PKG and SYS. -/
def scopeAcks (scope : Nat) : Bool := decide (3 ≤ scope)

/-- The scope in ORD.SCOPE of the running peg (R111). -/
def State.ordScope (s : State) : Nat := (s.me.regs.ordScope.extractLsb' 0 3).toNat

/-- Whether a release of the running peg at a scope over the classes must still wait for merges (R289). -/
def State.ackWaits (s : State) (scope : Nat) (mask : BitVec 16) : Bool :=
  scopeAcks scope && match s.pegId with
    | some id => s.mergesOwed id mask
    | none => false

/-- Whether a release of the running peg that is no access, at a scope over the classes, must still wait (R288, R289). -/
def State.releaseWaits (s : State) (scope : Nat) (mask : BitVec 16) : Bool :=
  s.owes s.myAgent mask (fun _ => true) || s.ackWaits scope mask

/-- Whether a merge has failed for its issuers: its home refuses it, or has not answered for 100 µs (R403). -/
def State.mergeFailed (s : State) (l : Loc) (n sent : Nat) : Bool :=
  match s.answer l.pa n with
  | .refused => true
  | .silent => decide (s.elapsed ≥ sent + 100000)
  | .here => false

/-- A merge of the running peg, covered, that has failed: the release that waits takes cause 0x1C with the merge's address (R403). -/
def State.mergeTimeout (s : State) (mask : BitVec 16) : Option Word :=
  match s.pegId with
  | none => none
  | some id =>
    let mine (m : Merge) : Option Word :=
      if s.mergeFailed m.loc m.size m.sent then
        (List.find? (fun (q : Party) => decide (q.peg = id) && inMask mask q.cls) m.parties).map Party.va
      else none
    match nth? (s.merges.filterMap mine) 0 with
    | some va => some va
    | none => (List.find? (fun (m : RecordMerge) => decide (m.peg = id) && !m.agent.isSill && !m.lost && inMask mask m.cls &&
        s.mergeFailed m.loc 128 m.sent) s.recordMerges).map RecordMerge.va

/-- The failed merges at that address stop being waited for by a peg: one that is refused is gone; one without an answer may still
perform, once, or never (R403). -/
def State.loseMerges (s : State) (id : Nat) (va : Word) : State :=
  let gone (l : Loc) (n : Nat) : Bool := s.answer l.pa n = .refused
  { s with
    merges := s.merges.filterMap (fun m =>
      if !s.mergeFailed m.loc m.size m.sent then some m
      else
        let m := { m with parties := m.parties.filter (fun q => !(decide (q.peg = id) && decide (q.va = va))) }
        if gone m.loc m.size && m.parties.isEmpty then none else some m)
    recordMerges := s.recordMerges.filterMap (fun m =>
      if m.peg = id && m.va = va && s.mergeFailed m.loc 128 m.sent then
        (if gone m.loc 128 then none else some { m with lost := true })
      else some m) }

/-- A release waits: for merges, one of which may have failed (R289, R403). -/
def State.awaitAcks (s : State) (scope : Nat) (mask : BitVec 16) : Result :=
  match (if scopeAcks scope then s.mergeTimeout mask else none), s.pegId with
  | some va, some id => (s.loseMerges id va).trapAt 0x1C va
  | _, _ => s.stay

/-- Wait for a release of the running peg that is no access, then go on with `k` (R288, R289, R403). -/
def State.release (s : State) (scope : Nat) (mask : BitVec 16) (k : State → Result) : Result :=
  if s.releaseWaits scope mask then s.awaitAcks scope mask else k s

/-- Wait only for the merges that a release waits for (R289), then go on with `k`: what a release write and a fence do, which class order and
fences keep behind the accesses before them. -/
def State.ackThen (s : State) (scope : Nat) (mask : BitVec 16) (k : State → Result) : Result :=
  if s.ackWaits scope mask then s.awaitAcks scope mask else k s

/-- A fence that has accesses of its agent still before it is kept; those that have none any more are not (R290). -/
def State.fence (s : State) (ord : Nat) (mask : BitVec 16) : State :=
  let live (f : Fence) : Bool := s.pending.any (fun e => decide (e.agent = f.agent) && decide (e.no < f.no) && !e.lost)
  let f : Fence := { agent := s.myAgent, no := s.stamp, ord := ord, mask := mask }
  if live f then { s with stamp := s.stamp + 1, fences := s.fences.filter live ++ [f] } else s

/-- What an instruction that waits for its own data finds at home (R434): MWAIT, DESC.LD, scribe and record accesses. -/
inductive Probe where
  | ready
  | stall (s : State)
  | fault (code : Nat)
  deriving Repr

/-- Whether an access of class `cls` that an instruction makes and waits for must wait for an earlier one of its peg (R284). -/
def State.waitsFor (s : State) (l : Loc) (n cls : Nat) (need : Need) : Bool :=
  let writes : Bool := need = .write || need = .both
  s.pending.any (fun a => decide (a.agent = s.myAgent) && !a.lost &&
    s.precedes a { no := s.stamp, cls := cls, reads := need != .write, writes := writes, sc := false } l.pa n
      (a.kind.isRead || a.kind.isAtomic || writes))

/-- Probe `n` bytes of a location for the running peg, in a class; `reads` when the data is needed. -/
def State.probe (s : State) (l : Loc) (n cls : Nat) (need : Need) (reads : Bool) : Probe :=
  if s.lockedOut l.pa n || s.waitsFor l n cls need || s.mergeOverlap s.myAgent l.pa n then .stall s
  else match s.answer l.pa n with
    | .refused => .fault 0x1C
    | .silent =>
      match s.me.asked with
      | none => .stall (s.setMe { s.me with asked := some s.elapsed })
      | some t => if s.elapsed ≥ t + 100000 then .fault 0x1C else .stall s
    | .here =>
      let bad := if need.throughL2 then s.readPoisoned (some s.cur) s.myBay l n else s.poisoned l.pa n
      if reads && bad then .fault 0x1B else .ready

/-- The instruction waits no longer. -/
def State.heard (s : State) : State := s.setMe { s.me with asked := none }

/-- A checked access of the running peg to its own data (R135, R434): translate, wait for the home, then go on with the location. A
failing check traps at the address. -/
def State.withLoc (s : State) (va : Word) (size align cls : Nat) (need : Need) (reads : Bool) (k : State → Loc → Result) :
    Result :=
  if va.toNat % align ≠ 0 then s.trapAt 0x05 va
  else match s.translate s.myBay s.myBent va need with
    | .error c => s.trapAt c va
    | .ok l => match s.probe l size cls need reads with
      | .stall s => s.stay
      | .fault c => s.heard.trapAt c va
      | .ready => k (s.heard.touched s.myBay s.myBent va l size need) l

end Sys2Proof.Machine
end

