-- ==== Sys2Proof/Machine/Operands.lean ====
section
/-! DEFINITION. Operand forms: addresses (R114, R145), rounding modes of control-core instructions (R55), the registers an
instruction uses, and the accesses that loads, stores and atomics make. -/

namespace Sys2Proof.Machine

/-- The address of a MEM operand: x[XA] + SignExt(OFF, 10) × size (R114, R145). -/
def memAddr (s : State) (a : RegNo) (off : BitVec 10) (size : Nat) : Word :=
  s.getX a + off.signExtend 64 * BitVec.ofNat 64 size

/-- The target of a branch (R114, R140). -/
def brTarget (pc : Word) (off : BitVec 16) : Word := pc + 4 * off.signExtend 64

/-- The target of a jump (R114, R140). -/
def jTarget (pc : Word) (off : BitVec 26) : Word := pc + 4 * off.signExtend 64

/-- The rounding mode of a control-core instruction: RM 0b11 takes RND.DEF, where stochastic rounding becomes RNE (R55). -/
def State.coreRm (s : State) (m : BitVec 2) : RMode :=
  match RMode.ofField m (s.me.regs.rndDef.extractLsb' 0 2) with
  | .sr => .rne
  | r => r

/-- The memory operation that AOP names (R121). -/
def aopOf (p : BitVec 4) : MergeOp :=
  match p with
  | 0x0#4 => .add
  | 0x1#4 => .fadd
  | 0x2#4 => .bfadd2
  | 0x3#4 => .min
  | 0x4#4 => .max
  | 0x5#4 => .minn
  | 0x6#4 => .maxn
  | 0x7#4 => .fmin
  | 0x8#4 => .fmax
  | 0x9#4 => .and
  | 0xA#4 => .or
  | 0xB#4 => .xor
  | _ => .swap

/-- Whether Extend sign-extends the old value of an operation (R147). -/
def aopSigned (op : MergeOp) : Bool :=
  match op with
  | .fadd | .bfadd2 | .fmin | .fmax | .minn | .maxn => false
  | _ => true

/-- The orders of R120 and R121: whether a code includes release. -/
def ordReleases (o : BitVec 2) : Bool := o == 0b10 || o == 0b11

/-- The accesses of an instruction: what each does and how far from the instruction's address (R101). They share one stamp, so nothing orders
one of them before another. -/
abbrev Units := List (AccessKind × Nat × Nat)

/-- Issue the accesses of the executing instruction. -/
def State.accessAll (s : State) (cls : BitVec 4) (o : BitVec 2) (us : Units) (va : Word) (l : Loc) : State :=
  us.foldl (fun t u => t.issue
    { no := s.stamp, agent := s.myAgent, core := s.cur, bent := s.myBent, cls := cls.toNat, ord := o.toNat, kind := u.1
      va := va, loc := { l with pa := l.pa + u.2.1 }, size := u.2.2, sent := s.elapsed, lost := false }) { s with stamp := s.stamp + 1 }

/-- A data access of the executing instruction (R135, R145): checked over `size` bytes, then issued; one that releases first waits for merges
(R289). -/
def State.dataUnits (s : State) (va : Word) (size : Nat) (need : Need) (cls : BitVec 4) (o : BitVec 2) (us : Units) : Result :=
  match s.access s.myBay s.myBent va size need with
  | .error c => s.trapAt c va
  | .ok l =>
    let go (s : State) : Result := .next ((s.touched s.myBay s.myBent va l size need).accessAll cls o us va l).skip
    if ordReleases o && !(need = .read) then s.ackThen s.ordScope (BitVec.ofNat 16 (2 ^ cls.toNat)) go else go s

/-- A data access that is one single-copy-atomic unit (R100, R101). -/
def State.dataAccess (s : State) (va : Word) (size : Nat) (need : Need) (cls : BitVec 4) (o : BitVec 2)
    (kind : AccessKind) : Result := s.dataUnits va size need cls o [(kind, 0, size)]

/-- A load (R145). -/
def State.load (s : State) (va : Word) (size : Nat) (cls : BitVec 4) (o : BitVec 2) (d : LoadDest) : Result :=
  s.dataAccess va size .read cls o (.load d)

/-- A store (R145). -/
def State.store (s : State) (va : Word) (size : Nat) (cls : BitVec 4) (o : BitVec 2) (v : Nat) : Result :=
  s.dataAccess va size .write cls o (.store (leBytes size v))

/-- Whether a register is an outstanding load's destination (R146). -/
def LoadDest.usesX (d : LoadDest) (r : RegNo) : Bool :=
  match d with
  | .x q _ _ => q == r && r != 0
  | .pair q => (q == r || q + 1 == r) && r != 0
  | _ => false

def LoadDest.usesF (d : LoadDest) (r : RegNo) : Bool :=
  match d with
  | .f q _ => q == r
  | _ => false

/-- The destination of a pending access, if data is still to come. -/
def AccessKind.dest : AccessKind → LoadDest
  | .load d => d
  | .amo _ _ d => d
  | .cas _ _ d => d
  | .store _ => .none

/-- The x registers an instruction reads or writes (R146): all that its fields name in the x file. -/
def xRegs : Instr → List RegNo
  | .add d a b | .sub d a b | .and d a b | .or d a b | .xor d a b | .sll d a b | .srl d a b | .sra d a b => [d, a, b]
  | .slt d a b | .sltN d a b | .min d a b | .max d a b | .minN d a b | .maxN d a b | .ror d a b => [d, a, b]
  | .clz d a | .ctz d a | .popc d a => [d, a]
  | .addW d a b | .subW d a b | .mul d a b | .mulh d a b | .mulhN d a b => [d, a, b]
  | .div d a b | .divN d a b | .rem d a b | .remN d a b => [d, a, b]
  | .addi d a _ | .andi d a _ | .ori d a _ | .xori d a _ | .slti d a _ | .sltiN d a _ => [d, a]
  | .slli d a _ | .srli d a _ | .srai d a _ | .rori d a _ => [d, a]
  | .lui d _ | .lpc d _ => [d]
  | .feqF64 d _ _ | .fltF64 d _ _ | .fleF64 d _ _ | .feqF32 d _ _ | .fltF32 d _ _ | .fleF32 d _ _ => [d]
  | .fclassF64 d _ | .fclassF32 d _ => [d]
  | .cvtF64I64 _ a _ | .cvtF64N64 _ a _ | .cvtF32I64 _ a _ | .cvtF32N64 _ a _ => [a]
  | .cvtI64F64 d _ _ | .cvtN64F64 d _ _ | .cvtI64F32 d _ _ | .cvtN64F32 d _ _ => [d]
  | .fmvX d _ => [d]
  | .fmvF _ a => [a]
  | .ldB d a _ _ _ | .ldH d a _ _ _ | .ldW d a _ _ _ | .ldD d a _ _ _ => [d, a]
  | .ldBn d a _ _ _ | .ldHn d a _ _ _ | .ldWn d a _ _ _ => [d, a]
  | .ldFw _ a _ _ _ | .ldFd _ a _ _ _ => [a]
  | .ldA16 d a _ _ _ | .ldV16 d a _ _ _ => [d ++ 0#1, d ++ 1#1, a]
  | .stB r a _ _ _ | .stH r a _ _ _ | .stW r a _ _ _ | .stD r a _ _ _ => [r, a]
  | .stFw _ a _ _ _ | .stFd _ a _ _ _ => [a]
  | .stA16 r a _ _ _ | .stV16 r a _ _ _ => [r ++ 0#1, r ++ 1#1, a]
  | .amoW d a b _ _ _ _ | .amoD d a b _ _ _ _ | .casW d a b _ _ | .casD d a b _ _ => [d, a, b]
  | .beq a b _ | .bne a b _ | .blt a b _ | .bge a b _ | .bltN a b _ | .bgeN a b _ => [a, b]
  | .jal _ => [31]
  | .jalr d a _ => [d, a]
  | .gets d _ => [d]
  | .puts a _ => [a]
  | .mwait d a => [d, a, 3, 10, 11, 12, 13]
  | .phwait d _ => [d, 3, 10, 11, 12, 13]
  | .semsig a _ | .semwait a _ => [a]
  | .semwaitS a _ => [a, 3, 10, 11, 12, 13]
  | .semrd d _ => [d]
  | .spawn d a | .bentNew d a | .enq d a => [d, a]
  | .join | .yield => [3, 10, 11, 12, 13]
  | .bentKill a => [a]
  | .scrbInit a _ => [a]
  | .scrbNext d a | .scrbRd d a _ | .qscalePow2 d a _ _ _ | .qscaleExact d a _ _ _ _ => [d, a]
  | .est d a _ | .eld d a _ => [d, a]
  | .tlbi a | .kunlock a | .jdrop a => [a]
  | .klock d a => [d, a]
  | .tstamp d => [d]
  | .ecall _ => [10, 11]
  | .sbank _ a _ => [a]
  | .salloc _ a b _ | .sfree _ a b _ | .finSet a b _ | .sillLoad _ a b _ | .sillGo a b _ | .jrnlRd a b => [a, b]
  | .krun _ a _ | .coll _ a _ | .collAbt _ a _ => [a]
  | .descLd _ _ b => [b]
  | _ => []

/-- The f registers an instruction reads or writes. -/
def fRegs : Instr → List RegNo
  | .faddF64 d a b _ | .fsubF64 d a b _ | .fmulF64 d a b _ | .fdivF64 d a b _ | .fmaF64 d a b _ => [d, a, b]
  | .faddF32 d a b _ | .fsubF32 d a b _ | .fmulF32 d a b _ | .fdivF32 d a b _ | .fmaF32 d a b _ => [d, a, b]
  | .fsqrtF64 d a _ | .fsqrtF32 d a _ => [d, a]
  | .fminF64 d a b | .fmaxF64 d a b | .fminF32 d a b | .fmaxF32 d a b => [d, a, b]
  | .fabsF64 d a | .fnegF64 d a | .fabsF32 d a | .fnegF32 d a => [d, a]
  | .feqF64 _ a b | .fltF64 _ a b | .fleF64 _ a b | .feqF32 _ a b | .fltF32 _ a b | .fleF32 _ a b => [a, b]
  | .fclassF64 _ a | .fclassF32 _ a => [a]
  | .cvtF64I64 d _ _ | .cvtF64N64 d _ _ | .cvtF32I64 d _ _ | .cvtF32N64 d _ _ => [d]
  | .cvtI64F64 _ a _ | .cvtN64F64 _ a _ | .cvtI64F32 _ a _ | .cvtN64F32 _ a _ => [a]
  | .cvtF64F32 d a | .cvtF32F64 d a _ => [d, a]
  | .fmvX _ a => [a]
  | .fmvF d _ => [d]
  | .ldFw d _ _ _ _ | .ldFd d _ _ _ _ => [d]
  | .stFw r _ _ _ _ | .stFd r _ _ _ _ => [r]
  | _ => []

/-- Whether an instruction stalls for a register whose load data is outstanding on the acting core (R146, R434). -/
def State.registerWait (s : State) (i : Instr) : Bool :=
  s.pending.any (fun a => decide (a.core = s.cur) && decide (a.agent = s.myAgent) && !a.lost &&
    ((xRegs i).any a.kind.dest.usesX || (fRegs i).any a.kind.dest.usesF))

end Sys2Proof.Machine
end

