-- ==== Sys2Proof/Machine/Boundary.lean ====
section
/-! DEFINITION. Instruction fetch (R112, R136, R97) and the order of acts at an instruction boundary (R357). -/

namespace Sys2Proof.Machine

/-- What a fetch of one word finds. -/
inductive FetchedWord where
  | word (s : State) (w : Word32)
  | fault (code : Nat) (va : Word)
  | stall
  deriving Repr

/-- The instruction cache keeps a word: 32 KiB at most (R16); the word with the lowest address makes room (log 91). -/
def keepWord (m : AMap Word32) (pa : Nat) (w : Word32) : AMap Word32 :=
  if 8192 ≤ m.length && !m.has pa then AMap.put (m.drop 1) pa w else m.put pa w

/-- Fetch one word through the core's instruction cache (R97, R136): a word the cache holds that memory no longer holds may be
returned old or new, by a free value. -/
def State.fetchWord (s : State) (va : Word) : FetchedWord :=
  match s.access s.myBay s.myBent va 4 .exec with
  | .error c => .fault c va
  | .ok l =>
    if s.lockedOut l.pa 4 then .stall
    else match s.answer l.pa 4 with
      | .refused => .fault 0x1C va
      | .silent =>
        match s.me.fetchAsked with
        | some t => if s.elapsed ≥ t + 100000 then .fault 0x1C va else .stall
        | none => .stall
      | .here =>
        if s.readPoisoned none s.myBay l 4 then .fault 0x1B va
        else
          let r := (s.touched s.myBay s.myBent va l 4 .exec).fetchLoc none s.myBay l 4
          let w : Word32 := BitVec.ofNat 32 (leNat r.2)
          let s := r.1
          match s.me.icache.find? l.pa with
          | none => .word (s.setMe { s.me with icache := keepWord s.me.icache l.pa w }) w
          | some old =>
            if old = w then .word s w
            else if (Config.freeWord s.free).getLsbD 0 then .word { s with free := s.free + 1 } old
            else
              let s := { s with free := s.free + 1 }
              .word (s.setMe { s.me with icache := keepWord s.me.icache l.pa w }) w

/-- What the fetch of an instruction finds. -/
inductive Fetched where
  | instr (s : State) (i : Instr)
  | illegal (s : State)
  | fault (code : Nat) (va : Word)
  | stall
  deriving Repr

/-- The decoded instruction, or none. -/
def Fetched.ofDecode (s : State) : Except Reject Instr → Fetched
  | .ok i => .instr s i
  | .error _ => .illegal s

/-- Fetch and decode the instruction at the pc of the acting core (R112): a long instruction's second word follows. -/
def State.fetch (s : State) : Fetched :=
  match s.fetchWord s.pc with
  | .fault c va => .fault c va
  | .stall => .stall
  | .word s1 w0 =>
    if Decode.isLong w0 then
      match s1.fetchWord (s.pc + 4) with
      | .fault c va => .fault c va
      | .stall => .stall
      | .word s2 w1 => Fetched.ofDecode s2 (Decode.accept (Decode.long w0 w1))
    else Fetched.ofDecode s1 (Decode.short w0)

/-- What an instruction boundary comes to: nothing runs, or an instruction or event runs from a state. -/
inductive Boundary where
  | idle (s : State)
  | run (s : State) (i : Instr)
  deriving Repr

/-- Whether the running peg's bent is draining (R357 (1)). -/
def State.draining (s : State) : Bool :=
  match s.bents.find? s.myBent with
  | some b => b.drain
  | none => false

/-- Whether the running peg still has accesses of its own pending. -/
def State.outstanding (s : State) : Bool := s.pending.any (fun a => decide (a.agent = s.myAgent) && !a.lost)

/-- A merge that a pre-emption waits for, and that has failed, is given up; its cause is pending at the peg (R293, R403). -/
def State.failMerges (s : State) (id : Nat) : State :=
  match s.mergeTimeout allClasses with
  | none => s
  | some va => (s.loseMerges id va).pend id
      { kind := 0, code := 0x1C, info := BitVec.ofNat 64 (2 ^ 12), addr := va, seq := none, rank := s.stamp, deferred := true }

/-- The fetch has been answered. -/
def State.fetched (s : State) : State := if s.me.fetchAsked.isSome then s.setMe { s.me with fetchAsked := none } else s

/-- The instruction boundary of the acting core (R357): kill, then pre-emption, which waits as a seq-cst fence at PKG (R293), then the oldest pending trap, then the instruction at
the pc. A fetch that fails or decodes to nothing runs as the event that reports it. -/
def State.boundary (s : State) : Boundary :=
  match s.pegId, s.peg? with
  | some id, some p =>
    if s.me.halted then .idle s
    else if s.draining then .run s (.kill id)
    else if s.me.preempt.isSome then
      if s.releaseWaits 3 allClasses then .idle (s.failMerges id)
      else .idle (s.setMe { s.me with halted := true, spin := none, asked := none })
    else if !hact s.me.regs.trapCause && !p.pending.isEmpty then
      match oldestTrap s.me.jnext p.pending with
      | some t => if t.deferred then .run s .deferredDataTrap else .run s .trapDelivery
      | none => .idle s
    else match s.fetch with
      | .fault _ _ => .run s .instructionFetchFault
      | .illegal s' => .run s' .illegalInstruction
      | .stall => .idle (if s.me.fetchAsked.isNone then s.setMe { s.me with fetchAsked := some s.elapsed } else s)
      | .instr s' i => if s'.fetched.registerWait i then .idle s'.fetched else .run s'.fetched i
  | _, _ => .idle s

end Sys2Proof.Machine
end

