-- ==== Sys2Proof/Machine/Clock.lean ====
section
/-! DEFINITION. Time: how the clocks of the module advance, and PTP time reception (R414). -/

namespace Sys2Proof.Machine

/-- Nanoseconds per nanosecond of slewing at 200 ppm (R414). -/
def slewEvery : Nat := 5000

/-- `dt` nanoseconds and `dclk` core clocks pass: the timestamp follows, with a correction of at most 200 ppm, how much of it being free
(R414, log 28). -/
def State.passTime (s : State) (dt dclk : Nat) : State :=
  let p := s.ptp
  let room := p.slewPart + dt
  let c := if p.slew = 0 then 0 else min (Config.slewTaken s.turns) (min (room / slewEvery) p.slew.natAbs)
  let left : Int := if 0 ≤ p.slew then p.slew - c else p.slew + c
  { s with
    elapsed := s.elapsed + dt, clk := s.clk + dclk
    timestamp := if 0 ≤ p.slew then s.timestamp + dt + c else s.timestamp + (dt - c)
    ptp := { p with slew := left, slewPart := if left = 0 then 0 else room % slewEvery } }

/-- Lexicographic order of data sets, as the default best-master algorithm compares them (R414). -/
def dataSetBefore : List Nat → List Nat → Bool
  | [], [] => false
  | [], _ :: _ => true
  | _ :: _, [] => false
  | a :: t, b :: u => decide (a < b) || (decide (a = b) && dataSetBefore t u)

/-- Nanoseconds after which a silent time transmitter is given up: three announce intervals of 2 s (PRESUMED, log 28). -/
def announceLimit : Nat := 6000000000

/-- Whether the time transmitter in use sent a message. -/
def Ptp.from_ (p : Ptp) (port sender : Nat) : Bool :=
  match p.best with
  | some (_, q, n) => decide (q = sender) && decide (n = port)
  | none => false

/-- Ask for the delay (R414) once a Sync's origin time is known. -/
def State.askDelay (s : State) (port seqId origin : Nat) : State :=
  { s with
    ptp := { s.ptp with origin := some origin, delaySent := some (seqId, s.timestamp) }
    outbox := s.outbox ++ [.delayReq port seqId] }

/-- The offset from PTP time has been measured (R414): `err` is how far PTP time is ahead. The first lock steps forward or slews; later
corrections are slewed. -/
def State.correct (s : State) (err : Int) : State :=
  let p := { s.ptp with locked := true, syncAt := none, origin := none, delaySent := none }
  if !s.ptp.locked && decide (0 < err) then
    { s with timestamp := s.timestamp + err.toNat, ptp := { p with slew := 0, slewPart := 0 } }
  else { s with ptp := { p with slew := err, slewPart := 0 } }

/-- PTP_MESSAGE (R414). -/
def execPtpMessage (m : PtpMessage) (s : State) : Result :=
  let p := s.ptp
  if s.mgmt.phase = .off || s.mgmt.phase = .stopped then s.stay
  else match m with
  | .announce port _ domain sender ds =>
    if domain ≠ s.mgmt.config.ptpDomain then s.stay
    else
      let chosen : Ptp := { p with best := some (ds, sender, port), bestAt := s.elapsed }
      let fresh : Ptp := { chosen with syncAt := none, origin := none, delaySent := none }
      (match p.best with
      | none => .next { s with ptp := fresh }
      | some (d, _, _) =>
        if p.from_ port sender then .next { s with ptp := chosen }
        else if decide (p.bestAt + announceLimit ≤ s.elapsed) || dataSetBefore ds d then .next { s with ptp := fresh }
        else s.stay)
  | .sync port _ domain sender seqId twoStep origin =>
    if domain ≠ s.mgmt.config.ptpDomain || !p.from_ port sender then s.stay
    else
      let t : State := { s with ptp := { p with syncAt := some (seqId, s.timestamp), origin := none, delaySent := none } }
      if twoStep then .next t else .next (t.askDelay port seqId origin)
  | .followUp port _ domain sender seqId origin =>
    if domain ≠ s.mgmt.config.ptpDomain || !p.from_ port sender || p.origin.isSome then s.stay
    else match p.syncAt with
      | some (q, _) => if q = seqId then .next (s.askDelay port seqId origin) else s.stay
      | none => s.stay
  | .delayResp port _ domain sender seqId received =>
    if domain ≠ s.mgmt.config.ptpDomain || !p.from_ port sender then s.stay
    else match p.syncAt, p.origin, p.delaySent with
      | some (a, t2), some t1, some (b, t3) =>
        if a = seqId && b = seqId then
          let off : Int := (((t2 : Int) - t1) - ((received : Int) - t3)) / 2
          .next (s.correct (-off))
        else s.stay
      | _, _, _ => s.stay

end Sys2Proof.Machine
end

