-- ==== Sys2Proof/Machine/Atomic.lean ====
section
/-! DEFINITION. Atomics (R121, R147, R148). -/

namespace Sys2Proof.Machine

/-- Whether merges of a bent at a location are deterministic (R68, R79). -/
def State.detAt (s : State) (b : Nat) (l : Loc) : Bool :=
  l.det || (match s.bents.find? b with
    | some r => r.det
    | none => false)

/-- A merge of the running peg is accepted for performance at home (R147, R289). -/
def State.acceptMerge (s : State) (op : MergeOp) (va : Word) (l : Loc) (size : Nat) (cls : Nat) (operand : Word)
    (release : Bool) : State :=
  { s with
    stamp := s.stamp + 1
    merges := s.merges ++
      [{ parties := [{ no := s.stamp, agent := s.myAgent, peg := s.pegId.getD 0, bent := s.myBent, cmd := none, cls := cls, va := va }]
         op := op, loc := l, size := size, operand := operand, det := s.detAt s.myBent l, release := release
         sent := s.elapsed }] }

/-- A merge atomic (R121, R147): one that carries release waits for nothing here (R289); it performs at home behind every earlier access of its
class (R283, R288). -/
def State.mergeAtomic (s : State) (op : MergeOp) (va : Word) (size : Nat) (cls : BitVec 4) (o : BitVec 2) (operand : Word) :
    Result :=
  match s.access s.myBay s.myBent va size .both with
  | .error c => s.trapAt c va
  | .ok l => .next (((s.install s.myBay s.myBent va).sent l.pa size).acceptMerge op va l size cls.toNat operand (o = 0b10)).skip

/-- An AMO of `size` bytes (R147). -/
def State.amo (s : State) (d a b : RegNo) (p : BitVec 4) (m : BitVec 1) (o : BitVec 2) (c : BitVec 4) (size : Nat) : Result :=
  let op := aopOf p
  let va := s.getX a
  if m = 1 then s.mergeAtomic op va size c o (s.getX b)
  else s.dataAccess va size .both c o
    (.amo op (BitVec.ofNat 64 ((s.getX b).toNat % 2 ^ (8 * size))) (.x d size (aopSigned op)))

/-- A CAS of `size` bytes (R148): compared bit for bit; the old value is sign-extended. -/
def State.compareSwap (s : State) (d a b : RegNo) (o : BitVec 2) (c : BitVec 4) (size : Nat) : Result :=
  s.dataAccess (s.getX a) size .both c o (.cas (s.getX d) (s.getX b) (.x d size true))

/-- R147. -/
def execAmoW (d a b : RegNo) (p : BitVec 4) (m : BitVec 1) (o : BitVec 2) (c : BitVec 4) (s : State) : Result :=
  s.amo d a b p m o c 4

/-- R147. -/
def execAmoD (d a b : RegNo) (p : BitVec 4) (m : BitVec 1) (o : BitVec 2) (c : BitVec 4) (s : State) : Result :=
  s.amo d a b p m o c 8

/-- R148. -/
def execCasW (d a b : RegNo) (o : BitVec 2) (c : BitVec 4) (s : State) : Result := s.compareSwap d a b o c 4

/-- R148. -/
def execCasD (d a b : RegNo) (o : BitVec 2) (c : BitVec 4) (s : State) : Result := s.compareSwap d a b o c 8

end Sys2Proof.Machine
end

