-- ==== Sys2Proof/Machine/Pegs.lean ====
section
/-! DEFINITION. Pegs: their records (R28, R339, R433), suspension (R29, R30, R152), the pool and the overflow queues (R343 to R345),
phasers as members see them (R156 to R158). -/

namespace Sys2Proof.Machine

/-! ## Phasers -/

/-- The phaser `n` of a bay. -/
def Bay.phaser (y : Bay) (n : Nat) : Phaser := y.phasers.get n Phaser.reset

def State.phaser (s : State) (bay n : Nat) : Phaser := (s.bay bay).phaser n

def State.setPhaser (s : State) (bay n : Nat) (p : Phaser) : State :=
  let y := s.bay bay
  s.setBay bay { y with phasers := y.phasers.put n p }

/-- a ≥ b among phases (R156). -/
def phaseGe (a b : BitVec 32) : Bool := decide ((a - b).toNat < 2 ^ 31)

/-- A member that signals (R156). -/
def PhMode.signals : PhMode → Bool
  | .wait => false
  | _ => true

/-- How far every signalling member is ahead of the phase: none without such a member or with one that has not signalled. -/
def signalLead (p : BitVec 32) : List (Member × PhMode × BitVec 32) → Option Nat
  | [] => none
  | (_, m, l) :: t =>
    if m.signals then
      let d := if phaseGe l (p + 1) then (l - p).toNat else 0
      match signalLead p t with
      | none => some d
      | some e => some (if d ≤ e then d else e)
    else signalLead p t

/-- The advance evaluated after an operation (R156, R158). -/
def Phaser.advance (ph : Phaser) : Phaser :=
  match signalLead ph.p ph.members with
  | some d => { ph with p := ph.p + BitVec.ofNat 32 d }
  | none => ph

/-- A member's mode and local phase. -/
def findMember (m : Member) : List (Member × PhMode × BitVec 32) → Option (PhMode × BitVec 32)
  | [] => none
  | (k, v) :: t => if k = m then some v else findMember m t

def Phaser.member (ph : Phaser) (m : Member) : Option (PhMode × BitVec 32) := findMember m ph.members

/-- Set a member's local phase. -/
def Phaser.setL (ph : Phaser) (m : Member) (l : BitVec 32) : Phaser :=
  { ph with members := ph.members.map (fun e => if e.1 = m then (e.1, e.2.1, l) else e) }

/-- PHREG (R157): a signalling member starts at P + 1, a wait member at P. -/
def Phaser.register (ph : Phaser) (m : Member) (mode : PhMode) : Phaser :=
  { ph with members := ph.members ++ [(m, mode, if mode.signals then ph.p + 1 else ph.p)] }.advance

/-- One signal of a member (R157, R346): L := L + 1. -/
def Phaser.signal (ph : Phaser) (m : Member) : Phaser :=
  match ph.member m with
  | some (_, l) => (ph.setL m (l + 1)).advance
  | none => ph

/-- PHDROP (R157): the drop of a signalling member that has not signalled the phase counts as its signal; then the member leaves, and the phase advances
when every signalling member left has signalled (R158). -/
def Phaser.dropMember (ph : Phaser) (m : Member) : Phaser :=
  let ph := match ph.member m with
    | some (mode, l) => if mode.signals && l = ph.p then ph.signal m else ph
    | none => ph
  { ph with members := ph.members.filter (fun e => !(decide (e.1 = m))) }.advance

/-- Drop a member from every phaser of the module (R161, R263, R373). -/
def State.dropEverywhere (s : State) (m : Member) : State :=
  { s with bays := s.bays.map (fun e => (e.1, { e.2 with phasers := e.2.phasers.map (fun q =>
      if (q.2.member m).isSome then (q.1, q.2.dropMember m) else q) })) }

/-- The bay in which a member is registered with some phaser. -/
def State.phaserBay (s : State) (m : Member) : Option Nat :=
  match List.find? (fun (e : Nat × Bay) => e.2.phasers.any (fun q => (q.2.member m).isSome)) s.bays with
  | some e => some e.1
  | none => none

/-- The phaser mode a field codes (R125, R274); 0 is none. -/
def phModeOf (m : BitVec 2) : Option PhMode :=
  match m with
  | 0b01#2 => some .sig
  | 0b10#2 => some .wait
  | 0b11#2 => some .sigwait
  | _ => none

/-- Whether phaser `n` is allocated to a bent (R346). -/
def State.ownsPhaser (s : State) (b n : Nat) : Bool :=
  match s.bents.find? b with
  | some r => decide (r.phBase ≤ n) && decide (n < r.phBase + r.phCnt)
  | none => false

/-! ## Semaphores -/

/-- The count of semaphore `n` of a core (R153). -/
def Core.sem (k : Core) (n : Nat) : Nat := (k.sems.get n 0).toNat

/-- A watch on semaphore `n` that count `v` reaches is sure to set its flag, whatever the count does next (R273). -/
def Context.reach (x : Context) (n v : Nat) : Context :=
  { x with semWatch := x.semWatch.map (fun (e : Nat × Nat × Nat) => if e.2.1 = n ∧ e.2.2 ≤ v then (e.1, n, 0) else e) }

/-- The same for the contexts that pre-emption saved off core `c`. -/
def Peg.reach (p : Peg) (c n v : Nat) : Peg :=
  { p with coreFrame := p.coreFrame.map (fun f => if f.fromCore = c then { f with ctxs := f.ctxs.map (fun x => x.reach n v) } else f) }

/-- Set a count: a peg that waits on that core for a threshold it reaches has its condition met, for good (R153), and so has a
context's watch (R273). -/
def State.setSem (s : State) (c n v : Nat) : State :=
  let k := s.core c
  let s := s.setCore c { k with sems := k.sems.put n (BitVec.ofNat 16 v), ctxs := k.ctxs.map (fun x => x.reach n v) }
  { s with pegs := s.pegs.map (fun e => (e.1, match e.2.wait with
      | some (.sem m thr) => if e.2.core = c && m = n && thr ≤ v then { e.2.reach c n v with met := true } else e.2.reach c n v
      | _ => e.2.reach c n v)) }

/-- Add to a count; none when the sum would leave 0 to 65 535 (R153). -/
def State.addSem (s : State) (c n : Nat) (d : Int) : Option State :=
  let v : Int := ((s.core c).sem n : Int) + d
  if v < 0 ∨ 65535 < v then none else some (s.setSem c n v.toNat)

/-! ## Records -/

/-- The code of a state in a record (R339). -/
def PegState.code : PegState → Nat
  | .ready => 1
  | .running => 2
  | .waiting => 3

/-- The STATE word of a record (R28). -/
def stateWord (st : Nat) (pin psave : Bool) (core : Nat) : Nat :=
  st + (if pin then 2 ^ 4 else 0) + (if psave then 2 ^ 5 else 0) + core * 2 ^ 16

/-- Replace `n` bytes at an offset of a list of bytes. -/
def patch (data : List Byte) (off : Nat) (new : List Byte) : List Byte :=
  data.take off ++ new ++ data.drop (off + new.length)

/-- The location of a peg's record under its bent (R433), or the cause of the failing check. -/
def State.recordLoc (s : State) (bay : Nat) (p : Peg) (need : Need) : Except Nat Loc :=
  match s.access bay p.bent p.recAddr 64 need with
  | .error c => .error c
  | .ok l =>
    match s.answer l.pa 64 with
    | .here => if s.poisoned l.pa 64 then .error 0x1B else .ok l
    | _ => .error 0x1C

/-- Whether a record lies in a granule that a sill unit holds locked: the Zevar's access waits (R399). -/
def State.recordHeld (s : State) (p : Peg) : Bool :=
  match s.recordLoc homeBay p .both with
  | .ok l => s.lockedOut l.pa 64
  | .error _ => false

/-- Write the STATE word of a record (R339). -/
def State.putStateWord (s : State) (l : Loc) (w : Nat) : State :=
  let r := s.readLoc l 64
  r.1.writeLoc l (patch r.2 0x0C (leBytes 4 w))

/-- The suspension write of R152: PC, STATE, FP and A0 to A3 in one write of the record. -/
def State.writeRecord (s : State) (l : Loc) (w : Nat) (pc : Word) : State :=
  let k := s.me
  let r := s.readLoc l 64
  let data := patch r.2 0 (leBytes 8 pc.toNat)
  let data := patch data 0x0C (leBytes 4 w)
  let regs := [k.getX 3, k.getX 10, k.getX 11, k.getX 12, k.getX 13]
  let data := patch data 0x10 ((regs.map (fun v => leBytes 8 v.toNat)).flatten)
  r.1.writeLoc l data

/-- Whether a peg holds core-local state on a core (R30): an allocation, a resident context, an incomplete command. -/
def Core.holdsFor (k : Core) (id : Nat) : Bool :=
  k.allocs.any (fun a => decide (a.peg = id)) || k.ctxs.any (fun c => decide (c.peg = id)) ||
  k.journal.any (fun c => decide (c.peg = id))

/-! ## Counting -/

/-- Cores running pegs of a bent or a descendant of it (R338). -/
def State.coresOf (s : State) (b : Nat) : Nat :=
  (s.pegs.filter (fun e => decide (e.2.st = .running) && s.under e.2.bent b)).length

/-- Whether a bent has spare core budget (R338). -/
def State.spareBudget (s : State) (b : Nat) : Bool :=
  (s.chain b).all (fun a => match s.bents.find? a with
    | some r => decide (s.coresOf a < r.maxCores)
    | none => false)

/-- Pool entries in use in a bay (R343). -/
def State.poolUsed (s : State) (bay : Nat) : Nat := (s.pegs.filter (fun e => decide (e.2.pool = some bay))).length

/-- Pool entries of a bay that a bent holds, h(b) of R344. -/
def State.poolHeld (s : State) (bay b : Nat) : Nat :=
  (s.pegs.filter (fun e => decide (e.2.pool = some bay) && decide (e.2.bent = b))).length

/-- Pool entries of a bay (R17). -/
def poolSize : Nat := 4096

/-- The active bents (R344): those with a live peg. -/
def State.activeBents (s : State) : List Nat := (s.bents.keys).filter (fun b => s.pegs.any (fun e => decide (e.2.bent = b)))

/-- Whether a peg of bent `x` takes an entry of a bay (R344). -/
def State.admits (s : State) (bay x : Nat) (awaited : Bool) : Bool :=
  let bents := if s.activeBents.contains x then s.activeBents else x :: s.activeBents
  let free := poolSize - s.poolUsed bay
  let reserve := (bents.map (fun b =>
    let h := s.poolHeld bay b + (if awaited && b = x then 1 else 0)
    16 - h)).foldl (· + ·) 0
  decide (1 ≤ free) && decide (reserve ≤ free - 1)

/-- Whether creating a peg of a bent would activate a 257th bent (R344). -/
def State.activeRoom (s : State) (x : Nat) : Bool := s.activeBents.contains x || decide (s.activeBents.length < 256)

/-- Where a new peg goes (R343). -/
inductive Place where
  | pool (bay : Nat)
  | overflow
  | noRoom
  deriving DecidableEq, Repr

/-- The place of a new peg of a bent: the bay's pool, else the tail of the overflow queue, else none (R343, R344). -/
def State.place (s : State) (bay b : Nat) (awaited : Bool) : Place :=
  match s.bents.find? b with
  | none => .noRoom
  | some r =>
    if !s.activeRoom b then .noRoom
    else if s.admits bay b awaited then .pool bay
    else if r.overflow.length < r.ovqn then .overflow
    else .noRoom

/-- Write a record's address into place `n` of a bent's overflow queue in memory (R343). -/
def State.ovqPut (s : State) (b : Nat) (r : Bent) (n : BitVec 32) (recAddr : Word) : State :=
  match s.translate homeBay b (r.ovq + BitVec.ofNat 64 (8 * (n.toNat % (if r.ovqn = 0 then 1 else r.ovqn)))) .write with
  | .ok l => s.writeLoc l (leBytes 8 recAddr.toNat)
  | .error _ => s

/-- The overflow queue in memory and the record's indices follow the Zevar's own list (R343): the new tail's address is written. -/
def State.ovqWrite (s : State) (b : Nat) (recAddr : Word) : State :=
  match s.bents.find? b with
  | none => s
  | some r => (s.ovqPut b r r.ovqt recAddr).modBent b (fun r => { r with ovqt := r.ovqt + 1 })

/-- Write the records of pegs into a queue's places from `n` on. -/
def State.ovqFill (s : State) (b : Nat) (r : Bent) : BitVec 32 → List Nat → State
  | _, [] => s
  | n, i :: t => State.ovqFill (match s.pegs.find? i with
      | some p => s.ovqPut b r n p.recAddr
      | none => s) b r (n + 1) t

/-- A peg leaves its bent's overflow queue (R343): the places before its own move up by one, and the queue begins one place later. -/
def State.leaveQueue (s : State) (b id : Nat) : State :=
  match s.bents.find? b with
  | none => s
  | some r =>
    if !r.overflow.contains id then s
    else (s.ovqFill b r (r.ovqh + 1) (r.overflow.takeWhile (· != id))).modBent b (fun r => { r with
      overflow := r.overflow.filter (· != id), ovqh := r.ovqh + 1 })

/-- A peg enters the machine at its place (R343): its identity is a fresh stamp. -/
def State.addPeg (s : State) (p : Peg) (pl : Place) : State × Nat :=
  let id := s.stamp
  let s := { s with stamp := s.stamp + 1 }
  match pl with
  | .pool bay => (s.setPeg id { p with pool := some bay, age := id, readySince := s.elapsed }, id)
  | _ =>
    let s := s.setPeg id { p with pool := none, age := id, readySince := s.elapsed }
    let s := s.modBent p.bent (fun r => { r with overflow := r.overflow ++ [id] })
    (s.ovqWrite p.bent p.recAddr, id)

/-- Whether a peg's parent waits at JOIN (R345). -/
def State.parentJoins (s : State) (p : Peg) : Bool :=
  match p.parent with
  | some q => match s.pegs.find? q with
    | some r => decide (r.wait = some .join) && decide (r.st = .waiting)
    | none => false
  | none => false

/-- The rank of bents for a choice (R340): effective priority, then last dispatch, then number. -/
def State.bentBefore (s : State) (a b : Nat) : Bool :=
  match s.bents.find? a, s.bents.find? b with
  | some x, some y =>
    if x.effPrio ≠ y.effPrio then decide (y.effPrio < x.effPrio)
    else if x.lastDispatch ≠ y.lastDispatch then decide (x.lastDispatch < y.lastDispatch)
    else decide (a < b)
  | some _, none => true
  | none, _ => false

/-- The best element of a list under an order. -/
def best {α : Type} (before : α → α → Bool) : List α → Option α
  | [] => none
  | a :: t => match best before t with
    | none => some a
    | some b => some (if before b a then b else a)

/-- The peg of a bent that leaves its overflow queue for a bay first (R345): among those that R344 admits, one whose parent waits at JOIN, then the
oldest. -/
def State.overflowHead (s : State) (bay b : Nat) : Option Nat :=
  match s.bents.find? b with
  | none => none
  | some r =>
    let ids := r.overflow.filter (fun i => match s.pegs.find? i with
      | some p => s.admits bay b (p.link != 0)
      | none => false)
    let aged (i j : Nat) : Bool := match s.pegs.find? i, s.pegs.find? j with
      | some p, some q => decide (p.age < q.age)
      | _, _ => false
    match best aged (ids.filter (fun i => match s.pegs.find? i with
        | some p => s.parentJoins p
        | none => false)) with
    | some i => some i
    | none => best aged ids

/-- One move from the overflow queues into a bay's pool, if one is admitted (R345). -/
def State.moveOne (s : State) (bay : Nat) : Option State :=
  match best (fun a b => s.bentBefore a b) ((s.bents.keys).filter (fun b => (s.overflowHead bay b).isSome)) with
  | none => none
  | some b => (s.overflowHead bay b).map (fun i => (s.modPeg i (fun p => { p with pool := some bay })).leaveQueue b i)

/-- Moves into a bay's pool until none is admitted, `n` at most. -/
def moveIn : Nat → Nat → State → State
  | 0, _, s => s
  | n + 1, bay, s => match s.moveOne bay with
    | some t => moveIn n bay t
    | none => s

/-- The record slot of a bent's area that an address is in (R339). -/
def Bent.slotOf (r : Bent) (addr : Word) : Option Nat :=
  if r.recBase.toNat ≤ addr.toNat && decide (addr.toNat < r.recBase.toNat + 64 * r.recn) then some ((addr.toNat - r.recBase.toNat) / 64)
  else none

/-- The record slot that an address is in becomes used or free, in whichever area of the tree of bent `b` it lies (R339). -/
def State.markSlots (s : State) (b : Nat) (addr : Word) (used : Bool) : State :=
  { s with bents := s.bents.map (fun e => match e.2.slotOf addr with
      | some i =>
        if s.root e.1 = s.root b then (e.1, { e.2 with slots := if used then e.2.slots.put i () else e.2.slots.erase i }) else e
      | none => e) }

/-- A peg leaves the machine (R161, R373): its entry, its slot, its phaser registrations and its stay in a queue; freed entries take
pegs in (R345). -/
def State.removePeg (s : State) (id : Nat) : State :=
  match s.pegs.find? id with
  | none => s
  | some p =>
    let s := ((s.dropEverywhere (.peg id)).markSlots p.bent p.recAddr false).leaveQueue p.bent id
    let s := { s with pegs := s.pegs.erase id }
    let s := s.modBent p.bent (fun r => { r with
      usedFrames := match p.frameNo with
        | some n => r.usedFrames.erase n
        | none => r.usedFrames
      usedCoreFrames := match p.coreFrameNo with
        | some n => r.usedCoreFrames.erase n
        | none => r.usedCoreFrames })
    match p.pool with
    | some bay => moveIn s.pegs.length bay s
    | none => s

/-- Lower a parent's JoinCount (R161, R373). -/
def State.lowerJoin (s : State) (id : Option Nat) : State :=
  match id with
  | some q => s.modPeg q (fun p => { p with joins := p.joins - 1 })
  | none => s

/-! ## Suspension -/

/-- How long the handler on a core has run (R359). -/
def State.handlerTime (s : State) (k : Core) : Nat := if hact k.regs.trapCause then k.hactTime + (s.timestamp - k.hactFrom) else 0

/-- Free the acting core of its peg; the trap registers that are RO stay the peg's (R109). -/
def State.vacate (s : State) : State :=
  let k := s.me
  let s := match k.peg with
    | some id => s.modPeg id (fun p => { p with
        cause := k.regs.trapCause, info := k.regs.trapInfo, addr := k.regs.trapAddr, hactTime := s.handlerTime k })
    | none => s
  s.setMe { k with peg := none, spin := none, asked := none, fetchAsked := none, preempt := none, preemptFor := none, halted := false }

/-- The suspension of the running peg (R30, R152, R293): it waits as a seq-cst fence at PKG, writes its record at `pc`, pins itself when
it holds state on the core, and leaves the core in state `st`. -/
def State.suspend (s : State) (l : Loc) (pc : Word) (st : PegState) (w : Option Wait) : State :=
  match s.pegId with
  | none => s
  | some id =>
    let pin := s.me.holdsFor id
    let s := s.writeRecord l (stateWord st.code pin false (if pin then s.cur else 0)) pc
    let s := s.modPeg id (fun p => { p with
      st := st, pin := pin, core := if pin then s.cur else 0, psave := false, wait := w, met := false
      age := if st = .ready then s.stamp else p.age, readySince := s.elapsed })
    { s with stamp := s.stamp + 1 }.vacate

/-- The record of the running peg, checked before an instruction that may suspend (R433), then the continuation. -/
def State.withRecord (s : State) (k : State → Loc → Result) : Result :=
  match s.peg? with
  | none => s.stay
  | some p => s.withLoc p.recAddr 64 64 0 .both true k

/-- Suspend after the fence of R293. -/
def State.suspendAt (s : State) (l : Loc) (st : PegState) (w : Option Wait) : Result :=
  s.release 3 allClasses (fun s => .next (s.suspend l (s.pc + 4) st w))

/-- Whether a timeout of `tmo` microseconds since `since` has passed (R150, R151): 0 means none. -/
def State.timedOut (s : State) (tmo since : Nat) : Bool := tmo != 0 && decide (s.timestamp ≥ since + 1000 * tmo)

/-- Whether the condition of a wait holds (R152 to R160). -/
def State.waitHolds (s : State) (id : Nat) (p : Peg) : Bool :=
  match p.wait with
  | none => false
  | some .join => decide (p.joins = 0)
  | some (.phaser bay n _) => match (s.phaser bay n).member (.peg id) with
    | some (_, l) => phaseGe (s.phaser bay n).p l
    | none => false
  | some (.sem _ _) => p.met
  | some (.memory _ _ _ _) => p.met

/-- A waiting peg becomes ready (R339). -/
def State.makeReady (s : State) (id : Nat) : State :=
  { s with stamp := s.stamp + 1 }.modPeg id (fun p => { p with
    st := .ready, wait := none, met := false, age := s.stamp, readySince := s.elapsed })

end Sys2Proof.Machine
end

