-- ==== Sys2Proof/Machine/Alloc.lean ====
section
/-! DEFINITION. Allocations, seated regions and accumulator windows of a core, and how they are given back (R193, R200, R367, R370). -/

namespace Sys2Proof.Machine

/-! ## Spaces -/

/-- The size of a local space in bytes (R88, R193). -/
def spaceSize : LocalSpace → Nat
  | .acc => 0xC0000
  | _ => 0x200000

/-- The granule of an allocation (R193). -/
def allocUnit : LocalSpace → Nat
  | .acc => 4096
  | _ => 256

/-- The size of a unit that a reservation names: SRF bank, WB macro, ACC window (R26, R187). -/
def claimUnit : LocalSpace → Nat
  | .srf => 0x20000
  | .wb => 0x10000
  | .acc => 4096

/-- The units that bytes lo to lo + n − 1 of a space touch. -/
def unitsOf (sp : LocalSpace) (lo n : Nat) : List Nat :=
  if n = 0 then [] else rangeFrom (lo / claimUnit sp) ((lo + n - 1) / claimUnit sp - lo / claimUnit sp + 1)

/-- Whether byte `a` of a space lies in an allocation of a bent (R190). -/
def Core.allocated (k : Core) (sp : LocalSpace) (bent a : Nat) : Bool :=
  k.allocs.any (fun e => decide (e.space = sp) && decide (e.bent = bent) && decide (e.base ≤ a) && decide (a < e.base + e.len))

/-- Where the allocations of a bent that hold byte `a` end at the furthest. -/
def Core.allocEnd (k : Core) (sp : LocalSpace) (bent a : Nat) : Option Nat :=
  (k.allocs.filter (fun e => decide (e.space = sp) && decide (e.bent = bent) && decide (e.base ≤ a) && decide (a < e.base + e.len))).foldl
    (fun m e => some (max (m.getD 0) (e.base + e.len))) none

/-- Whether bytes lo to hi − 1 lie inside allocations of a bent, taking at most `n` allocations one after another. -/
def Core.inAllocs (k : Core) (sp : LocalSpace) (bent : Nat) : Nat → Nat → Nat → Bool
  | 0, lo, hi => decide (hi ≤ lo)
  | n + 1, lo, hi =>
    if hi ≤ lo then true
    else match k.allocEnd sp bent lo with
      | some e => Core.inAllocs k sp bent n e hi
      | none => false

/-- Whether bytes lo to hi − 1 of a space lie inside allocations of a bent (R190). -/
def Core.holdsRange (k : Core) (sp : LocalSpace) (bent lo hi : Nat) : Bool := k.inAllocs sp bent (k.allocs.length + 1) lo hi

/-! ## Regions -/

/-- Whether macro `m` is seated (R25). -/
def Core.seated (k : Core) (m : Nat) : Bool := k.regions.any (fun r => decide (r.macro0 ≤ m) && decide (m < r.macro0 + r.count))

/-! ## Windows -/

/-- The ACC.OWN entry of a window (R367). -/
def Core.ownEntry (k : Core) (w : Nat) : Word := k.accOwn.get w 0

/-- Whether a bent owns a window (R367). -/
def ownedBy (e : Word) (b : Nat) : Bool := e.getLsbD 31 && decide ((e.extractLsb' 0 24).toNat = b)

/-- The ACC.OWN entry of an owner: V, and SP with the slot when its contents are spilled (R367). -/
def ownWord (b : Nat) (slot : Option Nat) : Word :=
  BitVec.ofNat 64 (b % 2 ^ 24 + 2 ^ 31 + match slot with
    | some n => 2 ^ 32 + n % 2 ^ 16 * 2 ^ 40
    | none => 0)

/-- Remove the keys lo to lo + n − 1 of a table. -/
def eraseRange {α : Type} (m : AMap α) (lo n : Nat) : AMap α := m.filter (fun e => !(decide (lo ≤ e.1) && decide (e.1 < lo + n)))

/-- +0 into all 1024 elements of a window, and V := 0 (R370). -/
def Core.clearWindow (k : Core) (w : Nat) : Core :=
  { k with acc := eraseRange k.acc (4096 * w) 4096, accPoison := eraseRange k.accPoison (1024 * w) 1024, accOwn := k.accOwn.erase w }

/-- Clear the windows of a list that a bent owns (R370). -/
def Core.clearOwned (k : Core) (b : Nat) : List Nat → Core
  | [] => k
  | w :: t => Core.clearOwned (if ownedBy (k.ownEntry w) b then k.clearWindow w else k) b t

/-- Give back one allocation (R161, R193, R200, R370): its seated regions open, its windows cleared. -/
def Core.freeAlloc (k : Core) (a : Alloc) : Core :=
  let k := { k with allocs := k.allocs.filter (fun e => !(decide (e = a))) }
  match a.space with
  | .srf => k
  | .wb => { k with regions := k.regions.filter (fun r =>
      !(decide (a.base ≤ 0x10000 * r.macro0) && decide (0x10000 * r.macro0 < a.base + a.len))) }
  | .acc => k.clearOwned a.bent (unitsOf .acc a.base a.len)

/-- Give back every allocation that a test selects. -/
def Core.freeAllocs (k : Core) (sel : Alloc → Bool) : Core := (k.allocs.filter sel).foldl Core.freeAlloc k

/-- Give back, on every core, the allocations of a peg (R161, R373). -/
def State.freePegAllocs (s : State) (id : Nat) : State :=
  { s with cores := s.cores.map (fun e => (e.1, e.2.freeAllocs (fun a => decide (a.peg = id)))) }

end Sys2Proof.Machine
end

