-- ==== Sys2Proof/Machine/Lifecycle.lean ====
section
/-! DEFINITION. SPAWN, JOIN, YIELD, EXIT and ENQ (R159 to R161, R164), and how a waiting peg becomes ready (R152, R339, R356). -/

namespace Sys2Proof.Machine

/-! ## Records as data -/

/-- A peg record as read (R28). -/
structure PegRecord where
  pc : Word
  bent : Nat
  bentRes : Nat
  state : Nat
  fp : Word
  a0 : Word
  a1 : Word
  a2 : Word
  a3 : Word
  link : Word
  deriving DecidableEq, Repr

/-- The little-endian word of 8 bytes at an offset of a block. -/
def field64 (d : List Byte) (off : Nat) : Word := BitVec.ofNat 64 (leNat ((d.drop off).take 8))

/-- The number in `n` bytes at an offset of a block. -/
def fieldN (d : List Byte) (off n : Nat) : Nat := leNat ((d.drop off).take n)

/-- Read the fields of a record (R28). -/
def PegRecord.parse (d : List Byte) : PegRecord :=
  { pc := field64 d 0, bent := fieldN d 8 3, bentRes := fieldN d 11 1, state := fieldN d 12 4, fp := field64 d 0x10
    a0 := field64 d 0x18, a1 := field64 d 0x20, a2 := field64 d 0x28, a3 := field64 d 0x30, link := field64 d 0x38 }

def PegRecord.st (r : PegRecord) : Nat := bitsOf r.state 3 0
def PegRecord.pin (r : PegRecord) : Bool := bitsOf r.state 4 4 = 1
def PegRecord.psave (r : PegRecord) : Bool := bitsOf r.state 5 5 = 1
def PegRecord.core (r : PegRecord) : Nat := bitsOf r.state 26 16

/-- Whether a record is refused under R8: a reserved bit, or a PC with bits 1:0 or 63:56 set (R28). -/
def PegRecord.refused (r : PegRecord) : Bool :=
  decide (r.bentRes ≠ 0) || decide (bitsOf r.state 31 27 ≠ 0) || decide (bitsOf r.state 15 6 ≠ 0) ||
  r.pc.extractLsb' 0 2 != 0 || r.pc.extractLsb' 56 8 != 0

/-! ## JOIN and YIELD -/

/-- R160. -/
def execJoin (s : State) : Result :=
  s.withRecord (fun s l => match s.peg? with
    | some p => if p.joins = 0 then .next s.skip else s.suspendAt l .waiting (some .join)
    | none => s.stay)

/-- R161. -/
def execYield (s : State) : Result := s.withRecord (fun s l => s.suspendAt l .ready none)

/-! ## EXIT -/

/-- Change the ST field of a record. -/
def State.writeSt (s : State) (l : Loc) (st : Nat) : State :=
  let r := s.readLoc l 64
  let w := fieldN r.2 12 4
  r.1.writeLoc l (patch r.2 12 (leBytes 4 (w - w % 16 + st)))

/-- EXIT writes ST = 0 into its record, and PIN = 0, since it holds nothing (R30, R339). -/
def State.writeExit (s : State) (l : Loc) : State :=
  let r := s.readLoc l 64
  let w := fieldN r.2 12 4
  r.1.writeLoc l (patch r.2 12 (leBytes 4 (w - w % 32)))

/-- Whether commands or contexts of a peg are still in being on some core (R161). -/
def State.hasWork (s : State) (id : Nat) : Bool :=
  s.cores.any (fun e => e.2.journal.any (fun c => decide (c.peg = id)) || e.2.ctxs.any (fun c => decide (c.peg = id)))

/-- R161: the peg's work first, then its regions, allocations and registrations, its parent's count, and its record. -/
def execExit (s : State) : Result :=
  s.withRecord (fun s l => match s.pegId, s.peg? with
    | some id, some p =>
      if p.joins ≠ 0 then s.trap 0x14
      else if s.hasWork id then s.stay
      else s.release 3 allClasses (fun s =>
        let s := (s.freePegAllocs id).writeExit l
        .next (((s.lowerJoin p.parent).vacate).removePeg id))
    | _, _ => s.stay)

/-! ## SPAWN and ENQ -/

/-- The first free slot at or after a slot, of `n`, trying at most `fuel` of them (R339). -/
def freeSlot (used : AMap Unit) (n : Nat) : Nat → Nat → Option Nat
  | 0, _ => none
  | fuel + 1, i => if AMap.has used (i % n) then freeSlot used n fuel (i + 1) else some (i % n)

/-- A free record slot of a bent (R339); which one is a free value (log 13). -/
def State.pickSlot (s : State) (r : Bent) : Option Nat :=
  if r.recn = 0 then none else freeSlot r.slots r.recn (r.slots.length + 1) ((Config.freeWord s.free).toNat % r.recn)

/-- R159. -/
def execSpawn (d a : RegNo) (s : State) : Result :=
  s.withLoc (s.getX a) 64 64 0 .read true (fun s l =>
    let rd := s.fetchLoc (some s.cur) s.myBay l 64
    let s := rd.1
    let t := PegRecord.parse rd.2
    if t.refused || t.state ≠ 0 then s.trap 0x09
    else match s.bents.find? t.bent, s.pegId, s.peg? with
      | some tb, some id, some me =>
        if !s.under t.bent s.myBent || tb.drain then s.trap 0x07
        else match s.pickSlot tb, s.place s.myBay t.bent (t.link != 0) with
          | none, _ => s.trap 0x15
          | _, .noRoom => s.trap 0x15
          | some i, pl =>
            if t.link ≠ 0 ∧ 65535 ≤ me.joins then s.trap 0x15
            else
              let addr := tb.recBase + BitVec.ofNat 64 (64 * i)
              let p := Peg.fresh addr t.bent
              s.release 3 allClasses (fun s => match s.recordLoc s.myBay p .both with
              | .error c => s.trapAt c addr
              | .ok rl =>
                if s.lockedOut rl.pa 64 then s.stay
                else
                let link := if t.link = 0 then 0 else me.recAddr
                let data := patch (patch rd.2 12 (leBytes 4 1)) 0x38 (leBytes 8 link.toNat)
                let s := { s with free := s.free + 1 }.writeLoc rl data
                let s := (s.markSlots t.bent addr true).modBent t.bent (fun b => { b with spawns := b.spawns + 1 })
                let s := if t.link = 0 then s else s.modPeg id (fun q => { q with joins := q.joins + 1 })
                let s := (s.addPeg { p with link := link, parent := if t.link = 0 then none else some id } pl).1
                s.retX d addr)
      | _, _, _ => s.trap 0x07)

/-- The live peg of a tree whose record lies at an address. -/
def State.pegAt (s : State) (root : Nat) (addr : Word) : Option Nat :=
  match List.find? (fun (e : Nat × Peg) => decide (e.2.recAddr = addr) && decide (s.root e.2.bent = root)) s.pegs with
  | some e => some e.1
  | none => none

/-- What an enqueue comes to (R164). -/
inductive Enqueued where
  | status (n : Nat)
  | fault (code : Nat)
  | go (s : State)
  deriving Repr

/-- Make a record ready in its bent (R164, R343, R433): `caller` is the bent whose tree it must lie in, `bay` where it is placed. -/
def State.enqueue (s : State) (caller bay : Nat) (addr : Word) (data : List Byte) : Enqueued :=
  let t := PegRecord.parse data
  if t.refused then .status 3
  else match s.bents.find? t.bent with
    | none => .status 2
    | some tb =>
      if tb.drain || s.root t.bent ≠ s.root caller then .status 2
      else if t.st ≠ 1 || t.psave || (s.pegAt (s.root caller) addr).isSome then .status 3
      else
        let p := Peg.fresh addr t.bent
        match s.recordLoc bay p .both with
        | .error c => .fault c
        | .ok _ =>
          match s.place bay t.bent (t.link != 0) with
          | .noRoom => .status 1
          | pl =>
            let p := { p with
              pin := t.pin, core := if t.pin then t.core else 0, link := t.link
              parent := if t.link = 0 then none else s.pegAt (s.root caller) t.link }
            .go ((s.markSlots t.bent addr true).addPeg p pl).1

/-- R125, R164. -/
def execEnq (d a : RegNo) (s : State) : Result :=
  let addr := s.getX a
  if !s.privileged then s.trap 0x01
  else s.withLoc addr 64 64 0 .read true (fun s l =>
    let rd := s.fetchLoc (some s.cur) s.myBay l 64
    match rd.1.enqueue s.myBent s.myBay addr rd.2 with
    | .status n => rd.1.retX d (BitVec.ofNat 64 n)
    | .fault c => rd.1.trapAt c addr
    | .go _ => rd.1.release 3 allClasses (fun s =>
      match s.enqueue s.myBent s.myBay addr rd.2 with
      | .go s => s.retX d 0
      | .status n => s.retX d (BitVec.ofNat 64 n)
      | .fault c => s.trapAt c addr))

/-! ## The end of a wait -/

/-- A peg leaves its wait with its record changed as `f` says, ready (R339). A record that fails its check ends the bent (R433). -/
def State.endWait (s : State) (id : Nat) (p : Peg) (must : Bool) (f : List Byte → List Byte) : State :=
  let bay := p.pool.getD homeBay
  match s.recordLoc bay p .both with
  | .error c => if must then s.killBent p.bent c 0 else s.makeReady id
  | .ok l =>
    let r := s.readLoc l 64
    let w := fieldN r.2 12 4
    (r.1.writeLoc l (f (patch r.2 12 (leBytes 4 (w - w % 16 + 1))))).makeReady id

/-- The result of a suspended PHWAIT or MWAIT in A0 (R152). -/
def putA0 (v : Word) (d : List Byte) : List Byte := patch d 0x18 (leBytes 8 v.toNat)

/-- The PC of the suspending instruction again (R356). -/
def backPc (d : List Byte) : List Byte := patch d 0 (leBytes 8 (field64 d 0 - 4).toNat)

/-- A wait is abandoned for a pending trap (R356): a wait member's L returns to what it was. -/
def State.abandonWait (s : State) (id : Nat) (p : Peg) : State :=
  let s := match p.wait with
    | some (.phaser bay n true) =>
      let ph := s.phaser bay n
      match ph.member (.peg id) with
      | some (_, l) => s.setPhaser bay n (ph.setL (.peg id) (l - 1))
      | none => s
    | _ => s
  s.endWait id p true backPc

/-- WAITING_PEG_READY (R152, R339, R356). -/
def execWaitingPegReady (id : Nat) (s : State) : Result :=
  match s.pegs.find? id with
  | none => s.stay
  | some p =>
    if p.st ≠ .waiting || s.recordHeld p then s.stay
    else if s.waitHolds id p then
      match p.wait with
      | some (.phaser bay n _) => .next (s.endWait id p true (putA0 ((s.phaser bay n).p.zeroExtend 64)))
      | some (.memory _ va _ _) =>
        let bay := p.pool.getD homeBay
        match s.translate bay p.bent va .read with
        | .error _ => .next (s.abandonWait id p)
        | .ok l =>
          if s.lockedOut l.pa 8 then s.stay
          else if s.readPoisoned none bay l 8 || !(s.answer l.pa 8 = .here) then .next (s.abandonWait id p)
          else
            let r := s.fetchLoc none bay l 8
            .next (r.1.endWait id p true (putA0 (BitVec.ofNat 64 (leNat r.2))))
      | _ => .next (s.endWait id p false (fun d => d))
    else if !p.pending.isEmpty then .next (s.abandonWait id p)
    else s.stay

/-- A wake event that no write makes, for a peg whose wait `late` selects (R151). -/
def State.wakePeg (s : State) (id : Nat) (suspended : Nat → Nat → Bool) (spinning : Spin → Core → Bool) : State :=
  let s := s.modPeg id (fun p => match p.wait with
    | some (.memory _ _ since tmo) => if suspended since tmo then { p with met := true } else p
    | _ => p)
  { s with cores := s.cores.map (fun e => match e.2.peg, e.2.spin with
      | some q, some sp => if q = id && spinning sp e.2 then (e.1, { e.2 with spin := some { sp with woken := true } }) else e
      | _, _ => e) }

/-- MWAIT_TIMEOUT (R150, R151). -/
def execMwaitTimeout (id : Nat) (s : State) : Result :=
  .next (s.wakePeg id (fun since tmo => s.timedOut tmo since)
    (fun sp k => s.timedOut (k.regs.mwaitTmo.extractLsb' 32 32).toNat sp.sinceTs))

/-- MONITOR_LOSS (R151). -/
def execMonitorLoss (id : Nat) (s : State) : Result := .next (s.wakePeg id (fun _ _ => true) (fun _ _ => true))

end Sys2Proof.Machine
end

