-- ==== Sys2Proof/Machine/Journal.lean ====
section
/-! DEFINITION. The journal (R179 to R185): queues, capture, issue, completion with its signal, and JRNL.RD. -/

namespace Sys2Proof.Machine

/-! ## Queues -/

/-- The queue or engine that executes a command (R22). -/
def CmdOp.queue : CmdOp → Queue
  | .sld _ _ => .load
  | .sst _ => .store
  | .sgth | .ssct _ => .gather
  | .sred | .scpy | .sbank _ | .salloc _ | .sfree _ => .reduce
  | .seat _ | .unseat | .jigGo | .jigRev | .finSet => .matrix
  | .krun => .launcher
  | .coll => .coll
  | .collAbt => .abort
  | .sillLoad | .sillGo => .sill

/-- The number of a queue, as JRNL.RD orders them from SEL 3 (R183). -/
def queueNo : Queue → Nat
  | .load => 0
  | .store => 1
  | .gather => 2
  | .reduce => 3
  | .matrix => 4
  | .launcher => 5
  | .coll => 6
  | .sill => 7
  | .abort => 8

/-- COMP of a queue (R182). -/
def Core.compOf (k : Core) (q : Nat) : BitVec 32 := k.comp.get q 0xFFFFFFFF

/-- A jig run (R34). -/
def CmdOp.isJig : CmdOp → Bool
  | .jigGo | .jigRev => true
  | _ => false

/-- Whether a KRUN has left the head of the launcher: its context has started, or it is done with (R22). -/
def Cmd.left (c : Cmd) : Bool := (c.op = .krun) && (c.ctx.isSome || c.halted || c.dropped)

/-- The entry at the head of a queue (R22, R184). -/
def Core.head (k : Core) (q : Queue) : Option Cmd := List.find? (fun c => decide (c.op.queue = q) && !c.left) k.journal

/-- The entry with a sequence number. -/
def Core.entry (k : Core) (n : BitVec 32) : Option Cmd := List.find? (fun c => decide (c.seq = n)) k.journal

/-- Replace an entry. -/
def Core.setEntry (k : Core) (c : Cmd) : Core := { k with journal := k.journal.map (fun d => if d.seq = c.seq then c else d) }

/-- Remove an entry. -/
def Core.dropEntry (k : Core) (n : BitVec 32) : Core := { k with journal := k.journal.filter (fun d => !(decide (d.seq = n))) }

/-- KIND of the traps of an entry (R353). -/
def CmdOp.kind (o : CmdOp) : Nat := if o.isJig then 3 else 2

/-- JRNL.LOW (R181): the lowest incomplete number, or the next one. -/
def Core.low (k : Core) : BitVec 32 := k.journal.foldl (fun m c => if seqBefore k.jnext c.seq m then c.seq else m) k.jnext

/-- A run that has started and not completed (R34): its table has become the active one, or it is stopped. -/
def Cmd.runActive (c : Cmd) : Bool := c.op.isJig && (c.ready || c.st = .stopped)

def Core.activeRun (k : Core) : Option Cmd := List.find? Cmd.runActive k.journal

/-- Captured runs that wait behind the active one (R181). -/
def Core.runsWaiting (k : Core) : Nat := (k.journal.filter (fun c => c.op.isJig && !c.runActive)).length

/-- The state code of an entry (R183). -/
def Core.stateCode (k : Core) (c : Cmd) : Nat :=
  match c.st with
  | .stopped => 4
  | .running => 3
  | .queued => match k.head c.op.queue with
    | some h => if h.seq = c.seq then 2 else 1
    | none => 1

/-- What JRNL.RD reads (R183). -/
def Core.jrnlRd (k : Core) (b : Word) : Word :=
  let sel := (b.extractLsb' 0 4).toNat
  if sel = 0 then k.jnext.zeroExtend 64
  else if sel = 1 then k.low.zeroExtend 64
  else if sel = 2 then BitVec.ofNat 64 k.journal.length
  else if sel ≤ 10 then (k.compOf (sel - 3)).zeroExtend 64
  else if sel = 11 then
    match k.entry (b.extractLsb' 32 32) with
    | some c => BitVec.ofNat 64 (k.stateCode c + c.progress % 2 ^ 32 * 2 ^ 32)
    | none => 0
  else 0

/-- R183. -/
def execJrnlRd (a b : RegNo) (s : State) : Result := .next ((s.putX a (s.me.jrnlRd (s.getX b))).setPc (s.pc + 8))

/-! ## Issue -/

/-- What a command captures when it issues (R180), with nothing performed. -/
def State.capture (s : State) (op : CmdOp) (cls : BitVec 4) (ws : WaitSig) (xa xb : Word) (da db di : Desc) : Cmd :=
  let r := s.me.regs
  { seq := s.me.jnext, no := s.stamp, op := op, cls := cls.toNat, peg := s.pegId.getD 0, bent := s.myBent, ws := ws, xa := xa, xb := xb
    da := da, db := db, di := di, rnd := r.rndDef.extractLsb' 0 2, seed := r.rngSeed.extractLsb' 0 32
    win := (r.scrbWin.extractLsb' 0 2).toNat, thr := (r.scrbRthr.extractLsb' 0 32).toNat
    scope := (r.ordScope.extractLsb' 0 3).toNat, collTmo := (r.collTmo.extractLsb' 0 32).toNat
    sillGto := (r.sillGto.extractLsb' 0 32).toNat
    table := if op.isJig then s.me.jigShadow else []
    st := .queued, wok := false, claims := [], held := false, ready := false, block := [], progress := 0, scale := none
    ovf := 0, counted := none, stats := none, gens := [], ahead := [], merged := false, scaled := false, finCw := 0, finScale := 0, touched := []
    outputs := 0, locs := [], unmapped := [], started := 0, got := [], det := false, answered := [], ctx := none, halted := false, dropped := false, owed := []
    asked := none, trap := none }

/-- Journal a command (R180, R181, R292): the issue is a release of the peg's classes toward it, and stalls while the journal is full or
the waiting runs are. -/
def State.journalCmd (s : State) (c : Cmd) : Result :=
  if 256 ≤ s.me.journal.length || (c.op.isJig && decide (3 ≤ s.me.runsWaiting)) then s.stay
  else
    let k := s.me
    .next ({ s with stamp := s.stamp + 1 }.setMe { k with journal := k.journal ++ [c], jnext := k.jnext + 1, pc := k.pc + 8 })

/-! ## Completion -/

/-- The trap of an entry for its peg (R354): the rank orders traps of one number by element. -/
def Cmd.trapOf (c : Cmd) (code elem : Nat) (addr : Word) : Trap := cmdTrap c.op.kind code c.seq elem addr elem

/-- CNT, PH and SEM of a bridge (R346). -/
def brgSem (b : Word) : Nat := (b.extractLsb' 0 8).toNat
def brgPh (b : Word) : Nat := (b.extractLsb' 8 10).toNat
def brgCnt (b : Word) : Nat := (b.extractLsb' 32 16).toNat

/-- One completion signal counts toward a bridge of the command's bent (R346). -/
def State.bridgeCount (s : State) (core bent j : Nat) (b : Word) : State :=
  let bay := s.bayOf core
  let key := 4 * bay + j
  let n := match s.bents.find? bent with
    | some r => r.bridge.get key 0 + 1
    | none => 0
  if n < brgCnt b then s.modBent bent (fun r => { r with bridge := r.bridge.put key n })
  else
    let s := s.modBent bent (fun r => { r with bridge := r.bridge.put key 0 })
    s.setPhaser bay (brgPh b) ((s.phaser bay (brgPh b)).signal (.bridge bent j))

/-- The completion signal of a command (R185, R346): an addition that overflows is left out and takes cause 0x13. -/
def State.signal (s : State) (core : Nat) (c : Cmd) : State :=
  if c.ws.ssem = 255 then s
  else
    let n := c.ws.ssem.toNat
    let s := match s.addSem core n c.ws.sinc.toNat with
      | some t => t
      | none => s.pend c.peg (c.trapOf 0x13 0 0)
    match s.bents.find? c.bent with
    | none => s
    | some r => (indexed 0 r.brg).foldl (fun s e => if brgSem e.2 = n then s.bridgeCount core c.bent e.1 e.2 else s) s

/-- An entry completes (R182, R185): it leaves the journal with its reservation; COMP moves, but for a COLL.ABT. -/
def State.complete (s : State) (core : Nat) (c : Cmd) (sig : Bool) : State :=
  let k := (s.core core).dropEntry c.seq
  let q := c.op.queue
  let s := s.setCore core { k with comp := if q = .abort then k.comp else k.comp.put (queueNo q) c.seq }
  if sig then s.signal core c else s

/-- An entry stops with a trap for its peg (R192): it keeps its progress and its reservation. -/
def State.stopCmd (s : State) (core : Nat) (c : Cmd) (code elem : Nat) (addr : Word) : State :=
  let t := c.trapOf code elem addr
  let s := s.setCore core ((s.core core).setEntry { c with st := .stopped, progress := elem, ahead := [], trap := some t })
  s.pend c.peg t

/-- An entry stops for firmware at a window of another bent (R360, R369): no trap enters the peg's registers. -/
def State.firstUseCmd (s : State) (core : Nat) (c : Cmd) (w : Nat) : State :=
  let t := c.trapOf 0x0B c.progress (BitVec.ofNat 64 w)
  s.setCore core ((s.core core).setEntry { c with st := .stopped, ahead := [], trap := some t })

/-- Whether an entry may go on (R209): its peg is not being pre-empted on its core and its bent is not draining. -/
def State.mayRun (s : State) (core : Nat) (c : Cmd) : Bool :=
  !((s.core core).preempt.isSome && (s.core core).peg = some c.peg) && !(match s.bents.find? c.bent with
    | some b => b.drain
    | none => true)

end Sys2Proof.Machine
end

