-- ==== Sys2Proof/Machine/Bents.lean ====
section
/-! DEFINITION. Bents: their records (R335 to R337, R346), BENT.NEW and BENT.KILL (R162, R163), and the end of a draining bent (R370, R373,
R385, R418). -/

namespace Sys2Proof.Machine

/-! ## Records -/

/-- Whether a template sets a reserved bit (R162, R335, R336, R346). `root`: PTROOT holds a physical base there. -/
def templateReserved (d : List Byte) (root : Bool) : Bool :=
  let b8 (off : Nat) : Nat := fieldN d off 1
  let zero (off n : Nat) : Bool := ((d.drop off).take n).all (· == 0)
  decide (16 ≤ b8 5) || decide (16 ≤ fieldN d 6 2) || decide (64 ≤ fieldN d 8 2) || decide (b8 0x0B ≠ 0) ||
  decide (1024 ≤ fieldN d 0x0C 2) ||
  (if root then decide (fieldN d 0x30 8 % 2 ^ 20 ≠ 0) || decide (2 ^ 52 ≤ fieldN d 0x30 8) else !zero 0x30 8) ||
  decide (2 ^ 56 ≤ fieldN d 0x38 8) || !zero 0x68 8 || !zero 0x90 48 || !zero 0xF0 16 ||
  [0x70, 0x78, 0x80, 0x88].any (fun off =>
    decide (2 ^ 48 ≤ fieldN d off 8) || decide (bitsOf (fieldN d off 8) 31 18 ≠ 0))

/-- The bent that a template asks for, before inheritance (R335, R336). -/
def Bent.ofTemplate (d : List Byte) : Bent :=
  { Bent.fresh with
    prio := fieldN d 5 1 % 16, priv := fieldN d 6 2 % 2 = 1, det := fieldN d 6 2 / 2 % 2 = 1, inh := fieldN d 8 2
    key := fieldN d 0x0A 1, phBase := fieldN d 0x0C 2, phCnt := fieldN d 0x0E 2, maxCores := fieldN d 0x10 4
    maxCtx := fieldN d 0x14 4, hbmq := fieldN d 0x18 8, hpc := field64 d 0x20, save := field64 d 0x28
    ptroot := fieldN d 0x30 8, ovq := field64 d 0x38, ovqn := fieldN d 0x40 4, recn := fieldN d 0x4C 4
    recBase := field64 d 0x50, stage := field64 d 0x58, stagen := fieldN d 0x60 8
    brg := [field64 d 0x70, field64 d 0x78, field64 d 0x80, field64 d 0x88] }

/-- Inheritance and clamping at step 4 of R162 (R336). -/
def Bent.inherit (c p : Bent) : Bent :=
  let bit (i : Nat) : Bool := bitsOf c.inh i i = 1
  let c := if bit 0 then { c with maxCores := p.maxCores, maxCtx := p.maxCtx, hbmq := p.hbmq } else c
  let c := if bit 1 then { c with prio := p.prio } else c
  let c := if bit 2 then { c with hpc := p.hpc, save := p.save } else c
  let c := if bit 3 then { c with key := p.key } else c
  let c := if bit 4 then { c with det := p.det } else c
  let c := if bit 5 then { c with phBase := p.phBase, phCnt := p.phCnt } else c
  { c with
    maxCores := min c.maxCores p.maxCores, maxCtx := min c.maxCtx p.maxCtx, hbmq := min c.hbmq p.hbmq
    prio := min c.prio p.prio, priv := c.priv && p.priv, ptroot := 0, owner := p.owner, level := p.level + 1 }

/-- Whether a bridge breaks R346 for a bent. -/
def badBridge (c : Bent) (b : Word) : Bool :=
  if brgSem b = 0xFF then brgCnt b != 0 || brgPh b != 0
  else brgCnt b = 0 || !(decide (c.phBase ≤ brgPh b) && decide (brgPh b < c.phBase + c.phCnt))

/-- Two used bridges of one semaphore (R346). -/
def dupBridge : List Word → Bool
  | [] => false
  | b :: t => (brgSem b != 0xFF && t.any (fun d => brgSem d = brgSem b)) || dupBridge t

/-- Whether a live bent of another owner names a key slot (R418). -/
def State.keyTaken (s : State) (owner : List Byte) (key : Nat) : Bool :=
  s.bents.any (fun e => decide (e.2.key = key) && decide (e.2.owner ≠ owner) && decide (key ≠ 0))

/-- Whether the result of inheritance fails R337: `lo`, `n` the phasers it may own. -/
def State.badBent (s : State) (c : Bent) (lo n : Nat) : Bool :=
  decide (c.ovqn < 256) || (c.phCnt != 0 && !(decide (lo ≤ c.phBase) && decide (c.phBase + c.phCnt ≤ lo + n))) ||
  c.brg.any (badBridge c) || dupBridge c.brg || decide (c.maxCores = 0) ||
  c.hpc.extractLsb' 0 2 != 0 || c.hpc.extractLsb' 56 8 != 0 || c.recBase.extractLsb' 0 6 != 0 || s.keyTaken c.owner c.key

/-- The first free bent number at or after a number, of `n`, trying at most `fuel`. -/
def freeBent (bents : AMap Bent) (n : Nat) : Nat → Nat → Option Nat
  | 0, _ => none
  | fuel + 1, i => if AMap.has bents (i % n + 1) then freeBent bents n fuel (i + 1) else some (i % n + 1)

/-- A free bent number (R337), by a free value (log 13). -/
def State.pickBent (s : State) : Option Nat :=
  if s.mgmt.bentMax = 0 then none
  else freeBent s.bents s.mgmt.bentMax (s.bents.length + 1) ((Config.freeWord s.free).toNat % s.mgmt.bentMax)

/-- The number of records a bent's counts stand for (R335). -/
def State.livePegs (s : State) (b : Nat) : Nat := (s.pegs.filter (fun e => decide (e.2.bent = b))).length

/-- Resident contexts of a bent and its descendants (R338). -/
def State.ctxsOf (s : State) (b : Nat) : Nat :=
  (s.cores.map (fun e => (e.2.ctxs.filter (fun c => s.under c.bent b)).length)).foldl (· + ·) 0

/-- A bent's record as the Zevar writes it (R335, R336). -/
def State.bentRecord (s : State) (b : Nat) (r : Bent) : List Byte :=
  let flags := (if r.priv then 1 else 0) + (if r.det then 2 else 0) + (if r.drain then 4 else 0) + (if r.lockLost then 8 else 0)
  leBytes 4 (r.parent.getD 0xFFFFFF) ++ leBytes 1 r.level ++ leBytes 1 r.prio ++ leBytes 2 flags ++ leBytes 2 r.inh ++
  leBytes 1 r.key ++ [0] ++ leBytes 2 r.phBase ++ leBytes 2 r.phCnt ++ leBytes 4 r.maxCores ++ leBytes 4 r.maxCtx ++
  leBytes 8 r.hbmq ++ leBytes 8 r.hpc.toNat ++ leBytes 8 r.save.toNat ++ leBytes 8 r.ptroot ++ leBytes 8 r.ovq.toNat ++
  leBytes 4 r.ovqn ++ leBytes 4 r.ovqh.toNat ++ leBytes 4 r.ovqt.toNat ++ leBytes 4 r.recn ++ leBytes 8 r.recBase.toNat ++
  leBytes 8 r.stage.toNat ++ leBytes 8 r.stagen ++ leBytes 8 0 ++ (r.brg.map (fun w => leBytes 8 w.toNat)).flatten ++
  leBytes 48 0 ++ leBytes 8 r.dispatches.toNat ++ leBytes 8 r.preempts.toNat ++ leBytes 8 r.traps.toNat ++
  leBytes 8 r.spawns.toNat ++ leBytes 4 (s.livePegs b) ++ leBytes 4 (s.coresOf b) ++ leBytes 4 (s.ctxsOf b) ++
  leBytes 4 ((s.pegs.filter (fun e => decide (e.2.bent = b) && e.2.pool.isSome)).length) ++ leBytes 16 0

/-- The location of a bent's record (R36): BENT.BASE + 256 × b. -/
def State.bentLoc (s : State) (b : Nat) : Loc :=
  { pa := s.home (s.mgmt.bentBase.toNat + 256 * b), slot := none, det := false, mw := false, cp := 0 }

/-- Write a bent's record where the physical map has it. -/
def State.putBentRecord (s : State) (b : Nat) (r : Bent) : State :=
  let l := s.bentLoc b
  match s.region l.pa with
  | .hbm _ => s.writeLoc l (s.bentRecord b r)
  | _ => s

/-- Write back the Z fields of a live record (R337): PARENT, LEVEL, DRAIN and LOCKLOST, OVQH and OVQT, and the counts. -/
def State.writeBackBent (s : State) (b : Nat) (r : Bent) : State :=
  let l := s.bentLoc b
  match s.region l.pa with
  | .hbm _ =>
    let rd := s.readLoc l 256
    let z := s.bentRecord b r
    let part (off n : Nat) (d : List Byte) : List Byte := patch d off ((z.drop off).take n)
    let f := fieldN rd.2 6 2
    let flags := f - (f / 4 % 4) * 4 + (if r.drain then 4 else 0) + (if r.lockLost then 8 else 0)
    let d := part 0 5 rd.2
    let d := patch d 6 (leBytes 2 flags)
    let d := part 0x44 8 d
    let d := part 0xC0 0x30 d
    rd.1.writeLoc l d
  | _ => s

/-- A bent comes into being (R162, R346): its bridges register in every bay, its record is written. -/
def State.addBent (s : State) (b : Nat) (r : Bent) : State :=
  let r := { r with effPrio := r.prio, agedAt := s.elapsed }
  let s := { s with bents := s.bents.put b r, free := s.free + 1 }
  let used := (indexed 0 r.brg).filter (fun e => brgSem e.2 != 0xFF)
  let s := (rangeFrom 0 8).foldl (fun s bay => used.foldl (fun s e =>
    s.setPhaser bay (brgPh e.2) ((s.phaser bay (brgPh e.2)).register (.bridge b e.1) .sig)) s) s
  s.putBentRecord b r

/-- R125, R162, R337. -/
def execBentNew (d a : RegNo) (s : State) : Result :=
  if !s.privileged then s.trap 0x01
  else s.withLoc (s.getX a) 256 256 0 .read true (fun s l =>
    let rd := s.fetchLoc (some s.cur) s.myBay l 256
    let s := rd.1
    match s.bents.find? s.myBent with
    | none => s.stay
    | some p =>
      -- the new record's granule may be locked (R399)
      if (s.pickBent.map (fun n => s.lockedOut (s.bentLoc n).pa 256)).getD false then s.stay
      else
      let c := (Bent.ofTemplate rd.2).inherit p
      if templateReserved rd.2 false then s.trap 0x09
      else if s.badBent c p.phBase p.phCnt then s.trap 0x09
      else match s.pickBent with
        | none => s.retX d 0xFFFFFFFFFFFFFFFF
        | some n =>
          if 8 ≤ p.level then s.retX d 0xFFFFFFFFFFFFFFFF
          else (s.addBent n { c with parent := some s.myBent }).retX d (BitVec.ofNat 64 n))

/-! ## The end of bents -/

/-- A context leaves its core with none of its effects (R172, R373). -/
def State.dropContext (s : State) (core uid : Nat) : State :=
  let k := s.core core
  let s := s.setCore core { k with ctxs := k.ctxs.filter (fun c => !(decide (c.uid = uid))) }
  s.dropEverywhere (.context uid)

/-- The entries of a peg leave the journals with no signal and no merge (R373). -/
def State.dropCommands (s : State) (id : Nat) : State :=
  { s with cores := s.cores.map (fun e => (e.1, { e.2 with journal := e.2.journal.filter (fun c => !(decide (c.peg = id))) })) }

/-- Whether a bent still has work (R373). -/
def State.busyBent (s : State) (b : Nat) : Bool :=
  s.pegs.any (fun e => decide (e.2.bent = b)) ||
  s.cores.any (fun e => e.2.ctxs.any (fun c => decide (c.bent = b)) || e.2.journal.any (fun c => decide (c.bent = b))) ||
  s.bents.any (fun e => decide (e.2.parent = some b)) || s.lockedOut (s.bentLoc b).pa 256

/-- The spill slots of a bent are dropped (R370): their tags in its save area, where the checks of R135 let firmware write them. -/
def State.dropSpills (s : State) (b : Nat) (r : Bent) : State :=
  match s.translate homeBay b (r.save + 0x28) .home with
  | .error _ => s
  | .ok l =>
    let ato := leNat (s.bytesAt l.slot l.pa 8)
    r.spills.foldl (fun (s : State) e => s.saveWrite b (ato + 8 * e.2) (leBytes 8 0)) s

/-- Firmware frees the number of a bent without work (R370, R373, R385, R418): its last record, its windows, spill slots, locks, bridges and
queue pairs; a key slot that nothing names any more gets a fresh key. -/
def State.endBent (s : State) (b : Nat) (r : Bent) : State :=
  let s := ((s.recordLast b 0x10 0).dropSpills b r).writeBackBent b r
  let s : State := { s with
    bents := s.bents.erase b
    qps := s.qps.filter (fun e => !(decide (e.2.bent = b)))
    cores := s.cores.map (fun e =>
      (e.1, { e.2.clearOwned b (rangeFrom 0 192) with frames := e.2.frames.filter (fun f => !(decide (f.bent = b))) })) }
  let s := (rangeFrom 0 4).foldl (fun s j => s.dropEverywhere (.bridge b j)) s
  let s := if r.parent.isNone then s.tlbInvalidate b none else s
  if r.key = 0 || s.bents.any (fun e => decide (e.2.key = r.key)) then s
  else { s with
    keys := s.keys.put r.key (Config.drbgKey r.key (s.mgmt.draws + 1))
    mgmt := { s.mgmt with draws := s.mgmt.draws + 1 } }

/-- End draining bents that have no work left, at most `n` of them. -/
def reapN : Nat → State → State
  | 0, s => s
  | n + 1, s =>
    match List.find? (fun (e : Nat × Bent) => e.2.drain && !s.busyBent e.1) s.bents with
    | some e => reapN n (s.endBent e.1 e.2)
    | none => s

/-- End every draining bent that has no work left (R373). -/
def State.reap (s : State) : State := reapN s.bents.length s

/-- R125, R163: completes when draining has begun. -/
def execBentKill (a : RegNo) (s : State) : Result :=
  if !s.privileged then s.trap 0x01
  else
    let b := (s.getX a).toNat
    if !AMap.has s.bents b || s.root b ≠ s.root s.myBent then s.trap 0x07
    else .next ((s.drain b).reap).skip

/-- The frozen contexts that pre-emption saved of a peg leave their phasers. -/
def State.dropSaved (s : State) (p : Peg) : State :=
  match p.coreFrame with
  | some f => f.ctxs.foldl (fun (s : State) x => s.dropEverywhere (.context x.uid)) s
  | none => s

/-- A draining bent's peg ends (R373): its commands and allocations, its parent's count, its record, whose failing check is recorded (R433). -/
def State.endPeg (s : State) (id : Nat) (p : Peg) : State :=
  let s := match s.recordLoc (p.pool.getD homeBay) p .both with
    | .ok l => s.writeSt l 0
    | .error c => s.recordLast p.bent c 0
  let s := (s.dropCommands id).freePegAllocs id
  let outside := match p.parent with
    | some q => match s.pegs.find? q with
      | some pp => match s.bents.find? pp.bent with
        | some pb => !pb.drain
        | none => false
      | none => false
    | none => false
  let s := if outside then s.lowerJoin p.parent else s
  let s := s.dropSaved p
  let s : State := { s with cores := s.cores.map (fun e => if e.2.peg = some id then
      (e.1, { e.2 with peg := none, spin := none, asked := none, fetchAsked := none, preempt := none, preemptFor := none, halted := false }) else e) }
  s.removePeg id

/-- KILL (R357, R373): a peg of a draining bent ends once its contexts have been discarded; a running one takes it at its boundary. -/
def execKill (id : Nat) (s : State) : Result :=
  match s.pegs.find? id with
  | none => s.stay
  | some p =>
    match s.bents.find? p.bent with
    | none => s.stay
    | some b =>
      if !b.drain || s.recordHeld p then s.stay
      else if s.cores.any (fun e => e.2.ctxs.any (fun c => decide (c.peg = id))) then s.stay
      else .next ((s.endPeg id p).reap)

/-- BENT_RECORD_WRITEBACK (R337, R373): a draining bent with no work left ends here. -/
def execBentRecordWriteback (b : Nat) (s : State) : Result :=
  match s.bents.find? b with
  | none => s.stay
  | some r => if s.lockedOut (s.bentLoc b).pa 256 then s.stay else .next ((s.writeBackBent b r).reap)

end Sys2Proof.Machine
end

