-- ==== Sys2Proof/Machine/Branch.lean ====
section
/-! DEFINITION. Branches and jumps (R122, R140). -/

namespace Sys2Proof.Machine

/-- A conditional branch (R140): to the target when the comparison holds. -/
def State.branch (s : State) (taken : Bool) (o : BitVec 16) : Result :=
  .next (s.setPc (if taken then brTarget s.pc o else s.pc + 4))

/-- R140. -/
def execBeq (a b : RegNo) (o : BitVec 16) (s : State) : Result := s.branch (s.getX a == s.getX b) o

/-- R140. -/
def execBne (a b : RegNo) (o : BitVec 16) (s : State) : Result := s.branch (s.getX a != s.getX b) o

/-- R140. -/
def execBlt (a b : RegNo) (o : BitVec 16) (s : State) : Result := s.branch ((s.getX a).slt (s.getX b)) o

/-- R140. -/
def execBge (a b : RegNo) (o : BitVec 16) (s : State) : Result := s.branch (!(s.getX a).slt (s.getX b)) o

/-- R140. -/
def execBltN (a b : RegNo) (o : BitVec 16) (s : State) : Result := s.branch ((s.getX a).ult (s.getX b)) o

/-- R140. -/
def execBgeN (a b : RegNo) (o : BitVec 16) (s : State) : Result := s.branch (!(s.getX a).ult (s.getX b)) o

/-- R140. -/
def execJ (o : BitVec 26) (s : State) : Result := .next (s.setPc (jTarget s.pc o))

/-- R140: the link goes to x31. -/
def execJal (o : BitVec 26) (s : State) : Result := .next ((s.putX 31 (s.pc + 4)).setPc (jTarget s.pc o))

/-- R140: a target with bits 1:0 set takes cause 0x05 and writes nothing (R118). -/
def execJalr (d a : RegNo) (i : BitVec 16) (s : State) : Result :=
  let t := s.getX a + i.signExtend 64
  if t.extractLsb' 0 2 ≠ 0 then s.trap 0x05
  else .next ((s.putX d (s.pc + 4)).setPc t)

end Sys2Proof.Machine
end

