-- ==== Sys2Proof/Machine/Scribe.lean ====
section
/-! DEFINITION. Scribe records (R165 to R168, R319 to R334): the instructions, what writers gather, and the merge at home. -/

namespace Sys2Proof.Machine

/-- The size of a record (R319). -/
def recSize : Nat := 128

/-! ## Statistics -/

/-- An n32 sum that saturates, and whether it did (R319, R326). -/
def satAdd (a b : Nat) : Nat × Bool := if 2 ^ 32 ≤ a + b then (2 ^ 32 - 1, true) else (a + b, false)

/-- Statistics at a binding (R324, R325): from record bytes 0x00 to 0x07. -/
def Stats.bind (d : List Byte) : Stats :=
  { epoch := fieldN d 4 4, et := fieldN d 0 1, eLo := signedOf 8 (fieldN d 2 1), count := 0, nan := 0, inf := 0, zero := 0
    amax := 0, bins := List.replicate 24 0 }

/-- Gather one value (R324). -/
def Stats.gather (st : Stats) (v : FVal) : Stats :=
  let st := { st with count := (satAdd st.count 1).1 }
  if v.isNaN then { st with nan := (satAdd st.nan 1).1 }
  else if v.isInf then { st with inf := (satAdd st.inf 1).1 }
  else if v.isZero then { st with zero := (satAdd st.zero 1).1 }
  else
    let i := clampNat 0 23 (v.ilog2 - st.eLo)
    { st with
      amax := max st.amax (roundUpF32 v.abs)
      bins := setNth st.bins i (satAdd ((nth? st.bins i).getD 0) 1).1 }

/-- The values an element's bits contribute (R323): a complex element two. -/
def valuesOf (t : ET) (bits : Nat) : List FVal :=
  match t.decode false bits with
  | .int i => [FVal.ofInt i]
  | .flt f => [f]
  | .cplx re im => [re, im]

/-- Gather an element as stored (R323). -/
def Stats.gatherEl (st : Stats) (t : ET) (bits : Nat) : Stats := (valuesOf t bits).foldl Stats.gather st

/-- Gather into statistics that may be absent. -/
def gatherOpt (st : Option Stats) (t : ET) (bits : Nat) : Option Stats := st.map (fun x => x.gatherEl t bits)

/-! ## The record -/

/-- Set the sticky bits of FLAGS (R320). -/
def flagRecord (d : List Byte) (bit : Nat) : List Byte := patch d 1 [BitVec.ofNat 8 (fieldN d 1 1 ||| 2 ^ bit)]

/-- Add to an n32 field of a record, setting CSAT when it saturates (R326). -/
def addField (d : List Byte) (off n : Nat) : List Byte :=
  let r := satAdd (fieldN d off 4) n
  let d := patch d off (leBytes 4 r.1)
  if r.2 then flagRecord d 0 else d

/-- MergeAt of R326 on the bytes of a record. -/
def mergeRecord (d : List Byte) (st : Stats) : List Byte :=
  if fieldN d 4 4 ≠ st.epoch then addField d 0x1C 1
  else if fieldN d 0 1 ≠ st.et ∨ signedOf 8 (fieldN d 2 1) ≠ st.eLo then flagRecord d 1
  else
    let d := patch d 8 (leBytes 4 (max (fieldN d 8 4) st.amax))
    let d := addField (addField (addField (addField d 0x0C st.nan) 0x10 st.inf) 0x14 st.zero) 0x18 st.count
    (indexed 0 st.bins).foldl (fun d e => addField d (0x20 + 4 * e.1) e.2) d

/-- E_LO of a fresh record (R165), as a byte. -/
def eLoOf : ET → Nat
  | .e4m3 => 0xF9
  | .e5m2 => 0xF8
  | .e2m1 => 0xFF
  | .bf16 | .f16 | .f32 | .f64 | .cf32 | .cf64 => 0xEF
  | _ => 0xFF

/-- A fresh record (R165). -/
def freshRecord (t : Nat) : List Byte := patch (List.replicate recSize 0) 0 [BitVec.ofNat 8 t, 0, BitVec.ofNat 8 (eLoOf (ET.ofCode t))]

/-- A record advanced to its next epoch (R166). -/
def nextRecord (d : List Byte) : List Byte :=
  let d := patch d 4 (leBytes 4 ((fieldN d 4 4 + 1) % 2 ^ 32))
  patch (patch d 8 (List.replicate 20 0)) 0x20 (List.replicate 96 0)

/-- Write a record's bytes at home, whatever stands open there (R321, R322). -/
def State.putRecord (s : State) (l : Loc) (d : List Byte) : State :=
  ((s.dropLines l.pa d.length).putBytes l.slot l.pa d).wake l.pa d.length

/-- A statistics merge performs at home (R326, R426): a record with a poisoned unit stays as it is. -/
def State.mergeStats (s : State) (l : Loc) (st : Stats) : State :=
  if s.poisoned l.pa recSize then s else s.putRecord l (mergeRecord (s.bytesAt l.slot l.pa recSize) st)

/-! ## Instructions -/

/-- A scribe access of the running peg (R135, R321): the record located, the peg's own order kept; then the check of the `n` bytes at
`off` that it reads. -/
def State.withScribe (s : State) (va : Word) (need : Need) (off n : Nat) (k : State → Loc → Result) : Result :=
  s.withLoc va recSize recSize 0 need false (fun s l =>
    if s.poisoned (l.pa + off) n then s.trapAt 0x1B va else k s l)

/-- R165: one indivisible write, seq-cst in class 0. -/
def execScrbInit (a : RegNo) (t : BitVec 4) (s : State) : Result :=
  s.withScribe (s.getX a) .both 0 0 (fun s l =>
    s.release s.ordScope 1 (fun s => .next (s.writeLoc l (freshRecord t.toNat)).skip))

/-- R166: seq-cst in class 0; the new epoch. -/
def execScrbNext (d a : RegNo) (s : State) : Result :=
  s.withScribe (s.getX a) .both 0 recSize (fun s l =>
    s.release s.ordScope 1 (fun s =>
      let r := s.readLoc l recSize
      let n := nextRecord r.2
      (r.1.writeLoc l n).retX d (BitVec.ofNat 64 (fieldN n 4 4))))

/-- R167. -/
def execScrbRd (d a : RegNo) (w : BitVec 5) (s : State) : Result :=
  s.withScribe (s.getX a) .home (4 * w.toNat) 4 (fun s l =>
    let r := s.readLoc { l with pa := l.pa + 4 * w.toNat } 4
    r.1.retX d (BitVec.ofNat 64 (leNat r.2)))

/-- Whether a record is stale for an expected epoch and a window (R168, R330). -/
def staleEpoch (e ep w : Nat) : Bool := decide (w < (e + 2 ^ 32 - ep) % 2 ^ 32)

/-- The window that an instruction or command uses (R168, R195). -/
def State.scribeWin (s : State) (v : BitVec 1) (w : BitVec 2) : Nat :=
  if v = 1 then (s.me.regs.scrbWin.extractLsb' 0 2).toNat else w.toNat

/-- QSCALE (R168). -/
def State.qscale (s : State) (d a : RegNo) (t : BitVec 4) (v : BitVec 1) (w : BitVec 2) (exact : Bool) (m : Nat) : Result :=
  let va := s.getX a
  s.withScribe va .home 4 8 (fun s l =>
    let r := s.readLoc { l with pa := l.pa + 4 } 8
    let e := (s.getX d).toNat % 2 ^ 32
    if staleEpoch e (fieldN r.2 0 4) (s.scribeWin v w) then r.1.trapAt 0x0C va
    else r.1.retX d (BitVec.ofNat 64 (qscaleOf (ET.ofCode t.toNat) exact m (fieldN r.2 4 4))))

/-- R168. -/
def execQscalePow2 (d a : RegNo) (t : BitVec 4) (v : BitVec 1) (w : BitVec 2) (s : State) : Result := s.qscale d a t v w false 0

/-- R168. -/
def execQscaleExact (d a : RegNo) (t : BitVec 4) (v : BitVec 1) (w m : BitVec 2) (s : State) : Result :=
  s.qscale d a t v w true m.toNat

/-! ## Merges of writers -/

/-- Whether an earlier access of a statistics merge's agent to the record has still to perform (R281, R284). -/
def State.recordWaits (s : State) (m : RecordMerge) : Bool :=
  s.pending.any (fun a => decide (a.agent = m.agent) && !a.lost && decide (a.no < m.no) && overlap a.loc.pa a.size m.loc.pa recSize) ||
  s.merges.any (fun n => n.parties.any (fun q => decide (q.agent = m.agent) && decide (q.no < m.no)) &&
    overlap n.loc.pa n.size m.loc.pa recSize) ||
  s.recordMerges.any (fun n => decide (n.agent = m.agent) && decide (n.no < m.no) && !n.lost && overlap n.loc.pa recSize m.loc.pa recSize)

/-- SCRIBE_MERGE (R326): a statistics merge performs at home, once; one that a silent package holds up waits. -/
def execScribeMerge (i : Nat) (s : State) : Result :=
  match nth? s.recordMerges i with
  | none => s.stay
  | some m =>
    match s.answer m.loc.pa recSize with
    | .silent | .refused => s.stay
    | .here =>
      if s.lockedOut m.loc.pa recSize || s.recordWaits m then s.stay
      else .next ({ s with recordMerges := dropNth s.recordMerges i }.mergeStats m.loc m.stats)

/-- The binding read of a writer (R325): the cause of a failing check, or the statistics it starts from. -/
inductive Bound where
  | ok (s : State) (st : Stats)
  | fault (code : Nat)
  | stall
  | silent
  deriving Repr

/-- Read 8 bytes of a record at home for a writer (R325): the agent that will merge, its bent, its bay. -/
def State.bindRecord (s : State) (bay b : Nat) (ag : Agent) (va : Word) : Bound :=
  match s.access bay b va recSize .both with
  | .error c => .fault c
  | .ok l =>
    match s.answer l.pa recSize with
    | .refused => .fault 0x1C
    | .silent => .silent
    | .here =>
      if s.lockedOut l.pa 8 || s.mergeOverlap ag l.pa 8 then .stall
      else if s.poisoned l.pa 8 then .fault 0x1B
      else
        let r := (s.sent l.pa 8).readLoc l 8
        .ok r.1 (Stats.bind r.2)

/-- The merge a writer owes (R327): issued when it gathered a value and the checks pass; the cause when they fail. -/
def State.issueMerge (s : State) (bay b : Nat) (ag : Agent) (peg : Nat) (cmd : Option Nat) (cls : Nat) (va : Word)
    (st : Stats) : Except Nat State :=
  if st.count = 0 then .ok s
  else match s.access bay b va recSize .both with
    | .error c => .error c
    | .ok l =>
      .ok { s.sent l.pa recSize with stamp := s.stamp + 1, recordMerges := s.recordMerges ++
        [{ no := s.stamp, agent := ag, peg := peg, bent := b, cmd := cmd, cls := cls, va := va, loc := l, stats := st, sent := s.elapsed
           lost := false }] }

end Sys2Proof.Machine
end

