-- ==== Sys2Proof/Machine/Buffers.lean ====
section
/-! DEFINITION. The typed buffers (R88 to R92, R426), descriptors and where their elements lie (R46, R52, R188 to R190), accumulator
ownership (R368), and global accesses of engines (R102, R190, R403). -/

namespace Sys2Proof.Machine

/-! ## Bytes of a local space -/

/-- The bytes of a space. -/
def Core.space (k : Core) : LocalSpace → ByteMap
  | .srf => k.srf
  | .wb => k.wb
  | .acc => k.acc

/-- Read bytes of a space. -/
def Core.readBuf (k : Core) (sp : LocalSpace) (off n : Nat) : List Byte := ByteMap.rdN (k.space sp) off n

/-- The bytes that one poison mark covers: an 8-byte unit (R426), an ACC element (R311). -/
def poisonUnit : LocalSpace → Nat
  | .acc => 4
  | _ => 8

/-- The poison marks of a space. -/
def Core.poisonOf (k : Core) : LocalSpace → AMap Unit
  | .srf => k.srfPoison
  | .wb => k.wbPoison
  | .acc => k.accPoison

/-- Whether bytes of a space meet poison. -/
def Core.bufPoisoned (k : Core) (sp : LocalSpace) (off n : Nat) : Bool :=
  let u := poisonUnit sp
  n != 0 && (rangeFrom (off / u) ((off + n - 1) / u - off / u + 1)).any (fun i => AMap.has (k.poisonOf sp) i)

/-- The marks that a write leaves: those of units it does not cover whole. -/
def clearMarks (u : Nat) (p : AMap Unit) (off n : Nat) : AMap Unit :=
  p.filter (fun e => !(decide (off ≤ u * e.1) && decide (u * e.1 + u ≤ off + n)))

/-- Write bytes of a space; poison under it clears (R311, R426). -/
def Core.writeBuf (k : Core) (sp : LocalSpace) (off : Nat) (d : List Byte) : Core :=
  match sp with
  | .srf => { k with srf := ByteMap.wrN k.srf off d, srfPoison := clearMarks 8 k.srfPoison off d.length }
  | .wb => { k with wb := ByteMap.wrN k.wb off d, wbPoison := clearMarks 8 k.wbPoison off d.length }
  | .acc => { k with acc := ByteMap.wrN k.acc off d, accPoison := clearMarks 4 k.accPoison off d.length }

/-- Whether scale-row bytes meet poison (R424, R426). -/
def Core.scalesPoisoned (k : Core) (off n : Nat) : Bool :=
  !k.scalePoison.isEmpty && n != 0 && (rangeFrom (off / 8) ((off + n - 1) / 8 - off / 8 + 1)).any (fun i => k.scalePoison.has i)

/-- SRF.FMTk (R90): f32 after reset. -/
def Core.fmtOf (k : Core) (bank : Nat) : Word := k.srfFmt.get bank 0x0B

/-- The element type of a bank (R90). -/
def fmtEt (w : Word) : ET := ET.ofCode (w.extractLsb' 0 4).toNat

/-! ## Accumulator ownership -/

/-- What a touch of a window finds (R368). -/
inductive Touch where
  | ok (k : Core)
  | other (w : Nat)
  deriving Repr

/-- A bent touches a window (R368). -/
def Core.touch (k : Core) (w b : Nat) : Touch :=
  let e := k.ownEntry w
  if !e.getLsbD 31 then .ok { k with accOwn := k.accOwn.put w (ownWord b none) }
  else if ownedBy e b then .ok k
  else .other w

/-! ## Descriptors -/

/-- The SPACE of a descriptor (R188); none is global. -/
abbrev DSpace := Option LocalSpace

/-- A descriptor's fields (R188). -/
structure Dsc where
  base : Nat
  c0 : Nat
  c1 : Nat
  c2 : Nat
  c3 : Nat
  s1 : Int
  s2 : Int
  s3 : Int
  space : DSpace
  gs : Nat
  et : ET
  qw : Nat
  ovr : Bool
  sat : Bool
  rm : BitVec 2
  ndim : Nat
  qep : Nat
  scale : Nat
  scribe : Nat
  reserved : Bool
  deriving DecidableEq, Repr

/-- Read a descriptor (R188). `strides`: one more stride than NDIM is in use, as in SLD.ST (R194). -/
def Dsc.parse (v : Desc) (strides : Nat) : Dsc :=
  let x := v.toNat
  let f (off n : Nat) : Nat := x / 2 ^ (8 * off) % 2 ^ (8 * n)
  let fmt := f 0x2A 1
  let ctl := f 0x2B 1
  let nd := ctl % 4
  let used (k : Nat) : Bool := decide (k ≤ nd)
  let cnt (k : Nat) : Nat := if used k then f (8 + 4 * k) 4 else 1
  let str (k : Nat) : Int := signedOf 48 (f (0x18 + 6 * (k - 1)) 6)
  let top := nd + strides
  { base := f 0 8 % 2 ^ 56, c0 := cnt 0, c1 := cnt 1, c2 := cnt 2, c3 := cnt 3, s1 := str 1, s2 := str 2, s3 := str 3
    space := match fmt / 64 with
      | 1 => some .srf
      | 2 => some .wb
      | 3 => some .acc
      | _ => none
    gs := fmt / 16 % 4, et := ET.ofCode (fmt % 16), qw := ctl / 64, ovr := ctl / 32 % 2 = 1, sat := ctl / 16 % 2 = 1
    rm := BitVec.ofNat 2 (ctl / 4 % 4), ndim := nd, qep := f 0x2C 4, scale := f 0x30 8 % 2 ^ 56, scribe := f 0x38 8 % 2 ^ 56
    reserved :=
      decide (f 7 1 ≠ 0) || decide (f 0x37 1 ≠ 0) || decide (f 0x3F 1 ≠ 0) ||
      [1, 2, 3].any (fun k => decide (nd < k) && decide (f (8 + 4 * k) 4 ≠ 0)) ||
      [1, 2, 3].any (fun k => decide (top < k) && decide (f (0x18 + 6 * (k - 1)) 6 ≠ 0)) }

/-- The element count (R189). -/
def Dsc.count (d : Dsc) : Nat := d.c0 * d.c1 * d.c2 * d.c3

/-- Indices of an element (R189). -/
structure Idx where
  i0 : Nat
  i1 : Nat
  i2 : Nat
  i3 : Nat
  deriving DecidableEq, Repr

def Dsc.idx (d : Dsc) (e : Nat) : Idx :=
  { i0 := e % d.c0, i1 := e / d.c0 % d.c1, i2 := e / d.c0 / d.c1 % d.c2, i3 := e / d.c0 / d.c1 / d.c2 }

/-- The linear number of indices. -/
def Dsc.lin (d : Dsc) (i : Idx) : Nat := i.i0 + d.c0 * (i.i1 + d.c1 * (i.i2 + d.c2 * i.i3))

/-- The group size of a GS code (R47). -/
def groupSize (gs : Nat) : Nat := if gs = 0 then 0 else 16 * 2 ^ gs

/-- Where an element lies: a byte address, a bit offset from it and a width; and for e2m1 its scale byte (R46, R52, R91). -/
structure Spot where
  row : Int
  bit : Nat
  width : Nat
  deriving DecidableEq, Repr

/-- The row address of indices (R189). -/
def Dsc.row (d : Dsc) (i : Idx) : Int := (d.base : Int) + i.i1 * d.s1 + i.i2 * d.s2 + i.i3 * d.s3

/-- Where an element lies (R189). -/
def Dsc.place (d : Dsc) (i : Idx) : Spot :=
  let w := d.et.bits
  let bit := match d.et, d.space with
    | .e2m1, some .srf => i.i0 / 512 * 272 * 8 + i.i0 % 512 * 4
    | _, _ => w * i.i0
  { row := d.row i, bit := bit, width := w }

/-- The element of SLD.ST (R194): every index steps a stride. -/
def Dsc.placeSt (d : Dsc) (i : Idx) : Spot :=
  { row := (d.base : Int) + i.i0 * d.s1 + i.i1 * d.s2 + i.i2 * d.s3, bit := 0, width := d.et.bits }

/-- Where the scale byte of an e2m1 element lies (R52, R91). -/
def Dsc.scalePlace (d : Dsc) (i : Idx) : Spot :=
  match d.space with
  | some .srf => { row := d.row i, bit := 8 * (i.i0 / 512 * 272 + 256 + i.i0 % 512 / 32), width := 8 }
  | _ => { row := d.scale, bit := 8 * (d.lin i / 32), width := 8 }

/-- First byte of a place. -/
def Spot.lo (p : Spot) : Int := p.row + (p.bit / 8 : Nat)

/-- Bytes a place covers. -/
def Spot.len (p : Spot) : Nat := (p.bit % 8 + p.width + 7) / 8

/-- The bits of a place out of the bytes it covers. -/
def Spot.get (p : Spot) (d : List Byte) : Nat := leNat d / 2 ^ (p.bit % 8) % 2 ^ p.width

/-- The covered bytes with the bits of a place replaced. -/
def Spot.put (p : Spot) (d : List Byte) (v : Nat) : List Byte :=
  let x := leNat d
  let s := 2 ^ (p.bit % 8)
  leBytes p.len (x % s + v % 2 ^ p.width * s + x / (s * 2 ^ p.width) * (s * 2 ^ p.width))

/-- The virtual address of a place (R189): 64 bits. -/
def Spot.va (p : Spot) : Word := BitVec.ofInt 64 p.lo

/-! ## Global accesses of engines -/

/-- What a global access of an engine finds. -/
inductive GChk where
  | ok (ls : List (Loc × Nat))
  | fault (code : Nat) (va : Word)
  | stall
  | silent (va : Word)
  deriving Repr

/-- Whose access an engine's access is (R279): the agent, its core and bent, its class, and the stamp of its program order, which the accesses of one
command share (R186). -/
structure Issuer where
  ag : Agent
  core : Nat
  bent : Nat
  cls : Nat
  no : Nat
  deriving DecidableEq, Repr

/-- An agent of no core whose accesses all perform as they are made. -/
def Issuer.of (ag : Agent) (bent : Nat) : Issuer := { ag := ag, core := 0, bent := bent, cls := 0, no := 0 }

/-- The issuer that a journalled command's engine is. -/
def Cmd.issuer (c : Cmd) (core : Nat) (ag : Agent) : Issuer := { ag := ag, core := core, bent := c.bent, cls := c.cls, no := c.no }

/-- Whether a command's engine has accesses of it still to perform. -/
def State.unperformed (s : State) (ag : Agent) (no : Nat) : Bool :=
  s.pending.any (fun a => decide (a.agent = ag) && decide (a.no = no) && !a.lost)

/-- Whether bytes overlap an access of an agent that has still to perform (R281). -/
def State.pendingOverlap (s : State) (ag : Agent) (pa n : Nat) : Bool :=
  s.pending.any (fun a => decide (a.agent = ag) && !a.lost && overlap a.loc.pa a.size pa n)

/-- The aligned 8-byte units that `n` bytes at an address touch (R102): address and length of each part. -/
def unitParts : Nat → Nat → Nat → List (Nat × Nat)
  | 0, _, _ => []
  | f + 1, va, n =>
    if n = 0 then []
    else
      let m := min n (8 - va % 8)
      (va, m) :: unitParts f (va + m) (n - m)

/-- Check the parts of an engine's access under bent `b` (R135, R190): translation and permission of each, then the answers of the
homes, then poison where data is needed. -/
def State.checkParts (s : State) (bay b : Nat) (ag : Agent) (need : Need) : List (Nat × Nat) → GChk
  | [] => .ok []
  | (va, n) :: t =>
    let w := BitVec.ofNat 64 va
    match s.translate bay b w need with
    | .error c => .fault c w
    | .ok l =>
      if s.lockedOut l.pa n || s.mergeOverlap ag l.pa n || s.pendingOverlap ag l.pa n then .stall
      else match s.answer l.pa n with
        | .refused => .fault 0x1C w
        | .silent => .silent w
        | .here =>
          if !(need = .write) && (if need.throughL2 then s.readPoisoned none bay l n else s.poisoned l.pa n) then .fault 0x1B w
          else match State.checkParts s bay b ag need t with
            | .ok ls => .ok ((l, n) :: ls)
            | r => r

/-- Check an engine's access to `n` bytes. -/
def State.gCheck (s : State) (bay b : Nat) (ag : Agent) (va : Word) (n : Nat) (need : Need) : GChk :=
  s.checkParts bay b ag need (unitParts n va.toNat n)

/-- What a global access of an engine came to; a write that no package answers names what may still arrive (R403). -/
inductive GOut where
  | ok (s : State) (d : List Byte)
  | fault (code : Nat) (va : Word)
  | stall
  | silent (va : Word) (late : List (Loc × List Byte))
  deriving Repr

/-- The parts of a write that were sent to a silent package (R403). -/
def State.lateParts (s : State) (bay b : Nat) : List (Nat × Nat) → List Byte → List (Loc × List Byte)
  | [], _ => []
  | (va, n) :: t, d =>
    match s.translate bay b (BitVec.ofNat 64 va) .write with
    | .error _ => []
    | .ok l =>
      let rest := State.lateParts s bay b t (d.drop n)
      if s.answer l.pa n = .silent then (l, d.take n) :: rest else rest

/-- Writes that took cause 0x1C for want of an answer: each may perform later, once, or never (R403). -/
def State.sendLate (s : State) (w : Issuer) (late : List (Loc × List Byte)) : State :=
  late.foldl (fun (s : State) e =>
    { s with
      stamp := s.stamp + 1
      pending := s.pending ++
        [{ no := s.stamp, agent := w.ag, core := w.core, bent := w.bent, cls := w.cls, ord := 0, kind := .store e.2, va := 0, loc := e.1
           size := e.2.length, sent := s.elapsed, lost := true }] }) s

/-- Read the checked parts. -/
def State.readParts (s : State) (bay : Nat) : List (Loc × Nat) → State × List Byte
  | [] => (s, [])
  | (l, n) :: t =>
    let r := s.fetchLoc none bay l n
    let q := State.readParts r.1 bay t
    (q.1, r.2 ++ q.2)

/-- One unit of an engine's write: it performs now, or, in a turn that leaves accesses pending, later, where its home is local (R102, R186). -/
def State.writePart (s : State) (w : Issuer) (bay : Nat) (va : Word) (l : Loc) (d : List Byte) : State :=
  if s.defer && (s.remote? l.pa).isNone && bay < homeBay then
    { s with pending := s.pending ++
        [{ no := w.no, agent := w.ag, core := w.core, bent := w.bent, cls := w.cls, ord := 0, kind := .store d, va := va, loc := l
           size := d.length, sent := s.elapsed, lost := false }] }
  else (s.writeLoc l d).cacheLines bay l d.length

/-- Write the checked parts. -/
def State.writeParts (s : State) (w : Issuer) (bay : Nat) (va : Word) : List (Loc × Nat) → List Byte → State
  | [], _ => s
  | (l, n) :: t, d => State.writeParts (s.writePart w bay va l (d.take n)) w bay (va + BitVec.ofNat 64 n) t (d.drop n)

/-- The translations and lines of an engine's access stay in its bay (R76, R94). -/
def State.touchParts (s : State) (bay b : Nat) (need : Need) (va : Word) : List (Loc × Nat) → State
  | [] => s
  | (l, n) :: t => State.touchParts (s.touched bay b va l n need) bay b need (va + BitVec.ofNat 64 n) t

/-- Read `n` bytes for an engine, through its bay or, with `home`, at their home (R321). -/
def State.gReadAs (s : State) (bay : Nat) (w : Issuer) (need : Need) (va : Word) (n : Nat) : GOut :=
  match s.gCheck bay w.bent w.ag va n need with
  | .ok ls =>
    let s := s.touchParts bay w.bent need va ls
    let r := if need.throughL2 then s.readParts bay ls else s.readParts homeBay (ls.map (fun e => ({ e.1 with cp := 1 }, e.2)))
    .ok r.1 r.2
  | .fault c w => .fault c w
  | .stall => .stall
  | .silent w => .silent w []

def State.gRead (s : State) (bay : Nat) (w : Issuer) (va : Word) (n : Nat) : GOut := s.gReadAs bay w .read va n

/-- Write bytes for an engine. -/
def State.gWrite (s : State) (bay : Nat) (w : Issuer) (va : Word) (d : List Byte) : GOut :=
  match s.gCheck bay w.bent w.ag va d.length .write with
  | .ok ls => .ok ((s.touchParts bay w.bent .write va ls).writeParts w bay va ls d) []
  | .fault c w => .fault c w
  | .stall => .stall
  | .silent v => .silent v (s.lateParts bay w.bent (unitParts d.length va.toNat d.length) d)

/-- Change the bits of one byte-masked write of an engine (R46, R102). -/
def State.gPatch (s : State) (bay : Nat) (w : Issuer) (p : Spot) (v : Nat) : GOut :=
  let b := w.bent
  match s.gCheck bay b w.ag p.va p.len .write with
  | .ok ls =>
    let old := (ls.map (fun e => s.bytesAt e.1.slot e.1.pa e.2)).flatten
    let t := (s.touchParts bay b .write p.va ls).writeParts w homeBay p.va ls (p.put old v)
    .ok (ls.foldl (fun t e => t.cacheLines bay e.1 e.2) t) []
  | .fault c w => .fault c w
  | .stall => .stall
  | .silent va =>
    -- the bytes beside the element, as they stand when it is sent
    let old := ((unitParts p.len p.va.toNat p.len).map (fun e => match s.translate bay b (BitVec.ofNat 64 e.1) .write with
      | .ok l => s.bytesAt l.slot l.pa e.2
      | .error _ => List.replicate e.2 0)).flatten
    .silent va (s.lateParts bay b (unitParts p.len p.va.toNat p.len) (p.put old v))

end Sys2Proof.Machine
end

