-- ==== Sys2Proof/Machine/Stream.lean ====
section
/-! DEFINITION. The data commands of the stream engine (R194 to R198): issue, operand checks (R191), reservations (R187) and elements. -/

namespace Sys2Proof.Machine

/-! ## Issue -/

/-- The d register of an index descriptor (R179). -/
def State.dNext (s : State) (b : BitVec 4) : Desc := s.me.getD (b + 1)

/-- R194. -/
def execSld (mode : SldMode) (cj : Bool) (c a b : BitVec 4) (ws : WaitSig) (s : State) : Result :=
  s.journalCmd (s.capture (.sld mode cj) c ws 0 0 (s.me.getD a) (s.me.getD b) (s.dNext b))

/-- R195. -/
def execSst (q : SstQuant) (c a b : BitVec 4) (ws : WaitSig) (s : State) : Result :=
  s.journalCmd (s.capture (.sst q) c ws 0 0 (s.me.getD a) (s.me.getD b) 0)

/-- R196. -/
def execSgth (c a b : BitVec 4) (ws : WaitSig) (s : State) : Result :=
  s.journalCmd (s.capture .sgth c ws 0 0 (s.me.getD a) (s.me.getD b) (s.dNext b))

/-- R196. -/
def execSsct (mrg : Bool) (c a b : BitVec 4) (ws : WaitSig) (s : State) : Result :=
  s.journalCmd (s.capture (.ssct mrg) c ws 0 0 (s.me.getD a) (s.me.getD b) (s.dNext b))

/-- R197. -/
def execSred (c a b : BitVec 4) (ws : WaitSig) (s : State) : Result :=
  s.journalCmd (s.capture .sred c ws 0 0 (s.me.getD a) (s.me.getD b) 0)

/-- R198. -/
def execScpy (a b : BitVec 4) (ws : WaitSig) (s : State) : Result :=
  s.journalCmd (s.capture .scpy 0 ws 0 0 (s.me.getD a) (s.me.getD b) 0)

/-- R199. -/
def execSbank (k : BitVec 4) (a : RegNo) (ws : WaitSig) (s : State) : Result :=
  s.journalCmd (s.capture (.sbank k) 0 ws (s.getX a) 0 0 0 0)

/-- R193. -/
def execSalloc (sp : LocalSpace) (a b : RegNo) (ws : WaitSig) (s : State) : Result :=
  s.journalCmd (s.capture (.salloc sp) 0 ws (s.getX a) (s.getX b) 0 0 0)

/-- R193. -/
def execSfree (sp : LocalSpace) (a b : RegNo) (ws : WaitSig) (s : State) : Result :=
  s.journalCmd (s.capture (.sfree sp) 0 ws (s.getX a) (s.getX b) 0 0 0)

/-! ## Jobs -/

/-- A data command with what its elements need: destination, source and index descriptors, the format of the first bank each reaches,
rounding and saturation (R190). -/
structure Job where
  c : Cmd
  core : Nat
  bay : Nat
  ag : Agent
  dst : Dsc
  src : Dsc
  idx : Dsc
  fD : Word
  fS : Word
  fI : Word
  rm : RMode
  sat : Bool

/-- Whose accesses the elements of a job are (R186). -/
def Job.issuer (j : Job) : Issuer := j.c.issuer j.core j.ag

/-- The format of the bank that a descriptor's first element lies in. -/
def Core.firstFmt (k : Core) (d : Dsc) : Word := k.fmtOf (d.base / 0x20000)

/-- A strided load (R194). -/
def CmdOp.strided : CmdOp → Bool
  | .sld .strided _ => true
  | _ => false

/-- The job of a data command. -/
def State.job (s : State) (core : Nat) (c : Cmd) : Job :=
  let k := s.core core
  let d := Dsc.parse c.da 0
  let sr := Dsc.parse c.db (if c.op.strided then 1 else 0)
  let ix := Dsc.parse c.di 0
  let fD := k.firstFmt d
  let own := d.space = some .srf && !d.ovr
  { c := c, core := core, bay := s.bayOf core, ag := .queue core c.op.queue, dst := d, src := sr, idx := ix
    fD := fD, fS := k.firstFmt sr, fI := k.firstFmt ix
    rm := RMode.ofField (if own then fD.extractLsb' 6 2 else d.rm) c.rnd
    sat := if own then fD.getLsbD 8 else d.sat }

/-- Whether the command reads an index descriptor. -/
def CmdOp.indexed : CmdOp → Bool
  | .sld .gather _ | .sgth | .ssct _ => true
  | _ => false

/-! ## Operand checks -/

/-- Whether the seating shape of R296 holds, SPACE to STR2 rows. -/
def Dsc.seatShape (d : Dsc) : Bool :=
  let n := d.c0
  let ks := if d.gs = 0 then 32 else groupSize d.gs
  (d.space = some .wb) && d.ndim = 2 &&
  ((d.et = .q4 || d.et = .q3) && d.gs != 0 || d.et = .i8) &&
  (n = 64 || n = 128 || n = 256) && d.c1 % ks = 0 && decide (ks ≤ d.c1) &&
  d.base % 0x10000 = 0 && decide (1 ≤ d.c2) && decide (d.c2 ≤ 32) && decide (d.base / 0x10000 + d.c2 ≤ 32) &&
  decide (d.s1 = (n * d.et.bits / 8 : Nat)) && decide (d.s2 = 0x10000)

/-- ET, GS and the counts of packed rows as R46, R47, R52 and R190 accept them. -/
def Dsc.typeOk (d : Dsc) : Bool :=
  (match d.et with
  | .q4 => d.gs != 0 && d.c0 % 2 = 0
  | .q3 => d.gs != 0 && d.c0 % 8 = 0
  | .e2m1 => d.gs = 0 && d.c0 % 32 = 0
  | .i8 => true
  | _ => d.gs = 0) &&
  (d.gs = 0 || (d.ndim != 0 && d.c1 % groupSize d.gs = 0)) &&
  (!(d.space = some .acc) || d.et = .f32 || d.et = .f64)

/-- The spaces that R24 lets each command use. -/
def Job.spacesOk (j : Job) : Bool :=
  let localSpace (d : Dsc) : Bool := d.space.isSome
  match j.c.op with
  | .sld _ _ => localSpace j.dst && j.src.space.isNone
  | .sst _ => j.dst.space.isNone && localSpace j.src
  | .sgth => (j.dst.space = some .srf) && j.src.space.isNone && (j.idx.space = some .srf)
  | .ssct _ => j.dst.space.isNone && (j.src.space = some .srf) && (j.idx.space = some .srf)
  | .sred => j.dst.space.isNone && (j.src.space = some .srf || j.src.space = some .acc)
  | .scpy => localSpace j.dst && localSpace j.src
  | _ => false

/-- The types that a merge element takes (R196, R197). -/
def mergeType (t : ET) : Bool := t = .i32 || t = .i64 || t = .f32 || t = .f64 || t = .bf16

/-- Whether scale rows take part (R297). -/
def Job.scalesMove (j : Job) : Bool :=
  j.dst.gs != 0 && j.dst.et = j.src.et && j.dst.gs = j.src.gs &&
  (match j.c.op with
  | .sld _ _ => j.dst.seatShape
  | .sst _ => j.src.seatShape
  | .scpy => j.dst.seatShape && j.src.seatShape
  | _ => false)

/-- Shapes and counts of R194 to R198. -/
def Job.shapeOk (j : Job) : Bool :=
  let d := j.dst
  let s := j.src
  let ixOk := j.idx.ndim = 0 && (j.idx.et = .i32 || j.idx.et = .i64) && j.idx.gs = 0 && j.idx.scale = 0
  match j.c.op with
  | .sld mode cj =>
    (!cj || (d.et.isC && s.et.isC)) &&
    (match mode with
    | .plain => d.count = s.count
    | .strided => decide (s.ndim ≤ 2) && !s.et.packed && d.count = s.count
    | .transpose =>
      s.ndim != 0 && d.ndim = s.ndim && s.c0 % 16 = 0 && s.c1 % 4 = 0 && !s.et.packed && d.c0 = s.c1 && d.c1 = s.c0 &&
        d.c2 = s.c2 && d.c3 = s.c3
    | .gather =>
      s.ndim != 0 && d.ndim = s.ndim && d.c0 = s.c0 && d.c1 = j.idx.c0 && d.c2 = s.c2 && d.c3 = s.c3 && ixOk &&
        j.idx.space.isNone)
  | .sst q => d.count = s.count &&
    (match q with
    | .none => true
    | _ => (d.et = .i8 || d.et = .e4m3 || d.et = .e5m2 || d.et = .f16) && d.gs = 0 && s.scribe != 0)
  | .sgth => d.count = j.idx.count && ixOk
  | .ssct m => s.count = j.idx.count && ixOk && !(d.et = .e2m1) && (!m || mergeType d.et)
  | .sred => d.count = s.count && mergeType d.et
  | .scpy => d.count = s.count
  | _ => false

/-- Conversions between the two types (R54, R61, R92): complex types only with each other, packed weights only from themselves. -/
def Job.convOk (j : Job) : Bool :=
  j.dst.et.isC = j.src.et.isC && (!(j.dst.et = .q4 || j.dst.et = .q3 || j.dst.gs != 0) || j.dst.et = j.src.et)

/-- Whether a descriptor's SCALE field has a use of its own (R48, R52, R189): grouped data in global memory, and e2m1 data outside the SRF, whose
superblocks and scale rows hold the scales of the others (R91, R297). -/
def Dsc.scaleUsed (d : Dsc) : Bool :=
  (d.gs != 0 && d.space.isNone) || (d.et = .e2m1 && !(d.space = some .srf))

/-- SCALE where it is reserved, and where one is required (R48, R52, R189, R297). -/
def Job.scaleOk (j : Job) : Bool :=
  let quant := match j.c.op with
    | .sst .none => false
    | .sst _ => true
    | _ => false
  let may (d : Dsc) (q : Bool) : Bool := d.scale = 0 || d.scaleUsed || q
  may j.dst quant && may j.src false &&
  !(j.dst.et = .e2m1 && j.dst.space.isNone && j.dst.scale = 0) &&
  !(j.src.et = .e2m1 && j.src.space.isNone && j.src.scale = 0) &&
  (!j.scalesMove || (match j.c.op with
    | .sld _ _ => j.src.scale != 0
    | .sst _ => j.dst.scale != 0
    | _ => true)) &&
  !(j.dst.space = some .wb && j.dst.gs != 0 && !j.dst.seatShape) &&
  !(j.src.space = some .wb && j.src.gs != 0 && !j.src.seatShape)

/-- The alignment of a type's elements (R44, R91). -/
def Dsc.alignOf (d : Dsc) : Nat :=
  match d.et, d.space with
  | .e2m1, some .srf => 16
  | t, _ => t.align

/-- A BASE, stride or pointer that breaks R44, R48 or R91. -/
def Dsc.misaligned (d : Dsc) : Bool :=
  let a := d.alignOf
  decide (d.base % a ≠ 0) || [d.s1, d.s2, d.s3].any (fun x => decide (x % (a : Int) ≠ 0)) ||
  (d.gs != 0 && decide (d.scale % 2 ≠ 0))

/-- Step 1 and 2 and 3 of R191 for a data command: the cause of the first failure. -/
def Job.check (j : Job) : Option Nat :=
  let res := j.dst.reserved || j.src.reserved || (j.c.op.indexed && j.idx.reserved)
  let quantPtr := match j.c.op with
    | .sst .none => false
    | .sst _ => decide (j.dst.scale % 4 ≠ 0)
    | _ => false
  let bank (d : Dsc) (f : Word) : Bool := d.space = some .srf && d.count != 0 && decide (d.base < 0x200000) && fmtEt f != d.et
  if res || !j.spacesOk || !j.dst.typeOk || !j.src.typeOk || !j.shapeOk || !j.convOk || !j.scaleOk then some 0x09
  else if j.dst.misaligned || j.src.misaligned || (j.c.op.indexed && j.idx.misaligned) || quantPtr then some 0x05
  else if bank j.src j.fS || bank j.dst j.fD || (j.c.op.indexed && bank j.idx j.fI) then some 0x0A
  else none

/-- The element count of a data command (R189, R194). -/
def Job.total (j : Job) : Nat :=
  match j.c.op with
  | .ssct _ => j.src.count
  | _ => j.dst.count

/-! ## Reservations -/

/-- Insert into a list of distinct numbers. -/
def addNew (l : List Nat) (ns : List Nat) : List Nat := ns.foldl (fun l n => if l.contains n then l else l ++ [n]) l

/-- The units that one row of a descriptor touches (R187), none outside its space. -/
def Dsc.rowUnits (d : Dsc) (sp : LocalSpace) (i1 i2 i3 : Nat) : List Nat :=
  if d.c0 = 0 then []
  else
    let a : Idx := ⟨0, i1, i2, i3⟩
    let z : Idx := ⟨d.c0 - 1, i1, i2, i3⟩
    let lo := (d.place a).lo
    let p := d.place z
    let hi := p.lo + p.len
    let hi := if d.et = .e2m1 && d.space = some .srf then max hi ((d.scalePlace z).lo + 1) else hi
    let lo := if lo < 0 then 0 else lo.toNat
    let hi := if hi < 0 then 0 else min hi.toNat (spaceSize sp)
    unitsOf sp lo (hi - lo)

/-- The units that a descriptor touches, with the scale bytes of an e2m1 tensor in the WB. -/
def Dsc.units (d : Dsc) : List Nat :=
  match d.space with
  | none => []
  | some sp =>
    let rows := (rangeFrom 0 d.c3).foldl (fun l i3 => (rangeFrom 0 d.c2).foldl (fun l i2 =>
      (rangeFrom 0 d.c1).foldl (fun l i1 => addNew l (d.rowUnits sp i1 i2 i3)) l) l) []
    if d.et = .e2m1 && sp = .wb then addNew rows (unitsOf sp d.scale (min (d.count / 32) (spaceSize sp - d.scale))) else rows

/-- Claims on the units of a descriptor. -/
def Dsc.claims (d : Dsc) (write : Bool) : List Claim :=
  match d.space with
  | none => []
  | some sp => d.units.map (fun u => { space := sp, unitNo := u, write := write })

/-- The reservation set of a data command (R187). -/
def Job.claims (j : Job) : List Claim :=
  if j.total = 0 then []
  else j.src.claims false ++ j.dst.claims true ++ (if j.c.op.indexed then j.idx.claims false else [])

/-! ## Elements -/

/-- What a part of an element comes to. -/
inductive Elem (α : Type) where
  | ok (a : α)
  | fault (code : Nat) (addr : Word)
  | firstUse (w : Nat)
  | stall
  | silent (va : Word) (late : List (Loc × List Byte))
  deriving Repr

/-- Go on with the result of a part. -/
def Elem.bind {α β : Type} (e : Elem α) (k : α → Elem β) : Elem β :=
  match e with
  | .ok a => k a
  | .fault c w => .fault c w
  | .firstUse w => .firstUse w
  | .stall => .stall
  | .silent va l => .silent va l

/-- The outcome of a global access as a part of an element. -/
def GOut.elem : GOut → Elem (State × List Byte)
  | .ok s d => .ok (s, d)
  | .fault c w => .fault c w
  | .stall => .stall
  | .silent va l => .silent va l

/-- Check a place in a local space (R190 to R192, R25, R91, R368): the byte offset, and the state with the window owned. -/
def State.localSpot (s : State) (core bent : Nat) (sp : LocalSpace) (f0 : Word) (p : Spot) (write : Bool) : Elem (State × Nat) :=
  let k := s.core core
  if p.lo < 0 then .fault 0x09 0
  else
    let lo := p.lo.toNat
    if spaceSize sp < lo + p.len || !k.holdsRange sp bent lo (lo + p.len) then .fault 0x09 0
    else match sp with
      | .srf => if (unitsOf .srf lo p.len).any (fun b => decide (k.fmtOf b ≠ f0)) then .fault 0x0A 0 else .ok (s, lo)
      | .wb => if write && k.seated (lo / 0x10000) then .fault 0x17 0 else .ok (s, lo)
      | .acc => match k.touch (lo / 4096) bent with
        | .ok k => .ok (s.setCore core k, lo)
        | .other w => .firstUse w

/-- The bytes of a source element with the units that were read ahead of it in place of memory's (R186): unit `i` of element `e` on. -/
def withAhead (m : AMap (List Byte)) (e : Nat) : Nat → List (Nat × Nat) → List Byte → List Byte
  | _, [], _ => []
  | i, (_, n) :: t, d => (match m.find? (4 * e + i) with
      | some b => b
      | none => d.take n) ++ withAhead m e (i + 1) t (d.drop n)

/-- The bits of a place in a descriptor's space. -/
def State.readSpot (s : State) (j : Job) (d : Dsc) (f0 : Word) (p : Spot) : Elem (State × Nat) :=
  match d.space with
  | none => (s.gRead j.bay j.issuer p.va p.len).elem.bind (fun r => .ok (r.1, p.get r.2))
  | some sp => (s.localSpot j.core j.c.bent sp f0 p false).bind (fun r =>
      let k := r.1.core j.core
      if k.bufPoisoned sp r.2 p.len then .fault 0x1B 0 else .ok (r.1, p.get (k.readBuf sp r.2 p.len)))

/-- Write the bits of a place in a descriptor's space. -/
def State.writeSpot (s : State) (j : Job) (d : Dsc) (f0 : Word) (p : Spot) (v : Nat) : Elem State :=
  match d.space with
  | none =>
    if p.width % 8 = 0 then (s.gWrite j.bay j.issuer p.va (leBytes p.len v)).elem.bind (fun r => .ok r.1)
    else (s.gPatch j.bay j.issuer p v).elem.bind (fun r => .ok r.1)
  | some sp => (s.localSpot j.core j.c.bent sp f0 p true).bind (fun r =>
      let k := r.1.core j.core
      .ok (r.1.setCore j.core (k.writeBuf sp r.2 (p.put (k.readBuf sp r.2 p.len) v))))

/-- The indices of group scales (R48): entry of (g, n) in the array of all matrices. -/
def Dsc.scaleEntry (d : Dsc) (i : Idx) : Nat :=
  let g := groupSize d.gs
  ((i.i2 + d.c2 * i.i3) * (d.c1 / g) + i.i1 / g) * d.c0 + i.i0

/-- The bits of source element `e`, units of it that were read ahead included. -/
def State.readElem (s : State) (j : Job) (e : Nat) (p : Spot) : Elem (State × Nat) :=
  if j.c.ahead.isEmpty || j.src.space.isSome then s.readSpot j j.src j.fS p
  else (s.gRead j.bay j.issuer p.va p.len).elem.bind (fun r =>
    .ok (r.1, p.get (withAhead j.c.ahead e 0 (unitParts p.len p.va.toNat p.len) r.2)))

/-- A source element as a number (R48, R52): the state, its bits and its value. -/
def State.readSource (s : State) (j : Job) (e : Nat) (i : Idx) (p : Spot) : Elem (State × Nat × Val) :=
  let d := j.src
  (s.readElem j e p).bind (fun r =>
    match d.et with
    | .e2m1 => (r.1.readSpot j d j.fS (d.scalePlace i)).bind (fun q => .ok (q.1, r.2, .flt (e2m1Val r.2 q.2)))
    | t =>
      let v := t.decode false r.2
      if d.gs ≠ 0 ∧ d.space.isNone ∧ d.scale ≠ 0 ∧ !j.scalesMove ∧ !(j.dst.et = d.et ∧ j.dst.gs = d.gs) then
        let sp : Spot := { row := d.scale, bit := 16 * d.scaleEntry i, width := 16 }
        (r.1.readSpot j d j.fS sp).bind (fun q => .ok (q.1, r.2, .flt (v.toF.mul (Fmt.bf16.decode q.2))))
      else .ok (r.1, r.2, v))

/-- Flip the sign of an imaginary part (R194). -/
def conjBits (t : ET) (x : Nat) : Nat := x ^^^ 2 ^ (t.bits - 1)

/-- Where source element `e` of the destination walk lies: indices and place (R194, R196); an index out of range faults. -/
def State.sourceSpot (s : State) (j : Job) (e : Nat) : Elem (State × Idx × Spot) :=
  let plain (e : Nat) : Elem (State × Idx × Spot) := .ok (s, j.src.idx e, j.src.place (j.src.idx e))
  match j.c.op with
  | .sld .strided _ => .ok (s, j.src.idx e, j.src.placeSt (j.src.idx e))
  | .sld .transpose _ =>
    let i := j.dst.idx e
    let q : Idx := ⟨i.i1, i.i0, i.i2, i.i3⟩
    .ok (s, q, j.src.place q)
  | .sld .gather _ =>
    let i := j.dst.idx e
    (s.readSpot j j.idx j.fI (j.idx.place ⟨i.i1, 0, 0, 0⟩)).bind (fun r =>
      let n := signedOf j.idx.et.bits r.2
      if n < 0 ∨ (j.src.c1 : Int) ≤ n then .fault 0x09 0
      else
        let q : Idx := ⟨i.i0, n.toNat, i.i2, i.i3⟩
        .ok (r.1, q, j.src.place q))
  | .sgth =>
    (s.readSpot j j.idx j.fI (j.idx.place ⟨e, 0, 0, 0⟩)).bind (fun r =>
      let n := signedOf j.idx.et.bits r.2
      if n < 0 ∨ (j.src.count : Int) ≤ n then .fault 0x09 0
      else .ok (r.1, j.src.idx n.toNat, j.src.place (j.src.idx n.toNat)))
  | _ => plain e

/-- Where destination element `e` lies (R196). -/
def State.destSpot (s : State) (j : Job) (e : Nat) : Elem (State × Idx × Spot) :=
  match j.c.op with
  | .ssct _ =>
    (s.readSpot j j.idx j.fI (j.idx.place ⟨e, 0, 0, 0⟩)).bind (fun r =>
      let n := signedOf j.idx.et.bits r.2
      if n < 0 ∨ (j.dst.count : Int) ≤ n then .fault 0x09 0
      else .ok (r.1, j.dst.idx n.toNat, j.dst.place (j.dst.idx n.toNat)))
  | _ => .ok (s, j.dst.idx e, j.dst.place (j.dst.idx e))

/-- The generator of an element, stepped (R57, R58). -/
def Cmd.gen (c : Cmd) (e : Nat) : Word32 := xorShift32 (c.gens.get (e % 32) (seedLane c.seed (e % 32) c.seq))

/-- An entry whose element stepped its generator, where SR applies. -/
def Cmd.stepGen (c : Cmd) (rm : RMode) (e : Nat) : Cmd :=
  match rm with
  | .sr => { c with gens := c.gens.put (e % 32) (c.gen e) }
  | _ => c

/-- The scale that moves with element (g × G, n) (R297): read from one side, written to the other. -/
def State.moveScale (s : State) (j : Job) (e : Nat) (si di : Idx) : Elem State :=
  if !j.scalesMove then .ok s
  else
    let w := match j.c.op with
      | .sst _ => j.src
      | _ => j.dst
    let i := match j.c.op with
      | .sst _ => si
      | _ => w.idx e
    let g := groupSize w.gs
    if i.i1 % g ≠ 0 then .ok s
    else
      let k := s.core j.core
      let slot (d : Dsc) (x : Idx) : Nat := 8192 * (d.base / 0x10000 + x.i2) + 2 * (x.i1 / g * d.c0 + x.i0)
      let glob (d : Dsc) : Spot :=
        { row := d.scale, bit := 16 * ((i.i2 * (w.c1 / g) + i.i1 / g) * w.c0 + i.i0), width := 16 }
      let from_ : Bool := match j.c.op with
        | .sld _ _ => false
        | _ => k.scalesPoisoned (slot j.src si) 2
      if from_ then .fault 0x1B 0
      else match j.c.op with
      | .sst _ => s.writeSpot j j.dst j.fD (glob j.dst) (leNat (ByteMap.rdN k.scaleRows (slot j.src si) 2))
      | .sld _ _ => (s.readSpot j j.src j.fS (glob j.src)).bind (fun r =>
          let k := r.1.core j.core
          .ok (r.1.setCore j.core { k with scaleRows := ByteMap.wrN k.scaleRows (slot j.dst di) (leBytes 2 r.2) }))
      | _ =>
        let v := ByteMap.rdN k.scaleRows (slot j.src si) 2
        .ok (s.setCore j.core { k with scaleRows := ByteMap.wrN k.scaleRows (slot j.dst di) v })

/-- An element performed: the state, the entry, and the next progress. -/
abbrev Done := State × Cmd × Nat

/-- A merge element is accepted for performance at home (R196, R197). -/
def State.mergeElem (s : State) (j : Job) (p : Spot) (bits : Nat) : Elem State :=
  let n := j.dst.et.bytes
  match s.access j.bay j.c.bent p.va n .both with
  | .error c => .fault c p.va
  | .ok l =>
    let op : MergeOp := if j.dst.et = .i32 || j.dst.et = .i64 then .add else .fadd
    .ok { (s.install j.bay j.c.bent p.va).sent l.pa n with
      stamp := s.stamp + 1
      merges := s.merges ++
      [{ parties := [{ no := s.stamp, agent := j.ag, peg := j.c.peg, bent := j.c.bent, cmd := some j.c.no, cls := j.c.cls, va := p.va }]
         op := op, loc := l, size := n, operand := BitVec.ofNat 64 bits, det := s.detAt j.c.bent l, release := false
         sent := s.elapsed }] }

/-- Whether an element's destination takes a merge. -/
def CmdOp.merges : CmdOp → Bool
  | .sred | .ssct true => true
  | _ => false

/-- Element `e` with a destination of one element at a time (R194 to R198). -/
def State.oneElem (s : State) (j : Job) (e : Nat) : Elem Done :=
  (s.sourceSpot j e).bind (fun (s, si, sp) =>
  (s.destSpot j e).bind (fun (s, di, dp) =>
  (s.readSource j e si sp).bind (fun (s, raw, v) =>
    let c := j.c
    let raw := match c.op with
      | .sld _ true => conjBits j.src.et raw
      | _ => raw
    let v := match c.op with
      | .sld _ true => j.src.et.decode false raw
      | _ => v
    let same := j.src.et = j.dst.et && (j.src.gs = j.dst.gs || j.dst.et.packed)
    let g := c.gen e
    let quant : Option (Bool × Nat) := match c.op, c.scale with
      | .sst (.pow2 _), some x => some (false, x)
      | .sst (.exact _ _), some x => some (true, x)
      | _, _ => none
    let c := { c.stepGen j.rm e with asked := none }
    let put (c : Cmd) (bits : Nat) : Elem Done :=
      let w := if c.op.merges then s.mergeElem j dp bits else s.writeSpot j j.dst j.fD dp bits
      w.bind (fun s => (s.moveScale j e si di).bind (fun s =>
        .ok (s, { c with stats := gatherOpt c.stats j.dst.et bits }, e + 1)))
    match quant with
    | some (exact, x) =>
      let r := convertQuant j.dst.et j.rm g (v.toF.mul (scaleVal exact x))
      if r.2 && c.counted != some e then
        let n := min (c.ovf + 1) (2 ^ 32 - 1)
        if c.thr < n then .fault 0x0D (BitVec.ofNat 64 (c.ovf * 2 ^ 32 + 1)) else put { c with ovf := n, counted := some e } r.1
      else put c r.1
    | none => put c (if same then raw else convert j.dst.et false j.rm j.sat g v))))

/-- The 32 source elements of a block from element `b`, as values (R53); a fault names its element. -/
def State.blockVals (s : State) (j : Job) : Nat → Nat → Elem (State × List (Nat × Val))
  | 0, _ => .ok (s, [])
  | n + 1, e => (s.sourceSpot j e).bind (fun (s, si, sp) => (s.readSource j e si sp).bind (fun (s, raw, v) =>
      (State.blockVals s j n (e + 1)).bind (fun r => .ok (r.1, (raw, v) :: r.2))))

/-- The scale and codes of a block (R53, R58), each element with its generator. -/
def blockCodes (c : Cmd) (rm : RMode) (b : Nat) (vs : List FVal) : Nat × List Nat :=
  let x := e2m1Scale vs
  (x, (indexed b vs).map (fun q => e2m1Code rm (c.gen q.1) x q.2))

/-- Write the codes of a block from element `b`. -/
def State.putCodes (s : State) (j : Job) : Nat → List Nat → Elem State
  | _, [] => .ok s
  | e, q :: t => (s.writeSpot j j.dst j.fD (j.dst.place (j.dst.idx e)) q).bind (fun s => State.putCodes s j (e + 1) t)

/-- A whole e2m1 block, the one that holds element `e` (R53, R92). -/
def State.blockElem (s : State) (j : Job) (e : Nat) : Elem Done :=
  let b := e / 32 * 32
  (s.blockVals j 32 b).bind (fun (s, vs) =>
    let c := j.c
    let copied := j.src.et = .e2m1 && !(c.op = .sgth)
    let finish (s : State) (x : Nat) (codes : List Nat) : Elem Done :=
      (s.writeSpot j j.dst j.fD (j.dst.scalePlace (j.dst.idx b)) x).bind (fun s => (s.putCodes j b codes).bind (fun s =>
        let c := (rangeFrom b 32).foldl (fun c i => c.stepGen j.rm i) c
        let st := codes.foldl (fun st q => st.map (fun y => y.gather (e2m1Val q x))) c.stats
        .ok (s, { c with stats := st, asked := none }, b + 32)))
    if copied then
      (s.sourceSpot j b).bind (fun (s, si, _) => (s.readSpot j j.src j.fS (j.src.scalePlace si)).bind (fun (s, x) =>
        finish s x (vs.map Prod.fst)))
    else
      let r := blockCodes c j.rm b (vs.map (fun q => q.2.toF))
      finish s r.1 r.2)

/-- A unit of a source element in global memory is read before its turn (R186): the element whose number is `k` past the next one, where it can be
read without a fault. -/
def State.readAhead (s : State) (core : Nat) (c : Cmd) (k unit : Nat) : State × Cmd :=
  let j := s.job core c
  let e := c.progress + k
  if j.src.space.isSome || j.total ≤ e || c.ahead.has (4 * e + unit) then (s, c)
  else match s.sourceSpot j e with
    | .ok (t, _, p) => match nth? (unitParts p.len p.va.toNat p.len) unit with
      | none => (s, c)
      | some (va, n) => match t.gRead j.bay j.issuer (BitVec.ofNat 64 va) n with
        | .ok t d => (t, { c with ahead := c.ahead.put (4 * e + unit) d })
        | _ => (s, c)
    | _ => (s, c)

/-- The next element of a data command. -/
def State.dataElem (s : State) (core : Nat) (c : Cmd) : Elem Done :=
  let j := s.job core c
  if j.dst.et = .e2m1 then s.blockElem j c.progress else s.oneElem j c.progress

/-- What SST writes last (R195): the scale as an f32 at the destination's SCALE. -/
def State.scaleOut (s : State) (core : Nat) (c : Cmd) : Elem State :=
  let j := s.job core c
  let put (bits : Nat) : Elem State :=
    if j.dst.scale = 0 || c.scaled then .ok s
    else (s.gWrite j.bay j.issuer (BitVec.ofNat 64 j.dst.scale) (leBytes 4 bits)).elem.bind (fun r => .ok r.1)
  match c.op, c.scale with
  | .sst (.pow2 _), some x => put (Fmt.f32.deliver .rne false 0 (e8m0 x)).1
  | .sst (.exact _ _), some x => put x
  | _, _ => .ok s

/-! ## Start -/

/-- What a start of an entry comes to, after its reservation. -/
inductive Started where
  | go (s : State) (c : Cmd)
  | fault (code : Nat) (addr : Word) (c : Cmd)
  | stall
  | silent (va : Word)
  deriving Repr

/-- The scale read of SST with Q at its start (R195, R330). -/
def State.quantScale (s : State) (core : Nat) (c : Cmd) (k : State → Cmd → Started) : Started :=
  let j := s.job core c
  let form (exact : Bool) (m : Nat) (dw : Bool) : Started :=
    match c.scale with
    | some _ => k s c
    | none =>
      let va := BitVec.ofNat 64 j.src.scribe
      if j.src.scribe % recSize ≠ 0 then .fault 0x05 va c
      else match s.gReadAs j.bay j.issuer .home (va + 4) 8 with
        | .fault code _ => .fault code va c
        | .stall => .stall
        | .silent w _ => .silent w
        | .ok s d =>
          let w := if dw then c.win else j.src.qw
          if staleEpoch j.src.qep (fieldN d 0 4) w then .fault 0x0C va c
          else k s { c with scale := some (qscaleOf j.dst.et exact m (fieldN d 4 4)) }
  match c.op with
  | .sst (.pow2 dw) => form false 0 dw
  | .sst (.exact m dw) => form true m.toNat dw
  | _ => k s c

/-- The binding read of a command that gathers (R323, R325). -/
def State.bindCmd (s : State) (core : Nat) (c : Cmd) (record : Nat) (k : State → Cmd → Started) : Started :=
  if record = 0 || c.stats.isSome then k s c
  else
    let va := BitVec.ofNat 64 record
    match s.bindRecord (s.bayOf core) c.bent (.queue core c.op.queue) va with
    | .fault code => .fault code va c
    | .stall => .stall
    | .silent => .silent va
    | .ok s st => k s { c with stats := some st }

/-- The start of a data command: operand checks, scale, binding (R191, R195, R325). -/
def State.startData (s : State) (core : Nat) (c : Cmd) : Started :=
  let j := s.job core c
  match j.check with
  | some code => .fault code 0 c
  | none =>
    if j.total = 0 then .go s c
    else
      let rec_ := match c.op with
        | .sst _ | .scpy | .sred => j.dst.scribe
        | _ => 0
      s.quantScale core c (fun s c => s.bindCmd core c rec_ (fun s c => .go s c))

end Sys2Proof.Machine
end

