-- ==== Sys2Proof/Machine/Coll.lean ====
section
/-! DEFINITION. Collectives (R205, R406 to R409): issue, the collective block, the steps of a round, and the abort of a round. -/

namespace Sys2Proof.Machine

/-! ## Issue -/

/-- R205. -/
def execColl (c : BitVec 4) (a : RegNo) (ws : WaitSig) (s : State) : Result :=
  s.journalCmd (s.capture .coll c ws (s.getX a) 0 0 0 0)

/-- R205. -/
def execCollAbt (c : BitVec 4) (a : RegNo) (ws : WaitSig) (s : State) : Result :=
  s.journalCmd (s.capture .collAbt c ws (s.getX a) 0 0 0 0)

/-! ## The block -/

/-- A collective block (R205), with its member list once read. -/
structure CollBlock where
  op : Nat
  alg : Nat
  et : ET
  uns : Bool
  rop : Nat
  nmem : Nat
  me : Nat
  count : Nat
  send : Nat
  recv : Nat
  memb : Nat
  round : BitVec 32
  scribe : Nat
  flag : Nat
  flagv : Nat
  reserved : Bool
  members : List Nat
  deriving Repr

/-- Split bytes into little-endian n32 values, `n` of them. -/
def words32 : Nat → List Byte → List Nat
  | 0, _ => []
  | n + 1, d => leNat (d.take 4) :: words32 n (d.drop 4)

/-- Read a block of 128 bytes followed by its member list. -/
def CollBlock.parse (d : List Byte) : CollBlock :=
  let nmem := fieldN d 4 2
  { op := fieldN d 0 1, alg := fieldN d 1 1, et := ET.ofCode (fieldN d 2 1 % 16), uns := fieldN d 2 1 / 16 % 2 = 1
    rop := fieldN d 3 1, nmem := nmem, me := fieldN d 6 2, count := fieldN d 8 8, send := fieldN d 0x10 8
    recv := fieldN d 0x18 8, memb := fieldN d 0x20 8, round := BitVec.ofNat 32 (fieldN d 0x28 4), scribe := fieldN d 0x30 8
    flag := fieldN d 0x38 8, flagv := fieldN d 0x40 8
    reserved := decide (32 ≤ fieldN d 2 1) || fieldN d 0x2C 4 != 0 || !((d.drop 0x48).take 56).all (· == 0)
    members := words32 (if d.length ≤ 128 then 0 else nmem) (d.drop 128) }

/-- The types that a sum, min or max accepts (R406). -/
def collType (t : ET) : Bool := t = .i32 || t = .i64 || t = .bf16 || t = .f32 || t = .f64

/-- Bytes that a member sends from and receives into (R406). -/
def CollBlock.sendLen (b : CollBlock) : Nat := (if b.op = 1 then b.nmem else 1) * b.count * b.et.bytes
def CollBlock.recvLen (b : CollBlock) : Nat := (if b.op = 2 then b.nmem else 1) * b.count * b.et.bytes

/-- The refusals of R205, R406 and R407 that the block alone shows. -/
def CollBlock.bad (b : CollBlock) : Bool :=
  let hit := decide (b.send < b.recv + b.recvLen) && decide (b.recv < b.send + b.sendLen)
  b.reserved || decide (3 < b.op) || decide (1 < b.alg) || decide (2 < b.rop) || decide (b.nmem < 2) || decide (2040 < b.nmem) ||
  decide (b.nmem ≤ b.me) || (decide (2 ≤ b.op) && b.rop != 0) || b.et.packed || (decide (b.op < 2) && !collType b.et) ||
  (b.uns && !(decide (b.op < 2) && b.rop != 0 && (b.et = .i32 || b.et = .i64))) ||
  (hit && !(b.send = b.recv && (b.op = 0 || b.op = 3)))

/-- The first pointer of the block that breaks R44. -/
def CollBlock.misaligned (b : CollBlock) : Option Nat :=
  (List.find? (fun (p : Nat × Nat) => p.1 % p.2 != 0)
    [(b.send, b.et.align), (b.recv, b.et.align), (b.memb, 4), (b.flag, 8), (b.scribe, recSize)]).map Prod.fst

/-- Package and bay of a member entry (R205). -/
def membPkg (m : Nat) : Nat := m % 256
def membBay (m : Nat) : Nat := m / 256 % 8

/-- Two equal entries of a list. -/
def hasDup : List Nat → Bool
  | [] => false
  | a :: t => t.contains a || hasDup t

/-- The refusals of R205 and R407 that the member list shows. -/
def CollBlock.badList (b : CollBlock) (pkg bay : Nat) : Bool :=
  b.members.any (fun m => decide (2 ^ 11 ≤ m)) || hasDup b.members ||
  (match nth? b.members b.me with
  | some m => m != pkg + 256 * bay
  | none => true)

/-! ## Rounds -/

/-- The block of a started COLL. -/
def Cmd.coll (c : Cmd) : CollBlock := CollBlock.parse c.block

/-- Whether a COLL has started and is of a round. -/
def Cmd.ofRound (c : Cmd) (r : BitVec 32) : Bool := c.op = .coll && c.ready && c.coll.round = r

/-- Whether a round is active at the engine of a bay (R407). -/
def State.roundActive (s : State) (bay : Nat) (r : BitVec 32) : Bool :=
  s.cores.any (fun e => decide (s.bayOf e.1 = bay) && e.2.journal.any (fun c => c.ofRound r))

/-- Collectives that the engine of a bay runs (R407). -/
def State.roundsAt (s : State) (bay : Nat) : Nat :=
  (s.cores.map (fun e => if s.bayOf e.1 = bay then (e.2.journal.filter (fun c => c.op = .coll && c.ready)).length else 0)).foldl (· + ·) 0

/-- A round is aborted at the engine of a bay (R409): its messages go, and a running COLL of it stops. -/
def State.abortRound (s : State) (bay : Nat) (r : BitVec 32) : State :=
  let y := s.bay bay
  let s := s.setBay bay { y with
    aborted := if y.aborted.contains r then y.aborted else y.aborted ++ [r]
    held := y.held.filter (fun m => !(decide (m.round = r))) }
  let hits := (s.cores.map (fun e => if s.bayOf e.1 = bay then
    (e.2.journal.filter (fun c => c.ofRound r && c.st != .stopped)).map (fun c => (e.1, c)) else [])).flatten
  hits.foldl (fun s h => s.stopCmd h.1 h.2 0x16 h.2.progress (r.zeroExtend 64)) s

/-- A step message arrives at the engine of a bay (R407, R409): dropped when its round was aborted, held otherwise. -/
def State.holdMessage (s : State) (bay : Nat) (m : CollMsg) : State :=
  let y := s.bay bay
  if y.aborted.contains m.round then s else s.setBay bay { y with held := y.held ++ [m] }

/-- COLL_STEP_MESSAGE (R406, R407). -/
def execCollStepMessage (bay : Nat) (m : CollMsg) (s : State) : Result := .next (s.holdMessage bay m)

/-- COLL_ABT_MESSAGE (R409). -/
def execCollAbtMessage (bay : Nat) (m : CollAbortMsg) (s : State) : Result := .next (s.abortRound bay m.round)

/-- Whether COLL.TMO has passed since a start (R408). -/
def State.pastTmo (s : State) (tmo since : Nat) : Bool := tmo != 0 && decide (s.elapsed ≥ since + 1000 * tmo)

/-- COLL_TIMEOUT (R408, R409). -/
def execCollTimeout (core : Nat) (n : BitVec 32) (s : State) : Result :=
  match (s.core core).entry n with
  | none => s.stay
  | some c =>
    if c.op = .coll && c.ready && c.st != .stopped && s.pastTmo c.collTmo c.started then
      .next (s.stopCmd core c 0x16 c.progress (c.coll.round.zeroExtend 64))
    else s.stay

/-! ## Start -/

/-- Read the block, and the member list when elements are counted (R180, R189, R191). -/
def State.readColl (s : State) (core : Nat) (c : Cmd) (k : State → List Byte → Started) : Started :=
  let bay := s.bayOf core
  let ag := Agent.queue core c.op.queue
  if c.xa.toNat % 128 ≠ 0 then .fault 0x05 c.xa c
  else match s.gRead bay (c.issuer core ag) c.xa 128 with
    | .fault code va => .fault code va c
    | .stall => .stall
    | .silent va _ => .silent va
    | .ok s d =>
      let b := CollBlock.parse d
      if b.bad then .fault 0x09 0 c
      else match b.misaligned with
      | some a => .fault 0x05 (BitVec.ofNat 64 a) c
      | none =>
      if b.count = 0 && c.op = .coll then k s d
      else match s.gRead bay (c.issuer core ag) (BitVec.ofNat 64 b.memb) (4 * b.nmem) with
        | .fault code va => .fault code va c
        | .stall => .stall
        | .silent va _ => .silent va
        | .ok s l =>
          if (CollBlock.parse (d ++ l)).badList s.mgmt.config.pkg bay then .fault 0x09 0 c else k s (d ++ l)

/-- Whether some page of a range is deterministic (R406). -/
def State.detRange (s : State) (bay b va n : Nat) : Bool :=
  (rangeFrom (va / 4096) (if n = 0 then 0 else (va + n - 1) / 4096 - va / 4096 + 1)).any (fun p =>
    match s.translate bay b (BitVec.ofNat 64 (max va (4096 * p))) .write with
    | .ok l => l.det
    | .error _ => false)

/-- The start of a COLL (R191, R325, R406, R407). -/
def State.startColl (s : State) (core : Nat) (c : Cmd) : Started :=
  let bay := s.bayOf core
  s.readColl core c (fun s d =>
    let b := CollBlock.parse d
    let flagDet := match s.bents.find? c.bent with
      | some r => r.det
      | none => false
    if s.roundActive bay b.round || (s.bay bay).aborted.contains b.round then .fault 0x09 0 c
    else if b.count = 0 then .go s { c with block := d, started := s.elapsed }
    else
      let c := { c with block := d, started := s.elapsed, det := flagDet || s.detRange bay c.bent b.recv b.recvLen }
      s.bindCmd core c b.scribe (fun s c => .go s c))

/-- The start of a COLL.ABT (R205, R409). -/
def State.startAbort (s : State) (core : Nat) (c : Cmd) : Started :=
  s.readColl core c (fun s d => .go s { c with block := d, started := s.elapsed })

/-! ## Steps -/

/-- The members whose contributions this member needs, but for its own (R406). -/
def CollBlock.needed (b : CollBlock) : List Nat :=
  if b.op = 3 then (if b.me = 0 then [] else [0]) else (rangeFrom 0 b.nmem).filter (· != b.me)

/-- The steps of a round at a member (log 25): its own contribution sent, each needed one received, RECV written. -/
def CollBlock.steps (b : CollBlock) : Nat := if b.count = 0 then 0 else b.needed.length + 2

/-- What a member sends to member `i`: its whole SEND, or chunk `i` (R406). -/
def CollBlock.part (b : CollBlock) (d : List Byte) (i : Nat) : List Byte :=
  if b.op = 1 then (d.drop (i * b.count * b.et.bytes)).take (b.count * b.et.bytes) else d

/-- Send a step message to a member: to an engine of this package, or out on the fabric in packets of at most 256 bytes (R401, R402); one that no link
takes does not arrive. -/
def State.sendStep (s : State) (memb : Nat) (m : CollMsg) : State :=
  let p := membPkg memb
  let n := packetsOf 0 m.data.length
  if p = s.mgmt.config.pkg then s.holdMessage (membBay memb) m
  else if (s.peer (s.hop p)).sends n then { s.countPackets p n with outbox := s.outbox ++ [.collStep p (membBay memb) m] }
  else s

/-- Take the held messages of a round into its COLL; a contribution already there is discarded (R211, R407). -/
def State.takeHeld (s : State) (bay : Nat) (c : Cmd) : State × Cmd :=
  let y := s.bay bay
  let r := c.coll.round
  let mine := y.held.filter (fun m => m.round = r)
  let c := mine.foldl (fun c m => if AMap.has c.got m.src then c
    else { c with got := c.got.put m.src m.data, det := c.det || m.det }) c
  (s.setBay bay { y with held := y.held.filter (fun m => !(decide (m.round = r))) }, c)

/-- Split bytes into elements of `n` bytes. -/
def elemsOf (n : Nat) : Nat → List Byte → List Nat
  | 0, _ => []
  | f + 1, d => if d.isEmpty then [] else leNat (d.take n) :: elemsOf n f (d.drop n)

/-- ROP over one element of every member, by list position (R406): `split` draws the default association. -/
def collElem (b : CollBlock) (det : Bool) (split : Nat → Nat → Nat) (xs : List Nat) : Nat :=
  let w := b.et.bits
  match b.et.fmt? with
  | some f =>
    let vs := xs.map f.decode
    let v := match b.rop with
      | 0 => if det then canonSum f vs else assocSum f split vs
      | 1 => (vs.tail).foldl FVal.min (vs.headD .zero)
      | _ => (vs.tail).foldl FVal.max (vs.headD .zero)
    (f.deliver .rne false 0 v).1
  | none =>
    let le (x y : Nat) : Bool := if b.uns then decide (x ≤ y) else decide (signedOf w x ≤ signedOf w y)
    match b.rop with
    | 0 => xs.foldl (fun a x => (a + x) % 2 ^ w) 0
    | 1 => (xs.tail).foldl (fun a x => if le a x then a else x) (xs.headD 0)
    | _ => (xs.tail).foldl (fun a x => if le a x then x else a) (xs.headD 0)

/-- The element at a position of every contribution. -/
def column (ls : List (List Nat)) (e : Nat) : List Nat := ls.map (fun l => (nth? l e).getD 0)

/-- The elements of RECV (R406). -/
def CollBlock.result (b : CollBlock) (free : Nat) (det : Bool) (got : AMap (List Byte)) : List Nat :=
  let els (i : Nat) : List Nat := elemsOf b.et.bytes b.count (AMap.get got i [])
  let all := (rangeFrom 0 b.nmem).map els
  match b.op with
  | 2 => all.flatten
  | 3 => els 0
  | _ => (rangeFrom 0 b.count).map (fun e => collElem b det (Config.sumSplit (free + e)) (column all e))

/-- The next step of a COLL (R406): none where it waits for a message. -/
def State.collElemStep (s : State) (core : Nat) (c : Cmd) : Elem Done :=
  let bay := s.bayOf core
  let ag := Agent.queue core .coll
  let b := c.coll
  let (s, c) := s.takeHeld bay c
  if (s.bay bay).aborted.contains b.round then .fault 0x16 (b.round.zeroExtend 64)
  else if c.progress = 0 then
    let sends := b.op != 3 || b.me = 0
    if !sends then .ok (s, c, 1)
    else (s.gRead bay (c.issuer core ag) (BitVec.ofNat 64 b.send) b.sendLen).elem.bind (fun r =>
      let s := (indexed 0 b.members).foldl (fun s e => if e.1 = b.me then s
        else s.sendStep e.2 { round := b.round, src := b.me, data := b.part r.2 e.1, det := c.det }) r.1
      .ok (s, { c with got := c.got.put b.me (b.part r.2 b.me) }, 1))
  else if c.progress ≤ b.needed.length then
    if (b.needed.filter (fun i => AMap.has c.got i)).length < c.progress then .stall else .ok (s, c, c.progress + 1)
  else
    let es := b.result s.free c.det c.got
    let s : State := { s with free := s.free + b.count }
    (s.gWrite bay (c.issuer core ag) (BitVec.ofNat 64 b.recv) ((es.map (leBytes b.et.bytes)).flatten)).elem.bind (fun r =>
      .ok (r.1, { c with stats := es.foldl (fun st x => gatherOpt st b.et x) c.stats }, c.progress + 1))

/-- The statistics merge of a command that has not performed yet. -/
def State.ownMerge (s : State) (c : Cmd) : Option RecordMerge :=
  List.find? (fun (m : RecordMerge) => decide (m.cmd = some c.no) && !m.lost) s.recordMerges

/-- The FLAG write of a COLL (R205, R289): a release at PKG that waits for the COLL's own merge, and takes cause 0x1C where that has failed (R403). -/
def State.collFlag (s : State) (core : Nat) (c : Cmd) : Elem State :=
  let b := c.coll
  if b.flag = 0 then .ok s
  else match s.ownMerge c with
    | some m => if s.mergeFailed m.loc recSize m.sent then .fault 0x1C m.va else .stall
    | none =>
      (s.gWrite (s.bayOf core) (c.issuer core (.queue core .coll)) (BitVec.ofNat 64 b.flag) (leBytes 8 b.flagv)).elem.bind (fun r => .ok r.1)

/-! ## COLL.ABT -/

/-- The member that a COLL.ABT reaches next (R409): it answers at once, or the COLL.ABT waits for it; COLL.TMO begins anew with each member. -/
def State.abortElem (s : State) (c : Cmd) : Elem Done :=
  let b := c.coll
  match nth? b.members c.progress with
  | none => .ok (s, c, c.progress + 1)
  | some m =>
    let done := { c with answered := c.answered ++ [c.progress], started := s.elapsed }
    let p := membPkg m
    if p = s.mgmt.config.pkg then .ok (s.abortRound (membBay m) b.round, done, c.progress + 1)
    else if s.reachable p 1 then
      .ok ({ s.countPackets p 1 with outbox := s.outbox ++ [.collAbort p (membBay m) { round := b.round, src := b.me }] }, done, c.progress + 1)
    else .stall

/-- COLL_ABT_MEMBER_TIMEOUT (R409): the member awaited, which has had the captured COLL.TMO to itself, is skipped. -/
def execCollAbtMemberTimeout (core : Nat) (n : BitVec 32) (s : State) : Result :=
  match (s.core core).entry n with
  | none => s.stay
  | some c =>
    if c.op = .collAbt && c.ready && c.st = .running && decide (c.progress < c.coll.members.length) && s.pastTmo c.collTmo c.started then
      .next (s.setCore core ((s.core core).setEntry { c with progress := c.progress + 1, started := s.elapsed }))
    else s.stay

/-- What a COLL.ABT does last (R205): it marks complete, without signal, a stopped COLL of this core with the same block address. -/
def State.abortDone (s : State) (core : Nat) (c : Cmd) : State :=
  ((s.core core).journal.filter (fun d => d.op = .coll && d.st = .stopped && d.xa = c.xa)).foldl
    (fun s d => s.complete core d false) s

end Sys2Proof.Machine
end

