-- ==== Sys2Proof/Machine/System.lean ====
section
/-! DEFINITION. FENCE, state registers, engine registers and the other system instructions (R149, R169 to R177, R207, R385 to R387). -/

namespace Sys2Proof.Machine

/-- R149, R290: a fence that releases stalls for the merges of R289; what it orders stands in the list of fences from then on. -/
def execFence (sc : BitVec 3) (o : BitVec 2) (m : BitVec 16) (s : State) : Result :=
  let go (s : State) : Result := .next (s.fence o.toNat m).skip
  if o = 0b00 then go s else s.ackThen sc.toNat m go

/-! ## State registers -/

/-- The peg registers by index (R109). -/
def PegRegs.read (r : PegRegs) (i : Nat) : Option Word :=
  match i with
  | 0x020 => some r.rndDef
  | 0x021 => some r.rngSeed
  | 0x022 => some r.fpCsr
  | 0x023 => some r.ordScope
  | 0x024 => some r.scrbWin
  | 0x025 => some r.scrbRthr
  | 0x026 => some r.mwaitTmo
  | 0x027 => some r.collTmo
  | 0x028 => some r.sillGto
  | 0x029 => some r.klockStat
  | 0x040 => some r.trapCause
  | 0x041 => some r.trapPc
  | 0x042 => some r.trapInfo
  | 0x043 => some r.trapAddr
  | _ => none

/-- What GETS reads (R109, R170): none for an unassigned or FW index. -/
def State.stateReg (s : State) (i : Nat) : Option Word :=
  match i with
  | 0x000 => some devStep
  | 0x001 => some (s.coreId s.cur)
  | 0x002 => some s.devCnt
  | 0x010 => some s.pc
  | 0x011 => some (match s.peg? with
    | some p => p.recAddr
    | none => 0)
  | 0x012 => some (BitVec.ofNat 64 s.myBent)
  | 0x02A => some (s.me.low.zeroExtend 64)
  | 0x060 => some s.me.ageLimit
  | 0x061 => some s.me.restWin
  | 0x062 => some (s.bay s.myBay).age
  | n => s.me.regs.read n

/-- R170. -/
def execGets (d : RegNo) (i : BitVec 12) (s : State) : Result :=
  match s.stateReg i.toNat with
  | some v => s.retX d v
  | none => s.trap 0x01

/-- A value with only the bits of a field kept (R9). -/
def lowBits (v : Word) (n : Nat) : Word := BitVec.ofNat 64 (v.toNat % 2 ^ n)

/-- Write a peg register of level RW under its field rules (R56, R110, R111, R150, R334, R353, R397, R408); none when no such register
takes writes. -/
def PegRegs.write (r : PegRegs) (i : Nat) (v : Word) : Option PegRegs :=
  match i with
  | 0x020 => some (if v.extractLsb' 0 2 = 0b11 then r else { r with rndDef := lowBits v 2 })
  | 0x021 => some { r with rngSeed := lowBits v 32 }
  | 0x022 => some { r with fpCsr := v &&& 0x1F1F }
  | 0x023 => some (if 4 < (v.extractLsb' 0 3).toNat then r else { r with ordScope := lowBits v 3 })
  | 0x024 => some { r with scrbWin := lowBits v 2 }
  | 0x025 => some { r with scrbRthr := lowBits v 32 }
  | 0x026 => some { r with mwaitTmo := v &&& 0xFFFFFFFF0000FFFF }
  | 0x027 => some { r with collTmo := lowBits v 32 }
  | 0x028 => some { r with sillGto := lowBits v 32 }
  | 0x041 => some { r with trapPc := v &&& ~~~ (3 : Word) }
  | _ => none

/-- Whether an index is that of a register of level RO (R109). -/
def isRoReg (i : Nat) : Bool :=
  [0x000, 0x001, 0x002, 0x010, 0x011, 0x012, 0x029, 0x02A, 0x040, 0x042, 0x043].contains i

/-- AGE.LIMIT as a write stores it (R347). -/
def ageLimitOf (v : Word) : Word :=
  let n := v.toNat % 2 ^ 13
  BitVec.ofNat 64 (if n < 16 then 16 else if 4096 < n then 4096 else n)

/-- R170, R109: a write to an RO register is ignored, one that the level refuses takes cause 0x01. -/
def execPuts (a : RegNo) (i : BitVec 12) (s : State) : Result :=
  let n := i.toNat
  let v := s.getX a
  let k := s.me
  if isRoReg n then .next s.skip
  else match k.regs.write n v with
    | some r => .next (s.setMe { k with regs := r }).skip
    | none =>
      if n ≠ 0x060 ∧ n ≠ 0x061 ∧ n ≠ 0x062 then s.trap 0x01
      else if !s.privileged then s.trap 0x01
      else if n = 0x060 then .next (s.setMe { k with ageLimit := ageLimitOf v }).skip
      else if n = 0x061 then .next (s.setMe { k with restWin := lowBits v 32 }).skip
      else .next (s.setBay s.myBay { s.bay s.myBay with age := lowBits v 16 }).skip

/-! ## Engine registers -/

/-- Bits that a jig register holds, by its offset in a set (R208). -/
def jigBits (off : Nat) : Nat :=
  if off < 0x12 then (if off % 3 = 0 then 21 else 64)
  else if off = 0x14 then 20
  else if off = 0x16 then 15
  else if off = 0x18 then 56
  else if off = 0x1B then 64
  else 21

/-- JIG.STAT (R208). -/
def Core.jigStat (k : Core) : Word :=
  BitVec.ofNat 64 (k.jigSteps.toNat * 2 ^ 32 + k.runsWaiting % 8 * 2 + (if k.activeRun.isSome then 1 else 0))

/-- An engine register (R208); unassigned indices read zero (R169). -/
def Core.engineReg (k : Core) (i : Nat) : Word :=
  if i < 0x1C then k.jigActive.get i 0
  else if 0x20 ≤ i ∧ i ≤ 0x25 then k.jigIdx.get (i - 0x20) 0
  else if i = 0x27 then k.jigStat
  else if i = 0x40 then k.finCw
  else if i = 0x41 then k.finScale
  else if 0x80 ≤ i ∧ i ≤ 0x8F then k.srfFmt.get (i - 0x80) 0x0B
  else if 0x100 ≤ i ∧ i ≤ 0x11B then k.jigShadow.get (i - 0x100) 0
  else 0

/-- The index an EST or ELD names (R169). -/
def State.engineIdx (s : State) (a : RegNo) (i : BitVec 12) : Nat := ((s.getX a).toNat + i.toNat) % 65536

/-- R169: only the shadow set takes writes. -/
def execEst (d a : RegNo) (i : BitVec 12) (s : State) : Result :=
  let n := s.engineIdx a i
  if 0x100 ≤ n ∧ n ≤ 0x11B then
    .next (s.setMe { s.me with jigShadow := s.me.jigShadow.put (n - 0x100) (lowBits (s.getX d) (jigBits (n - 0x100))) }).skip
  else .next s.skip

/-- R169. -/
def execEld (d a : RegNo) (i : BitVec 12) (s : State) : Result := s.retX d (s.me.engineReg (s.engineIdx a i))

/-! ## Services -/

/-- R171: the breakpoint trap, with IDX in TRAP.INFO. -/
def execTrap (i : BitVec 12) (s : State) : Result := s.trapWith 0x1A 0 (i.zeroExtend 64)

/-- R173: the services of firmware; cause 0x19 enters no trap register (R360). -/
def execEcall (i : BitVec 12) (s : State) : Result :=
  let r : Word × Word := match i.toNat with
    | 0x000 => (s.mgmt.fwVersion, s.mgmt.fwBuild)
    | 0x001 => (Config.bundlerVersion.zeroExtend 64, 0)
    | 0x002 => (BitVec.ofNat 64 s.mgmt.config.floor, 0)
    | _ => (0xFFFFFFFFFFFFFFFF, 0)
  .next ((s.putX 10 r.1).putX 11 r.2).skip

/-- R177. -/
def execTstamp (d : RegNo) (s : State) : Result := s.retX d (BitVec.ofNat 64 s.timestamp)

/-! ## TLBI and IFLUSH -/

/-- Whether an access issued for a bent goes through a translation of the tree that a TLBI removes (R105). -/
def State.usesTranslation (s : State) (root : Nat) (va : Option Nat) (bent : Nat) (addr : Word) : Bool :=
  decide (s.root bent = root) && (match va with
    | none => true
    | some a =>
      -- the largest page that could hold both addresses
      decide (a / 2 ^ 30 = addr.toNat / 2 ^ 30))

/-- Whether accesses that already use a translation have still to perform (R105). -/
def State.translationBusy (s : State) (root : Nat) (va : Option Nat) : Bool :=
  s.pending.any (fun a => !a.lost && s.usesTranslation root va a.bent a.va) ||
  s.merges.any (fun m => m.parties.any (fun q => s.usesTranslation root va q.bent q.va)) ||
  s.recordMerges.any (fun m => !m.lost && s.usesTranslation root va m.bent m.va) ||
  s.cores.any (fun e => e.2.ctxs.any (fun c => c.srfx.any (fun o => s.usesTranslation root va c.bent o.va)))

/-- The translations that sill units hold for a tree are dropped (R105, R392). -/
def State.dropSillPages (s : State) (root : Nat) (va : Option Nat) : State :=
  let drop (locs : AMap (Loc × Nat)) (m : AMap Unit) : AMap Unit :=
    ((locs.filter (fun (q : Nat × (Loc × Nat)) => match va with
      | none => true
      | some b => decide (q.1 / q.2.2 = b / q.2.2))).map Prod.fst).foldl (fun (m : AMap Unit) a => m.put a ()) m
  { s with
    sills := s.sills.map (fun e => if s.root e.2.bent ≠ root then e else (e.1, { e.2 with dropped := drop e.2.locs e.2.dropped }))
    cores := s.cores.map (fun e => if e.2.journal.any (fun c => c.op = .sillLoad && !c.locs.isEmpty && s.root c.bent = root) then
      (e.1, { e.2 with journal := e.2.journal.map (fun c =>
        if s.root c.bent = root then { c with unmapped := drop c.locs c.unmapped } else c) }) else e) }

/-- TLBI of one address or of all (R105, R174). -/
def State.tlbi (s : State) (va : Option Nat) : Result :=
  let root := s.root s.myBent
  let s := s.tlbInvalidate root va
  if s.translationBusy root va then .next s else .next (s.dropSillPages root va).skip

/-- R125, R174: an address with bits 63:56 set removes nothing. -/
def execTlbi (a : RegNo) (s : State) : Result :=
  let va := s.getX a
  if !s.privileged then s.trap 0x01
  else if va.extractLsb' 56 8 ≠ 0 then .next s.skip else s.tlbi (some va.toNat)

/-- R125, R174. -/
def execTlbiAll (s : State) : Result := if s.privileged then s.tlbi none else s.trap 0x01

/-- R176. -/
def execIflush (s : State) : Result :=
  if s.owes s.myAgent allClasses (fun k => !k.isRead) then s.stay
  else
    let t : State := { s with cores := s.cores.map (fun e => (e.1, { e.2 with icache := [] })) }
    .next t.skip

/-! ## Kernel instruction memory locks -/

/-- The lines a KLOCK or KUNLOCK names (R175): ascending, ending at 127. -/
def klockLines (v : Word) : List Nat :=
  let first := (v.extractLsb' 0 7).toNat
  let count := (v.extractLsb' 8 8).toNat
  rangeFrom first (if first + count ≤ 128 then count else 128 - first)

/-- Locked frames of a core (R385). -/
def Core.lockCount (k : Core) : Nat := (k.frames.filter (fun f => f.locked)).length

/-- Whether a bent holds a lock on a line. -/
def Core.holdsLock (k : Core) (b line : Nat) : Bool :=
  k.frames.any (fun f => f.locked && decide (f.bent = b) && decide (f.line = line))

/-- Whether a bent is running on a core (R385). -/
def State.runsOn (s : State) (b c : Nat) : Bool :=
  s.pegs.any (fun e => decide (e.2.bent = b) && decide (e.2.st = .running) && decide ((s.core c).peg = some e.1)) ||
  (s.core c).ctxs.any (fun x => decide (x.bent = b) && !x.frozen)

/-- Release one frame's lock; it becomes a cache frame. -/
def Core.unlock (k : Core) (b line : Nat) : Core :=
  { k with frames := k.frames.map (fun f => if f.bent = b && f.line = line then { f with locked := false } else f) }

/-- Put a line into a frame (R376, R385): its own frame, or a free one, or in place of a cache frame. -/
def Core.frameFor (k : Core) (b line : Nat) (locked : Bool) (stamp : Nat) (key : BitVec 512) : Core :=
  let f : Frame := { bent := b, line := line, locked := locked, stamp := stamp, key := key }
  let rest := k.frames.filter (fun g => !(decide (g.bent = b) && decide (g.line = line)))
  let rest := if rest.length < 128 then rest
    else match List.find? (fun (g : Frame) => !g.locked) rest with
      | some v => rest.filter (fun g => !(decide (g.bent = v.bent) && decide (g.line = v.line)))
      | none => rest
  { k with frames := rest ++ [f] }

/-- The key that a bent's image space is read under (R375). -/
def State.lineKey (s : State) (b : Nat) : BitVec 512 :=
  s.keyOf (match s.bents.find? b with
    | some r => r.key
    | none => 0)

/-- The bent whose oldest lock a request of bent `b` releases (R386). -/
def State.lockVictim (s : State) (b : Nat) : Option Frame :=
  let eff := match s.bents.find? b with
    | some r => r.effPrio
    | none => 0
  let cands := s.me.frames.filter (fun f => f.locked && !s.runsOn f.bent s.cur && (match s.bents.find? f.bent with
    | some r => decide (r.prio < eff)
    | none => false))
  best (fun x y => decide (x.stamp < y.stamp)) cands

/-- The loop of R386 over the lines: state, new, evict, short. -/
def klockLoop (b : Nat) : List Nat → State × Nat × Nat × Nat → State × Nat × Nat × Nat
  | [], a => a
  | l :: t, (s, n, e, sh) =>
    if s.me.holdsLock b l then klockLoop b t (s, n, e, sh)
    else if s.me.lockCount < 96 then
      klockLoop b t (({ s with stamp := s.stamp + 1 }.setMe (s.me.frameFor b l true s.stamp (s.lineKey b))), n + 1, e, sh)
    else match s.lockVictim b with
      | none => klockLoop b t (s, n, e, sh + 1)
      | some v =>
        let s := (s.setMe (s.me.unlock v.bent v.line)).modBent v.bent (fun r => { r with lockLost := true })
        klockLoop b t (({ s with stamp := s.stamp + 1 }.setMe (s.me.frameFor b l true s.stamp (s.lineKey b))), n + 1, e + 1, sh)

/-- R175, R386, R387. -/
def execKlock (d a : RegNo) (s : State) : Result :=
  let lines := klockLines (s.getX a)
  let b := s.myBent
  let lost := match s.bents.find? b with
    | some r => r.lockLost
    | none => false
  let (s, n, e, sh) := klockLoop b lines (s, 0, 0, 0)
  let stat := n % 256 + e % 256 * 2 ^ 8 + sh % 256 * 2 ^ 16 + (if lost then 2 ^ 24 else 0)
  let s := s.modBent b (fun r => { r with lockLost := false })
  let s := s.setMe { s.me with regs := { s.me.regs with klockStat := BitVec.ofNat 64 stat } }
  s.retX d (BitVec.ofNat 64 ((lines.filter (fun l => s.me.holdsLock b l)).length))

/-- R175. -/
def execKunlock (a : RegNo) (s : State) : Result :=
  .next (s.setMe ((klockLines (s.getX a)).foldl (fun k l => k.unlock s.myBent l) s.me)).skip

/-! ## DESC.LD -/

/-- R207: eight plain 8-byte loads, waited for (R434). -/
def execDescLd (c a : BitVec 4) (b : RegNo) (s : State) : Result :=
  s.withLoc (s.getX b) 64 64 c.toNat .read true (fun s l =>
    let r := s.fetchLoc (some s.cur) s.myBay l 64
    .next ((r.1.setMe (r.1.me.putD a (BitVec.ofNat 512 (leNat r.2)))).setPc (s.pc + 8)))

end Sys2Proof.Machine
end

