-- ==== Sys2Proof/Machine/Special.lean ====
section
/-! DEFINITION. The special functions of the VSFU (R245 to R248), which the finish pipeline and the sill units use too: the values R247
fixes, and elsewhere a free value of the stepping kept within the bound of R248. -/

namespace Sys2Proof.Machine

/-! ## Fixed point -/

/-- The fraction bits of the fixed-point values that bound a function. -/
def fxBits : Nat := 192

/-- 1 in fixed point. -/
def fxOne : Int := (2 ^ fxBits : Nat)

def fxMul (a b : Int) : Int := a * b / fxOne

def fxDiv (a b : Int) : Int := a * fxOne / b

/-- A finite value in fixed point, rounded down. -/
def fxOf : FVal → Int
  | .fin s m e =>
    let k := e + fxBits
    let n : Int := if 0 ≤ k then (m * 2 ^ k.toNat : Nat) else (m / 2 ^ (-k).toNat : Nat)
    if s then -n else n
  | _ => 0

/-- A fixed-point value times 2^k. -/
def fxVal (i k : Int) : FVal := .fin (decide (i < 0)) i.natAbs (k - fxBits)

/-- ln 2, log2 e, π and √(2/π) in fixed point. -/
def fxLn2 : Int := 0xb17217f7d1cf79abc9e3b39803f2f6af40f343267298b62d
def fxLog2e : Int := 0x171547652b82fe1777d0ffda0d23a7d11d6aef551bad2b4b1
def fxPi : Int := 0x3243f6a8885a308d313198a2e03707344a4093822299f31d0
def fxSqrt2Pi : Int := 0xcc42299ea1b284687e59e2805d5c717fa7053e60a24e0db1

/-- Σ x^i / i! from the term `t` = x^(n−1) / (n−1)! on. -/
def expSeries (x : Int) : Nat → Nat → Int → Int
  | 0, _, _ => 0
  | f + 1, n, t => t + expSeries x f (n + 1) (fxMul t x / n)

/-- 2^t as a fixed-point significand in [1, 2) and an exponent. -/
def fxExp2 (t : Int) : Int × Int := (expSeries (fxMul (t % fxOne) fxLn2) 64 1 fxOne, t / fxOne)

/-- e^t. -/
def fxExp (t : Int) : Int × Int := fxExp2 (fxMul t fxLog2e)

/-- e^−t in fixed point, for t ≥ 0. -/
def fxExpNeg (t : Int) : Int :=
  let r := fxExp (-t)
  if 400 < -r.2 then 0 else r.1 / (2 ^ (-r.2).toNat : Nat)

/-- Σ z^i / i over odd i from `n` on, with `t` = z^n. -/
def atanhSeries (z2 : Int) : Nat → Nat → Int → Int
  | 0, _, _ => 0
  | f + 1, n, t => t / n + atanhSeries z2 f (n + 2) (fxMul t z2)

/-- log2 of a fixed-point value in [1, 2). -/
def fxLog2 (y : Int) : Int :=
  let z := fxDiv (y - fxOne) (y + fxOne)
  fxMul (2 * atanhSeries (fxMul z z) 70 1 z) fxLog2e

/-- Σ (−1)^j x^(n−1+2j) / (n−1+2j)! from the term `t` = x^(n−1) / (n−1)! on. -/
def sinSeries (x2 : Int) : Nat → Nat → Int → Int
  | 0, _, _ => 0
  | f + 1, n, t => t + sinSeries x2 f (n + 2) (-(fxMul t x2 / (n * (n + 1) : Nat)))

/-- An angle brought into [−π, π). -/
def fxAngle (x : Int) : Int :=
  let r := x % (2 * fxPi)
  if fxPi ≤ r then r - 2 * fxPi else r

/-- 1 / (1 + e^−t). -/
def fxSigmoid (t : Int) : Int :=
  if 0 ≤ t then fxDiv fxOne (fxOne + fxExpNeg t)
  else
    let e := fxExpNeg (-t)
    fxDiv e (fxOne + e)

/-- tanh t. -/
def fxTanh (t : Int) : Int :=
  let e := fxExpNeg (2 * (if t < 0 then -t else t))
  let r := fxDiv (fxOne - e) (fxOne + e)
  if t < 0 then -r else r

/-! ## The functions -/

/-- The function codes (R245) that the rest of the model names. -/
def fnRcp : Nat := 0
def fnRsqrt : Nat := 1
def fnSqrt : Nat := 2

/-- The value of a function at a finite non-zero argument, to about 180 bits of fixed point, |a| at most 2^16 for sin and cos (R245). -/
def fnRef (fn : Nat) (a : FVal) : FVal :=
  match a with
  | .fin s m e =>
    let x := fxOf a
    let big := decide (topExp m e ≥ 9)
    match fn with
    | 0 => .fin s (2 ^ (300 + Nat.log2 m) / m) (-(300 + Nat.log2 m : Nat) - e)
    | 1 =>
      let odd := e % 2
      let k := 300 + Nat.log2 m
      .fin false (isqrt (2 ^ (2 * k) / (m * 2 ^ odd.toNat))) (-(k : Int) - (e - odd) / 2)
    | 3 => if big then (if s then .zero else .fin false 1 200) else let r := fxExp2 x; fxVal r.1 r.2
    | 5 => if big then (if s then .zero else .fin false 1 200) else let r := fxExp x; fxVal r.1 r.2
    | 4 =>
      let k := Nat.log2 m
      fxVal (fxLog2 (fxOf (.fin false m (-(k : Int)))) + (k + e) * fxOne) 0
    | 6 => if big then .fin s 1 0 else fxVal (fxTanh x) 0
    | 7 => if big then (if s then .zero else .fin false 1 0) else fxVal (fxSigmoid x) 0
    | 8 =>
      if big then (if s then .zero else a)
      else
        let c := x + fxMul (fxMul (fxMul x x) x) (44715 * fxOne / 1000000)
        fxVal (fxMul x (fxOne + fxTanh (fxMul fxSqrt2Pi c)) / 2) 0
    | 9 => if big then (if s then .zero else a) else fxVal (fxMul x (fxSigmoid x)) 0
    | 10 => let y := fxAngle x; fxVal (sinSeries (fxMul y y) 60 2 y) 0
    | _ => let y := fxAngle x; fxVal (sinSeries (fxMul y y) 60 1 fxOne) 0
  | _ => .zero

/-- The bound of R248: units in the last place, and the exponent of an absolute bound. -/
def fnBound (fn : Nat) : Nat × Option Int :=
  match fn with
  | 0 | 1 => (1, none)
  | 3 | 5 => (2, none)
  | 4 => (2, some (-23))
  | 6 | 7 => (2, some (-24))
  | 8 | 9 => (4, some (-22))
  | _ => (0, some (-21))

/-- Whether an f32 value lies within the bound of a function around its value (R248). -/
def inBound (fn : Nat) (ref v : FVal) : Bool :=
  match v, ref with
  | .fin _ _ _, .fin _ m e =>
    let d := (v.addCore ref.negate).abs
    let x : Int := if m = 0 then -126 else topExp m e
    let q := (if x < -126 then -126 else x) - 23
    let u : FVal := .fin false (fnBound fn).1 q
    !(u.lt d) || (match (fnBound fn).2 with
      | some k => !((FVal.fin false 1 k).lt d)
      | none => false)
  | _, _ => false

/-- The special inputs of R247: none where the bound of R248 applies. -/
def fnSpecial (fn : Nat) (a : FVal) : Option FVal :=
  let one : FVal := .fin false 1 0
  match a with
  | .nan _ _ => some a.quiet
  | .inf s => some (match fn with
    | 0 => .fin s 0 0
    | 1 | 2 | 4 => if s then .dnan else if fn = 1 then .zero else .inf false
    | 3 | 5 => if s then .zero else .inf false
    | 6 => .fin s 1 0
    | 7 => if s then .zero else one
    | 8 | 9 => if s then .fin true 0 0 else .inf false
    | _ => .dnan)
  | .fin s m e =>
    if m = 0 then some (match fn with
      | 0 | 1 => .inf s
      | 2 => a
      | 3 | 5 => one
      | 4 => .inf true
      | 7 => .fin false 1 (-1)
      | 11 => one
      | _ => a)
    else match fn with
      | 1 | 4 =>
        if s then some .dnan
        else if fn = 4 && m = 2 ^ Nat.log2 m then some (FVal.ofInt (topExp m e)) else none
      | 2 => if s then some .dnan else none
      | 3 =>
        -- an integer argument in reach of the format
        if topExp m e ≥ 9 then none
        else if 0 ≤ e then some (.fin false 1 ((if s then -1 else 1) * (m * 2 ^ e.toNat : Nat)))
        else if e < -60 then none
        else if m % 2 ^ (-e).toNat = 0 then some (.fin false 1 ((if s then -1 else 1) * (m / 2 ^ (-e).toNat : Nat)))
        else none
      | _ => none

/-- The f32 result of a function at a finite argument that R247 leaves to the bound: the stepping's bits (log 14). -/
def fnFree (fn : Nat) (x : Nat) (a : FVal) : FVal :=
  let c := (Config.vsfu fn (BitVec.ofNat 32 x)).toNat
  let v := Fmt.f32.decode c
  if (fn = 10 || fn = 11) && (FVal.fin false 1 16).lt a.abs then
    Fmt.f32.decode (c / 2 ^ 31 * 2 ^ 31 + c % 2 ^ 31 % 0x3F800001)
  else
    let ref := fnRef fn a
    if inBound fn ref v then v else Fmt.f32.rne ref

/-- A function at an f32 argument, given by its bits (R245 to R248): the f32 value, and whether an infinite result is an overflow. -/
def vsfuF32 (fn : Nat) (rm : RMode) (x : Nat) : FVal × Bool :=
  let a := Fmt.f32.decode x
  match fnSpecial fn a with
  | some v => (match v with
    | .fin _ _ _ =>
      let r := Fmt.f32.rne v
      (r, r.isInf)
    | v => (v, false))
  | none =>
    if fn = 2 then (Fmt.f32.decode (Fmt.f32.deliver rm false 0 a.sqrt).1, false)
    else
      let r := fnFree fn x a
      (r, r.isInf)

/-- Whether bits are a subnormal of a format. -/
def Fmt.subnormal (f : Fmt) (x : Nat) : Bool := x / 2 ^ f.mbits % 2 ^ f.ebits = 0 && x % 2 ^ f.mbits != 0

/-- A subnormal's bits with its magnitude replaced by zero (R246). -/
def Fmt.flush (f : Fmt) (x : Nat) : Nat :=
  if f.subnormal x then x / 2 ^ (f.ebits + f.mbits) % 2 * 2 ^ (f.ebits + f.mbits) else x

/-- A function on an element of bf16, f16 or f32 (R245 to R248). -/
def vsfuEl (f : Fmt) (fn : Nat) (ftz : Bool) (rm : RMode) (sat : Bool) (x : Nat) : Nat :=
  let x := if ftz then f.flush x else x
  let a := (Fmt.f32.deliver .rne false 0 (f.decode x)).1
  let r := vsfuF32 fn rm a
  let b := if r.1.isInf && !r.2 then (f.deliver .rne false 0 r.1).1 else (f.deliver .rne sat 0 r.1).1
  if ftz then f.flush b else b

end Sys2Proof.Machine
end

