-- ==== Sys2Proof/Machine/Units.lean ====
section
/-! DEFINITION. The vector units of a cluster (R234 to R258): which triggers are legal, and what each operation computes. -/

namespace Sys2Proof.Machine

/-! ## Triggers and operands -/

/-- A trigger's operation (R214, R234): unit, selector, element type, rounding, saturation, width in bits, lane group. -/
structure KOp where
  unitNo : Nat
  op : Nat
  et : ET
  rm : BitVec 2
  sat : Bool
  w : Nat
  lgb : Nat
  deriving DecidableEq, Repr

/-- What an operation reads in its cluster: CID, T as placed on the 1024-bit path, operand ports by 4·unit + k, and the captured
rounding default, seed and generators of its context. -/
structure KEnv where
  cid : Nat
  t : Nat
  ports : AMap OPort
  rnd : BitVec 2
  seed : Word32
  gens : AMap Word32
  deriving DecidableEq, Repr

/-- What an operation gives: the bytes of x that it writes, the generators after it, and its count of overflowing elements (R256). -/
structure KRes where
  value : Wide
  mask : BitVec 128
  gens : AMap Word32
  ovCount : Nat
  deriving DecidableEq, Repr

/-- An operand port of a fresh context (R235). -/
def OPort.zero : OPort := { bits := 0, s := false, v := 0 }

/-- `n` elements of `sz` bits from bit `base` up. -/
def cut (v base sz n : Nat) : List Nat := (rangeFrom 0 n).map (fun j => v / 2 ^ (base + j * sz) % 2 ^ sz)

/-- Elements side by side. -/
def glue (sz : Nat) : List Nat → Nat
  | [] => 0
  | x :: t => x % 2 ^ sz + 2 ^ sz * glue sz t

/-- Bytes lo to lo + n − 1 of the path. -/
def byteMask (lo n : Nat) : BitVec 128 := BitVec.ofNat 128 ((2 ^ n - 1) * 2 ^ lo)

/-- The bit of the path where lane group LGB begins (R236). -/
def KOp.base (k : KOp) : Nat := 256 * k.lgb

/-- The number of elements of a size (R236). -/
def KOp.count (k : KOp) (sz : Nat) : Nat := k.w / sz

/-- The rounding mode (R55, R238). -/
def KOp.rmode (k : KOp) (e : KEnv) : RMode := RMode.ofField k.rm e.rnd

/-- Operand port `i` of the trigger's unit. -/
def KEnv.port (e : KEnv) (k : KOp) (i : Nat) : OPort := e.ports.get (4 * k.unitNo + i) OPort.zero

/-- The elements of T (R236), from a bit offset of the operation. -/
def KEnv.tEls (e : KEnv) (k : KOp) (off sz n : Nat) : List Nat := cut e.t (k.base + off) sz n

/-- The elements of operand port `i` (R235, R236). -/
def KEnv.els (e : KEnv) (k : KOp) (i sz n : Nat) : List Nat :=
  let p := e.port k i
  if p.s then List.replicate n (p.v.toNat % 2 ^ sz) else cut p.bits.toNat k.base sz n

/-- Bits 63:0 of lane group LGB of an operand port, or its scalar (R236). -/
def KEnv.scalar (e : KEnv) (k : KOp) (i : Nat) : Word :=
  let p := e.port k i
  if p.s then p.v else p.bits.extractLsb' k.base 64

/-- T as a 64-bit value (R236): what the trigger move carries lies from lane group LGB up. -/
def KEnv.tScalar (e : KEnv) (k : KOp) : Word := BitVec.ofNat 64 (e.t / 2 ^ k.base)

/-- Step the generators of lanes in turn (R57, R58). -/
def drawLanes (seed : Word32) : AMap Word32 → List Nat → List Word32 × AMap Word32
  | g, [] => ([], g)
  | g, l :: t =>
    let st := xorShift32 (AMap.get g l (seedLane seed l 0))
    let r := drawLanes seed (AMap.put g l st) t
    (st :: r.1, r.2)

/-- The states that elements at bit positions of the path draw (R238); none is drawn unless the mode is SR. -/
def KEnv.draws (e : KEnv) (rm : RMode) (bits : List Nat) : List Word32 × AMap Word32 :=
  if rm = .sr then drawLanes e.seed e.gens (bits.map (fun b => 32 * e.cid + b / 32)) else (bits.map (fun _ => 0), e.gens)

/-- The bit positions of `n` elements of the operation. -/
def KOp.positions (k : KOp) (sz n : Nat) : List Nat := (rangeFrom 0 n).map (fun j => k.base + j * sz)

/-- A result in the trigger's lane groups (R236). -/
def KOp.out (k : KOp) (sz : Nat) (vs : List Nat) (gens : AMap Word32) (ovCount : Nat) : KRes :=
  { value := BitVec.ofNat 1024 (glue sz vs * 2 ^ k.base), mask := byteMask (32 * k.lgb) (k.w / 8), gens := gens, ovCount := ovCount }

/-- Element `j` of a list of bit patterns. -/
def at0 (l : List Nat) (j : Nat) : Nat := (nth? l j).getD 0

/-! ## VALU -/

/-- An integer element's value (R241). -/
def ET.intVal (t : ET) (variant : Bool) (x : Nat) : Int := if t.unsigned variant then (x : Int) else signedOf t.bits x

/-- An integer result of VALU (R240, R241). -/
def valuInt (o : Nat) (t : ET) (variant sat : Bool) (j a b c : Nat) : Nat :=
  let w := t.bits
  let u := t.unsigned variant
  let v := t.intVal variant
  match o with
  | 0x00 => intBits w u sat (v a + v b)
  | 0x01 => intBits w u sat (v a - v b)
  | 0x02 => intBits w u sat (v a * v b)
  | 0x03 => wrapBits w (min (v a) (v b))
  | 0x04 => wrapBits w (max (v a) (v b))
  | 0x05 => intBits w u sat (v a).natAbs
  | 0x06 => intBits w u sat (-(v a))
  | 0x0B => a * 2 ^ (b % w) % 2 ^ w
  | 0x0C => a / 2 ^ (b % w)
  | 0x0D => wrapBits w (signedOf w a / ((2 ^ (b % w) : Nat) : Int))
  | 0x0F => wrapBits w (min (max (v a) (v b)) (v c))
  | _ => wrapBits w (v b + j)

/-- A floating-point result of VALU (R240, R242). -/
def valuF (o : Nat) (f : Fmt) (rm : RMode) (sat : Bool) (st : Word32) (a b c : Nat) : Nat :=
  let sb := 2 ^ (f.ebits + f.mbits)
  let v := f.decode
  match o with
  | 0x00 => (f.deliver rm sat st ((v a).add (v b))).1
  | 0x01 => (f.deliver rm sat st ((v a).sub (v b))).1
  | 0x02 => (f.deliver rm sat st ((v a).mul (v b))).1
  | 0x03 => (f.deliver .rne false 0 ((v a).min (v b))).1
  | 0x04 => (f.deliver .rne false 0 ((v a).max (v b))).1
  | 0x05 => a % sb
  | 0x06 => a ^^^ sb
  | _ => (f.deliver .rne false 0 (((v a).max (v b)).min (v c))).1

/-- A complex result of VALU (R242): each component in turn, with the element's one draw. -/
def valuC (o : Nat) (t : ET) (rm : RMode) (sat : Bool) (st : Word32) (a b : Nat) : Nat :=
  match t.comp.fmt? with
  | none => 0
  | some f =>
    let m := 2 ^ t.comp.bits
    valuF o f rm sat st (a % m) (b % m) 0 + m * valuF o f rm sat st (a / m) (b / m) 0

/-- A bitwise result (R241). -/
def valuBits (o sz a b : Nat) : Nat :=
  match o with
  | 0x07 => a &&& b
  | 0x08 => a ||| b
  | 0x09 => a ^^^ b
  | _ => 2 ^ sz - 1 - a

/-- Whether a compare holds for an element (R241, R242). -/
def valuCmp (o : Nat) (t : ET) (variant : Bool) (a b : Nat) : Bool :=
  match t.decode variant a, t.decode variant b with
  | .int x, .int y =>
    match o with
    | 0x10 => decide (x = y)
    | 0x11 => decide (x ≠ y)
    | 0x12 => decide (x < y)
    | _ => decide (x ≤ y)
  | .flt x, .flt y =>
    match o with
    | 0x10 => x.feq y
    | 0x11 => !x.feq y
    | 0x12 => x.lt y
    | _ => x.lt y || x.feq y
  | .cplx x1 x2, .cplx y1 y2 => if o = 0x10 then x1.feq y1 && x2.feq y2 else !(x1.feq y1 && x2.feq y2)
  | _, _ => false

/-- The predicate form (R242): the whole of x, one bit a byte of the path. -/
def KOp.predicate (k : KOp) (sz : Nat) (hits : List Bool) (gens : AMap Word32) : KRes :=
  let v := (indexed 0 hits).foldl (fun (v : Nat) (h : Nat × Bool) =>
    if h.2 then v + (2 ^ (sz / 8) - 1) * 2 ^ ((k.base + h.1 * sz) / 8) else v) 0
  { value := BitVec.ofNat 1024 v, mask := BitVec.allOnes 128, gens := gens, ovCount := 0 }

/-- A trigger of VALU0 or VALU1 (R240 to R242). -/
def KOp.valu (k : KOp) (e : KEnv) : KRes :=
  let o := k.op % 32
  let variant := decide (k.op / 32 % 2 = 1)
  let sz := k.et.bits
  let n := k.count sz
  let a := e.tEls k 0 sz n
  let b := e.els k 0 sz n
  let c := e.els k 1 sz n
  let rm := k.rmode e
  let d := e.draws rm (k.positions sz n)
  let st (j : Nat) : Word32 := (nth? d.1 j).getD 0
  if 0x10 ≤ o ∧ o ≤ 0x13 then
    k.predicate sz ((rangeFrom 0 n).map (fun j => valuCmp o k.et variant (at0 a j) (at0 b j))) e.gens
  else
    let el (j : Nat) : Nat :=
      let x := at0 a j
      let y := at0 b j
      if o = 0x0E then
        if (e.port k 1).bits.getLsbD ((k.base + j * sz) / 8) then x else y
      else if 0x07 ≤ o ∧ o ≤ 0x0A then valuBits o sz x y
      else if k.et.isInt then valuInt o k.et variant k.sat j x y (at0 c j)
      else match k.et.fmt? with
        | some f => valuF o f rm k.sat (st j) x y (at0 c j)
        | none => valuC o k.et rm k.sat (st j) x y
    k.out sz ((rangeFrom 0 n).map el) d.2 0

/-- The triggers that VALU takes (R237, R238, R240). -/
def KOp.valuOk (k : KOp) : Bool :=
  let o := k.op % 32
  let t := k.et
  let types := match o with
    | 0x00 | 0x01 | 0x06 | 0x10 | 0x11 => t.isInt || t.isF || t.isC
    | 0x02 | 0x03 | 0x04 | 0x05 | 0x0F | 0x12 | 0x13 => t.isInt || t.isF
    | 0x07 | 0x08 | 0x09 | 0x0A | 0x0E => !t.packed
    | 0x0B | 0x0C | 0x0D | 0x14 => t.isInt
    | _ => false
  let rounds := (decide (o ≤ 2) && t.isF) || (decide (o ≤ 1) && t.isC)
  let sats := decide (o ≤ 2) || ((o = 5 || o = 6) && t.isInt)
  let variant := (decide (o ≤ 4) || o = 0x0F || o = 0x12 || o = 0x13) && (t = .i16 || t = .i32 || t = .i64)
  decide (k.op < 64) && types && (k.rm = 0 || rounds) && (!k.sat || sats) && (decide (k.op < 32) || variant)

/-! ## VMAC -/

/-- acc + a·b for complex components, each step rounded RNE (R67, R244) and saturating under SAT (R59). -/
def cmacSat (f : Fmt) (sat : Bool) (a b acc : FVal × FVal) : FVal × FVal :=
  let rn (v : FVal) : FVal := f.decode (f.deliver .rne sat 0 v).1
  let re := rn (a.2.negate.fma b.2 (rn (a.1.fma b.1 acc.1)))
  let im := rn (a.2.fma b.1 (rn (a.1.fma b.2 acc.2)))
  (re, im)

/-- A complex element's components. -/
def cparts (f : Fmt) (m x : Nat) : FVal × FVal := (f.decode (x % m), f.decode (x / m % m))

/-- A complex form of VMAC (R243, R244). -/
def vmacC (o : Nat) (t : ET) (sat : Bool) (a b c : Nat) : Nat :=
  match t.comp.fmt? with
  | none => 0
  | some f =>
    let m := 2 ^ t.comp.bits
    let x := cparts f m a
    let y := cparts f m b
    let x := if o = 5 ∨ o = 7 then (x.1, x.2.negate) else x
    let y := if o = 6 ∨ o = 7 then (y.1, y.2.negate) else y
    let z : FVal × FVal := if o = 3 then (.fin true 0 0, .fin true 0 0) else cparts f m c
    let r := cmacSat f sat x y z
    (f.deliver .rne false 0 r.1).1 + m * (f.deliver .rne false 0 r.2).1

/-- fma, fms, fnma and mul on an element (R243, R244). -/
def vmacEl (o : Nat) (t : ET) (rm : RMode) (sat : Bool) (st : Word32) (a b c : Nat) : Nat :=
  match t.fmt? with
  | some f =>
    let x := f.decode a
    let y := f.decode b
    let z := f.decode c
    let r := match o with
      | 0 => x.fma y z
      | 1 => x.fms y z
      | 2 => x.fnma y z
      | _ => x.mul y
    (f.deliver rm sat st r).1
  | none =>
    let v := t.intVal false
    let p := v a * v b
    let r := match o with
      | 0 => p + v c
      | 1 => p - v c
      | 2 => v c - p
      | _ => p
    intBits t.bits (t.unsigned false) sat r

/-- One f32 element of dp2 (R244). -/
def dp2 (f : Fmt) (rm : RMode) (sat : Bool) (st : Word32) (c a0 b0 a1 b1 : Nat) : Nat :=
  let z := Fmt.f32.decode c
  let x0 := f.decode a0
  let y0 := f.decode b0
  let x1 := f.decode a1
  let y1 := f.decode b1
  let r := match firstNaN [z, x0, y0, x1, y1] with
    | some v => v
    | none => exactSum [z, x0.mul y0, x1.mul y1]
  (Fmt.f32.deliver rm sat st r).1

/-- A trigger of VMAC (R243, R244). -/
def KOp.vmac (k : KOp) (e : KEnv) : KRes :=
  let rm := k.rmode e
  if k.op = 8 then
    let n := k.count 32
    let a := e.tEls k 0 16 (2 * n)
    let b := e.els k 0 16 (2 * n)
    let c := e.els k 1 32 n
    let d := e.draws rm (k.positions 32 n)
    let f := (k.et.fmt?).getD Fmt.bf16
    k.out 32 ((rangeFrom 0 n).map (fun j =>
      dp2 f rm k.sat ((nth? d.1 j).getD 0) (at0 c j) (at0 a (2 * j)) (at0 b (2 * j)) (at0 a (2 * j + 1)) (at0 b (2 * j + 1)))) d.2 0
  else if k.op = 9 then
    let n := k.count 32
    let a := e.tEls k 0 8 (4 * n)
    let b := e.els k 0 8 (4 * n)
    let c := e.els k 1 32 n
    let v := k.et.intVal false
    k.out 32 ((rangeFrom 0 n).map (fun j =>
      intBits 32 false k.sat ((rangeFrom (4 * j) 4).foldl (fun (s : Int) i => s + v (at0 a i) * v (at0 b i)) (signedOf 32 (at0 c j)))))
      e.gens 0
  else
    let sz := k.et.bits
    let n := k.count sz
    let a := e.tEls k 0 sz n
    let b := e.els k 0 sz n
    let c := e.els k 1 sz n
    let d := if k.et.isC then ([], e.gens) else e.draws rm (k.positions sz n)
    k.out sz ((rangeFrom 0 n).map (fun j =>
      if k.et.isC then vmacC k.op k.et k.sat (at0 a j) (at0 b j) (at0 c j)
      else vmacEl k.op k.et rm k.sat ((nth? d.1 j).getD 0) (at0 a j) (at0 b j) (at0 c j))) d.2 0

/-- The triggers that VMAC takes (R238, R243, R244). -/
def KOp.vmacOk (k : KOp) : Bool :=
  let t := k.et
  (match k.op with
    | 0 | 1 | 2 => t.isInt || t.isF
    | 3 => t.isInt || t.isF || t.isC
    | 4 | 5 | 6 | 7 => t.isC
    | 8 => t = .bf16 || t = .f16
    | 9 => t = .i8 || t = .n8
    | _ => false) && (k.rm = 0 || t.isF)

/-! ## VSFU -/

/-- A trigger of VSFU (R245 to R248). -/
def KOp.vsfu (k : KOp) (e : KEnv) : KRes :=
  let sz := k.et.bits
  let n := k.count sz
  let fn := k.op % 128
  let rm := if fn = 2 then k.rmode e else .rne
  let f := (k.et.fmt?).getD Fmt.f32
  k.out sz ((e.tEls k 0 sz n).map (vsfuEl f fn (decide (k.op / 128 = 1)) rm k.sat)) e.gens 0

/-- The triggers that VSFU takes (R245, R246). -/
def KOp.vsfuOk (k : KOp) (rnd : BitVec 2) : Bool :=
  let fn := k.op % 128
  decide (fn ≤ 0x0B) && (k.et = .bf16 || k.et = .f16 || k.et = .f32) &&
  (k.rm = 0 || (fn = 2 && (k.rm = 1 || (k.rm = 3 && rnd != 2))))

/-! ## VPRM -/

/-- A trigger of VPRM (R249 to R251). -/
def KOp.vprm (k : KOp) (e : KEnv) : KRes :=
  let sz := k.et.bits
  let n := k.count sz
  let a := e.tEls k 0 sz n
  let b := e.els k 0 sz n
  let k0 := at0 b 0
  let pick (g : Nat → Nat) : KRes := k.out sz ((rangeFrom 0 n).map g) e.gens 0
  let both (i : Nat) : Nat := if i < n then at0 a i else at0 b (i - n)
  let turned (i : Nat) : Nat := 4 * (i % 16) + i / 16
  match k.op with
  | 0x00 => pick (fun j => at0 a (at0 b j % n))
  | 0x01 => pick (fun _ => at0 a (k0 % n))
  | 0x02 => pick (fun j => at0 a ((j + k0) % n))
  | 0x03 => pick (fun j => if j % 2 = 0 then at0 a (j / 2) else at0 b (j / 2))
  | 0x04 => pick (fun j => if j % 2 = 0 then at0 a (n / 2 + j / 2) else at0 b (n / 2 + j / 2))
  | 0x05 => pick (fun j => both (2 * j))
  | 0x06 => pick (fun j => both (2 * j + 1))
  | 0x07 => pick (fun j => at0 a (turned j))
  | 0x08 => pick (fun j => both (turned j))
  | 0x09 => pick (fun j => both (turned (32 + j)))
  | o =>
    k.out 8 ((cut (e.t / 2 ^ k.base) (if o = 0x0B then 128 * sz else 0) sz 128).map (fun x => wrapBits 8 (signedOf sz x))) e.gens 0

/-- The triggers that VPRM takes (R249). -/
def KOp.vprmOk (k : KOp) : Bool :=
  let sz := k.et.bits
  k.rm = 0 && !k.sat &&
  (if k.op ≤ 6 then !k.et.packed
  else if k.op = 7 then !k.et.packed && ((sz = 8 && k.w = 512) || (sz = 16 && k.w = 1024))
  else if k.op ≤ 9 then sz = 32 && k.w = 1024
  else decide (k.op ≤ 0x0B) && (k.et = .q4 || k.et = .q3) && k.w = 1024)

/-! ## CVT -/

/-- MODE, PART and SRC of a conversion (R252). -/
def KOp.cvtMode (k : KOp) : Nat := bitsOf k.op 7 6
def KOp.cvtPart (k : KOp) : Nat := bitsOf k.op 5 4
def KOp.cvtSrc (k : KOp) : ET := ET.ofCode (bitsOf k.op 3 0)

/-- The elements a conversion takes, each with its bit of the path (R253). -/
def KOp.cvtIn (k : KOp) (e : KEnv) : List (Nat × Nat) :=
  let ss := k.cvtSrc.bits
  let ds := k.et.bits
  if ds < ss then
    let n := k.count ss
    let part (l : List Nat) : List (Nat × Nat) := (indexed 0 l).map (fun p => (p.2, k.base + p.1 * ss))
    part (e.tEls k 0 ss n) ++ ((rangeFrom 0 (ss / ds - 1)).map (fun i => part (e.els k i ss n))).flatten
  else
    let off := k.cvtPart * k.w * ss / ds
    (indexed 0 (e.tEls k off ss (k.count ds))).map (fun p => (p.2, k.base + off + p.1 * ss))

/-- The scale of a quantising conversion (R255). -/
def KOp.cvtScale (k : KOp) (e : KEnv) : FVal :=
  let p := e.port k 3
  let v := if p.s then p.v else p.bits.extractLsb' 0 64
  if k.cvtMode = 2 then Fmt.f32.decode (v.toNat % 2 ^ 32) else e8m0 (v.toNat % 256)

/-- A trigger of CVT (R252 to R255). -/
def KOp.cvt (k : KOp) (e : KEnv) : KRes :=
  let src := k.cvtSrc
  let ins := k.cvtIn e
  let rm := k.rmode e
  let d := e.draws rm (ins.map Prod.snd)
  if 2 ≤ k.cvtMode then
    let sc := k.cvtScale e
    let f := (src.fmt?).getD Fmt.f32
    let rs := (indexed 0 ins).map (fun p => convertQuant k.et rm ((nth? d.1 p.1).getD 0) ((f.decode p.2.1).mul sc))
    k.out k.et.bits (rs.map Prod.fst) d.2 (rs.filter Prod.snd).length
  else
    let variant := decide (k.cvtMode = 1)
    k.out k.et.bits ((indexed 0 ins).map (fun p =>
      if src = k.et then p.2.1 else convert k.et variant rm k.sat ((nth? d.1 p.1).getD 0) (src.decode variant p.2.1))) d.2 0

/-- The types of a plain conversion (R252). -/
def plainType : ET → Bool
  | .i8 | .n8 | .i16 | .i32 | .i64 | .e4m3 | .e5m2 | .bf16 | .f16 | .f32 | .f64 => true
  | _ => false

/-- The types that the unsigned variant changes (R237, R252). -/
def wideInt : ET → Bool
  | .i16 | .i32 | .i64 => true
  | _ => false

/-- The triggers that CVT takes (R252, R253; log 35). -/
def KOp.cvtOk (k : KOp) : Bool :=
  let src := k.cvtSrc
  let ss := src.bits
  let ds := k.et.bits
  let types :=
    if 2 ≤ k.cvtMode then
      (src = .bf16 || src = .f16 || src = .f32) && (k.et = .i8 || k.et = .e4m3 || k.et = .e5m2 || k.et = .f16) && !k.sat
    else (plainType src && plainType k.et) || (src.isC && k.et.isC)
  types && decide (ss ≤ 4 * ds) && decide (ds ≤ 4 * ss) && (if ss < ds then decide (k.cvtPart * ss < ds) else k.cvtPart = 0) &&
  !(k.w = 64 && (src = .cf64 || k.et = .cf64))

/-! ## RED -/

/-- A floating-point sum of a reduction (R68, R69, R258). -/
def redSum (f : Fmt) (det : Bool) (split : Nat → Nat → Nat) (vs : List FVal) : FVal :=
  if det then canonSum f vs else assocSum f split vs

/-- Reduce the elements of the sequence; none is the place of an element of a cluster that did not start (R257, R258). -/
def reduceEls (o : Nat) (t : ET) (variant det : Bool) (split : Nat → Nat → Nat) (xs : List (Option Nat)) : Nat :=
  let here := xs.filterMap id
  let m := 2 ^ t.bits
  match o with
  | 3 => here.foldl (fun (a : Nat) b => a &&& b) (m - 1)
  | 4 => here.foldl (fun (a : Nat) b => a ||| b) 0
  | 5 => here.foldl (fun (a : Nat) b => a ^^^ b) 0
  | _ =>
    if t.isInt then
      let vs := here.map (t.intVal variant)
      wrapBits t.bits (match o, vs with
        | 0, _ => vs.foldl (fun (a : Int) b => a + b) 0
        | 1, v :: r => r.foldl (fun (a : Int) b => min a b) v
        | _, v :: r => r.foldl (fun (a : Int) b => max a b) v
        | _, [] => 0)
    else if t.isC then
      match t.comp.fmt? with
      | none => 0
      | some f =>
        let c := 2 ^ t.comp.bits
        let sum (g : Nat → Nat) : Nat :=
          (f.deliver .rne false 0 (redSum f det split (xs.map (fun x => match x with
            | some x => f.decode (g x)
            | none => .fin true 0 0)))).1
        sum (fun x => x % c) + c * sum (fun x => x / c)
    else match t.fmt? with
      | none => 0
      | some f =>
        let vs := here.map f.decode
        let r := match o, vs with
          | 1, v :: r => r.foldl FVal.min v
          | 2, v :: r => r.foldl FVal.max v
          | _, _ => redSum f det split (xs.map (fun x => match x with
              | some x => if o = 6 then f.rne ((f.decode x).mul (f.decode x)) else f.decode x
              | none => .fin true 0 0))
        (f.deliver .rne false 0 r).1

/-- A trigger of RED (R257, R258): `ts` is T of every cluster of the group where the trigger starts. -/
def KOp.red (k : KOp) (e : KEnv) (ts : List (Option Nat)) (det : Bool) (split : Nat → Nat → Nat) : KRes :=
  let sz := k.et.bits
  let n := k.count sz
  let seqOf (t : Option Nat) : List (Option Nat) := match t with
    | some t => (cut t k.base sz n).map some
    | none => List.replicate n none
  let xs := if k.op / 16 % 2 = 1 then (ts.map seqOf).flatten else seqOf (some e.t)
  k.out sz [reduceEls (k.op % 8) k.et (decide (k.op / 8 % 2 = 1)) det split xs] e.gens 0

/-- The triggers that RED takes (R257). -/
def KOp.redOk (k : KOp) : Bool :=
  let t := k.et
  k.rm = 0 && !k.sat && decide (k.op < 32) &&
  (match k.op % 8 with
    | 0 => t.isInt || t.isF || t.isC
    | 1 | 2 => t.isInt || t.isF
    | 3 | 4 | 5 => !t.packed
    | 6 => t.isF
    | _ => false) &&
  (k.op / 8 % 2 = 0 || ((k.op % 8 = 1 || k.op % 8 = 2) && wideInt t))

/-! ## XSW -/

/-- A trigger of XSW in cluster CID (R271): T of the cluster that it names, zero where that one did not start. -/
def KOp.xsw (k : KOp) (e : KEnv) (ts : List (Option Nat)) : KRes :=
  let g := ts.length
  let b := (e.scalar k 0).toNat
  let src := match k.op with
    | 0 => b % g
    | 1 => (e.cid + b) % g
    | _ => (e.cid ^^^ b) % g
  let t := match nth? ts src with
    | some (some t) => t
    | _ => 0
  k.out k.w [t / 2 ^ k.base % 2 ^ k.w] e.gens 0

/-! ## Legality -/

/-- Types that no trigger but UNPK takes, and cf64 at 64 bits (R236, R237). -/
def KOp.typeOk (k : KOp) : Bool :=
  (!k.et.packed || (k.unitNo = 4 && (k.op = 0x0A || k.op = 0x0B) && k.et != .e2m1)) && !(k.et = .cf64 && k.w = 64)

/-- ET, RM and SAT all zero. -/
def KOp.bare (k : KOp) : Bool := k.et = .i8 && k.rm = 0 && !k.sat

/-- SALU (R259, R260). -/
def KOp.saluOk (k : KOp) : Bool :=
  let ints := k.et = .i64 || k.et = .i32
  let flts := k.et = .f32 || k.et = .f64
  if k.op = 0x15 then k.et = .i64 && k.rm = 0 && !k.sat
  else if k.op ≤ 0x19 then ints && k.rm = 0 && !k.sat
  else if 0x20 ≤ k.op ∧ k.op ≤ 0x23 then flts
  else decide (0x24 ≤ k.op) && decide (k.op ≤ 0x28) && flts && k.rm = 0 && !k.sat

/-- BRU (R261). -/
def bruOp (op : Nat) : Bool := [0, 1, 2, 4, 5, 6, 7, 8, 0x10, 0x11].contains op

/-- ACCP (R265). -/
def KOp.accpOk (k : KOp) : Bool :=
  let o := k.op % 4
  (k.et = .f32 || k.et = .f64) && decide (o ≠ 3) && bitsOf k.op 5 2 = 0 &&
  (if o = 0 then k.w = 64 && k.rm = 0 && !k.sat else k.op < 4 && (o = 2 || (k.rm = 0 && !k.sat)))

/-- SRFX (R268). -/
def KOp.srfxOk (k : KOp) : Bool :=
  let o := k.op % 8
  decide (o ≤ 3) && bitsOf k.op 5 3 = 0 && k.rm = 0 && !k.sat && (if o = 0 ∨ o = 2 then k.w = 64 else decide (k.op < 8))

/-- SPL (R275). -/
def KOp.splOk (k : KOp) : Bool :=
  decide (k.op % 4 ≤ 1) && bitsOf k.op 5 2 = 0 && k.bare && (if k.op % 4 = 0 then k.w = 64 else decide (k.op < 4))

/-- Whether a trigger is legal (R215, R236 to R238 and each unit's table), given the captured rounding default. -/
def KOp.legal (k : KOp) (rnd : BitVec 2) : Bool :=
  k.typeOk && match k.unitNo with
    | 0 | 1 => k.valuOk
    | 2 => k.vmacOk
    | 3 => k.vsfuOk rnd
    | 4 => k.vprmOk
    | 5 => k.cvtOk
    | 6 => k.redOk
    | 7 => k.saluOk
    | 8 => bruOp k.op && k.bare
    | 9 => k.accpOk
    | 10 => k.srfxOk
    | 11 => decide (k.op ≤ 2) && k.rm = 0 && !k.sat
    | 12 => decide (k.op ≤ 9) && k.bare
    | 13 => k.splOk
    | _ => false

end Sys2Proof.Machine
end

