-- ==== Sys2Proof/Machine/Bundle.lean ====
section
/-! DEFINITION. Kernel bundles (R212 to R233): ports, slots, the bundle at an address, held and stepped moves, and the checks that cause
0x02 and the window's cause 0x04 come from. -/

namespace Sys2Proof.Machine

/-! ## Ports -/

/-- A port (R218), with its index as encoded before stepping. -/
inductive Port where
  | v | s | p | zero | sin (i : Nat) | sout (i : Nat) | lc (i : Nat) | cid | gsz | ctx
  | o (u k : Nat) | t (u : Nat) | x (u : Nat)
  deriving DecidableEq, Repr

/-- The number of operand ports of a unit (R240 to R275). -/
def operandPorts : Nat → Nat
  | 0 | 1 | 2 => 2
  | 4 => 1
  | 5 => 4
  | 7 => 2
  | 8 | 9 => 1
  | 10 => 2
  | 11 => 1
  | 12 => 2
  | 13 => 1
  | _ => 0

/-- Whether a unit's ports are 64 bits wide only (R218). -/
def scalarUnit (u : Nat) : Bool := u = 7 || u = 8 || u = 12

/-- The port of an encoding (R218); none is reserved. -/
def Port.ofNo (n : Nat) : Option Port :=
  if n < 0x600 then some .v
  else if n < 0x640 then some .s
  else if n < 0x650 then some .p
  else if n < 0x660 then some (if n - 0x650 < 14 then .x (n - 0x650) else .zero)
  else if n < 0x670 then none
  else if n < 0x678 then some (.sin (n - 0x670))
  else if n < 0x680 then some (.sout (n - 0x678))
  else if n < 0x684 then some (.lc (n - 0x680))
  else if n = 0x684 then some .cid
  else if n = 0x685 then some .gsz
  else if n = 0x686 then some .ctx
  else if n < 0x700 ∨ 0x7E0 ≤ n then none
  else
    let u := (n - 0x700) / 16
    let k := n % 16
    if k < operandPorts u then some (.o u k)
    else if k = 8 then some (.t u)
    else if k = 12 then some (.x u)
    else none

def Port.readable : Port → Bool
  | .sout _ | .o _ _ | .t _ => false
  | _ => true

def Port.writable : Port → Bool
  | .v | .s | .p | .sout _ | .lc _ | .o _ _ | .t _ => true
  | _ => false

/-- The widths that a port accepts (R219). -/
def Port.accepts (q : Port) (w : Nat) : Bool :=
  match q with
  | .v => decide (w ≠ 64)
  | .s | .p | .lc _ | .cid | .gsz | .ctx => w = 64
  | .zero | .sin _ | .sout _ => true
  | .o u _ | .t u | .x u => !scalarUnit u || w = 64

/-- Ports that stepping may move over (R215). -/
def Port.stepped : Port → Bool
  | .v | .s | .p => true
  | _ => false

/-! ## Slots -/

/-- A slot's fields (R214). -/
structure Slot where
  sat : Bool
  rm : BitVec 2
  et : Nat
  op : Nat
  lgb : Nat
  stepD : Bool
  step : Int
  hold : Bool
  gi : Bool
  ge : Bool
  gp : Nat
  w : Nat
  sk : Nat
  src : Nat
  dst : Nat
  deriving DecidableEq, Repr

/-- The width that a code stands for (R214). -/
def widthOf (c : Nat) : Nat :=
  match c with
  | 0 => 64
  | 1 => 256
  | 2 => 512
  | _ => 1024

/-- Read a slot (R214). -/
def Slot.parse (x : Word) : Slot :=
  let f (hi lo : Nat) : Nat := bitsOf x.toNat hi lo
  { sat := f 62 62 = 1, rm := BitVec.ofNat 2 (f 61 60), et := f 59 56, op := f 55 48, lgb := f 41 40, stepD := f 39 39 = 1
    step := signedOf 4 (f 38 35), hold := f 34 34 = 1, gi := f 33 33 = 1, ge := f 32 32 = 1, gp := f 31 28
    w := widthOf (f 27 26), sk := f 25 24, src := f 23 12, dst := f 11 0 }

/-- The source port, where the slot has one. -/
def Slot.srcPort (l : Slot) : Option Port := if l.sk = 0 then Port.ofNo l.src else none

/-- The destination port. -/
def Slot.dstPort (l : Slot) : Option Port := Port.ofNo l.dst

def Port.isT : Option Port → Bool
  | some (.t _) => true
  | _ => false

/-- A stream move (R214, R224). -/
def Slot.stream (l : Slot) : Bool :=
  (match l.srcPort with
    | some (.sin _) => true
    | _ => false) || (match l.dstPort with
    | some (.sout _) => true
    | _ => false)

/-- Reserved fields of a slot word (R214, R215). -/
def slotReserved (x : Word) : Bool :=
  let l := Slot.parse x
  bitsOf x.toNat 63 63 != 0 || bitsOf x.toNat 47 42 != 0 || l.sk = 3 || (l.sk = 2 && l.src != 0) ||
  (!Port.isT l.dstPort && (l.op != 0 || l.rm != 0 || l.sat || (l.et != 0 && !l.stream)))

/-! ## Bundles -/

/-- A bundle as it stands in an image (R212, R213): present slots by position, its long immediate, and the position at which its
encoding breaks a rule. -/
structure Bundle where
  len : Nat
  rest : Bool
  sany : Bool
  sync : BitVec 16
  rpt : Nat
  slots : List (Nat × Word)
  imm : Word
  bad : Option Nat
  deriving DecidableEq, Repr

/-- The 8 bytes at an offset of an image space. -/
def imageWord (img : ByteMap) (off : Nat) : Word := BitVec.ofNat 64 (leNat (ByteMap.rdN img off 8))

/-- The positions that SMASK makes present. -/
def maskPositions (h : Nat) : List Nat := (rangeFrom 0 4).filter (fun j => h / 2 ^ j % 2 = 1)

/-- The length of a bundle from its header (R212). -/
def bundleLen (h : Nat) : Nat := (8 + 8 * (maskPositions h).length + (if h / 2 ^ 30 % 2 = 1 then 8 else 0) + 15) / 16 * 16

/-- Read the bundle at an offset (R212, R213, R215); `free` is the long immediate of a bundle that has none (log 26). -/
def Bundle.parse (img : ByteMap) (pc : Nat) (free : Word) : Bundle :=
  let h := (imageWord img pc).toNat
  let ps := maskPositions h
  let limm := decide (h / 2 ^ 30 % 2 = 1)
  let slots := (indexed 1 ps).map (fun e => (e.2, imageWord img (pc + 8 * e.1)))
  let used := 8 + 8 * ps.length + (if limm then 8 else 0)
  let pad := ByteMap.rdN img (pc + used) (bundleLen h - used)
  let bad :=
    if decide (2 ^ 31 ≤ h) || (limm && slots.all (fun e => (Slot.parse e.2).sk != 2)) || pad.any (fun b => b != 0) then some 0
    else (List.find? (fun (e : Nat × Word) => slotReserved e.2) slots).map Prod.fst
  { len := bundleLen h, rest := h / 2 ^ 29 % 2 = 1, sany := h / 2 ^ 28 % 2 = 1, sync := BitVec.ofNat 16 (h / 2 ^ 12)
    rpt := bitsOf h 11 4, slots := slots, imm := if limm then imageWord img (pc + 8 + 8 * ps.length) else free, bad := bad }

/-! ## Moves -/

/-- A move of one issue: position, slot, long immediate, stepped port numbers, and whether it is held from an earlier bundle (R230). -/
structure Move where
  pos : Nat
  slot : Slot
  imm : Word
  src : Int
  dst : Int
  held : Bool
  deriving DecidableEq, Repr

/-- The unit of a step (R230): W/256 registers of a v port, one of the others. -/
def Slot.stepUnit (l : Slot) : Nat :=
  match (if l.stepD then l.dstPort else l.srcPort) with
  | some .v => max 1 (l.w / 256)
  | _ => 1

/-- The index of the stepped side at issue `k` of its bundle (R230). -/
def Slot.indexAt (l : Slot) (k : Nat) : Int := (if l.stepD then l.dst else l.src : Nat) + (k : Int) * l.step * l.stepUnit

/-- A slot as a move, its stepped side at an index. -/
def Slot.move (l : Slot) (pos : Nat) (imm : Word) (idx : Int) (held : Bool) : Move :=
  { pos := pos, slot := l, imm := imm, src := if l.stepD then (l.src : Int) else idx, dst := if l.stepD then idx else (l.dst : Int)
    held := held }

/-- The moves of an issue (R230): the present slots, and the held moves of absent positions. -/
def Bundle.moves (b : Bundle) (rep : Nat) (holds : AMap HeldMove) : List Move :=
  (rangeFrom 0 4).filterMap (fun pos =>
    match List.find? (fun (e : Nat × Word) => decide (e.1 = pos)) b.slots with
    | some e =>
      let l := Slot.parse e.2
      some (l.move pos b.imm (l.indexAt rep) false)
    | none => match AMap.find? holds pos with
      | some h => some ((Slot.parse h.slot).move pos h.imm h.idx true)
      | none => none)

/-- The registers of its file that a side reaches from port number `n`. -/
def Slot.reach (l : Slot) (p : Option Port) : Nat :=
  match p with
  | some .v => max 1 (l.w / 256)
  | _ => 1

/-- Whether a side stays inside its file or window (R220, R230). -/
def sideInside (vwin : Nat) (l : Slot) (p : Option Port) (n : Int) : Bool :=
  match p with
  | some .v => decide (0 ≤ n) && decide (n + l.reach p ≤ vwin)
  | some .s => decide (0x600 ≤ n) && decide (n < 0x640)
  | some .p => decide (0x640 ≤ n) && decide (n < 0x650)
  | _ => true

/-- Whether a move's stepped ports leave their file or window: cause 0x04 (R220, R230). -/
def Move.outside (m : Move) (vwin : Nat) : Bool :=
  !(sideInside vwin m.slot m.slot.srcPort m.src && sideInside vwin m.slot m.slot.dstPort m.dst)

/-- Two moves that write one destination (R215). -/
def Move.sameDst (a b : Move) : Bool :=
  a.slot.dstPort = b.slot.dstPort &&
  decide (a.dst < b.dst + b.slot.reach b.slot.dstPort) && decide (b.dst < a.dst + a.slot.reach a.slot.dstPort)

/-- Two moves that read one sin port (R215). -/
def Move.sameSin (a b : Move) : Bool :=
  match a.slot.srcPort, b.slot.srcPort with
  | some (.sin i), some (.sin j) => i = j
  | _, _ => false

/-- The lane groups that a move occupies (R221). -/
def Slot.groups (l : Slot) : List Nat := if l.w = 64 then [] else rangeFrom l.lgb (l.w / 256)

/-- A lane-group base that a width allows (R221). -/
def lgbOk (w lgb : Nat) : Bool := w = 64 || (lgb % (w / 256) = 0 && decide (lgb + w / 256 ≤ 4))

/-- The operation that a slot triggers (R234). -/
def Slot.kop (l : Slot) (u : Nat) : KOp :=
  { unitNo := u, op := l.op, et := ET.ofCode l.et, rm := l.rm, sat := l.sat, w := l.w, lgb := l.lgb }

/-- The width of the data that a unit reads for a trigger at W = 64 (R265, R268, R275). -/
def KOp.dataWidth (k : KOp) : Nat := widthOf (bitsOf k.op 7 6)

/-- Whether a trigger's result has a place in the lane groups from LGB (R221). -/
def KOp.resultOk (k : KOp) : Bool :=
  match k.unitNo with
  | 9 => k.op % 4 != 0 || lgbOk k.dataWidth k.lgb
  | 10 => k.op % 8 != 0 || lgbOk k.dataWidth k.lgb
  | 13 => k.op % 4 != 0 || lgbOk k.dataWidth k.lgb
  | _ => true

/-- Whether a move breaks R215 by itself. -/
def Move.illegal (m : Move) (rnd : BitVec 2) : Bool :=
  let l := m.slot
  let align (n : Nat) (p : Option Port) : Bool := match p with
    | some .v => decide (n % l.reach p = 0)
    | _ => true
  match l.dstPort with
  | none => true
  | some d =>
    let srcOk := l.sk != 0 || (match l.srcPort with
      | some q => q.readable && q.accepts l.w && align l.src (some q)
      | none => false)
    let pIn := match d with
      | .p => l.sk != 0 || (match l.srcPort with
        | some .p | some (.x _) | some .zero => true
        | _ => false)
      | _ => true
    let pOut := match l.srcPort, d with
      | some .p, .p | some .p, .o _ _ | some .p, .t _ => true
      | some .p, _ => false
      | _, _ => true
    let stepOk := l.step = 0 || (match (if l.stepD then some d else l.srcPort) with
      | some q => q.stepped
      | none => false)
    let trig := match d with
      | .t u => (l.kop u).legal rnd && (l.kop u).resultOk
      | _ => true
    !(d.writable && d.accepts l.w && align l.dst (some d) && srcOk && pIn && pOut && lgbOk l.w l.lgb && stepOk && trig)

/-- The loop counter that a loop trigger uses (R262). -/
def Slot.loopLc (l : Slot) : Option Nat :=
  match l.dstPort with
  | some (.t 8) => if 4 ≤ l.op ∧ l.op ≤ 7 then some (l.op - 4) else none
  | _ => none

/-- Whether a move breaks R215 with another one, or where it stands (R215, R231, R262). -/
def Move.clashes (m : Move) (others : List Move) (rpt : Nat) (delay : Bool) : Bool :=
  others.any (fun n => decide (n.pos ≠ m.pos) && (m.sameDst n || m.sameSin n || m.slot.groups.any (fun g => n.slot.groups.contains g) ||
    (match m.slot.loopLc, n.slot.dstPort with
      | some i, some (.lc j) => i = j
      | _, _ => false))) ||
  (m.slot.dstPort = some (.t 8) && (rpt != 0 || delay))

/-- A trap that an issue may take (R277): its place in the list of R277, position, cluster, cause and address. -/
structure KTrap where
  rank : Nat
  pos : Nat
  cid : Nat
  code : Nat
  addr : Word
  deriving DecidableEq, Repr

/-- Whether a trap is reported before another (R277, R354). -/
def KTrap.before (a b : KTrap) : Bool :=
  decide ((a.rank * 4 + a.pos) * 8 + a.cid < (b.rank * 4 + b.pos) * 8 + b.cid)

/-- The place of a cause among those that arise in an issue (R277). -/
def causeRank (code : Nat) : Nat :=
  match code with
  | 0x02 => 2
  | 0x03 => 3
  | 0x0A => 5
  | 0x04 => 6
  | 0x05 => 7
  | 0x06 | 0x07 | 0x08 => 8
  | 0x0B => 9
  | 0x1B => 10
  | 0x14 => 11
  | 0x13 => 12
  | _ => 13

/-- The traps that an issue's encoding and indices give (R215, R220, R230). -/
def Bundle.traps (b : Bundle) (ms : List Move) (vwin : Nat) (rnd : BitVec 2) (delay : Bool) : List KTrap :=
  (match b.bad with
    | some p => [⟨2, p, 0, 0x02, 0⟩]
    | none => []) ++
  (if delay && b.rpt != 0 then [⟨2, 0, 0, 0x02, 0⟩] else []) ++
  ms.filterMap (fun m =>
    if m.illegal rnd || m.clashes ms b.rpt delay then some ⟨2, m.pos, 0, 0x02, 0⟩
    else if m.outside vwin then some ⟨4, m.pos, 0, 0x04, 0⟩
    else none)

/-! ## What a context holds -/

/-- A cluster of a context that starts with nothing (R202). -/
def CtxCluster.fresh : CtxCluster := { v := [], s := [], p := [], x := [], o := [], vBad := [], sBad := [], oBad := [] }

/-- Its cluster with a CID. -/
def Context.cluster (x : Context) (c : Nat) : CtxCluster := (nth? x.cl c).getD CtxCluster.fresh

/-- The CIDs of its group. -/
def Context.cids (x : Context) : List Nat := rangeFrom 0 x.size

/-- The clusters of the core that it occupies (R31). -/
def Context.clusters (x : Context) : List Nat := rangeFrom x.first x.size

/-- The guard of a move in a cluster (R223). -/
def Context.guard (x : Context) (c : Nat) (l : Slot) : BitVec 128 :=
  if l.ge then
    let p := (x.cluster c).p.get l.gp 0
    if l.gi then ~~~ p else p
  else BitVec.allOnes 128

/-- Whether bit 0 of the guard is set. -/
def Context.on (x : Context) (c : Nat) (l : Slot) : Bool := (x.guard c l).getLsbD 0

/-- The value that a move reads in a cluster, placed on the 1024-bit path (R219, R222, R236); `popped` is what a sin port gave. -/
def Context.source (x : Context) (c : Nat) (m : Move) (popped : Nat) : Nat :=
  let l := m.slot
  let k := x.cluster c
  let base := 256 * l.lgb
  let toP := l.dstPort = some .p
  let narrow (v : Nat) : Nat := v % 2 ^ 64 * 2 ^ base
  if l.sk = 0 then
    match l.srcPort with
    | some .v => glue 256 ((rangeFrom m.src.toNat (l.w / 256)).map (fun i => (k.v.get i 0).toNat)) * 2 ^ base
    | some .s => narrow (if m.src = 0x600 then 0 else (k.s.get (m.src - 0x600).toNat 0).toNat)
    | some .p =>
      -- a trigger's scalar form reads bits 63:0 of T (R236), whatever LGB
      let v := (k.p.get (m.src - 0x640).toNat 0).toNat
      if Port.isT l.dstPort then v * 2 ^ base else v
    | some (.x u) =>
      let v := (k.x.get u 0).toNat
      if toP then v % 2 ^ 128 else v / 2 ^ base % 2 ^ l.w * 2 ^ base
    | some (.lc i) => narrow (x.lc.get i 0).toNat
    | some .cid => narrow c
    | some .gsz => narrow x.size
    | some .ctx => narrow x.slot
    | some (.sin _) => popped % 2 ^ l.w * 2 ^ base
    | _ => 0
  else
    let i : Word := if l.sk = 1 then BitVec.ofInt 64 (signedOf 12 l.src) else m.imm
    if toP then (i.signExtend 128).toNat else glue 64 (List.replicate (l.w / 64) i.toNat) * 2 ^ base

/-- Whether the register that a move reads in a cluster meets poison (R426). -/
def Context.sourceBad (x : Context) (c : Nat) (m : Move) : Bool :=
  let k := x.cluster c
  match m.slot.srcPort with
  | some .v => !k.vBad.isEmpty && (rangeFrom (4 * m.src.toNat) (m.slot.w / 64)).any (fun u => k.vBad.has u)
  | some .s => m.src != 0x600 && k.sBad.has (m.src - 0x600).toNat
  | _ => false

/-- Whether the operand ports that a trigger reads in a cluster meet poison (R234, R426). -/
def Context.operandsBad (x : Context) (c : Nat) (o : KOp) : Bool :=
  let k := x.cluster c
  !k.oBad.isEmpty && (rangeFrom 0 (operandPorts o.unitNo)).any (fun i =>
    let port := 4 * o.unitNo + i
    let at_ (u : Nat) : Bool := k.oBad.has (32 * port + u)
    if (k.o.get port OPort.zero).s then at_ 16 else (rangeFrom (4 * o.lgb) (o.w / 64)).any at_)

/-- Marks that a write of the units from `lo` clears, of those it covers whole (R426). -/
def clearUnits (m : AMap Unit) (lo n : Nat) : AMap Unit := m.filter (fun e => !(decide (lo ≤ e.1) && decide (e.1 < lo + n)))

/-- Change one cluster of a context. -/
def Context.setCluster (x : Context) (c : Nat) (k : CtxCluster) : Context := { x with cl := setNth x.cl c k }

/-- Write an operand port (R235). -/
def Context.putOperand (x : Context) (c : Nat) (m : Move) (key : Nat) (v : Nat) : Context :=
  let l := m.slot
  let k := x.cluster c
  let old := k.o.get key OPort.zero
  let base := 256 * l.lgb
  let field := (2 ^ l.w - 1) * 2 ^ base
  let new : OPort :=
    if l.srcPort = some .p then { bits := BitVec.ofNat 1024 v, s := false, v := old.v }
    else
      let bits := (old.bits &&& ~~~ (BitVec.ofNat 1024 field)) ||| BitVec.ofNat 1024 v
      if l.w = 64 then { bits := bits, s := true, v := BitVec.ofNat 64 (v / 2 ^ base) } else { bits := bits, s := false, v := old.v }
  let bad :=
    if k.oBad.isEmpty then []
    else if l.srcPort = some .p then clearUnits k.oBad (32 * key) 32
    else
      let b := clearUnits k.oBad (32 * key + 4 * l.lgb) (l.w / 64)
      if l.w = 64 then clearUnits b (32 * key + 16) 1 else b
  x.setCluster c { k with o := k.o.put key new, oBad := bad }

/-! ## Landing -/

/-- Spread a byte mask over the bits it selects. -/
def spread (mask : Nat) : Nat → Nat
  | 0 => 0
  | n + 1 => (if mask % 2 = 1 then 255 else 0) + 256 * spread (mask / 2) n

/-- Bytes of a value over an old one. -/
def overlay (old new mask n : Nat) : Nat :=
  let m := spread mask n
  (old &&& (2 ^ (8 * n) - 1 - m)) ||| (new &&& m)

/-- The first `n` codes of block `q` of superblock `b` of an e2m1 output, gathered from the SRF as it stands (R91, R323): code × 2^(X − 127). -/
def Binding.gatherBlock (o : Binding) (k : Core) (n b q : Nat) (st : Stats) : Stats :=
  let at_ := o.base + 272 * b
  let x := leNat (k.readBuf .srf (at_ + 256 + q) 1)
  (cut (leNat (k.readBuf .srf (at_ + 16 * q) 16)) 0 4 n).foldl (fun (st : Stats) c => st.gather (e2m1Val c x)) st

/-- The elements of an output that bytes `a` to `a + n − 1` complete (R323), gathered from the SRF as it stands. A block of e2m1 is complete
with its scale byte (log 40). -/
def Binding.gatherPush (o : Binding) (k : Core) (a n : Nat) : Binding :=
  match o.stats with
  | none => o
  | some st =>
    let t := ET.ofCode o.et
    if t = .e2m1 then
      { o with stats := some ((rangeFrom (a - o.base) n).foldl (fun (st : Stats) p =>
          if 256 ≤ p % 272 then o.gatherBlock k 32 (p / 272) (p % 272 - 256) st else st) st) }
    else
      let lo := 8 * (a - o.base) / t.bits
      let hi := 8 * (a + n - o.base) / t.bits
      let el (i : Nat) : Nat :=
        let bit := i * t.bits
        leNat (k.readBuf .srf (o.base + bit / 8) ((bit % 8 + t.bits + 7) / 8)) / 2 ^ (bit % 8) % 2 ^ t.bits
      { o with stats := some ((rangeFrom lo (hi - lo)).foldl (fun (st : Stats) i => st.gatherEl t (el i)) st) }

/-- The statistics of an output as its context halts (R263): with the codes of a last e2m1 superblock whose scale bytes were not pushed, under the
scale bytes that stand in the SRF (log 40). -/
def Binding.closing (o : Binding) (k : Core) : Option Stats :=
  o.stats.map (fun st =>
    if ET.ofCode o.et = .e2m1 then
      let r := o.pos % 272
      let codes := min r 256
      (rangeFrom (r - 256) ((codes + 15) / 16 - (r - 256))).foldl
        (fun (st : Stats) q => o.gatherBlock k (min 32 (2 * (codes - 16 * q))) (o.pos / 272) q st) st
    else st)

/-- Push bytes of an output (R224): into the SRF, and into its statistics. -/
def pushBytes (k : Core) (x : Context) (idx a n v : Nat) : Core × Context :=
  let k := k.writeBuf .srf a (leBytes n v)
  (k, { x with outs := (indexed 0 x.outs).map (fun e => if e.1 = idx then e.2.gatherPush k a n else e.2) })

/-- A result lands (R225, R227). -/
def landOne (k : Core) (x : Context) (f : Flight) : Core × Context :=
  let c := x.cluster f.cid
  let mask := f.mask.toNat
  let val := f.value.toNat
  match f.dest with
  | .v i =>
    let whole (u : Nat) : Bool := f.mask.extractLsb' (8 * (u % 4)) 8 = 0xFF
    (k, x.setCluster f.cid { c with
      v := c.v.put i (BitVec.ofNat 256 (overlay (c.v.get i 0).toNat val mask 32))
      vBad := c.vBad.filter (fun e => !(decide (e.1 / 4 = i) && whole e.1)) })
  | .s i => (k, x.setCluster f.cid { c with s := c.s.put i (BitVec.ofNat 64 val), sBad := clearUnits c.sBad i 1 })
  | .p i => (k, x.setCluster f.cid { c with p := c.p.put i (BitVec.ofNat 128 val) })
  | .x u => (k, x.setCluster f.cid { c with x := c.x.put u (BitVec.ofNat 1024 (overlay (c.x.get u 0).toNat val mask 128)) })
  | .lc i => (k, { x with lc := x.lc.put i (BitVec.ofNat 32 val) })
  | .sout i a n => pushBytes k x i a n val

/-- Land results in their order. -/
def landAll (k : Core) (x : Context) (fs : List Flight) : Core × Context :=
  fs.foldl (fun (r : Core × Context) f => landOne r.1 r.2 f) (k, x)

/-- The results that land at the coming issue (R362). -/
def Context.due (x : Context) : List Flight := x.flight.filter (fun f => f.rem = 0)

/-- Land what the coming issue lands. -/
def landDue (k : Core) (x : Context) : Core × Context :=
  landAll k { x with flight := x.flight.filter (fun f => f.rem != 0) } x.due

/-- Whether a stall step comes before the next issue (R380). -/
def Context.mustStall (x : Context) : Bool := x.due.any (fun f => decide (x.steps < f.step))

end Sys2Proof.Machine
end

