-- ==== Sys2Proof/Machine/Kernel.lean ====
section
/-! DEFINITION. One issue of a kernel context (R217 to R278): sources, streams, operand ports, the units, and the commit or the trap. -/

namespace Sys2Proof.Machine

/-! ## The issue in progress -/

/-- An issue in progress: the state and the context with its effects so far, and the traps that have arisen; they are dropped together
when it traps (R278). -/
structure Issue where
  s : State
  x : Context
  traps : List KTrap
  ovCount : Nat
  overPos : Nat
  after : Option AfterDelay

/-- What an issue reads from: the core and the context as the issue finds them, and the core's number (R217). -/
structure Before where
  core : Nat
  k : Core
  x : Context

/-- The issue takes a trap for a move. -/
def Issue.trap (i : Issue) (m : Move) (c code : Nat) (addr : Word) : Issue :=
  { i with traps := i.traps ++ [⟨causeRank code, m.pos, c, code, addr⟩] }

/-- The core as the issue has changed it. -/
def Issue.core (i : Issue) (b : Before) : Core := i.s.core b.core

def Issue.setCore (i : Issue) (b : Before) (k : Core) : Issue := { i with s := i.s.setCore b.core k }

/-- A result takes flight, with its latencies on B1 and on A2 (R225, R380). -/
def Context.fly (x : Context) (b1 a2 c : Nat) (d : LandDest) (v : Wide) (mask : BitVec 128) : Context :=
  { x with flight := x.flight ++
    [{ cid := c, dest := d, value := v, mask := mask, rem := (if x.compat then a2 else b1) - 1
       step := if x.compat then x.steps + b1 else 0 }] }

def Issue.fly (i : Issue) (b1 a2 c : Nat) (d : LandDest) (v : Nat) (mask : BitVec 128) : Issue :=
  { i with x := i.x.fly b1 a2 c d (BitVec.ofNat 1024 v) mask }

/-- The latencies of a unit's result on B1 and on A2 (R225). -/
def unitLat : Nat → Nat × Nat
  | 0 | 1 => (2, 2)
  | 2 | 11 => (4, 4)
  | 3 => (8, 8)
  | 4 | 5 => (3, 3)
  | 6 | 9 => (5, 5)
  | 10 => (6, 4)
  | _ => (1, 1)

/-- The latencies of a pop (R225). -/
def popLat : Nat × Nat := (6, 4)

/-- A 64-bit or wider result of a unit into x from lane group LGB (R236). -/
def Issue.result (i : Issue) (c : Nat) (k : KOp) (w : Nat) (v : Nat) : Issue :=
  let l := unitLat k.unitNo
  i.fly l.1 l.2 c (.x k.unitNo) (v % 2 ^ w * 2 ^ k.base) (byteMask (32 * k.lgb) (w / 8))

/-- A unit's result with the generators and the overflow count it leaves. -/
def Issue.take (i : Issue) (m : Move) (c u : Nat) (r : KRes) : Issue :=
  let l := unitLat u
  let i := i.fly l.1 l.2 c (.x u) r.value.toNat r.mask
  { i with x := { i.x with gens := r.gens }, ovCount := i.ovCount + r.ovCount, overPos := if r.ovCount = 0 then i.overPos else m.pos }

/-! ## Streams -/

/-- Take `n` bytes of a binding at its position (R224): its bytes' address; none past its LEN. -/
def takeStream (bs : List Binding) (idx n : Nat) : Option (Nat × List Binding) :=
  match nth? bs idx with
  | none => none
  | some o => if o.len < o.pos + n then none else some (o.base + o.pos, setNth bs idx { o with pos := o.pos + n })

/-- A pop of a cluster (R224, R426); poison does not hide what the rest of the bundle takes (R277). -/
def Issue.pop (i : Issue) (b : Before) (m : Move) (c idx : Nat) : Issue × Option Nat :=
  let n := m.slot.w / 8
  match takeStream i.x.ins idx n with
  | none => (i.trap m c 0x04 0, none)
  | some (a, bs) =>
    let i := if b.k.bufPoisoned .srf a n then i.trap m c 0x1B 0 else i
    ({ i with x := { i.x with ins := bs } }, some (leNat (b.k.readBuf .srf a n)))

/-- A push of a cluster (R224): a popped value is pushed where it lands (R225, R263). -/
def Issue.push (i : Issue) (b : Before) (m : Move) (c idx v : Nat) (popped : Bool) : Issue :=
  let n := m.slot.w / 8
  if b.x.redir && idx = 7 then i.trap m c 0x04 0
  else match takeStream i.x.outs idx n with
    | none => i.trap m c 0x04 0
    | some (a, bs) =>
      let i := { i with x := { i.x with outs := bs } }
      let v := v / 2 ^ (256 * m.slot.lgb) % 2 ^ m.slot.w
      if popped then i.fly popLat.1 popLat.2 c (.sout idx a n) v (BitVec.allOnes 128)
      else
        let r := pushBytes (i.core b) i.x idx a n v
        { i.setCore b r.1 with x := r.2 }

/-! ## Moves -/

/-- Where a move's value goes when its destination is a register (R219, R220, R223). -/
def Issue.deliver (i : Issue) (b : Before) (m : Move) (c v : Nat) (popped : Bool) : Issue :=
  let l := m.slot
  let lat := if popped then popLat else (1, 1)
  let base := 256 * l.lgb
  match l.dstPort with
  | some .v =>
    (rangeFrom 0 (l.w / 256)).foldl (fun (i : Issue) j =>
      let g := if popped then BitVec.allOnes 32 else (b.x.guard c l).extractLsb' (32 * (l.lgb + j)) 32
      i.fly lat.1 lat.2 c (.v (m.dst.toNat + j)) (v / 2 ^ (base + 256 * j) % 2 ^ 256) (g.zeroExtend 128)) i
  | some .s =>
    if !b.x.on c l || m.dst = 0x600 then i
    else i.fly lat.1 lat.2 c (.s (m.dst - 0x600).toNat) (v / 2 ^ base % 2 ^ 64) (BitVec.allOnes 128)
  | some .p =>
    if !b.x.on c l then i else i.fly lat.1 lat.2 c (.p (m.dst - 0x640).toNat) (v % 2 ^ 128) (BitVec.allOnes 128)
  | some (.lc k) =>
    if c != 0 || !b.x.on c l then i else i.fly lat.1 lat.2 c (.lc k) (v / 2 ^ base % 2 ^ 32) (BitVec.allOnes 128)
  | some (.sout k) => if b.x.on c l then i.push b m c k v popped else i
  | _ => i

/-- A stream move whose ET is not the format of its port's bank (R91, R224), which no guard hides; a popped source of CVT names its ET as a
conversion's. -/
def Before.streamTrap (b : Before) (m : Move) : Option KTrap :=
  let bad (o : Option Binding) : Bool := match o with
    | some o => decide ((b.k.fmtOf (o.base / 0x20000)).toNat % 16 ≠ m.slot.et)
    | none => false
  let pops := match m.slot.srcPort with
    | some (.sin i) => m.slot.dstPort != some (.t 5) && bad (nth? b.x.ins i)
    | _ => false
  let pushes := match m.slot.dstPort with
    | some (.sout i) => bad (nth? b.x.outs i)
    | _ => false
  if pops || pushes then
    some ⟨causeRank 0x0A, m.pos, (List.find? (fun c => b.x.on c m.slot) b.x.cids).getD 0, 0x0A, 0⟩
  else none

/-- A move reads its source in a cluster (R217 (1)); its value by 8·position + CID. -/
def Issue.readMove (b : Before) (m : Move) (r : Issue × AMap Nat) (c : Nat) : Issue × AMap Nat :=
  let i := if b.x.sourceBad c m then r.1.trap m c 0x1B 0 else r.1
  match m.slot.srcPort with
  | some (.sin idx) =>
    if !b.x.on c m.slot then r
    else match i.pop b m c idx with
      | (i, none) => (i, r.2)
      | (i, some v) =>
        let v := b.x.source c m v
        (i.deliver b m c v true, r.2.put (8 * m.pos + c) v)
  | _ =>
    let v := b.x.source c m 0
    (i.deliver b m c v false, r.2.put (8 * m.pos + c) v)

/-- Every move reads its source. -/
def Issue.readAll (i : Issue) (b : Before) (ms : List Move) : Issue × AMap Nat :=
  ms.foldl (fun (r : Issue × AMap Nat) m => b.x.cids.foldl (Issue.readMove b m) r) (i, [])

/-- Writes into operand ports take effect (R217 (3), R235). -/
def Issue.operands (i : Issue) (b : Before) (ms : List Move) (vals : AMap Nat) : Issue :=
  ms.foldl (fun (i : Issue) m => match m.slot.dstPort with
    | some (.o u k) => b.x.cids.foldl (fun (i : Issue) c =>
        match vals.find? (8 * m.pos + c) with
        | some v => if b.x.on c m.slot then { i with x := i.x.putOperand c m (4 * u + k) v } else i
        | none => i) i
    | _ => i) i

/-! ## SALU -/

/-- An integer operation on `w` bits (R259, R260). -/
def saluInt (op w a b : Nat) : Nat :=
  let m := 2 ^ w
  let a := a % m
  let b := b % m
  let x := signedOf w a
  let y := signedOf w b
  let flag (q : Bool) : Nat := if q then 1 else 0
  match op with
  | 0x00 => (a + b) % m
  | 0x01 => wrapBits w (x - y)
  | 0x02 => a &&& b
  | 0x03 => a ||| b
  | 0x04 => a ^^^ b
  | 0x05 => a * 2 ^ (b % w) % m
  | 0x06 => a / 2 ^ (b % w)
  | 0x07 => wrapBits w (x / ((2 ^ (b % w) : Nat) : Int))
  | 0x08 => flag (decide (x < y))
  | 0x09 => flag (decide (a < b))
  | 0x0A => wrapBits w (min x y)
  | 0x0B => wrapBits w (max x y)
  | 0x0C => min a b
  | 0x0D => max a b
  | 0x0E => a * b % m
  | 0x0F => wrapBits w (x * y / (m : Int))
  | 0x10 => a * b / m
  | 0x11 => if b = 0 then m - 1 else wrapBits w (x.tdiv y)
  | 0x12 => if b = 0 then m - 1 else a / b
  | 0x13 => if b = 0 then a else wrapBits w (x.tmod y)
  | 0x14 => if b = 0 then a else a % b
  | 0x16 => flag (decide (a = b))
  | 0x17 => w - (if a = 0 then 0 else Nat.log2 a + 1)
  | 0x18 => if a = 0 then w else Nat.log2 (a &&& (m - a))
  | _ => ((rangeFrom 0 w).filter (fun j => a / 2 ^ j % 2 = 1)).length

/-- A floating-point operation (R259, R260). -/
def saluF (op : Nat) (f : Fmt) (rm : RMode) (sat : Bool) (st : Word32) (a b c : Nat) : Nat :=
  let x := f.decode a
  let y := f.decode b
  let flag (q : Bool) : Nat := if q then 1 else 0
  match op with
  | 0x20 => (f.deliver rm sat st (x.add y)).1
  | 0x21 => (f.deliver rm sat st (x.sub y)).1
  | 0x22 => (f.deliver rm sat st (x.mul y)).1
  | 0x23 => (f.deliver rm sat st (x.fma y (f.decode c))).1
  | 0x24 => (f.deliver .rne false 0 (x.min y)).1
  | 0x25 => (f.deliver .rne false 0 (x.max y)).1
  | 0x26 => flag (x.feq y)
  | 0x27 => flag (x.lt y)
  | _ => flag (x.lt y || x.feq y)

/-- A trigger of SALU in a cluster (R259, R260): the result with its generators. -/
def KOp.salu (k : KOp) (e : KEnv) : Word × AMap Word32 :=
  let a := (e.tScalar k).toNat
  let b := (e.scalar k 0).toNat
  let c := (e.scalar k 1).toNat
  if 0x20 ≤ k.op then
    let f := if k.et = .f64 then Fmt.f64 else Fmt.f32
    let m := 2 ^ k.et.bits
    let rm := k.rmode e
    let d := if k.op ≤ 0x23 then e.draws rm [0] else ([], e.gens)
    (BitVec.ofNat 64 (saluF k.op f rm k.sat ((nth? d.1 0).getD 0) (a % m) (b % m) (c % m)), d.2)
  else if k.op = 0x15 then (BitVec.ofNat 64 (if c != 0 then a else b), e.gens)
  else
    let w := k.et.bits
    (BitVec.ofInt 64 (signedOf w (saluInt k.op w a b)), e.gens)

/-! ## BRU -/

/-- A branch of the context (R231, R261, R262): `t` is T of CID 0 as an i64, `cond` its o0. -/
def Issue.bru (i : Issue) (b : Before) (m : Move) (k : KOp) (e : KEnv) : Issue :=
  let t := e.tScalar k
  let cond := e.scalar k 0
  if k.op = 0x10 then { i with after := some .halt }
  else if k.op = 0x11 then { i with after := some .rest }
  else
    let lc := (b.x.lc.get (k.op - 4) 0).toNat
    let loop := decide (4 ≤ k.op) && decide (k.op ≤ 7)
    let i := if loop && lc != 0 then i.fly 1 1 0 (.lc (k.op - 4)) (lc - 1) (BitVec.allOnes 128) else i
    let go := match k.op with
      | 1 => cond != 0
      | 2 => cond = 0
      | _ => !loop || decide (2 ≤ lc)
    if !go then i
    else
      let target : Int := if k.op = 8 then (t.toNat % 2 ^ 17 : Nat) else (b.x.pc : Int) + 16 * t.toInt
      let ok := decide (0 ≤ target) && decide (target < 0x20000) && decide (target % 16 = 0) && (match i.s.bents.find? b.x.bent with
        | some r => AMap.has r.starts (target.toNat / 16)
        | none => false)
      if ok then { i with after := some (.goto target.toNat) } else i.trap m 0 0x03 0

/-! ## ACCP -/

/-- acc := acc + data for the elements of an ACCP add (R265, R267). -/
def accAdd (k : Core) (t : ET) (rm : RMode) (sat : Bool) (off : Nat) (ds : List (Nat × Word32)) : Core :=
  let f := if t = .f64 then Fmt.f64 else Fmt.f32
  (indexed 0 ds).foldl (fun (k : Core) (e : Nat × Nat × Word32) =>
    let a := off + e.1 * t.bytes
    let old := f.decode (leNat (k.readBuf .acc a t.bytes))
    k.writeBuf .acc a (leBytes t.bytes (f.deliver rm sat e.2.2 (old.add (f.decode e.2.1))).1)) k

/-- A trigger of ACCP in a cluster (R265 to R267, R311, R368). -/
def Issue.accp (i : Issue) (b : Before) (m : Move) (k : KOp) (e : KEnv) : Issue :=
  let o := k.op % 4
  let w := if o = 0 then k.dataWidth else k.w
  let a := (if o = 0 then e.tScalar k else e.scalar k 0).toNat
  let el := a % 1024
  match nth? b.x.accw (bitsOf a 18 16) with
  | none => i.trap m e.cid 0x04 0
  | some win =>
    let off := 4096 * win + 4 * el
    let n := w / 8
    if 1024 < el + w / 32 then i.trap m e.cid 0x04 0
    else if el % (if w = 64 then 2 else 8) ≠ 0 then i.trap m e.cid 0x05 0
    else match (i.core b).touch win b.x.bent with
      | .other w => i.trap m e.cid 0x0B (BitVec.ofNat 64 w)
      | .ok core =>
        if o != 1 && b.k.bufPoisoned .acc off n then i.trap m e.cid 0x1B 0
        else
          let i := i.setCore b core
          let data := e.t / 2 ^ k.base % 2 ^ w
          if o = 0 then i.result e.cid k w (leNat (b.k.readBuf .acc off n))
          else if o = 1 then i.setCore b ((i.core b).writeBuf .acc off (leBytes n data))
          else
            let sz := k.et.bits
            let rm := k.rmode e
            let d := e.draws rm (k.positions sz (w / sz))
            let ds := (indexed 0 (cut data 0 sz (w / sz))).map (fun p => (p.2, (nth? d.1 p.1).getD 0))
            let i := i.setCore b (accAdd (i.core b) k.et rm k.sat off ds)
            { i with x := { i.x with gens := d.2 } }

/-! ## Global accesses of a context -/

/-- Translate the parts of an access (R102, R135, R269). -/
def State.ctxParts (s : State) (bay b : Nat) (need : Need) : List (Nat × Nat) → Except (Nat × Word) (List (Loc × Nat))
  | [] => .ok []
  | (va, n) :: t =>
    match s.translate bay b (BitVec.ofNat 64 va) need with
    | .error c => .error (c, BitVec.ofNat 64 va)
    | .ok l => match State.ctxParts s bay b need t with
      | .ok ls => .ok ((l, n) :: ls)
      | .error e => .error e

/-- The 8-byte units of an access, from a byte offset of it (R102). -/
def srfxParts : Nat → List (Loc × Nat) → List SrfxPart
  | _, [] => []
  | off, (l, n) :: t => { off := off, loc := l, len := n } :: srfxParts (off + n) t

/-- Issue a global access of a context (R269, R270): checked now, performed later. -/
def Issue.global (i : Issue) (b : Before) (m : Move) (c : Nat) (need : Need) (kind : SrfxKind) (va : Word) (n cls : Nat)
    (flag : Option Nat) : Issue :=
  if va.toNat % min n 8 ≠ 0 then i.trap m c 0x05 va
  else match i.s.ctxParts (i.s.bayOf b.core) b.x.bent need (unitParts n va.toNat n) with
    | .error (code, w) => i.trap m c code w
    | .ok ls =>
      let bay := i.s.bayOf b.core
      let o : SrfxOp := { no := b.x.steps, kind := kind, cid := c, cls := cls, flag := flag, va := va, parts := srfxParts 0 ls, got := []
                          size := n, sent := i.s.elapsed }
      { i with s := i.s.touchParts bay b.x.bent need va ls, x := { i.x with srfx := i.x.srfx ++ [o] } }

/-! ## SRFX -/

/-- The binding of an SRF address (R268): inputs 0 to 7, outputs 8 to 15. -/
def Context.bindingOf (x : Context) (n : Nat) : Option Binding := if n < 8 then nth? x.ins n else nth? x.outs (n - 8)

/-- Check an SRF address (R268, R269): the SRF byte, or the cause. -/
def Before.srfAddr (b : Before) (a w : Nat) (et : Nat) (out : Bool) : Except Nat Nat :=
  let off := a % 2 ^ 32
  let n := bitsOf a 35 32
  match b.x.bindingOf n with
  | none => .error 0x04
  | some o =>
    if (b.k.fmtOf (o.base / 0x20000)).toNat % 16 ≠ et then .error 0x0A
    else if out && n < 8 then .error 0x04
    else if o.len < off + w then .error 0x04
    else if off % w ≠ 0 then .error 0x05
    else .ok (o.base + off)

/-- CLS and flag of a control value (R268). -/
def ctlCls (c : Nat) : Nat := bitsOf c 8 5
def ctlFlag (c : Nat) : Option Nat := if bitsOf c 4 4 = 1 then none else some (bitsOf c 3 0)

/-- A trigger of SRFX in a cluster (R268 to R270). -/
def Issue.srfx (i : Issue) (b : Before) (m : Move) (k : KOp) (e : KEnv) : Issue :=
  let t := e.tScalar k
  let o0 := e.scalar k 0
  let o1 := (e.scalar k 1).toNat
  let et := k.et.code
  match k.op % 8 with
  | 0 =>
    let n := k.dataWidth / 8
    match b.srfAddr t.toNat n et false with
    | .error code => i.trap m e.cid code 0
    | .ok a =>
      if b.k.bufPoisoned .srf a n then i.trap m e.cid 0x1B 0 else i.result e.cid k (8 * n) (leNat (b.k.readBuf .srf a n))
  | 1 =>
    let n := k.w / 8
    match b.srfAddr o0.toNat n et true with
    | .error code => i.trap m e.cid code 0
    | .ok a => i.setCore b ((i.core b).writeBuf .srf a (leBytes n (e.t / 2 ^ k.base % 2 ^ k.w)))
  | 2 =>
    let n := k.dataWidth / 8
    match b.srfAddr o0.toNat n et true with
    | .error code => i.trap m e.cid code 0
    | .ok a => i.global b m e.cid .read (.gld a) t n (ctlCls o1) (ctlFlag o1)
  | _ =>
    let n := k.w / 8
    i.global b m e.cid .write (.store (leBytes n (e.t / 2 ^ k.base % 2 ^ k.w))) o0 n (ctlCls o1) (ctlFlag o1)

/-! ## SPL -/

/-- Where an SPL access goes (R275, R276). -/
inductive SplPlace where
  | slice (a : Nat)
  | srf (a : Nat)
  | global (va : Word)
  | fault (code : Nat)
  deriving DecidableEq, Repr

/-- The place of `n` bytes at an SPL offset in a cluster (R275, R276). -/
def Before.splPlace (b : Before) (c : Nat) (o : Word) (n : Nat) : SplPlace :=
  if !b.x.redir then
    let off := o.toNat % 0x800
    if 0x800 < off + n then .fault 0x04
    else if off % n ≠ 0 then .fault 0x05
    else .slice (0x2000 * (b.x.first + c) + 0x800 * b.x.slot + off)
  else
    let off := o.toNat % 0x10000
    let out := match nth? b.x.outs 7 with
      | some q => q
      | none => { base := 0, len := 0, scrb := 0, et := 0, pos := 0, stats := none }
    if 0x10000 < off + n || (decide (off < out.len) && decide (0x200000 < out.base + off + n)) then .fault 0x04
    else if off % n ≠ 0 then .fault 0x05
    else if off < out.len then .srf (out.base + off)
    else .global (BitVec.ofNat 64 (b.x.ovfBase + 0x10000 * (4 * c + b.x.slot) + off))

/-- A trigger of SPL in a cluster (R275, R276). -/
def Issue.spl (i : Issue) (b : Before) (m : Move) (k : KOp) (e : KEnv) : Issue :=
  let ld := decide (k.op % 4 = 0)
  let n := (if ld then k.dataWidth else k.w) / 8
  let data := leBytes n (e.t / 2 ^ k.base % 2 ^ k.w)
  match b.splPlace e.cid (if ld then e.tScalar k else e.scalar k 0) n with
  | .fault code => i.trap m e.cid code 0
  | .slice a =>
    if ld then i.result e.cid k (8 * n) (leNat (ByteMap.rdN b.k.spill a n))
    else i.setCore b { i.core b with spill := ByteMap.wrN (i.core b).spill a data }
  | .srf a =>
    if !ld then i.setCore b ((i.core b).writeBuf .srf a data)
    else if b.k.bufPoisoned .srf a n then i.trap m e.cid 0x1B 0
    else i.result e.cid k (8 * n) (leNat (b.k.readBuf .srf a n))
  | .global va =>
    if ld then i.global b m e.cid .read (.spill k.lgb) va n 0 none else i.global b m e.cid .write (.store data) va n 0 none

/-! ## SYN -/

/-- A phaser operation of the context (R157, R274), or none where R157 calls it misuse. -/
def ctxPhaser (ph : Phaser) (me : Member) (op : Nat) (mode : BitVec 2) : Option (Phaser × Option (BitVec 32)) :=
  match op, ph.member me with
  | 6, none => (phModeOf mode).map (fun m => (ph.register me m, none))
  | 7, some (m, l) => if !m.signals || phaseGe l (ph.p + 1) then none else some (ph.signal me, none)
  | 8, some (.wait, l) => some (ph.setL me (l + 1), some (l + 1))
  | 8, some (.sigwait, l) => some (ph, some l)
  | 9, some _ => some (ph.dropMember me, none)
  | _, _ => none

/-- A trigger of SYN for the group (R272 to R274), with the operands of CID 0. -/
def Issue.syn (i : Issue) (b : Before) (m : Move) (k : KOp) (e : KEnv) : Issue :=
  let t := e.tScalar k
  let o0 := e.scalar k 0
  let o1 := e.scalar k 1
  let bits := t.extractLsb' 0 16
  let all (v : Word) : Issue := b.x.cids.foldl (fun (i : Issue) c => i.result c k 64 v.toNat) i
  match k.op with
  | 0 => { i with x := { i.x with flags := i.x.flags ||| bits } }
  | 1 =>
    let keep {α : Type} (w : AMap α) : AMap α := w.filter (fun e => !bits.getLsbD e.1)
    { i with x := { i.x with flags := i.x.flags &&& ~~~ bits, semWatch := keep i.x.semWatch, phWatch := keep i.x.phWatch } }
  | 2 => all (b.x.flags.zeroExtend 64)
  | 3 => all (BitVec.ofNat 64 i.s.timestamp)
  | 4 =>
    let n := o0.toNat % 256
    if n = 255 then i
    else match i.s.addSem b.core n bits.toInt with
      | none => i.trap m 0 0x13 0
      | some s => { i with s := s, x := i.x.reach n ((s.core b.core).sem n) }
  | 5 =>
    let n := o0.toNat % 256
    let f := o1.toNat % 16
    let thr := bits.toNat
    if n = 255 then { i with x := { i.x with flags := i.x.flags ||| (1#16 <<< f), semWatch := i.x.semWatch.erase f } }
    else { i with x := { i.x with semWatch := i.x.semWatch.put f (n, if thr ≤ b.k.sem n then 0 else thr) } }
  | op =>
    let n := t.toNat % 1024
    let bay := i.s.bayOf b.core
    if !i.s.ownsPhaser b.x.bent n then i.trap m 0 0x14 0
    else match ctxPhaser (i.s.phaser bay n) (.context b.x.uid) op (o0.extractLsb' 0 2) with
      | none => i.trap m 0 0x14 0
      | some (ph, w) =>
        let i := { i with s := i.s.setPhaser bay n ph }
        match w with
        | some l => { i with x := { i.x with phWatch := i.x.phWatch.put (o0.toNat % 16) (n, l) } }
        | none => i

/-! ## Triggers -/

/-- What the operation of a move reads in a cluster. -/
def Issue.env (i : Issue) (c t : Nat) : KEnv :=
  { cid := c, t := t, ports := (i.x.cluster c).o, rnd := i.x.rnd, seed := i.x.seed, gens := i.x.gens }

/-- A trigger in one cluster where it starts (R234). -/
def Issue.triggerIn (b : Before) (m : Move) (k : KOp) (ts : List (Option Nat)) (i : Issue) (c t : Nat) : Issue :=
  let e := i.env c t
  let i := if i.x.operandsBad c k then i.trap m c 0x1B 0 else i
  match k.unitNo with
  | 0 | 1 => i.take m c k.unitNo (k.valu e)
  | 2 => i.take m c 2 (k.vmac e)
  | 3 => i.take m c 3 (k.vsfu e)
  | 4 => i.take m c 4 (k.vprm e)
  | 5 => i.take m c 5 (k.cvt e)
  | 6 =>
    let det := match i.s.bents.find? b.x.bent with
      | some r => r.det
      | none => false
    -- one tree serves every cluster of a group reduction; others draw their own
    let free := i.s.free + (if k.op / 16 % 2 = 1 then 0 else c)
    i.take m c 6 (k.red e ts det (Config.sumSplit free))
  | 7 =>
    let r := k.salu e
    let i := i.result c k 64 r.1.toNat
    { i with x := { i.x with gens := r.2 } }
  | 9 => i.accp b m k e
  | 10 => i.srfx b m k e
  | 11 => i.take m c 11 (k.xsw e ts)
  | 13 => i.spl b m k e
  | _ => i

/-- Every trigger starts its operation, in ascending CID (R217 (4), R267, R270). -/
def Issue.triggers (i : Issue) (b : Before) (ms : List Move) (vals : AMap Nat) : Issue :=
  ms.foldl (fun (i : Issue) m => match m.slot.dstPort with
    | some (.t u) =>
      let k := m.slot.kop u
      let ts := b.x.cids.map (fun c => if b.x.on c m.slot then vals.find? (8 * m.pos + c) else none)
      if u = 8 ∨ u = 12 then
        match ts with
        | some t :: _ =>
          let i := if i.x.operandsBad 0 k then i.trap m 0 0x1B 0 else i
          if u = 8 then i.bru b m k (i.env 0 t) else i.syn b m k (i.env 0 t)
        | _ => i
      else
        let i := (indexed 0 ts).foldl (fun (i : Issue) (e : Nat × Option Nat) => match e.2 with
          | some t => Issue.triggerIn b m k ts i e.1 t
          | none => i) i
        if u = 6 then { i with s := { i.s with free := i.s.free + 8 } } else i
    | _ => i) i

/-! ## Commit and trap -/

/-- The held moves after an issue (R230). -/
def Bundle.holdsAfter (bd : Bundle) (ms : List Move) (rep : Nat) (h : AMap HeldMove) : AMap HeldMove :=
  ms.foldl (fun (h : AMap HeldMove) m =>
    if m.held then AMap.modify h m.pos (fun v => { v with idx := v.idx + m.slot.step * m.slot.stepUnit })
    else match List.find? (fun (e : Nat × Word) => decide (e.1 = m.pos)) bd.slots with
      | some e => if m.slot.hold then AMap.put h m.pos { slot := e.2, imm := m.imm, idx := m.slot.indexAt (rep + 1) } else AMap.erase h m.pos
      | none => h) h

/-- A context after a committed issue (R228, R231, R263, R264). -/
def Context.advance (x : Context) (bd : Bundle) (ms : List Move) (after : Option AfterDelay) : Context :=
  let x := { x with
    steps := x.steps + 1, stalled := false, restNow := false, holds := bd.holdsAfter ms x.rep x.holds }
  if x.rep < bd.rpt then { x with rep := x.rep + 1 }
  else
    let x := { x with rep := 0, pc := x.pc + bd.len }
    match after with
    | some a => { x with delays := [(2, a)] }
    | none => match x.delays with
      | (n + 2, a) :: _ => { x with delays := [(n + 1, a)] }
      | (_, a) :: _ =>
        let x := { x with delays := [] }
        match a with
        | .goto t => { x with pc := t }
        | .halt => { x with ended := true }
        | .rest => { x with restNow := true }
      | [] => x

/-- Replace a context on its core. -/
def Core.setCtx (k : Core) (x : Context) : Core := { k with ctxs := k.ctxs.map (fun y => if y.uid = x.uid then x else y) }

/-- A context of a core. -/
def Core.ctx? (k : Core) (uid : Nat) : Option Context := List.find? (fun (x : Context) => decide (x.uid = uid)) k.ctxs

def State.setCtx (s : State) (core : Nat) (x : Context) : State := s.setCore core ((s.core core).setCtx x)

/-- TRAP.INFO of a kernel trap (R354). -/
def Context.trapInfo (x : Context) (t : KTrap) : Word :=
  BitVec.ofNat 64 (x.seq.toNat * 2 ^ 32 + t.cid % 8 * 2 ^ 29 + t.pos % 4 * 2 ^ 27 + x.rep % 256 * 2 ^ 19 + x.pc % 2 ^ 17)

/-- A context freezes on a trap of its issue (R278, R356, R360): to its peg's handler, or to firmware for cause 0x0B. -/
def State.freezeTrap (s : State) (core : Nat) (x : Context) (t : KTrap) : State :=
  if t.code = 0x0B then s.setCtx core { x with frozen := true, accWait := some t.addr.toNat }
  else
    let tr : Trap := { kind := 1, code := t.code, info := x.trapInfo t, addr := t.addr, seq := some x.seq, rank := 0, deferred := false }
    let s := s.setCtx core { x with frozen := true, trap := some tr }
    let k := s.core core
    let s := match k.entry x.seq with
      | some c => s.setCore core (k.setEntry { c with st := .stopped, trap := some tr })
      | none => s
    s.pend x.peg tr

/-- One issue of a context whose results due have landed (R217, R277, R278). -/
def State.issueBundle (s : State) (core : Nat) (x : Context) (bd : Bundle) : State :=
  let ms := bd.moves x.rep x.holds
  let found := bd.traps ms x.vwin x.rnd (!x.delays.isEmpty)
  let b : Before := { core := core, k := s.core core, x := x }
  let x1 := { x with flight := x.flight.map (fun f => { f with rem := f.rem - 1 }) }
  let live := ms.filter (fun m => !found.any (fun t => decide (t.pos = m.pos)))
  let i : Issue := { s := { s with free := s.free + 1 }, x := x1, traps := found ++ live.filterMap b.streamTrap, ovCount := 0, overPos := 0
                     after := none }
  let i := if found.any (fun t => decide (t.code = 0x02)) then i
    else
      let r := i.readAll b live
      (r.1.operands b live r.2).triggers b live r.2
  let late : List KTrap :=
    if i.ovCount != 0 && x.thr < min (x.ovc + i.ovCount) (2 ^ 32 - 1) then
      [⟨causeRank 0x0D, i.overPos, 0, 0x0D, BitVec.ofNat 64 (x.ovc * 2 ^ 32 + i.ovCount)⟩]
    else []
  match best KTrap.before (i.traps ++ late) with
  | some t => s.freezeTrap core x t
  | none =>
    let x2 := { i.x with ovc := min (i.x.ovc + i.ovCount) (2 ^ 32 - 1) }.advance bd ms i.after
    i.s.setCtx core x2

end Sys2Proof.Machine
end

