-- ==== Sys2Proof/Machine/Contexts.lean ====
section
/-! DEFINITION. Kernel contexts from launch to halt (R31 to R33, R201, R202, R263, R270 to R274, R347 to R349, R364, R376, R380): KRUN, the
launch block, placement, readiness and rank, and the events of a context. -/

namespace Sys2Proof.Machine

/-! ## Issue of KRUN -/

/-- R201, R202. -/
def execKrun (c : BitVec 4) (a : RegNo) (ws : WaitSig) (s : State) : Result :=
  s.journalCmd (s.capture .krun c ws (s.getX a) 0 0 0 0)

/-! ## The launch block -/

/-- A launch block (R201). -/
structure Launch where
  entry : Nat
  gsz : Nat
  gk : Nat
  role : Nat
  vwin : Nat
  accw : List Nat
  args : List Word
  ins : List Binding
  outs : List Binding
  bad : Bool
  deriving DecidableEq, Repr

/-- The binding at an offset of a launch block. -/
def bindingAt (d : List Byte) (off : Nat) : Binding :=
  let sc := fieldN d (off + 8) 8
  { base := fieldN d off 4, len := fieldN d (off + 4) 4, scrb := sc % 2 ^ 56, et := bitsOf sc 59 56, pos := 0, stats := none }

/-- A binding that R191 or R201 refuses. -/
def bindingBad (d : List Byte) (off : Nat) (out : Bool) : Bool :=
  let b := bindingAt d off
  decide (2 ^ 21 ≤ b.base) || b.len = 0 || decide (0x200000 < b.base + b.len) || decide (2 ^ 60 ≤ fieldN d (off + 8) 8) ||
  (!out && b.scrb != 0)

/-- Read a launch block (R201, R33). -/
def Launch.parse (d : List Byte) : Launch :=
  let gsz := fieldN d 4 1
  let gk := fieldN d 5 1
  let nin := fieldN d 0x0A 1
  let nout := fieldN d 0x0B 1
  let nacc := fieldN d 0x0C 1
  let ws := (rangeFrom 0 8).map (fun j => fieldN d (0x10 + j) 1)
  let vwin := fieldN d 8 2
  let unused (off : Nat) : Bool := (d.drop off).take 16 != List.replicate 16 0
  { entry := fieldN d 0 4, gsz := gsz, gk := gk, role := fieldN d 6 1, vwin := vwin, accw := ws.take nacc
    args := (rangeFrom 0 4).map (fun j => field64 d (0x18 + 8 * j))
    ins := (rangeFrom 0 (min nin 8)).map (fun j => bindingAt d (0x40 + 16 * j))
    outs := (rangeFrom 0 (min nout 8)).map (fun j => bindingAt d (0xC0 + 16 * j))
    bad :=
      fieldN d 7 1 != 0 || fieldN d 0x0D 3 != 0 || fieldN d 0x38 8 != 0 || fieldN d 0 4 % 16 != 0 || decide (2 ^ 17 ≤ fieldN d 0 4) ||
      decide (3 < gsz) || decide (2 < fieldN d 6 1) || decide (8 < nin) || decide (8 < nout) || decide (8 < nacc) ||
      (gk != 0xFF && decide (8 / 2 ^ gsz ≤ gk)) || vwin = 0 || vwin % 64 != 0 || decide (1536 < vwin) ||
      (ws.drop nacc).any (fun w => w != 0) || (ws.take nacc).any (fun w => decide (191 < w)) ||
      (rangeFrom 0 8).any (fun j => if j < nin then bindingBad d (0x40 + 16 * j) false else unused (0x40 + 16 * j)) ||
      (rangeFrom 0 8).any (fun j => if j < nout then bindingBad d (0xC0 + 16 * j) true else unused (0xC0 + 16 * j)) }

def Cmd.launch (c : Cmd) : Launch := Launch.parse c.block

/-- The banks of a binding. -/
def Binding.banks (b : Binding) : List Nat := unitsOf .srf b.base b.len

/-- Whether two bindings overlap. -/
def Binding.meets (a b : Binding) : Bool := decide (a.base < b.base + b.len) && decide (b.base < a.base + a.len)

/-- An output that overlaps another binding (R201). -/
def Launch.overlaps (l : Launch) : Bool :=
  (indexed 0 l.outs).any (fun o => l.ins.any (fun b => b.meets o.2) ||
    (indexed 0 l.outs).any (fun q => decide (q.1 ≠ o.1) && q.2.meets o.2))

/-- The reservation of a KRUN (R187, R202). -/
def Launch.claims (l : Launch) : List Claim :=
  let srf (w : Bool) (b : Binding) : List Claim := b.banks.map (fun u => { space := .srf, unitNo := u, write := w })
  (l.ins.map (srf false)).flatten ++ (l.outs.map (srf true)).flatten ++
  l.accw.map (fun w => { space := .acc, unitNo := w, write := true })

/-- The launch block is element 0 (R201): read once, with the command's class. -/
def State.readLaunch (s : State) (core : Nat) (c : Cmd) : Started :=
  if !c.block.isEmpty then .go s c
  else if c.xa.toNat % 64 ≠ 0 then .fault 0x05 c.xa c
  else match s.gRead (s.bayOf core) (c.issuer core (.queue core .launcher)) c.xa 320 with
    | .fault code va => .fault code va c
    | .stall => .stall
    | .silent va _ => .silent va
    | .ok s d => .go s { c with block := d }

/-- The checks of a launch block (R191, R201): the cause of the first failure. -/
def State.launchCheck (s : State) (core : Nat) (c : Cmd) : Option Nat :=
  let k := s.core core
  let l := c.launch
  let bs := l.ins ++ l.outs
  let start := match s.bents.find? c.bent with
    | some r => AMap.has r.starts (l.entry / 16)
    | none => false
  if l.bad || bs.any (fun b => !k.holdsRange .srf c.bent b.base (b.base + b.len)) || l.overlaps ||
      l.accw.any (fun w => !k.holdsRange .acc c.bent (4096 * w) (4096 * w + 4096)) || !start then some 0x09
  else if bs.any (fun b => decide (b.base % (ET.ofCode b.et).align ≠ 0)) then some 0x05
  else if bs.any (fun b => b.banks.any (fun u => decide ((k.fmtOf u).toNat % 16 ≠ b.et) || k.fmtOf u != k.fmtOf (b.banks.headD 0))) then some 0x0A
  else none

/-! ## Placement -/

/-- Whether a group has a slot free in each of its clusters. -/
def Core.slotFree (k : Core) (cls : List Nat) (slot : Nat) : Bool :=
  !k.ctxs.any (fun y => y.slot = slot && y.clusters.any (fun q => cls.contains q))

/-- Whether a window is free at a base in every cluster of a group (R33). -/
def Core.windowFree (k : Core) (cls : List Nat) (base vwin : Nat) : Bool :=
  !k.ctxs.any (fun y => y.clusters.any (fun q => cls.contains q) && decide (y.base < base + vwin) && decide (base < y.base + y.vwin))

/-- A place for a group of `g` clusters and a window (R33, R202): first cluster, slot, base. `ks` are the group positions tried. -/
def Core.findPlace (k : Core) (ks : List Nat) (g vwin : Nat) : Option (Nat × Nat × Nat) :=
  let bases := ((rangeFrom 0 24).map (fun j => 64 * j)).filter (fun b => decide (b + vwin ≤ 1536))
  let cands := (ks.map (fun p => (rangeFrom 0 4).filterMap (fun slot =>
    let cls := rangeFrom (g * p) g
    if k.slotFree cls slot then (List.find? (fun base => k.windowFree cls base vwin) bases).map (fun base => (g * p, slot, base))
    else none))).flatten
  nth? cands 0

/-- Whether every bent of a chain has room for one more resident context (R338). -/
def State.ctxRoom (s : State) (b : Nat) : Bool :=
  (s.chain b).all (fun a => match s.bents.find? a with
    | some r => decide (s.ctxsOf a < r.maxCtx)
    | none => true)

/-- Whether the contexts that start at an entry run in compatibility mode (R378, R380). -/
def Bent.compatAt (r : Bent) (entry : Nat) : Bool :=
  match List.find? (fun (p : ImagePart) => decide (p.off ≤ entry) && decide (entry < p.off + p.len)) r.parts with
  | some p => p.compat
  | none => false

/-- Bind the records of tagged outputs (R325) for context `uid`. -/
def State.bindOuts (s : State) (bay bent uid : Nat) (outs : List Binding) (k : State → List Binding → Started) (c : Cmd) : Started :=
  match outs with
  | [] => k s []
  | o :: t =>
    let va := BitVec.ofNat 64 o.scrb
    if o.scrb = 0 then State.bindOuts s bay bent uid t (fun s outs => k s (o :: outs)) c
    else match s.bindRecord bay bent (.context uid) va with
      | .fault code => .fault code va c
      | .stall => .stall
      | .silent => .silent va
      | .ok s st => State.bindOuts s bay bent uid t (fun s outs => k s ({ o with stats := some st } :: outs)) c

/-- A context as its KRUN starts it (R202, R235). -/
def Context.start (c : Cmd) (l : Launch) (uid first slot base : Nat) (outs : List Binding) (compat : Bool) (spillMode : Word) : Context :=
  let g := 2 ^ l.gsz
  let cl : CtxCluster := { CtxCluster.fresh with
    s := (indexed 1 l.args).foldl (fun (m : AMap Word) e => if e.2 = 0 then m else AMap.put m e.1 e.2) [] }
  { uid := uid, slot := slot, first := first, size := g, base := base, vwin := l.vwin, bent := c.bent, peg := c.peg, seq := c.seq
    role := l.role, cls := c.cls, accw := l.accw, ins := l.ins, outs := outs, thr := c.thr, rnd := c.rnd, seed := c.seed, gens := []
    cl := List.replicate g cl, lc := [], flags := 0, ovc := 0, pc := l.entry, rep := 0, delays := [], holds := [], flight := []
    srfx := [], semWatch := [], phWatch := [], deferred := [], w := 0, steps := 0, compat := compat
    redir := spillMode.getLsbD 0, ovfBase := (spillMode.extractLsb' 8 48).toNat * 256, restNow := false, stalled := false
    frozen := false, ended := false, trap := none, accWait := none, issuedAt := none }

/-- CONTEXT_LAUNCH (R33, R202): the KRUN at the head of the launcher starts when all that it needs is free. -/
def execContextLaunch (core : Nat) (s : State) : Result :=
  let k := s.core core
  match k.head .launcher with
  | none => s.stay
  | some c =>
    if c.st ≠ .running || !s.mayRun core c then s.stay
    else
      let l := c.launch
      let g := 2 ^ l.gsz
      match s.bents.find? c.bent, k.findPlace (if l.gk = 0xFF then rangeFrom 0 (8 / g) else [l.gk]) g l.vwin with
      | some r, some (first, slot, base) =>
        if !s.ctxRoom c.bent then s.stay
        else
          let launch (s : State) (outs : List Binding) : Started :=
            let x := Context.start c l s.stamp first slot base outs (r.compatAt l.entry) k.spillMode
            let k := s.core core
            .go ({ s with stamp := s.stamp + 1 }.setCore core { k with ctxs := k.ctxs ++ [x] }) { c with ctx := some x.uid, progress := 1, asked := none }
          match s.bindOuts (s.bayOf core) c.bent s.stamp l.outs launch c with
          | .stall => s.stay
          | .silent va =>
            -- a package that holds the read's answer (R403)
            (match c.asked with
            | none => .next (s.setCore core (k.setEntry { c with asked := some s.elapsed }))
            | some t => if s.elapsed < t + 100000 then s.stay else .next (s.stopCmd core { c with asked := none } 0x1C 0 va))
          | .fault code va c => .next (s.stopCmd core { c with asked := none } code 0 va)
          | .go s c => .next (s.setCore core ((s.core core).setEntry c))
      | _, _ => s.stay

/-! ## Readiness -/

/-- An image space as it reads under the keys of its lines (R375): a unit written under another key is what this one makes of its ciphertext (R87). -/
def Bent.imageUnder (r : Bent) (b : Nat) (key : Nat → BitVec 512) : ByteMap :=
  r.imageKey.foldl (fun img e =>
    let k := key (e.1 / 32)
    let pa := Config.imageBase b + 32 * e.1
    if e.2 = k then img
    else ByteMap.wrN img (32 * e.1) (xtsDecrypt k pa (xtsEncrypt e.2 pa (ByteMap.rdN r.image (32 * e.1) 32)))) r.image

/-- The image space of a bent as a core's frames hold it; a line in no frame as a fill would read it now (R376). -/
def State.imageOf (s : State) (core b : Nat) : ByteMap :=
  match s.bents.find? b with
  | some r => r.imageUnder b (fun line => match List.find? (fun (f : Frame) => decide (f.bent = b) && decide (f.line = line)) (s.core core).frames with
      | some f => f.key
      | none => s.keyOf r.key)
  | none => []

/-- The bundle that a context issues next. -/
def State.bundleOf (s : State) (core : Nat) (x : Context) : Bundle :=
  Bundle.parse (s.imageOf core x.bent) x.pc (Config.freeWord s.free)

/-- Whether a frame of the core holds a line (R376). -/
def Core.hasLine (k : Core) (b line : Nat) : Bool := k.frames.any (fun f => decide (f.bent = b) && decide (f.line = line))

/-- A line that the next fetch of a context misses (R376); none past the image space (R216). -/
def State.missingLine (s : State) (core : Nat) (x : Context) : Option Nat :=
  let k := s.core core
  let line (a : Nat) : Nat := a / 0x400
  if 0x20000 ≤ x.pc then none
  else if !k.hasLine x.bent (line x.pc) then some (line x.pc)
  else
    let e := x.pc + bundleLen (imageWord (s.imageOf core x.bent) x.pc).toNat - 1
    if 0x20000 ≤ e then none
    else if !k.hasLine x.bent (line e) then some (line e)
    else none

/-- Whether the SYNC condition holds (R213, R228). -/
def Context.synced (x : Context) (b : Bundle) : Bool :=
  b.sync = 0 || (if b.sany then (x.flags &&& b.sync) != 0 else (x.flags &&& b.sync) = b.sync)

/-- A bundle that releases the context's earlier accesses (R273, R274, R292). -/
def Bundle.releases (b : Bundle) (x : Context) : Bool :=
  (b.moves x.rep x.holds).any (fun m => m.slot.dstPort = some (.t 12) && (m.slot.op = 4 || m.slot.op = 7 || m.slot.op = 9))

/-- Whether a context must stop at its next rest point: its peg is being pre-empted, or its bent drains (R364, R373). -/
def State.mustRest (s : State) (core : Nat) (x : Context) : Bool :=
  ((s.core core).preempt.isSome && decide ((s.core core).peg = some x.peg)) || (match s.bents.find? x.bent with
    | some r => r.drain
    | none => true)

/-- Whether the coming boundary is a rest point (R229, R264, R381). -/
def Context.atRest (x : Context) (b : Bundle) : Bool := !x.stalled && (x.restNow || (b.rest && x.rep = 0))

/-- Whether a stream port that the coming issue of a context pops or pushes is short of bytes or room, or a translation of its global accesses is
still to come (R224, R269; log 89). -/
def State.portsHold (s : State) (x : Context) (b : Bundle) : Bool :=
  let held (n : Nat) : Bool := Config.portHolds s.clk x.uid n
  (b.moves x.rep x.holds).any (fun m =>
    let moves := x.cids.any (fun c => x.on c m.slot)
    (match m.slot.srcPort with
      | some (.sin i) => moves && held i
      | _ => false) ||
    (match m.slot.dstPort with
      | some (.sout i) => moves && held (8 + i)
      | some (.t 10) => moves && decide (2 ≤ m.slot.op % 8) && held 16
      | some (.t 13) => moves && x.redir && held 16
      | _ => false))

/-- Whether a context is ready (R348). -/
def State.ctxReady (s : State) (core : Nat) (x : Context) : Bool :=
  let b := s.bundleOf core x
  !x.frozen && !x.ended && (s.missingLine core x).isNone &&
  (!x.deferred.isEmpty || (x.synced b && !(b.releases x && !x.srfx.isEmpty) && !s.portsHold x b)) &&
  !x.srfx.any (fun o => match o.kind with
    | .spill _ => true
    | _ => false) &&
  !(s.mustRest core x && x.atRest b)

/-- Whether context `a` ranks above `b` (R349), for an ageing bound. -/
def Context.above (limit : Nat) (a b : Context) : Bool :=
  let key (x : Context) : List Nat :=
    let aged := decide (limit ≤ x.w)
    [if aged then 0 else 1, if aged then 2 ^ 64 - x.w else 0, x.role, 2 ^ 64 - x.w, x.slot, x.first]
  decide (key a < key b)

/-- Insert into a ranked list. -/
def rankIn (limit : Nat) (x : Context) : List Context → List Context
  | [] => [x]
  | y :: t => if x.above limit y then x :: y :: t else y :: rankIn limit x t

/-- Contexts that get their clusters, in rank, given the clusters already taken (R349). -/
def grantClusters : List Nat → List Context → List Nat
  | _, [] => []
  | taken, x :: t =>
    if x.clusters.any (fun q => taken.contains q) then grantClusters taken t
    else x.uid :: grantClusters (taken ++ x.clusters) t

/-- Whether a ready context may issue in this clock (R349). -/
def State.mayIssue (s : State) (core : Nat) (x : Context) : Bool :=
  let k := s.core core
  let now := some s.clk
  let taken := ((k.ctxs.filter (fun y => y.issuedAt = now)).map Context.clusters).flatten
  let rest := k.ctxs.filter (fun y => y.issuedAt != now && s.ctxReady core y)
  x.issuedAt != now && s.ctxReady core x &&
    (grantClusters taken (rest.foldr (rankIn (bitsOf k.ageLimit.toNat 12 0)) [])).contains x.uid

/-- Clocks pass: a context that is ready and has not issued in the one that ends has waited in it, and in those that follow (R348). -/
def State.ageContexts (s : State) (dclk : Nat) : State :=
  { s with cores := s.cores.map (fun e =>
      if dclk = 0 || e.2.ctxs.isEmpty then e
      else (e.1, { e.2 with ctxs := e.2.ctxs.map (fun y =>
        if s.ctxReady e.1 y then { y with w := y.w + dclk - (if y.issuedAt = some s.clk then 1 else 0) } else y) })) }

/-! ## Issue events -/

/-- The trap of a fetch that leaves the image space (R216). -/
def State.fetchPast (s : State) (core : Nat) (x : Context) (b : Bundle) : Bool :=
  decide (0x20000 ≤ x.pc) || (decide (0x20000 < x.pc + b.len) && (imageWord (s.imageOf core x.bent) x.pc).toNat < 2 ^ 31)

/-- BUNDLE_ISSUE (R217, R270, R277). -/
def execBundleIssue (core uid : Nat) (s : State) : Result :=
  match (s.core core).ctx? uid with
  | none => s.stay
  | some x0 =>
    if !s.mayIssue core x0 || x0.mustStall then s.stay
    else
      let x1 := { x0 with w := 0, issuedAt := some s.clk }
      let r := landDue (s.core core) x1
      let x := r.2
      let s := (s.setCore core r.1).setCtx core x
      let b := s.bundleOf core x
      match x.deferred with
      | t :: rest => .next (s.freezeTrap core { x with deferred := rest } ⟨1, 0, t.rank, t.code, t.addr⟩)
      | [] =>
        if s.fetchPast core x b then .next (s.freezeTrap core x ⟨3, 0, 0, 0x03, 0⟩)
        else .next (s.issueBundle core x b)

/-- STALL_STEP (R349, R380). -/
def execStallStep (core uid : Nat) (s : State) : Result :=
  match (s.core core).ctx? uid with
  | none => s.stay
  | some x =>
    if !s.mayIssue core x || !x.mustStall then s.stay
    else
      .next (s.setCtx core { x with w := 0, issuedAt := some s.clk, steps := x.steps + 1, stalled := true })

/-- IMEM_LINE_FILL (R376). -/
def execImemLineFill (core uid : Nat) (s : State) : Result :=
  match (s.core core).ctx? uid with
  | none => s.stay
  | some x => match s.missingLine core x with
    | none => s.stay
    | some l => .next ({ s with stamp := s.stamp + 1 }.setCore core ((s.core core).frameFor x.bent l false s.stamp (s.lineKey x.bent)))

/-! ## Accesses and watches -/

/-- Whether an access reads. -/
def SrfxOp.reads (o : SrfxOp) : Bool :=
  match o.kind with
  | .store _ => false
  | _ => true

/-- Whether two accesses reach overlapping global bytes. -/
def SrfxOp.meets (a b : SrfxOp) : Bool := a.parts.any (fun p => b.parts.any (fun q => overlap p.loc.pa p.len q.loc.pa q.len))

/-- Whether an access of the context that stands before another is ordered before it: those of one issue only where they write shared bytes, in
ascending CID (R270, R279); others by location and class (R284). -/
def SrfxOp.before (a b : SrfxOp) : Bool :=
  if a.no = b.no then
    match a.kind, b.kind with
    | .gld p, .gld q => overlap p a.size q b.size
    | .store _, .store _ => a.meets b
    | _, _ => false
  else a.meets b || (decide (a.cls = b.cls) && (a.reads || !b.reads))

/-- The late error of an access, for the context's next issue (R270). -/
def SrfxOp.late (o : SrfxOp) (code : Nat) (va : Word) : Trap :=
  { kind := 1, code := code, info := 0, addr := va, seq := none, rank := o.cid, deferred := true }

/-- The virtual address of a unit of an access. -/
def SrfxOp.vaOf (o : SrfxOp) (p : SrfxPart) : Word := o.va + BitVec.ofNat 64 p.off

/-- The writes of an access that a silent package holds (R403). -/
def SrfxOp.lateWrites (o : SrfxOp) (s : State) : List (Loc × List Byte) :=
  match o.kind with
  | .store data => (o.parts.filter (fun p => s.answer p.loc.pa p.len = .silent)).map (fun p => (p.loc, (data.drop p.off).take p.len))
  | _ => []

/-- One unit of an access performs (R102, R268, R276). -/
def State.srfxUnit (s : State) (core : Nat) (o : SrfxOp) (p : SrfxPart) : State × SrfxOp :=
  let bay := s.bayOf core
  match o.kind with
  | .store data => ((s.writeLoc p.loc ((data.drop p.off).take p.len)).cacheLines bay p.loc p.len, o)
  | .gld a =>
    let r := s.fetchLoc none bay p.loc p.len
    (r.1.setCore core ((r.1.core core).writeBuf .srf (a + p.off) r.2), o)
  | .spill _ =>
    let r := s.fetchLoc none bay p.loc p.len
    (r.1, { o with got := ByteMap.wrN o.got p.off r.2 })

/-- The units of an access that perform in an event: all that remain, or, in a turn that leaves accesses pending, one of them (R102). -/
def State.srfxNow (s : State) (o : SrfxOp) : List SrfxPart × List SrfxPart :=
  if s.defer then
    let n := (Config.freeWord s.free).toNat % o.parts.length
    ((o.parts.drop n).take 1, dropNth o.parts n)
  else (o.parts, [])

/-- Some units of an access perform; the access is done with its last one: its flag is set, and a redirected load's data arrives. -/
def State.srfxPerform (s : State) (core : Nat) (x : Context) (n : Nat) (o : SrfxOp) : State :=
  let now := s.srfxNow o
  let r := now.1.foldl (fun (r : State × SrfxOp) p => r.1.srfxUnit core r.2 p) ({ s with free := s.free + 1 }, o)
  let o := { r.2 with parts := now.2 }
  if !now.2.isEmpty then r.1.setCtx core { x with srfx := setNth x.srfx n o }
  else
    let x := { x with srfx := dropNth x.srfx n }
    let x := match o.flag with
      | some f => { x with flags := x.flags ||| (1#16 <<< f) }
      | none => x
    match o.kind with
    | .spill lgb =>
      let f : Flight := { cid := o.cid, dest := .x 13, value := BitVec.ofNat 1024 (leNat (ByteMap.rdN o.got 0 o.size) * 2 ^ (256 * lgb))
                          mask := byteMask (32 * lgb) o.size, rem := 0, step := 0 }
      r.1.setCtx core { x with flight := x.flight ++ [f] }
    | _ => r.1.setCtx core x

/-- SRFX_FLAG_SET (R270, R276): the context's access number `n` performs, whole or in part, or its error is kept for the next issue. -/
def execSrfxFlagSet (core uid n : Nat) (s : State) : Result :=
  match (s.core core).ctx? uid with
  | none => s.stay
  | some x => match nth? x.srfx n with
    | none => s.stay
    | some o =>
      let failed (code : Nat) (p : SrfxPart) : Context :=
        { x with srfx := dropNth x.srfx n, deferred := x.deferred ++ [o.late code (o.vaOf p)] }
      if (x.srfx.take n).any (fun e => e.before o) || o.parts.any (fun p => s.lockedOut p.loc.pa p.len) then s.stay
      else match List.find? (fun (p : SrfxPart) => s.answer p.loc.pa p.len = .refused) o.parts with
        | some p => .next (s.setCtx core (failed 0x1C p))
        | none => match List.find? (fun (p : SrfxPart) => s.answer p.loc.pa p.len = .silent) o.parts with
          | some p =>
            if s.elapsed < o.sent + 100000 then s.stay
            else
              let w : Issuer := { ag := .context uid, core := core, bent := x.bent, cls := o.cls, no := s.stamp }
              .next ((s.setCtx core (failed 0x1C p)).sendLate w (o.lateWrites s))
          | none =>
            match (if o.reads then List.find? (fun (p : SrfxPart) => s.readPoisoned none (s.bayOf core) p.loc p.len) o.parts else none) with
            | some p => .next (s.setCtx core (failed 0x1B p))
            | none => .next (s.srfxPerform core x n o)

/-- SEMARM_FLAG_SET (R273). -/
def execSemarmFlagSet (core uid f : Nat) (s : State) : Result :=
  match (s.core core).ctx? uid with
  | none => s.stay
  | some x => match x.semWatch.find? f with
    | none => s.stay
    | some (n, thr) =>
      if (s.core core).sem n < thr then s.stay
      else .next (s.setCtx core { x with flags := x.flags ||| (1#16 <<< f), semWatch := x.semWatch.erase f })

/-- PHARM_FLAG_SET (R274). -/
def execPharmFlagSet (core uid f : Nat) (s : State) : Result :=
  match (s.core core).ctx? uid with
  | none => s.stay
  | some x => match x.phWatch.find? f with
    | none => s.stay
    | some (n, l) =>
      if !phaseGe (s.phaser (s.bayOf core) n).p l then s.stay
      else .next (s.setCtx core { x with flags := x.flags ||| (1#16 <<< f), phWatch := x.phWatch.erase f })

/-! ## Halt -/

/-- CONTEXT_HALT (R263): what is in flight lands in its order, tagged outputs close, memberships drop, and everything is freed; the KRUN
completes by COMMAND_COMPLETE. -/
def execContextHalt (core uid : Nat) (s : State) : Result :=
  match (s.core core).ctx? uid with
  | none => s.stay
  | some x =>
    if !x.ended || x.frozen || !x.srfx.isEmpty then s.stay
    else
      let inOrder := ((rangeFrom 0 8).map (fun r => x.flight.filter (fun f => f.rem = r))).flatten
      let r := landAll (s.core core) x inOrder
      let owed := r.2.outs.filterMap (fun o => (o.closing r.1).map (fun st => (o.scrb, st)))
      let k := { r.1 with ctxs := r.1.ctxs.filter (fun y => !(decide (y.uid = uid))) }
      let k := match k.entry x.seq with
        | some c => k.setEntry { c with halted := true, held := false, owed := owed }
        | none => k
      .next ((s.setCore core k).dropEverywhere (.context uid))

/-! ## Freezing -/

/-- A context freezes for its pre-emption, or is discarded with its draining bent (R364, R373). -/
def State.stopCtx (s : State) (core : Nat) (x : Context) : State :=
  match s.bents.find? x.bent with
  | some r => if r.drain then s.dropContext core x.uid else s.setCtx core { x with frozen := true }
  | none => s.dropContext core x.uid

/-- CONTEXT_REST_FREEZE (R229, R264, R364, R373). -/
def execContextRestFreeze (core uid : Nat) (s : State) : Result :=
  match (s.core core).ctx? uid with
  | none => s.stay
  | some x =>
    if !s.mustRest core x then s.stay
    else if x.frozen || x.ended then
      -- taken as it stands (R364 (5)); a kill discards it
      match s.bents.find? x.bent with
      | some r => if r.drain then .next (s.dropContext core uid) else s.stay
      | none => .next (s.dropContext core uid)
    else if (s.missingLine core x).isNone && x.atRest (s.bundleOf core x) then .next (s.stopCtx core x)
    else s.stay

/-- The clock from which REST.WIN runs (R364, R373). -/
def State.restSince (s : State) (core : Nat) (x : Context) : Nat :=
  match s.bents.find? x.bent with
  | some r => if r.drain then r.drainAt else (s.core core).preempt.getD 0
  | none => 0

/-- PREEMPTION_ESCALATED (R364, R381). -/
def execPreemptionEscalated (core uid : Nat) (s : State) : Result :=
  match (s.core core).ctx? uid with
  | none => s.stay
  | some x =>
    if !s.mustRest core x || x.frozen || x.ended then s.stay
    else if s.clk < s.restSince core x + ((s.core core).restWin.extractLsb' 0 32).toNat then s.stay
    else .next (s.stopCtx core x)

/-- A frozen context goes on (R358, R362, R369). -/
def Context.thaw (x : Context) : Context := { x with frozen := false, trap := none, accWait := none }

end Sys2Proof.Machine
end

