-- ==== Sys2Proof/Machine/Gcm.lean ====
section
/-! DEFINITION. AES-256-GCM as its users see it (R384, R404, R412, R415, R430): counter mode over a key stream, and a tag over the additional
data and the ciphertext. -/

namespace Sys2Proof.Machine

/-- Bytes under the key stream from an index on: encryption and decryption are the same. -/
def gcmCrypt (key : BitVec 256) (nonce : List Byte) : Nat → List Byte → List Byte
  | _, [] => []
  | i, b :: t => (b ^^^ gcmPad key nonce i) :: gcmCrypt key nonce (i + 1) t

/-- Encryption: the ciphertext followed by its tag. -/
def gcmSeal (key : BitVec 256) (nonce aad pt : List Byte) : List Byte :=
  let ct := gcmCrypt key nonce 0 pt
  ct ++ gcmTagBytes key nonce aad ct

/-- Decryption; none where the tag is not the ciphertext's. -/
def gcmOpen (key : BitVec 256) (nonce aad ct tag : List Byte) : Option (List Byte) :=
  if tag = gcmTagBytes key nonce aad ct then some (gcmCrypt key nonce 0 ct) else none

end Sys2Proof.Machine
end

