-- ==== Sys2Proof/Machine/Channel.lean ====
section
/-! DEFINITION. The control channel (R415): datagrams, the sessions that open them, and what the module sends on a session. -/

namespace Sys2Proof.Machine

/-- Queue pairs of a port (R411). -/
def portPairs : Nat := 256

/-- Direction bytes of nonces (R412). -/
def dirIn : Byte := 0x01
def dirOut : Byte := 0x02

/-- A control datagram split into its fields (R415): the header, the body and the tag. -/
structure Datagram where
  typ : Nat
  session : Nat
  seq : Nat
  header : List Byte
  body : List Byte
  tag : List Byte
  deriving DecidableEq, Repr

/-- Split a datagram; none when it breaks R415's layout: a length that is not its own, a STATUS that a request leaves zero, a reserved
byte that is set. -/
def Datagram.parse (d : List Byte) : Option Datagram :=
  let typ := fieldN d 0 1
  let len := fieldN d 0x10 4
  let tag := if typ = 1 then 0 else 16
  let clear (off n : Nat) : Bool := ((d.drop off).take n).all (· == 0)
  if d.length < 0x20 || 65507 < d.length || d.length != 0x20 + len + tag || !clear 1 3 || !clear 0x14 12 then none
  else some { typ := typ, session := fieldN d 4 4, seq := fieldN d 8 8, header := d.take 0x20, body := (d.drop 0x20).take len
              tag := d.drop (0x20 + len) }

/-- The nonce of a sequence number in a direction (R415). -/
def ctlNonce (seq : Nat) (dir : Byte) : List Byte := leBytes 8 seq ++ [dir, 0, 0, 0]

/-- The session with a number. -/
def State.session? (s : State) (n : Nat) : Option Session := List.find? (fun (x : Session) => decide (x.num = n)) s.sessions

/-- Replace a session. -/
def State.setSession (s : State) (x : Session) : State := { s with sessions := s.sessions.map (fun y => if y.num = x.num then x else y) }

/-- Whether the module answers a type in its phase of service (R428, R429). -/
def Phase.answers (p : Phase) (typ : Nat) : Bool :=
  match p with
  | .service => true
  | .belowCounts => typ = 0x01 || typ = 0x15 || typ = 0x16
  | .fatal => typ = 0x01 || typ = 0x16 || typ = 0x17
  | .stopped | .off => false

/-- An accepted request of a type (R415): its session with SEQ taken, and its plaintext. None when it is dropped. -/
def State.openDatagram (s : State) (typ : Nat) (d : List Byte) : Option (Session × List Byte) :=
  match Datagram.parse d with
  | none => none
  | some g =>
    if g.typ ≠ typ || !s.mgmt.phase.answers typ then none
    else match s.session? g.session with
      | none => none
      | some x =>
        if g.seq ≤ x.seqIn then none
        else (gcmOpen x.keyIn (ctlNonce g.seq dirIn) g.header g.body g.tag).map (fun b => ({ x with seqIn := g.seq }, b))

/-- The header of a datagram (R415). -/
def ctlHeader (typ status session seq len : Nat) : List Byte :=
  leBytes 1 typ ++ leBytes 1 status ++ leBytes 2 0 ++ leBytes 4 session ++ leBytes 8 seq ++ leBytes 4 len ++ leBytes 12 0

/-- Send a message on a session (R415): sealed under the session's outward key with the next sequence number. -/
def State.sendOn (s : State) (x : Session) (typ status : Nat) (body : List Byte) : State :=
  let x := { x with seqOut := x.seqOut + 1 }
  let h := ctlHeader typ status x.num x.seqOut body.length
  let sealedBody := gcmSeal x.keyOut (ctlNonce x.seqOut dirOut) h body
  let s := s.setSession x
  { s with outbox := s.outbox ++ [.datagram (h ++ sealedBody)] }

/-- Report a restore mismatch (R372, R417) on every session of the bent's owner. -/
def State.reportMismatch (s : State) (b : Nat) (recAddr : Word) : State :=
  let owner := match s.bents.find? b with
    | some r => r.owner
    | none => []
  (s.sessions.filter (fun x => decide (x.owner = owner))).foldl
    (fun (s : State) x => s.sendOn x 0x20 0 (leBytes 4 b ++ leBytes 8 recAddr.toNat)) s

end Sys2Proof.Machine
end

