-- ==== Sys2Proof/Machine/Matrix.lean ====
section
/-! DEFINITION. The matrix engine (R200, R203, R204, R296 to R317): issue of its commands, seating, the jig run and the finish pipeline. -/

namespace Sys2Proof.Machine

/-! ## Issue -/

/-- R203: captures the shadow set. -/
def execJigGo (ws : WaitSig) (s : State) : Result := s.journalCmd (s.capture .jigGo 0 ws 0 0 0 0 0)

/-- R203. -/
def execJigRev (ws : WaitSig) (s : State) : Result := s.journalCmd (s.capture .jigRev 0 ws 0 0 0 0 0)

/-- R200. -/
def execSeat (bwd : Bool) (a : BitVec 4) (ws : WaitSig) (s : State) : Result :=
  s.journalCmd (s.capture (.seat bwd) 0 ws 0 0 (s.me.getD a) 0 0)

/-- R200. -/
def execUnseat (a : BitVec 4) (ws : WaitSig) (s : State) : Result :=
  s.journalCmd (s.capture .unseat 0 ws 0 0 (s.me.getD a) 0 0)

/-- R204. -/
def execFinSet (a b : RegNo) (ws : WaitSig) (s : State) : Result :=
  s.journalCmd (s.capture .finSet 0 ws (s.getX a) (s.getX b) 0 0 0)

/-! ## Seating -/

/-- The macros that a SEAT or UNSEAT descriptor names. -/
def Dsc.macros (d : Dsc) : List Nat := rangeFrom (d.base / 0x10000) (min d.c2 32)

/-- SEAT (R200, R296): the core with the region seated, or the cause at element 0. -/
def Core.seatCmd (k : Core) (c : Cmd) (bwd : Bool) : Except Nat Core :=
  let d := Dsc.parse c.da 0
  let bad := d.reserved || !d.seatShape || decide (524288 < d.c1 * d.c0 * d.et.bits) ||
    (d.gs != 0 && decide (4096 < d.c1 / groupSize d.gs * d.c0)) || d.scale != 0
  if bad || !k.holdsRange .wb c.bent d.base (d.base + 0x10000 * d.c2) then .error 0x09
  else if d.macros.any (fun m => k.seated m) then .error 0x17
  else .ok { k with regions := k.regions ++
    [{ macro0 := d.base / 0x10000, count := d.c2, k := d.c1, n := d.c0, et := d.et.code, gs := d.gs, bwd := bwd, bent := c.bent
       peg := c.peg }] }

/-- UNSEAT (R200), after step 1 of R191 on its descriptor: its reserved bits and its ET, GS and SCALE. -/
def Core.unseatCmd (k : Core) (c : Cmd) : Except Nat Core :=
  let d := Dsc.parse c.da 0
  let hit (r : Region) : Bool := decide (0x10000 * r.macro0 = d.base) && decide (r.count = d.c2) && decide (r.bent = c.bent)
  if d.reserved || !(d.space = some .wb) || !d.typeOk || d.scale != 0 || !k.regions.any hit then .error 0x09
  else .ok { k with regions := k.regions.filter (fun r => !hit r) }

/-! ## FIN.CW -/

/-- Fields of a finish control word (R312). -/
def finOet (w : Nat) : ET := ET.ofCode (bitsOf w 3 0)
def finSmode (w : Nat) : Nat := bitsOf w 9 8
def finBias (w : Nat) : Bool := bitsOf w 16 16 = 1
def finAct (w : Nat) : Nat := bitsOf w 19 17
def finTag (w : Nat) : Bool := bitsOf w 21 21 = 1

/-- FIN.CW values that FIN.SET refuses (R204, R313). -/
def finReserved (w : Nat) : Bool :=
  let sexact := bitsOf w 10 10
  let sm := bitsOf w 12 11
  let sw := bitsOf w 14 13
  let sdw := bitsOf w 15 15
  decide (2 ^ 22 ≤ w) || bitsOf w 7 7 != 0 || finAct w = 7 || (finOet w).packed || (sexact = 0 && sm != 0) ||
  (sdw = 1 && sw != 0) || (finSmode w != 3 && (sexact != 0 || sm != 0 || sw != 0 || sdw != 0))

/-- FIN.SET (R204). -/
def Core.finSetCmd (k : Core) (c : Cmd) : Except Nat Core :=
  if finReserved c.xa.toNat then .error 0x09
  else .ok { k with finCw := c.xa, finScale := BitVec.ofNat 64 (c.xb.toNat % 2 ^ 32) }

/-! ## The run -/

/-- A jig run as its captured table describes it, orientation applied (R300, R301, R208). -/
structure Jig where
  core : Nat
  c : Cmd
  cnt : List Nat
  down : List Bool
  sA : List Int
  sB : List Int
  sC : List Int
  sD : List Int
  baseA : Nat
  baseB : Nat
  baseC : Nat
  baseD : Nat
  eta : ET
  etb : ET
  acc64 : Bool
  cja : Bool
  cjb : Bool
  zm : Bool
  zero : Bool
  fin : Bool
  tile : Bool
  back : Bool
  zmap : Nat
  scrb : Nat
  fbias : Nat
  fcol : Nat
  hi : Nat
  lo : Nat
  cw : Nat
  reg : Option Region

/-- A register of the captured table. -/
def Cmd.jreg (c : Cmd) (off : Nat) : Nat := (c.table.get off 0).toNat

/-- The run of an entry on a core. -/
def State.jig (s : State) (core : Nat) (c : Cmd) : Jig :=
  let cfg := c.jreg 0x16
  let bit (i : Nat) : Bool := bitsOf cfg i i = 1
  let tile := bit 14
  let rev := c.op = .jigRev
  let back := rev && !tile
  let ctl (l : Nat) : Nat := c.jreg (3 * l)
  let lvl := rangeFrom 0 6
  let strA := lvl.map (fun l => signedOf 32 (c.jreg (3 * l + 1)))
  let strB := lvl.map (fun l => signedOf 32 (c.jreg (3 * l + 1) / 2 ^ 32))
  let strC := lvl.map (fun l => signedOf 32 (c.jreg (3 * l + 2)))
  let strD := lvl.map (fun l => signedOf 32 (c.jreg (3 * l + 2) / 2 ^ 32))
  { core := core, c := c, cnt := lvl.map (fun l => bitsOf (ctl l) 19 0)
    down := lvl.map (fun l => (bitsOf (ctl l) 20 20 = 1) != rev)
    sA := if back then strC else strA, sB := strB, sC := if back then strA else strC, sD := if back then strA else strD
    baseA := c.jreg 0x12, baseB := c.jreg 0x13, baseC := c.jreg 0x14, baseD := c.jreg 0x15
    eta := ET.ofCode (bitsOf cfg 3 0), etb := ET.ofCode (bitsOf cfg 7 4), acc64 := bit 8, cja := bit 9, cjb := bit 10
    zm := bit 11, zero := bit 12, fin := bit 13, tile := tile, back := back, zmap := c.jreg 0x17, scrb := c.jreg 0x18
    fbias := c.jreg 0x19, fcol := c.jreg 0x1A, hi := c.jreg 0x1B / 2 ^ 32, lo := c.jreg 0x1B % 2 ^ 32, cw := c.finCw.toNat
    reg := if tile then none
      else List.find? (fun r => decide (0x10000 * r.macro0 = c.jreg 0x13) && decide (r.bent = c.bent)) (s.core core).regions }

/-- KS, K, N and the macros of the seated region (R296); a region that is not there gives an empty shape. -/
def Jig.shape (j : Jig) : Nat × Nat × Nat × Nat :=
  match j.reg with
  | some r => (if r.gs = 0 then 32 else groupSize r.gs, r.k, r.n, r.count)
  | none => (32, 32, 0, 0)

def Jig.ks (j : Jig) : Nat := j.shape.1
def Jig.kDim (j : Jig) : Nat := j.shape.2.1
def Jig.nDim (j : Jig) : Nat := j.shape.2.2.1

/-- Mt, Kt and Nt (R302). -/
def Jig.dims (j : Jig) : Nat × Nat × Nat :=
  match j.eta with
  | .f64 => (8, 8, 8)
  | .cf64 => (4, 8, 4)
  | _ => (16, 16, 16)

/-- Elements that a step reads at A, reads at a tile's B, and updates at C (R302). -/
def Jig.lenA (j : Jig) : Nat := if j.tile then j.dims.1 * j.dims.2.1 else if j.back then j.nDim else j.ks
def Jig.lenB (j : Jig) : Nat := j.dims.2.1 * j.dims.2.2
def Jig.lenC (j : Jig) : Nat := if j.tile then j.dims.1 * j.dims.2.2 else if j.back then j.ks else j.nDim

/-- The units of the iterators in bytes (R301). -/
def Jig.unitA (j : Jig) : Nat := j.eta.bytes
def Jig.unitB (j : Jig) : Nat := j.etb.bytes
def Jig.unitC (j : Jig) : Nat := if j.acc64 then (if j.eta = .cf64 then 16 else 8) else 4
def Jig.unitD (j : Jig) : Nat := (finOet j.cw).bytes

/-- The number of steps (R300). -/
def Jig.total (j : Jig) : Nat := j.cnt.foldl (· * ·) 1

/-- The digits of a step number, level 0 first. -/
def digits : List Nat → Nat → List Nat
  | [], _ => []
  | n :: t, x => x % n :: digits t (x / n)

/-- Turn the digits of levels that run downward. -/
def turnDown : List Nat → List Bool → List Nat → List Nat
  | n :: ns, d :: ds, x :: xs => (if d then n - 1 - x else x) :: turnDown ns ds xs
  | _, _, _ => []

/-- The index vector of a step (R300). -/
def Jig.idx (j : Jig) (step : Nat) : List Nat := turnDown j.cnt j.down (digits j.cnt step)

/-- Σ iL × STRX(L). -/
def dot : List Nat → List Int → Int
  | i :: is, x :: xs => i * x + dot is xs
  | _, _ => 0

/-- The least and greatest value of Σ iL × STRX(L) over the nest. -/
def boxLo : List Nat → List Int → Int
  | n :: ns, x :: xs => (if x < 0 then ((n - 1 : Nat) : Int) * x else 0) + boxLo ns xs
  | _, _ => 0

def boxHi : List Nat → List Int → Int
  | n :: ns, x :: xs => (if 0 < x then ((n - 1 : Nat) : Int) * x else 0) + boxHi ns xs
  | _, _ => 0

/-- Add values to a list of distinct ones. -/
def addInts (l : List Int) (xs : List Int) : List Int := xs.foldl (fun l x => if l.contains x then l else x :: l) l

/-- The values Σ iL × STRX(L) that the nest reaches. -/
def reached : List Nat → List Int → List Int
  | n :: ns, x :: xs =>
    let r := reached ns xs
    if x = 0 then (if n = 0 then [] else r) else (rangeFrom 0 n).foldl (fun (l : List Int) (i : Nat) => addInts l (r.map (· + i * x))) []
  | _, _ => [0]

/-- Whether a run performs no step (R300). -/
def Jig.empty (j : Jig) : Bool := j.cnt.any (· == 0)

/-! ## Extents -/

/-- Bytes of a space that a run reaches: lowest, and one past the highest (R304). -/
structure Extent where
  space : LocalSpace
  lo : Int
  hi : Int
  write : Bool
  deriving Repr

/-- The extent of an iterator over blocks of `len` elements of `u` bytes. -/
def Jig.extent (j : Jig) (sp : LocalSpace) (base : Nat) (u len : Nat) (st : List Int) (write : Bool) : Extent :=
  { space := sp, lo := base + u * boxLo j.cnt st, hi := base + u * boxHi j.cnt st + u * len, write := write }

/-- The bitmap bits of one step (R308): first and count. On the tile path `a` is Σ iL × STRA(L). -/
def Jig.zmBits (j : Jig) (a b : Int) : Int × Nat :=
  if j.tile then (a / 64, j.dims.1 / 8 * (j.dims.2.1 / 8))
  else
    let n := j.ks / 8 * (j.nDim / 8)
    (b * n, n)

/-- The bytes of the bitmap that the run reads. -/
def Jig.zmExtent (j : Jig) : Extent :=
  let lo := j.zmBits (boxLo j.cnt j.sA) (boxLo j.cnt j.sB)
  let hi := j.zmBits (boxHi j.cnt j.sA) (boxHi j.cnt j.sB)
  { space := .srf, lo := j.zmap + lo.1 / 8, hi := j.zmap + (hi.1 + hi.2 - 1) / 8 + 1, write := false }

/-- The extent of a per-element vector at `base` (R314). -/
def Jig.vecExtent (j : Jig) (base : Nat) : Extent :=
  { space := .srf, lo := base + 4 * boxLo j.cnt j.sC, hi := base + 4 * (boxHi j.cnt j.sC + j.lenC), write := false }

/-- Whether the run reads Col or Bias (R304). -/
def Jig.usesCol (j : Jig) : Bool := j.fin && finSmode j.cw = 2
def Jig.usesBias (j : Jig) : Bool := j.fin && finBias j.cw

/-- The extents that the run uses, but for the seated weights (R304). -/
def Jig.extents (j : Jig) : List Extent :=
  if j.empty then []
  else
    [j.extent .srf j.baseA j.unitA j.lenA j.sA false, j.extent .acc j.baseC j.unitC j.lenC j.sC true] ++
    (if j.tile then [j.extent .srf j.baseB j.unitB j.lenB j.sB false] else []) ++
    (if j.fin then [j.extent .srf j.baseD j.unitD j.lenC j.sD true] else []) ++
    (if j.zm then [j.zmExtent] else []) ++ (if j.usesCol then [j.vecExtent j.fcol] else []) ++
    (if j.usesBias then [j.vecExtent j.fbias] else [])

/-- The units of an extent inside its space. -/
def Extent.units (e : Extent) : List Nat :=
  let lo := e.lo.toNat
  unitsOf e.space lo (min e.hi.toNat (spaceSize e.space) - lo)

/-- The reservation set of a run (R187). -/
def Jig.claims (j : Jig) : List Claim :=
  let weights : List Claim := match j.reg with
    | some r =>
      let per := r.k / j.ks
      let lo := (boxLo j.cnt j.sB).toNat / per
      let hi := min ((boxHi j.cnt j.sB).toNat / per) (r.count - 1)
      if j.empty then []
      else (rangeFrom (r.macro0 + lo) (hi + 1 - lo)).map (fun m => { space := .wb, unitNo := m, write := false })
    | none => []
  weights ++ (j.extents.map (fun e => e.units.map (fun u => ({ space := e.space, unitNo := u, write := e.write } : Claim)))).flatten

/-! ## Checks -/

/-- The combinations of CFG that R303 accepts. -/
def Jig.cfgOk (j : Jig) : Bool :=
  if j.tile then
    j.etb = j.eta &&
    ((j.eta = .bf16 || j.eta = .f32) && !j.acc64 && !j.cja && !j.cjb ||
      j.eta = .f64 && j.acc64 && !j.cja && !j.cjb || j.eta = .cf64 && j.acc64 && !j.zm)
  else
    (j.eta = .e4m3 || j.eta = .e5m2 || j.eta = .bf16) && !j.acc64 && !j.cja && !j.cjb &&
    (match j.reg with
    | some r => ET.ofCode r.et = j.etb
    | none => false)

/-- The combinations that a run with FIN refuses (R313). -/
def Jig.finBad (j : Jig) : Bool :=
  let o := finOet j.cw
  let m := finSmode j.cw
  (m = 3 && !(o = .i8 || o = .e4m3 || o = .e5m2 || o = .f16)) || (o.isC != (j.eta = .cf64)) ||
  (j.acc64 && (!(o = .f64 || o = .f32 || o.isC) || m = 2 || m = 3 || finBias j.cw || finAct j.cw != 0))

/-- Whether every byte of an extent is the bent's (R304). -/
def Core.holdsExtent (k : Core) (bent : Nat) (e : Extent) : Bool :=
  decide (0 ≤ e.lo) && decide (e.hi ≤ spaceSize e.space) && k.holdsRange e.space bent e.lo.toNat e.hi.toNat

/-- Whether B blocks lie in the region (R304). -/
def Jig.blocksOk (j : Jig) : Bool :=
  j.tile || j.empty || (decide (0 ≤ boxLo j.cnt j.sB) && decide (boxHi j.cnt j.sB < (j.shape.2.2.2 * (j.kDim / j.ks) : Nat)))

/-- Whether some C block crosses a window (R304). -/
def Jig.crosses (j : Jig) : Bool :=
  !j.empty && (reached j.cnt j.sC).any (fun x =>
    let a := (j.baseC + j.unitC * x).toNat
    a / 4096 != (a + j.unitC * j.lenC - 1) / 4096)

/-- The banks that the bytes from an address on touch. -/
def banksOf (a n : Nat) : List Nat := unitsOf .srf a n

/-- Whether banks reached under one use hold another type than its own, or formats that differ among them (R91). -/
def Core.mixed (k : Core) (bs : List Nat) (t : ET) : Bool :=
  bs.any (fun b => fmtEt (k.fmtOf b) != t || k.fmtOf b != k.fmtOf (bs.headD 0))

/-- Whether a bank that an iterator reaches has another format (R91, R304). -/
def Jig.fmtBad (j : Jig) (k : Core) (base u len : Nat) (st : List Int) (t : ET) : Bool :=
  k.mixed ((reached j.cnt st).flatMap (fun (x : Int) => banksOf ((base : Int) + u * x).toNat (u * len))) t

/-- Whether a bank of an extent has another format than a vector's (R91, R304). -/
def Extent.fmtBad (e : Extent) (k : Core) (t : ET) : Bool := k.mixed e.units t

/-- Checks 1 to 4 of R304: the cause of the first failure. -/
def Jig.check (j : Jig) (k : Core) : Option Nat :=
  let seatOk := j.tile || (match j.reg with
    | some r => !j.back || r.bwd
    | none => false)
  let off (base u : Nat) : Bool := base % u != 0
  if k.refuse then some 0x0E
  else if decide (0xC0000 ≤ j.baseC) || !j.cfgOk || (j.fin && j.finBad) || !seatOk ||
      j.extents.any (fun e => !k.holdsExtent j.c.bent e) || !j.blocksOk then some 0x09
  else if j.crosses || (j.fin && (finSmode j.cw = 3 || finTag j.cw) && j.scrb = 0) then some 0x09
  else if off j.baseA j.unitA || off j.baseC j.unitC || (j.fin && off j.baseD j.unitD) || (j.tile && off j.baseB j.unitB) then
    some 0x05
  else if !j.empty && (j.fmtBad k j.baseA j.unitA j.lenA j.sA j.eta || (j.tile && j.fmtBad k j.baseB j.unitB j.lenB j.sB j.etb) ||
      (j.fin && j.fmtBad k j.baseD j.unitD j.lenC j.sD (finOet j.cw)) || (j.usesCol && (j.vecExtent j.fcol).fmtBad k .f32) ||
      (j.usesBias && (j.vecExtent j.fbias).fmtBad k .f32) || (j.zm && j.zmExtent.fmtBad k .n8)) then some 0x0A
  else none

/-! ## Start -/

/-- Check 5 of R304: the scale of SMODE 3 (R315), read once at home (R321). A run that also tags the record binds to it by the same read (R325). -/
def State.jigScale (s : State) (j : Jig) (c : Cmd) (k : State → Cmd → Started) : Started :=
  if !j.fin || finSmode j.cw != 3 || c.scale.isSome then k s c
  else
    let va := BitVec.ofNat 64 j.scrb
    let tag := finTag j.cw
    let bay := s.bayOf j.core
    let from_ : Nat := if tag then 0 else 4
    if j.scrb % recSize ≠ 0 then .fault 0x05 va c
    else match s.gReadAs bay (c.issuer j.core (.queue j.core .matrix)) .home (va + BitVec.ofNat 64 from_) (12 - from_) with
      | .fault code _ => .fault code va c
      | .stall => .stall
      | .silent w _ => .silent w
      | .ok s d =>
        let w := if bitsOf j.cw 15 15 = 1 then c.win else bitsOf j.cw 14 13
        let x := qscaleOf (finOet j.cw) (bitsOf j.cw 10 10 = 1) (bitsOf j.cw 12 11) (fieldN d (8 - from_) 4)
        if staleEpoch (c.finScale.toNat % 2 ^ 32) (fieldN d (4 - from_) 4) w then .fault 0x0C va c
        else if !tag then k s { c with scale := some x }
        else match s.access bay c.bent va recSize .both with
          | .error code => .fault code va c
          | .ok _ => k s { c with scale := some x, stats := some (Stats.bind d) }

/-- A run that has not started takes the FIN.CW and FIN.SCALE that stand (R204). -/
def Core.withFin (k : Core) (c : Cmd) : Cmd :=
  if c.progress = 0 && c.scale.isNone && c.stats.isNone then { c with finCw := k.finCw, finScale := k.finScale } else c

/-- The start of a run (R304, R325): its table becomes the active set; checks; scale; binding. -/
def State.startJig (s : State) (core : Nat) (c : Cmd) : Started :=
  let k := s.core core
  let c := k.withFin c
  let j := s.jig core c
  match j.check k with
  | some code => .fault code 0 c
  | none =>
    if j.empty then .go s c
    else s.jigScale j c (fun s c =>
      s.bindCmd core c (if j.fin && finTag j.cw then j.scrb else 0) (fun s c => .go s c))

/-- JIG.IDX0 to JIG.IDX5 at a step (R208, R317). -/
def Jig.idxRegs (j : Jig) (step : Nat) : AMap Word :=
  (indexed 0 (j.idx step)).foldl (fun m e => m.put e.1 (BitVec.ofNat 64 e.2)) []

/-- The active set, steps and indices that a core shows of a run (R203, R208). -/
def Core.showRun (k : Core) (j : Jig) (step : Nat) : Core :=
  { k with jigActive := j.c.table, jigSteps := BitVec.ofNat 32 step, jigIdx := if j.empty then [] else j.idxRegs step }

/-- JIG_RUN_START (R203, R304): the head run has its wait met and its reservation. -/
def execJigRunStart (core : Nat) (s : State) : Result :=
  match (s.core core).head .matrix with
  | none => s.stay
  | some c =>
    if !c.op.isJig || c.st != .running || !c.held || c.ready || !s.mayRun core c then s.stay
    else
      let k := s.core core
      let s := s.setCore core (k.showRun (s.jig core c) 0)
      match s.startJig core c with
      | .stall => s.stay
      | .silent va =>
        (match c.asked with
        | none => .next (s.setCore core ((s.core core).setEntry { c with asked := some s.elapsed }))
        | some t => if s.elapsed ≥ t + 100000 then .next (s.stopCmd core { c with asked := none } 0x1C 0 va) else s.stay)
      | .fault code addr c => .next (s.stopCmd core { c with asked := none } code 0 addr)
      | .go s c => .next (s.setCore core ((s.core core).setEntry { c with ready := true, asked := none }))

/-! ## Sums of a step -/

/-- Whether a block of the bitmap is marked (R308). -/
def Core.marked (k : Core) (zmap : Nat) (i : Int) : Bool :=
  ((ByteMap.rd k.srf (zmap + i / 8).toNat).toNat / 2 ^ (i % 8).toNat) % 2 = 1

/-- Element `i` of the activations or of a tile operand at an address. -/
def Core.srfElem (k : Core) (t : ET) (addr i : Nat) : Val :=
  t.decode false (leNat (k.readBuf .srf (addr + t.bytes * i) t.bytes))

/-- Code (kk, n) of a macro (R296). -/
def Core.code (k : Core) (r : Region) (mac kk n : Nat) : Int :=
  let t := ET.ofCode r.et
  let bit := (kk * r.n + n) * t.bits
  let p : Spot := { row := 0x10000 * mac, bit := bit, width := t.bits }
  match t.decode false (p.get (k.readBuf .wb (0x10000 * mac + bit / 8) p.len)) with
  | .int i => i
  | _ => 0

/-- S(g, n) of a macro (R297); 1 without groups. -/
def Core.scaleAt (k : Core) (r : Region) (mac g n : Nat) : FVal :=
  if r.gs = 0 then .fin false 1 0
  else Fmt.bf16.decode (leNat (ByteMap.rdN k.scaleRows (8192 * mac + 2 * (g * r.n + n)) 2))

/-- What a step takes from the core: addresses of its blocks. -/
structure StepAt where
  a : Nat
  b : Int
  c : Nat
  d : Nat
  /-- Σ iL × STRA(L) on the tile path -/
  ea : Int
  /-- the C element index relative to BASEC (R314) -/
  rel : Int

/-- The blocks of a step (R301). -/
def Jig.at_ (j : Jig) (step : Nat) : StepAt :=
  let i := j.idx step
  { a := (j.baseA + j.unitA * dot i j.sA).toNat, b := if j.tile then j.baseB + j.unitB * dot i j.sB else dot i j.sB
    c := (j.baseC + j.unitC * dot i j.sC).toNat, d := (j.baseD + j.unitD * dot i j.sD).toNat, ea := dot i j.sA
    rel := dot i j.sC }

/-- The update of C element `e` of a CIM forward step (R298): none when every product is left out. -/
def Jig.cimForward (j : Jig) (k : Core) (r : Region) (p : StepAt) (e : Nat) (acc : FVal) : Option FVal :=
  let b := p.b.toNat
  let mac := r.macro0 + b / (r.k / j.ks)
  let k0 := j.ks * (b % (r.k / j.ks))
  let live (kr : Nat) : Bool :=
    !(j.zm && k.marked j.zmap ((b / (r.k / j.ks)) * (r.k / 8 * (r.n / 8)) + (k0 + kr) / 8 * (r.n / 8) + e / 8 : Nat))
  let ks := (rangeFrom 0 j.ks).filter live
  if ks.isEmpty then none
  else
    let ts := ks.map (fun kr => ({ code := k.code r mac (k0 + kr) e, act := (k.srfElem j.eta p.a kr).toF } : CimTerm))
    let sum := Fmt.f32.rne (cimSum (j.eta = .bf16) ts)
    let t := Fmt.f32.rne (sum.mul (k.scaleAt r mac (k0 / j.ks) e))
    some (Fmt.f32.rne (acc.add t))

/-- One chunk of 32 columns of a CIM backward step (R298). -/
def Jig.backChunk (j : Jig) (k : Core) (r : Region) (p : StepAt) (mac kk n0 : Nat) (acc : FVal) : FVal :=
  let b := p.b.toNat
  let live (n : Nat) : Bool := !(j.zm && k.marked j.zmap ((b / (r.k / j.ks)) * (r.k / 8 * (r.n / 8)) + kk / 8 * (r.n / 8) + n / 8 : Nat))
  let ns := (rangeFrom n0 32).filter live
  let x (n : Nat) : FVal := (k.srfElem j.eta p.a n).toF
  let sc (n : Nat) : FVal := k.scaleAt r mac (kk / j.ks) n
  let sum := match firstNaN ((ns.map (fun n => [x n, sc n])).flatten) with
    | some v => v
    | none => groupSum (j.eta = .bf16) (ns.map (fun n => ((FVal.ofInt (k.code r mac kk n)).mul (x n)).mul (sc n)))
  Fmt.f32.rne (acc.add (Fmt.f32.rne sum))

/-- The update of C element `e` of a CIM backward step (R298). -/
def Jig.cimBackward (j : Jig) (k : Core) (r : Region) (p : StepAt) (e : Nat) (acc : FVal) : Option FVal :=
  let b := p.b.toNat
  let mac := r.macro0 + b / (r.k / j.ks)
  let kk := j.ks * (b % (r.k / j.ks)) + e
  let dead := j.zm && (rangeFrom 0 (r.n / 8)).all (fun nb =>
    k.marked j.zmap ((b / (r.k / j.ks)) * (r.k / 8 * (r.n / 8)) + kk / 8 * (r.n / 8) + nb : Nat))
  if dead then none
  else some ((rangeFrom 0 (r.n / 32)).foldl (fun a q => j.backChunk k r p mac kk (32 * q) a) acc)

/-- The update of C element `e` of a tile step (R307). -/
def Jig.tileUpdate (j : Jig) (k : Core) (p : StepAt) (e : Nat) (acc : Val) : Option Val :=
  let (_, kt, nt) := j.dims
  let r := e / nt
  let n := e % nt
  let live (q : Nat) : Bool := !(j.zm && k.marked j.zmap (p.ea / 64 + (r / 8 * (kt / 8) + q / 8 : Nat)))
  let qs := (rangeFrom 0 kt).filter live
  let a (q : Nat) : Val := k.srfElem j.eta p.a (r * kt + q)
  let b (q : Nat) : Val := k.srfElem j.etb p.b.toNat (q * nt + n)
  if qs.isEmpty then none
  else match j.eta with
    | .bf16 => some (.flt (tileChunk acc.toF (qs.map (fun q => ((a q).toF, (b q).toF)))))
    | .cf64 => (match acc with
      | .cplx re im =>
        let pair (v : Val) (cj : Bool) : FVal × FVal := match v with
          | .cplx x y => (x, if cj then y.negate else y)
          | v => (v.toF, .zero)
        let o := qs.foldl (fun s q => cmac .f64 (pair (a q) j.cja) (pair (b q) j.cjb) s) (re, im)
        some (.cplx o.1 o.2)
      | v => some v)
    | _ =>
      let f := if j.acc64 then Fmt.f64 else Fmt.f32
      some (.flt (qs.foldl (fun s q => f.rne ((a q).toF.fma (b q).toF s)) acc.toF))

/-- The type of an accumulator element. -/
def Jig.accType (j : Jig) : ET := if j.acc64 then (if j.eta = .cf64 then .cf64 else .f64) else .f32

/-- An element of C after a step. -/
structure CElem where
  addr : Nat
  /-- first reached in this run under ZERO (R305) -/
  first : Bool
  new : Option Val
  v : Val

/-- The elements of C of a step (R305). -/
def Jig.cElems (j : Jig) (k : Core) (p : StepAt) : List CElem :=
  (rangeFrom 0 j.lenC).map (fun e =>
    let addr := p.c + j.unitC * e
    let first := j.zero && !AMap.has j.c.touched (addr / j.unitC)
    let old := if first then j.accType.decode false 0 else j.accType.decode false (leNat (k.readBuf .acc addr j.unitC))
    let new : Option Val := if j.tile then j.tileUpdate k p e old
      else match j.reg with
        | some r => ((if j.back then j.cimBackward k r p e old.toF else j.cimForward k r p e old.toF)).map Val.flt
        | none => none
    { addr := addr, first := first, new := new, v := new.getD old })

/-! ## The finish pipeline -/

/-- Whether a step is finishing (R306). -/
def lastWhereStill : List Nat → List Bool → List Int → List Nat → Bool
  | n :: ns, d :: ds, x :: xs, i :: is =>
    (x != 0 || i = (if d then 0 else n - 1)) && lastWhereStill ns ds xs is
  | _, _, _, _ => true

def Jig.finishing (j : Jig) (step : Nat) : Bool := j.fin && lastWhereStill j.cnt j.down j.sC (j.idx step)

/-- Act (R314): a function of the VSFU at f32. -/
def actOf (n : Nat) (v : FVal) : FVal :=
  let f (fn : Nat) : FVal := (vsfuF32 fn .rne (Fmt.f32.deliver .rne false 0 v).1).1
  match n with
  | 0 => v
  | 1 => if v.isNaN then v.quiet else if FVal.zero.lt v then v else .zero
  | 2 => f 8
  | 3 => f 9
  | 4 => f 7
  | 5 => f 6
  | _ => f 5

/-- An f32 of an SRF vector at element `i`. -/
def Core.vecElem (k : Core) (base : Nat) (i : Int) : FVal := Fmt.f32.decode (leNat (k.readBuf .srf (base + 4 * i).toNat 4))

/-- The stages of R314 up to the clamp on one real value or component; `i` its element index relative to BASEC. -/
def Jig.stages (j : Jig) (k : Core) (i : Int) (v : FVal) : FVal :=
  let f := if j.acc64 then Fmt.f64 else Fmt.f32
  let v := if finSmode j.cw = 1 then f.rne (v.mul (Fmt.f32.decode (j.c.finScale.toNat % 2 ^ 32))) else v
  let v := if finSmode j.cw = 2 then Fmt.f32.rne (v.mul (k.vecElem j.fcol i)) else v
  let v := if finBias j.cw then Fmt.f32.rne (v.add (k.vecElem j.fbias i)) else v
  let v := actOf (finAct j.cw) v
  if bitsOf j.cw 20 20 = 1 then (v.max (Fmt.f32.decode j.lo)).min (Fmt.f32.decode j.hi) else v

/-- The rounding mode of the finish (R204, R312). -/
def Jig.rm (j : Jig) : RMode := RMode.ofField (BitVec.ofNat 2 (bitsOf j.cw 5 4)) j.c.rnd

/-- The D bits of an element and whether it overflowed (R314, R431). -/
def Jig.finishElem (j : Jig) (k : Core) (gen : Word32) (i : Int) (v : Val) : Nat × Bool :=
  let sat := bitsOf j.cw 6 6 = 1
  let o := finOet j.cw
  match v with
  | .cplx re im => (convert o false j.rm sat gen (.cplx (j.stages k i re) (j.stages k i im)), false)
  | v =>
    let r := j.stages k i v.toF
    match j.c.scale with
    | some x => if finSmode j.cw = 3 then convertQuant o j.rm gen (r.mul (scaleVal (bitsOf j.cw 10 10 = 1) x))
      else (convert o false j.rm sat gen (.flt r), false)
    | none => (convert o false j.rm sat gen (.flt r), false)

/-- The outputs of a finishing step from its C element `e` on: D bits with ov, each under its own step of its generator (R58, R314); and the entry
whose generators and output count have gone on. -/
def Jig.outputs (j : Jig) (k : Core) (p : StepAt) : Cmd → Nat → List CElem → Cmd × List (Nat × Bool)
  | c, _, [] => (c, [])
  | c, e, x :: t =>
    let o := j.finishElem k (c.gen c.outputs) (p.rel + e) x.v
    let c := c.stepGen j.rm c.outputs
    let r := Jig.outputs j k p { c with outputs := c.outputs + 1 } (e + 1) t
    (r.1, o :: r.2)

/-! ## Steps -/

/-- Whether bytes that a step reads are poisoned (R302, R317). -/
def Jig.stepPoisoned (j : Jig) (k : Core) (p : StepAt) (fin : Bool) (es : List CElem) : Bool :=
  let weights := match j.reg with
    | some r =>
      let b := p.b.toNat
      let row := r.n * (ET.ofCode r.et).bits / 8
      let per := r.k / j.ks
      (r.gs != 0 && k.scalesPoisoned (8192 * (r.macro0 + b / per) + 2 * (b % per * r.n)) (2 * r.n)) || k.bufPoisoned .wb (0x10000 * (r.macro0 + b / (r.k / j.ks)) + row * (j.ks * (b % (r.k / j.ks)))) (row * j.ks)
    | none => k.bufPoisoned .srf p.b.toNat (j.unitB * j.lenB)
  let z := j.zmBits p.ea p.b
  let zlo := z.1 / 8
  let zhi := (z.1 + z.2 - 1) / 8
  let vec (base : Nat) : Bool := k.bufPoisoned .srf (base + 4 * p.rel).toNat (4 * j.lenC)
  k.bufPoisoned .srf p.a (j.unitA * j.lenA) || weights ||
  (j.zm && k.bufPoisoned .srf (j.zmap + zlo).toNat (zhi - zlo + 1).toNat) ||
  es.any (fun e => !e.first && (fin || e.new.isSome) && k.bufPoisoned .acc e.addr j.unitC) ||
  (fin && ((j.usesCol && vec j.fcol) || (j.usesBias && vec j.fbias)))

/-- The spare columns of a unit (R310): macros 0 to 31, tiles 32 to 39. -/
def sparesOf (u : Nat) : Nat := if u < 32 then 8 else 2

/-- The unit whose column a residue check names, if the step uses it. -/
def Jig.residueUnit (j : Jig) (p : StepAt) (r : ResidueCheck) : Option Nat :=
  let used (u : Nat) : Bool := if j.tile then decide (32 ≤ u) && decide (u < 40)
    else match j.reg with
      | some g => decide (u = g.macro0 + p.b.toNat / (g.k / j.ks))
      | none => false
  match r with
  | .ok => none
  | .retry u | .uncorrectable u => if used u then some u else none

/-- A column of a unit retires (R310, R427). -/
def State.retireColumn (s : State) (core u bent : Nat) : State :=
  let k := s.core core
  let s := s.setCore core { k with retired := k.retired.put u (k.retired.get u 0 + 1) }
  let s := s.note 1 core bent
  { s with mgmt := { s.mgmt with columns := s.mgmt.columns + 1 } }

/-- The physical number of a logical core, 256 · bay + index (R41, R428). -/
def State.physicalOf (s : State) (core : Nat) : Nat := (nth? s.mgmt.physical core).getD (256 * s.bayOf core + s.inBay core)

/-- A mismatch with no spare left (R311): the windows of the reservation are poisoned, the core refuses runs and is listed. -/
def State.residueLost (s : State) (core : Nat) (c : Cmd) : State :=
  let k := s.core core
  let wins := (c.claims.filter (fun q => q.space = .acc)).map Claim.unitNo
  let marks := wins.foldl (fun m w => (rangeFrom (1024 * w) 1024).foldl (fun m i => m.put i ()) m) k.accPoison
  -- two elements an 8-byte unit
  let fresh := (wins.map (fun w => ((rangeFrom (512 * w) 512).filter (fun u =>
    !(k.accPoison.has (2 * u) || k.accPoison.has (2 * u + 1)))).length)).foldl (· + ·) 0
  let s := s.setCore core { k with accPoison := marks, refuse := true }
  let s : State := { s with mgmt := { s.mgmt with
    poisonings := s.mgmt.poisonings + BitVec.ofNat 64 fresh
    listed := if s.mgmt.listed.contains (s.physicalOf core) then s.mgmt.listed else s.mgmt.listed ++ [s.physicalOf core] } }
  s.note 2 core c.bent

/-- A run stops at a step (R317). -/
def State.stopRun (s : State) (core : Nat) (j : Jig) (code step : Nat) (addr : Word) : State :=
  (s.setCore core ((s.core core).showRun j step)).stopCmd core j.c code step addr

/-- The overflow count of a run after more overflows (R315, R332). -/
def Cmd.overflowed (c : Cmd) (n : Nat) : Nat := min (c.ovf + n) (2 ^ 32 - 1)

/-- A step commits (R305, R306, R315, R316): `c` the entry with the generators that its outputs left. -/
def State.commitStep (s : State) (core : Nat) (j : Jig) (p : StepAt) (es : List CElem) (c : Cmd) (outs : List (Nat × Bool)) (ov : Nat) : State :=
  let k := s.core core
  let k := es.foldl (fun k e =>
    if e.first || e.new.isSome then k.writeBuf .acc e.addr (leBytes j.unitC (convert j.accType false .rne false 0 e.v)) else k) k
  let k := (indexed 0 outs).foldl (fun k o => k.writeBuf .srf (p.d + j.unitD * o.1) (leBytes j.unitD o.2.1)) k
  let c := { c with
    touched := if j.zero then es.foldl (fun m e => m.put (e.addr / j.unitC) ()) c.touched else c.touched
    stats := outs.foldl (fun st o => gatherOpt st (finOet j.cw) o.1) c.stats
    ovf := c.overflowed ov, progress := c.progress + 1 }
  s.setCore core ((k.setEntry c).showRun { j with c := c } c.progress)

/-- A step of the active run (R305 to R317). -/
def State.jigStep (s : State) (core : Nat) (c : Cmd) (res : ResidueCheck) : State :=
  let k := s.core core
  let j := s.jig core c
  let n := c.progress
  if k.refuse then s.stopRun core j 0x0E n 0
  else
    let p := j.at_ n
    let fin := j.finishing n
    let es := j.cElems k p
    let uses := fin || es.any (fun e => e.first || e.new.isSome)
    match (if uses then k.touch (p.c / 4096) c.bent else .ok k) with
    | .other w => (s.setCore core (k.showRun j n)).firstUseCmd core c w
    | .ok k =>
      let s := s.setCore core k
      if j.stepPoisoned k p fin es then s.stopRun core j 0x1B n 0
      else
        let unit := j.residueUnit p res
        let spent := match unit with
          | some u => decide (sparesOf u ≤ k.retired.get u 0)
          | none => false
        if spent then (s.residueLost core c).stopRun core j 0x0E n 0
        else
          let s := match unit with
            | some u => s.retireColumn core u c.bent
            | none => s
          let r := if fin then j.outputs k p c 0 es else (c, [])
          let ov := if finSmode j.cw = 3 then (r.2.filter (fun o => o.2)).length else 0
          if fin && decide (finSmode j.cw = 3) && decide (c.thr < c.overflowed ov) then
            s.stopRun core j 0x0D n (BitVec.ofNat 64 (c.ovf * 2 ^ 32 + ov))
          else s.commitStep core j p es r.1 r.2 ov

/-- JIG_STEP (R305): the next step of the head run. -/
def execJigStep (core : Nat) (res : ResidueCheck) (s : State) : Result :=
  match (s.core core).head .matrix with
  | none => s.stay
  | some c =>
    if !c.op.isJig || c.st != .running || !c.held || !c.ready || (s.jig core c).total ≤ c.progress || !s.mayRun core c then s.stay
    else .next (s.jigStep core c res)

end Sys2Proof.Machine
end

