-- ==== Sys2Proof/Machine/Sill.lean ====
section
/-! DEFINITION. Sill units (R206, R388 to R400): the commands that load, arm and stop timetables, and the events of a run. -/

namespace Sys2Proof.Machine

/-! ## Issue -/

/-- R206. -/
def execSillLoad (c : BitVec 4) (a b : RegNo) (ws : WaitSig) (s : State) : Result :=
  s.journalCmd (s.capture .sillLoad c ws (s.getX a) (s.getX b) 0 0 0)

/-- R206. -/
def execSillGo (a b : RegNo) (ws : WaitSig) (s : State) : Result :=
  s.journalCmd (s.capture .sillGo 0 ws (s.getX a) (s.getX b) 0 0 0)

/-- The first channel and the number of channels that a command names (R206). -/
def Cmd.chFirst (c : Cmd) : Nat := c.xb.toNat % 512
def Cmd.chCount (c : Cmd) : Nat := c.xb.toNat / 2 ^ 16 % 512
def Cmd.channels (c : Cmd) : List Nat := rangeFrom c.chFirst c.chCount

/-- A stop request (R206). -/
def Cmd.isStop (c : Cmd) : Bool := c.op = .sillGo && c.xa = 0xFFFFFFFFFFFFFFFF

/-! ## Timetables -/

/-- The size of a timetable's header (R390). -/
def ttHeader : Nat := 224

/-- Fields of a header (R390). -/
def ttNent (d : List Byte) : Nat := fieldN d 4 2
def ttLoop (d : List Byte) : Bool := fieldN d 6 2 % 2 = 1
def ttSegb (d : List Byte) : Nat := fieldN d 8 8
def ttSegn (d : List Byte) : Nat := fieldN d 0x10 4
def ttScribe (d : List Byte) : Nat := fieldN d 0x18 8
def ttDone (d : List Byte) : Nat := fieldN d 0x20 8
def ttFlag (d : List Byte) (k : Nat) : Nat := fieldN d (0x40 + 8 * k) 8
def ttFval (d : List Byte) (k : Nat) : Nat := fieldN d (0x60 + 8 * k) 8
def ttLadr (d : List Byte) (k : Nat) : Nat := fieldN d (0x80 + 8 * k) 8
def ttSr (d : List Byte) (k : Nat) : Nat := fieldN d (0xA0 + 4 * k) 4

/-- Bits hi..lo of an entry. -/
def eb (e : Word) (hi lo : Nat) : Nat := bitsOf e.toNat hi lo

/-- KIND of an entry (R391). -/
def entKind (e : Word) : Nat := eb e 63 60

/-- Ports that a move may read, and may write (R388). -/
def sillReads (p : Nat) : Bool :=
  decide (p < 0x10) || (decide (0x40 ≤ p) && decide (p ≤ 0x84)) || p = 0x9C || p = 0xAC || p = 0xBC

def sillTrigger (p : Nat) : Bool := p = 0x98 || p = 0xA8 || p = 0xB8

def sillWrites (p : Nat) : Bool :=
  decide (p < 0x10) || (decide (0x40 ≤ p) && decide (p < 0x80)) || p = 0x82 || sillTrigger p ||
  [0x90, 0x91, 0xA0, 0xA1, 0xB0, 0xB1].contains p

/-- Whether an OP is one of its unit's (R389). -/
def sillOpOk (port op : Nat) : Bool :=
  let rm := op / 16 % 4
  let fn := op % 16
  decide (op / 64 ≤ 1) && decide (rm ≤ 1) && (match port with
    | 0x98 => decide (fn ≤ 4)
    | 0xA8 => decide (fn ≤ 3) && rm = 0
    | _ => decide (fn ≤ 2) && (fn = 0 || rm = 0))

/-- Present moves of an MV entry: source, destination, OP. -/
def mvMoves (e : Word) : List (Nat × Nat × Nat) :=
  (if eb e 48 48 = 1 then [(eb e 15 8, eb e 7 0, eb e 39 32)] else []) ++
  (if eb e 49 49 = 1 then [(eb e 31 24, eb e 23 16, eb e 47 40)] else [])

/-- Whether an MV entry is refused (R391, R392). -/
def mvBad (e : Word) : Bool :=
  let ms := mvMoves e
  eb e 59 50 != 0 || (eb e 48 48 = 0 && (eb e 15 0 != 0 || eb e 39 32 != 0)) ||
  (eb e 49 49 = 0 && (eb e 31 16 != 0 || eb e 47 40 != 0)) ||
  ms.any (fun m => !sillReads m.1 || !sillWrites m.2.1 || (if sillTrigger m.2.1 then !sillOpOk m.2.1 m.2.2 else m.2.2 != 0)) ||
  hasEqualDst ms
where
  /-- Two moves of one destination. -/
  hasEqualDst : List (Nat × Nat × Nat) → Bool
    | [a, b] => a.2.1 = b.2.1
    | _ => false

/-- Whether an entry is refused, read with a lock held or not, and whether a lock is held after it (R392). -/
def entBad (d : List Byte) (lock : Bool) (e : Word) : Bool × Bool :=
  match entKind e with
  | 0 => (eb e 59 32 != 0 || eb e 31 0 = 0, lock)
  | 1 => (mvBad e, lock)
  | 2 => (eb e 59 4 != 0 || (eb e 3 3 = 1 && lock), lock || eb e 3 3 = 1)
  | 3 => (eb e 59 5 != 0 || (eb e 3 3 = 1 && ttScribe d = 0), lock && eb e 2 2 = 0)
  | 5 => (eb e 59 16 != 0 || eb e 15 0 = 0, lock)
  | 6 => (eb e 59 5 != 0 || eb e 3 2 != 0 || ttFlag d (eb e 1 0) = 0 || lock, lock)
  | 7 => (eb e 59 6 != 0 || ttLadr d (eb e 5 4) = 0 || lock, lock)
  | _ => (true, lock)

/-- Whether some entry is refused (R392). -/
def entsBad (d : List Byte) : Bool → List Word → Bool
  | _, [] => false
  | lock, e :: t =>
    let r := entBad d lock e
    r.1 || entsBad d r.2 t

/-- Whether a header is refused (R390, R392). -/
def headerBad (d : List Byte) : Bool :=
  fieldN d 0 4 != 0x53494C31 || ttNent d = 0 || decide (1024 < ttNent d) || decide (2 ≤ fieldN d 6 2) || ttSegb d % 256 != 0 ||
  decide (2 ^ 56 ≤ ttSegb d) || ttSegn d = 0 || fieldN d 0x14 4 != 0 || !((d.drop 0x28).take 24).all (· == 0)

/-- Addresses of a header with the need and size of each (R392). -/
def ttAddrs (d : List Byte) : List (Nat × Nat × Need) :=
  ([(ttDone d, 8, Need.both)] ++ (rangeFrom 0 4).map (fun k => (ttFlag d k, 8, Need.home)) ++
    (rangeFrom 0 4).map (fun k => (ttLadr d k, 4, Need.home))).filter (fun a => a.1 != 0)

/-- The entries of a timetable as words, `n` of them. -/
def entryWords : Nat → List Byte → List Word
  | 0, _ => []
  | n + 1, d => field64 d 0 :: entryWords n (d.drop 8)

/-! ## Translations of a timetable -/

/-- A translation of an address for a bent, walked afresh and checked as R135 checks an access: location, page size, and the physical address as the
leaf has it. -/
def State.sillWalk (s : State) (b : Nat) (va : Nat) (need : Need) : Except Nat (Loc × Nat × Nat) :=
  match s.translate homeBay b (BitVec.ofNat 64 va) need with
  | .error c => .error c
  | .ok l => match s.lookup homeBay (s.root b) va with
    | .error c => .error c
    | .ok t => .ok (l, t.size, t.pa va)

/-- Translate the segment's granules (R392): a granule in a window, or above what is present, takes cause 0x09. -/
def State.sillGranules (s : State) (b : Nat) : List Nat → AMap (Loc × Nat) → Except (Nat × Nat) (AMap (Loc × Nat))
  | [], m => .ok m
  | va :: t, m =>
    match s.sillWalk b va .both with
    | .error c => .error (c, va)
    | .ok (l, size, raw) => if s.capacity ≤ raw then .error (0x09, 0) else State.sillGranules s b t (m.put va (l, size))

/-- Translate the DONE, FLAG and LADR addresses (R392). -/
def State.sillAddrs (s : State) (b : Nat) : List (Nat × Nat × Need) → AMap (Loc × Nat) → Except (Nat × Nat) (AMap (Loc × Nat))
  | [], m => .ok m
  | (va, n, need) :: t, m =>
    if va % n ≠ 0 then .error (0x05, va)
    else match s.sillWalk b va need with
      | .error c => .error (c, va)
      | .ok (l, size, _) => State.sillAddrs s b t (m.put va (l, size))

/-- Element 0 of SILL.LOAD (R206, R392): the timetable read and checked, its addresses translated. -/
def State.startSillLoad (s : State) (core : Nat) (c : Cmd) : Started :=
  let bay := s.bayOf core
  let ag := Agent.queue core .sill
  let read (s : State) (va : Word) (n : Nat) (k : State → List Byte → Started) : Started :=
    match s.gCheck bay c.bent ag va n .exec with
    | .fault code w => .fault code w c
    | .stall => .stall
    | .silent w => .silent w
    | .ok ls =>
      let r := (s.touchParts bay c.bent .exec va ls).readParts bay ls
      k r.1 r.2
  if c.ready then .go s c
  else if c.xa.toNat % 64 ≠ 0 then .fault 0x05 c.xa c
  else read s c.xa ttHeader (fun s d =>
    if headerBad d then .fault 0x09 0 c
    else read s (c.xa + BitVec.ofNat 64 ttHeader) (8 * ttNent d) (fun s e =>
      if entsBad d false (entryWords (ttNent d) e) then .fault 0x09 0 c
      else
        let vas := (rangeFrom 0 (ttSegn d)).map (fun i => ttSegb d + 256 * i)
        match s.sillGranules c.bent vas [] with
        | .error (code, va) => .fault code (BitVec.ofNat 64 va) c
        | .ok m => match s.sillAddrs c.bent (ttAddrs d) m with
          | .error (code, va) => .fault code (BitVec.ofNat 64 va) c
          | .ok m => .go s { c with block := d ++ e, locs := m }))

/-! ## Commands on channels -/

/-- The running states (R206, R393). -/
def SillState.runs : SillState → Bool
  | .armed | .running | .holding => true
  | _ => false

/-- Whether a command may not touch a channel's timetable for loading (R206, R393). -/
def Sill.loadRefused (u : Sill) (b : Nat) : Bool := u.st != .empty && (u.bent != b || u.st.runs)

/-- The granules of a channel out of the translated segment (R390). -/
def State.granulesOf (s : State) (c : Cmd) (ch : Nat) : List (Nat × Nat) :=
  let d := c.block
  ((rangeFrom 0 (ttSegn d)).map (fun i => ttSegb d + 256 * i)).filterMap (fun va => match c.locs.find? va with
    | some (l, _) => if (channelOf s.mgmt.chans l.pa).1 = ch then some (va, l.pa) else none
    | none => none)

/-- The element of SILL.LOAD for a channel (R206). -/
def State.sillLoadElem (s : State) (c : Cmd) : Elem Done :=
  let ch := c.chFirst + c.progress
  if s.mgmt.chans ≤ ch || (s.sill ch).loadRefused c.bent then .fault 0x09 0
  else
    let d := c.block
    let u : Sill := { Sill.reset with
      st := .loaded, prior := .loaded, bent := c.bent, header := d.take ttHeader
      entries := entryWords (ttNent d) (d.drop ttHeader), granules := s.granulesOf c ch, locs := c.locs
      dropped := c.unmapped }
    .ok (s.setSill ch u, c, c.progress + 1)

/-- Whether SILL.GO is refused at element 0 by a channel's state (R206, R393); the replay of the SILL.GO of the same core that armed it is not. -/
def State.goRefused (s : State) (core : Nat) (c : Cmd) (ch : Nat) : Bool :=
  let u := s.sill ch
  decide (ch < s.mgmt.chans) &&
  (u.st = .empty || u.bent != c.bent || (u.st.runs && !(u.core = core && u.peg = c.peg && u.seq = c.seq)))

/-- Element 0 of SILL.GO (R206): a channel without a timetable of the bent, or already in a running state. -/
def State.startSillGo (s : State) (core : Nat) (c : Cmd) : Started :=
  if !c.isStop && c.channels.any (s.goRefused core c) then .fault 0x09 0 { c with progress := 0 }
  else .go s { c with progress := if c.isStop then c.progress else 0 }

/-- A channel enters done by a stop request: the DONE add is owed (R206, R395). -/
def Sill.stopping (u : Sill) : Sill := { u with st := .running, lock := none, stats := none, doneOwed := true }

/-- The element of SILL.GO for a channel (R206, R393). -/
def State.sillGoElem (s : State) (core : Nat) (c : Cmd) : Elem Done :=
  let ch := c.chFirst + c.progress
  let u := s.sill ch
  if s.mgmt.chans ≤ ch then .fault 0x09 0
  else if c.isStop then
    if u.bent = c.bent && u.st.runs && !u.doneOwed then
      let u := if u.st = .running then { u with stopReq := true } else u.stopping
      .ok (s.setSill ch u, c, c.progress + 1)
    else .ok (s, c, c.progress + 1)
  else
    let u := { u with
      prior := if u.st.runs then u.prior else u.st
      st := .armed, peg := c.peg, seq := c.seq, core := core, start := c.xa.toNat, gto := c.sillGto, stopReq := false
      doneOwed := false }
    .ok (s.setSill ch u, c, c.progress + 1)

/-- Whether a SILL.GO comes too late (R206): its start timestamp is not later than now when the last channel is armed. -/
def State.goLate (s : State) (c : Cmd) : Bool :=
  c.op = .sillGo && !c.isStop && c.chCount != 0 && c.progress = c.chCount && decide (c.xa.toNat ≤ s.timestamp)

/-- Every channel that a SILL.GO armed is disarmed (R206). -/
def State.disarm (s : State) (c : Cmd) : State :=
  c.channels.foldl (fun (s : State) ch =>
    let u := s.sill ch
    s.setSill ch { u with st := u.prior }) s

/-- Whether a stop request still waits for a channel (R206). -/
def State.stopWaits (s : State) (c : Cmd) : Bool :=
  c.isStop && c.channels.any (fun ch => decide (ch < s.mgmt.chans) && (s.sill ch).bent = c.bent && (s.sill ch).st.runs)

/-! ## Stops -/

/-- A channel stops with a cause (R398). -/
def State.stopSill (s : State) (ch code : Nat) (addr : Word) : State :=
  let u := s.sill ch
  let s := s.setSill ch { u with st := .stopped, lock := none, stats := none, stopReq := false, doneOwed := false, asked := none }
  if AMap.has s.pegs u.peg then s.pend u.peg (cmdTrap 2 code u.seq ch addr ch)
  else (s.modBent u.bent (fun r => { r with traps := r.traps + 1 })).note 3 ch u.bent

/-! ## Accesses of a channel -/

/-- What an access of a channel finds. -/
inductive SillAcc where
  | ok (s : State) (l : Loc)
  | stop (s : State)
  | wait (s : State)

/-- The location of an address of a channel: walked and checked again when a TLBI dropped it, a granule for RD and WR (R392). -/
def State.sillLoc (s : State) (ch va : Nat) (need : Need) : Except Nat (State × Loc) :=
  let u := s.sill ch
  match AMap.find? u.dropped va, AMap.find? u.locs va with
  | none, some (l, _) => .ok (s, l)
  | _, _ => match s.sillWalk u.bent va (if u.granules.any (fun g => g.1 = va) then .both else need) with
    | .error c => .error c
    | .ok (l, size, _) =>
      let gs := u.granules.map (fun g => if g.1 = va then (va, l.pa) else g)
      .ok (s.setSill ch { u with dropped := AMap.erase u.dropped va, locs := u.locs.put va (l, size), granules := gs }, l)

/-- An access of a channel to `n` bytes at `off` past an address it holds (R392, R398, R403). `own`: inside its own granule, which its
own lock does not close. -/
def State.sillAccess (s : State) (ch va off n : Nat) (need : Need) (own : Bool) : SillAcc :=
  let at_ := BitVec.ofNat 64 (va + off)
  match s.sillLoc ch va need with
  | .error c => .stop (s.stopSill ch c at_)
  | .ok (s, l0) =>
    let l := { l0 with pa := l0.pa + off }
    let u := s.sill ch
    match s.answer l.pa n with
    | .refused => .stop (s.stopSill ch 0x1C at_)
    | .silent => (match u.asked with
      | none => .wait (s.setSill ch { u with asked := some s.elapsed })
      | some t => if s.elapsed ≥ t + 100000 then .stop (s.stopSill ch 0x1C at_) else .wait s)
    | .here =>
      if !own && s.lockedOut l.pa n then .wait s
      else if !(need = .write) && s.poisoned l.pa n then .stop (s.stopSill ch 0x1B at_)
      else .ok (s.setSill ch { u with asked := none }) l

/-! ## Values of ports -/

/-- A 32-bit value in every 4-byte unit (R388). -/
def rep32 (v : Word32) : Desc := (rangeFrom 0 16).foldl (fun d i => d ||| ((v.zeroExtend 512) <<< (32 * i))) 0

/-- Results that have landed by a tick (R389). -/
def SillUnit.land (u : SillUnit) (t : Nat) : SillUnit :=
  { u with
    x := ((u.flight.filter (fun e => decide (e.1 ≤ t))).getLast?.map Prod.snd).getD u.x
    flight := u.flight.filter (fun e => decide (t < e.1)) }

/-- Every result of a channel that has landed by its tick. -/
def Sill.land (u : Sill) : Sill :=
  let due := u.rdFlight.filter (fun e => decide (e.1 ≤ u.tick))
  let last (b : Bool) (d : Desc) : Desc := ((due.filter (fun e => e.2.1 = b)).getLast?.map (fun e => e.2.2)).getD d
  { u with
    add := u.add.land u.tick, cmp := u.cmp.land u.tick, sfn := u.sfn.land u.tick, rd0 := last false u.rd0, rd1 := last true u.rd1
    rdFlight := u.rdFlight.filter (fun e => decide (u.tick < e.1)) }

/-- The value of a port, as 64 bytes (R388). -/
def Sill.port (u : Sill) (p : Nat) : Desc :=
  if p < 0x10 then rep32 (u.sr.get p 0)
  else if p < 0x80 then u.lm.get (p - 0x40) 0
  else match p with
    | 0x80 => u.rd0
    | 0x81 => u.rd1
    | 0x82 => u.wb
    | 0x83 => rep32 u.gp
    | 0x84 => rep32 (BitVec.ofNat 32 u.pass)
    | 0x9C => u.add.x
    | 0xAC => u.cmp.x
    | _ => u.sfn.x

/-- A port that is no trigger receives a value; a scalar register takes bytes 3:0 (R388). -/
def Sill.putPort (u : Sill) (p : Nat) (v : Desc) : Sill :=
  if p < 0x10 then { u with sr := u.sr.put p (v.extractLsb' 0 32) }
  else if p < 0x80 then { u with lm := u.lm.put (p - 0x40) v }
  else match p with
    | 0x82 => { u with wb := v }
    | 0x90 => { u with add := { u.add with o0 := v } }
    | 0x91 => { u with add := { u.add with o1 := v } }
    | 0xA0 => { u with cmp := { u.cmp with o0 := v } }
    | 0xA1 => { u with cmp := { u.cmp with o1 := v } }
    | 0xB0 => { u with sfn := { u.sfn with o0 := v } }
    | 0xB1 => { u with sfn := { u.sfn with o1 := v } }
    | _ => u

/-- One lane of an operation (R389): `port` the trigger, lanes a, b, c as bits of format `f`. -/
def sillLane (port fn : Nat) (f : Fmt) (rm : RMode) (a b c : Nat) : Nat :=
  let x := f.decode a
  let y := f.decode b
  let z := f.decode c
  let put (v : FVal) : Nat := (f.deliver rm false 0 v).1
  match port, fn with
  | 0x98, 0 => put (x.add y)
  | 0x98, 1 => put (x.sub y)
  | 0x98, 2 => put (x.mul y)
  | 0x98, 3 => put (x.fma y z)
  | 0x98, _ => put (x.fnma y z)
  | 0xA8, 0 => put (x.min y)
  | 0xA8, 1 => put (x.max y)
  | 0xA8, 2 => put ((x.max y).min z)
  | 0xA8, _ => if x.isNaN then put x else a % 2 ^ (f.ebits + f.mbits)
  | _, 0 => put x.sqrt
  | _, n => (f.deliver .rne false 0 (vsfuF32 (n - 1) .rne (Fmt.f32.deliver .rne false 0 x).1).1).1

/-- An operation on every lane (R389). -/
def sillOp (port op : Nat) (a b c : Desc) : Desc :=
  let f := if op / 64 = 0 then Fmt.f32 else Fmt.bf16
  let w := if op / 64 = 0 then 32 else 16
  let rm : RMode := if op / 16 % 4 = 0 then .rne else .rz
  let lane (v : Desc) (i : Nat) : Nat := (v.extractLsb' (w * i) w).toNat
  (rangeFrom 0 (512 / w)).foldl (fun d i =>
    d ||| (BitVec.ofNat 512 (sillLane port (op % 16) f rm (lane a i) (lane b i) (lane c i)) <<< (w * i))) 0

/-- A trigger starts its unit (R389): the result lands after the unit's latency. -/
def Sill.trigger (u : Sill) (p op : Nat) (a : Desc) : Sill :=
  match p with
  | 0x98 => { u with add := { u.add with flight := u.add.flight ++ [(u.tick + 4, sillOp p op a u.add.o0 u.add.o1)] } }
  | 0xA8 => { u with cmp := { u.cmp with flight := u.cmp.flight ++ [(u.tick + 1, sillOp p op a u.cmp.o0 u.cmp.o1)] } }
  | _ => { u with sfn := { u.sfn with flight := u.sfn.flight ++ [(u.tick + 8, sillOp p op a u.sfn.o0 u.sfn.o1)] } }

/-- An MV entry (R389): both sources as they stood, operand writes before triggers. -/
def Sill.moves (u : Sill) (e : Word) : Sill :=
  let ms := (mvMoves e).map (fun m => (m.2.1, m.2.2, u.port m.1))
  let u1 := ms.foldl (fun u m => if sillTrigger m.1 then u else u.putPort m.1 m.2.2) u
  ms.foldl (fun u m => if sillTrigger m.1 then u.trigger m.1 m.2.1 m.2.2 else u) u1

/-! ## Entries -/

/-- The entry a running channel executes next, of a kind, with no refresh due (R391, R394). -/
def State.sillEntry (s : State) (ch kind : Nat) : Option (Sill × Word) :=
  match s.sills.find? ch with
  | none => none
  | some u =>
    if u.st = .running && !u.doneOwed && decide (u.tick < u.lastRefresh + 3900) && decide (u.start + u.tick ≤ s.timestamp) then
      match nth? u.entries u.entry with
      | some e => if entKind e = kind then some (u.land, e) else none
      | none => none
    else none

/-- Go on with the next entry after `n` ticks. -/
def Sill.next (u : Sill) (n : Nat) : Sill := { u with entry := u.entry + 1, tick := u.tick + n }

/-- Ticks that have passed at least up to now, for entries of variable length. -/
def State.sillNow (s : State) (u : Sill) : Nat := max u.tick (s.timestamp - u.start)

/-- SILL_WAIT (R391). -/
def execSillWait (ch : Nat) (s : State) : Result :=
  match s.sillEntry ch 0 with
  | none => s.stay
  | some (u, e) => .next (s.setSill ch (u.next (eb e 31 0)))

/-- SILL_MV (R389). -/
def execSillMv (ch : Nat) (s : State) : Result :=
  match s.sillEntry ch 1 with
  | none => s.stay
  | some (u, e) => .next (s.setSill ch ((u.moves e).next 1))

/-- SILL_REF (R391). -/
def execSillRef (ch : Nat) (s : State) : Result :=
  match s.sillEntry ch 5 with
  | none => s.stay
  | some (u, e) =>
    let n := eb e 15 0
    if u.pass % n = n - 1 then .next (s.setSill ch { u.next 60 with lastRefresh := u.tick + 60 })
    else .next (s.setSill ch (u.next 0))

/-- SILL_RD (R394): a line of the pass's granule, readable from tick + 24. -/
def execSillRd (ch : Nat) (s : State) : Result :=
  match s.sillEntry ch 2 with
  | none => s.stay
  | some (u, e) =>
    match nth? u.granules u.pass with
    | none => s.stay
    | some g =>
      match s.sillAccess ch g.1 (64 * eb e 1 0) 64 .home true with
      | .stop s => .next s
      | .wait s => .next s
      | .ok s l =>
        let r := s.readLoc l 64
        let v : Desc := BitVec.ofNat 512 (leNat r.2)
        let u := { u with granules := (s.sill ch).granules, locs := (s.sill ch).locs, dropped := (s.sill ch).dropped, asked := none }
        let u := { u with
          rdFlight := u.rdFlight ++ [(u.tick + 24, decide (eb e 2 2 = 1), v)], lock := if eb e 3 3 = 1 then some u.pass else u.lock }
        .next (r.1.setSill ch (u.next 1))

/-- Gather the lanes of a tagged write (R400). -/
def gatherLine (st : Option Stats) (bf : Bool) (v : Desc) : Option Stats :=
  let t : ET := if bf then .bf16 else .f32
  let w := t.bits
  (rangeFrom 0 (512 / w)).foldl (fun st i => gatherOpt st t (v.extractLsb' (w * i) w).toNat) st

/-- SILL_WR (R394, R400). -/
def execSillWr (ch : Nat) (s : State) : Result :=
  match s.sillEntry ch 3 with
  | none => s.stay
  | some (u, e) =>
    match nth? u.granules u.pass with
    | none => s.stay
    | some g =>
      match s.sillAccess ch g.1 (64 * eb e 1 0) 64 .write true with
      | .stop s => .next s
      | .wait s => .next s
      | .ok s l =>
        let u := { u with granules := (s.sill ch).granules, locs := (s.sill ch).locs, dropped := (s.sill ch).dropped, asked := none }
        let s := s.writeLoc l (leBytes 64 u.wb.toNat)
        let u := { u with
          lock := if eb e 2 2 = 1 then none else u.lock
          stats := if eb e 3 3 = 1 then gatherLine u.stats (eb e 4 4 = 1) u.wb else u.stats }
        .next (s.setSill ch (u.next 1))

/-- SILL_LDS (R394): 4 bytes, class 0; it lasts until the data lands. -/
def execSillLds (ch : Nat) (s : State) : Result :=
  match s.sillEntry ch 7 with
  | none => s.stay
  | some (u, e) =>
    match s.sillAccess ch (ttLadr u.header (eb e 5 4)) 0 4 .home false with
    | .stop s => .next s
    | .wait s => .next s
    | .ok s l =>
      let r := s.readLoc l 4
      let u := { u with granules := (s.sill ch).granules, locs := (s.sill ch).locs, dropped := (s.sill ch).dropped, asked := none }
      let u := { u with sr := u.sr.put (eb e 3 0) (BitVec.ofNat 32 (leNat r.2)) }
      .next (r.1.setSill ch { u.next 0 with tick := r.1.sillNow u + 1 })

/-! ## Gates -/

/-- When a channel was last refreshed, at a tick (R394): while it holds, every 3900 ticks, without delay. -/
def Sill.refreshedBy (u : Sill) (now : Nat) : Nat :=
  if u.st = .holding then u.lastRefresh + (now - u.lastRefresh) / 3900 * 3900 else u.lastRefresh

/-- A gate reads its flag (R396): met, the next entry follows on the next tick; not met, the channel holds. -/
def State.sillGate (s : State) (ch : Nat) (u : Sill) (e : Word) : Result :=
  let k := eb e 1 0
  match s.sillAccess ch (ttFlag u.header k) 0 8 .home false with
  | .stop s => .next s
  | .wait s => .next s
  | .ok s l =>
    let r := s.readLoc l 8
    let v := leNat r.2
    let u := { u with granules := (s.sill ch).granules, locs := (s.sill ch).locs, dropped := (s.sill ch).dropped, asked := none }
    if ttFval u.header k ≤ v then
      .next (r.1.setSill ch { u.next 0 with
        st := .running, gp := BitVec.ofNat 32 v, tick := r.1.sillNow u + 1, lastRefresh := u.refreshedBy (r.1.sillNow u) })
    else
      .next (r.1.setSill ch { u with st := .holding, holdSince := if u.st = .holding then u.holdSince else r.1.timestamp })

/-- SILL_GATE (R396): with FIRST it takes no tick in any pass but pass 0. -/
def execSillGate (ch : Nat) (s : State) : Result :=
  match s.sillEntry ch 6 with
  | none => s.stay
  | some (u, e) => if eb e 4 4 = 1 && u.pass != 0 then .next (s.setSill ch (u.next 0)) else s.sillGate ch u e

/-- SILL_GATE_REREAD (R396). -/
def execSillGateReread (ch : Nat) (s : State) : Result :=
  match s.sills.find? ch with
  | none => s.stay
  | some u =>
    if u.st != .holding then s.stay
    else match nth? u.entries u.entry with
      | some e => s.sillGate ch u e
      | none => s.stay

/-- SILL_GATE_TIMEOUT (R397, R398): the channel has held at one gate for longer than the captured TMO. -/
def execSillGateTimeout (ch : Nat) (s : State) : Result :=
  match s.sills.find? ch with
  | none => s.stay
  | some u =>
    if u.st = .holding && u.gto != 0 && decide (u.holdSince + 1000 * u.gto < s.timestamp) then .next (s.stopSill ch 0x1D 0)
    else s.stay

/-- SILL_REFRESH_INSERT (R394): 60 ticks at an entry boundary; none while the channel holds. -/
def execSillRefreshInsert (ch : Nat) (s : State) : Result :=
  match s.sills.find? ch with
  | none => s.stay
  | some u =>
    if u.st = .running && !u.doneOwed && decide (u.lastRefresh + 3900 ≤ u.tick) then
      .next (s.setSill ch { u with tick := u.tick + 60, lastRefresh := u.tick + 60 })
    else if u.st = .holding && decide (u.lastRefresh + 3900 ≤ s.sillNow u) then
      .next (s.setSill ch { u with lastRefresh := s.sillNow u })
    else s.stay

/-! ## Runs -/

/-- A sweep begins (R395, R400): SCRIBE is bound, and pass 0 follows; without granules the DONE add is owed. -/
def State.beginSweep (s : State) (ch : Nat) (u : Sill) : Result :=
  let u := { u with pass := 0, entry := 0, lock := none, stats := none, st := .running }
  if u.granules.isEmpty then .next (s.setSill ch { u with doneOwed := true })
  else if ttScribe u.header = 0 then .next (s.setSill ch u)
  else
    let va := BitVec.ofNat 64 (ttScribe u.header)
    match s.bindRecord homeBay u.bent (.sill ch) va with
    | .fault code => .next (s.stopSill ch code va)
    | .stall => s.stay
    | .silent => (match u.asked with
      | none => .next (s.setSill ch { s.sill ch with asked := some s.elapsed })
      | some t => if s.elapsed ≥ t + 100000 then .next (s.stopSill ch 0x1C va) else s.stay)
    | .ok s st => .next (s.setSill ch { u with stats := some st, asked := none })

/-- SILL_RUN_START (R394): the start timestamp has come, and the SILL.GO that armed the channel has completed. -/
def execSillRunStart (ch : Nat) (s : State) : Result :=
  match s.sills.find? ch with
  | none => s.stay
  | some u =>
    if u.st != .armed || decide (s.timestamp < u.start) || (s.core u.core).journal.any (fun c => c.seq = u.seq && c.peg = u.peg) then s.stay
    else
      let u := { u with
        sr := (rangeFrom 0 16).foldl (fun m k => m.put k (BitVec.ofNat 32 (ttSr u.header k))) [], lm := [], tick := 0
        lastRefresh := 0, rdFlight := []
        add := { u.add with flight := [] }, cmp := { u.cmp with flight := [] }, sfn := { u.sfn with flight := [] } }
      s.beginSweep ch u

/-- The DONE add (R395): a non-merge atomic add of 1 that waits for the channel's merge; then done. -/
def State.sillDone (s : State) (ch : Nat) (u : Sill) : Result :=
  let done := ttDone u.header
  if s.recordMerges.any (fun m => decide (m.agent = .sill ch) && !m.lost) then s.stay
  else if done = 0 then .next (s.setSill ch { u with st := .done, doneOwed := false, stopReq := false })
  else match s.sillAccess ch done 0 8 .both false with
    | .stop s => .next s
    | .wait s => .next s
    | .ok s l =>
      let r := s.readLoc l 8
      let s := r.1.writeLoc l (leBytes 8 (leNat r.2 + 1))
      let u := s.sill ch
      .next (s.setSill ch { u with st := .done, doneOwed := false, stopReq := false })

/-- The statistics of a sweep merge (R395, R400); a merge that fails its checks stops the channel. -/
def State.sweepMerge (s : State) (ch : Nat) (u : Sill) : Except Nat State :=
  match u.stats with
  | none => .ok s
  | some st => s.issueMerge homeBay u.bent (.sill ch) u.peg none 0 (BitVec.ofNat 64 (ttScribe u.header)) st

/-- SILL_PASS_END (R395): the end of a pass, of a sweep, or the DONE add that is owed. -/
def execSillPassEnd (ch : Nat) (s : State) : Result :=
  match s.sills.find? ch with
  | none => s.stay
  | some u =>
    if u.st != .running then s.stay
    else if u.doneOwed then s.sillDone ch u
    else if decide (u.entry < u.entries.length) || decide (s.timestamp < u.start + u.tick) then s.stay
    else if u.pass + 1 < u.granules.length then
      if u.stopReq then .next (s.setSill ch u.stopping)
      else .next (s.setSill ch { u with pass := u.pass + 1, entry := 0, lock := none })
    else match s.sweepMerge ch u with
      | .error code => .next (s.stopSill ch code (BitVec.ofNat 64 (ttScribe u.header)))
      | .ok s =>
        -- the sweep's statistics have merged once, however long its successor waits to bind
        let u := { u with stats := none }
        if ttLoop u.header && !u.stopReq then (s.setSill ch u).beginSweep ch u
        else .next (s.setSill ch { u with lock := none, stats := none, doneOwed := true })

end Sys2Proof.Machine
end

