-- ==== Sys2Proof/Machine/Engine.lean ====
section
/-! DEFINITION. Commands in their queues (R182 to R187, R191 to R193, R199, R200, R204, R209, R211): start with its reservation and checks,
elements, completion. -/

namespace Sys2Proof.Machine

/-! ## Allocation and bank formats -/

/-- The range that SALLOC or SFREE names, inside its space. -/
def rangeUnits (sp : LocalSpace) (lo n : Nat) : List Nat := unitsOf sp lo (min (lo + n) (spaceSize sp) - lo)

/-- Whether two ranges overlap. -/
def rangesMeet (a n b m : Nat) : Bool := decide (a < b + m) && decide (b < a + n)

/-- SALLOC (R193). -/
def Core.sallocCmd (k : Core) (c : Cmd) (sp : LocalSpace) : Except Nat Core :=
  let lo := c.xa.toNat
  let n := c.xb.toNat
  let clash (a : Alloc) : Bool :=
    decide (a.space = sp) && rangesMeet a.base a.len lo n && (!(sp = .acc) || decide (a.bent = c.bent))
  if lo % allocUnit sp ≠ 0 || n % allocUnit sp ≠ 0 || n = 0 || spaceSize sp < lo + n || k.allocs.any clash || decide (64 ≤ k.allocs.length) then
    .error 0x09
  else .ok { k with allocs := k.allocs ++ [{ space := sp, base := lo, len := n, peg := c.peg, bent := c.bent }] }

/-- SFREE (R193, R370). -/
def Core.sfreeCmd (k : Core) (c : Cmd) (sp : LocalSpace) : Except Nat Core :=
  let lo := c.xa.toNat
  let n := c.xb.toNat
  let bad := lo % allocUnit sp ≠ 0 || n % allocUnit sp ≠ 0 || n = 0 || spaceSize sp < lo + n
  match List.find? (fun (a : Alloc) => decide (a.space = sp) && a.base = lo && a.len = n && decide (a.peg = c.peg)) k.allocs with
  | none => .error 0x09
  | some a =>
    if bad then .error 0x09
    else if sp = .wb && (rangeUnits .wb lo n).any (fun m => k.seated m) then .error 0x17
    else .ok (k.freeAlloc a)

/-- SBANK (R93, R199). -/
def Core.sbankCmd (k : Core) (c : Cmd) (b : Nat) : Except Nat Core :=
  let f := c.xa.toNat % 2 ^ 9
  let et := ET.ofCode (f % 16)
  let gs := bitsOf f 5 4
  let packed := et = .q4 || et = .q3
  if (gs != 0 && !packed && !(et = .i8)) || (gs = 0 && packed) || !k.holdsRange .srf c.bent (0x20000 * b) (0x20000 * (b + 1)) then
    .error 0x09
  else .ok { k with srfFmt := k.srfFmt.put b (BitVec.ofNat 64 f) }

/-- The one element of a command that acts on its core at once (R193, R199, R200, R204); none of another command. -/
def Core.adminCmd (k : Core) (c : Cmd) : Except Nat Core :=
  match c.op with
  | .salloc sp => k.sallocCmd c sp
  | .sfree sp => k.sfreeCmd c sp
  | .sbank b => k.sbankCmd c b.toNat
  | .seat bwd => k.seatCmd c bwd
  | .unseat => k.unseatCmd c
  | .finSet => k.finSetCmd c
  | _ => .ok k

/-- Commands of one element that acts on the core itself (R211). -/
def CmdOp.admin : CmdOp → Bool
  | .salloc _ | .sfree _ | .sbank _ | .seat _ | .unseat | .finSet => true
  | _ => false

/-- The data commands (R194 to R198). -/
def CmdOp.data : CmdOp → Bool
  | .sld _ _ | .sst _ | .sgth | .ssct _ | .sred | .scpy => true
  | _ => false

/-! ## Reservations -/

/-- The reservation set of an entry (R187). -/
def State.claimsOf (s : State) (core : Nat) (c : Cmd) : List Claim :=
  let writes (sp : LocalSpace) (us : List Nat) : List Claim := us.map (fun u => { space := sp, unitNo := u, write := true })
  let mac : List Claim := writes .wb ((Dsc.parse c.da 0).macros.filter (fun m => decide (m < 32)))
  match c.op with
  | .salloc sp | .sfree sp => writes sp (rangeUnits sp c.xa.toNat c.xb.toNat)
  | .sbank b => writes .srf [b.toNat]
  | .seat _ | .unseat => mac
  | .krun => c.launch.claims
  | .jigGo | .jigRev => (s.jig core ((s.core core).withFin c)).claims
  | .finSet | .coll | .collAbt | .sillLoad | .sillGo => []
  | _ => (s.job core c).claims

/-- Two claims of one unit, one of them writing (R26, R187). -/
def Claim.conflicts (a b : Claim) : Bool := decide (a.space = b.space) && decide (a.unitNo = b.unitNo) && (a.write || b.write)

def claimsConflict (a b : List Claim) : Bool := a.any (fun x => b.any x.conflicts)

/-- Whether the wait of an entry at the head of its queue is met (R184). -/
def Core.waitMet (k : Core) (c : Cmd) : Bool := c.wok || c.ws.wsem = 255 || decide (c.ws.wthr.toNat ≤ k.sem c.ws.wsem.toNat)

/-- Every queue of a core. -/
def allQueues : List Queue := [.load, .store, .gather, .reduce, .matrix, .launcher, .coll, .sill, .abort]

/-- Whether an earlier-journalled head waits for a set that conflicts (R187). A KRUN whose block is still to be read might name any. -/
def State.earlierWaits (s : State) (core : Nat) (c : Cmd) (cl : List Claim) : Bool :=
  let k := s.core core
  !cl.isEmpty && allQueues.any (fun q => match k.head q with
    | none => false
    | some d => d.st = .queued && seqBefore k.jnext d.seq c.seq && k.waitMet d && s.mayRun core d &&
        (if d.op = .krun && d.block.isEmpty then true else claimsConflict (s.claimsOf core d) cl))

/-- Whether a set may be taken now (R187). -/
def State.granted (s : State) (core : Nat) (c : Cmd) (cl : List Claim) : Bool :=
  !((s.core core).journal.any (fun d => d.held && !(decide (d.seq = c.seq)) && claimsConflict d.claims cl)) && !s.earlierWaits core c cl

/-- Whether the issuing peg's earlier accesses have performed (R294). -/
def State.issueDone (s : State) (c : Cmd) : Bool :=
  !s.pending.any (fun a => decide (a.agent = .peg c.peg) && decide (a.no < c.no) && !a.lost)

/-! ## Start -/

/-- Store an entry. -/
def State.putCmd (s : State) (core : Nat) (c : Cmd) : State := s.setCore core ((s.core core).setEntry c)

/-- An access of an entry that a silent package holds (R403): asked, then cause 0x1C. -/
def State.cmdSilent (s : State) (core : Nat) (c : Cmd) (va : Word) (elem : Nat) (late : List (Loc × List Byte)) : Result :=
  match c.asked with
  | none => .next (s.putCmd core { c with asked := some s.elapsed })
  | some t =>
    if s.elapsed < t + 100000 then s.stay
    else .next ((s.stopCmd core { c with asked := none } 0x1C elem va).sendLate (c.issuer core (.queue core c.op.queue)) late)

/-- The rest of a start, from what its checks came to. -/
def Started.finish (r : Started) (s : State) (core : Nat) (c : Cmd) : Result :=
  match r with
  | .stall => s.stay
  | .silent va => s.cmdSilent core c va 0 []
  | .fault code addr c => .next (s.stopCmd core { c with asked := none } code 0 addr)
  | .go s c => .next (s.putCmd core { c with ready := true, asked := none })

/-- Operand checks and element 0's reads (R191). -/
def State.cmdChecks (s : State) (core : Nat) (c : Cmd) : Started :=
  match c.op with
  | .krun => match s.launchCheck core c with
    | some code => .fault code 0 { c with block := [] }
    | none => .go s c
  | .coll => s.startColl core c
  | .collAbt => s.startAbort core c
  | .sillLoad => s.startSillLoad core c
  | .sillGo => s.startSillGo core c
  | _ => if c.op.data then s.startData core c else .go s c

/-- An entry with its reservation runs: its checks follow; a jig run's wait for JIG_RUN_START. -/
def State.runCmd (s : State) (core : Nat) (c : Cmd) : Result :=
  if c.ready || c.op.isJig then .next (s.putCmd core c) else (s.cmdChecks core c).finish (s.putCmd core c) core c

/-- A waiting head whose wait is met takes its reservation, if it may (R187). -/
def State.reserve (s : State) (core : Nat) (c : Cmd) : Result :=
  let c := { c with wok := true }
  if c.held then s.runCmd core { c with st := .running }
  else
    let cl := s.claimsOf core c
    if s.granted core c cl then s.runCmd core { c with st := .running, held := true, claims := cl }
    else .next (s.putCmd core c)

/-- Whether a COLL.ABT journalled before an entry is incomplete: it holds the COLLs behind it (R22). -/
def Core.abtBefore (k : Core) (c : Cmd) : Bool := k.journal.any (fun d => d.op = .collAbt && decide (d.no < c.no))

/-- COMMAND_START (R184, R187, R191): the head of a queue, or a running entry whose first reads still wait. A KRUN reads its launch block
first, since its reservation comes from it. -/
def execCommandStart (core : Nat) (q : Queue) (s : State) : Result :=
  let k := s.core core
  match k.head q with
  | none => s.stay
  | some c =>
    if !s.mayRun core c then s.stay
    else if c.st = .running && (c.ready || c.op.isJig) then s.stay
    else if c.op = .coll && (k.abtBefore c || decide (16 ≤ s.roundsAt (s.bayOf core))) && !c.ready then s.stay
    else if c.st = .running then s.runCmd core c
    else if c.st = .stopped || !k.waitMet c || !s.issueDone c then s.stay
    else if c.op = .krun && c.block.isEmpty then
      match s.readLaunch core c with
      | .stall => s.stay
      | .silent va => s.cmdSilent core { c with wok := true } va 0 []
      | .fault code addr c => .next (s.stopCmd core { c with wok := true, asked := none } code 0 addr)
      | .go s c =>
        let c := { c with wok := true, asked := none }
        if c.launch.bad then .next (s.stopCmd core { c with block := [] } 0x09 0 0) else s.reserve core c
    else s.reserve core c

/-! ## Elements -/

/-- The number of elements of an entry (R211). -/
def State.cmdTotal (s : State) (core : Nat) (c : Cmd) : Nat :=
  match c.op with
  | .krun => 1
  | .jigGo | .jigRev => (s.jig core c).total
  | .coll => c.coll.steps
  | .collAbt => c.coll.members.length
  | .sillLoad | .sillGo => c.chCount
  | _ => if c.op.admin then 1 else (s.job core c).total

/-- The next element of an entry. -/
def State.cmdElem (s : State) (core : Nat) (c : Cmd) : Elem Done :=
  match c.op with
  | .coll => s.collElemStep core c
  | .collAbt => s.abortElem c
  | .sillLoad => s.sillLoadElem c
  | .sillGo => s.sillGoElem core c
  | _ =>
    if c.op.data then s.dataElem core c
    else match (s.core core).adminCmd c with
      | .error code => .fault code 0
      | .ok k => .ok (s.setCore core k, c, c.progress + 1)

/-- What a trapping element leaves in its entry: an element that overflowed is not counted again on replay (R195, R211). -/
def Cmd.atFault (c : Cmd) (code : Nat) : Cmd :=
  if c.op.data && code = 0x0D then { c with ovf := min (c.ovf + 1) (2 ^ 32 - 1), counted := some c.progress } else c

/-- Whether a turn that leaves accesses pending reads a source element ahead of its turn (R186), by a free value. -/
def State.aheadTurn (s : State) : Bool := s.defer && (Config.freeWord s.free).getLsbD 0

/-- COMMAND_ELEMENT (R191, R192, R209): the next element of a running entry performs whole, or the entry stops at it. -/
def execCommandElement (core : Nat) (q : Queue) (s : State) : Result :=
  match (s.core core).head q with
  | none => s.stay
  | some c =>
    if c.st != .running || !c.ready || c.op.isJig || c.op = .krun || !s.mayRun core c || decide (s.cmdTotal core c ≤ c.progress) then s.stay
    else if s.aheadTurn && c.op.data then
      let w := Config.freeWord s.free
      let r := { s with free := s.free + 1 }.readAhead core c (w.toNat / 8) (w.toNat / 2 % 4)
      .next (r.1.putCmd core r.2)
    else match s.cmdElem core c with
      | .ok (s, c, n) => .next (s.putCmd core { c with progress := n, asked := none, ahead := c.ahead.filter (fun e => decide (4 * n ≤ e.1)) })
      | .fault code addr =>
        if s.unperformed (.queue core q) c.no then s.stay
        else .next (s.stopCmd core { c.atFault code with asked := none } code c.progress addr)
      | .firstUse w => .next (s.firstUseCmd core c w)
      | .stall => s.stay
      | .silent va late => s.cmdSilent core c va c.progress late

/-! ## Completion -/

/-- The merge that a command owes (R323, R327): its record and its statistics. -/
def Cmd.owedMerge (c : Cmd) : Option (Word × Stats) :=
  let rec_ := match c.op with
    | .jigGo | .jigRev => c.jreg 0x18
    | .coll => c.coll.scribe
    | _ => (Dsc.parse c.da 0).scribe
  if c.merged then none else c.stats.map (fun st => (BitVec.ofNat 64 rec_, st))

/-- Issue the merge of an entry that has performed its last element (R185, R327); a failing check stops it at N. -/
def State.mergeCmd (s : State) (core : Nat) (c : Cmd) (k : State → Cmd → Result) : Result :=
  match c.owedMerge with
  | none => k s c
  | some (va, st) =>
    match s.issueMerge (s.bayOf core) c.bent (.queue core c.op.queue) c.peg (some c.no) c.cls va st with
    | .error code => .next (s.stopCmd core c code c.progress va)
    | .ok s => let c := { c with merged := true }
      k (s.putCmd core c) c

/-- The merges of a halted context (R327), in the order of its outputs; a failing one stops the KRUN and stays owed. -/
def State.mergeOwed (s : State) (core : Nat) (c : Cmd) : List (Nat × Stats) → Result
  | [] => .next (s.complete core c true)
  | (va, st) :: t =>
    let w := BitVec.ofNat 64 va
    match s.issueMerge (s.bayOf core) c.bent (.context (c.ctx.getD 0)) c.peg (some c.no) 0 w st with
    | .error code => .next (s.stopCmd core { c with owed := (va, st) :: t } code 1 w)
    | .ok s => State.mergeOwed s core c t

/-- The oldest KRUN of a core (R22). -/
def Core.firstKrun (k : Core) : Option Cmd := List.find? (fun (c : Cmd) => decide (c.op = .krun)) k.journal

/-- What the last part of a completion comes to. -/
def Elem.close (r : Elem State) (s : State) (core : Nat) (c : Cmd) : Result :=
  match r with
  | .ok s => .next (s.complete core c true)
  | .fault code addr => .next (s.stopCmd core c code c.progress addr)
  | .firstUse _ | .stall => s.stay
  | .silent va late => s.cmdSilent core c va c.progress late

/-- The last part of a COLL (R205): its FLAG write; a failed merge that the write waits for is given up with the trap, so a replay does not wait for it
again (R403). -/
def State.closeColl (s : State) (core : Nat) (c : Cmd) : Result :=
  let r := s.collFlag core c
  match r, s.ownMerge c with
  | .fault _ _, some m => r.close (s.loseMerges c.peg m.va) core c
  | _, _ => r.close s core c

/-- The completion of an entry that has performed its last element, by command (R185, R195, R203, R205, R206). -/
def State.finishCmd (s : State) (core : Nat) (c : Cmd) : Result :=
  match c.op with
  | .sst _ => (match s.scaleOut core c with
    | .ok s => s.mergeCmd core { c with scaled := true } (fun s c => .next (s.complete core c true))
    | r => r.close s core c)
  | .coll => if c.coll.count = 0 then s.closeColl core c else s.mergeCmd core c (fun s c => s.closeColl core c)
  | .collAbt => .next ((s.abortDone core c).complete core c true)
  | .sillGo =>
    if s.goLate c then .next ((s.disarm c).stopCmd core c 0x09 0 0)
    else if s.stopWaits c then s.stay
    else .next (s.complete core c true)
  | _ => s.mergeCmd core c (fun s c => .next (s.complete core c true))

/-- COMMAND_COMPLETE (R185, R22). -/
def execCommandComplete (core : Nat) (q : Queue) (s : State) : Result :=
  let k := s.core core
  match q with
  | .launcher =>
    (match k.firstKrun with
    | none => s.stay
    | some c =>
      if c.st != .running || !c.halted || !s.mayRun core c then s.stay else s.mergeOwed core c c.owed)
  | _ =>
    match k.head q with
    | none => s.stay
    | some c =>
      if c.st != .running || !c.ready || !s.mayRun core c || decide (c.progress < s.cmdTotal core c) || s.unperformed (.queue core q) c.no then s.stay
      else s.finishCmd core c

end Sys2Proof.Machine
end

