-- ==== Sys2Proof/Machine/Frames.lean ====
section
/-! DEFINITION. Save areas (R365, R366), the handover of accumulator windows by firmware (R368, R369), and what a pre-emption saves of a
core and a restore puts back (R30, R31, R210, R365, R371). -/

namespace Sys2Proof.Machine

/-! ## The save area -/

/-- Firmware's accesses to save areas. -/
def State.firmware (s : State) : Agent := .remote s.mgmt.config.pkg

/-- Read `n` bytes at an offset of a bent's save area under its key (R366, R369); none where a check of R135 fails. -/
def State.saveGet (s : State) (b off n : Nat) : Option (State × List Byte) :=
  match s.bents.find? b with
  | none => none
  | some r => match s.gRead homeBay (Issuer.of s.firmware b) (r.save + BitVec.ofNat 64 off) n with
    | .ok s d => some (s, d)
    | _ => none

/-- Write bytes at an offset of a bent's save area under its key; none where a check fails. -/
def State.savePut (s : State) (b off : Nat) (d : List Byte) : Option State :=
  match s.bents.find? b with
  | none => none
  | some r => match s.gWrite homeBay (Issuer.of s.firmware b) (r.save + BitVec.ofNat 64 off) d with
    | .ok s _ => some s
    | _ => none

/-- The header of a save area (R366). -/
structure SaveHeader where
  npf : Nat
  ncf : Nat
  nas : Nat
  pfo : Nat
  cfo : Nat
  afo : Nat
  ato : Nat
  deriving DecidableEq, Repr

/-- Read the header of a bent's save area. -/
def State.saveHeader (s : State) (b : Nat) : Option (State × SaveHeader) :=
  (s.saveGet b 0 0x30).map (fun r =>
    (r.1, { npf := fieldN r.2 0 4, ncf := fieldN r.2 4 4, nas := fieldN r.2 8 4, pfo := fieldN r.2 0x10 8, cfo := fieldN r.2 0x18 8
            afo := fieldN r.2 0x20 8, ato := fieldN r.2 0x28 8 }))

/-- The frames in use of a bent's save area (R366): those of every bent of its tree with the same SAVE, which children may inherit (R336). -/
def State.framesUsed (s : State) (b : Nat) (f : Bent → AMap Unit) : AMap Unit :=
  match s.bents.find? b with
  | none => []
  | some r => s.bents.foldl (fun (m : AMap Unit) e =>
      if e.2.save = r.save && s.root e.1 = s.root b then (f e.2).foldl (fun (m : AMap Unit) u => m.put u.1 ()) m else m) []

/-- The lowest frame of `n` that is not in use. -/
def freeFrame (used : AMap Unit) (n : Nat) : Option Nat :=
  List.find? (fun i => !AMap.has used i) ((rangeFrom 0 (used.length + 1)).filter (fun i => decide (i < n)))

/-! ## Spill slots -/

/-- The tag of a spill slot (R366). -/
def spillTag (core w : Nat) : Nat := 2 ^ 63 + core % 2 ^ 11 * 2 ^ 32 + w % 2 ^ 8

/-- The slots of a save area from `i` on, at most `n`, searched for one whose tag passes a test: none where a tag cannot be read, some
none where no slot passes. -/
def State.findSlot (s : State) (b ato : Nat) (test : Nat → Bool) : Nat → Nat → Option (Option Nat)
  | 0, _ => some none
  | n + 1, i =>
    match s.saveGet b (ato + 8 * i) 8 with
    | none => none
    | some r => if test (leNat r.2) then some (some i) else State.findSlot s b ato test n (i + 1)

/-- The 8-byte parts of `n` bytes of a save area, checked for bent `b` but for poison, which firmware carries (R426). -/
def State.areaParts (s : State) (b off n : Nat) (need : Need) : Option (List (Loc × Nat)) :=
  match s.bents.find? b with
  | none => none
  | some r =>
    match s.ctxParts homeBay b need (unitParts n (r.save.toNat + off) n) with
    | .error _ => none
    | .ok ls => if ls.any (fun p => !(s.answer p.1.pa p.2 = .here) || s.lockedOut p.1.pa p.2) then none else some ls

/-- Write bytes at an offset of a bent's save area with the poison of their 8-byte units (R426); none where a check of R135 fails. -/
def State.saveMarked (s : State) (b off : Nat) (d : List Byte) (bad : Nat → Bool) : Option State :=
  (s.areaParts b off d.length .write).map (fun ls =>
    let s := s.writeParts (Issuer.of s.firmware b) homeBay 0 ls d
    { s with poison := (indexed 0 ls).foldl (fun (p : AMap Unit) e => if bad e.1 then p.put (e.2.1.pa / 8) () else p) s.poison })

/-- Spill a window into a free slot of its owner (R369 (1), (3)): none where the owner's save area cannot be used or has no free slot. Unit `i` of the
slot holds elements 2i and 2i + 1. -/
def State.spillWindow (s : State) (core w owner : Nat) : Option State :=
  match s.saveHeader owner with
  | none => none
  | some (s, h) =>
    match s.findSlot owner h.ato (fun t => decide (t < 2 ^ 63)) h.nas 0 with
    | some (some i) =>
      let k := s.core core
      ((s.saveMarked owner (h.afo + 4096 * i) (k.readBuf .acc (4096 * w) 4096)
        (fun u => k.accPoison.has (1024 * w + 2 * u) || k.accPoison.has (1024 * w + 2 * u + 1))).bind
          (fun s => s.savePut owner (h.ato + 8 * i) (leBytes 8 (spillTag core w)))).map
        (fun s => s.modBent owner (fun r => { r with spills := r.spills.put (256 * core + w) i }))
    | _ => none

/-- Spill the windows of a list (R371 (1)): none where one finds no slot. -/
def State.spillAll (s : State) (core b : Nat) : List Nat → Option State
  | [] => some s
  | w :: t => (s.spillWindow core w b).bind (fun s => State.spillAll s core b t)

/-- Marks of a window's elements for the poisoned parts of a slot. -/
def State.marksOf (s : State) (w : Nat) (ls : List (Nat × Loc × Nat)) : List Nat :=
  (ls.filter (fun e => s.poisoned e.2.1.pa e.2.2)).foldl (fun l e => l ++ [1024 * w + 2 * e.1, 1024 * w + 2 * e.1 + 1]) []

/-- What the toucher's tags hold of a window (R369 (2)). -/
inductive Tagged where
  | none
  | slot (i : Nat) (h : SaveHeader)
  deriving Repr

/-- The slot in which firmware has noted window `w` of a core for its toucher, where its tag names them; a save area that cannot be read holds none. -/
def State.taggedSlot (s : State) (core w b : Nat) : Tagged :=
  match (s.bents.find? b).bind (fun r => r.spills.find? (256 * core + w)), s.saveHeader b with
  | some i, some (s, h) => match s.saveGet b (h.ato + 8 * i) 8 with
    | some (_, d) => if leNat d = spillTag core w then .slot i h else .none
    | none => .none
  | _, _ => .none

/-- Load window `w` of a core for its toucher from the slot of window `w` of core `old`, which is freed, or with +0 (R369 (2), (3), R371); none where the
slot cannot be read. -/
def State.loadWindow (s : State) (core old w b : Nat) : Option State :=
  let own (k : Core) : Core := { k with accOwn := k.accOwn.put w (ownWord b Option.none) }
  match s.taggedSlot old w b with
  | .none => some (s.setCore core (own ((s.core core).clearWindow w)))
  | .slot i h =>
    match s.areaParts b (h.afo + 4096 * i) 4096 .read with
    | none => none
    | some ls =>
      let marks := s.marksOf w (indexed 0 ls)
      let r := s.readParts homeBay ls
      match (r.1.modBent b (fun r => { r with spills := r.spills.erase (256 * old + w) })).savePut b (h.ato + 8 * i) (leBytes 8 0) with
      | none => none
      | some s =>
        let k := (s.core core).clearWindow w
        let k := k.writeBuf .acc (4096 * w) r.2
        let k := { k with accPoison := marks.foldl (fun (m : AMap Unit) e => AMap.put m e ()) k.accPoison }
        some (s.setCore core (own k))

/-- Firmware gives window `w` of a core to bent `b` (R369): the owner spilled, or killed where it cannot be; none where the toucher is
killed instead. -/
def State.handOver (s : State) (core w b : Nat) : State × Bool :=
  let e := (s.core core).ownEntry w
  if !e.getLsbD 31 || ownedBy e b then
    (s.setCore core { s.core core with accOwn := (s.core core).accOwn.put w (ownWord b none) }, true)
  else
    let owner := (e.extractLsb' 0 24).toNat
    let s := if e.getLsbD 32 then s else match s.spillWindow core w owner with
      | some t => t
      | none => s.killBent owner 0x0B 0
    match s.loadWindow core core w b with
    | some t => (t, true)
    | none => (s.killBent b 0x0B 0, false)

/-! ## Saving a core -/

/-- Entries of a table inside ranges. -/
def keepRanges {α : Type} (m : AMap α) (rs : List (Nat × Nat)) : AMap α :=
  m.filter (fun e => rs.any (fun r => decide (r.1 ≤ e.1) && decide (e.1 < r.1 + r.2)))

/-- Entries of a table put over another, inside ranges. -/
def putRanges {α : Type} (m n : AMap α) (rs : List (Nat × Nat)) : AMap α :=
  n.foldl (fun (m : AMap α) e => AMap.put m e.1 e.2) (rs.foldl (fun (m : AMap α) r => eraseRange m r.1 r.2) m)

/-- The ranges of allocations in a space. -/
def allocRanges (as : List Alloc) (sp : LocalSpace) : List (Nat × Nat) :=
  (as.filter (fun a => decide (a.space = sp))).map (fun a => (a.base, a.len))

/-- Ranges in coarser units: divided, rounded outward. -/
def coarser (u : Nat) (rs : List (Nat × Nat)) : List (Nat × Nat) :=
  rs.map (fun r => (r.1 / u, (r.1 + r.2 + u - 1) / u - r.1 / u))

/-- The macros whose first byte lies in WB allocations, as ranges of scale-row bytes (R297). -/
def scaleRanges (as : List Alloc) : List (Nat × Nat) :=
  ((rangeFrom 0 32).filter (fun m => (allocRanges as .wb).any (fun r => decide (r.1 ≤ 0x10000 * m) && decide (0x10000 * m < r.1 + r.2)))).map
    (fun m => (8192 * m, 8192))

/-- The spill slices of a context on a core (R275). -/
def Context.slices (x : Context) : List (Nat × Nat) := x.clusters.map (fun c => (0x2000 * c + 0x800 * x.slot, 0x800))

/-- Move the keys of a context's spill bytes from cluster group `a` to group `b`. -/
def moveSlices (m : ByteMap) (a b : Nat) : ByteMap := m.map (fun e => (e.1 + 0x2000 * b - 0x2000 * a, e.2))

/-- What a pre-empted peg holds on a core (R365). -/
def Core.saveFrame (k : Core) (core id : Nat) : CoreFrame :=
  let as := k.allocs.filter (fun a => decide (a.peg = id))
  let srf := allocRanges as .srf
  let wb := allocRanges as .wb
  let xs := k.ctxs.filter (fun x => decide (x.peg = id))
  { step := devStep, allocs := as, srf := keepRanges k.srf srf, srfPoison := keepRanges k.srfPoison (coarser 8 srf)
    srfFmt := keepRanges k.srfFmt (coarser 0x20000 srf), wb := keepRanges k.wb wb, wbPoison := keepRanges k.wbPoison (coarser 8 wb)
    scaleRows := keepRanges k.scaleRows (scaleRanges as), scalePoison := keepRanges k.scalePoison (coarser 8 (scaleRanges as))
    regions := k.regions.filter (fun r => wb.any (fun e => decide (e.1 ≤ 0x10000 * r.macro0) && decide (0x10000 * r.macro0 < e.1 + e.2)))
    ctxs := xs, spill := keepRanges k.spill ((xs.map Context.slices).flatten)
    cmds := k.journal.filter (fun c => decide (c.peg = id)), finCw := k.finCw, finScale := k.finScale
    jigActive := k.jigActive, jigShadow := k.jigShadow, jigIdx := k.jigIdx, jigSteps := k.jigSteps
    spilled := [], fromCore := core }

/-- The core when the ranges, slots and entries of a pre-empted peg are freed (R365); accumulator windows stay with their owners. -/
def Core.freeFrame (k : Core) (id : Nat) (f : CoreFrame) : Core :=
  { k with
    allocs := k.allocs.filter (fun a => !(decide (a.peg = id))), regions := k.regions.filter (fun r => !f.regions.contains r)
    ctxs := k.ctxs.filter (fun x => !(decide (x.peg = id))), journal := k.journal.filter (fun c => !(decide (c.peg = id))) }

/-! ## Restoring -/

/-- An entry returned to its queue (R210): it waits there for its reservation; a KRUN whose context has started runs on. A SILL.GO arms
every channel again (R211). -/
def Cmd.requeue (c : Cmd) : Cmd :=
  let started := c.op = .krun && (c.ctx.isSome || c.halted)
  { c with
    st := if started then .running else .queued, trap := none, asked := none
    ready := if c.op = .sillGo then false else c.ready, progress := if c.op = .sillGo then 0 else c.progress }

/-- An entry as a restore brings it back (R210, R357): one that its own trap stopped stays stopped. A started context's reservation comes
back with it. -/
def Cmd.restore (c : Cmd) : Cmd :=
  let keep := c.op = .krun && c.ctx.isSome && !c.halted
  let c := if c.trap.isSome then c else c.requeue
  { c with held := keep, asked := none }

/-- Insert an entry at its journal position. -/
def journalIn (next : BitVec 32) (c : Cmd) : List Cmd → List Cmd
  | [] => [c]
  | d :: t => if seqBefore next c.seq d.seq then c :: d :: t else d :: journalIn next c t

/-- Where a frozen context resumes (R31, R371): its slot, in a group of its size, at the lowest free base. -/
def Core.replace (k : Core) (x : Context) : Option (Nat × Nat) :=
  let bases := ((rangeFrom 0 24).map (fun j => 64 * j)).filter (fun b => decide (b + x.vwin ≤ 1536))
  let groups := x.first / x.size :: (rangeFrom 0 (8 / x.size))
  let cands := groups.filterMap (fun g =>
    let cls := rangeFrom (x.size * g) x.size
    if k.slotFree cls x.slot then (List.find? (fun base => k.windowFree cls base x.vwin) bases).map (fun b => (x.size * g, b)) else none)
  nth? cands 0

/-- Put the contexts of a frame back, with their spill slices (R371): none where a slot or window is lacking. One frozen for no trap of
its own goes on. -/
def Core.putCtxs (k : Core) (f : CoreFrame) : List Context → Option Core
  | [] => some k
  | x :: t =>
    match k.replace x with
    | none => none
    | some (first, base) =>
      let y := { x with
        first := first, base := base, frozen := x.trap.isSome || x.accWait.isSome, issuedAt := none }
      let mine := moveSlices (keepRanges f.spill x.slices) x.first first
      Core.putCtxs { k with ctxs := k.ctxs ++ [y], spill := putRanges k.spill mine y.slices } f t

/-- Whether the ranges of a frame are free of other bents' allocations on a core (R371). -/
def Core.rangesFree (k : Core) (b : Nat) (f : CoreFrame) : Bool :=
  !f.allocs.any (fun a => !(a.space = .acc) && k.allocs.any (fun e =>
    decide (e.space = a.space) && decide (e.bent ≠ b) && rangesMeet e.base e.len a.base a.len))

/-- Whether the entries of a frame have room in a core's journal, their numbers free and their contexts' reservations grantable. -/
def Core.entriesFit (k : Core) (f : CoreFrame) : Bool :=
  decide (k.journal.length + f.cmds.length ≤ 256) && decide (k.allocs.length + f.allocs.length ≤ 64) &&
  !f.cmds.any (fun c => k.journal.any (fun d => decide (d.seq = c.seq) || (c.restore.held && d.held && claimsConflict c.claims d.claims)))

/-- Whether a core can take a frame (R371). -/
def Core.fits (k : Core) (b : Nat) (f : CoreFrame) : Bool :=
  k.rangesFree b f && k.entriesFit f && (k.putCtxs f f.ctxs).isSome

/-- A frame put back on a core (R365, R371): buffers, formats, rows, regions, allocations, contexts, entries and the matrix engine. -/
def Core.putFrame (k : Core) (f : CoreFrame) : Core :=
  let srf := allocRanges f.allocs .srf
  let wb := allocRanges f.allocs .wb
  let k := { k with
    allocs := k.allocs ++ f.allocs, srf := putRanges k.srf f.srf srf, srfPoison := putRanges k.srfPoison f.srfPoison (coarser 8 srf)
    srfFmt := putRanges k.srfFmt f.srfFmt (coarser 0x20000 srf), wb := putRanges k.wb f.wb wb
    wbPoison := putRanges k.wbPoison f.wbPoison (coarser 8 wb)
    scaleRows := putRanges k.scaleRows f.scaleRows (scaleRanges f.allocs)
    scalePoison := putRanges k.scalePoison f.scalePoison (coarser 8 (scaleRanges f.allocs)), regions := k.regions ++ f.regions
    finCw := f.finCw, finScale := f.finScale, jigShadow := f.jigShadow }
  let k := if f.cmds.any Cmd.runActive then { k with jigActive := f.jigActive, jigIdx := f.jigIdx, jigSteps := f.jigSteps } else k
  let k := (k.putCtxs f f.ctxs).getD k
  { k with journal := f.cmds.foldl (fun j c => journalIn k.jnext c.restore j) k.journal }

/-- The windows that a migration spilled put into their numbers (R371): each taken under R369, then loaded from its slot. -/
def State.putWindows (s : State) (core b : Nat) : List (Nat × Nat) → State
  | [] => s
  | (old, w) :: t =>
    let r := s.handOver core w b
    if !r.2 then r.1
    else match r.1.loadWindow core old w b with
      | some s => State.putWindows s core b t
      | none => r.1.killBent b 0x0B 0

/-! ## Core frames in memory -/

/-- Bytes of a core frame (R365). -/
def coreFrameSize : Nat := 0x800000

/-- A part of a core frame: its bytes, a multiple of 8, and which of their 8-byte units are poisoned (R426). -/
abbrev FramePart := List Byte × List Nat

/-- Words as a part. -/
def wordPart (l : List Nat) : FramePart := ((l.map (leBytes 8)).flatten, [])

/-- Bytes of a buffer's range as a part, with the poison marks of their units. -/
def bytePart (m : ByteMap) (bad : AMap Unit) (lo n : Nat) : FramePart :=
  (ByteMap.rdN m lo n, (keepRanges bad (coarser 8 [(lo, n)])).map (fun e => e.1 - lo / 8))

/-- A core frame as firmware writes it (R365, log 52): the tag, then the items in their order; what no rule gives a layout, contexts and entries, as free
bytes. -/
def CoreFrame.parts (f : CoreFrame) (free : Nat) : List FramePart :=
  let of_ (sp : LocalSpace) : List (Nat × Nat) := allocRanges f.allocs sp
  let opaque_ (n : Nat) : FramePart := ((rangeFrom 0 n).map (fun i => (Config.freeWord (free + i / 8)).extractLsb' (8 * (i % 8)) 8), [])
  [wordPart [f.step.toNat, (of_ .srf).length, (of_ .wb).length, f.ctxs.length, f.cmds.length]] ++
  ((of_ .srf).map (fun r => [wordPart [r.1, r.2], bytePart f.srf f.srfPoison r.1 r.2,
    wordPart ((unitsOf .srf r.1 r.2).map (fun b => (f.srfFmt.get b 0x0B).toNat))])).flatten ++
  ((of_ .wb).map (fun r => [wordPart [r.1, r.2], bytePart f.wb f.wbPoison r.1 r.2])).flatten ++
  (scaleRanges f.allocs).map (fun r => bytePart f.scaleRows f.scalePoison r.1 r.2) ++
  f.regions.map (fun g => wordPart [g.macro0, g.count, g.k, g.n, g.et, g.gs, if g.bwd then 1 else 0]) ++
  [opaque_ (4096 * f.ctxs.length + 1024 * f.cmds.length)] ++
  [wordPart [f.finCw.toNat, f.finScale.toNat], wordPart ((rangeFrom 0 64).map (fun i => (f.jigShadow.get i 0).toNat)),
    wordPart ((rangeFrom 0 8).map (fun i => (f.jigIdx.get i 0).toNat))]

/-- The parts as one run of bytes with its poisoned units. -/
def joinParts (l : List FramePart) : FramePart :=
  l.foldl (fun (a : FramePart) p => (a.1 ++ p.1, a.2 ++ p.2.map (· + a.1.length / 8))) ([], [])

/-- Save a core frame into the save area (R365, R366): none where a check of R135 fails. -/
def State.saveCore (s : State) (b off : Nat) (f : CoreFrame) : Option State :=
  let p := joinParts (f.parts s.free)
  { s with free := s.free + 512 * f.ctxs.length + 128 * f.cmds.length }.saveMarked b off (p.1.take coreFrameSize) (fun u => p.2.contains u)

/-! ## Peg frames -/

/-- The bytes of a peg frame (R366) up to its reserved part. -/
def pegFrameBytes (k : Core) (coreFrame : Option Nat) : List Byte :=
  let w (v : Word) : List Byte := leBytes 8 v.toNat
  leBytes 4 devStep.toNat ++ leBytes 4 1 ++ (k.x.toList.drop 1).flatMap w ++ k.f.toList.flatMap w ++
  k.d.toList.flatMap (fun v => leBytes 64 v.toNat) ++
  ((rangeFrom 0x020 10 ++ rangeFrom 0x040 4).map (fun i => w ((k.regs.read i).getD 0))).flatten ++
  w k.pc ++ leBytes 8 (if hact k.regs.trapCause then 1 else 0) ++
  leBytes 8 (match coreFrame with
    | some n => n
    | none => 0xFFFFFFFFFFFFFFFF)

/-- State registers as a peg frame gives them back, each with the bits that it holds (R109, R366). -/
def frameRegs (d : List Byte) : PegRegs :=
  let v (i : Nat) : Word := field64 d (0x600 + 8 * i)
  let r := (rangeFrom 0 9).foldl (fun r i => (r.write (0x020 + i) (v i)).getD r) PegRegs.reset
  let r := (r.write 0x041 (v 11)).getD r
  let act : Word := if fieldN d 0x678 8 % 2 = 1 then 0x8000 else 0
  { r with
    klockStat := lowBits (v 9) 25, trapCause := (v 10 &&& 0x70FF) ||| act, trapInfo := v 12, trapAddr := v 13 }

/-- The control core as a peg frame restores it (R29, R366). -/
def Core.ofFrame (k : Core) (d : List Byte) : Core :=
  { k with
    x := Vector.ofFn (fun i => if i.val = 0 then 0 else field64 d (8 * i.val)), f := Vector.ofFn (fun i => field64 d (0x100 + 8 * i.val))
    d := Vector.ofFn (fun i => BitVec.ofNat 512 (fieldN d (0x200 + 64 * i.val) 64)), regs := frameRegs d
    pc := field64 d 0x670 &&& 0x00FFFFFFFFFFFFFC }

/-- The size of a peg frame's defined part. -/
def pegFrameSize : Nat := 0x688

end Sys2Proof.Machine
end

