-- ==== Sys2Proof/Machine/Image.lean ====
section
/-! DEFINITION. Loading kernel images (R377 to R379, R382 to R384). -/

namespace Sys2Proof.Machine

/-! ## Native images -/

def imageMagic : Nat := 0x4B494D47
def vuzenMagic : Nat := 0x565A4631

/-- Bytes of an image space (R375). -/
def imageSpace : Nat := 0x20000

/-- The header of a native image (R377). -/
structure ImageHeader where
  step : Nat
  compat : Bool
  isSealed : Bool
  off : Nat
  len : Nat
  bver : Nat
  nonce : List Byte
  tag : List Byte
  deriving DecidableEq, Repr

/-- Bytes of a start map (R377). -/
def startMapLen (len : Nat) : Nat := (len / 16 + 63) / 64 * 8

/-- The header of a native image, none when it is malformed (R377, R378). -/
def ImageHeader.parse (d : List Byte) : Option ImageHeader :=
  let flags := fieldN d 8 4
  let off := fieldN d 0x0C 4
  let len := fieldN d 0x10 4
  let h : ImageHeader := {
    step := fieldN d 4 4, compat := flags % 2 = 1, isSealed := flags / 2 % 2 = 1, off := off, len := len, bver := fieldN d 0x14 4
    nonce := (d.drop 0x18).take 12, tag := (d.drop 0x30).take 16 }
  let clear (l : List Byte) : Bool := l.all (· == 0)
  if d.length < 64 || fieldN d 0 4 ≠ imageMagic || 4 ≤ flags || off % 16 ≠ 0 || len % 16 ≠ 0 || len < 16 || imageSpace < off + len ||
      !clear ((d.drop 0x24).take 12) || (!h.isSealed && !(clear h.nonce && clear h.tag)) || (h.compat && h.step = 0xB1) ||
      d.length < 64 + len + startMapLen len then none
  else some h

/-- Whether the module runs an image of a stepping (R379). -/
def ImageHeader.steps (h : ImageHeader) : Bool := if h.compat then h.step = 0xA2 else h.step = devStep.toNat

/-! ## Sealing (R384) -/

/-- `n` bytes of a draw of the CTR_DRBG (R418). -/
def drbgDraw (draw n : Nat) : List Byte := (rangeFrom 0 n).map (Config.drbgByte draw)

/-- The key of a seal. -/
def sealKey (step bver : Nat) : BitVec 256 :=
  BitVec.ofNat 256 (leNat (hkdf Config.rootSecret [] ([0x6B, 0x69, 0x6D, 0x67] ++ leBytes 4 step ++ leBytes 4 bver) 32))

/-- The bundles and the start map of an image: its own, or what the seal opens; none where the seal is rejected. -/
def ImageHeader.contents (h : ImageHeader) (d : List Byte) : Option (List Byte) :=
  let body := (d.drop 64).take (h.len + startMapLen h.len)
  if !h.isSealed then some body
  else if h.bver ≠ Config.bundlerVersion.toNat then none
  else gcmOpen (sealKey h.step h.bver) h.nonce (d.take 0x30 ++ leBytes 16 0) body h.tag

/-- The sealed copy of a bundled form. -/
def sealedCopy (off : Nat) (nonce bundles startMap : List Byte) : List Byte :=
  let step := devStep.toNat
  let bver := Config.bundlerVersion.toNat
  let h := leBytes 4 imageMagic ++ leBytes 4 step ++ leBytes 4 2 ++ leBytes 4 off ++ leBytes 4 bundles.length ++ leBytes 4 bver ++
    nonce.take 12 ++ leBytes 12 0
  let sealedBody := gcmSeal (sealKey step bver) (nonce.take 12) (h ++ leBytes 16 0) (bundles ++ startMap)
  let n := bundles.length + startMap.length
  h ++ (sealedBody.drop n).take 16 ++ sealedBody.take n

/-! ## The Vuzen form (R382, R383) -/

/-- The kind of an operand and its index (R382). -/
def vuzenKind (x : Nat) : Nat := x / 2 ^ 28
def vuzenIndex (x : Nat) : Nat := x % 2 ^ 24

/-- Whether an operand kind is one that R382 names, with a legal index. -/
def vuzenOperandOk (x : Nat) : Bool :=
  let kind := vuzenKind x
  decide (kind ≤ 8) && decide (x / 2 ^ 24 % 16 = 0) && (kind != 7 || decide (vuzenIndex x ≤ 2)) && (kind != 5 || decide (vuzenIndex x < 16)) &&
  (kind != 4 || decide (vuzenIndex x < 4))

/-- The byte of SET that describes a stream port, sin0 to sin7 as 0 to 7 and sout0 to sout7 as 8 to 15 (R382). -/
def vuzenPortSet (d : List Byte) (i : Nat) : Nat := fieldN d (0x18 + i) 1

/-- Whether an operand may stand for a source (R382): not a port that pushes, and a port that pops only if it is declared. A record index stands in
branches only. -/
def vuzenSourceOk (d : List Byte) (x : Nat) : Bool :=
  let kind := vuzenKind x
  kind != 8 && (kind != 5 || (decide (vuzenIndex x < 8) && decide (128 ≤ vuzenPortSet d (vuzenIndex x))))

/-- Whether an operand may stand for DST (R382): what a move can write. -/
def vuzenDestOk (d : List Byte) (x : Nat) : Bool :=
  let kind := vuzenKind x
  decide (kind ≤ 4) || (kind = 5 && decide (8 ≤ vuzenIndex x) && decide (128 ≤ vuzenPortSet d (vuzenIndex x)))

/-- The record at an index of a form. -/
def vuzenRecord (d : List Byte) (i : Nat) : List Byte := (d.drop (64 + 32 * i)).take 32

/-- The operation of a record. -/
def vuzenOp (r : List Byte) : KOp :=
  let b := fieldN r 2 1
  { unitNo := fieldN r 0 1, op := fieldN r 1 1, et := ET.ofCode (b % 16), rm := BitVec.ofNat 2 (b / 16), sat := b / 64 % 2 = 1
    w := widthOf (fieldN r 3 1 % 4), lgb := fieldN r 3 1 / 4 % 4 }

/-- Whether a record's operation is legal (R383): a plain move has none. -/
def vuzenOpOk (r : List Byte) : Bool :=
  if fieldN r 0 1 = 14 then fieldN r 1 1 = 0 && fieldN r 2 1 / 16 % 8 = 0 else (vuzenOp r).legal 0 && (vuzenOp r).resultOk

/-- Whether a record is a branch, whose T names the record that it goes to (R261, R382). -/
def vuzenBranches (r : List Byte) : Bool := fieldN r 0 1 = 8 && decide (fieldN r 1 1 < 0x10)

/-- Whether a record breaks a rule of R382 or R383 that its fields show: reserved values, an illegal operation, constants that are not
there, an AFTER that does not point back, a branch to a record without START. -/
def vuzenRecordBad (d : List Byte) (nrec nconst i : Nat) : Bool :=
  let r := vuzenRecord d i
  let unitNo := fieldN r 0 1
  let t := fieldN r 8 4
  let sources := [fieldN r 0x0C 4, fieldN r 0x10 4, fieldN r 0x14 4]
  let ops := fieldN r 4 4 :: t :: sources
  let guard := fieldN r 0x18 4
  let after := fieldN r 0x1C 4
  decide (14 < unitNo) || decide (unitNo = 1) || decide (16 ≤ fieldN r 3 1) || !vuzenOpOk r || ops.any (fun x => !vuzenOperandOk x) ||
  ops.any (fun x => decide (x / 2 ^ 28 = 6) && decide (nconst ≤ x % 2 ^ 24)) ||
  !vuzenDestOk d (fieldN r 4 4) || sources.any (fun x => !vuzenSourceOk d x) ||
  (if vuzenBranches r then
    vuzenKind t != 8 || decide (nrec ≤ vuzenIndex t) || decide (fieldN (vuzenRecord d (vuzenIndex t)) 2 1 < 128)
  else !vuzenSourceOk d t) ||
  decide (guard / 2 ^ 24 % 64 ≠ 0) || (after != 0xFFFFFFFF && decide (i ≤ after))

/-- Whether the header of a form holds a bad value (R382). -/
def vuzenHeaderBad (d : List Byte) : Bool :=
  let nrec := fieldN d 8 4
  let nconst := fieldN d 0x0C 4
  decide (d.length < 64) || decide (fieldN d 4 4 ≠ 1) || decide (nrec = 0) || decide (65536 < nrec) || decide (4096 < nconst) ||
  decide (fieldN d 0x10 4 % 16 ≠ 0) || decide (imageSpace ≤ fieldN d 0x10 4) || !((d.drop 0x28).take 24).all (· == 0) ||
  ((d.drop 0x18).take 16).any (fun b => decide (b.toNat / 16 % 8 ≠ 0)) || decide (d.length < 64 + 32 * nrec + 8 * nconst)

/-- The bundles and start map of a form, none where the bundler refuses it (R383, log 18). -/
def bundleForm (d : List Byte) : Option (List Byte × List Byte) :=
  let nrec := fieldN d 8 4
  let off := fieldN d 0x10 4
  if vuzenHeaderBad d || (rangeFrom 0 nrec).any (vuzenRecordBad d nrec (fieldN d 0x0C 4)) then none
  else match Config.bundle d with
    | none => none
    | some (b, m) =>
      if b.length % 16 ≠ 0 || b.length < 16 || m.length ≠ startMapLen b.length || fieldN d 0x14 4 < b.length || imageSpace < off + b.length then
        none
      else some (b, m)

/-! ## Performing a load -/

/-- Whether a bent has a resident or frozen kernel context (R378), on a core or in a core frame. -/
def State.hasContexts (s : State) (b : Nat) : Bool :=
  s.cores.any (fun e => e.2.ctxs.any (fun x => decide (x.bent = b))) ||
  s.pegs.any (fun e => match e.2.coreFrame with
    | some f => f.ctxs.any (fun x => decide (x.bent = b))
    | none => false)

/-- The granules that a start map marks. -/
def markedGranules (map : List Byte) (n : Nat) : List Nat :=
  (rangeFrom 0 n).filter (fun i => match nth? map (i / 8) with
    | some b => b.getLsbD (i % 8)
    | none => false)

/-- Write an image into a bent's image space (R375, R378): the units that it touches take the key of the bent's slot. -/
def Bent.loaded (r : Bent) (b : Nat) (key : BitVec 512) (off : Nat) (compat : Bool) (bundles map : List Byte) : Bent :=
  let n := bundles.length / 16
  let kept : AMap Unit := r.starts.filter (fun e => !(decide (off / 16 ≤ e.1) && decide (e.1 < off / 16 + n)))
  let units := rangeFrom (off / 32) ((off + bundles.length - 1) / 32 - off / 32 + 1)
  let old := r.imageUnder b (fun _ => key)
  let seen := units.foldl (fun (m : ByteMap) u => ByteMap.wrN m (32 * u) (ByteMap.rdN old (32 * u) 32)) r.image
  { r with
    image := ByteMap.wrN seen off bundles
    imageKey := units.foldl (fun (m : AMap (BitVec 512)) u => m.put u key) r.imageKey
    starts := (markedGranules map n).foldl (fun (m : AMap Unit) i => m.put (off / 16 + i) ()) kept
    parts := { off := off, len := bundles.length, compat := compat } :: r.parts }

/-- An image written into the space of a bent, and the frames that hold its lines refreshed (R378). -/
def State.loadInto (s : State) (b off : Nat) (compat : Bool) (bundles map : List Byte) : State :=
  let key := s.lineKey b
  let s := s.modBent b (fun r => r.loaded b key off compat bundles map)
  { s with cores := s.cores.map (fun e => (e.1, { e.2 with frames := e.2.frames.map (fun f =>
      if f.bent = b && decide (off / 0x400 ≤ f.line) && decide (f.line ≤ (off + bundles.length - 1) / 0x400) then { f with key := key } else f) })) }

/-- The result of a load (R378), with the length of the sealed copy. -/
structure Loaded where
  s : State
  status : Nat
  sealedLen : Nat
  deriving Repr

/-- A native or sealed image (R378). -/
def State.loadNative (s : State) (b : Nat) (d : List Byte) : Loaded :=
  match ImageHeader.parse d with
  | none => ⟨s, 3, 0⟩
  | some h =>
    if !h.steps then ⟨s, 1, 0⟩
    else match h.contents d with
      | none => ⟨s, 2, 0⟩
      | some c =>
        if s.hasContexts b then ⟨s, 5, 0⟩
        else ⟨s.loadInto b h.off h.compat (c.take h.len) (c.drop h.len), 0, 0⟩

/-- A Vuzen form (R378, R383, R384): its sealed copy goes to the output area. -/
def State.loadForm (s : State) (b : Nat) (d : List Byte) (out : Word) (outLen : Nat) : Option Loaded :=
  match bundleForm d with
  | none => some ⟨s, 4, 0⟩
  | some (code, map) =>
    if s.hasContexts b then some ⟨s, 5, 0⟩
    else
      let off := fieldN d 0x10 4
      let nonce := drbgDraw (s.mgmt.draws + 1) 12
      let copy := sealedCopy off nonce code map
      if outLen < copy.length then some ⟨s, 6, 0⟩
      else match s.gWrite homeBay (Issuer.of s.firmware b) out copy with
        | .ok s _ =>
          let s : State := { s with mgmt := { s.mgmt with draws := s.mgmt.draws + 1 } }
          some ⟨s.loadInto b off false code map, 0, copy.length⟩
        | .stall => none
        | .silent _ late => some ⟨s.sendLate (Issuer.of s.firmware b) late, 6, 0⟩
        | .fault _ _ => some ⟨s, 6, 0⟩

end Sys2Proof.Machine
end

