-- ==== Sys2Proof/Machine/Control.lean ====
section
/-! DEFINITION. The control messages (R413, R415 to R420, R427, R430). The byte layout of bodies is PRESUMED (log 27): fields in the order
in which R416 and R417 name them, little-endian, without gaps. -/

namespace Sys2Proof.Machine

/-- DATAGRAM_DROP (R415): a datagram that fails is dropped silently. -/
def execDatagramDrop (_dg : List Byte) (s : State) : Result := s.stay

/-! ## The handshake -/

/-- The body of INIT (R416): encapsulation key, nonce, owner key index, signature. -/
def kemKeyLen : Nat := 1184
def slh128sLen : Nat := 7856
def initLen : Nat := kemKeyLen + 32 + 1 + slh128sLen

/-- A session enters; a seventeenth replaces the oldest (R416). -/
def addSession (l : List Session) (x : Session) : List Session := if l.length < 16 then l ++ [x] else l.drop 1 ++ [x]

/-- The seed of the module's identity key pair (R419), its public key, and its signature over a message. -/
def identitySeed : List Byte := hkdf Config.rootSecret [] [0x69, 0x64, 0x65, 0x6E] 48
def identityKey : List Byte := Config.slhKey identitySeed
def identitySign (m : List Byte) : List Byte := Config.slhSign identitySeed m

/-- INIT (R416): answered with ACCEPT when an owner key of the configuration record signed it. -/
def execInit (dg : List Byte) (s : State) : Result :=
  match Datagram.parse dg with
  | none => s.stay
  | some g =>
    let ek := g.body.take kemKeyLen
    let nonce := (g.body.drop kemKeyLen).take 32
    let index := fieldN g.body (kemKeyLen + 32) 1
    if g.typ ≠ 1 || g.session ≠ 0 || g.body.length ≠ initLen || !s.mgmt.phase.answers 1 then s.stay
    else match nth? s.mgmt.config.ownerKeys index with
      | none => s.stay
      | some key =>
        if !Config.slhVerify key (g.body.take (kemKeyLen + 33)) (g.body.drop (kemKeyLen + 33)) then s.stay
        else
          let draw := s.mgmt.draws + 1
          let enc := Config.kemEncaps draw ek
          let own := drbgDraw draw 32
          let num := s.nextSession
          let part := enc.1 ++ own ++ leBytes 4 num
          let keys := hkdf enc.2 (nonce ++ own) [0x63, 0x74, 0x6C] 64
          let x : Session := {
            num := num, owner := key, seqIn := 0, seqOut := 0, keyIn := BitVec.ofNat 256 (leNat (keys.take 32))
            keyOut := BitVec.ofNat 256 (leNat (keys.drop 32)) }
          let body := part ++ identitySign (dg ++ part)
          .next { s with
            sessions := addSession s.sessions x
            nextSession := if num + 1 < 2 ^ 32 then num + 1 else 1
            mgmt := { s.mgmt with draws := draw }
            outbox := s.outbox ++ [.datagram (ctlHeader 2 0 0 0 body.length ++ body)] }

/-! ## Requests -/

/-- A request that names a bent: the live bent of the session's owner (R416, R418). -/
def State.owned? (s : State) (x : Session) (b : Nat) : Option Bent :=
  match s.bents.find? b with
  | some r => if r.owner = x.owner then some r else none
  | none => none

/-- What a request comes to: it cannot be processed yet, or its answer (R415, R418). -/
inductive Reply where
  | wait
  | answer (s : State) (status : Nat) (body : List Byte)
  deriving Repr

/-- Perform a request of a type (R415): dropped, or answered once. -/
def State.request (s : State) (typ : Nat) (dg : List Byte) (k : State → Session → List Byte → Reply) : Result :=
  match s.openDatagram typ dg with
  | none => s.stay
  | some (x, body) => match k s x body with
    | .wait => s.stay
    | .answer t status b => .next (t.sendOn x typ status b)

/-- Answer with a status alone, nothing changed (R418). -/
def State.refuse (s : State) (status : Nat) : Reply := .answer s status []

/-- KILL_BENT (R163, R417). -/
def State.killBentMsg (s : State) (x : Session) (body : List Byte) : Reply :=
  if body.length ≠ 4 then s.refuse 3
  else match s.owned? x (leNat body) with
    | none => s.refuse 2
    | some _ => .answer (s.drain (leNat body)).reap 0 []

/-- KILL_BENT (R417). -/
def execKillBent (dg : List Byte) (s : State) : Result := s.request 0x11 dg State.killBentMsg

/-! ### Create bent -/

/-- Bytes of a 2 MiB page. -/
def bigPage : Nat := 0x200000

/-- Bytes set aside for the tables of a quota: the level-0 table and a table for each 512 GiB and each GiB (R73, log 19). -/
def tableArea (quota : Nat) : Nat :=
  let n := quota / 2 ^ 30 + quota / 2 ^ 39 + 8
  (2 ^ 20 + 4096 * n + bigPage - 1) / bigPage * bigPage

/-- The numbers i·2^sh that ranges of pages from `lo` to `hi` touch. -/
def touchedSpans (lo hi sh : Nat) : List Nat := rangeFrom (lo / 2 ^ sh) ((hi - 1) / 2 ^ sh - lo / 2 ^ sh + 1)

/-- The entries of the tables that map a quota and the tables themselves (R74, R417): physical address and value of each. `at_` the base
of the tables, followed by the quota pages. -/
def quotaTables (at_ base quota key : Nat) : List (Nat × Nat) :=
  let t := tableArea quota
  let l1 := touchedSpans base (base + quota + t) 39
  let l2 := touchedSpans base (base + quota + t) 30
  let at1 (i : Nat) : Nat := at_ + 2 ^ 20 + 4096 * (i - base / 2 ^ 39)
  let at2 (i : Nat) : Nat := at_ + 2 ^ 20 + 4096 * l1.length + 4096 * (i - base / 2 ^ 30)
  let leaf (va pa bits : Nat) : Nat × Nat := (at2 (va / 2 ^ 30) + 8 * (va / bigPage % 512), key * 2 ^ 52 + pa + bits)
  l1.map (fun i => (at_ + 8 * (i % 2 ^ 17), tableEntry (at1 i))) ++
  l2.map (fun i => (at1 (i / 512) + 8 * (i % 512), tableEntry (at2 i))) ++
  (rangeFrom 0 (quota / bigPage)).map (fun i => leaf (base + bigPage * i) (at_ + t + bigPage * i) 0b1111) ++
  (rangeFrom 0 (t / bigPage)).map (fun i => leaf (base + quota + bigPage * i) (at_ + bigPage * i) 0b0111)

/-- Whether `n` bytes from an address meet no live bent's pages and not the bent table. -/
def State.roomAt (s : State) (pa n : Nat) : Bool :=
  decide (pa % bigPage = 0) && decide (pa + n ≤ s.capacity) &&
  !overlap pa n s.mgmt.bentBase.toNat (256 * (s.mgmt.bentMax + 1)) &&
  s.bents.all (fun e => !overlap pa n e.2.quotaAt e.2.quotaLen)

/-- Where firmware puts `n` bytes of tables and pages (log 19): a free choice where that place is free, else the lowest place that starts where
another bent's end. -/
def State.quotaPlace (s : State) (n : Nat) : Option Nat :=
  let ends := 0 :: ((s.mgmt.bentBase.toNat + 256 * (s.mgmt.bentMax + 1) + bigPage - 1) / bigPage * bigPage) ::
    s.bents.map (fun e => e.2.quotaAt + e.2.quotaLen)
  if s.roomAt (Config.quotaBase s.free) n then some (Config.quotaBase s.free)
  else minNat (ends.filter (fun a => s.roomAt a n))

/-- Set a run of keys of a table to one value. -/
def fillKeys {α : Type} (m : AMap α) (lo n : Nat) (v : α) : AMap α :=
  m.filter (fun e => decide (e.1 < lo)) ++ (rangeFrom lo n).map (fun i => (i, v)) ++ m.filter (fun e => decide (lo + n ≤ e.1))

/-- Clear `n` bytes and hand their units to a key slot. -/
def State.clearUnder (s : State) (slot pa n : Nat) : State :=
  let s := s.closeAccums pa n
  { s with
    mem := s.mem.filter (fun c => !(decide (pa ≤ c.1) && decide (c.1 < pa + n)))
    unitKey := fillKeys s.unitKey (pa / 32) (n / 32) (s.keyOf slot)
    poison := clearPoison s.poison pa n }

/-- Map a quota for a created bent (R417). -/
def State.mapQuota (s : State) (at_ base quota key : Nat) : State :=
  (quotaTables at_ base quota key).foldl (fun (s : State) e =>
    s.writeLoc { pa := e.1, slot := some key, det := false, mw := false, cp := 0 } (leBytes 8 e.2)) (s.clearUnder key at_ (tableArea quota))

/-- A queue pair bound to a bent (R411, R418). -/
def QueuePair.fresh (s : State) (b qpn : Nat) : QueuePair :=
  { bent := b, port := none, key := Config.drbgQpKey qpn s.mgmt.draws, psn := 0, packetsIn := 0, packetsOut := 0, msn := 0, writeAt := 0
    writeLeft := 0, sent := [] }

/-- Queue pairs of both ports (R411). -/
def queuePairs : Nat := 2 * portPairs

/-- The QPNs of a create-bent body. -/
def qpnsOf : Nat → List Byte → List Nat
  | 0, _ => []
  | n + 1, d => leNat (d.take 4) :: qpnsOf n (d.drop 4)

/-- CREATE_BENT (R335, R337, R417, R418). -/
def State.createBentMsg (s : State) (x : Session) (body : List Byte) : Reply :=
  let d := body.take 256
  let quota := fieldN body 256 8
  let base := fieldN body 264 8
  let n := (body.length - 272) / 4
  let qpns := qpnsOf n (body.drop 272)
  let c := { Bent.ofTemplate d with owner := x.owner, parent := none, level := 1 }
  let t := tableArea quota
  if body.length < 272 || (body.length - 272) % 4 ≠ 0 || queuePairs < n then s.refuse 3
  else if c.key = 0 || s.keyTaken c.owner c.key then s.refuse 5
  else if quota % bigPage ≠ 0 || base % bigPage ≠ 0 || 2 ^ 56 < base + quota + t || templateReserved d true || s.badBent c 0 1024 ||
      qpns.any (fun q => decide (2 ^ 24 ≤ q) || AMap.has s.qps q) then s.refuse 3
  else match s.pickBent, s.quotaPlace (t + quota) with
    | some b, some at_ =>
      if queuePairs < s.qps.length + n then s.refuse 1
      else
        let s := s.mapQuota at_ base quota c.key
        let s := s.addBent b { c with ptroot := at_, quotaAt := at_, quotaLen := t + quota }
        let s : State := { s with mgmt := { s.mgmt with draws := s.mgmt.draws + 1 } }
        let s : State := { s with qps := qpns.foldl (fun (m : AMap QueuePair) q => m.put q (QueuePair.fresh s b q)) s.qps }
        .answer s 0 (leBytes 4 b)
    | _, _ => s.refuse 1

/-- CREATE_BENT (R417). -/
def execCreateBent (dg : List Byte) (s : State) : Result := s.request 0x10 dg State.createBentMsg

/-! ### Enqueue peg -/

/-- The bay with the most free pool entries, the lowest on a tie (R343). -/
def State.emptiestBay (s : State) : Nat :=
  (rangeFrom 1 7).foldl (fun (b : Nat) c => if s.poolUsed c < s.poolUsed b then c else b) 0

/-- The instruction caches of the module are acted on as by IFLUSH (R133, R176). -/
def State.flushICaches (s : State) : State := { s with cores := s.cores.map (fun e => (e.1, { e.2 with icache := [] })) }

/-- ENQUEUE_PEG (R133, R164, R343, R413, R417): the writes that it waits for have performed; its result travels in the body. -/
def State.enqueuePegMsg (s : State) (x : Session) (body : List Byte) : Reply :=
  let b := fieldN body 0 4
  let off := fieldN body 4 8
  if body.length ≠ 12 then s.refuse 3
  else match s.owned? x b with
    | none => s.refuse 2
    | some r =>
      if r.stagen < off + 64 || off % 64 ≠ 0 then s.refuse 3
      else
        let addr := r.stage + BitVec.ofNat 64 off
        let done (s : State) (n : Nat) : Reply := .answer s.flushICaches 0 (leBytes 4 n)
        if addr.toNat % 64 ≠ 0 then done s 3
        else match s.gRead homeBay (Issuer.of s.firmware b) addr 64 with
          | .stall => .wait
          | .ok s d => (match s.enqueue b s.emptiestBay addr d with
            | .go s => done s 0
            | .status n => done s n
            | .fault _ => done s 3)
          | _ => done s 3

/-- ENQUEUE_PEG (R417). -/
def execEnqueuePeg (dg : List Byte) (s : State) : Result := s.request 0x12 dg State.enqueuePegMsg

/-! ### Load image -/

/-- LOAD_IMAGE (R378, R417): an image that cannot be read is refused as malformed (log 30). -/
def State.loadImageMsg (s : State) (x : Session) (body : List Byte) : Reply :=
  let b := fieldN body 0 4
  let off := fieldN body 4 8
  let len := fieldN body 12 8
  let outOff := fieldN body 20 8
  let outLen := fieldN body 28 8
  if body.length ≠ 36 then s.refuse 3
  else match s.owned? x b with
    | none => s.refuse 2
    | some r =>
      if r.stagen < off + len || r.stagen < outOff + outLen || overlap off len outOff outLen then s.refuse 3
      else
        let done (l : Loaded) : Reply := .answer l.s 0 (leBytes 4 l.status ++ leBytes 4 l.sealedLen)
        match s.gReadAs homeBay (Issuer.of s.firmware b) .exec (r.stage + BitVec.ofNat 64 off) len with
        | .stall => .wait
        | .ok s d =>
          if fieldN d 0 4 = vuzenMagic then
            match s.loadForm b d (r.stage + BitVec.ofNat 64 outOff) outLen with
            | some l => done l
            | none => .wait
          else if outOff ≠ 0 || outLen ≠ 0 then s.refuse 3
          else done (s.loadNative b d)
        | _ => s.refuse 3

/-- LOAD_IMAGE (R417). -/
def execLoadImage (dg : List Byte) (s : State) : Result := s.request 0x13 dg State.loadImageMsg

/-! ### Key install -/

/-- KEY_INSTALL (R83, R412, R417, R418). -/
def State.keyInstallMsg (s : State) (x : Session) (body : List Byte) : Reply :=
  let b := fieldN body 0 4
  let kind := fieldN body 4 4
  let qpn := fieldN body 8 4
  if body.length < 8 then s.refuse 3
  else match s.owned? x b with
    | none => s.refuse 2
    | some r =>
      if !((kind = 0 && body.length = 72) || (kind = 1 && body.length = 44)) then s.refuse 3
      else if kind = 1 && !(match s.qps.find? qpn with
          | some q => decide (q.bent = b)
          | none => false) then s.refuse 3
      else if r.drain || (kind = 0 && r.key = 0) then s.refuse 4
      else if kind = 0 && s.keyTaken r.owner r.key then s.refuse 5
      else if kind = 0 then
        .answer { s with keys := s.keys.put r.key (BitVec.ofNat 512 (leNat (body.drop 8))) } 0 []
      else
        let s : State := { s with qps := s.qps.modify qpn (fun q =>
          { q with key := BitVec.ofNat 256 (leNat (body.drop 12)), packetsIn := 0, packetsOut := 0 }) }
        .answer s 0 []

/-- KEY_INSTALL (R417). -/
def execKeyInstall (dg : List Byte) (s : State) : Result := s.request 0x14 dg State.keyInstallMsg

/-! ### Attestation, telemetry and dump -/

/-- ATTESTATION (R420). -/
def State.attestationMsg (s : State) (_x : Session) (body : List Byte) : Reply :=
  if body.length ≠ 32 then s.refuse 3
  else
    let c := s.mgmt.config
    let r := body ++ leBytes 8 devStep.toNat ++ leBytes 8 s.devCnt.toNat ++ identityKey ++ Config.identityCert ++
      s.mgmt.fwHash ++ leBytes 8 s.mgmt.fwVersion.toNat ++ leBytes 4 Config.bundlerVersion.toNat ++
      sha256 (Config.recordBytes c) ++ leBytes 8 c.floor
    .answer s 0 (r ++ identitySign r)

/-- ATTESTATION (R420). -/
def execAttestation (dg : List Byte) (s : State) : Result := s.request 0x15 dg State.attestationMsg

/-- An event as telemetry carries it (R427). -/
def Event.bytes (e : Event) : List Byte := leBytes 8 e.ts ++ leBytes 1 e.kind ++ [0] ++ leBytes 2 e.unitNo ++ leBytes 4 e.bent

/-- The events that a session may see (R427): the newest 256, oldest first. -/
def State.eventsFor (s : State) (owner : List Byte) : List Event :=
  let l := s.mgmt.events.filter (fun e => decide (e.bent = 0) || decide (e.owner = owner))
  l.drop (l.length - 256)

/-- The telemetry of a session (R427, R428): below the counts of R40 every count is 0 but that of the cores. -/
def State.telemetryFor (s : State) (owner : List Byte) : List Byte :=
  let m := s.mgmt
  let short := m.phase = .belowCounts
  let count (n : Nat) : Nat := if short then 0 else n
  let events := if short then [] else s.eventsFor owner
  leBytes 8 s.timestamp ++ leBytes 4 m.clockMHz ++ leBytes 4 m.avgPower ++
  (rangeFrom 0 8).map (fun b => BitVec.ofInt 8 (s.bay b).temp) ++ leBytes 8 (count m.corrected.toNat) ++
  leBytes 8 (count m.poisonings.toNat) ++ leBytes 4 (count m.columns.toNat) ++
  leBytes 4 (if short then s.coreCount else m.listed.length) ++ leBytes 4 events.length ++ leBytes 12 0 ++
  (events.map Event.bytes).flatten

/-- TELEMETRY (R427, R428). -/
def State.telemetryMsg (s : State) (x : Session) (body : List Byte) : Reply :=
  if body.length ≠ 0 then s.refuse 3 else .answer s 0 (s.telemetryFor x.owner)

/-- TELEMETRY (R427). -/
def execTelemetry (dg : List Byte) (s : State) : Result := s.request 0x16 dg State.telemetryMsg

/-- The header of a dump (R430). -/
def Dump.header (d : Dump) : List Byte :=
  leBytes 4 0x444D5031 ++ leBytes 4 devStep.toNat ++ leBytes 8 d.ts ++ leBytes 4 d.cause ++ leBytes 4 d.sections.length ++ leBytes 40 0

/-- The key of a dump's sections (R430). -/
def Dump.key (d : Dump) : BitVec 256 :=
  BitVec.ofNat 256 (leNat (hkdf Config.rootSecret [] ([0x64, 0x75, 0x6D, 0x70] ++ leBytes 8 d.ts) 32))

/-- Entry `i` of a dump for a section (R430), its ciphertext at an offset: the tag is the first half of the seal's. -/
def Dump.entry (d : Dump) (i off : Nat) (e : DumpSection) : List Byte :=
  let c := gcmSeal d.key (leBytes 12 i) [] e.data
  leBytes 1 e.index ++ leBytes 3 0 ++ leBytes 4 e.bent ++ leBytes 8 off ++ leBytes 8 e.data.length ++ (c.drop e.data.length).take 8

/-- The section entries of a dump. -/
def Dump.entries (d : Dump) : List (Nat × DumpSection) → Nat → List (List Byte)
  | [], _ => []
  | (i, e) :: t, off => d.entry i off e :: Dump.entries d t (off + e.data.length)

/-- What a dump retrieval delivers to an owner (R430): the header, and the entries and the contents of its sections. -/
def Dump.forOwner (d : Dump) (owner : List Byte) : List Byte :=
  let all := indexed 0 d.sections
  let entries := d.entries all (0x40 + 32 * d.sections.length)
  let mine := (all.zip entries).filter (fun e => decide (e.1.2.owner = some owner))
  d.header ++ (mine.map (fun e => e.2)).flatten ++ (mine.map (fun e => e.1.2.data)).flatten

/-- DUMP_RETRIEVAL (R430): without a dump the answer is empty (log 31). -/
def State.dumpMsg (s : State) (x : Session) (body : List Byte) : Reply :=
  if body.length ≠ 0 then s.refuse 3
  else match s.mgmt.dump with
    | some d => .answer s 0 ((d.forOwner x.owner).take 65459)
    | none => .answer s 0 []

/-- DUMP_RETRIEVAL (R430). -/
def execDumpRetrieval (dg : List Byte) (s : State) : Result := s.request 0x17 dg State.dumpMsg

/-! ## The configuration record -/

/-- Whether a new record is accepted (R421). -/
def acceptsRecord (old new : ConfigRecord) : RecordSigner → Bool
  | .vendor => decide (old.floor ≤ new.floor)
  | .owner i => decide (i < old.ownerKeys.length) && decide (old.floor ≤ new.floor) && decide ({ new with floor := old.floor } = old)
  | .nobody => false

/-- CONFIGURATION_RECORD_UPDATE (R421). -/
def execConfigurationRecordUpdate (r : ConfigRecord) (signer : RecordSigner) (s : State) : Result :=
  if acceptsRecord s.mgmt.config r signer then .next { s with mgmt := { s.mgmt with config := r } } else s.stay

end Sys2Proof.Machine
end

