-- ==== Sys2Proof/Machine/Home.lean ====
section
/-! DEFINITION. Events of the memory system (R70, R99, R104, R282, R403, R405, R424 to R426): page walks, accesses and merges that perform at
home, scrubbing, evictions, and answers that fail. -/

namespace Sys2Proof.Machine

/-! ## Translation -/

/-- PAGE_WALK (R104, R105): a walk for bent `b` begins, and what it will find is what the tables hold now; or the outstanding walk of the page ends and
installs the translation that it found; one that faults installs none. A bay has 8 walkers. -/
def execPageWalk (bay b : Nat) (va : Word) (s : State) : Result :=
  if va.extractLsb' 56 8 ≠ 0 then s.stay
  else
    let root := s.root b
    let y := s.bay bay
    let mine (w : Walk) : Bool := decide (w.root = root) && decide (w.page = va.toNat / 4096)
    match y.walks.find? mine with
    | some w =>
      let s := s.setBay bay { y with walks := y.walks.filter (fun v => !mine v) }
      (match w.result with
      | .page t => if y.tlb.any (fun t => t.covers root va.toNat) then .next s else .next (s.enterTlb bay t)
      | .stop _ _ => .next s)
    | none =>
      if walkers ≤ y.walks.length || y.tlb.any (fun t => t.covers root va.toNat) then s.stay
      else .next (s.setBay bay { y with walks := y.walks ++ [⟨root, va.toNat / 4096, s.walk root va.toNat⟩] })

/-! ## Errors of storage -/

/-- The 8-byte unit of an address becomes poisoned (R424, R426). -/
def State.poisonUnit (s : State) (pa : Nat) : State :=
  if AMap.has s.poison (pa / 8) then s
  else { s with poison := s.poison.put (pa / 8) (), mgmt := { s.mgmt with poisonings := s.mgmt.poisonings + 1 } }

/-- One more poisoned unit (R427). -/
def State.countPoison (s : State) : State := { s with mgmt := { s.mgmt with poisonings := s.mgmt.poisonings + 1 } }

/-- Change what a context of a core holds in a cluster; a mark that is already there is not counted again. -/
def State.poisonCluster (s : State) (core uid cid : Nat) (f : CtxCluster → CtxCluster) : State :=
  let k := s.core core
  match List.find? (fun (x : Context) => decide (x.uid = uid)) k.ctxs with
  | none => s
  | some x => match nth? x.cl cid with
    | none => s
    | some c =>
      if f c = c then s
      else (s.setCore core { k with ctxs := k.ctxs.map (fun y =>
        if y.uid = uid then { y with cl := setNth y.cl cid (f c) } else y) }).countPoison

/-- An uncorrectable error in storage other than HBM4 (R424): the unit is poisoned; a line of a control core's data cache is dropped, to be fetched
from the L2 again; and an L2 line's unit is poisoned in a window line that the slice holds, or at its home where the line is coherent (log 90). -/
def State.storageError (s : State) : StorageUnit → State
  | .buffer core sp u =>
    let k := s.core core
    let marks : List Nat := if sp = .acc then [2 * u, 2 * u + 1] else [u]
    if spaceSize sp ≤ 8 * u || marks.all (fun i => (k.poisonOf sp).has i) then s
    else
      let m := marks.foldl (fun (m : AMap Unit) i => m.put i ()) (k.poisonOf sp)
      (s.setCore core (match sp with
        | .srf => { k with srfPoison := m }
        | .wb => { k with wbPoison := m }
        | .acc => { k with accPoison := m })).countPoison
  | .scaleRows core u =>
    let k := s.core core
    if 32768 ≤ u || k.scalePoison.has u then s else (s.setCore core { k with scalePoison := k.scalePoison.put u () }).countPoison
  | .vector core uid cid r u => s.poisonCluster core uid cid (fun c => { c with vBad := c.vBad.put (4 * r + u % 4) () })
  | .scalar core uid cid r => s.poisonCluster core uid cid (fun c => if r = 0 then c else { c with sBad := c.sBad.put r () })
  | .operand core uid cid port u => s.poisonCluster core uid cid (fun c => { c with oBad := c.oBad.put (32 * port + u % 17) () })
  | .l2 bay line u =>
    let y := s.bay bay
    (match y.l2.find? line with
    | none => s
    | some c =>
      if !c.stale then s.poisonUnit (64 * line + 8 * (u % 8))
      else if c.poison.contains (u % 8) then s
      else (s.setBay bay { y with l2 := y.l2.put line { c with poison := c.poison ++ [u % 8] } }).countPoison)
  | .l1 core line => s.setCore core { s.core core with dcache := (s.core core).dcache.erase line }

/-- What error detection finds (R424): a corrected error is counted, an uncorrectable one poisons. -/
def State.ecc (s : State) (pa : Nat) (e : EccCheck) : State :=
  match e with
  | .ok => s
  | .storage u => s.storageError u
  | .corrected => { s with mgmt := { s.mgmt with corrected := s.mgmt.corrected + 1 } }
  | .uncorrectable => s.poisonUnit pa

/-- SCRUB (R424, R425): data that a program sees does not change. -/
def execScrub (pa : Nat) (e : EccCheck) (s : State) : Result :=
  match s.region pa with
  | .hbm a => .next (s.ecc a e)
  | _ => .fault (.absentLocation pa)

/-- LINE_EVICTION (R99): a line leaves a bay's L2 slice, or the data cache of a core. -/
def execLineEviction (bay : Nat) (l : CachedAt) (s : State) : Result :=
  match l.core with
  | some c => .next (s.setCore c { s.core c with dcache := (s.core c).dcache.erase l.line })
  | none =>
    let y := s.bay bay
    .next (s.setBay bay { y with l2 := y.l2.erase l.line })

/-! ## Accesses -/

/-- HOME_ACCESS (R281, R282): pending access `i` performs at home, in class and location order. -/
def execHomeAccess (i : Nat) (e : EccCheck) (s : State) : Result :=
  match nth? s.pending i with
  | none => s.stay
  | some a =>
    if !s.canPerform a || s.answer a.loc.pa a.size = .refused then s.stay
    else .next (({ s with pending := dropNth s.pending i }.ecc a.loc.pa e).perform a)

/-- FABRIC_TIMEOUT (R403): a window access has had no answer for 100 µs. It may still perform, once, or never; a load has nothing left to
perform. -/
def execFabricTimeout (i : Nat) (s : State) : Result :=
  match nth? s.pending i with
  | none => s.stay
  | some a =>
    if a.lost || !(s.answer a.loc.pa a.size = .silent) || s.elapsed < a.sent + 100000 then s.stay
    else
      let rest := if a.kind.isRead then dropNth s.pending i else setNth s.pending i { a with lost := true }
      .next ({ s with pending := rest }.deferTrap a 0x1C)

/-- FABRIC_ERROR_ANSWER (R403): the home refuses a pending access, which has not performed. -/
def execFabricErrorAnswer (i : Nat) (s : State) : Result :=
  match nth? s.pending i with
  | none => s.stay
  | some a =>
    if !(s.answer a.loc.pa a.size = .refused) then s.stay
    else
      let s := { s with pending := dropNth s.pending i }
      .next (if a.lost then s else s.deferTrap a 0x1C)

/-! ## Merges -/

/-- Whether an earlier access of an issuer must perform before its merge (R281, R284, R290): one of the same bytes, a read or atomic of the
class, one that a fence puts before it, and any of the class before a merge with release (R283, R288). -/
def State.mergeWaits (s : State) (m : Merge) : Bool :=
  s.lockedOut m.loc.pa m.size ||
  m.parties.any (fun q =>
    s.pending.any (fun a => decide (a.agent = q.agent) && !a.lost && decide (a.no < q.no) &&
      s.precedes a { no := q.no, cls := q.cls, reads := true, writes := true, sc := false } m.loc.pa m.size
        (a.kind.isRead || a.kind.isAtomic || m.release)) ||
    s.merges.any (fun n => n.parties.any (fun r => decide (r.agent = q.agent) && decide (r.no < q.no)) &&
      overlap n.loc.pa n.size m.loc.pa m.size) ||
    s.recordMerges.any (fun n => decide (n.agent = q.agent) && decide (n.no < q.no) && !n.lost &&
      overlap n.loc.pa recSize m.loc.pa m.size))

/-- Whether a router may combine two merges (R405). -/
def State.combinable (s : State) (a b : Merge) : Bool :=
  a.loc.mw && b.loc.mw && (s.remote? a.loc.pa).isSome && decide (a.op = b.op) && decide (a.loc.pa = b.loc.pa) &&
  decide (a.size = b.size) && !a.release && !b.release && !a.det && !b.det

/-- Two merges combined (R405): one addition in the format, with both issuers. -/
def Merge.combine (a b : Merge) : Merge :=
  { a with parties := a.parties ++ b.parties, operand := BitVec.ofNat 64 (aop a.op a.size a.operand.toNat b.operand.toNat) }

/-- MERGE_AT_HOME (R70, R147, R289): merge `i` performs at home; or, with `other`, a router combines it with that merge first, and the two
stay one request. -/
def execMergeAtHome (i : Nat) (other : Option Nat) (s : State) : Result :=
  match nth? s.merges i with
  | none => s.stay
  | some m =>
    match other with
    | some j =>
      (match nth? s.merges j with
      | none => s.stay
      | some n =>
        if i = j || !s.combinable m n then s.stay
        else .next { s with merges := dropNth (setNth s.merges i (m.combine n)) j })
    | none =>
      if !(s.answer m.loc.pa m.size = .here) || s.mergeWaits m then s.stay
      else .next ({ s with merges := dropNth s.merges i }.mergeAtHome m.loc m.op m.size m.operand.toNat m.det)

end Sys2Proof.Machine
end

