-- ==== Sys2Proof/Machine/Fabric.lean ====
section
/-! DEFINITION. The Faunnak fabric (R401 to R405): packets that arrive, their performance at home, forwarding and combining, and links. -/

namespace Sys2Proof.Machine

/-! ## Links -/

/-- A link under its next key, which the two packages' security processors agree on (R404); its packets are counted anew. -/
def Peer.renewed (q : Peer) (p : Nat) : Peer := { q with keyEpoch := q.keyEpoch + 1, key := Config.linkKey p (q.keyEpoch + 1), packets := 0 }

/-- LINK_BRING_UP (R404): an authentic peer's link comes up under a fresh key; one that fails is not up, and its package does not answer. -/
def execLinkBringUp (peer : Nat) (authentic : Bool) (s : State) : Result :=
  if peer = s.mgmt.config.pkg || 255 ≤ peer || s.mgmt.phase = .off || s.mgmt.phase = .stopped then s.stay
  else
    let q := s.peer peer
    let q := if authentic then { q.renewed peer with linkUp := true, answers := true } else { q with linkUp := false }
    .next { s with peers := s.peers.put peer q }

/-- LINK_KEY_RENEWAL (R404). -/
def execLinkKeyRenewal (peer : Nat) (s : State) : Result :=
  match s.peers.find? peer with
  | none => s.stay
  | some q => if q.linkUp then .next { s with peers := s.peers.put peer (q.renewed peer) } else s.stay

/-- Send a packet on its link (R404): none without a link, or where its key must be renewed first. -/
def State.sendFabric (s : State) (p : FabricPacket) : Option State :=
  if (s.peer (s.hop p.dst)).sends 1 then some { s.countPackets p.dst 1 with outbox := s.outbox ++ [.fabric p] } else none

/-! ## Performance at home -/

/-- The location that a packet's access names: slot 0 is the shared-clear one (R83). -/
def packetLoc (p : FabricPacket) (pa : Nat) : Loc :=
  { pa := pa, slot := if p.slot = 0 then none else some p.slot, det := false, mw := false, cp := 0 }

/-- The statistics that a scribe merge carries: epoch, type, E_LO, count, NaN, infinity and zero counts, maximum, bins (R326). -/
def statsOf (d : List Nat) : Stats :=
  let f (i : Nat) : Nat := (nth? d i).getD 0
  { epoch := f 0, et := f 1, eLo := signedOf 8 (f 2), count := f 3, nan := f 4, inf := f 5, zero := f 6, amax := f 7
    bins := (rangeFrom 8 24).map f }

/-- What performing a packet at home answers. -/
inductive Homed where
  | wait
  | done (s : State) (answer : FabricBody)
  deriving Repr

/-- An access of `n` bytes at home: an error beyond what is present (R81), a wait at a locked granule (R399), poison where it reads
(R426), else `k`. -/
def State.atHome (s : State) (p : FabricPacket) (pa n : Nat) (reads : Bool) (k : Loc → State × FabricBody) : Homed :=
  if s.capacity < pa + n || n = 0 || 256 < n then .done s (.error false)
  else if s.lockedOut pa n then .wait
  else if reads && s.poisoned pa n then .done s (.error true)
  else
    let r := k (packetLoc p pa)
    .done r.1 r.2

/-- Perform the body of a packet addressed to this package (R81, R402). -/
def State.performPacket (s : State) (p : FabricPacket) : Homed :=
  match p.body with
  | .load pa n => s.atHome p pa n true (fun l =>
      let r := s.readLoc l n
      (r.1, .response r.2))
  | .store pa d => s.atHome p pa d.length false (fun l => (s.writeLoc l d, .ack))
  | .atomic op pa n b => s.atHome p pa n true (fun l =>
      let r := s.readLoc l n
      (r.1.writeLoc l (leBytes n (aop op n (leNat r.2) b.toNat)), .response r.2))
  | .compareSwap pa n e x => s.atHome p pa n true (fun l =>
      let r := s.readLoc l n
      let s := if leNat r.2 = e.toNat % 2 ^ (8 * n) then r.1.writeLoc l (leBytes n x.toNat) else r.1
      (s, .response r.2))
  | .merge op pa n b _ _ det => s.atHome p pa n false (fun l => (s.mergeAtHome l op n b.toNat det, .ack))
  | .scribeInit pa et => s.atHome p pa recSize false (fun l => (s.writeLoc l (freshRecord et.toNat), .ack))
  | .scribeNext pa => s.atHome p pa recSize true (fun l =>
      let r := s.readLoc l recSize
      let n := nextRecord r.2
      (r.1.writeLoc l n, .response ((n.drop 4).take 4)))
  | .scribeRead pa n => s.atHome p pa n true (fun l =>
      let r := s.readLoc l n
      (r.1, .response r.2))
  | .scribeMerge pa d => s.atHome p pa recSize false (fun l => (s.mergeStats l (statsOf d), .ack))
  | .collStep bay round src _ d det =>
      .done (s.holdMessage (bay % 8) { round := BitVec.ofNat 32 round, src := src, data := d, det := det }) .ack
  | .response _ | .ack | .error _ => .done s .ack

/-- The bytes that a packet names at its home. -/
def bodySpan : FabricBody → Option (Nat × Nat)
  | .load pa n | .atomic _ pa n _ | .compareSwap pa n _ _ | .merge _ pa n _ _ _ _ | .scribeRead pa n => some (pa, n)
  | .store pa d => some (pa, d.length)
  | .scribeInit pa _ | .scribeNext pa | .scribeMerge pa _ => some (pa, recSize)
  | .response _ | .ack | .error _ | .collStep _ _ _ _ _ _ => none

/-- Whether a packet is one that the fabric can carry: it crosses no 256-byte boundary of its home (R401). -/
def wholePacket (p : FabricPacket) : Bool :=
  match bodySpan p.body with
  | some (pa, n) => packetsOf pa n = 1
  | none => true

/-- Whether a packet is an answer, which takes none. -/
def isAnswer : FabricBody → Bool
  | .response _ | .ack | .error _ => true
  | _ => false

/-! ## Forwarding -/

/-- A merge packet that a router may hold for combining (R405). -/
def mergeKey (p : FabricPacket) : Option (MergeOp × Nat × Nat × Nat × Nat) :=
  match p.body with
  | .merge op pa n _ false true false => some (op, pa, n, p.dst, p.slot)
  | _ => none

/-- Two merge packets combined (R405): every issuer's contribution is acknowledged when it performs. -/
def combinePackets (p q : FabricPacket) : FabricPacket :=
  match p.body, q.body with
  | .merge op pa n a r mw det, .merge _ _ _ b _ _ _ =>
    { p with
      also := p.also ++ q.src :: q.also
      body := .merge op pa n (BitVec.ofNat 64 (aop op n a.toNat b.toNat)) r mw det }
  | _, _ => p

/-- Send packets in order, none where one cannot go. -/
def sendAll (s : State) : List FabricPacket → Option State
  | [] => some s
  | p :: t => (s.sendFabric p).bind (fun s => sendAll s t)

/-- Forward a packet (R405): merges that the router holds either combine with it or go on ahead of it; a merge that may be combined is held
for a next one by a free value (log 13). -/
def State.forward (s : State) (p : FabricPacket) : Option State :=
  let key := mergeKey p
  let same := s.router.filter (fun q => key.isSome && decide (mergeKey q = key))
  let others := s.router.filter (fun q => !(key.isSome && decide (mergeKey q = key)))
  let p := same.foldl (fun p q => combinePackets q p) p
  let hold := key.isSome && (Config.freeWord s.free).getLsbD 0
  let s := { s with free := s.free + 1, router := [] }
  (sendAll s others).bind (fun s => if hold then some { s with router := [p] } else s.sendFabric p)

/-- FABRIC_PACKET (R401, R402, R405): a packet that arrives over a link is performed here and answered, or forwarded; to each package whose merge it
carries. -/
def execFabricPacket (p : FabricPacket) (s : State) : Result :=
  if p.src = s.mgmt.config.pkg || !wholePacket p || s.mgmt.phase = .off || s.mgmt.phase = .stopped then s.stay
  else if p.dst != s.mgmt.config.pkg then
    match s.forward p with
    | some s => .next s
    | none => s.stay
  else if isAnswer p.body then s.stay
  else match s.performPacket p with
    | .wait => s.stay
    | .done t a =>
      match sendAll t ((p.src :: p.also).map (fun d => { src := s.mgmt.config.pkg, also := [], dst := d, slot := p.slot, body := a })) with
      | some t => .next t
      | none => s.stay

end Sys2Proof.Machine
end

