-- ==== Sys2Proof/Machine/Flags.lean ====
section
/-! DEFINITION. The condition flags of control-core floating instructions: FP.CSR (R110, R62). No other flags exist. -/

namespace Sys2Proof.Machine

/-- The sticky bits of conditions, as FP.CSR orders them (R110). -/
def FFlags.bits (g : FFlags) : BitVec 5 :=
  BitVec.ofBool g.invalid ++ BitVec.ofBool g.divZero ++ BitVec.ofBool g.overflow ++ BitVec.ofBool g.underflow ++
    BitVec.ofBool g.inexact

/-- FP.CSR with conditions recorded in FLG (R110). -/
def csrWith (csr : Word) (g : FFlags) : Word := csr ||| (g.bits).zeroExtend 64

/-- Whether a condition that arose is enabled (R110). -/
def csrTraps (csr : Word) (g : FFlags) : Bool := (csr.extractLsb' 8 5 &&& g.bits) != 0

/-- Record the conditions of the executing instruction; an enabled one takes cause 0x0F and leaves the destination unchanged,
otherwise go on with `k` (R110, R134). -/
def State.fpFlags (s : State) (g : FFlags) (k : State → Result) : Result :=
  let c := s.me
  let s := s.setMe { c with regs := { c.regs with fpCsr := csrWith c.regs.fpCsr g } }
  if csrTraps c.regs.fpCsr g then s.trap 0x0F else k s

end Sys2Proof.Machine
end

