-- ==== Sys2Proof/Machine/Int.lean ====
section
/-! DEFINITION. Integer instructions (R137 to R139). -/

namespace Sys2Proof.Machine

/-- 1 or 0. -/
def boolWord (b : Bool) : Word := if b then 1 else 0

/-- The number of zero bits above the highest one, among the low `n` bits (R137). -/
def leadingZeros (a : Word) : Nat → Nat
  | 0 => 0
  | n + 1 => if a.getLsbD n then 0 else 1 + leadingZeros a n

/-- The number of zero bits below the lowest one: `n` bits looked at from bit 64 − n (R137). -/
def trailingZeros (a : Word) : Nat → Nat
  | 0 => 0
  | n + 1 => if a.getLsbD (63 - n) then 0 else 1 + trailingZeros a n

/-- The number of one bits among the low `n` (R137). -/
def ones (a : Word) : Nat → Nat
  | 0 => 0
  | n + 1 => (if a.getLsbD n then 1 else 0) + ones a n

/-- The shift count of b: its low six bits (R137). -/
def shCount (b : Word) : Nat := (b.extractLsb' 0 6).toNat

/-- The low 32 bits, sign-extended (R137). -/
def wordExt (v : Word) : Word := (v.extractLsb' 0 32).signExtend 64

/-- The high half of the exact signed product (R138). -/
def mulHigh (a b : Word) : Word := ((a.signExtend 128 * b.signExtend 128).extractLsb' 64 64)

/-- The high half of the exact unsigned product (R138). -/
def mulHighN (a b : Word) : Word := ((a.zeroExtend 128 * b.zeroExtend 128).extractLsb' 64 64)

/-- Signed division toward zero, with R138's corners. -/
def divS (a b : Word) : Word :=
  if b = 0 then BitVec.allOnes 64
  else if a = BitVec.intMin 64 ∧ b = BitVec.allOnes 64 then BitVec.intMin 64
  else BitVec.ofInt 64 (a.toInt.tdiv b.toInt)

/-- Unsigned division (R138). -/
def divU (a b : Word) : Word := if b = 0 then BitVec.allOnes 64 else BitVec.ofNat 64 (a.toNat / b.toNat)

/-- Signed remainder, with the sign of the dividend (R138). -/
def remS (a b : Word) : Word :=
  if b = 0 then a
  else if a = BitVec.intMin 64 ∧ b = BitVec.allOnes 64 then 0
  else BitVec.ofInt 64 (a.toInt.tmod b.toInt)

/-- Unsigned remainder (R138). -/
def remU (a b : Word) : Word := if b = 0 then a else BitVec.ofNat 64 (a.toNat % b.toNat)

/-- The lesser and the greater of two numbers, signed and unsigned (R137). -/
def minS (a b : Word) : Word := if a.sle b then a else b

def maxS (a b : Word) : Word := if a.sle b then b else a

def minU (a b : Word) : Word := if a.ule b then a else b

def maxU (a b : Word) : Word := if a.ule b then b else a

/-- An operation on x[XA] and x[XB] (R137, R138). -/
def State.intOp (s : State) (d a b : RegNo) (op : Word → Word → Word) : Result := s.retX d (op (s.getX a) (s.getX b))

/-- An operation on x[XA] and an immediate (R139). -/
def State.immOp (s : State) (d a : RegNo) (i : Word) (op : Word → Word → Word) : Result := s.retX d (op (s.getX a) i)

/-- R137. -/
def execAdd (d a b : RegNo) (s : State) : Result := s.intOp d a b (fun a b => a + b)

/-- R137. -/
def execSub (d a b : RegNo) (s : State) : Result := s.intOp d a b (fun a b => a - b)

/-- R137. -/
def execAnd (d a b : RegNo) (s : State) : Result := s.intOp d a b (fun a b => a &&& b)

/-- R137. -/
def execOr (d a b : RegNo) (s : State) : Result := s.intOp d a b (fun a b => a ||| b)

/-- R137. -/
def execXor (d a b : RegNo) (s : State) : Result := s.intOp d a b (fun a b => a ^^^ b)

/-- R137. -/
def execSll (d a b : RegNo) (s : State) : Result := s.intOp d a b (fun a b => a <<< shCount b)

/-- R137. -/
def execSrl (d a b : RegNo) (s : State) : Result := s.intOp d a b (fun a b => a >>> shCount b)

/-- R137. -/
def execSra (d a b : RegNo) (s : State) : Result := s.intOp d a b (fun a b => a.sshiftRight (shCount b))

/-- R137. -/
def execSlt (d a b : RegNo) (s : State) : Result := s.intOp d a b (fun a b => boolWord (a.slt b))

/-- R137. -/
def execSltN (d a b : RegNo) (s : State) : Result := s.intOp d a b (fun a b => boolWord (a.ult b))

/-- R137. -/
def execMin (d a b : RegNo) (s : State) : Result := s.intOp d a b (fun a b => minS a b)

/-- R137. -/
def execMax (d a b : RegNo) (s : State) : Result := s.intOp d a b (fun a b => maxS a b)

/-- R137. -/
def execMinN (d a b : RegNo) (s : State) : Result := s.intOp d a b (fun a b => minU a b)

/-- R137. -/
def execMaxN (d a b : RegNo) (s : State) : Result := s.intOp d a b (fun a b => maxU a b)

/-- R137. -/
def execRor (d a b : RegNo) (s : State) : Result := s.intOp d a b (fun a b => a.rotateRight (shCount b))

/-- R137. -/
def execAddW (d a b : RegNo) (s : State) : Result := s.intOp d a b (fun a b => wordExt (a + b))

/-- R137. -/
def execSubW (d a b : RegNo) (s : State) : Result := s.intOp d a b (fun a b => wordExt (a - b))

/-- R138. -/
def execMul (d a b : RegNo) (s : State) : Result := s.intOp d a b (fun a b => a * b)

/-- R138. -/
def execMulh (d a b : RegNo) (s : State) : Result := s.intOp d a b (fun a b => mulHigh a b)

/-- R138. -/
def execMulhN (d a b : RegNo) (s : State) : Result := s.intOp d a b (fun a b => mulHighN a b)

/-- R138. -/
def execDiv (d a b : RegNo) (s : State) : Result := s.intOp d a b (fun a b => divS a b)

/-- R138. -/
def execDivN (d a b : RegNo) (s : State) : Result := s.intOp d a b (fun a b => divU a b)

/-- R138. -/
def execRem (d a b : RegNo) (s : State) : Result := s.intOp d a b (fun a b => remS a b)

/-- R138. -/
def execRemN (d a b : RegNo) (s : State) : Result := s.intOp d a b (fun a b => remU a b)

/-- R137. -/
def execClz (d a : RegNo) (s : State) : Result := s.retX d (BitVec.ofNat 64 (leadingZeros (s.getX a) 64))

/-- R137. -/
def execCtz (d a : RegNo) (s : State) : Result := s.retX d (BitVec.ofNat 64 (trailingZeros (s.getX a) 64))

/-- R137. -/
def execPopc (d a : RegNo) (s : State) : Result := s.retX d (BitVec.ofNat 64 (ones (s.getX a) 64))

/-- R139. -/
def execAddi (d a : RegNo) (i : BitVec 16) (s : State) : Result := s.immOp d a (i.signExtend 64) (fun a i => a + i)

/-- R139. -/
def execAndi (d a : RegNo) (i : BitVec 16) (s : State) : Result := s.immOp d a (i.zeroExtend 64) (fun a i => a &&& i)

/-- R139. -/
def execOri (d a : RegNo) (i : BitVec 16) (s : State) : Result := s.immOp d a (i.zeroExtend 64) (fun a i => a ||| i)

/-- R139. -/
def execXori (d a : RegNo) (i : BitVec 16) (s : State) : Result := s.immOp d a (i.zeroExtend 64) (fun a i => a ^^^ i)

/-- R139. -/
def execSlti (d a : RegNo) (i : BitVec 16) (s : State) : Result := s.immOp d a (i.signExtend 64) (fun a i => boolWord (a.slt i))

/-- R139. -/
def execSltiN (d a : RegNo) (i : BitVec 16) (s : State) : Result := s.immOp d a (i.signExtend 64) (fun a i => boolWord (a.ult i))

/-- R139. -/
def execSlli (d a : RegNo) (n : BitVec 6) (s : State) : Result := s.immOp d a (n.zeroExtend 64) (fun a i => a <<< shCount i)

/-- R139. -/
def execSrli (d a : RegNo) (n : BitVec 6) (s : State) : Result := s.immOp d a (n.zeroExtend 64) (fun a i => a >>> shCount i)

/-- R139. -/
def execSrai (d a : RegNo) (n : BitVec 6) (s : State) : Result := s.immOp d a (n.zeroExtend 64) (fun a i => a.sshiftRight (shCount i))

/-- R139. -/
def execRori (d a : RegNo) (n : BitVec 6) (s : State) : Result := s.immOp d a (n.zeroExtend 64) (fun a i => a.rotateRight (shCount i))

/-- R139. -/
def execLui (d : RegNo) (i : BitVec 16) (s : State) : Result := s.retX d (i.signExtend 64 <<< 16)

/-- R139. -/
def execLpc (d : RegNo) (i : BitVec 16) (s : State) : Result := s.retX d (s.pc + (i.signExtend 64 <<< 16))

end Sys2Proof.Machine
end

