-- ==== Sys2Proof/Machine/Fp.lean ====
section
/-! DEFINITION. Floating-point instructions of the control core (R141 to R144). -/

namespace Sys2Proof.Machine

/-- The bits of an f register that a format takes (R141). -/
def fOperand (f : Fmt) (w : Word) : FVal := f.decode (w.toNat % 2 ^ (f.ebits + f.mbits + 1))

/-- The sign bit's place in a format. -/
def Fmt.signBit (f : Fmt) : Nat := f.ebits + f.mbits

/-- A signalling NaN among the operands is invalid (R142). -/
def anySNaN (vs : List FVal) : FFlags := { invalid := vs.any FVal.isSNaN }

/-- An operation with no NaN operand that makes a NaN is invalid (R60 (3)). -/
def madeNaN (vs : List FVal) (r : FVal) : FFlags := { invalid := r.isNaN && !vs.any FVal.isNaN }

/-- Deliver an exact result in a format, with its conditions (R141, R62), into f[d]; an f32 result writes zeros above (R107). -/
def State.fpResult (s : State) (f : Fmt) (m : BitVec 2) (d : RegNo) (g : FFlags) (v : FVal) : Result :=
  let r := f.deliver (s.coreRm m) false 0 v
  s.fpFlags (g.or r.2) (fun s => s.retF d (BitVec.ofNat 64 r.1))

/-- fadd, fsub and fmul (R142). -/
def State.fpArith (s : State) (f : Fmt) (d a b : RegNo) (m : BitVec 2) (op : FVal → FVal → FVal) : Result :=
  let x := fOperand f (s.getF a)
  let y := fOperand f (s.getF b)
  let r := op x y
  s.fpResult f m d ((anySNaN [x, y]).or (madeNaN [x, y] r)) r

/-- fdiv (R142). -/
def State.fpDiv (s : State) (f : Fmt) (d a b : RegNo) (m : BitVec 2) : Result :=
  let x := fOperand f (s.getF a)
  let y := fOperand f (s.getF b)
  let r := x.div y
  let dz : FFlags := { divZero := y.isZero && !x.isZero && !x.isInf && !x.isNaN }
  s.fpResult f m d (((anySNaN [x, y]).or (madeNaN [x, y] r)).or dz) r

/-- fsqrt (R142). -/
def State.fpSqrt (s : State) (f : Fmt) (d a : RegNo) (m : BitVec 2) : Result :=
  let x := fOperand f (s.getF a)
  let r := x.sqrt
  s.fpResult f m d ((anySNaN [x]).or (madeNaN [x] r)) r

/-- fma (R142): fa × fb + fd; a product 0 × ∞ is invalid beside any addend. -/
def State.fpFma (s : State) (f : Fmt) (d a b : RegNo) (m : BitVec 2) : Result :=
  let x := fOperand f (s.getF a)
  let y := fOperand f (s.getF b)
  let z := fOperand f (s.getF d)
  let r := x.fma y z
  let zi : FFlags := { invalid := (x.isZero && y.isInf) || (x.isInf && y.isZero) }
  s.fpResult f m d (((anySNaN [x, y, z]).or (madeNaN [x, y, z] r)).or zi) r

/-- fmin and fmax (R143): invalid only for a signalling NaN. -/
def State.fpMinMax (s : State) (f : Fmt) (d a b : RegNo) (op : FVal → FVal → FVal) : Result :=
  let x := fOperand f (s.getF a)
  let y := fOperand f (s.getF b)
  let r := f.deliver .rne false 0 (op x y)
  s.fpFlags (anySNaN [x, y]) (fun s => s.retF d (BitVec.ofNat 64 r.1))

/-- fabs and fneg (R142): the sign bit alone, an f32's upper bits zero, no flag. -/
def State.fpSign (s : State) (f : Fmt) (d a : RegNo) (invert : Bool) : Result :=
  let w := (s.getF a).toNat % 2 ^ (f.signBit + 1)
  let low := w % 2 ^ f.signBit
  let sign := if invert then !w.testBit f.signBit else false
  s.retF d (BitVec.ofNat 64 (low + if sign then 2 ^ f.signBit else 0))

/-- feq (R143). -/
def State.fpEq (s : State) (f : Fmt) (d a b : RegNo) : Result :=
  let x := fOperand f (s.getF a)
  let y := fOperand f (s.getF b)
  s.fpFlags (anySNaN [x, y]) (fun s => s.retX d (boolWord (x.feq y)))

/-- flt and fle (R143): invalid for any NaN. -/
def State.fpCmp (s : State) (f : Fmt) (d a b : RegNo) (op : FVal → FVal → Bool) : Result :=
  let x := fOperand f (s.getF a)
  let y := fOperand f (s.getF b)
  let nan := x.isNaN || y.isNaN
  s.fpFlags { invalid := nan } (fun s => s.retX d (boolWord (!nan && op x y)))

/-- The class code of R143: bit 0 the sign, bits 3:1 the class. -/
def fclassOf (f : Fmt) (w : Word) : Nat :=
  let x := w.toNat % 2 ^ (f.signBit + 1)
  let sign := if x.testBit f.signBit then 1 else 0
  let e := x / 2 ^ f.mbits % 2 ^ f.ebits
  let m := x % 2 ^ f.mbits
  let c :=
    if e = 2 ^ f.ebits - 1 then (if m = 0 then 3 else if m.testBit (f.mbits - 1) then 4 else 5)
    else if e = 0 then (if m = 0 then 0 else 1)
    else 2
  sign + 2 * c

/-- An integer converted to a format (R144). -/
def State.fromInt (s : State) (f : Fmt) (d : RegNo) (m : BitVec 2) (i : Int) : Result :=
  s.fpResult f m d {} (FVal.ofInt i)

/-- A format converted to a 64-bit integer (R144): clamped, NaN to 0; invalid for a NaN or a rounded value out of range, otherwise
inexact when rounding changed it. -/
def State.toInt (s : State) (f : Fmt) (d a : RegNo) (m : BitVec 2) (uns : Bool) : Result :=
  let x := fOperand f (s.getF a)
  let lo := intMin 64 uns
  let hi := intMax 64 uns
  let r := x.toInt (s.coreRm m) 0
  let out : Int × FFlags :=
    match x with
    | .nan _ _ => (0, { invalid := true })
    | .inf neg => (if neg then lo else hi, { invalid := true })
    | .fin _ _ _ =>
      if r.1 < lo || hi < r.1 then (clampInt lo hi r.1, { invalid := true }) else (r.1, { inexact := r.2 })
  s.fpFlags out.2 (fun s => s.retX d (BitVec.ofInt 64 out.1))

/-- R142. -/
def execFaddF64 (d a b : RegNo) (m : BitVec 2) (s : State) : Result := s.fpArith Fmt.f64 d a b m FVal.add

/-- R142. -/
def execFsubF64 (d a b : RegNo) (m : BitVec 2) (s : State) : Result := s.fpArith Fmt.f64 d a b m FVal.sub

/-- R142. -/
def execFmulF64 (d a b : RegNo) (m : BitVec 2) (s : State) : Result := s.fpArith Fmt.f64 d a b m FVal.mul

/-- R142. -/
def execFdivF64 (d a b : RegNo) (m : BitVec 2) (s : State) : Result := s.fpDiv Fmt.f64 d a b m

/-- R142. -/
def execFsqrtF64 (d a : RegNo) (m : BitVec 2) (s : State) : Result := s.fpSqrt Fmt.f64 d a m

/-- R143. -/
def execFminF64 (d a b : RegNo) (s : State) : Result := s.fpMinMax Fmt.f64 d a b FVal.min

/-- R143. -/
def execFmaxF64 (d a b : RegNo) (s : State) : Result := s.fpMinMax Fmt.f64 d a b FVal.max

/-- R142. -/
def execFmaF64 (d a b : RegNo) (m : BitVec 2) (s : State) : Result := s.fpFma Fmt.f64 d a b m

/-- R142. -/
def execFabsF64 (d a : RegNo) (s : State) : Result := s.fpSign Fmt.f64 d a false

/-- R142. -/
def execFnegF64 (d a : RegNo) (s : State) : Result := s.fpSign Fmt.f64 d a true

/-- R143. -/
def execFeqF64 (d a b : RegNo) (s : State) : Result := s.fpEq Fmt.f64 d a b

/-- R143. -/
def execFltF64 (d a b : RegNo) (s : State) : Result := s.fpCmp Fmt.f64 d a b FVal.lt

/-- R143. -/
def execFleF64 (d a b : RegNo) (s : State) : Result := s.fpCmp Fmt.f64 d a b (fun x y => !y.lt x)

/-- R143. -/
def execFclassF64 (d a : RegNo) (s : State) : Result := s.retX d (BitVec.ofNat 64 (fclassOf Fmt.f64 (s.getF a)))

/-- R142. -/
def execFaddF32 (d a b : RegNo) (m : BitVec 2) (s : State) : Result := s.fpArith Fmt.f32 d a b m FVal.add

/-- R142. -/
def execFsubF32 (d a b : RegNo) (m : BitVec 2) (s : State) : Result := s.fpArith Fmt.f32 d a b m FVal.sub

/-- R142. -/
def execFmulF32 (d a b : RegNo) (m : BitVec 2) (s : State) : Result := s.fpArith Fmt.f32 d a b m FVal.mul

/-- R142. -/
def execFdivF32 (d a b : RegNo) (m : BitVec 2) (s : State) : Result := s.fpDiv Fmt.f32 d a b m

/-- R142. -/
def execFsqrtF32 (d a : RegNo) (m : BitVec 2) (s : State) : Result := s.fpSqrt Fmt.f32 d a m

/-- R143. -/
def execFminF32 (d a b : RegNo) (s : State) : Result := s.fpMinMax Fmt.f32 d a b FVal.min

/-- R143. -/
def execFmaxF32 (d a b : RegNo) (s : State) : Result := s.fpMinMax Fmt.f32 d a b FVal.max

/-- R142. -/
def execFmaF32 (d a b : RegNo) (m : BitVec 2) (s : State) : Result := s.fpFma Fmt.f32 d a b m

/-- R142. -/
def execFabsF32 (d a : RegNo) (s : State) : Result := s.fpSign Fmt.f32 d a false

/-- R142. -/
def execFnegF32 (d a : RegNo) (s : State) : Result := s.fpSign Fmt.f32 d a true

/-- R143. -/
def execFeqF32 (d a b : RegNo) (s : State) : Result := s.fpEq Fmt.f32 d a b

/-- R143. -/
def execFltF32 (d a b : RegNo) (s : State) : Result := s.fpCmp Fmt.f32 d a b FVal.lt

/-- R143. -/
def execFleF32 (d a b : RegNo) (s : State) : Result := s.fpCmp Fmt.f32 d a b (fun x y => !y.lt x)

/-- R143. -/
def execFclassF32 (d a : RegNo) (s : State) : Result := s.retX d (BitVec.ofNat 64 (fclassOf Fmt.f32 (s.getF a)))

/-- R144. -/
def execCvtF64I64 (d a : RegNo) (m : BitVec 2) (s : State) : Result := s.fromInt Fmt.f64 d m (s.getX a).toInt

/-- R144. -/
def execCvtF64N64 (d a : RegNo) (m : BitVec 2) (s : State) : Result := s.fromInt Fmt.f64 d m (s.getX a).toNat

/-- R144. -/
def execCvtI64F64 (d a : RegNo) (m : BitVec 2) (s : State) : Result := s.toInt Fmt.f64 d a m false

/-- R144. -/
def execCvtN64F64 (d a : RegNo) (m : BitVec 2) (s : State) : Result := s.toInt Fmt.f64 d a m true

/-- R144. -/
def execCvtF32I64 (d a : RegNo) (m : BitVec 2) (s : State) : Result := s.fromInt Fmt.f32 d m (s.getX a).toInt

/-- R144. -/
def execCvtF32N64 (d a : RegNo) (m : BitVec 2) (s : State) : Result := s.fromInt Fmt.f32 d m (s.getX a).toNat

/-- R144. -/
def execCvtI64F32 (d a : RegNo) (m : BitVec 2) (s : State) : Result := s.toInt Fmt.f32 d a m false

/-- R144. -/
def execCvtN64F32 (d a : RegNo) (m : BitVec 2) (s : State) : Result := s.toInt Fmt.f32 d a m true

/-- R144: exact; a signalling NaN is quieted and raises invalid. -/
def execCvtF64F32 (d a : RegNo) (s : State) : Result :=
  let x := fOperand Fmt.f32 (s.getF a)
  s.fpResult Fmt.f64 0 d (anySNaN [x]) x

/-- R144. -/
def execCvtF32F64 (d a : RegNo) (m : BitVec 2) (s : State) : Result :=
  let x := fOperand Fmt.f64 (s.getF a)
  s.fpResult Fmt.f32 m d (anySNaN [x]) x

/-- R144: the bits copied. -/
def execFmvX (d a : RegNo) (s : State) : Result := s.retX d (s.getF a)

/-- R144: the bits copied. -/
def execFmvF (d a : RegNo) (s : State) : Result := s.retF d (s.getX a)

end Sys2Proof.Machine
end

