-- ==== Sys2Proof/Machine/HostLink.lean ====
section
/-! DEFINITION. The Ethernet attachment (R410 to R413): address resolution and the RoCEv2 responder. -/

namespace Sys2Proof.Machine

/-- Whether the ports are up (R428). -/
def Phase.linked : Phase → Bool
  | .service | .belowCounts | .fatal => true
  | .stopped | .off => false

/-! ## Frames -/

/-- The longest frame of a port (R410). -/
def maxFrame : Nat := 9216

/-- The UDP ports of RoCEv2, of IEEE 1588 (PRESUMED, log 29) and of the control channel (R410). -/
def rocePort : Nat := 4791
def ptpPorts : List Nat := [319, 320]
def controlPort : Nat := 47360

/-- Whether a port takes a frame (R410): address resolution and the control channel or RoCEv2 for an address of the configuration record, and
IEEE 1588; every other frame is dropped. -/
def State.takesFrame (s : State) (f : EthFrame) : Bool :=
  let mine (a : List Byte) : Bool := s.mgmt.config.addresses.contains a
  s.mgmt.phase.linked && decide (f.length ≤ maxFrame) && (match f.kind with
    | .arp a | .neighbor a => mine a
    | .udp dst port => ptpPorts.contains port || (mine dst && (port = rocePort || port = controlPort))
    | .ptp => true
    | .other => false)

/-! ## Address resolution -/

/-- ARP_REQUEST (R410): answered for the addresses of the configuration record. -/
def execArpRequest (port : Nat) (addr : List Byte) (s : State) : Result :=
  if s.mgmt.phase.linked && s.mgmt.config.addresses.contains addr then .next { s with outbox := s.outbox ++ [.arpReply port addr] }
  else s.stay

/-- NEIGHBOR_DISCOVERY (R410). -/
def execNeighborDiscovery (port : Nat) (addr : List Byte) (s : State) : Result :=
  if s.mgmt.phase.linked && s.mgmt.config.addresses.contains addr then .next { s with outbox := s.outbox ++ [.neighborReply port addr] }
  else s.stay

/-- FRAME_DROP (R410): a frame that no port takes is dropped; of those it takes, address resolution is answered here, and the contents of the
others are events of their own. -/
def execFrameDrop (f : EthFrame) (s : State) : Result :=
  if !s.takesFrame f then s.stay
  else match f.kind with
    | .arp a => execArpRequest f.port a s
    | .neighbor a => execNeighborDiscovery f.port a s
    | .udp _ _ | .ptp | .other => s.stay

/-! ## RoCEv2 packets (PRESUMED where no rule gives their bytes, log 29) -/

/-- Data bytes of a full packet: the path MTU less the tag (R411, R412). -/
def roceData : Nat := 4080

/-- Syndromes of an AETH. -/
def ackSyndrome : Nat := 0x1F
def nakSequence : Nat := 0x60
def nakInvalid : Nat := 0x61
def nakAccess : Nat := 0x62

/-- Opcodes of reliable-connected RDMA WRITE. -/
def writeFirst : Byte := 0x06
def writeMiddle : Byte := 0x07
def writeLast : Byte := 0x08
def writeLastImm : Byte := 0x09
def writeOnly : Byte := 0x0A
def writeOnlyImm : Byte := 0x0B

def isWriteOp (o : Byte) : Bool := decide (0x06 ≤ o.toNat) && decide (o.toNat ≤ 0x0B)
def startsWrite (o : Byte) : Bool := o == writeFirst || o == writeOnly || o == writeOnlyImm
def endsWrite (o : Byte) : Bool := o == writeLast || o == writeLastImm || o == writeOnly || o == writeOnlyImm

/-- RDMA READ's request. -/
def readRequest : Byte := 0x0C

/-- Packets the responder takes: RDMA WRITE, RDMA READ, acknowledgements and CNPs (R411). -/
def roceSupported (o : Byte) : Bool := isWriteOp o || o == readRequest || o == 0x11 || o == 0x81

/-- A big-endian 24-bit field. -/
def be24 (n : Nat) : List Byte := (leBytes 3 n).reverse

/-- A base transport header to the requester. -/
def bth (opcode : Byte) (qpn : BitVec 24) (psn : Nat) : List Byte :=
  [opcode, 0, 0xFF, 0xFF, 0] ++ be24 (Config.peerQpn qpn.toNat).toNat ++ [0] ++ be24 psn

/-- An acknowledge extended header. -/
def aeth (syndrome msn : Nat) : List Byte := leBytes 1 syndrome ++ be24 msn

/-- The nonce of a packet (R412). -/
def roceNonce (dir : Byte) (qpn : BitVec 24) (ext : Nat) : List Byte := [dir] ++ leBytes 3 qpn.toNat ++ leBytes 8 ext

/-- The extended PSN nearest to the one expected (R412), none below 0. -/
def extPsn (expected psn : Nat) : Option Nat :=
  let d := signedOf 24 ((psn + 2 ^ 24 - expected % 2 ^ 24) % 2 ^ 24)
  if (expected : Int) + d < 0 then none else some ((expected : Int) + d).toNat

/-- The frame that carries a RoCEv2 packet: its headers, payload, tag and checks. -/
def packetFrame (p : RocePacket) : EthFrame :=
  { port := p.port, length := 14 + (if p.dst.length = 4 then 20 else 40) + 8 + p.header.length + p.payload.length + p.tag.length + 8
    kind := .udp p.dst rocePort }

/-- Whether the header of a packet, which its tag covers, says what the packet asks for: its opcode, QPN and PSN, and the address, R_Key and length of a
request that has them (R412). -/
def packetHeaderOk (p : RocePacket) : Bool :=
  let at_ (off n : Nat) : Nat := beNat ((p.header.drop off).take n)
  at_ 0 1 = p.opcode.toNat && at_ 5 3 = p.qpn.toNat && at_ 9 3 = p.psn.toNat &&
  (!(startsWrite p.opcode || p.opcode == readRequest) ||
    (at_ 12 8 = p.va.toNat && at_ 20 4 = p.rkey.toNat && at_ 24 4 = p.len.toNat))

/-- Whether a queue pair works on a port (R411): one that no packet has reached yet binds to the port of its first (log 93). -/
def State.portTakes (s : State) (q : QueuePair) (port : Nat) : Bool :=
  match q.port with
  | some n => n = port
  | none => decide ((s.qps.filter (fun e => decide (e.2.port = some port))).length < portPairs)

/-- A packet taken (R410 to R412): its queue pair with the packet counted, its extended PSN and its data. None when it is dropped. -/
def State.openRoce (s : State) (p : RocePacket) : Option (QueuePair × Nat × List Byte) :=
  if s.mgmt.phase ≠ .service || !s.takesFrame (packetFrame p) || !packetHeaderOk p then none
  else match s.qps.find? p.qpn.toNat with
    | none => none
    | some q =>
      if 2 ^ 32 ≤ q.packetsIn || 2 ^ 32 ≤ q.packetsOut || !s.portTakes q p.port then none
      else match extPsn q.psn p.psn.toNat with
        | none => none
        | some ext =>
          (gcmOpen q.key (roceNonce dirIn p.qpn ext) p.header p.payload p.tag).map
            (fun d => ({ q with port := some p.port, packetsIn := q.packetsIn + 1 }, ext, d))

/-- Put a sealed packet of a queue pair on its port, unless 2^32 have left under its key (R412). -/
def State.putRoce (s : State) (port : Nat) (qpn : BitVec 24) (q : QueuePair) (header sealedData : List Byte) : State :=
  if 2 ^ 32 ≤ q.packetsOut then s
  else { s with
    qps := s.qps.put qpn.toNat { q with packetsOut := q.packetsOut + 1 }
    outbox := s.outbox ++ [.roce port header sealedData] }

/-- Answer on a queue pair, the data sealed and the packet kept for a retransmission (R412). -/
def State.sendRoce (s : State) (port : Nat) (qpn : BitVec 24) (ext : Nat) (header data : List Byte) : State :=
  match s.qps.find? qpn.toNat with
  | none => s
  | some q =>
    let sealedData := gcmSeal q.key (roceNonce dirOut qpn ext) header data
    s.putRoce port qpn { q with sent := q.sent.put ext (header, sealedData) } header sealedData

/-- Answer a request seen before (R412): the answers at its extended PSNs go out again as they were. -/
def State.resendRoce (s : State) (p : RocePacket) (q : QueuePair) (ext n : Nat) : Result :=
  let s : State := { s with qps := s.qps.put p.qpn.toNat q }
  .next ((rangeFrom ext n).foldl (fun (s : State) i => match s.qps.find? p.qpn.toNat with
    | none => s
    | some q => match q.sent.find? i with
      | none => s
      | some (h, d) => s.putRoce p.port p.qpn q h d) s)

/-- Acknowledge or refuse a packet, with the queue pair as it is after it. -/
def State.ackRoce (s : State) (p : RocePacket) (q : QueuePair) (ext syndrome : Nat) : Result :=
  let s : State := { s with qps := s.qps.put p.qpn.toNat q }
  .next (s.sendRoce p.port p.qpn ext (bth 0x11 p.qpn ext ++ aeth syndrome q.msn) [])

/-- A packet that the network marked is answered with a CNP (R411, R412): its 16 reserved bytes go with the header, and what is sealed is empty
(log 29). -/
def State.cnp (s : State) (p : RocePacket) (ext : Nat) : State :=
  match s.qps.find? p.qpn.toNat with
  | some q =>
    if p.ecn then
      let h := bth 0x81 p.qpn ext ++ List.replicate 16 0
      s.putRoce p.port p.qpn q h (gcmSeal q.key (roceNonce dirOut p.qpn ext) h [])
    else s
  | none => s

/-- A packet as the requests see it (R411, R412): dropped, answered again where it was seen before, `n` the answers it had; out of order refused;
or the next of its queue pair, after its CNP. -/
def State.withRoce (s : State) (p : RocePacket) (n : Nat) (k : State → QueuePair → Nat → List Byte → Result) : Result :=
  match s.openRoce p with
  | none => s.stay
  | some (q, ext, d) =>
    let s := ({ s with qps := s.qps.put p.qpn.toNat q } : State).cnp p ext
    match s.qps.find? p.qpn.toNat with
    | none => s.stay
    | some q =>
      if ext < q.psn then s.resendRoce p q ext n
      else if q.psn < ext then s.ackRoce p q q.psn nakSequence
      else k s q ext d

/-- Whether a request's R_Key and range are its bent's (R411): the bent's window base. -/
def State.window? (s : State) (p : RocePacket) (q : QueuePair) : Option Word :=
  match s.bents.find? q.bent with
  | none => none
  | some b => if p.rkey.toNat = q.bent && decide (p.va.toNat + p.len.toNat ≤ b.stagen) then some b.stage else none

/-- The data of a WRITE packet that is next in order meets the window (R411, R413). -/
def State.writeRoce (s : State) (p : RocePacket) (q : QueuePair) (ext : Nat) (d : List Byte) : Result :=
  let q := if startsWrite p.opcode then { q with writeAt := p.va.toNat, writeLeft := p.len.toNat } else q
  let more := !endsWrite p.opcode
  let next : QueuePair := { q with psn := q.psn + 1 }
  let refused : QueuePair := { next with writeLeft := 0 }
  if (if more then d.length != roceData || decide (q.writeLeft ≤ roceData) else d.length != q.writeLeft || decide (roceData < d.length)) then
    s.ackRoce p refused ext nakInvalid
  else if startsWrite p.opcode && (s.window? p q).isNone then s.ackRoce p refused ext nakAccess
  else match s.bents.find? q.bent with
    | none => s.ackRoce p refused ext nakAccess
    | some b =>
      match s.gWrite homeBay (Issuer.of (.host p.qpn.toNat) q.bent) (b.stage + BitVec.ofNat 64 q.writeAt) d with
      | .ok s _ =>
        let done : QueuePair := { next with
          writeAt := q.writeAt + d.length, writeLeft := q.writeLeft - d.length, msn := if more then q.msn else q.msn + 1 }
        s.ackRoce p done ext ackSyndrome
      | .fault _ _ => s.ackRoce p refused ext nakAccess
      | .silent _ late => (s.sendLate (Issuer.of (.host p.qpn.toNat) q.bent) late).ackRoce p refused ext nakAccess
      | .stall => s.stay

/-- RDMA_WRITE (R411 to R413). -/
def execRdmaWrite (p : RocePacket) (s : State) : Result :=
  if !p.reliableConnected || !isWriteOp p.opcode then s.stay
  else s.withRoce p 1 (fun s q ext d =>
    if (q.writeLeft != 0) = startsWrite p.opcode then s.ackRoce p { q with psn := q.psn + 1, writeLeft := 0 } ext nakInvalid
    else s.writeRoce p q ext d)

/-- Packets of a READ's answer, `i` the position of the first. -/
def State.readAnswers (s : State) (p : RocePacket) (ext msn n : Nat) : Nat → List Byte → State
  | 0, _ => s
  | f + 1, d =>
    let i := n - (f + 1)
    let op : Byte := if n = 1 then 0x10 else if i = 0 then 0x0D else if f = 0 then 0x0F else 0x0E
    let h := bth op p.qpn (ext + i) ++ (if op = 0x0E then [] else aeth ackSyndrome msn)
    State.readAnswers (s.sendRoce p.port p.qpn (ext + i) h (d.take roceData)) p ext msn n f (d.drop roceData)

/-- Packets of a READ's answer (R411, R412). -/
def readAnswerCount (p : RocePacket) : Nat := max 1 ((p.len.toNat + roceData - 1) / roceData)

/-- RDMA_READ (R411, R412). -/
def execRdmaRead (p : RocePacket) (s : State) : Result :=
  if !p.reliableConnected || p.opcode != readRequest then s.stay
  else s.withRoce p (readAnswerCount p) (fun s q ext _ =>
    let n := (readAnswerCount p)
    let refused : QueuePair := { q with psn := q.psn + 1, writeLeft := 0 }
    if q.writeLeft != 0 then s.ackRoce p refused ext nakInvalid
    else match s.window? p q with
      | none => s.ackRoce p refused ext nakAccess
      | some base =>
        match s.gRead homeBay (Issuer.of (.host p.qpn.toNat) q.bent) (base + p.va) p.len.toNat with
        | .ok s d =>
          let q : QueuePair := { q with psn := q.psn + n, msn := q.msn + 1 }
          .next (({ s with qps := s.qps.put p.qpn.toNat q }).readAnswers p ext q.msn n n d)
        | .stall => s.stay
        | _ => s.ackRoce p refused ext nakAccess)

/-- ROCE_INVALID_REQUEST (R411): every other opcode and transport. -/
def execRoceInvalidRequest (p : RocePacket) (s : State) : Result :=
  if p.reliableConnected && roceSupported p.opcode then s.stay
  else s.withRoce p 1 (fun s q ext _ => s.ackRoce p { q with psn := q.psn + 1, writeLeft := 0 } ext nakInvalid)

end Sys2Proof.Machine
end

