-- ==== Sys2Proof/Machine/LoadStore.lean ====
section
/-! DEFINITION. Loads and stores (R120, R145, R146). -/

namespace Sys2Proof.Machine

/-- R120, R145. -/
def execLdB (d a : RegNo) (c : BitVec 4) (o : BitVec 2) (f : BitVec 10) (s : State) : Result :=
  s.load (memAddr s a f 1) 1 c o (.x d 1 true)

/-- R120, R145. -/
def execLdH (d a : RegNo) (c : BitVec 4) (o : BitVec 2) (f : BitVec 10) (s : State) : Result :=
  s.load (memAddr s a f 2) 2 c o (.x d 2 true)

/-- R120, R145. -/
def execLdW (d a : RegNo) (c : BitVec 4) (o : BitVec 2) (f : BitVec 10) (s : State) : Result :=
  s.load (memAddr s a f 4) 4 c o (.x d 4 true)

/-- R120, R145. -/
def execLdD (d a : RegNo) (c : BitVec 4) (o : BitVec 2) (f : BitVec 10) (s : State) : Result :=
  s.load (memAddr s a f 8) 8 c o (.x d 8 true)

/-- R120, R145. -/
def execLdBn (d a : RegNo) (c : BitVec 4) (o : BitVec 2) (f : BitVec 10) (s : State) : Result :=
  s.load (memAddr s a f 1) 1 c o (.x d 1 false)

/-- R120, R145. -/
def execLdHn (d a : RegNo) (c : BitVec 4) (o : BitVec 2) (f : BitVec 10) (s : State) : Result :=
  s.load (memAddr s a f 2) 2 c o (.x d 2 false)

/-- R120, R145. -/
def execLdWn (d a : RegNo) (c : BitVec 4) (o : BitVec 2) (f : BitVec 10) (s : State) : Result :=
  s.load (memAddr s a f 4) 4 c o (.x d 4 false)

/-- R120, R145. -/
def execLdFw (d a : RegNo) (c : BitVec 4) (o : BitVec 2) (f : BitVec 10) (s : State) : Result :=
  s.load (memAddr s a f 4) 4 c o (.f d 4)

/-- R120, R145. -/
def execLdFd (d a : RegNo) (c : BitVec 4) (o : BitVec 2) (f : BitVec 10) (s : State) : Result :=
  s.load (memAddr s a f 8) 8 c o (.f d 8)

/-- R101, R120, R145: two registers, from an even one. -/
def execLdA16 (d : BitVec 4) (a : RegNo) (c : BitVec 4) (o : BitVec 2) (f : BitVec 10) (s : State) : Result :=
  s.load (memAddr s a f 16) 16 c o (.pair (d ++ 0#1))

/-- R101, R120, R145: two registers, from an even one, in two 8-byte halves. -/
def execLdV16 (d : BitVec 4) (a : RegNo) (c : BitVec 4) (o : BitVec 2) (f : BitVec 10) (s : State) : Result :=
  s.dataUnits (memAddr s a f 16) 16 .read c o [(.load (.x (d ++ 0#1) 8 false), 0, 8), (.load (.x (d ++ 1#1) 8 false), 8, 8)]

/-- R120, R145. -/
def execStB (r a : RegNo) (c : BitVec 4) (o : BitVec 2) (f : BitVec 10) (s : State) : Result :=
  s.store (memAddr s a f 1) 1 c o (s.getX r).toNat

/-- R120, R145. -/
def execStH (r a : RegNo) (c : BitVec 4) (o : BitVec 2) (f : BitVec 10) (s : State) : Result :=
  s.store (memAddr s a f 2) 2 c o (s.getX r).toNat

/-- R120, R145. -/
def execStW (r a : RegNo) (c : BitVec 4) (o : BitVec 2) (f : BitVec 10) (s : State) : Result :=
  s.store (memAddr s a f 4) 4 c o (s.getX r).toNat

/-- R120, R145. -/
def execStD (r a : RegNo) (c : BitVec 4) (o : BitVec 2) (f : BitVec 10) (s : State) : Result :=
  s.store (memAddr s a f 8) 8 c o (s.getX r).toNat

/-- R120, R145. -/
def execStFw (r a : RegNo) (c : BitVec 4) (o : BitVec 2) (f : BitVec 10) (s : State) : Result :=
  s.store (memAddr s a f 4) 4 c o (s.getF r).toNat

/-- R120, R145. -/
def execStFd (r a : RegNo) (c : BitVec 4) (o : BitVec 2) (f : BitVec 10) (s : State) : Result :=
  s.store (memAddr s a f 8) 8 c o (s.getF r).toNat

/-- The 16 bytes of a register pair, the even register low (R120). -/
def State.pairOf (s : State) (r : BitVec 4) : Nat := (s.getX (r ++ 0#1)).toNat + 2 ^ 64 * (s.getX (r ++ 1#1)).toNat

/-- R101, R120, R145: two registers, from an even one. -/
def execStA16 (r : BitVec 4) (a : RegNo) (c : BitVec 4) (o : BitVec 2) (f : BitVec 10) (s : State) : Result :=
  s.store (memAddr s a f 16) 16 c o (s.pairOf r)

/-- R101, R120, R145: two registers, from an even one, in two 8-byte halves. -/
def execStV16 (r : BitVec 4) (a : RegNo) (c : BitVec 4) (o : BitVec 2) (f : BitVec 10) (s : State) : Result :=
  s.dataUnits (memAddr s a f 16) 16 .write c o
    [(.store (leBytes 8 (s.getX (r ++ 0#1)).toNat), 0, 8), (.store (leBytes 8 (s.getX (r ++ 1#1)).toNat), 8, 8)]

end Sys2Proof.Machine
end

