-- ==== Sys2Proof/Machine/Power.lean ====
section
/-! DEFINITION. Power, heat, bring-up and fatal errors (R38 to R41, R422, R423, R428 to R430). -/

namespace Sys2Proof.Machine

/-! ## Power and heat -/

def clockFloor : Nat := 1000
def clockTop : Nat := 3300
def clockStep : Nat := 50

/-- Whether firmware serves the module. -/
def Phase.managed : Phase → Bool
  | .service | .belowCounts => true
  | .fatal | .stopped | .off => false

/-- Whether some die holds the clock down (R423). -/
def State.dieHold (s : State) : Bool := s.bays.any (fun e => e.2.hold)

/-- Whether the power manager and the die sensors run: also after a fatal error, whose telemetry carries them (R422, R427, R429). -/
def Phase.powered : Phase → Bool
  | .service | .belowCounts | .fatal => true
  | .stopped | .off => false

/-- Whether the next measurement is due (R422): 100 µs after the last. -/
def State.sampleDue (s : State) : Bool :=
  match s.mgmt.sampledAt with
  | none => true
  | some t => decide (t + 100000 ≤ s.elapsed)

/-- The bays' die temperatures as a measurement finds them (R427). -/
def State.measureTemps (s : State) (temps : List Int) : State :=
  (indexed 0 (temps.take 8)).foldl (fun (s : State) e => s.setBay e.1 { s.bay e.1 with temp := e.2 }) s

/-- POWER_SAMPLE (R422, R427): a measurement every 100 µs; the clock follows the average of the last ten. -/
def execPowerSample (p : PowerReading) (s : State) : Result :=
  if !s.mgmt.phase.powered || !s.sampleDue then s.stay
  else
    let s := s.measureTemps p.temps
    let m := { s.mgmt with sampledAt := some s.elapsed }
    let l := (p.watts :: m.samples).take 10
    let sum := l.foldl (· + ·) 0
    let above := decide (3600 * l.length < sum)
    let under := decide (sum < 3400 * l.length)
    let clock := if above then max clockFloor (m.clockMHz - clockStep)
      else if under && !s.dieHold then min clockTop (m.clockMHz + clockStep) else m.clockMHz
    let capping := if above then true else if under && decide (clock = clockTop) then false else m.capping
    let s : State := { s with mgmt := { m with samples := l, avgPower := sum / l.length, clockMHz := clock, capping := capping } }
    .next (if above && !m.capping then s.note 4 0 0 else s)

/-- THERMAL_HOLD (R423): a die at 105 °C or more holds the clock at 1.0 GHz. -/
def execThermalHold (bay : Nat) (temp : Int) (s : State) : Result :=
  if temp < 105 || !s.mgmt.phase.managed then s.stay
  else
    let y := s.bay bay
    let t := s.setBay bay { y with temp := temp, hold := true }
    let t : State := { t with mgmt := { t.mgmt with clockMHz := clockFloor } }
    .next (if y.hold then t else t.note 5 bay 0)

/-- THERMAL_RELEASE (R423): below 100 °C the hold ends. -/
def execThermalRelease (bay : Nat) (temp : Int) (s : State) : Result :=
  let y := s.bay bay
  if 100 ≤ temp || !y.hold then s.stay else .next (s.setBay bay { y with temp := temp, hold := false })

/-! ## Fatal errors -/

/-- The first position of a key among the owner keys; 0xFF where it stands no more (R430). -/
def ownerIndex (keys : List (List Byte)) (key : List Byte) : Nat :=
  match List.find? (fun (e : Nat × List Byte) => decide (e.2 = key)) (indexed 0 keys) with
  | some e => e.1
  | none => 0xFF

/-- The section of the dump that a bent gives (R426, R430, log 31): its record, with the poison of its units. -/
def State.dumpSection (s : State) (e : Nat × Bent) : DumpSection :=
  { owner := some e.2.owner, index := ownerIndex s.mgmt.config.ownerKeys e.2.owner, bent := e.1, data := s.bentRecord e.1 e.2
    poison := (rangeFrom 0 32).filter (fun i => s.poison.has ((s.bentLoc e.1).pa / 8 + i)) }

/-- A fatal error (R429, R430): every bent is killed under cause 0x10, and the dump is written. -/
def State.fatal (s : State) (cause : Nat) : State :=
  let t := (AMap.keys s.bents).foldl (fun (s : State) b => s.killBent b 0x10 0) s
  let d : Dump := { ts := s.timestamp, cause := cause, sections := t.bents.map t.dumpSection }
  { t with mgmt := { t.mgmt with phase := .fatal, dump := some d } }

/-- THERMAL_TRIP (R423, R429). -/
def execThermalTrip (bay : Nat) (temp : Int) (s : State) : Result :=
  if temp < 115 || !s.mgmt.phase.managed then s.stay
  else .next ((s.setBay bay { s.bay bay with temp := temp }).fatal 1)

/-- FIRMWARE_STATE_ERROR (R429). -/
def execFirmwareStateError (s : State) : Result := if s.mgmt.phase.managed then .next (s.fatal 2) else s.stay

/-- INPUT_POWER_FAULT (R429). -/
def execInputPowerFault (s : State) : Result := if s.mgmt.phase.managed then .next (s.fatal 3) else s.stay

/-! ## Bring-up -/

/-- Whether a module meets the counts of R40. -/
def meetsCounts (bays : List Nat) (chans : Nat) : Bool :=
  decide (1984 ≤ bays.foldl (· + ·) 0) && bays.all (fun n => decide (240 ≤ n)) && decide (372 ≤ chans)

/-- Whether the root secret as the PUF gives it has the digest of the helper data (R419). -/
def rootOk (root : List Byte) : Bool := sha256 root = sha256 Config.rootSecret

/-- Whether boot ROM accepts the firmware (R420): the vendor key that it knows by digest has signed its version and image, and the version is not
below the floor. -/
def firmwareOk (floor : Nat) (f : Firmware) : Bool :=
  sha256 f.vendorKey = Config.vendorKeyDigest && Config.slhVerify f.vendorKey (leBytes 8 f.version.toNat ++ f.image) f.signature &&
  decide (floor ≤ f.version.toNat)

/-- The cores that bring-up enables, by physical number, bay by bay (R428 step 5): those that pass their tests and that the flash list does not name;
an invalid list names every core. -/
def enabledCores (b : BringUp) (flashList : List Nat) : List (List Nat) :=
  (indexed 0 b.passed).map (fun e =>
    if b.flashListValid then (rangeFrom (256 * e.1) 256).filter (fun p => e.2.contains (p - 256 * e.1) && !flashList.contains p) else [])

/-- The phase that bring-up ends in (R419, R420, R428, R40). -/
def bringUpPhase (floor : Nat) (b : BringUp) (bays : List Nat) : Phase :=
  if !rootOk b.root || !firmwareOk floor b.firmware then .stopped else if meetsCounts bays b.chans then .service else .belowCounts

/-- What survives any loss of the rest: the flash, and the model's own counters. -/
def State.blank (s : State) : State :=
  let r := State.reset
  { r with
    sched := s.sched, turns := s.turns, cur := s.cur, defer := s.defer, free := s.free, stamp := s.stamp, elapsed := s.elapsed, clk := s.clk
    outbox := s.outbox
    mgmt := { r.mgmt with config := s.mgmt.config, flashList := s.mgmt.flashList ++ s.mgmt.listed, draws := s.mgmt.draws } }

/-- Bring-up (R428). Every key slot holds a fresh value (R418). -/
def State.bringUp (s : State) (b : BringUp) (dump : Option Dump) : State :=
  let t := s.blank
  let cores := enabledCores b t.mgmt.flashList
  let bays := cores.map List.length
  let draw := s.mgmt.draws + 1
  { t with
    keys := (rangeFrom 0 256).map (fun i => (i, Config.drbgKey i draw))
    mgmt := { t.mgmt with
      phase := bringUpPhase t.mgmt.config.floor b bays, chans := b.chans, bayCores := bays, physical := cores.flatten, dump := dump, draws := draw
      fwHash := sha256 b.firmware.image, fwVersion := b.firmware.version, fwBuild := b.firmware.build } }

/-- POWER_UP (R428). -/
def execPowerUp (b : BringUp) (s : State) : Result :=
  if s.mgmt.phase = .off then .next (s.bringUp b none) else s.stay

/-- RESET_INPUT (R428, R429): the dump is preserved. -/
def execResetInput (b : BringUp) (s : State) : Result :=
  if s.mgmt.phase = .off then s.stay else .next (s.bringUp b s.mgmt.dump)

/-- POWER_REMOVAL (R428, R429): no state is kept without input power. -/
def execPowerRemoval (s : State) : Result :=
  let t := s.blank
  .next { t with mgmt := { t.mgmt with phase := .off } }

end Sys2Proof.Machine
end

