-- ==== Sys2Proof/Machine/Sched.lean ====
section
/-! DEFINITION. Peg scheduling (R338 to R342, R363 to R366, R371, R372, R433): dispatch, ageing, pre-emption and migration. -/

namespace Sys2Proof.Machine

/-! ## Eligibility -/

/-- The bays that a peg may not leave (R156, R371): of its phaser registrations, and of its frozen contexts' registrations and watches. -/
def State.baysOf (s : State) (id : Nat) (p : Peg) : List Nat :=
  let own := (s.phaserBay (.peg id)).toList
  match p.coreFrame with
  | none => own
  | some f => own ++ (f.ctxs.map (fun x =>
      (s.phaserBay (.context x.uid)).toList ++ (if x.phWatch.isEmpty then [] else [s.bayOf f.fromCore]))).flatten

/-- A ready peg with PIN, CORE and PSAVE as its record in memory holds them, which stores may change while no core runs it (R28). -/
def State.viewed (s : State) (p : Peg) : Peg :=
  match s.recordLoc homeBay p .both with
  | .error _ => p
  | .ok l =>
    let t := PegRecord.parse (s.readLoc l 64).2
    if p.st = .ready then { p with pin := t.pin, core := t.core, psave := t.psave } else p

/-- The live pegs, ready ones as their records have them. -/
def State.readyPegs (s : State) : List (Nat × Peg) := s.pegs.map (fun e => (e.1, s.viewed e.2))

/-- Whether a ready peg is eligible for a core, the core idle (R340, R371). -/
def State.eligible (s : State) (id : Nat) (p : Peg) (c : Nat) : Bool :=
  p.st = .ready && p.pool.isSome && !p.held && s.spareBudget p.bent && (!p.pin || p.core = c) &&
  (s.baysOf id p).all (fun b => b = s.bayOf c) &&
  (match s.bents.find? p.bent with
  | some r => !r.drain
  | none => false) &&
  (match p.coreFrame with
  | some f => !p.psave || (s.core c).fits p.bent f
  | none => true)

/-- Whether a control core is idle. -/
def State.idle (s : State) (c : Nat) : Bool := decide (c < s.coreCount) && (s.core c).peg.isNone

/-- Whether peg `a` is chosen before peg `b` (R340): the bent's rank, then the older. -/
def State.pegBefore (s : State) (a b : Nat × Peg) : Bool :=
  if a.2.bent = b.2.bent then decide (a.2.age < b.2.age) else s.bentBefore a.2.bent b.2.bent

/-! ## Dispatch -/

/-- A dispatch is counted (R338, R340, R341). -/
def State.countDispatch (s : State) (b : Nat) : State :=
  { s with stamp := s.stamp + 1 }.modBent b (fun r => { r with
    dispatches := r.dispatches + 1, lastDispatch := s.stamp + 1, effPrio := r.prio, agedAt := s.elapsed })

/-- The control core at a dispatch with PSAVE = 0 (R28, R108): the RO trap registers are the peg's own (R109). -/
def Core.fresh (k : Core) (p : Peg) (r : PegRecord) : Core :=
  let k := { k with
    x := Vector.replicate 32 0, f := Vector.replicate 32 0, d := Vector.replicate 16 0, pc := r.pc
    regs := { PegRegs.reset with trapCause := p.cause, trapInfo := p.info, trapAddr := p.addr } }
  ((((k.putX 3 r.fp).putX 10 r.a0).putX 11 r.a1).putX 12 r.a2).putX 13 r.a3

/-- A peg runs on a core: the record takes ST = 2 with PSAVE clear (R29, R339), the bent is charged. -/
def State.startPeg (s : State) (core id : Nat) (p : Peg) (l : Loc) (rec : List Byte) (k : Core) : State :=
  let w := fieldN rec 12 4
  let s := s.writeLoc l (patch rec 12 (leBytes 4 (w - w % 64 + (if p.pin then 2 ^ 4 else 0) + 2)))
  let s := s.setCore core { k with
    peg := some id, dispatched := s.elapsed, hactTime := p.hactTime, hactFrom := s.timestamp, spin := none, asked := none
    fetchAsked := none, preempt := none, preemptFor := none, halted := false }
  let s := s.modPeg id (fun q => { q with
    st := .running, pin := p.pin, core := p.core, psave := false, frameNo := none, coreFrameNo := none, coreFrame := none, wait := none, met := false })
  let s := s.modBent p.bent (fun r => { r with
    usedFrames := match p.frameNo with
      | some n => r.usedFrames.erase n
      | none => r.usedFrames
    usedCoreFrames := match p.coreFrameNo with
      | some n => r.usedCoreFrames.erase n
      | none => r.usedCoreFrames })
  s.countDispatch p.bent

/-- The frames of a peg that pre-emption saved, as the save area holds them (R365, R366): the peg frame's bytes, and DEV.STEP in the tag of its core frame;
none where they cannot be read. -/
def State.framesOf (s : State) (p : Peg) : Option (State × List Byte × Nat) :=
  match p.frameNo, s.saveHeader p.bent with
  | some n, some (s, h) =>
    (s.saveGet p.bent (h.pfo + 4096 * n) pegFrameSize).bind (fun r => match p.coreFrameNo with
      | none => some (r.1, r.2, devStep.toNat)
      | some m => (r.1.saveGet p.bent (h.cfo + coreFrameSize * m) 8).map (fun q => (q.1, r.2, leNat q.2)))
  | _, _ => none

/-- Dispatch a peg that pre-emption saved (R29, R371, R372). A frame that cannot be read ends the bent. -/
def State.resumePeg (s : State) (core id : Nat) (p : Peg) (l : Loc) (rec : List Byte) : State :=
  match s.framesOf p with
  | none => s.killBent p.bent 0x07 0
  | some (s, d, step) =>
    if decide (fieldN d 0 4 ≠ devStep.toNat) || decide (step ≠ devStep.toNat) then (s.modPeg id (fun p => { p with held := true })).reportMismatch p.bent p.recAddr
    else
      let k := (s.core core).ofFrame d
      match p.coreFrame with
      | none => s.startPeg core id p l rec k
      | some f =>
        let s := s.startPeg core id p l rec (k.putFrame f)
        s.putWindows core p.bent f.spilled

/-- PEG_DISPATCH (R340): the best-ranked peg eligible for an idle core. A record that fails its check, or that R8 or R339 refuses, ends the
bent (R433). -/
def execPegDispatch (core : Nat) (s : State) : Result :=
  if !s.idle core || s.mgmt.phase != .service then s.stay
  else match best s.pegBefore (s.readyPegs.filter (fun e => s.eligible e.1 e.2 core)) with
    | none => s.stay
    | some (id, p) =>
      if s.recordHeld p then s.stay
      else match s.recordLoc (s.bayOf core) p .both with
      | .error c => .next (s.killBent p.bent c 0)
      | .ok l =>
        let r := s.readLoc l 64
        let t := PegRecord.parse r.2
        if t.refused || 4 ≤ t.st then .next (r.1.killBent p.bent 0x09 0)
        else if p.psave then .next (r.1.resumePeg core id p l r.2)
        else .next ((r.1.dropSaved p).startPeg core id p l r.2 ((r.1.core core).fresh p t))

/-! ## Ageing -/

/-- AGE of a bay in nanoseconds (R341). -/
def State.ageOf (s : State) (bay : Nat) : Nat := 1000 * ((s.bay bay).age.extractLsb' 0 16).toNat

/-- PRIORITY_AGEING (R341): a full interval with a ready peg of the bent in this bay's pool and no dispatch. -/
def execPriorityAgeing (bay bent : Nat) (s : State) : Result :=
  match s.bents.find? bent with
  | none => s.stay
  | some r =>
    let waiting := s.pegs.filter (fun e => decide (e.2.bent = bent) && e.2.st = .ready && decide (e.2.pool = some bay) && !e.2.held)
    match minNat (waiting.map (fun e => e.2.readySince)) with
    | none => s.stay
    | some t =>
      let since := max r.agedAt t
      let cap := match r.parent with
        | some q => (match s.bents.find? q with
          | some b => b.prio
          | none => 15)
        | none => 15
      if r.drain || s.ageOf bay = 0 || s.elapsed < since + s.ageOf bay then s.stay
      else .next (s.modBent bent (fun r => { r with
        effPrio := if r.effPrio < cap then r.effPrio + 1 else r.effPrio, agedAt := since + s.ageOf bay }))

/-! ## Pre-emption -/

/-- The effective priority of a bent. -/
def State.prioOf (s : State) (b : Nat) : Nat :=
  match s.bents.find? b with
  | some r => r.effPrio
  | none => 0

/-- The machine as it would stand if the peg of a core left it (R342). -/
def State.withoutPeg (s : State) (core id : Nat) : State :=
  let k := s.core core
  let s := s.setCore core { k.freeFrame id (k.saveFrame core id) with peg := none }
  s.modPeg id (fun p => { p with st := .waiting })

/-- Whether a pre-emption finds the frames that it needs (R364). -/
def State.framesFree (s : State) (core id : Nat) (p : Peg) : Bool :=
  match s.bents.find? p.bent, s.saveHeader p.bent with
  | some _, some (_, h) =>
    (freeFrame (s.framesUsed p.bent Bent.usedFrames) h.npf).isSome &&
      (!(s.core core).holdsFor id || (freeFrame (s.framesUsed p.bent Bent.usedCoreFrames) h.ncf).isSome)
  | _, _ => false

/-- Whether the peg of a core may be pre-empted for a ready peg (R342). -/
def State.yields (s : State) (id : Nat) (p : Peg) (core q : Nat) : Bool :=
  match s.pegs.find? q with
  | none => false
  | some v =>
    let k := s.core core
    k.preempt.isNone && decide (s.prioOf v.bent < s.prioOf p.bent) &&
    decide (k.dispatched + s.ageOf (v.pool.getD 0) ≤ s.elapsed) && (s.withoutPeg core q).eligible id p core

/-- PREEMPTION_REQUEST (R342, R364): the ready peg `id` finds no idle core eligible, and pre-empts no peg yet; the running peg that qualifies is asked to
stop, unless its save area has no frame for it. -/
def execPreemptionRequest (id : Nat) (s : State) : Result :=
  match s.pegs.find? id with
  | none => s.stay
  | some p =>
    let p := s.viewed p
    if p.st != .ready || p.pool.isNone || p.held || s.cores.any (fun e => decide (e.2.preemptFor = some id)) || (rangeFrom 0 s.coreCount).any (fun c => s.idle c && s.eligible id p c) then s.stay
    else
      let cands := s.cores.filterMap (fun e => match e.2.peg with
        | some q => if s.yields id p e.1 q then some (e.1, q) else none
        | none => none)
      let before (a b : Nat × Nat) : Bool :=
        let x := s.prioOf ((s.pegs.find? a.2).map Peg.bent |>.getD 0)
        let y := s.prioOf ((s.pegs.find? b.2).map Peg.bent |>.getD 0)
        if x ≠ y then decide (x < y) else decide ((s.core a.1).dispatched < (s.core b.1).dispatched)
      match best before cands with
      | none => s.stay
      | some (core, q) =>
        match s.pegs.find? q with
        | none => s.stay
        | some v =>
          if !s.framesFree core q v then s.stay
          else .next (s.setCore core { s.core core with preempt := some s.clk, preemptFor := some id })

/-- Whether everything of a peg on its core has stopped (R364). -/
def Core.quiet (k : Core) (id : Nat) : Bool :=
  k.ctxs.all (fun x => !(decide (x.peg = id)) || ((x.frozen || x.ended) && x.srfx.isEmpty))

/-- Save the peg of the acting core into its frames (R364 to R366, R433): a save area that cannot be written, or a record that fails its
check, ends the bent; for want of a frame the peg and its contexts go on. -/
def State.savePeg (s : State) (id : Nat) (p : Peg) : State :=
  match s.recordLoc s.myBay p .both, s.saveHeader p.bent with
  | .error c, _ => s.killBent p.bent c 0
  | .ok _, none => s.killBent p.bent 0x07 0
  | .ok l, some (s, h) =>
    let k := s.me
    let holds := k.holdsFor id
    let f := k.saveFrame s.cur id
    match freeFrame (s.framesUsed p.bent Bent.usedFrames) h.npf,
      (if holds then freeFrame (s.framesUsed p.bent Bent.usedCoreFrames) h.ncf else some 0) with
    | some n, some m =>
      let cf := if holds then some m else none
      (match (s.savePut p.bent (h.pfo + 4096 * n) (pegFrameBytes k cf)).bind (fun s =>
          if holds then s.saveCore p.bent (h.cfo + coreFrameSize * m) f else some s) with
      | none => s.killBent p.bent 0x07 0
      | some s =>
        let s := s.writeRecord l (stateWord 1 holds true (if holds then s.cur else 0)) k.pc
        let s := s.modPeg id (fun p => { p with
          st := .ready, psave := true, pin := holds, core := if holds then s.cur else 0, age := s.stamp, readySince := s.elapsed
          frameNo := some n, coreFrameNo := cf, coreFrame := if holds then some f else none })
        let s := s.modBent p.bent (fun r => { r with
          preempts := r.preempts + 1, usedFrames := r.usedFrames.put n ()
          usedCoreFrames := if holds then r.usedCoreFrames.put m () else r.usedCoreFrames })
        let s := { s with stamp := s.stamp + 1 }.vacate
        s.setMe (s.me.freeFrame id f))
    | _, _ => s.setMe { k with
        preempt := none, preemptFor := none, halted := false
        ctxs := k.ctxs.map (fun x => if x.peg = id && x.trap.isNone && x.accWait.isNone then { x with frozen := false } else x) }

/-- PREEMPTION_COMPLETE (R364, R365). -/
def execPreemptionComplete (core : Nat) (s : State) : Result :=
  let k := s.core core
  match k.peg with
  | none => s.stay
  | some id =>
    match s.pegs.find? id with
    | none => s.stay
    | some p =>
      if k.preempt.isNone || !k.halted || !k.quiet id then s.stay
      else match s.bents.find? p.bent with
        | none => s.stay
        | some r => if r.drain || s.recordHeld p then s.stay else .next ({ s with cur := core }.savePeg id p)

/-! ## Migration -/

/-- The windows that a bent owns under a frame's ACC allocations on a core (R371). -/
def Core.ownedWindows (k : Core) (b : Nat) (f : CoreFrame) : List Nat :=
  ((allocRanges f.allocs .acc).map (fun r => unitsOf .acc r.1 r.2)).flatten.filter (fun w => ownedBy (k.ownEntry w) b)

/-- PEG_MIGRATION (R371): a pinned peg that pre-emption saved, ready for an AGE interval with its own core unavailable, moves to an idle
core that can take it; its bent's windows under its allocations are spilled on the old core, and a bent without slots for them ends (R369). -/
def execPegMigration (id core : Nat) (s : State) : Result :=
  match s.pegs.find? id with
  | none => s.stay
  | some p =>
    let p := s.viewed p
    match p.coreFrame with
    | none => s.stay
    | some f =>
      let there := s.eligible id { p with core := core, coreFrame := some { f with fromCore := core } } core
      let sameBay := (s.baysOf id p).isEmpty || s.bayOf core = s.bayOf p.core
      if !p.pin || !p.psave || core = p.core || !s.idle core || (s.idle p.core && s.eligible id p p.core) || !there || !sameBay || s.recordHeld p ||
          f.cmds.any (fun c => c.ws.wsem != 255 && !c.wok) || s.elapsed < p.readySince + s.ageOf (p.pool.getD 0) then s.stay
      else match s.recordLoc (s.bayOf core) p .both with
        | .error c => .next (s.killBent p.bent c 0)
        | .ok l =>
          let ws := (s.core p.core).ownedWindows p.bent f
          match s.spillAll p.core p.bent ws with
          | none => .next (s.killBent p.bent 0x0B 0)
          | some s =>
            let f := { f with spilled := f.spilled ++ ws.map (fun w => (p.core, w)), fromCore := core }
            let s := s.setCore p.core (ws.foldl Core.clearWindow (s.core p.core))
            let r := s.readLoc l 64
            let w := fieldN r.2 12 4
            let s := r.1.writeLoc l (patch r.2 12 (leBytes 4 (w % 2 ^ 16 + core * 2 ^ 16)))
            .next (s.modPeg id (fun p => { p with core := core, coreFrame := some f }))

end Sys2Proof.Machine
end

