-- ==== Sys2Proof/Machine/Sync.lean ====
section
/-! DEFINITION. Semaphores, phasers, JOIN and YIELD of the control core (R151 to R158, R160, R161). -/

namespace Sys2Proof.Machine

/-! ## Semaphores -/

/-- R153, R154: a release at CORE scope over all classes. -/
def execSemsig (a : RegNo) (n : BitVec 8) (s : State) : Result :=
  s.release 1 allClasses (fun s =>
    match s.addSem s.cur n.toNat ((s.getX a).extractLsb' 0 16).toInt with
    | none => s.trap 0x13
    | some s => .next s.skip)

/-- The threshold of a wait (R153). -/
def State.threshold (s : State) (a : RegNo) : Nat := ((s.getX a).extractLsb' 0 16).toNat

/-- R153: stalls until the count reaches the threshold. -/
def execSemwait (a : RegNo) (n : BitVec 8) (s : State) : Result :=
  if s.threshold a ≤ s.me.sem n.toNat then .next s.skip else s.stay

/-- R153: as SEMWAIT, but a peg that holds core-local state suspends. -/
def execSemwaitS (a : RegNo) (n : BitVec 8) (s : State) : Result :=
  s.withRecord (fun s l =>
    if s.threshold a ≤ s.me.sem n.toNat then .next s.skip
    else match s.pegId with
      | some id => if s.me.holdsFor id then s.suspendAt l .waiting (some (.sem n.toNat (s.threshold a))) else s.stay
      | none => s.stay)

/-- R153. -/
def execSemrd (d : RegNo) (n : BitVec 8) (s : State) : Result := s.retX d (BitVec.ofNat 64 (s.me.sem n.toNat))

/-! ## Phasers -/

/-- The membership of the running peg. -/
def State.asMember (s : State) : Member := .peg (s.pegId.getD 0)

/-- Check that the running peg may operate on phaser `n` of its bay (R156), then go on. -/
def State.withPhaser (s : State) (n : BitVec 10) (k : Phaser → Result) : Result :=
  if s.ownsPhaser s.myBent n.toNat then k (s.phaser s.myBay n.toNat) else s.trap 0x14

/-- R157: registration; a member takes cause 0x14. -/
def execPhreg (m : BitVec 2) (n : BitVec 10) (s : State) : Result :=
  s.withPhaser n (fun ph =>
    match ph.member s.asMember, phModeOf m with
    | none, some mode => .next (s.setPhaser s.myBay n.toNat (ph.register s.asMember mode)).skip
    | _, _ => s.trap 0x14)

/-- R157: a drop that counts as a signal is a release at BAY (R292). -/
def execPhdrop (n : BitVec 10) (s : State) : Result :=
  s.withPhaser n (fun ph =>
    match ph.member s.asMember with
    | none => s.trap 0x14
    | some (mode, l) =>
      if mode.signals && l = ph.p then
        s.release 2 allClasses (fun s => .next (s.setPhaser s.myBay n.toNat (ph.dropMember s.asMember)).skip)
      else .next (s.setPhaser s.myBay n.toNat (ph.dropMember s.asMember)).skip)

/-- R157: L := L + 1, a release at BAY (R292). -/
def execPhsig (n : BitVec 10) (s : State) : Result :=
  s.withPhaser n (fun ph =>
    match ph.member s.asMember with
    | none => s.trap 0x14
    | some (mode, l) =>
      if !mode.signals || phaseGe l (ph.p + 1) then s.trap 0x14
      else s.release 2 allClasses (fun s => .next (s.setPhaser s.myBay n.toNat (ph.signal s.asMember)).skip))

/-- PHWAIT once its membership is checked: at phase `l` or beyond it completes, else the peg suspends (R152, R157). -/
def State.phaseWait (s : State) (rec : Loc) (d : RegNo) (n : Nat) (l : BitVec 32) (raised : Bool) : Result :=
  let ph := s.phaser s.myBay n
  let s' := if raised then s.setPhaser s.myBay n (ph.setL s.asMember l) else s
  if phaseGe ph.p l then s'.retX d (ph.p.zeroExtend 64)
  else
    s.release 3 allClasses (fun s =>
      let s' := if raised then s.setPhaser s.myBay n ((s.phaser s.myBay n).setL s.asMember l) else s
      .next (s'.suspend rec (s.pc + 4) .waiting (some (.phaser s.myBay n raised))))

/-- R157: a wait member first raises its L; a sigwait member that has not signalled past P completes at once (log 24). -/
def execPhwait (d : RegNo) (n : BitVec 10) (s : State) : Result :=
  s.withRecord (fun s rec => s.withPhaser n (fun ph =>
    match ph.member s.asMember with
    | none => s.trap 0x14
    | some (.sig, _) => s.trap 0x14
    | some (.wait, l) => s.phaseWait rec d n.toNat (l + 1) true
    | some (.sigwait, l) => s.phaseWait rec d n.toNat l false))

/-! ## Waiting on memory -/

/-- TMO and SPIN of MWAIT.TMO (R150). -/
def State.mwaitTmo (s : State) : Nat := (s.me.regs.mwaitTmo.extractLsb' 32 32).toNat

def State.mwaitSpin (s : State) : Nat := (s.me.regs.mwaitTmo.extractLsb' 0 16).toNat

/-- The line of a location (R151). -/
def lineOf (pa : Nat) : Nat := pa / 64 * 64

/-- R151: the first pass compares and arms; while the monitor spins, a wake event ends the wait with the value reloaded. -/
def execMwait (d a : RegNo) (s : State) : Result :=
  let va := s.getX a
  s.withRecord (fun s _ => s.withLoc va 8 8 0 .read true (fun s l =>
    let r := s.fetchLoc (some s.cur) s.myBay l 8
    let v : Word := BitVec.ofNat 64 (leNat r.2)
    let s := r.1
    match s.me.spin with
    | none =>
      if v = s.getX d then
        let sp : Spin := { line := lineOf l.pa, va := va, since := s.clk, sinceTs := s.timestamp, woken := false }
        .next (s.setMe { s.me with spin := some sp })
      else s.retX d v
    | some sp =>
      if sp.woken || s.timedOut s.mwaitTmo sp.sinceTs then (s.setMe { s.me with spin := none }).retX d v else s.stay))

/-- MWAIT_SPIN_EXPIRY (R150, R152): the quantum has passed and the waiting peg suspends; a wake event that came first keeps it. -/
def execMwaitSpinExpiry (c : Nat) (s : State) : Result :=
  let s := { s with cur := c }
  match s.me.spin with
  | none => s.stay
  | some sp =>
    if sp.woken || s.clk < sp.since + s.mwaitSpin || s.me.halted then s.stay
    else match s.peg? with
      | none => s.stay
      | some p => if s.recordHeld p then s.stay else match s.recordLoc s.myBay p .both with
        | .error _ => s.stay
        | .ok l =>
          if s.releaseWaits 3 allClasses then s.awaitAcks 3 allClasses
          else .next (s.suspend l (s.pc + 4) .waiting (some (.memory sp.line sp.va sp.sinceTs s.mwaitTmo)))

end Sys2Proof.Machine
end

