-- ==== Sys2Proof/Machine/Traps.lean ====
section
/-! DEFINITION. Traps at the instruction boundary and the end of their handlers (R126, R136, R172, R356 to R360, R369, R434). -/

namespace Sys2Proof.Machine

/-! ## Delivery -/

/-- Take the oldest pending trap of the running peg at its boundary, if `sel` selects it (R356, R357). -/
def State.takePending (s : State) (sel : Trap → Bool) : Result :=
  match s.pegId, s.peg? with
  | some id, some p =>
    if hact s.me.regs.trapCause then s.stay
    else match oldestTrap s.me.jnext p.pending with
      | none => s.stay
      | some t =>
        if !sel t then s.stay
        else
          let s := s.modPeg id (fun p => { p with pending := removeTrap t p.pending })
          .next (s.takeTrap t s.pc)
  | _, _ => s.stay

/-- TRAP_DELIVERY (R356, R357). -/
def execTrapDelivery (s : State) : Result := s.takePending (fun t => !t.deferred)

/-- DEFERRED_DATA_TRAP (R434): delivered before every other pending trap, at the instruction of the boundary. -/
def execDeferredDataTrap (s : State) : Result := s.takePending (fun t => t.deferred)

/-- ILLEGAL_INSTRUCTION (R126). -/
def execIllegalInstruction (s : State) : Result := s.trap 0x01

/-- INSTRUCTION_FETCH_FAULT (R136): the trap's pc is the instruction's, its address the word's whose check failed (R112). -/
def execInstructionFetchFault (s : State) : Result :=
  match s.fetch with
  | .fault code va => s.fetched.trapAt code va
  | _ => s.stay

/-- WATCHDOG (R359): a handler has run for one second. -/
def execWatchdog (core : Nat) (s : State) : Result :=
  let k := s.core core
  match k.peg with
  | none => s.stay
  | some id => match s.pegs.find? id with
    | none => s.stay
    | some p => if s.handlerTime k < 1000000000 then s.stay else .next (s.killBent p.bent 0x18 0)

/-! ## TRET and JDROP -/

/-- SEQ of TRAP.INFO (R354). -/
def PegRegs.trapSeq (r : PegRegs) : BitVec 32 := r.trapInfo.extractLsb' 32 32

/-- The context frozen by a trap under a journal number. -/
def Core.trappedCtx (k : Core) (n : BitVec 32) : Option Context :=
  List.find? (fun (x : Context) => decide (x.seq = n) && x.frozen && x.trap.isSome) k.ctxs

/-- The trapped context goes on at its trapping issue (R358), with the peg's threshold after cause 0x0D (R333). -/
def Core.resumeCtx (k : Core) (n : BitVec 32) (thr : Option Nat) : Core :=
  match k.trappedCtx n with
  | none => k
  | some x =>
    let k := k.setCtx { x.thaw with thr := thr.getD x.thr }
    match k.entry n with
    | some c => k.setEntry { c with st := .running, trap := none }
    | none => k

/-- The stopped entry of a trap is replayed (R210, R358). -/
def Core.resumeCmd (k : Core) (n : BitVec 32) (thr : Option Nat) : Core :=
  match k.entry n with
  | none => k
  | some c => if c.st = .stopped then k.setEntry { c.requeue with thr := thr.getD c.thr } else k

/-- R358. -/
def execTret (s : State) : Result :=
  let r := s.me.regs
  if !hact r.trapCause then s.trap 0x01
  else
    let thr := if trapCode r.trapCause = 0x0D then some (r.scrbRthr.extractLsb' 0 32).toNat else none
    let k := s.me
    let s := match trapKind r.trapCause with
      | 1 => s.setMe (k.resumeCtx r.trapSeq thr)
      | 2 | 3 => s.setMe (k.resumeCmd r.trapSeq thr)
      | _ => s
    .next s.returnFromTrap

/-- An entry that JDROP ends, its signal kept only with SIG (R172). A KRUN completes in its place among the KRUNs (R22). -/
def State.dropEntry (s : State) (c : Cmd) (sig : Bool) : State :=
  if c.op = .krun then
    let ws := if sig then c.ws else { c.ws with ssem := 255, sinc := 0 }
    s.putCmd s.cur { c with
      st := .running, dropped := true, halted := true, held := false, owed := [], trap := none, asked := none, ws := ws }
  else
    let s := if c.op = .coll && !c.block.isEmpty then s.abortRound s.myBay c.coll.round else s
    s.complete s.cur c sig

/-- R172. -/
def execJdrop (a : RegNo) (s : State) : Result :=
  let r := s.me.regs
  let kind := trapKind r.trapCause
  let sig := (s.getX a).getLsbD 0
  if !hact r.trapCause || kind = 0 then s.trap 0x01
  else
    let s := match kind, s.me.trappedCtx r.trapSeq with
      | 1, some x => s.dropContext s.cur x.uid
      | _, _ => s
    match s.me.entry r.trapSeq with
    | none => .next s.skip
    | some c => if c.st = .stopped then .next (s.dropEntry c sig).skip else .next s.skip

/-! ## Accumulator first use -/

/-- ACC_FIRST_USE (R369): firmware gives the window to the work that touched it, and resumes the work. -/
def execAccFirstUse (core : Nat) (w : AccWork) (s : State) : Result :=
  match w with
  | .context uid =>
    (match (s.core core).ctx? uid with
    | none => s.stay
    | some x => match x.accWait with
      | none => s.stay
      | some n =>
        let r := s.handOver core n x.bent
        if r.2 then .next (r.1.setCtx core x.thaw) else .next r.1)
  | .command q =>
    match (s.core core).head q with
    | none => s.stay
    | some c =>
      match c.trap with
      | none => s.stay
      | some t =>
        if c.st != .stopped || t.code ≠ 0x0B then s.stay
        else
          let r := s.handOver core t.addr.toNat c.bent
          if r.2 then .next (r.1.putCmd core (if c.held then { c with st := .running, trap := none } else c.requeue)) else .next r.1

end Sys2Proof.Machine
end

