-- ==== Sys2Proof/Machine/Dispatch.lean ====
section
/-! DEFINITION. The meaning of every instruction and event: one arm per constructor. -/

namespace Sys2Proof.Machine

def exec (i : Instr) (s : State) : Host.Outcome State Fault Refusal :=
  match i with
  | .add d a b => Sys2Proof.Machine.execAdd d a b s
  | .sub d a b => Sys2Proof.Machine.execSub d a b s
  | .and d a b => Sys2Proof.Machine.execAnd d a b s
  | .or d a b => Sys2Proof.Machine.execOr d a b s
  | .xor d a b => Sys2Proof.Machine.execXor d a b s
  | .sll d a b => Sys2Proof.Machine.execSll d a b s
  | .srl d a b => Sys2Proof.Machine.execSrl d a b s
  | .sra d a b => Sys2Proof.Machine.execSra d a b s
  | .slt d a b => Sys2Proof.Machine.execSlt d a b s
  | .sltN d a b => Sys2Proof.Machine.execSltN d a b s
  | .min d a b => Sys2Proof.Machine.execMin d a b s
  | .max d a b => Sys2Proof.Machine.execMax d a b s
  | .minN d a b => Sys2Proof.Machine.execMinN d a b s
  | .maxN d a b => Sys2Proof.Machine.execMaxN d a b s
  | .ror d a b => Sys2Proof.Machine.execRor d a b s
  | .clz d a => Sys2Proof.Machine.execClz d a s
  | .ctz d a => Sys2Proof.Machine.execCtz d a s
  | .popc d a => Sys2Proof.Machine.execPopc d a s
  | .addW d a b => Sys2Proof.Machine.execAddW d a b s
  | .subW d a b => Sys2Proof.Machine.execSubW d a b s
  | .mul d a b => Sys2Proof.Machine.execMul d a b s
  | .mulh d a b => Sys2Proof.Machine.execMulh d a b s
  | .mulhN d a b => Sys2Proof.Machine.execMulhN d a b s
  | .div d a b => Sys2Proof.Machine.execDiv d a b s
  | .divN d a b => Sys2Proof.Machine.execDivN d a b s
  | .rem d a b => Sys2Proof.Machine.execRem d a b s
  | .remN d a b => Sys2Proof.Machine.execRemN d a b s
  | .addi d a imm => Sys2Proof.Machine.execAddi d a imm s
  | .andi d a imm => Sys2Proof.Machine.execAndi d a imm s
  | .ori d a imm => Sys2Proof.Machine.execOri d a imm s
  | .xori d a imm => Sys2Proof.Machine.execXori d a imm s
  | .slti d a imm => Sys2Proof.Machine.execSlti d a imm s
  | .sltiN d a imm => Sys2Proof.Machine.execSltiN d a imm s
  | .slli d a n => Sys2Proof.Machine.execSlli d a n s
  | .srli d a n => Sys2Proof.Machine.execSrli d a n s
  | .srai d a n => Sys2Proof.Machine.execSrai d a n s
  | .rori d a n => Sys2Proof.Machine.execRori d a n s
  | .lui d imm => Sys2Proof.Machine.execLui d imm s
  | .lpc d imm => Sys2Proof.Machine.execLpc d imm s
  | .faddF64 d a b m => Sys2Proof.Machine.execFaddF64 d a b m s
  | .fsubF64 d a b m => Sys2Proof.Machine.execFsubF64 d a b m s
  | .fmulF64 d a b m => Sys2Proof.Machine.execFmulF64 d a b m s
  | .fdivF64 d a b m => Sys2Proof.Machine.execFdivF64 d a b m s
  | .fsqrtF64 d a m => Sys2Proof.Machine.execFsqrtF64 d a m s
  | .fminF64 d a b => Sys2Proof.Machine.execFminF64 d a b s
  | .fmaxF64 d a b => Sys2Proof.Machine.execFmaxF64 d a b s
  | .fmaF64 d a b m => Sys2Proof.Machine.execFmaF64 d a b m s
  | .fabsF64 d a => Sys2Proof.Machine.execFabsF64 d a s
  | .fnegF64 d a => Sys2Proof.Machine.execFnegF64 d a s
  | .feqF64 d a b => Sys2Proof.Machine.execFeqF64 d a b s
  | .fltF64 d a b => Sys2Proof.Machine.execFltF64 d a b s
  | .fleF64 d a b => Sys2Proof.Machine.execFleF64 d a b s
  | .fclassF64 d a => Sys2Proof.Machine.execFclassF64 d a s
  | .faddF32 d a b m => Sys2Proof.Machine.execFaddF32 d a b m s
  | .fsubF32 d a b m => Sys2Proof.Machine.execFsubF32 d a b m s
  | .fmulF32 d a b m => Sys2Proof.Machine.execFmulF32 d a b m s
  | .fdivF32 d a b m => Sys2Proof.Machine.execFdivF32 d a b m s
  | .fsqrtF32 d a m => Sys2Proof.Machine.execFsqrtF32 d a m s
  | .fminF32 d a b => Sys2Proof.Machine.execFminF32 d a b s
  | .fmaxF32 d a b => Sys2Proof.Machine.execFmaxF32 d a b s
  | .fmaF32 d a b m => Sys2Proof.Machine.execFmaF32 d a b m s
  | .fabsF32 d a => Sys2Proof.Machine.execFabsF32 d a s
  | .fnegF32 d a => Sys2Proof.Machine.execFnegF32 d a s
  | .feqF32 d a b => Sys2Proof.Machine.execFeqF32 d a b s
  | .fltF32 d a b => Sys2Proof.Machine.execFltF32 d a b s
  | .fleF32 d a b => Sys2Proof.Machine.execFleF32 d a b s
  | .fclassF32 d a => Sys2Proof.Machine.execFclassF32 d a s
  | .cvtF64I64 d a m => Sys2Proof.Machine.execCvtF64I64 d a m s
  | .cvtF64N64 d a m => Sys2Proof.Machine.execCvtF64N64 d a m s
  | .cvtI64F64 d a m => Sys2Proof.Machine.execCvtI64F64 d a m s
  | .cvtN64F64 d a m => Sys2Proof.Machine.execCvtN64F64 d a m s
  | .cvtF32I64 d a m => Sys2Proof.Machine.execCvtF32I64 d a m s
  | .cvtF32N64 d a m => Sys2Proof.Machine.execCvtF32N64 d a m s
  | .cvtI64F32 d a m => Sys2Proof.Machine.execCvtI64F32 d a m s
  | .cvtN64F32 d a m => Sys2Proof.Machine.execCvtN64F32 d a m s
  | .cvtF64F32 d a => Sys2Proof.Machine.execCvtF64F32 d a s
  | .cvtF32F64 d a m => Sys2Proof.Machine.execCvtF32F64 d a m s
  | .fmvX d a => Sys2Proof.Machine.execFmvX d a s
  | .fmvF d a => Sys2Proof.Machine.execFmvF d a s
  | .ldB d a c o f => Sys2Proof.Machine.execLdB d a c o f s
  | .ldH d a c o f => Sys2Proof.Machine.execLdH d a c o f s
  | .ldW d a c o f => Sys2Proof.Machine.execLdW d a c o f s
  | .ldD d a c o f => Sys2Proof.Machine.execLdD d a c o f s
  | .ldBn d a c o f => Sys2Proof.Machine.execLdBn d a c o f s
  | .ldHn d a c o f => Sys2Proof.Machine.execLdHn d a c o f s
  | .ldWn d a c o f => Sys2Proof.Machine.execLdWn d a c o f s
  | .ldFw d a c o f => Sys2Proof.Machine.execLdFw d a c o f s
  | .ldFd d a c o f => Sys2Proof.Machine.execLdFd d a c o f s
  | .ldA16 d a c o f => Sys2Proof.Machine.execLdA16 d a c o f s
  | .ldV16 d a c o f => Sys2Proof.Machine.execLdV16 d a c o f s
  | .stB r a c o f => Sys2Proof.Machine.execStB r a c o f s
  | .stH r a c o f => Sys2Proof.Machine.execStH r a c o f s
  | .stW r a c o f => Sys2Proof.Machine.execStW r a c o f s
  | .stD r a c o f => Sys2Proof.Machine.execStD r a c o f s
  | .stFw r a c o f => Sys2Proof.Machine.execStFw r a c o f s
  | .stFd r a c o f => Sys2Proof.Machine.execStFd r a c o f s
  | .stA16 r a c o f => Sys2Proof.Machine.execStA16 r a c o f s
  | .stV16 r a c o f => Sys2Proof.Machine.execStV16 r a c o f s
  | .amoW d a b p m o c => Sys2Proof.Machine.execAmoW d a b p m o c s
  | .amoD d a b p m o c => Sys2Proof.Machine.execAmoD d a b p m o c s
  | .casW d a b o c => Sys2Proof.Machine.execCasW d a b o c s
  | .casD d a b o c => Sys2Proof.Machine.execCasD d a b o c s
  | .beq a b o => Sys2Proof.Machine.execBeq a b o s
  | .bne a b o => Sys2Proof.Machine.execBne a b o s
  | .blt a b o => Sys2Proof.Machine.execBlt a b o s
  | .bge a b o => Sys2Proof.Machine.execBge a b o s
  | .bltN a b o => Sys2Proof.Machine.execBltN a b o s
  | .bgeN a b o => Sys2Proof.Machine.execBgeN a b o s
  | .j o => Sys2Proof.Machine.execJ o s
  | .jal o => Sys2Proof.Machine.execJal o s
  | .jalr d a imm => Sys2Proof.Machine.execJalr d a imm s
  | .fence r o m => Sys2Proof.Machine.execFence r o m s
  | .gets d imm => Sys2Proof.Machine.execGets d imm s
  | .puts a imm => Sys2Proof.Machine.execPuts a imm s
  | .mwait d a => Sys2Proof.Machine.execMwait d a s
  | .phreg m n => Sys2Proof.Machine.execPhreg m n s
  | .phdrop n => Sys2Proof.Machine.execPhdrop n s
  | .phsig n => Sys2Proof.Machine.execPhsig n s
  | .phwait d n => Sys2Proof.Machine.execPhwait d n s
  | .semsig a n => Sys2Proof.Machine.execSemsig a n s
  | .semwait a n => Sys2Proof.Machine.execSemwait a n s
  | .semwaitS a n => Sys2Proof.Machine.execSemwaitS a n s
  | .semrd d n => Sys2Proof.Machine.execSemrd d n s
  | .spawn d a => Sys2Proof.Machine.execSpawn d a s
  | .join => Sys2Proof.Machine.execJoin s
  | .yield => Sys2Proof.Machine.execYield s
  | .exit => Sys2Proof.Machine.execExit s
  | .bentNew d a => Sys2Proof.Machine.execBentNew d a s
  | .bentKill a => Sys2Proof.Machine.execBentKill a s
  | .enq d a => Sys2Proof.Machine.execEnq d a s
  | .scrbInit a t => Sys2Proof.Machine.execScrbInit a t s
  | .scrbNext d a => Sys2Proof.Machine.execScrbNext d a s
  | .scrbRd d a w => Sys2Proof.Machine.execScrbRd d a w s
  | .qscalePow2 d a t v w => Sys2Proof.Machine.execQscalePow2 d a t v w s
  | .qscaleExact d a t v w m => Sys2Proof.Machine.execQscaleExact d a t v w m s
  | .est d a imm => Sys2Proof.Machine.execEst d a imm s
  | .eld d a imm => Sys2Proof.Machine.execEld d a imm s
  | .trap imm => Sys2Proof.Machine.execTrap imm s
  | .tret => Sys2Proof.Machine.execTret s
  | .ecall imm => Sys2Proof.Machine.execEcall imm s
  | .tlbi a => Sys2Proof.Machine.execTlbi a s
  | .tlbiAll => Sys2Proof.Machine.execTlbiAll s
  | .klock d a => Sys2Proof.Machine.execKlock d a s
  | .kunlock a => Sys2Proof.Machine.execKunlock a s
  | .iflush => Sys2Proof.Machine.execIflush s
  | .tstamp d => Sys2Proof.Machine.execTstamp d s
  | .jdrop a => Sys2Proof.Machine.execJdrop a s
  | .sld mode cj c a b ws => Sys2Proof.Machine.execSld mode cj c a b ws s
  | .sst q c a b ws => Sys2Proof.Machine.execSst q c a b ws s
  | .sgth c a b ws => Sys2Proof.Machine.execSgth c a b ws s
  | .ssct mrg c a b ws => Sys2Proof.Machine.execSsct mrg c a b ws s
  | .sred c a b ws => Sys2Proof.Machine.execSred c a b ws s
  | .scpy a b ws => Sys2Proof.Machine.execScpy a b ws s
  | .sbank k a ws => Sys2Proof.Machine.execSbank k a ws s
  | .salloc sp a b ws => Sys2Proof.Machine.execSalloc sp a b ws s
  | .sfree sp a b ws => Sys2Proof.Machine.execSfree sp a b ws s
  | .seat bwd a ws => Sys2Proof.Machine.execSeat bwd a ws s
  | .unseat a ws => Sys2Proof.Machine.execUnseat a ws s
  | .krun c a ws => Sys2Proof.Machine.execKrun c a ws s
  | .jigGo ws => Sys2Proof.Machine.execJigGo ws s
  | .jigRev ws => Sys2Proof.Machine.execJigRev ws s
  | .finSet a b ws => Sys2Proof.Machine.execFinSet a b ws s
  | .coll c a ws => Sys2Proof.Machine.execColl c a ws s
  | .collAbt c a ws => Sys2Proof.Machine.execCollAbt c a ws s
  | .sillLoad c a b ws => Sys2Proof.Machine.execSillLoad c a b ws s
  | .sillGo a b ws => Sys2Proof.Machine.execSillGo a b ws s
  | .descLd c a b => Sys2Proof.Machine.execDescLd c a b s
  | .jrnlRd a b => Sys2Proof.Machine.execJrnlRd a b s
  | .bundleIssue core ctx => Sys2Proof.Machine.execBundleIssue core ctx s
  | .stallStep core ctx => Sys2Proof.Machine.execStallStep core ctx s
  | .imemLineFill core ctx => Sys2Proof.Machine.execImemLineFill core ctx s
  | .contextLaunch core => Sys2Proof.Machine.execContextLaunch core s
  | .contextHalt core ctx => Sys2Proof.Machine.execContextHalt core ctx s
  | .srfxFlagSet core ctx k => Sys2Proof.Machine.execSrfxFlagSet core ctx k s
  | .semarmFlagSet core ctx k => Sys2Proof.Machine.execSemarmFlagSet core ctx k s
  | .pharmFlagSet core ctx k => Sys2Proof.Machine.execPharmFlagSet core ctx k s
  | .commandStart core q => Sys2Proof.Machine.execCommandStart core q s
  | .commandElement core q => Sys2Proof.Machine.execCommandElement core q s
  | .commandComplete core q => Sys2Proof.Machine.execCommandComplete core q s
  | .jigRunStart core => Sys2Proof.Machine.execJigRunStart core s
  | .jigStep core r => Sys2Proof.Machine.execJigStep core r s
  | .scribeMerge idx => Sys2Proof.Machine.execScribeMerge idx s
  | .pegDispatch core => Sys2Proof.Machine.execPegDispatch core s
  | .waitingPegReady peg => Sys2Proof.Machine.execWaitingPegReady peg s
  | .mwaitSpinExpiry core => Sys2Proof.Machine.execMwaitSpinExpiry core s
  | .mwaitTimeout peg => Sys2Proof.Machine.execMwaitTimeout peg s
  | .monitorLoss peg => Sys2Proof.Machine.execMonitorLoss peg s
  | .priorityAgeing bay bent => Sys2Proof.Machine.execPriorityAgeing bay bent s
  | .preemptionRequest peg => Sys2Proof.Machine.execPreemptionRequest peg s
  | .contextRestFreeze core ctx => Sys2Proof.Machine.execContextRestFreeze core ctx s
  | .preemptionEscalated core ctx => Sys2Proof.Machine.execPreemptionEscalated core ctx s
  | .preemptionComplete core => Sys2Proof.Machine.execPreemptionComplete core s
  | .pegMigration peg core => Sys2Proof.Machine.execPegMigration peg core s
  | .trapDelivery => Sys2Proof.Machine.execTrapDelivery s
  | .deferredDataTrap => Sys2Proof.Machine.execDeferredDataTrap s
  | .kill peg => Sys2Proof.Machine.execKill peg s
  | .watchdog core => Sys2Proof.Machine.execWatchdog core s
  | .accFirstUse core w => Sys2Proof.Machine.execAccFirstUse core w s
  | .bentRecordWriteback bent => Sys2Proof.Machine.execBentRecordWriteback bent s
  | .pageWalk bay bent va => Sys2Proof.Machine.execPageWalk bay bent va s
  | .homeAccess idx ecc => Sys2Proof.Machine.execHomeAccess idx ecc s
  | .mergeAtHome idx other => Sys2Proof.Machine.execMergeAtHome idx other s
  | .scrub pa ecc => Sys2Proof.Machine.execScrub pa ecc s
  | .sillRunStart ch => Sys2Proof.Machine.execSillRunStart ch s
  | .sillWait ch => Sys2Proof.Machine.execSillWait ch s
  | .sillMv ch => Sys2Proof.Machine.execSillMv ch s
  | .sillRd ch => Sys2Proof.Machine.execSillRd ch s
  | .sillWr ch => Sys2Proof.Machine.execSillWr ch s
  | .sillRef ch => Sys2Proof.Machine.execSillRef ch s
  | .sillGate ch => Sys2Proof.Machine.execSillGate ch s
  | .sillLds ch => Sys2Proof.Machine.execSillLds ch s
  | .sillPassEnd ch => Sys2Proof.Machine.execSillPassEnd ch s
  | .sillGateReread ch => Sys2Proof.Machine.execSillGateReread ch s
  | .sillGateTimeout ch => Sys2Proof.Machine.execSillGateTimeout ch s
  | .sillRefreshInsert ch => Sys2Proof.Machine.execSillRefreshInsert ch s
  | .fabricPacket p => Sys2Proof.Machine.execFabricPacket p s
  | .fabricTimeout idx => Sys2Proof.Machine.execFabricTimeout idx s
  | .fabricErrorAnswer idx => Sys2Proof.Machine.execFabricErrorAnswer idx s
  | .linkBringUp peer authentic => Sys2Proof.Machine.execLinkBringUp peer authentic s
  | .linkKeyRenewal peer => Sys2Proof.Machine.execLinkKeyRenewal peer s
  | .collStepMessage bay m => Sys2Proof.Machine.execCollStepMessage bay m s
  | .collTimeout core n => Sys2Proof.Machine.execCollTimeout core n s
  | .collAbtMessage bay m => Sys2Proof.Machine.execCollAbtMessage bay m s
  | .rdmaWrite p => Sys2Proof.Machine.execRdmaWrite p s
  | .rdmaRead p => Sys2Proof.Machine.execRdmaRead p s
  | .roceInvalidRequest p => Sys2Proof.Machine.execRoceInvalidRequest p s
  | .arpRequest port addr => Sys2Proof.Machine.execArpRequest port addr s
  | .neighborDiscovery port addr => Sys2Proof.Machine.execNeighborDiscovery port addr s
  | .frameDrop f => Sys2Proof.Machine.execFrameDrop f s
  | .ptpMessage m => Sys2Proof.Machine.execPtpMessage m s
  | .datagramDrop dg => Sys2Proof.Machine.execDatagramDrop dg s
  | .init dg => Sys2Proof.Machine.execInit dg s
  | .createBent dg => Sys2Proof.Machine.execCreateBent dg s
  | .killBent dg => Sys2Proof.Machine.execKillBent dg s
  | .enqueuePeg dg => Sys2Proof.Machine.execEnqueuePeg dg s
  | .loadImage dg => Sys2Proof.Machine.execLoadImage dg s
  | .keyInstall dg => Sys2Proof.Machine.execKeyInstall dg s
  | .attestation dg => Sys2Proof.Machine.execAttestation dg s
  | .telemetry dg => Sys2Proof.Machine.execTelemetry dg s
  | .dumpRetrieval dg => Sys2Proof.Machine.execDumpRetrieval dg s
  | .powerSample m => Sys2Proof.Machine.execPowerSample m s
  | .thermalHold bay temp => Sys2Proof.Machine.execThermalHold bay temp s
  | .thermalRelease bay temp => Sys2Proof.Machine.execThermalRelease bay temp s
  | .thermalTrip bay temp => Sys2Proof.Machine.execThermalTrip bay temp s
  | .inputPowerFault => Sys2Proof.Machine.execInputPowerFault s
  | .powerUp b => Sys2Proof.Machine.execPowerUp b s
  | .resetInput b => Sys2Proof.Machine.execResetInput b s
  | .illegalInstruction => Sys2Proof.Machine.execIllegalInstruction s
  | .instructionFetchFault => Sys2Proof.Machine.execInstructionFetchFault s
  | .lineEviction bay l => Sys2Proof.Machine.execLineEviction bay l s
  | .collAbtMemberTimeout core n => Sys2Proof.Machine.execCollAbtMemberTimeout core n s
  | .configurationRecordUpdate r signer => Sys2Proof.Machine.execConfigurationRecordUpdate r signer s
  | .firmwareStateError => Sys2Proof.Machine.execFirmwareStateError s
  | .powerRemoval => Sys2Proof.Machine.execPowerRemoval s

end Sys2Proof.Machine
end

