-- ==== Sys2Proof/Machine/Step.lean ====
section
/-! DEFINITION. One step of the machine: the next turn of the schedule, a control core's boundary or an event (log 1). -/

namespace Sys2Proof.Machine

/-- The next turn: the head of the schedule, or a free one. -/
def State.turn (s : State) : Turn :=
  match s.sched with
  | t :: _ => t
  | [] => Config.freeTurn s.turns

/-- The core whose boundary a turn takes; an event leaves core 0 acting. -/
def Act.coreNo : Act → Nat
  | .core c => c
  | .event _ => 0

/-- A turn begins: time passes, and the acting core is set. -/
def State.beginTurn (s : State) (t : Turn) : State :=
  let s := (s.ageContexts t.dclk).passTime t.dt t.dclk
  { s with sched := s.sched.tail, turns := s.turns + 1, defer := t.defer, cur := Act.coreNo t.act }

/-- Whether a term is an event of the machine, which a turn may name: it has no encoding and is no act of a control core. -/
def isEvent (i : Instr) : Bool :=
  (encode i).isEmpty && (match i with
    | .trapDelivery | .deferredDataTrap | .illegalInstruction | .instructionFetchFault => false
    | _ => true)

/-- One step. -/
def step (s : State) : Host.Outcome State Fault Refusal :=
  let t := s.turn
  let s := s.beginTurn t
  match t.act with
  | .core _ =>
    match s.boundary with
    | .idle s => .next s
    | .run s i => exec i s
  | .event i => if isEvent i && i.wf then exec i s else .next s

/-- The state in which the next step runs an instruction: a peg of a root bent running on core 0 with the instruction's words at its
pc, and core 0's turn next (log 7). -/
def State.withFetchWord (s : State) (_nbits w : Nat) : State := s.withProgram (tableBytes w)

end Sys2Proof.Machine
end

