-- ==== Sys2Proof/Safety.lean ====
section
/-! DEFINITION. What counts as a safe run, in the terms the statements use, and what the spec requires of a run that never ends (R432). -/

namespace Sys2Proof.Machine

/-- A step that goes on. -/
def Goes (s t : State) : Prop := step s = .next t

/-- A run of steps that go on. -/
inductive Runs : State → State → Prop where
  | refl (s : State) : Runs s s
  | tail {s t u : State} : Runs s t → Goes t u → Runs s u

/-- An access that is still to perform, and that no rule lets stay away for good, as R403 does for those that are lost and R373 for
those of a bent that has ended. -/
def State.stillOwes (s : State) (no : Nat) (ag : Agent) : Prop :=
  (∃ a ∈ s.pending, a.no = no ∧ a.agent = ag ∧ a.lost = false ∧ AMap.has s.bents a.bent = true) ∨
  (∃ m ∈ s.merges, ∃ q ∈ m.parties, q.no = no ∧ q.agent = ag ∧ AMap.has s.bents q.bent = true) ∨
  (∃ m ∈ s.recordMerges, m.no = no ∧ m.agent = ag ∧ m.lost = false ∧ AMap.has s.bents m.bent = true)

/-- R432 of an endless run: every access that an agent issues performs, is discarded or is lost within a finite time, of which no bound is given.
A schedule need not be fair (log 1); a claim of progress takes this as its premise. -/
def Fair (r : Nat → State) : Prop :=
  (∀ n, Goes (r n) (r (n + 1))) ∧ ∀ n no ag, (r n).stillOwes no ag → ∃ k, n ≤ k ∧ ¬(r k).stillOwes no ag

/-- In a fair run that starts with an access still to perform, a state follows in which it is not. -/
theorem Fair.performs {r : Nat → State} (h : Fair r) {no : Nat} {ag : Agent} (o : (r 0).stillOwes no ag) : ∃ k, ¬(r k).stillOwes no ag :=
  (h.2 0 no ag o).imp fun _ e => e.2

end Sys2Proof.Machine
end

