-- ==== Sys2Proof/Certificates/Slice0/Obligations.lean ====
section
/-! DEFINITION. The statements about the model that the provers prove, with the small functions that they are stated with. Each docstring
names the rules of the spec it formalises. -/

open Sys2Proof Sys2Proof.Machine

namespace Sys2Proof.Claims

/-! ## Vocabulary -/

/-- Whether an instruction has words of its own; the other terms are events of the machine. -/
def hasWords (i : Instr) : Bool := !(encode i).isEmpty

/-- The machine with one integer register written, x0 excepted, and the pc moved past a 32-bit instruction; nothing else changed. -/
def wroteX (s : State) (d : RegNo) (v : Word) : State :=
  { s with cores := s.cores.put s.cur { s.me with
      x := if d = 0 then s.me.x else s.me.x.set d.toNat v d.isLt
      pc := s.me.pc + 4 } }

/-- The machine with one floating register written and FP.CSR's flags raised, the pc moved on; nothing else changed. -/
def wroteF (s : State) (d : RegNo) (v : Word) (csr : Word) : State :=
  { s with cores := s.cores.put s.cur { s.me with
      f := s.me.f.set d.toNat v d.isLt
      pc := s.me.pc + 4
      regs := { s.me.regs with fpCsr := csr } } }

/-- The machine gone to another address; nothing else changed. -/
def wentTo (s : State) (pc : Word) : State := { s with cores := s.cores.put s.cur { s.me with pc := pc } }

/-- The machine past an instruction without any other effect. -/
def passed (s : State) : State := wentTo s (s.me.pc + 4)

/-- The machine after a synchronous trap of the executing instruction has entered its bent's handler (R353, R356): the four trap registers,
the pc, the handler's clock and the bent's TRAPS counter; no x, f or d register, nothing else. -/
def inHandler (s : State) (code : Nat) (addr info : Word) : State :=
  { s with
    cores := s.cores.put s.cur { s.me with
      pc := match s.bents.find? s.myBent with
        | some r => r.hpc
        | none => 0
      regs := { s.me.regs with
        trapCause := BitVec.ofNat 64 (0x8000 + code), trapPc := s.me.pc, trapInfo := info, trapAddr := addr }
      hactTime := 0, hactFrom := s.timestamp, spin := none, asked := none }
    bents := match s.bents.find? s.myBent with
      | some r => s.bents.put s.myBent { r with traps := r.traps + 1 }
      | none => s.bents }

/-- A state in which a synchronous trap reaches a handler: the bent has one, and no handler is running (R356, R359). -/
def CanTrap (s : State) : Prop :=
  (∃ r, s.bents.find? s.myBent = some r ∧ r.hpc ≠ 0) ∧ s.me.regs.trapCause.getLsbD 15 = false

end Sys2Proof.Claims

open Sys2Proof.Claims

/-! ## Encoding -/

/-- The words of a few instructions of every family, written out from the encoding tables of R112 to R125, decode to them. -/
def Obligations.SampleWordsDecode : Prop :=
  -- div x5, x6, x7: the spec's own example (R138)
  decodeTableWord 32 0x08A63803 = some (.div 5 6 7) ∧
  -- add x1, x2, x3: OP 01, XD 1, XA 2, XB 3
  decodeTableWord 32 0b000001_00001_00010_00011_00000000000 = some (.add 1 2 3) ∧
  -- addi x1, x0, -1
  decodeTableWord 32 0b000011_00001_00000_1111111111111111 = some (.addi 1 0 0xFFFF) ∧
  -- fadd.f64.rz f1, f2, f3
  decodeTableWord 32 0b001100_00001_00010_00011_01_000000000 = some (.faddF64 1 2 3 0b01) ∧
  -- ld.d x4, [x5 + 8], class 3, acquire
  decodeTableWord 32 0b010011_00100_00101_0011_01_0000000001 = some (.ldD 4 5 3 0b01 1) ∧
  -- st.a16 x6, [x7]
  decodeTableWord 32 0b100010_0011_0_00111_0000_00_0000000000 = some (.stA16 3 7 0 0 0) ∧
  -- beq x1, x2, -4
  decodeTableWord 32 0b101000_00001_00010_1111111111111111 = some (.beq 1 2 0xFFFF) ∧
  -- fence.pkg.acqrel over every class
  decodeTableWord 32 0b110001_011_10_00000_1111111111111111 = some (.fence 3 0b10 0xFFFF) ∧
  -- semsig sem7, x9
  decodeTableWord 32 0b110011_00000_01001_0000_00000111_0101 = some (.semsig 9 7) ∧
  -- scrb.rd x2, [x3], word 31
  decodeTableWord 32 0b110101_00010_00011_0000000_11111_0010 = some (.scrbRd 2 3 31) ∧
  -- tret
  decodeTableWord 32 0b110111_00000000000000000000000001 = some .tret ∧
  -- sld d1, d2, class 5, no semaphore awaited or signalled: word 0 in the low half
  decodeTableWord 64 0xFF000FF0_FC108940 = some (.sld .plain false 5 1 2 ⟨255, 0, 255, 0⟩)

/-- Decoding the words of a well-formed instruction gives it back, with every operand at every value its fields admit, and leaves the bytes
that follow (R112 to R125, R179). -/
def Obligations.EncodeDecodeRoundTrip : Prop :=
  ∀ (i : Instr) (rest : List Byte), hasWords i = true → i.wf = true →
    Decode.bytes (bytesOfWords (encode i) ++ rest) = .ok (i, rest)

/-- What the decoder accepts is a well-formed instruction with words, and its words are the bytes that it was read from: no two words mean
one instruction, and a reserved encoding means none (R112 to R126). -/
def Obligations.DecodedBytesAreItsWords : Prop :=
  ∀ (bs rest : List Byte) (i : Instr), Decode.bytes bs = .ok (i, rest) →
    hasWords i = true ∧ i.wf = true ∧ bytesOfWords (encode i) ++ rest = bs

/-! ## The step -/

namespace Sys2Proof.Claims

/-- The word at an address can be fetched by the acting core now, and is `w` (R112, R136): the access passes its checks, nothing holds the
location, its home answers, no unit is poisoned, no exact accumulator stands open in it, the bay's L2 does not hold it under another slot (R96), and
the instruction cache holds nothing else. -/
def Fetchable (s : State) (va : Word) (w : Word32) : Prop :=
  ∃ l : Loc, s.access s.myBay s.myBent va 4 .exec = .ok l ∧ s.lockedOut l.pa 4 = false ∧ s.answer l.pa 4 = .here ∧
    s.poisoned l.pa 4 = false ∧ s.remote? l.pa = none ∧ (∀ a ∈ s.accums, a.meets l.pa 4 = false) ∧
    leNat (s.bytesAt l.slot l.pa 4) = w.toNat ∧ (∀ k, k < 4 → s.seenSlot s.myBay l (l.pa + k) = l.slot) ∧
    (s.me.icache.find? l.pa = none ∨ s.me.icache.find? l.pa = some w)

/-- The acting core runs a peg whose next act is to execute the instruction at its pc (R357): no kill, no pre-emption, no trap to take. -/
def Executes (s : State) : Prop :=
  ∃ (id : Nat) (p : Peg), s.pegId = some id ∧ s.peg? = some p ∧ s.me.halted = false ∧ s.draining = false ∧
    s.me.preempt = none ∧ (s.me.regs.trapCause.getLsbD 15 = true ∨ p.pending = [])

/-- `t` is `s` but for what caches and TLBs hold: no other field of the state, of a core or of a bay. -/
def CachesOnly (s t : State) : Prop :=
  (∃ (cores : AMap Core) (bays : AMap Bay), t = { s with cores := cores, bays := bays }) ∧
  (∀ c, ∃ (dc : AMap CacheLine), (c = s.cur ∧ ∃ (ic : AMap Word32), t.core c = { s.core c with icache := ic, dcache := dc }) ∨
    (c ≠ s.cur ∧ t.core c = { s.core c with dcache := dc })) ∧
  (∀ b, ∃ tlb l2, t.bay b = { s.bay b with tlb := tlb, l2 := l2 })

/-- `t` is `s` but for what caches and TLBs hold, and the time that the acting core's fetch was sent. -/
def FetchOnly (s t : State) : Prop := ∃ u, CachesOnly s u ∧ (t = u ∨ t = u.setMe { u.me with fetchAsked := none }) ∧ t.me.fetchAsked = none

end Sys2Proof.Claims

/-- When the bytes at the pc decode to an instruction, a step of that core is the instruction's execution, in the state at the beginning of the
turn, for 32-bit and for long instructions; the step changes nothing else (R112, R357). -/
def Sys2Proof.Claims.StepRunsFetchedInstruction : Prop :=
  (∀ (s : State) (c : Nat) (w : Word32) (i : Instr), s.turn.act = .core c →
    let s1 := s.beginTurn s.turn
    Executes s1 → Fetchable s1 s1.pc w → Decode.bytes (bytesOfWords [w]) = .ok (i, []) → s1.registerWait i = false →
      ∃ t, FetchOnly s1 t ∧ step s = exec i t) ∧
  (∀ (s : State) (c : Nat) (w0 w1 : Word32) (i : Instr), s.turn.act = .core c →
    let s1 := s.beginTurn s.turn
    Executes s1 → Fetchable s1 s1.pc w0 →
    -- once the first word has been fetched
    (∀ u, s1.fetchWord s1.pc = .word u w0 → Fetchable u (s1.pc + 4) w1) →
    Decode.bytes (bytesOfWords [w0, w1]) = .ok (i, []) →
      s1.registerWait i = false → ∃ t, FetchOnly s1 t ∧ step s = exec i t)

/-- An event that the schedule names is executed by the step, in the state at the beginning of its turn. -/
def Sys2Proof.Claims.StepRunsScheduledEvent : Prop :=
  ∀ (s : State) (i : Instr), s.turn.act = .event i → isEvent i = true → i.wf = true → step s = exec i (s.beginTurn s.turn)

/-- R112, R136, R357: a step executes the decoded instruction at the acting core's pc, or the event that the schedule names (log 1). -/
def Obligations.StepRunsItsTurn : Prop := Sys2Proof.Claims.StepRunsFetchedInstruction ∧ Sys2Proof.Claims.StepRunsScheduledEvent

/-! ## Integer instructions -/

namespace Sys2Proof.Claims

/-- 1 or 0. -/
def bit (p : Prop) [Decidable p] : Word := if p then 1 else 0

/-- How many k below 64 have a property. -/
def countBelow64 (p : Nat → Bool) : Nat := (List.range 64).countP p

/-- The INT operations (R137): destination and value, as a number computed from the operands. The leading zeros of a are the k below 64
with a < 2^k; its trailing zeros the k with 2^(k+1) dividing a. -/
def intOf (s : State) : Instr → Option (RegNo × Word)
  | .add d a b => some (d, BitVec.ofNat 64 ((s.getX a).toNat + (s.getX b).toNat))
  | .sub d a b => some (d, BitVec.ofInt 64 ((s.getX a).toInt - (s.getX b).toInt))
  | .and d a b => some (d, s.getX a &&& s.getX b)
  | .or d a b => some (d, s.getX a ||| s.getX b)
  | .xor d a b => some (d, s.getX a ^^^ s.getX b)
  | .sll d a b => some (d, BitVec.ofNat 64 ((s.getX a).toNat * 2 ^ ((s.getX b).toNat % 64)))
  | .srl d a b => some (d, BitVec.ofNat 64 ((s.getX a).toNat / 2 ^ ((s.getX b).toNat % 64)))
  | .sra d a b => some (d, BitVec.ofInt 64 ((s.getX a).toInt / 2 ^ ((s.getX b).toNat % 64)))
  | .ror d a b => some (d, BitVec.ofNat 64 ((s.getX a).toNat / 2 ^ ((s.getX b).toNat % 64) +
      (s.getX a).toNat * 2 ^ (64 - (s.getX b).toNat % 64)))
  | .slt d a b => some (d, bit ((s.getX a).toInt < (s.getX b).toInt))
  | .sltN d a b => some (d, bit ((s.getX a).toNat < (s.getX b).toNat))
  | .min d a b => some (d, BitVec.ofInt 64 (min (s.getX a).toInt (s.getX b).toInt))
  | .max d a b => some (d, BitVec.ofInt 64 (max (s.getX a).toInt (s.getX b).toInt))
  | .minN d a b => some (d, BitVec.ofNat 64 (min (s.getX a).toNat (s.getX b).toNat))
  | .maxN d a b => some (d, BitVec.ofNat 64 (max (s.getX a).toNat (s.getX b).toNat))
  | .clz d a => some (d, BitVec.ofNat 64 (countBelow64 (fun k => decide ((s.getX a).toNat < 2 ^ k))))
  | .ctz d a => some (d, BitVec.ofNat 64 (countBelow64 (fun k => decide ((s.getX a).toNat % 2 ^ (k + 1) = 0))))
  | .popc d a => some (d, BitVec.ofNat 64 (countBelow64 (fun k => decide ((s.getX a).toNat / 2 ^ k % 2 = 1))))
  | .addW d a b => some (d, BitVec.ofInt 64 (((s.getX a).toInt + (s.getX b).toInt).bmod (2 ^ 32)))
  | .subW d a b => some (d, BitVec.ofInt 64 (((s.getX a).toInt - (s.getX b).toInt).bmod (2 ^ 32)))
  | _ => none

/-- The MULDIV operations (R138). -/
def mulDivOf (s : State) : Instr → Option (RegNo × Word)
  | .mul d a b => some (d, BitVec.ofNat 64 ((s.getX a).toNat * (s.getX b).toNat))
  | .mulh d a b => some (d, BitVec.ofInt 64 ((s.getX a).toInt * (s.getX b).toInt / 2 ^ 64))
  | .mulhN d a b => some (d, BitVec.ofNat 64 ((s.getX a).toNat * (s.getX b).toNat / 2 ^ 64))
  | .div d a b => some (d, if s.getX b = 0 then 0xFFFFFFFFFFFFFFFF
      else if (s.getX a).toInt = -2 ^ 63 ∧ (s.getX b).toInt = -1 then 0x8000000000000000
      else BitVec.ofInt 64 ((s.getX a).toInt.tdiv (s.getX b).toInt))
  | .divN d a b => some (d, if s.getX b = 0 then 0xFFFFFFFFFFFFFFFF
      else BitVec.ofNat 64 ((s.getX a).toNat / (s.getX b).toNat))
  | .rem d a b => some (d, if s.getX b = 0 then s.getX a
      else if (s.getX a).toInt = -2 ^ 63 ∧ (s.getX b).toInt = -1 then 0
      else BitVec.ofInt 64 ((s.getX a).toInt - (s.getX b).toInt * (s.getX a).toInt.tdiv (s.getX b).toInt))
  | .remN d a b => some (d, if s.getX b = 0 then s.getX a
      else BitVec.ofNat 64 ((s.getX a).toNat % (s.getX b).toNat))
  | _ => none

/-- The register and immediate operations (R139), but JALR. -/
def immOf (s : State) : Instr → Option (RegNo × Word)
  | .addi d a i => some (d, BitVec.ofInt 64 ((s.getX a).toInt + i.toInt))
  | .andi d a i => some (d, s.getX a &&& BitVec.ofNat 64 i.toNat)
  | .ori d a i => some (d, s.getX a ||| BitVec.ofNat 64 i.toNat)
  | .xori d a i => some (d, s.getX a ^^^ BitVec.ofNat 64 i.toNat)
  | .slti d a i => some (d, bit ((s.getX a).toInt < i.toInt))
  | .sltiN d a i => some (d, bit ((s.getX a).toNat < (BitVec.ofInt 64 i.toInt).toNat))
  | .slli d a n => some (d, BitVec.ofNat 64 ((s.getX a).toNat * 2 ^ n.toNat))
  | .srli d a n => some (d, BitVec.ofNat 64 ((s.getX a).toNat / 2 ^ n.toNat))
  | .srai d a n => some (d, BitVec.ofInt 64 ((s.getX a).toInt / 2 ^ n.toNat))
  | .rori d a n => some (d, BitVec.ofNat 64 ((s.getX a).toNat / 2 ^ n.toNat + (s.getX a).toNat * 2 ^ (64 - n.toNat)))
  | .lui d i => some (d, BitVec.ofInt 64 (i.toInt * 2 ^ 16))
  | .lpc d i => some (d, BitVec.ofInt 64 (s.pc.toInt + i.toInt * 2 ^ 16))
  | _ => none

end Sys2Proof.Claims

/-- R137, whole: every INT operation completes in every state with its result in x[XD] (nowhere if that is x0) and nothing else changed but
the pc; none of them traps. -/
def Obligations.IntOperations : Prop :=
  ∀ (s : State) (i : Instr) (d : RegNo) (v : Word), intOf s i = some (d, v) → exec i s = .next (wroteX s d v)

/-- R138, whole: every MULDIV operation completes in every state with its result in x[XD] and nothing else changed but the pc. -/
def Obligations.MulDivOperations : Prop :=
  ∀ (s : State) (i : Instr) (d : RegNo) (v : Word), mulDivOf s i = some (d, v) → exec i s = .next (wroteX s d v)

/-- R139: every register and immediate operation completes in every state with its result in x[XD] and nothing else changed but the pc. -/
def Obligations.ImmediateOperations : Prop :=
  ∀ (s : State) (i : Instr) (d : RegNo) (v : Word), immOf s i = some (d, v) → exec i s = .next (wroteX s d v)

/-- What `wroteX` leaves: x[d] holds the value unless d is x0, which still reads 0; every other x register, every f and d register, the
state registers, every other core and every byte of memory read as before; the pc has moved by 4 (R107, R134). -/
def Obligations.RegisterWriteFrame : Prop :=
  ∀ (s : State) (d : RegNo) (v : Word),
    let t := wroteX s d v
    (d ≠ 0 → t.getX d = v) ∧ t.getX 0 = 0 ∧ (∀ r, r ≠ d → t.getX r = s.getX r) ∧ (∀ r, t.getF r = s.getF r) ∧
    t.me.d = s.me.d ∧ t.me.regs = s.me.regs ∧ t.pc = s.pc + 4 ∧ t.me.journal = s.me.journal ∧ t.me.sems = s.me.sems ∧
    (∀ c, c ≠ s.cur → t.core c = s.core c) ∧ (∀ slot pa, t.byteAt slot pa = s.byteAt slot pa)

/-! ## Branches and jumps -/

namespace Sys2Proof.Claims

/-- Where a conditional branch or a J goes: the comparison of R122 and the target of R140. -/
def branchOf (s : State) : Instr → Option (Bool × Int)
  | .beq a b o => some (decide (s.getX a = s.getX b), o.toInt)
  | .bne a b o => some (decide (s.getX a ≠ s.getX b), o.toInt)
  | .blt a b o => some (decide ((s.getX a).toInt < (s.getX b).toInt), o.toInt)
  | .bge a b o => some (decide ((s.getX b).toInt ≤ (s.getX a).toInt), o.toInt)
  | .bltN a b o => some (decide ((s.getX a).toNat < (s.getX b).toNat), o.toInt)
  | .bgeN a b o => some (decide ((s.getX b).toNat ≤ (s.getX a).toNat), o.toInt)
  | .j o => some (true, o.toInt)
  | _ => none

end Sys2Proof.Claims

/-- R140: a branch whose comparison holds, and a J, go to PC + 4 × offset, one that fails to PC + 4; JAL links in x31; JALR links in XD and
goes to x[XA] + IMM when that is aligned, and otherwise takes cause 0x05 at itself and writes no destination. Nothing else changes. -/
def Obligations.ControlTransfers : Prop :=
  (∀ (s : State) (i : Instr) (taken : Bool) (off : Int), branchOf s i = some (taken, off) →
    exec i s = .next (wentTo s (if taken then s.pc + BitVec.ofInt 64 (4 * off) else s.pc + 4))) ∧
  (∀ (s : State) (o : BitVec 26),
    exec (.jal o) s = .next (wentTo (wroteX s 31 (s.pc + 4)) (s.pc + BitVec.ofInt 64 (4 * o.toInt)))) ∧
  (∀ (s : State) (d a : RegNo) (i : BitVec 16),
    let t := s.getX a + BitVec.ofInt 64 i.toInt
    (t.toNat % 4 = 0 → exec (.jalr d a i) s = .next (wentTo (wroteX s d (s.pc + 4)) t)) ∧
    (t.toNat % 4 ≠ 0 → CanTrap s → exec (.jalr d a i) s = .next (inHandler s 0x05 0 0)))

/-! ## Floating-point instructions -/

namespace Sys2Proof.Claims

/-- The sticky bits of FP.CSR that conditions set (R110): invalid 16, division by zero 8, overflow 4, underflow 2, inexact 1. -/
def flagBits (g : FFlags) : Word :=
  (if g.invalid then 16 else 0) ||| (if g.divZero then 8 else 0) ||| (if g.overflow then 4 else 0) |||
    (if g.underflow then 2 else 0) ||| (if g.inexact then 1 else 0)

/-- Conditions of either. -/
def eitherFlag (g h : FFlags) : FFlags :=
  { invalid := g.invalid || h.invalid, divZero := g.divZero || h.divZero, overflow := g.overflow || h.overflow
    underflow := g.underflow || h.underflow, inexact := g.inexact || h.inexact }

/-- Whether a condition that arose is enabled in FP.CSR:EN (R110). -/
def enabled (csr : Word) (g : FFlags) : Bool := (csr >>> 8) &&& flagBits g != 0

/-- The operands of an operation: the whole register for f64, its low half for f32 (R141). -/
def f64At (s : State) (r : RegNo) : FVal := Fmt.f64.decode (s.getF r).toNat
def f32At (s : State) (r : RegNo) : FVal := Fmt.f32.decode ((s.getF r).toNat % 2 ^ 32)

/-- The rounding mode of RM (R55): RNE, RZ, or RND.DEF's, whose stochastic rounding is RNE on the control core. -/
def roundingOf (s : State) (m : BitVec 2) : RMode :=
  if m = 0b01 then .rz else if m = 0b11 ∧ s.me.regs.rndDef.toNat % 4 = 1 then .rz else .rne

/-- An exact value rounded once into a format, with the conditions of the operation and of the rounding. -/
def delivered (s : State) (f : Fmt) (m : BitVec 2) (g : FFlags) (v : FVal) : Word × FFlags :=
  let r := f.deliver (roundingOf s m) false 0 v
  (BitVec.ofNat 64 r.1, eitherFlag g r.2)

/-- Invalid for a signalling NaN operand, or for a NaN made of operands that are none (R60, R142). -/
def arithFlags (vs : List FVal) (r : FVal) : FFlags :=
  { invalid := vs.any FVal.isSNaN || (r.isNaN && !vs.any FVal.isNaN) }

/-- R142: destination register, rounded result and conditions of the arithmetic operations. -/
def arithOf (s : State) : Instr → Option (RegNo × Word × FFlags)
  | .faddF64 d a b m => let r := (f64At s a).add (f64At s b)
    some (d, delivered s .f64 m (arithFlags [f64At s a, f64At s b] r) r)
  | .fsubF64 d a b m => let r := (f64At s a).sub (f64At s b)
    some (d, delivered s .f64 m (arithFlags [f64At s a, f64At s b] r) r)
  | .fmulF64 d a b m => let r := (f64At s a).mul (f64At s b)
    some (d, delivered s .f64 m (arithFlags [f64At s a, f64At s b] r) r)
  | .fdivF64 d a b m => let x := f64At s a; let y := f64At s b; let r := x.div y
    some (d, delivered s .f64 m (eitherFlag (arithFlags [x, y] r)
      { divZero := y.isZero && !(x.isZero || x.isInf || x.isNaN) }) r)
  | .fsqrtF64 d a m => let r := (f64At s a).sqrt
    some (d, delivered s .f64 m (arithFlags [f64At s a] r) r)
  | .fmaF64 d a b m => let x := f64At s a; let y := f64At s b; let z := f64At s d; let r := x.fma y z
    some (d, delivered s .f64 m (eitherFlag (arithFlags [x, y, z] r)
      { invalid := (x.isZero && y.isInf) || (x.isInf && y.isZero) }) r)
  | .faddF32 d a b m => let r := (f32At s a).add (f32At s b)
    some (d, delivered s .f32 m (arithFlags [f32At s a, f32At s b] r) r)
  | .fsubF32 d a b m => let r := (f32At s a).sub (f32At s b)
    some (d, delivered s .f32 m (arithFlags [f32At s a, f32At s b] r) r)
  | .fmulF32 d a b m => let r := (f32At s a).mul (f32At s b)
    some (d, delivered s .f32 m (arithFlags [f32At s a, f32At s b] r) r)
  | .fdivF32 d a b m => let x := f32At s a; let y := f32At s b; let r := x.div y
    some (d, delivered s .f32 m (eitherFlag (arithFlags [x, y] r)
      { divZero := y.isZero && !(x.isZero || x.isInf || x.isNaN) }) r)
  | .fsqrtF32 d a m => let r := (f32At s a).sqrt
    some (d, delivered s .f32 m (arithFlags [f32At s a] r) r)
  | .fmaF32 d a b m => let x := f32At s a; let y := f32At s b; let z := f32At s d; let r := x.fma y z
    some (d, delivered s .f32 m (eitherFlag (arithFlags [x, y, z] r)
      { invalid := (x.isZero && y.isInf) || (x.isInf && y.isZero) }) r)
  | .fabsF64 d a => some (d, s.getF a &&& 0x7FFFFFFFFFFFFFFF, {})
  | .fnegF64 d a => some (d, s.getF a ^^^ 0x8000000000000000, {})
  | .fabsF32 d a => some (d, s.getF a &&& 0x7FFFFFFF, {})
  | .fnegF32 d a => some (d, (s.getF a &&& 0xFFFFFFFF) ^^^ 0x80000000, {})
  | _ => none

/-- R143: fmin and fmax, which keep the value of an operand or the NaN of R60, and are invalid only for a signalling NaN. -/
def minMaxOf (s : State) : Instr → Option (RegNo × Word × FFlags)
  | .fminF64 d a b => some (d, BitVec.ofNat 64 (Fmt.f64.deliver .rne false 0 ((f64At s a).min (f64At s b))).1,
      { invalid := (f64At s a).isSNaN || (f64At s b).isSNaN })
  | .fmaxF64 d a b => some (d, BitVec.ofNat 64 (Fmt.f64.deliver .rne false 0 ((f64At s a).max (f64At s b))).1,
      { invalid := (f64At s a).isSNaN || (f64At s b).isSNaN })
  | .fminF32 d a b => some (d, BitVec.ofNat 64 (Fmt.f32.deliver .rne false 0 ((f32At s a).min (f32At s b))).1,
      { invalid := (f32At s a).isSNaN || (f32At s b).isSNaN })
  | .fmaxF32 d a b => some (d, BitVec.ofNat 64 (Fmt.f32.deliver .rne false 0 ((f32At s a).max (f32At s b))).1,
      { invalid := (f32At s a).isSNaN || (f32At s b).isSNaN })
  | _ => none

/-- The class code of R143 for a format of `e` exponent and `m` fraction bits: the sign, and 2 × the class. -/
def classCode (e m : Nat) (w : Nat) : Nat :=
  let frac := w % 2 ^ m
  let ex := w / 2 ^ m % 2 ^ e
  w / 2 ^ (e + m) % 2 + 2 *
    (if ex = 0 then (if frac = 0 then 0 else 1)
     else if ex < 2 ^ e - 1 then 2
     else if frac = 0 then 3 else if frac < 2 ^ (m - 1) then 5 else 4)

/-- R143: comparisons and classification, which write x[XD]. -/
def compareOf (s : State) : Instr → Option (RegNo × Word × FFlags)
  | .feqF64 d a b => let x := f64At s a; let y := f64At s b
    some (d, bit (x.isNaN = false ∧ y.isNaN = false ∧ x.lt y = false ∧ y.lt x = false), { invalid := x.isSNaN || y.isSNaN })
  | .fltF64 d a b => let x := f64At s a; let y := f64At s b
    some (d, bit (x.lt y = true), { invalid := x.isNaN || y.isNaN })
  | .fleF64 d a b => let x := f64At s a; let y := f64At s b
    some (d, bit (x.isNaN = false ∧ y.isNaN = false ∧ y.lt x = false), { invalid := x.isNaN || y.isNaN })
  | .fclassF64 d a => some (d, BitVec.ofNat 64 (classCode 11 52 (s.getF a).toNat), {})
  | .feqF32 d a b => let x := f32At s a; let y := f32At s b
    some (d, bit (x.isNaN = false ∧ y.isNaN = false ∧ x.lt y = false ∧ y.lt x = false), { invalid := x.isSNaN || y.isSNaN })
  | .fltF32 d a b => let x := f32At s a; let y := f32At s b
    some (d, bit (x.lt y = true), { invalid := x.isNaN || y.isNaN })
  | .fleF32 d a b => let x := f32At s a; let y := f32At s b
    some (d, bit (x.isNaN = false ∧ y.isNaN = false ∧ y.lt x = false), { invalid := x.isNaN || y.isNaN })
  | .fclassF32 d a => some (d, BitVec.ofNat 64 (classCode 8 23 ((s.getF a).toNat % 2 ^ 32)), {})
  | _ => none

/-- An integer between the ends of a range, else the nearer end. -/
def clampTo (lo hi v : Int) : Int := if v < lo then lo else if hi < v then hi else v

/-- A value converted to an integer of a range (R144): NaN gives 0, infinities the ends, a finite value its rounding clamped. -/
def toIntOf (s : State) (m : BitVec 2) (lo hi : Int) : FVal → Word × FFlags
  | .nan _ _ => (0, { invalid := true })
  | .inf neg => (BitVec.ofInt 64 (if neg then lo else hi), { invalid := true })
  | .fin n c e =>
    let r := (FVal.fin n c e).toInt (roundingOf s m) 0
    (BitVec.ofInt 64 (clampTo lo hi r.1),
      if r.1 < lo ∨ hi < r.1 then { invalid := true } else { inexact := r.2 })

/-- R144: conversions that write an f register. -/
def cvtFOf (s : State) : Instr → Option (RegNo × Word × FFlags)
  | .cvtF64I64 d a m => some (d, delivered s .f64 m {} (FVal.ofInt (s.getX a).toInt))
  | .cvtF64N64 d a m => some (d, delivered s .f64 m {} (FVal.ofInt (s.getX a).toNat))
  | .cvtF32I64 d a m => some (d, delivered s .f32 m {} (FVal.ofInt (s.getX a).toInt))
  | .cvtF32N64 d a m => some (d, delivered s .f32 m {} (FVal.ofInt (s.getX a).toNat))
  | .cvtF64F32 d a => some (d, delivered s .f64 0 { invalid := (f32At s a).isSNaN } (f32At s a))
  | .cvtF32F64 d a m => some (d, delivered s .f32 m { invalid := (f64At s a).isSNaN } (f64At s a))
  | .fmvF d a => some (d, s.getX a, {})
  | _ => none

/-- R144: conversions that write an x register. -/
def cvtXOf (s : State) : Instr → Option (RegNo × Word × FFlags)
  | .cvtI64F64 d a m => some (d, toIntOf s m (-2 ^ 63) (2 ^ 63 - 1) (f64At s a))
  | .cvtN64F64 d a m => some (d, toIntOf s m 0 (2 ^ 64 - 1) (f64At s a))
  | .cvtI64F32 d a m => some (d, toIntOf s m (-2 ^ 63) (2 ^ 63 - 1) (f32At s a))
  | .cvtN64F32 d a m => some (d, toIntOf s m 0 (2 ^ 64 - 1) (f32At s a))
  | .fmvX d a => some (d, s.getF a, {})
  | _ => none

/-- The machine with FP.CSR's flags raised; nothing else changed. -/
def withCsr (s : State) (csr : Word) : State :=
  { s with cores := s.cores.put s.cur { s.me with regs := { s.me.regs with fpCsr := csr } } }

/-- A finite value as a rational number. -/
def ratOf : FVal → ℚ
  | .fin n m e => (if n then -1 else 1) * (m : ℚ) * (2 : ℚ) ^ e
  | _ => 0

/-- Whether a value is finite. -/
def isFinite : FVal → Bool
  | .fin _ _ _ => true
  | _ => false

end Sys2Proof.Claims

/-- Every floating arithmetic operation of R142, and fmin and fmax of R143, complete in every state in which no condition they raise is
enabled: the result rounded by RM in the f register, the conditions' FLG bits set, nothing else changed but the pc. -/
def Obligations.FloatArithmeticResults : Prop :=
  ∀ (s : State) (i : Instr) (d : RegNo) (v : Word) (g : FFlags), i.wf = true →
    (arithOf s i = some (d, v, g) ∨ minMaxOf s i = some (d, v, g)) → enabled s.me.regs.fpCsr g = false →
      exec i s = .next (wroteF s d v (s.me.regs.fpCsr ||| flagBits g))

/-- The comparisons and classifications of R143, and the conversions of R144, complete in every state in which no condition they raise is
enabled, with the result in their x or f register and nothing else changed but FLG and the pc. -/
def Obligations.FloatCompareAndConvert : Prop :=
  ∀ (s : State) (i : Instr) (d : RegNo) (v : Word) (g : FFlags), i.wf = true → enabled s.me.regs.fpCsr g = false →
    (cvtFOf s i = some (d, v, g) → exec i s = .next (wroteF s d v (s.me.regs.fpCsr ||| flagBits g))) ∧
    ((compareOf s i = some (d, v, g) ∨ cvtXOf s i = some (d, v, g)) →
      exec i s = .next (wroteX (withCsr s (s.me.regs.fpCsr ||| flagBits g)) d v))

/-- A floating instruction that raises an enabled condition sets its FLG bits and takes cause 0x0F at itself: no x or f register is written
(R110, R134). -/
def Obligations.EnabledConditionTraps : Prop :=
  ∀ (s : State) (i : Instr) (d : RegNo) (v : Word) (g : FFlags), i.wf = true → CanTrap s →
    (arithOf s i = some (d, v, g) ∨ minMaxOf s i = some (d, v, g) ∨ compareOf s i = some (d, v, g) ∨
      cvtFOf s i = some (d, v, g) ∨ cvtXOf s i = some (d, v, g)) →
    enabled s.me.regs.fpCsr g = true →
      exec i s = .next (inHandler (withCsr s (s.me.regs.fpCsr ||| flagBits g)) 0x0F 0 0)

/-- Before it is rounded, a sum, difference, product or fused product and sum of finite values is their exact rational value, and the order of
finite values is that of their rational values: the one rounding of R142 is the only one. -/
def Obligations.FloatOperationsAreExact : Prop :=
  ∀ x y z : FVal, isFinite x = true → isFinite y = true → isFinite z = true →
    (isFinite (x.add y) = true ∧ ratOf (x.add y) = ratOf x + ratOf y) ∧
    (isFinite (x.sub y) = true ∧ ratOf (x.sub y) = ratOf x - ratOf y) ∧
    (isFinite (x.mul y) = true ∧ ratOf (x.mul y) = ratOf x * ratOf y) ∧
    (isFinite (x.fma y z) = true ∧ ratOf (x.fma y z) = ratOf x * ratOf y + ratOf z) ∧
    (x.lt y = true ↔ ratOf x < ratOf y)

/-! ## Memory -/

/-- Memory at reset lists nothing, and an unlisted byte reads 0 (log 4). -/
def Sys2Proof.Claims.ResetMemoryIsCanonical : Prop :=
  ByteMap.wf State.reset.mem = true ∧ ∀ pa, ByteMap.rd State.reset.mem pa = 0

/-- Memory keeps its one canonical form, addresses strictly rising and no listed byte 0, over every step of every instruction and event. -/
def Obligations.StepKeepsMemoryCanonical : Prop :=
  ∀ s t : State, ByteMap.wf s.mem = true → step s = .next t → ByteMap.wf t.mem = true

/-- A write of a location at home, read back under the same key, gives the bytes written; every other byte under that key reads as before, and
so does, under any key, every byte of a 32-byte unit that the write does not touch (R84, R85, R282). An exact accumulator that the write meets
closes first (R70), so bytes are compared with those of the state in which it has. -/
def Obligations.WriteThenRead : Prop :=
  ∀ (s : State) (l : Loc) (data : List Byte),
    let t := s.writeLoc l data
    let before := s.closeAccums l.pa data.length
    (t.readLoc l data.length).2 = data ∧
    (∀ pa, pa < l.pa ∨ l.pa + data.length ≤ pa → t.byteAt l.slot pa = before.byteAt l.slot pa) ∧
    (∀ slot pa, pa / 32 < l.pa / 32 ∨ (l.pa + data.length - 1) / 32 < pa / 32 → t.byteAt slot pa = before.byteAt slot pa)

/-- R135's order of checks for an access of `size` bytes at `va` by bent `b`: alignment, bits 63:56, the walk's own cause, the leaf's permission
and management pages, the key, the slot that the L2 holds the line under (R96); and what the access may use when all pass. -/
def Obligations.AccessChecksInOrder : Prop :=
  ∀ (s : State) (bay b size : Nat) (va : Word) (need : Need),
    let key := match s.bents.find? b with
      | some r => r.key
      | none => 0
    (va.toNat % size ≠ 0 → s.access bay b va size need = .error 0x05) ∧
    (va.toNat % size = 0 → 2 ^ 56 ≤ va.toNat → s.access bay b va size need = .error 0x06) ∧
    (va.toNat % size = 0 → va.toNat < 2 ^ 56 →
      (∀ c, s.lookup bay (s.root b) va.toNat = .error c → s.access bay b va size need = .error c) ∧
      (∀ t : TlbEntry, s.lookup bay (s.root b) va.toNat = .ok t →
        let pa := ptePa t.leaf / t.size * t.size + va.toNat % t.size
        let sc := t.leaf.getLsbD 11
        let own := decide (key ≠ 0 ∧ (t.leaf.extractLsb' 52 8).toNat = key)
        let allowed := match need with
          | .read => t.leaf.getLsbD 1
          | .write => t.leaf.getLsbD 2
          | .both => t.leaf.getLsbD 1 && t.leaf.getLsbD 2
          | .exec => t.leaf.getLsbD 1 && t.leaf.getLsbD 3
          | .home => t.leaf.getLsbD 1
        -- the bay's L2 holds the line under another slot (R96)
        let clash := decide (need = .read ∨ need = .write ∨ need = .exec) && !sc &&
          (if (s.remote? (s.home pa)).isSome then decide ((t.leaf.extractLsb' 8 2).toNat = 2) else decide ((t.leaf.extractLsb' 8 2).toNat ≠ 1)) &&
          (match (s.bay bay).l2.find? (s.home pa / 64) with
            | some c => decide (c.slot ≠ some key)
            | none => false)
        ((s.isManagement pa = true ∨ allowed = false) → s.access bay b va size need = .error 0x07) ∧
        (s.isManagement pa = false → allowed = true → sc = false → own = false → s.access bay b va size need = .error 0x08) ∧
        (s.isManagement pa = false → allowed = true → (sc = true ∨ own = true) → clash = true → s.access bay b va size need = .error 0x08) ∧
        (s.isManagement pa = false → allowed = true → (sc = true ∨ own = true) → clash = false →
          ∃ l : Loc, s.access bay b va size need = .ok l ∧ l.pa = s.home pa ∧ l.slot = (if sc then none else some key))))

namespace Sys2Proof.Claims

/-- The memory form of a load, store, AMO or CAS: its address, size, what it needs of the leaf, class, order, and what it does when it
performs (R120, R121, R145, R147, R148), as one access or in the two 8-byte halves of a V16 (R101). Merge atomics are not here. -/
structure MemForm where
  va : Word
  size : Nat
  need : Need
  cls : Nat
  ord : Nat
  kind : AccessKind
  halves : Option (AccessKind × AccessKind) := none

/-- The address of a MEM operand (R114, R145). -/
def at_ (s : State) (a : RegNo) (off : BitVec 10) (size : Nat) : Word := s.getX a + BitVec.ofInt 64 (off.toInt * size)

def loadForm (s : State) (a : RegNo) (c : BitVec 4) (o : BitVec 2) (f : BitVec 10) (size : Nat) (d : LoadDest) : Option MemForm :=
  some { va := at_ s a f size, size := size, need := .read, cls := c.toNat, ord := o.toNat, kind := .load d }

def storeForm (s : State) (a : RegNo) (c : BitVec 4) (o : BitVec 2) (f : BitVec 10) (size : Nat) (v : Nat) : Option MemForm :=
  some { va := at_ s a f size, size := size, need := .write, cls := c.toNat, ord := o.toNat, kind := .store (leBytes size v) }

/-- The operation of an AOP code (R121). -/
def opOf (p : BitVec 4) : MergeOp :=
  match p.toNat with
  | 0x0 => .add
  | 0x1 => .fadd
  | 0x2 => .bfadd2
  | 0x3 => .min
  | 0x4 => .max
  | 0x5 => .minn
  | 0x6 => .maxn
  | 0x7 => .fmin
  | 0x8 => .fmax
  | 0x9 => .and
  | 0xA => .or
  | 0xB => .xor
  | _ => .swap

/-- Whether Extend of R147 sign-extends the old value. -/
def extendsSigned : MergeOp → Bool
  | .fadd | .bfadd2 | .fmin | .fmax | .minn | .maxn => false
  | .add | .min | .max | .and | .or | .xor | .swap => true

/-- Loads, stores, AMO without MRG, and CAS. -/
def memFormOf (s : State) : Instr → Option MemForm
  | .ldB d a c o f => loadForm s a c o f 1 (.x d 1 true)
  | .ldH d a c o f => loadForm s a c o f 2 (.x d 2 true)
  | .ldW d a c o f => loadForm s a c o f 4 (.x d 4 true)
  | .ldD d a c o f => loadForm s a c o f 8 (.x d 8 true)
  | .ldBn d a c o f => loadForm s a c o f 1 (.x d 1 false)
  | .ldHn d a c o f => loadForm s a c o f 2 (.x d 2 false)
  | .ldWn d a c o f => loadForm s a c o f 4 (.x d 4 false)
  | .ldFw d a c o f => loadForm s a c o f 4 (.f d 4)
  | .ldFd d a c o f => loadForm s a c o f 8 (.f d 8)
  | .ldA16 d a c o f => loadForm s a c o f 16 (.pair (BitVec.ofNat 5 (2 * d.toNat)))
  | .ldV16 d a c o f => (loadForm s a c o f 16 (.pair (BitVec.ofNat 5 (2 * d.toNat)))).map (fun m => { m with
      halves := some (.load (.x (BitVec.ofNat 5 (2 * d.toNat)) 8 false), .load (.x (BitVec.ofNat 5 (2 * d.toNat + 1)) 8 false)) })
  | .stB r a c o f => storeForm s a c o f 1 (s.getX r).toNat
  | .stH r a c o f => storeForm s a c o f 2 (s.getX r).toNat
  | .stW r a c o f => storeForm s a c o f 4 (s.getX r).toNat
  | .stD r a c o f => storeForm s a c o f 8 (s.getX r).toNat
  | .stFw r a c o f => storeForm s a c o f 4 (s.getF r).toNat
  | .stFd r a c o f => storeForm s a c o f 8 (s.getF r).toNat
  | .stA16 r a c o f => storeForm s a c o f 16
      ((s.getX (BitVec.ofNat 5 (2 * r.toNat))).toNat + 2 ^ 64 * (s.getX (BitVec.ofNat 5 (2 * r.toNat + 1))).toNat)
  | .stV16 r a c o f => (storeForm s a c o f 16 ((s.getX (BitVec.ofNat 5 (2 * r.toNat))).toNat +
      2 ^ 64 * (s.getX (BitVec.ofNat 5 (2 * r.toNat + 1))).toNat)).map (fun m => { m with
      halves := some (.store (leBytes 8 (s.getX (BitVec.ofNat 5 (2 * r.toNat))).toNat),
        .store (leBytes 8 (s.getX (BitVec.ofNat 5 (2 * r.toNat + 1))).toNat)) })
  | .amoW d a b p m o c => if m = 1 then none else
      some { va := s.getX a, size := 4, need := .both, cls := c.toNat, ord := o.toNat
             kind := .amo (opOf p) (BitVec.ofNat 64 ((s.getX b).toNat % 2 ^ 32)) (.x d 4 (extendsSigned (opOf p))) }
  | .amoD d a b p m o c => if m = 1 then none else
      some { va := s.getX a, size := 8, need := .both, cls := c.toNat, ord := o.toNat
             kind := .amo (opOf p) (s.getX b) (.x d 8 (extendsSigned (opOf p))) }
  | .casW d a b o c =>
      some { va := s.getX a, size := 4, need := .both, cls := c.toNat, ord := o.toNat, kind := .cas (s.getX d) (s.getX b) (.x d 4 true) }
  | .casD d a b o c =>
      some { va := s.getX a, size := 8, need := .both, cls := c.toNat, ord := o.toNat, kind := .cas (s.getX d) (s.getX b) (.x d 8 true) }
  | _ => none

/-- Whether an instruction's order carries release, which a load's does not (R120, R121). -/
def releases (m : MemForm) : Bool :=
  decide (2 ≤ m.ord) && (match m.kind with
    | .load _ => false
    | _ => true)

/-- One access of a form: what it does, and its bytes (R146). -/
def issuedPart (s : State) (m : MemForm) (l : Loc) (kind : AccessKind) (off n : Nat) : Access :=
  { no := s.stamp, agent := s.myAgent, core := s.cur, bent := s.myBent, cls := m.cls, ord := m.ord, kind := kind, va := m.va
    loc := { l with pa := l.pa + off }, size := n, sent := s.elapsed, lost := false }

/-- The accesses that a form issues (R101, R146). -/
def issued (s : State) (m : MemForm) (l : Loc) : List Access :=
  match m.halves with
  | none => [issuedPart s m l m.kind 0 m.size]
  | some (a, b) => [issuedPart s m l a 0 8, issuedPart s m l b 8 8]

/-- A release of the running peg at a scope over classes waits for a merge (R289): at PKG or SYS, one of the peg, or of a command of its that
has completed, which no journal and no saved core frame holds any more. -/
def WaitsForMerges (s : State) (scope : Nat) (mask : BitVec 16) : Prop :=
  let done (q : Option Nat) : Prop := ∀ n, q = some n →
    (∀ e ∈ s.cores, ∀ c ∈ e.2.journal, c.no ≠ n) ∧ (∀ e ∈ s.pegs, ∀ f, e.2.coreFrame = some f → ∀ c ∈ f.cmds, c.no ≠ n)
  3 ≤ scope ∧ ∃ id, s.pegId = some id ∧
    ((∃ m ∈ s.merges, ∃ q ∈ m.parties, q.peg = id ∧ mask.getLsbD q.cls = true ∧ done q.cmd) ∨
      ∃ m ∈ s.recordMerges, m.peg = id ∧ m.agent.isSill = false ∧ m.lost = false ∧ mask.getLsbD m.cls = true ∧ done m.cmd)

/-- A release that is no access has something to wait for (R288, R289): an access of the peg's own that has not performed, or a merge. -/
def Waits (s : State) (scope : Nat) (mask : BitVec 16) : Prop :=
  (∃ a ∈ s.pending, a.agent = s.myAgent ∧ a.lost = false ∧ mask.getLsbD a.cls = true) ∨ WaitsForMerges s scope mask

/-- A form whose access passes R135's checks and whose release, if it is one, waits for no merge (R289). -/
def Issues (s : State) (m : MemForm) (l : Loc) : Prop :=
  s.access s.myBay s.myBent m.va m.size m.need = .ok l ∧
  (releases m = true → ¬ WaitsForMerges s (s.me.regs.ordScope.toNat % 8) (BitVec.ofNat 16 (2 ^ m.cls)))

/-- The state that a form's accesses are issued in: its translation is in the bay's TLB (R76), its line in the L2 or its packets on the link. -/
def issuing (s : State) (m : MemForm) (l : Loc) : State :=
  { s.touched s.myBay s.myBent m.va l m.size m.need with stamp := s.stamp + 1 }

/-- `t` is `s` but for what TLBs, caches and link counters hold. -/
def Touched (s t : State) : Prop :=
  (∃ (cores : AMap Core) (bays : AMap Bay) (peers : AMap Peer), t = { s with cores := cores, bays := bays, peers := peers }) ∧
  (∀ c, ∃ dc, t.core c = { s.core c with dcache := dc }) ∧
  (∀ b, ∃ tlb l2, t.bay b = { s.bay b with tlb := tlb, l2 := l2 }) ∧
  (∀ p, ∃ n, t.peer p = { s.peer p with packets := n })

/-- The bytes that a read through a bay receives of a location that no window line serves: a shared-clear one meets the bay's L2, where
a line may stand decrypted under a slot (R96). -/
def meetsBytes (s : State) (bay : Nat) (l : Loc) (n : Nat) : List Byte :=
  (List.range n).map (fun k => s.byteAt (s.seenSlot bay l (l.pa + k)) (l.pa + k))

/-- The accesses of a form meet homes that answer, and no open accumulator. -/
def Answered (s : State) (as : List Access) : Prop :=
  ∀ a ∈ as, s.answer a.loc.pa a.size = .here ∧ ∀ x ∈ s.accums, x.meets a.loc.pa a.size = false

/-- They meet data that is not poisoned. -/
def Plain (s : State) (as : List Access) : Prop := Answered s as ∧ ∀ a ∈ as, s.poisoned a.loc.pa a.size = false

/-- What a load leaves in the registers: the value sign- or zero-extended, or a register pair, the even one low (R120). x0 discards. -/
def LoadedAs (s t : State) : LoadDest → Nat → Prop
  | .none, _ => t.me.x = s.me.x ∧ t.me.f = s.me.f
  | .x d n sg, v => t.me.f = s.me.f ∧ (∀ r, r ≠ d → t.getX r = s.getX r) ∧
      (d ≠ 0 → t.getX d = if sg then BitVec.ofInt 64 (Int.bmod v (2 ^ (8 * n))) else BitVec.ofNat 64 v)
  | .f d _, v => t.me.x = s.me.x ∧ (∀ r, r ≠ d → t.getF r = s.getF r) ∧ t.getF d = BitVec.ofNat 64 v
  | .pair d, v => t.me.f = s.me.f ∧ (∀ r, r ≠ d → r ≠ d + 1 → t.getX r = s.getX r) ∧
      (d ≠ 0 → t.getX d = BitVec.ofNat 64 v) ∧ (d + 1 ≠ 0 → t.getX (d + 1) = BitVec.ofNat 64 (v / 2 ^ 64))

/-- Everything of the acting core but its x and f registers, its pc and what watches its lines. -/
def CoreKept (s t : State) : Prop :=
  t.cur = s.cur ∧ t.pc = s.pc + 4 ∧ t.me.d = s.me.d ∧ t.me.regs = s.me.regs ∧ t.me.journal = s.me.journal ∧ t.me.sems = s.me.sems ∧
  t.me.peg = s.me.peg ∧ (∀ c, c ≠ s.cur → (t.core c).x = (s.core c).x ∧ (t.core c).pc = (s.core c).pc)

/-- Every byte of memory reads as before but the bytes written, under the key they are written with; and, under any key, every byte of the
32-byte units that are not written to. -/
def OnlyWrites (s t : State) (l : Loc) (n : Nat) : Prop :=
  (∀ pa, pa < l.pa ∨ l.pa + n ≤ pa → t.byteAt l.slot pa = s.byteAt l.slot pa) ∧
  (∀ slot pa, pa / 32 < l.pa / 32 ∨ (l.pa + n - 1) / 32 < pa / 32 → t.byteAt slot pa = s.byteAt slot pa)

end Sys2Proof.Claims

/-- R134, R135, R355: a load, store, AMO or CAS whose access fails a check takes the check's cause at itself, with TRAP.ADDR the address, and
writes no register, no memory and nothing else. -/
def Sys2Proof.Claims.FailedAccessTraps : Prop :=
  ∀ (s : State) (i : Instr) (m : MemForm) (c : Nat), memFormOf s i = some m → c < 256 → CanTrap s →
    s.access s.myBay s.myBent m.va m.size m.need = .error c → exec i s = .next (inHandler s c m.va 0)

/-- R76, R94, R104: what an access that passes its checks touches on its way is a TLB, a cache or a link's counter: its bay's TLB holds the
translation that served it, and every byte reads as before. -/
def Sys2Proof.Claims.AccessesTouchOnlyCaches : Prop :=
  ∀ (s : State) (bay b n : Nat) (va : Word) (need : Need) (l : Loc), s.translate bay b va need = .ok l →
    let u := s.touched bay b va l n need
    Touched s u ∧ (∀ slot pa, u.byteAt slot pa = s.byteAt slot pa) ∧
    ∃ e, s.lookup bay (s.root b) va.toNat = .ok e ∧ (bay < 8 → e ∈ (u.bay bay).tlb)

/-- R146: an access that passes its checks has issued. Where every access of the form cannot perform yet, or the turn leaves it pending, the pc has moved on, they are pending, and no
register or memory has changed; of two halves exactly those stay pending that cannot perform. -/
def Sys2Proof.Claims.AccessesIssueWithoutWaiting : Prop :=
  ∀ (s : State) (i : Instr) (m : MemForm) (l : Loc), memFormOf s i = some m → Issues s m l →
    let u := issuing s m l
    ((s.defer = true ∨ ∀ a ∈ issued s m l, u.canPerform a = false) →
      exec i s = .next { passed u with pending := s.pending ++ issued s m l }) ∧
    ((m.halves = none ∨ s.remote? l.pa = none) →
      ∃ t, exec i s = .next t ∧ t.pc = s.pc + 4 ∧ t.pending = s.pending ++ (issued s m l).filter (fun a => s.defer || !u.canPerform a))

/-- R145: a load that can perform reads the bytes at its location, and writes its destination as R120 extends them; memory and everything else
stay as they are. One of a read-only-cacheable window page that hits its core's data cache receives the line's bytes (R99). -/
def Sys2Proof.Claims.LoadsReadMemory : Prop :=
  ∀ (s : State) (i : Instr) (m : MemForm) (l : Loc) (d : LoadDest), memFormOf s i = some m → m.kind = .load d → Issues s m l →
    let u := issuing s m l
    s.defer = false → (∀ a ∈ issued s m l, u.canPerform a = true) → Answered s (issued s m l) →
      (∀ data : List Byte,
        ((∀ a ∈ issued s m l, (l.cp ≠ 2 ∨ s.remote? a.loc.pa = none) ∧ s.poisoned a.loc.pa a.size = false) ∧ data = meetsBytes u s.myBay l m.size ∨
          l.cp = 2 ∧ (∀ a ∈ issued s m l, (s.remote? a.loc.pa).isSome = true) ∧ l.pa % 64 + m.size ≤ 64 ∧ ∃ c, u.me.dcache.find? (l.pa / 64) = some c ∧ c.data ≠ [] ∧
            c.slot = l.slot ∧ c.poison = [] ∧ data = (List.range m.size).map (fun k => c.data.getD (l.pa % 64 + k) 0)) →
        ∃ t, exec i s = .next t ∧ LoadedAs s t d (leNat data) ∧ CoreKept s t ∧
          t.mem = s.mem ∧ t.poison = s.poison ∧ t.pending = s.pending ∧ t.pegs = s.pegs ∧ t.bents = s.bents ∧
          (∀ slot pa, t.byteAt slot pa = s.byteAt slot pa))

/-- R145: a store that can perform writes its bytes at its location and nothing else: registers and all other memory stay as they are. -/
def Sys2Proof.Claims.StoresWriteMemory : Prop :=
  ∀ (s : State) (i : Instr) (m : MemForm) (l : Loc) (data : List Byte), memFormOf s i = some m → m.kind = .store data → Issues s m l →
    s.defer = false → (∀ a ∈ issued s m l, (issuing s m l).canPerform a = true) → Answered s (issued s m l) →
      ∃ t, exec i s = .next t ∧ t.bytesAt l.slot l.pa m.size = data ∧ data.length = m.size ∧ OnlyWrites s t l m.size ∧
        LoadedAs s t .none 0 ∧ CoreKept s t ∧ t.pending = s.pending ∧ t.bents = s.bents

namespace Sys2Proof.Claims

/-- AOp of R147 for the operations on bits and integers, on operands below 2^(8n). -/
def bitOp (n : Nat) : MergeOp → Nat → Nat → Option Nat
  | .add, a, b => some ((a + b) % 2 ^ (8 * n))
  | .and, a, b => some (a &&& b)
  | .or, a, b => some (a ||| b)
  | .xor, a, b => some (a ^^^ b)
  | .swap, _, b => some b
  | .min, a, b => some (if Int.bmod a (2 ^ (8 * n)) ≤ Int.bmod b (2 ^ (8 * n)) then a else b)
  | .max, a, b => some (if Int.bmod a (2 ^ (8 * n)) ≤ Int.bmod b (2 ^ (8 * n)) then b else a)
  | .minn, a, b => some (min a b)
  | .maxn, a, b => some (max a b)
  | _, _, _ => none

end Sys2Proof.Claims

/-- R147: an AMO that can perform leaves AOp(old, b) at its location, exactly for the bit and integer operations, and the old value, extended,
in x[XD]; nothing else changes. -/
def Sys2Proof.Claims.AmosUpdateMemory : Prop :=
  ∀ (s : State) (i : Instr) (m : MemForm) (l : Loc) (op : MergeOp) (b : Word) (d : LoadDest),
    memFormOf s i = some m → m.kind = .amo op b d → Issues s m l → s.defer = false →
    (∀ a ∈ issued s m l, (issuing s m l).canPerform a = true) →
    Plain s (issued s m l) →
      let old := leNat (s.bytesAt l.slot l.pa m.size)
      ∃ t, exec i s = .next t ∧ leNat (t.bytesAt l.slot l.pa m.size) = aop op m.size old b.toNat % 2 ^ (8 * m.size) ∧
        (∀ v, bitOp m.size op old b.toNat = some v → leNat (t.bytesAt l.slot l.pa m.size) = v) ∧
        LoadedAs s t d old ∧ OnlyWrites s t l m.size ∧ CoreKept s t

/-- R148: a CAS that can perform compares bit for bit, writes x[XB] when the old value equals x[XD] and nothing when it does not, and leaves the
old value, sign-extended, in x[XD]. -/
def Sys2Proof.Claims.CompareAndSwap : Prop :=
  ∀ (s : State) (i : Instr) (m : MemForm) (l : Loc) (e n : Word) (d : LoadDest),
    memFormOf s i = some m → m.kind = .cas e n d → Issues s m l → s.defer = false →
    (∀ a ∈ issued s m l, (issuing s m l).canPerform a = true) →
    Plain s (issued s m l) →
      let old := leNat (s.bytesAt l.slot l.pa m.size)
      ∃ t, exec i s = .next t ∧
        leNat (t.bytesAt l.slot l.pa m.size) = (if old = e.toNat % 2 ^ (8 * m.size) then n.toNat % 2 ^ (8 * m.size) else old) ∧
        LoadedAs s t d old ∧ OnlyWrites s t l m.size ∧ CoreKept s t

/-- R147, R289: an AMO with MRG whose access passes the checks is accepted for performance at its home, with release or without, and writes no
register; MERGE_AT_HOME later performs it there. -/
def Obligations.MergeAtomicsAreAccepted : Prop :=
  ∀ (s : State) (d a b : RegNo) (p : BitVec 4) (o : BitVec 2) (c : BitVec 4) (wide : Bool) (l : Loc),
    let i : Instr := if wide then .amoD d a b p 1 o c else .amoW d a b p 1 o c
    let n : Nat := if wide then 8 else 4
    s.access s.myBay s.myBent (s.getX a) n .both = .ok l →
      ∃ (m : Merge) (u : State), Touched s u ∧ exec i s = .next { passed u with stamp := s.stamp + 1, merges := s.merges ++ [m] } ∧
        m.op = opOf p ∧ m.loc = l ∧ m.size = n ∧ m.operand = s.getX b ∧ m.release = decide (o = 0b10) ∧
        m.parties.map (fun q => (q.no, q.agent, q.bent, q.cls, q.va)) = [(s.stamp, s.myAgent, s.myBent, c.toNat, s.getX a)]

/-- R134, R135, R146, R355: an access that fails a check traps; one that cannot perform yet has issued. -/
def Obligations.AccessesTrapOrIssue : Prop :=
  Sys2Proof.Claims.FailedAccessTraps ∧ Sys2Proof.Claims.AccessesTouchOnlyCaches ∧ Sys2Proof.Claims.AccessesIssueWithoutWaiting

/-- R120, R145: loads read and stores write their location, and nothing else. -/
def Obligations.LoadsAndStores : Prop := Sys2Proof.Claims.LoadsReadMemory ∧ Sys2Proof.Claims.StoresWriteMemory

/-- R147, R148: AMO and CAS read and update their location, and nothing else. -/
def Obligations.AtomicsUpdateMemory : Prop := Sys2Proof.Claims.AmosUpdateMemory ∧ Sys2Proof.Claims.CompareAndSwap

/-! ## State registers -/

/-- R109: the registers per peg hold the reset values of their rules on every core after reset, every semaphore counts 0 (R155), no word is
journalled, no buffer byte is set, no region is open or seated; the ageing registers hold the values of R341, R347 and R363. -/
def Sys2Proof.Claims.ResetRegisterValues : Prop :=
  ∀ c : Nat,
    let k := State.reset.core c
    k.regs.rndDef = 0 ∧ k.regs.rngSeed = 0 ∧ k.regs.fpCsr = 0 ∧ k.regs.ordScope = 0b011 ∧ k.regs.scrbWin = 0 ∧ k.regs.scrbRthr = 0 ∧
    k.regs.mwaitTmo = 0x1000 ∧ k.regs.collTmo = 0x2710 ∧ k.regs.sillGto = 0x3E8 ∧ k.regs.klockStat = 0 ∧ k.regs.trapCause = 0 ∧
    k.regs.trapInfo = 0 ∧ k.regs.trapAddr = 0 ∧ (∀ n, k.sem n = 0) ∧ k.journal = [] ∧ k.ctxs = [] ∧ k.ageLimit = 0x40 ∧
    k.restWin = 0x10000 ∧ (State.reset.bay c).age = 0x64 ∧ k.jnext = 0

namespace Sys2Proof.Claims

/-- What GETS reads, by index (R109, R170); unassigned indices and FW registers read nothing. -/
def gettable (s : State) : List (Nat × Word) :=
  let r := s.me.regs
  [(0x000, devStep), (0x001, s.coreId s.cur), (0x002, s.devCnt), (0x010, s.me.pc),
   (0x011, match s.peg? with
     | some p => p.recAddr
     | none => 0),
   (0x012, BitVec.ofNat 64 s.myBent), (0x020, r.rndDef), (0x021, r.rngSeed), (0x022, r.fpCsr), (0x023, r.ordScope),
   (0x024, r.scrbWin), (0x025, r.scrbRthr), (0x026, r.mwaitTmo), (0x027, r.collTmo), (0x028, r.sillGto), (0x029, r.klockStat),
   (0x02A, s.me.low.zeroExtend 64), (0x040, r.trapCause), (0x041, r.trapPc), (0x042, r.trapInfo), (0x043, r.trapAddr),
   (0x060, s.me.ageLimit), (0x061, s.me.restWin), (0x062, (s.bay s.myBay).age)]

/-- The value of an index in a table. -/
def valueIn (n : Nat) : List (Nat × Word) → Option Word
  | [] => none
  | e :: t => if e.1 = n then some e.2 else valueIn n t

/-- The RW registers after a PUTS of `v` (R109): reserved bits stay 0; a reserved value is ignored (R56, R111); TRAP.PC is word-aligned
(R353); FP.CSR holds EN and FLG (R110), MWAIT.TMO its two fields (R150). -/
def puttable (r : PegRegs) (v : Word) : List (Nat × PegRegs) :=
  [(0x020, if v &&& 3 = 3 then r else { r with rndDef := v &&& 3 }), (0x021, { r with rngSeed := v &&& 0xFFFFFFFF }),
   (0x022, { r with fpCsr := v &&& 0x1F1F }), (0x023, if 4 < (v &&& 7).toNat then r else { r with ordScope := v &&& 7 }),
   (0x024, { r with scrbWin := v &&& 3 }), (0x025, { r with scrbRthr := v &&& 0xFFFFFFFF }),
   (0x026, { r with mwaitTmo := v &&& 0xFFFFFFFF0000FFFF }), (0x027, { r with collTmo := v &&& 0xFFFFFFFF }),
   (0x028, { r with sillGto := v &&& 0xFFFFFFFF }), (0x041, { r with trapPc := v &&& 0xFFFFFFFFFFFFFFFC })]

/-- The machine past an instruction that leaves the core as `k`; nothing else changed. -/
def coreNow (s : State) (k : Core) : State := { s with cores := s.cores.put s.cur { k with pc := s.me.pc + 4 } }

end Sys2Proof.Claims

/-- R109, R170: GETS of every readable register completes with its value in x[XD]; of every other index it takes cause 0x01. -/
def Sys2Proof.Claims.GetsReadsStateRegisters : Prop :=
  ∀ (s : State) (d : RegNo) (i : BitVec 12),
    (∀ v, valueIn i.toNat (gettable s) = some v → exec (.gets d i) s = .next (wroteX s d v)) ∧
    (valueIn i.toNat (gettable s) = none → CanTrap s → exec (.gets d i) s = .next (inHandler s 0x01 0 0))

/-- R109, R170: PUTS writes a register of level RW under its field rules; one of level RO it ignores; one of level PR it writes for a privileged
peg, AGE.LIMIT clamped as R347 says; everything else, and PR without privilege, takes cause 0x01. Nothing else changes. -/
def Sys2Proof.Claims.PutsWritesStateRegisters : Prop :=
  ∀ (s : State) (a : RegNo) (i : BitVec 12),
    let v := s.getX a
    let ro := [0x000, 0x001, 0x002, 0x010, 0x011, 0x012, 0x029, 0x02A, 0x040, 0x042, 0x043]
    (∀ r, (puttable s.me.regs v).find? (fun e => decide (e.1 = i.toNat)) = some (i.toNat, r) →
      exec (.puts a i) s = .next (coreNow s { s.me with regs := r })) ∧
    (i.toNat ∈ ro → exec (.puts a i) s = .next (passed s)) ∧
    (s.privileged = true →
      (i = 0x060 → exec (.puts a i) s = .next (coreNow s { s.me with ageLimit := BitVec.ofNat 64 (max 16 (min 4096 (v.toNat % 2 ^ 13))) })) ∧
      (i = 0x061 → exec (.puts a i) s = .next (coreNow s { s.me with restWin := v &&& 0xFFFFFFFF })) ∧
      (i = 0x062 → exec (.puts a i) s =
        .next { passed s with bays := s.bays.put s.myBay { s.bay s.myBay with age := v &&& 0xFFFF } })) ∧
    (CanTrap s → i.toNat ∉ ro → i.toNat ∉ (puttable s.me.regs v).map Prod.fst →
      (s.privileged = false ∨ i.toNat ∉ [0x060, 0x061, 0x062]) → exec (.puts a i) s = .next (inHandler s 0x01 0 0))

namespace Sys2Proof.Claims

/-- The bits that a jig register of the shadow set holds (R208): loop counts, strides and addresses by their width. -/
def shadowBits (off : Nat) : Nat :=
  match off with
  | 0x14 => 20
  | 0x16 => 15
  | 0x18 => 56
  | 0x1B => 64
  | o => if o < 0x12 ∧ o % 3 ≠ 0 then 64 else 21

end Sys2Proof.Claims

/-- R169, R208: an EST to index (x[XA] + IDX) mod 65 536 of the jig's shadow set keeps the register's bits, and is ignored at every other index;
an ELD reads active and shadow jig registers, loop indices, JIG.STAT, the finish words and bank formats into x[XD], and 0 elsewhere. Neither
traps or changes anything else. -/
def Sys2Proof.Claims.EngineRegisterAccess : Prop :=
  ∀ (s : State) (d a : RegNo) (i : BitVec 12),
    let n := ((s.getX a).toNat + i.toNat) % 65536
    (0x100 ≤ n → n ≤ 0x11B → exec (.est d a i) s = .next (coreNow s { s.me with
      jigShadow := s.me.jigShadow.put (n - 0x100) (BitVec.ofNat 64 ((s.getX d).toNat % 2 ^ shadowBits (n - 0x100))) })) ∧
    ((n < 0x100 ∨ 0x11B < n) → exec (.est d a i) s = .next (passed s)) ∧
    ∃ v, exec (.eld d a i) s = .next (wroteX s d v) ∧ (n < 0x1C → v = s.me.jigActive.get n 0) ∧
      (0x20 ≤ n → n ≤ 0x25 → v = s.me.jigIdx.get (n - 0x20) 0) ∧
      (n = 0x27 → v = BitVec.ofNat 64 (s.me.jigSteps.toNat * 2 ^ 32 + s.me.runsWaiting % 8 * 2 + (if s.me.activeRun.isSome then 1 else 0))) ∧
      (n = 0x40 → v = s.me.finCw) ∧ (n = 0x41 → v = s.me.finScale) ∧
      (0x80 ≤ n → n ≤ 0x8F → v = s.me.srfFmt.get (n - 0x80) 0x0B) ∧
      (0x100 ≤ n → n ≤ 0x11B → v = s.me.jigShadow.get (n - 0x100) 0) ∧
      ((0x1C ≤ n ∧ n < 0x20 ∨ n = 0x26 ∨ 0x28 ≤ n ∧ n < 0x40 ∨ 0x42 ≤ n ∧ n < 0x80 ∨ 0x90 ≤ n ∧ n < 0x100 ∨ 0x11B < n) → v = 0)

/-! ## Traps -/

namespace Sys2Proof.Claims

/-- The machine after a trap of any kind has entered the running peg's handler (R353, R356). -/
def entered (s : State) (kind code : Nat) (info addr : Word) : State :=
  { s with
    cores := s.cores.put s.cur { s.me with
      pc := match s.bents.find? s.myBent with
        | some r => r.hpc
        | none => 0
      regs := { s.me.regs with
        trapCause := BitVec.ofNat 64 (0x8000 + 0x1000 * kind + code), trapPc := s.me.pc, trapInfo := info, trapAddr := addr }
      hactTime := 0, hactFrom := s.timestamp, spin := none, asked := none }
    bents := match s.bents.find? s.myBent with
      | some r => s.bents.put s.myBent { r with traps := r.traps + 1 }
      | none => s.bents }

/-- The machine with the outstanding fetch answered. -/
def fetchAnswered (s : State) : State := { s with cores := s.cores.put s.cur { s.me with fetchAsked := none } }

/-- The order of pending traps (R357), as a key whose lexicographic order is the rank: deferred data traps in program order, then by journal
number, the one further behind NEXT first, and within one number by its own rank. -/
def trapKey (next : BitVec 32) (t : Trap) : Nat × Nat × Nat :=
  if t.deferred then (0, t.rank, 0)
  else match t.seq with
    | none => (1, 0, 0)
    | some q => (2, 2 ^ 32 - 1 - (next - q).toNat, t.rank)

def keyLe (a b : Nat × Nat × Nat) : Prop :=
  a.1 < b.1 ∨ a.1 = b.1 ∧ (a.2.1 < b.2.1 ∨ a.2.1 = b.2.1 ∧ a.2.2 ≤ b.2.2)

/-- The instructions that only a privileged peg executes (R125). -/
def privilegedOnly : Instr → Bool
  | .bentNew _ _ | .bentKill _ | .enq _ _ | .tlbi _ | .tlbiAll => true
  | _ => false

/-- A bent and everything below it is draining. -/
def Drained (s t : State) (b : Nat) : Prop :=
  ∀ c r, t.bents.find? c = some r → s.under c b = true → r.drain = true

/-- No register of any core has changed. -/
def RegistersKept (s t : State) : Prop :=
  ∀ c, (t.core c).x = (s.core c).x ∧ (t.core c).f = (s.core c).f ∧ (t.core c).d = (s.core c).d ∧ (t.core c).regs = (s.core c).regs ∧
    (t.core c).pc = (s.core c).pc

end Sys2Proof.Claims

/-- Instructions whose own effect is a trap enter the handler at themselves: TRAP with cause 0x1A and IDX in TRAP.INFO (R171), a word that
decodes to nothing with cause 0x01 (R126), a fetch whose check fails, whose home refuses it or whose data is poisoned with that cause and the
word's address (R136). -/
def Sys2Proof.Claims.TrapsAreTaken : Prop :=
  ∀ s : State, CanTrap s →
    (∀ i : BitVec 12, exec (.trap i) s = .next (inHandler s 0x1A 0 (BitVec.ofNat 64 i.toNat))) ∧
    exec .illegalInstruction s = .next (inHandler s 0x01 0 0) ∧
    (∀ c, c < 256 → s.access s.myBay s.myBent s.me.pc 4 .exec = .error c →
      exec .instructionFetchFault s = .next (inHandler (fetchAnswered s) c s.me.pc 0)) ∧
    (∀ l, s.access s.myBay s.myBent s.me.pc 4 .exec = .ok l → s.lockedOut l.pa 4 = false →
      (s.answer l.pa 4 = .refused → exec .instructionFetchFault s = .next (inHandler (fetchAnswered s) 0x1C s.me.pc 0)) ∧
      (s.answer l.pa 4 = .here → (l.cp ≠ 2 ∨ s.remote? l.pa = none) → s.poisoned l.pa 4 = true →
        exec .instructionFetchFault s = .next (inHandler (fetchAnswered s) 0x1B s.me.pc 0)))

/-- R125: each privileged instruction takes cause 0x01 at itself when the peg's bent is not privileged, and changes nothing else. -/
def Sys2Proof.Claims.PrivilegeIsChecked : Prop :=
  ∀ (s : State) (i : Instr), privilegedOnly i = true → s.privileged = false → CanTrap s → exec i s = .next (inHandler s 0x01 0 0)

namespace Sys2Proof.Claims

/-- The cause, the address and the further information of the synchronous trap that an instruction takes at itself, and the machine as it stands
when it takes it (R134, R355). -/
inductive TrapsWith (s : State) : Instr → State → Nat → Word → Word → Prop where
  | breakpoint (i : BitVec 12) : TrapsWith s (.trap i) s 0x1A 0 (BitVec.ofNat 64 i.toNat)
  | illegal : TrapsWith s .illegalInstruction s 0x01 0 0
  | privileged (i : Instr) : privilegedOnly i = true → s.privileged = false → TrapsWith s i s 0x01 0 0
  | access (i : Instr) (m : MemForm) (c : Nat) : memFormOf s i = some m → s.access s.myBay s.myBent m.va m.size m.need = .error c →
      TrapsWith s i s c m.va 0
  | misaligned (d a : RegNo) (i : BitVec 16) : (s.getX a + BitVec.ofInt 64 i.toInt).toNat % 4 ≠ 0 → TrapsWith s (.jalr d a i) s 0x05 0 0
  | floating (i : Instr) (d : RegNo) (v : Word) (g : FFlags) : i.wf = true → enabled s.me.regs.fpCsr g = true →
      (arithOf s i = some (d, v, g) ∨ minMaxOf s i = some (d, v, g) ∨ compareOf s i = some (d, v, g) ∨ cvtFOf s i = some (d, v, g) ∨
        cvtXOf s i = some (d, v, g)) → TrapsWith s i (withCsr s (s.me.regs.fpCsr ||| flagBits g)) 0x0F 0 0

/-- A bent ends for a cause (R359, R366, R373): it and all below it drain, no register changes, and the cause is recorded in LAST unless one is
already. -/
def Ended (s t : State) (cause kind : Nat) : Prop :=
  Drained s t s.myBent ∧ RegistersKept s t ∧
  ∀ r, s.bents.find? s.myBent = some r → ∃ q, t.bents.find? s.myBent = some q ∧
    q.last = (if r.last = none then some (cause, kind) else r.last)

end Sys2Proof.Claims

/-- R359: a synchronous trap of any instruction and cause in a bent without a handler, one that arises while the handler runs, which is the watchdog's,
a pending trap delivered where there is no handler, and a handler that has run for one second of the timestamp, end the bent: it and all below it
drain, the cause is recorded, and no register changes. -/
def Obligations.FatalTrapsDrainTheBent : Prop :=
  (∀ (s u : State) (i : Instr) (r : Bent) (code : Nat) (addr info : Word), TrapsWith s i u code addr info →
    s.bents.find? s.myBent = some r → (s.me.regs.trapCause.getLsbD 15 = true ∨ r.hpc = 0) →
      ∃ t, exec i s = .next t ∧ Ended u t (if s.me.regs.trapCause.getLsbD 15 then 0x18 else code) 0) ∧
  -- whatever takes it: every cause that a handler or firmware may receive
  (∀ (s : State) (r : Bent) (code : Nat) (addr info : Word), code ≠ 0x0B → code ≠ 0x19 → s.bents.find? s.myBent = some r →
    (s.me.regs.trapCause.getLsbD 15 = true ∨ r.hpc = 0) →
      ∃ t, s.trapWith code addr info = .next t ∧ Ended s t (if s.me.regs.trapCause.getLsbD 15 then 0x18 else code) 0) ∧
  (∀ (s : State) (id : Nat) (p : Peg) (r : Bent) (u : Trap), s.pegId = some id → s.peg? = some p → s.bents.find? s.myBent = some r →
    r.hpc = 0 → s.me.regs.trapCause.getLsbD 15 = false → oldestTrap s.me.jnext p.pending = some u →
      ∃ t, exec (if u.deferred then .deferredDataTrap else .trapDelivery) s = .next t ∧ Ended s t u.code u.kind) ∧
  (∀ (s : State) (c id : Nat) (p : Peg), (s.core c).peg = some id → s.pegs.find? id = some p →
    (s.core c).regs.trapCause.getLsbD 15 = true → 1000000000 ≤ (s.core c).hactTime + (s.timestamp - (s.core c).hactFrom) →
      ∃ t, exec (.watchdog c) s = .next t ∧ Drained s t p.bent ∧ RegistersKept s t)

/-- R356, R357: when no handler runs, the oldest pending trap, a deferred data trap or any other, leaves the pending list and enters the handler
with its kind, cause, INFO and ADDR, TRAP.PC being the boundary's pc; no x, f or d register changes. -/
def Sys2Proof.Claims.PendingTrapsAreDelivered : Prop :=
  (∀ (s : State) (id : Nat) (p : Peg) (u : Trap), s.pegId = some id → s.peg? = some p → CanTrap s →
    oldestTrap s.me.jnext p.pending = some u → u.kind < 8 → u.code < 256 →
      exec (if u.deferred then .deferredDataTrap else .trapDelivery) s =
        .next (entered { s with pegs := s.pegs.put id { p with pending := p.pending.erase u } } u.kind u.code u.info u.addr)) ∧
  (∀ (next : BitVec 32) (l : List Trap) (u : Trap), oldestTrap next l = some u →
    u ∈ l ∧ ∀ v ∈ l, keyLe (trapKey next u) (trapKey next v))

/-- R357: what an instruction boundary does first. A draining bent's peg takes kill; else a requested pre-emption stops the peg once a seq-cst fence at
PKG would pass (R293); else, with HACT 0, a pending trap is delivered; only then does the instruction run. -/
def Sys2Proof.Claims.BoundaryOrder : Prop :=
  ∀ (s : State) (c id : Nat) (p : Peg), s.turn.act = .core c →
    let s1 := s.beginTurn s.turn
    s1.pegId = some id → s1.peg? = some p → s1.me.halted = false →
      (s1.draining = true → step s = exec (.kill id) s1) ∧
      (s1.draining = false → s1.me.preempt.isSome = true → Waits s1 3 0xFFFF → s1.mergeTimeout 0xFFFF = none → step s = .next s1) ∧
      (s1.draining = false → s1.me.preempt.isSome = true → ¬ Waits s1 3 0xFFFF →
        step s = .next { s1 with cores := s1.cores.put s1.cur { s1.me with halted := true, spin := none, asked := none } }) ∧
      (s1.draining = false → s1.me.preempt = none → s1.me.regs.trapCause.getLsbD 15 = false →
        ∀ u, oldestTrap s1.me.jnext p.pending = some u →
          step s = exec (if u.deferred then .deferredDataTrap else .trapDelivery) s1)

namespace Sys2Proof.Claims

/-- The registers after TRET: HACT clear, the pc at TRAP.PC; nothing else of the peg's registers has changed (R358). -/
def Returned (s t : State) : Prop :=
  t.me.pc = s.me.regs.trapPc ∧ t.me.regs = { s.me.regs with trapCause := s.me.regs.trapCause &&& 0xFFFFFFFFFFFF7FFF } ∧
  t.me.x = s.me.x ∧ t.me.f = s.me.f ∧ t.me.d = s.me.d ∧ t.me.sems = s.me.sems ∧ t.mem = s.mem ∧ t.pegs = s.pegs ∧ t.bents = s.bents ∧
  ∀ c, c ≠ s.cur → t.core c = s.core c

/-- The threshold that a TRET of cause 0x0D installs (R333), else the one that stands. -/
def newThreshold (r : PegRegs) (old : Nat) : Nat := if trapCode r.trapCause = 0x0D then r.scrbRthr.toNat % 2 ^ 32 else old

end Sys2Proof.Claims

/-- R358: TRET with HACT = 1 clears it and continues at TRAP.PC. After a trap of KIND 0 nothing else changes; after KIND 1 the frozen context goes
on; after KIND 2 or 3 the stopped entry is queued again, its progress kept; cause 0x0D replaces the threshold. With HACT = 0 it takes cause
0x01. -/
def Sys2Proof.Claims.TrapReturn : Prop :=
  ∀ s : State,
    (s.me.regs.trapCause.getLsbD 15 = false → CanTrap s → exec .tret s = .next (inHandler s 0x01 0 0)) ∧
    (s.me.regs.trapCause.getLsbD 15 = true → ∃ t, exec .tret s = .next t ∧ Returned s t ∧
      (trapKind s.me.regs.trapCause = 0 → t.me.journal = s.me.journal ∧ t.me.ctxs = s.me.ctxs) ∧
      (trapKind s.me.regs.trapCause = 1 → ∀ x, s.me.trappedCtx s.me.regs.trapSeq = some x →
        t.me.ctx? x.uid = some { x.thaw with thr := newThreshold s.me.regs x.thr }) ∧
      ((trapKind s.me.regs.trapCause = 2 ∨ trapKind s.me.regs.trapCause = 3) → t.me.ctxs = s.me.ctxs ∧
        ∀ c, s.me.entry s.me.regs.trapSeq = some c → c.st = .stopped →
          ∃ e, t.me.entry s.me.regs.trapSeq = some e ∧ e.trap = none ∧ e.thr = newThreshold s.me.regs c.thr ∧ e.op = c.op ∧ e.ws = c.ws ∧
            (c.op ≠ .krun → e.st = .queued) ∧ (c.op ≠ .sillGo → e.progress = c.progress)))

/-- R172: JDROP outside a handler, or in the handler of a KIND 0 trap, takes cause 0x01. Else it ends the work that TRAP.INFO:SEQ names: a stopped
entry that is no KRUN leaves the journal and sets COMP, signalling only with SIG; a frozen context is discarded; an entry already complete
changes nothing. Registers stay as they are. -/
def Sys2Proof.Claims.JournalDrop : Prop :=
  ∀ (s : State) (a : RegNo),
    let r := s.me.regs
    ((r.trapCause.getLsbD 15 = true ∧ trapKind r.trapCause = 0 →
        ∀ e, s.bents.find? s.myBent = some e → ∃ t, exec (.jdrop a) s = .next t ∧ Drained s t s.myBent ∧ RegistersKept s t) ∧
      (r.trapCause.getLsbD 15 = false → CanTrap s → exec (.jdrop a) s = .next (inHandler s 0x01 0 0))) ∧
    (r.trapCause.getLsbD 15 = true → trapKind r.trapCause ≠ 0 →
      ∃ t, exec (.jdrop a) s = .next t ∧ t.me.pc = s.me.pc + 4 ∧ t.me.x = s.me.x ∧ t.me.f = s.me.f ∧ t.me.d = s.me.d ∧ t.me.regs = r ∧
        (trapKind r.trapCause = 1 → ∀ x, s.me.trappedCtx r.trapSeq = some x → t.me.ctx? x.uid = none) ∧
        (s.me.entry r.trapSeq = none → trapKind r.trapCause ≠ 1 → t = passed s) ∧
        (∀ c, s.me.entry r.trapSeq = some c → c.st = .stopped → c.op ≠ .krun →
          t.me.entry r.trapSeq = none ∧ (c.op ≠ .collAbt → t.me.compOf (queueNo c.op.queue) = c.seq) ∧
          ((s.getX a).getLsbD 0 = false → ∀ n, t.me.sem n = s.me.sem n) ∧
          (c.op ≠ .coll → ∀ d ∈ s.me.journal, d.seq ≠ c.seq → d ∈ t.me.journal)))

/-- R109, R169, R170, R208: reading and writing state registers and engine registers. -/
def Obligations.StateRegisterAccess : Prop := Sys2Proof.Claims.GetsReadsStateRegisters ∧ Sys2Proof.Claims.PutsWritesStateRegisters ∧ Sys2Proof.Claims.EngineRegisterAccess

/-- R125, R126, R136, R171: the instructions and fetches whose effect is a trap. -/
def Obligations.TrappingInstructions : Prop := Sys2Proof.Claims.TrapsAreTaken ∧ Sys2Proof.Claims.PrivilegeIsChecked

/-- R356, R357: which act comes first at a boundary, and what the delivery of a pending trap leaves. -/
def Obligations.TrapsArriveInOrder : Prop := Sys2Proof.Claims.PendingTrapsAreDelivered ∧ Sys2Proof.Claims.BoundaryOrder

/-- R172, R358: TRET and JDROP. -/
def Obligations.HandlersReturn : Prop := Sys2Proof.Claims.TrapReturn ∧ Sys2Proof.Claims.JournalDrop

/-! ## Services and system instructions -/

namespace Sys2Proof.Claims

/-- The running peg's own data at `va` can be used now: the access passes R135's checks with that alignment, and its home, its peg's order
and poison hold nothing up (R434). -/
def Reaches (s : State) (va : Word) (n cls : Nat) (need : Need) (reads : Bool) (l : Loc) : Prop :=
  s.access s.myBay s.myBent va n need = .ok l ∧ s.probe l n cls need reads = .ready ∧ (l.cp ≠ 2 ∨ s.remote? l.pa = none) ∧
  ∀ a ∈ s.accums, a.meets l.pa n = false

/-- The machine with the acting core's wait for its own data over. -/
def answered (s : State) : State := { s with cores := s.cores.put s.cur { s.me with asked := none } }

/-- The machine once an instruction's own data has been reached: its wait is over, and the access has touched what `AccessesTouchOnlyCaches` says. -/
def reached (s : State) (va : Word) (n : Nat) (need : Need) (l : Loc) : State := (answered s).touched s.myBay s.myBent va l n need

/-- The bytes that an instruction reads of its own data. -/
def ownBytes (s : State) (va : Word) (n : Nat) (l : Loc) : List Byte := meetsBytes (reached s va n .read l) s.myBay l n

/-- What JRNL.RD reads (R183). -/
def journalWord (k : Core) (b : Word) : Word :=
  let sel := b.toNat % 16
  if sel = 0 then BitVec.ofNat 64 k.jnext.toNat
  else if sel = 1 then BitVec.ofNat 64 k.low.toNat
  else if sel = 2 then BitVec.ofNat 64 k.journal.length
  else if sel ≤ 10 then BitVec.ofNat 64 (k.compOf (sel - 3)).toNat
  else if sel = 11 then
    match k.journal.find? (fun c => decide (c.seq.toNat = b.toNat / 2 ^ 32)) with
    | some c => BitVec.ofNat 64 (k.stateCode c + c.progress % 2 ^ 32 * 2 ^ 32)
    | none => 0
  else 0

/-- The lines that a KLOCK or KUNLOCK of a value names (R175). -/
def lineNamed (v : Word) (l : Nat) : Prop := v.toNat % 128 ≤ l ∧ l < v.toNat % 128 + v.toNat / 256 % 256 ∧ l < 128

end Sys2Proof.Claims

/-- R173, R177, R183, R207: ECALL leaves its service's answer in x10 and x11; TSTAMP the timestamp, JRNL.RD the selected word, in their register;
DESC.LD the 64 bytes at x[XB] in d[DA], precisely. Nothing else changes. -/
def Sys2Proof.Claims.ServicesAnswer : Prop :=
  (∀ (s : State) (i : BitVec 12),
    let r : Word × Word :=
      if i = 0 then (s.mgmt.fwVersion, s.mgmt.fwBuild)
      else if i = 1 then (BitVec.ofNat 64 Config.bundlerVersion.toNat, 0)
      else if i = 2 then (BitVec.ofNat 64 s.mgmt.config.floor, 0)
      else (0xFFFFFFFFFFFFFFFF, 0)
    exec (.ecall i) s = .next (wentTo (wroteX (wroteX s 10 r.1) 11 r.2) (s.me.pc + 4))) ∧
  (∀ (s : State) (d : RegNo), exec (.tstamp d) s = .next (wroteX s d (BitVec.ofNat 64 s.timestamp))) ∧
  (∀ (s : State) (a b : RegNo), exec (.jrnlRd a b) s = .next (wentTo (wroteX s a (journalWord s.me (s.getX b))) (s.me.pc + 8))) ∧
  (∀ (s : State) (c a : BitVec 4) (b : RegNo) (l : Loc), Reaches s (s.getX b) 64 c.toNat .read true l →
    let u := reached s (s.getX b) 64 .read l
    exec (.descLd c a b) s = .next { u with cores := u.cores.put s.cur { u.me with
      pc := s.me.pc + 8, d := s.me.d.set a.toNat (BitVec.ofNat 512 (leNat (ownBytes s (s.getX b) 64 l))) a.isLt } })

/-- R176: once the peg's earlier stores and atomics have performed, IFLUSH empties every core's instruction cache and changes nothing else but the
pc; until then it stalls. -/
def Sys2Proof.Claims.InstructionFlush : Prop :=
  ∀ s : State,
    ((∃ a ∈ s.pending, a.agent = s.myAgent ∧ a.lost = false ∧ a.cls < 16 ∧ a.kind.isRead = false) → exec .iflush s = .next s) ∧
    ((∀ a ∈ s.pending, a.agent = s.myAgent → a.lost = false → a.kind.isRead = true) →
      ∃ cores, exec .iflush s = .next { s with cores := cores } ∧
        ∀ c, AMap.get cores c Core.reset = { s.core c with
          icache := [], pc := if c = s.cur then s.me.pc + 4 else (s.core c).pc })

/-- R175, R385, R386: KLOCK completes with the number of the named lines that the bent then holds locked in x[XD], never more than 96 locks on a core
that had no more before; with room for all of them, and one frame a line, it holds all. KUNLOCK releases exactly the bent's locks on the named lines. Neither traps;
registers else, memory and other cores stay. -/
def Sys2Proof.Claims.KernelLineLocks : Prop :=
  (∀ (s : State) (d a : RegNo), ∃ t, exec (.klock d a) s = .next t ∧ t.me.pc = s.me.pc + 4 ∧ t.mem = s.mem ∧
    (∀ c, c ≠ s.cur → t.core c = s.core c) ∧ (∀ r, r ≠ d → t.getX r = s.getX r) ∧ t.me.f = s.me.f ∧ t.me.d = s.me.d ∧
    t.me.regs = { s.me.regs with klockStat := t.me.regs.klockStat } ∧
    (d ≠ 0 → t.getX d = BitVec.ofNat 64
      (((klockLines (s.getX a)).filter (fun l => t.me.holdsLock s.myBent l)).length)) ∧
    (s.me.lockCount ≤ 96 → t.me.lockCount ≤ 96) ∧
    ((s.me.frames.map (fun f => (f.bent, f.line))).Nodup → s.me.lockCount + (klockLines (s.getX a)).length ≤ 96 → ∀ l, lineNamed (s.getX a) l → t.me.holdsLock s.myBent l = true)) ∧
  (∀ (s : State) (a : RegNo), ∃ t, exec (.kunlock a) s = .next t ∧
    (∀ b l, t.me.holdsLock b l = true ↔ s.me.holdsLock b l = true ∧ ¬ (b = s.myBent ∧ lineNamed (s.getX a) l)) ∧
    t = coreNow s { s.me with frames := t.me.frames })

/-- R99, R105, R174: for a privileged peg TLBI takes out of every bay's TLB the translations of its tree that cover x[XA], TLBI.ALL all of its tree, and
no other; TLBI.ALL also ends the walks of its tree and leaves no cached line of a window page; the peg goes on when no access goes through them any more, and stalls until then. An address with bits 63:56 set removes
nothing. Registers and memory stay. -/
def Sys2Proof.Claims.TranslationsAreRemoved : Prop :=
  ∀ (s : State) (all : Bool) (a : RegNo), s.privileged = true →
    let i : Instr := if all then .tlbiAll else .tlbi a
    let va : Option Nat := if all then none else some (s.getX a).toNat
    let root := s.root s.myBent
    (all = false → 2 ^ 56 ≤ (s.getX a).toNat → exec i s = .next (passed s)) ∧
    ((all = true ∨ (s.getX a).toNat < 2 ^ 56) → ∃ t, exec i s = .next t ∧
      (∀ bay, (t.bay bay).tlb = (s.bay bay).tlb.filter (fun e =>
        !(decide (e.root = root) && (all || decide (e.base ≤ (s.getX a).toNat ∧ (s.getX a).toNat < e.base + e.size))))) ∧
      (all = true → ∀ bay, (∀ w ∈ (t.bay bay).walks, w.root ≠ root) ∧ ∀ e ∈ (t.bay bay).l2, e.2.data = []) ∧
      t.mem = s.mem ∧ t.me.x = s.me.x ∧ t.me.f = s.me.f ∧ t.me.d = s.me.d ∧ t.me.regs = s.me.regs ∧
      t.me.pc = if s.translationBusy root va then s.me.pc else s.me.pc + 4)

/-! ## Fences and semaphores -/

/-- R149, R289, R290: FENCE completes at once, but where it releases it waits for the merges of R289, unless one has failed. While accesses of its agent
before it are pending it is kept with its stamp, order and mask, and then no later access that it orders after one of them performs; with none
pending nothing changes but the pc. An acquire orders reads and atomics before everything, a release everything before writes and atomics, an
acq-rel both and a seq-cst everything: fences but seq-cst ones let a read pass an earlier write. -/
def Sys2Proof.Claims.FencesWaitThenPass : Prop :=
  (∀ (s : State) (sc : BitVec 3) (o : BitVec 2) (m : BitVec 16),
    let before (g : Fence) : Prop := ∃ e ∈ s.pending, e.agent = g.agent ∧ e.no < g.no ∧ e.lost = false
    let f : Fence := { agent := s.myAgent, no := s.stamp, ord := o.toNat, mask := m }
    (o ≠ 0 → WaitsForMerges s sc.toNat m → s.mergeTimeout m = none → exec (.fence sc o m) s = .next s) ∧
    ((o = 0 ∨ ¬ WaitsForMerges s sc.toNat m) →
      (¬ before f → exec (.fence sc o m) s = .next (passed s)) ∧
      (before f → ∃ fs, exec (.fence sc o m) s = .next { passed s with stamp := s.stamp + 1, fences := fs } ∧
        f ∈ fs ∧ ∀ g ∈ s.fences, before g → g ∈ fs))) ∧
  (∀ (s : State) (f : Fence) (e a : Access), f ∈ s.fences → e ∈ s.pending → e.agent = f.agent → a.agent = f.agent → e.lost = false →
    e.no < f.no → f.no ≤ a.no → f.mask.getLsbD e.cls = true → f.mask.getLsbD a.cls = true →
    (f.ord = 3 ∨ f.ord ≠ 1 ∧ e.kind.isWrite = false ∨ f.ord ≠ 0 ∧ a.kind.isRead = false) → s.canPerform a = false) ∧
  (∀ (s : State) (a : Access), a.kind.isRead = true → a.ord ≠ 3 → s.answer a.loc.pa a.size ≠ .silent → s.lockedOut a.loc.pa a.size = false →
    s.merges = [] → s.recordMerges = [] → (∀ f ∈ s.fences, f.ord < 3) →
    (∀ e ∈ s.pending, e.kind.isWrite = true ∧ (e.loc.pa + e.size ≤ a.loc.pa ∨ a.loc.pa + a.size ≤ e.loc.pa)) → s.canPerform a = true)

/-- R153: SEMSIG adds its signed 16 bits to the count when the sum stays within 0 to 65 535, else takes cause 0x13 with the count unchanged; SEMWAIT
and SEMWAIT.S pass when the count reaches the threshold and consume nothing, and below it SEMWAIT stalls; SEMRD reads the count. -/
def Sys2Proof.Claims.SemaphoreInstructions : Prop :=
  ∀ (s : State) (a d : RegNo) (n : BitVec 8),
    let sum : Int := (s.me.sem n.toNat : Int) + Int.bmod (s.getX a).toNat (2 ^ 16)
    let thr : Nat := (s.getX a).toNat % 2 ^ 16
    (¬ Waits s 1 0xFFFF → 0 ≤ sum → sum ≤ 65535 → ∃ t, exec (.semsig a n) s = .next t ∧
      (∀ m, t.me.sem m = if m = n.toNat then sum.toNat else s.me.sem m) ∧ t.me.pc = s.me.pc + 4 ∧ t.me.x = s.me.x ∧ t.me.f = s.me.f ∧
      t.me.d = s.me.d ∧ t.me.regs = s.me.regs ∧ t.me.journal = s.me.journal ∧ t.mem = s.mem ∧ t.bents = s.bents ∧
      (∀ c, c ≠ s.cur → t.core c = s.core c)) ∧
    (¬ Waits s 1 0xFFFF → (sum < 0 ∨ 65535 < sum) → CanTrap s → exec (.semsig a n) s = .next (inHandler s 0x13 0 0)) ∧
    (Waits s 1 0xFFFF → exec (.semsig a n) s = .next s) ∧
    (thr ≤ s.me.sem n.toNat → exec (.semwait a n) s = .next (passed s)) ∧
    (s.me.sem n.toNat < thr → exec (.semwait a n) s = .next s) ∧
    (∀ p l, s.peg? = some p → Reaches s p.recAddr 64 0 .both true l → thr ≤ s.me.sem n.toNat →
      exec (.semwaitS a n) s = .next (passed (reached s p.recAddr 64 .both l))) ∧
    exec (.semrd d n) s = .next (wroteX s d (BitVec.ofNat 64 (s.me.sem n.toNat)))

/-- R149, R153, R290: FENCE, and the semaphore instructions. -/
def Obligations.FencesAndSemaphores : Prop := Sys2Proof.Claims.FencesWaitThenPass ∧ Sys2Proof.Claims.SemaphoreInstructions

/-! ## Suspension -/

namespace Sys2Proof.Claims

/-- A peg has suspended (R30, R152, R339): its record, at `l`, holds the pc to resume at, STATE, FP and A0 to A3, and no other byte of memory has
changed; the peg is in state `st` with that wait, pinned exactly when it holds state on the core; the core is free, and no register of it
has changed. -/
def Suspended (s t : State) (id : Nat) (l : Loc) (pc : Word) (st : PegState) (w : Option Wait) : Prop :=
  let pin := s.me.holdsFor id
  let word (off : Nat) : Nat := leNat (t.bytesAt l.slot (l.pa + off) 8)
  word 0 = pc.toNat ∧
  leNat (t.bytesAt l.slot (l.pa + 0x0C) 4) = st.code + (if pin then 16 + s.cur % 2 ^ 16 * 2 ^ 16 else 0) ∧
  word 0x10 = (s.getX 3).toNat ∧ word 0x18 = (s.getX 10).toNat ∧ word 0x20 = (s.getX 11).toNat ∧ word 0x28 = (s.getX 12).toNat ∧
  word 0x30 = (s.getX 13).toNat ∧
  t.bytesAt l.slot (l.pa + 8) 4 = s.bytesAt l.slot (l.pa + 8) 4 ∧ t.bytesAt l.slot (l.pa + 0x38) 8 = s.bytesAt l.slot (l.pa + 0x38) 8 ∧
  OnlyWrites s t l 64 ∧
  t.me.peg = none ∧ t.me.x = s.me.x ∧ t.me.f = s.me.f ∧ t.me.d = s.me.d ∧ t.me.regs = s.me.regs ∧
  ∃ p q, s.pegs.find? id = some p ∧ t.pegs.find? id = some q ∧ q.st = st ∧ q.wait = w ∧ q.pin = pin ∧ q.met = false ∧
    q.psave = false ∧ q.joins = p.joins ∧ q.pending = p.pending ∧ q.cause = s.me.regs.trapCause

/-- The running peg, with its record within reach (R433) and nothing for the fence of R293 to wait for. -/
def CanSuspend (s : State) (id : Nat) (p : Peg) (l : Loc) : Prop :=
  s.pegId = some id ∧ s.peg? = some p ∧ Reaches s p.recAddr 64 0 .both true l ∧ ¬ Waits s 3 0xFFFF

end Sys2Proof.Claims

/-- R160, R161, R153: JOIN passes when the peg's JoinCount is 0 and else suspends; YIELD always suspends, ready; SEMWAIT.S below its threshold
suspends when the peg holds core-local state, and stalls when it holds none. -/
def Obligations.SuspendingInstructions : Prop :=
  ∀ (s : State) (id : Nat) (p : Peg) (l : Loc), CanSuspend s id p l →
    (p.joins = 0 → exec .join s = .next (passed (reached s p.recAddr 64 .both l))) ∧
    (p.joins ≠ 0 → ∃ t, exec .join s = .next t ∧ Suspended s t id l (s.me.pc + 4) .waiting (some .join)) ∧
    (∃ t, exec .yield s = .next t ∧ Suspended s t id l (s.me.pc + 4) .ready none) ∧
    (∀ (a : RegNo) (n : BitVec 8), s.me.sem n.toNat < (s.getX a).toNat % 2 ^ 16 →
      (s.me.holdsFor id = true → ∃ t, exec (.semwaitS a n) s = .next t ∧
        Suspended s t id l (s.me.pc + 4) .waiting (some (.sem n.toNat ((s.getX a).toNat % 2 ^ 16)))) ∧
      (s.me.holdsFor id = false → exec (.semwaitS a n) s = .next (reached s p.recAddr 64 .both l)))

/-- R150, R151: MWAIT completes with the value when it differs from x[XD]; else it arms the monitor on the value's line and spins, completes with
the reloaded value after a wake event or its timeout, and suspends when the spin quantum has passed. MWAIT_TIMEOUT and MONITOR_LOSS are
wake events of a waiting peg. -/
def Obligations.MemoryWaits : Prop :=
  (∀ (s : State) (d a : RegNo) (id : Nat) (p : Peg) (rl l : Loc), s.pegId = some id → s.peg? = some p →
    Reaches s p.recAddr 64 0 .both true rl →
    let s1 := reached s p.recAddr 64 .both rl
    Reaches s1 (s.getX a) 8 0 .read true l →
      let u := reached s1 (s.getX a) 8 .read l
      let v : Word := BitVec.ofNat 64 (leNat (meetsBytes u s.myBay l 8))
      (s.me.spin = none → v ≠ s.getX d → exec (.mwait d a) s = .next (wroteX u d v)) ∧
      (s.me.spin = none → v = s.getX d → exec (.mwait d a) s = .next { u with cores := u.cores.put s.cur { u.me with
        spin := some { line := l.pa / 64 * 64, va := s.getX a, since := s.clk, sinceTs := s.timestamp, woken := false } } }) ∧
      (∀ sp, s.me.spin = some sp →
        let tmo := (s.me.regs.mwaitTmo >>> 32).toNat
        (sp.woken = true ∨ (tmo ≠ 0 ∧ sp.sinceTs + 1000 * tmo ≤ s.timestamp) →
          exec (.mwait d a) s = .next (wroteX { u with cores := u.cores.put s.cur { u.me with spin := none } } d v)) ∧
        (sp.woken = false → (tmo = 0 ∨ s.timestamp < sp.sinceTs + 1000 * tmo) → exec (.mwait d a) s = .next u))) ∧
  (∀ (s0 : State) (c id : Nat) (p : Peg) (l : Loc) (sp : Spin),
    let s : State := { s0 with cur := c }
    s.me.spin = some sp → sp.woken = false → s.me.halted = false → sp.since + s.me.regs.mwaitTmo.toNat % 2 ^ 16 ≤ s.clk →
    s.pegId = some id → s.peg? = some p → s.recordLoc s.myBay p .both = .ok l → s.recordHeld p = false → ¬ Waits s 3 0xFFFF →
    (∀ a ∈ s.accums, a.meets l.pa 64 = false) →
      ∃ t, exec (.mwaitSpinExpiry c) s0 = .next t ∧ Suspended s t id l (s.me.pc + 4) .waiting
        (some (.memory sp.line sp.va sp.sinceTs (s.me.regs.mwaitTmo >>> 32).toNat))) ∧
  (∀ (s : State) (id : Nat) (p : Peg) (line : Nat) (va : Word) (since tmo : Nat), s.pegs.find? id = some p →
    p.wait = some (.memory line va since tmo) →
      (∃ t, exec (.monitorLoss id) s = .next t ∧ t.pegs.find? id = some { p with met := true } ∧ RegistersKept s t ∧ t.mem = s.mem) ∧
      (tmo ≠ 0 → since + 1000 * tmo ≤ s.timestamp →
        ∃ t, exec (.mwaitTimeout id) s = .next t ∧ t.pegs.find? id = some { p with met := true } ∧ RegistersKept s t ∧ t.mem = s.mem))

/-- R152, R339, R356: a waiting peg whose condition holds becomes ready, its record's ST 1 and A0 the result of a PHWAIT or MWAIT; one whose condition
does not hold but that has a pending trap becomes ready with its PC back at the suspending instruction. -/
def Obligations.WaitingPegsBecomeReady : Prop :=
  ∀ (s : State) (id : Nat) (p : Peg) (l : Loc) (w : Wait), s.pegs.find? id = some p → p.st = .waiting → p.wait = some w →
    let bay := p.pool.getD 8
    s.recordLoc bay p .both = .ok l → s.recordHeld p = false → (∀ a ∈ s.accums, a.meets l.pa 64 = false) →
    let ready (t : State) : Prop := ∃ q, t.pegs.find? id = some q ∧ q.st = .ready ∧ q.wait = none ∧ q.pending = p.pending ∧ q.pin = p.pin ∧
      leNat (t.bytesAt l.slot (l.pa + 0x0C) 4) % 16 = 1 ∧ OnlyWrites s t l 64 ∧ RegistersKept s t
    let word (u : State) (off : Nat) : Nat := leNat (u.bytesAt l.slot (l.pa + off) 8)
    (s.waitHolds id p = true →
      ((w = .join ∨ ∃ n thr, w = .sem n thr) → ∃ t, exec (.waitingPegReady id) s = .next t ∧ ready t ∧
        word t 0 = word s 0 ∧ word t 0x18 = word s 0x18) ∧
      (∀ pb n r, w = .phaser pb n r → ∃ t, exec (.waitingPegReady id) s = .next t ∧ ready t ∧
        word t 0 = word s 0 ∧ word t 0x18 = (s.phaser pb n).p.toNat) ∧
      (∀ line va since tmo dl, w = .memory line va since tmo → s.translate bay p.bent va .read = .ok dl →
        s.lockedOut dl.pa 8 = false → s.poisoned dl.pa 8 = false → s.answer dl.pa 8 = .here → (dl.cp ≠ 2 ∨ s.remote? dl.pa = none) →
        (∀ a ∈ s.accums, a.meets dl.pa 8 = false) →
          ∃ t, exec (.waitingPegReady id) s = .next t ∧ ready t ∧ word t 0 = word s 0 ∧
            word t 0x18 = leNat (meetsBytes s bay dl 8))) ∧
    (s.waitHolds id p = false → p.pending ≠ [] → ∃ t, exec (.waitingPegReady id) s = .next t ∧ ready t ∧
      word t 0 = (word s 0 + 2 ^ 64 - 4) % 2 ^ 64 ∧ word t 0x18 = word s 0x18)

/-- R173, R176, R177, R183, R207: services and reads of the machine's own state complete; IFLUSH empties the caches. -/
def Obligations.ServicesCompleteWithResults : Prop := Sys2Proof.Claims.ServicesAnswer ∧ Sys2Proof.Claims.InstructionFlush

/-- R105, R174, R175, R385: kernel line locks and the removal of translations. -/
def Obligations.LocksAndTranslations : Prop := Sys2Proof.Claims.KernelLineLocks ∧ Sys2Proof.Claims.TranslationsAreRemoved

/-! ## Phasers -/

namespace Sys2Proof.Claims

/-- The machine past an instruction that leaves phaser `n` of the acting core's bay as `ph`; nothing else changed. -/
def phaserNow (s : State) (n : BitVec 10) (ph : Phaser) : State :=
  { passed s with bays := s.bays.put s.myBay { s.bay s.myBay with phasers := (s.bay s.myBay).phasers.put n.toNat ph } }

/-- A phaser with other members, its advance evaluated. -/
def withMembers (ph : Phaser) (ms : List (Member × PhMode × BitVec 32)) : Phaser := { p := ph.p, members := ms : Phaser }.advance

/-- A phaser with the local phase of one member set. -/
def withLocal (ph : Phaser) (m : Member) (l : BitVec 32) : Phaser :=
  { ph with members := ph.members.map (fun e => if e.1 = m then (e.1, e.2.1, l) else e) }

/-- L > P in the modular order (R156). -/
def ahead (ph : Phaser) (l : BitVec 32) : Bool := decide ((l - (ph.p + 1)).toNat < 2 ^ 31)

/-- P ≥ L (R156). -/
def phaseReached (ph : Phaser) (l : BitVec 32) : Bool := decide ((ph.p - l).toNat < 2 ^ 31)

end Sys2Proof.Claims

/-- R156: evaluating an advance keeps the members, leaves P while some signalling member has not signalled or there is none, and otherwise takes P to
the phase of the signalling member that is least far ahead. -/
def Sys2Proof.Claims.PhaserAdvances : Prop :=
  ∀ ph : Phaser,
    let signalling := ph.members.filter (fun e => decide (e.2.1 ≠ .wait))
    ph.advance.members = ph.members ∧
    ((signalling = [] ∨ ∃ e ∈ signalling, ahead ph e.2.2 = false) → ph.advance.p = ph.p) ∧
    (signalling ≠ [] → (∀ e ∈ signalling, ahead ph e.2.2 = true) →
      ph.advance.p ≠ ph.p ∧ (∃ e ∈ signalling, e.2.2 = ph.advance.p) ∧
      ∀ e ∈ signalling, (ph.advance.p - ph.p).toNat ≤ (e.2.2 - ph.p).toNat)

/-- R156, R157: PHREG, PHSIG and PHDROP on a phaser of the bent change the running peg's membership of it as the rule says, evaluate the advance, and
change nothing else but the pc; a use that the rule forbids takes cause 0x14. -/
def Sys2Proof.Claims.PhaserMembership : Prop :=
  ∀ (s : State) (id : Nat) (n : BitVec 10) (mode : BitVec 2), s.pegId = some id →
    let ph := s.phaser s.myBay n.toNat
    let me : Member := .peg id
    (s.ownsPhaser s.myBent n.toNat = true →
      (ph.member me = none →
        (mode = 1 → exec (.phreg mode n) s =
          .next (phaserNow s n (withMembers ph (ph.members ++ [(me, .sig, ph.p + 1)])))) ∧
        (mode = 2 → exec (.phreg mode n) s =
          .next (phaserNow s n (withMembers ph (ph.members ++ [(me, .wait, ph.p)])))) ∧
        (mode = 3 → exec (.phreg mode n) s =
          .next (phaserNow s n (withMembers ph (ph.members ++ [(me, .sigwait, ph.p + 1)])))) ∧
        (CanTrap s → exec (.phsig n) s = .next (inHandler s 0x14 0 0) ∧ exec (.phdrop n) s = .next (inHandler s 0x14 0 0))) ∧
      (∀ m l, ph.member me = some (m, l) →
        (CanTrap s → exec (.phreg mode n) s = .next (inHandler s 0x14 0 0)) ∧
        (m ≠ .wait → ahead ph l = false → ¬ Waits s 2 0xFFFF →
          exec (.phsig n) s = .next (phaserNow s n (withLocal ph me (l + 1)).advance)) ∧
        ((m = .wait ∨ ahead ph l = true) → CanTrap s → exec (.phsig n) s = .next (inHandler s 0x14 0 0)) ∧
        -- a drop of a member that has not signalled the phase counts as its signal first
        (m ≠ .wait → l = ph.p → ¬ Waits s 2 0xFFFF → exec (.phdrop n) s = .next (phaserNow s n
          (withMembers (withLocal ph me (l + 1)).advance (ph.members.filter (fun e => decide (e.1 ≠ me)))))) ∧
        ((m = .wait ∨ l ≠ ph.p) → exec (.phdrop n) s =
          .next (phaserNow s n (withMembers ph (ph.members.filter (fun e => decide (e.1 ≠ me)))))))) ∧
    (s.ownsPhaser s.myBent n.toNat = false → CanTrap s →
      exec (.phreg mode n) s = .next (inHandler s 0x14 0 0) ∧ exec (.phsig n) s = .next (inHandler s 0x14 0 0) ∧
      exec (.phdrop n) s = .next (inHandler s 0x14 0 0))

/-- R157, R152: PHWAIT of a wait member raises its L by one first; it completes with P in x[XD] when P ≥ L, and else suspends with that wait. A
signal-only peg and one that is no member take cause 0x14. That a sigwait member with L ≤ P completes is the model's choice between R157's table
and its worked example (log 24). -/
def Obligations.PhaserWait : Prop :=
  ∀ (s : State) (id : Nat) (p : Peg) (rl : Loc) (d : RegNo) (n : BitVec 10), s.pegId = some id → s.peg? = some p →
    Reaches s p.recAddr 64 0 .both true rl → s.ownsPhaser s.myBent n.toNat = true →
    let ph := s.phaser s.myBay n.toNat
    let me : Member := .peg id
    let u := reached s p.recAddr 64 .both rl
    (∀ l, ph.member me = some (.wait, l) →
      (phaseReached ph (l + 1) = true → exec (.phwait d n) s = .next { wroteX u d (BitVec.ofNat 64 ph.p.toNat) with
        bays := (phaserNow u n (withLocal ph me (l + 1))).bays }) ∧
      (phaseReached ph (l + 1) = false → ¬ Waits s 3 0xFFFF → ∃ t, exec (.phwait d n) s = .next t ∧
        Suspended s t id rl (s.me.pc + 4) .waiting (some (.phaser s.myBay n.toNat true)) ∧
        t.phaser s.myBay n.toNat = withLocal ph me (l + 1))) ∧
    (∀ l, ph.member me = some (.sigwait, l) →
      (phaseReached ph l = true → exec (.phwait d n) s = .next (wroteX u d (BitVec.ofNat 64 ph.p.toNat))) ∧
      (phaseReached ph l = false → ¬ Waits s 3 0xFFFF → ∃ t, exec (.phwait d n) s = .next t ∧
        Suspended s t id rl (s.me.pc + 4) .waiting (some (.phaser s.myBay n.toNat false)) ∧ t.phaser s.myBay n.toNat = ph)) ∧
    ((ph.member me = none ∨ ∃ l, ph.member me = some (.sig, l)) → CanTrap s → exec (.phwait d n) s = .next (inHandler s 0x14 0 0))

/-! ## Creating and ending pegs -/

namespace Sys2Proof.Claims

/-- The registers of the acting core after an instruction that writes x[d] only: nothing else of them changed, the pc moved on. -/
def OnlyX (s t : State) (d : RegNo) (v : Word) : Prop :=
  t.cur = s.cur ∧ t.me.pc = s.me.pc + 4 ∧ t.getX d = (if d = 0 then 0 else v) ∧ (∀ r, r ≠ d → t.getX r = s.getX r) ∧ t.me.f = s.me.f ∧
  t.me.d = s.me.d ∧ t.me.regs = s.me.regs ∧ t.me.journal = s.me.journal ∧ t.me.peg = s.me.peg

/-- The 64 bytes of a record or template as fields (R28), when it breaks no reserved bit and no PC rule. -/
def template (s : State) (va : Word) (l : Loc) : PegRecord := PegRecord.parse (ownBytes s va 64 l)

end Sys2Proof.Claims

/-- R159: SPAWN. A template that R8 refuses or whose STATE is not 0 takes cause 0x09, one whose bent is not below the peg's or is draining 0x07, one for
which there is no slot or no place 0x15. Otherwise, with a place in a bay's pool, the new peg is ready, its record, at a free slot, holds the
template with ST ready, PIN, PSAVE and CORE 0 and LINK the issuing peg's record or 0, the parent's JoinCount counts it, and x[XD] is the
record's address. -/
def Sys2Proof.Claims.SpawnCreatesPegs : Prop :=
  ∀ (s : State) (d a : RegNo) (id : Nat) (me : Peg) (l : Loc), s.pegId = some id → s.peg? = some me →
    Reaches s (s.getX a) 64 0 .read true l →
    let t := template s (s.getX a) l
    let r := reached s (s.getX a) 64 .read l
    ((t.refused = true ∨ t.state ≠ 0) → CanTrap s → exec (.spawn d a) s = .next (inHandler r 0x09 0 0)) ∧
    (t.refused = false → t.state = 0 → ∀ tb, s.bents.find? t.bent = some tb →
      ((s.under t.bent s.myBent = false ∨ tb.drain = true) → CanTrap s → exec (.spawn d a) s = .next (inHandler r 0x07 0 0)) ∧
      (s.under t.bent s.myBent = true → tb.drain = false →
        ((s.pickSlot tb = none ∨ s.place s.myBay t.bent (t.link != 0) = .noRoom ∨ (t.link ≠ 0 ∧ 65535 ≤ me.joins)) → CanTrap s →
          exec (.spawn d a) s = .next (inHandler r 0x15 0 0)) ∧
        (∀ i rl, s.pickSlot tb = some i → s.place s.myBay t.bent (t.link != 0) = .pool s.myBay → (t.link = 0 ∨ me.joins < 65535) →
          let addr := tb.recBase + BitVec.ofNat 64 (64 * i)
          r.recordLoc s.myBay (Peg.fresh addr t.bent) .both = .ok rl → s.lockedOut rl.pa 64 = false → ¬ Waits s 3 0xFFFF → (∀ x ∈ s.accums, x.meets rl.pa 64 = false) →
          s.pegs.find? s.stamp = none →
            ∃ u q, exec (.spawn d a) s = .next u ∧ OnlyX s u d addr ∧ u.pegs.find? s.stamp = some q ∧
              q.recAddr = addr ∧ q.bent = t.bent ∧ q.st = .ready ∧ q.pool = some s.myBay ∧ q.pin = false ∧ q.psave = false ∧ q.joins = 0 ∧
              q.pending = [] ∧ q.link = (if t.link = 0 then 0 else me.recAddr) ∧ q.parent = (if t.link = 0 then none else some id) ∧
              (∃ me', u.pegs.find? id = some me' ∧ me'.joins = me.joins + (if t.link = 0 then 0 else 1)) ∧
              (let word (off : Nat) : Nat := leNat (u.bytesAt rl.slot (rl.pa + off) 8)
               word 0 = t.pc.toNat ∧ word 8 = t.bent + 2 ^ 32 ∧ word 0x10 = t.fp.toNat ∧ word 0x18 = t.a0.toNat ∧ word 0x20 = t.a1.toNat ∧
               word 0x28 = t.a2.toNat ∧ word 0x30 = t.a3.toNat ∧ word 0x38 = (if t.link = 0 then 0 else me.recAddr.toNat)) ∧
              OnlyWrites s u rl 64)))

/-- R164: ENQ of a privileged peg answers 3 for a record that R8 refuses, 2 for one whose bent does not exist, drains or lies in another tree, 3 for one
that is not ready, is saved or belongs to a live peg, 1 without room, and 0, with the peg ready in its bent's pool entry, otherwise. Memory
stays. -/
def Sys2Proof.Claims.EnqueueAnswers : Prop :=
  ∀ (s : State) (d a : RegNo) (l : Loc), s.privileged = true → Reaches s (s.getX a) 64 0 .read true l →
    let t := template s (s.getX a) l
    let r := reached s (s.getX a) 64 .read l
    let answers (v : Word) : Prop := exec (.enq d a) s = .next (wroteX r d v)
    (t.refused = true → answers 3) ∧
    (t.refused = false → (s.bents.find? t.bent = none → answers 2) ∧
      ∀ tb, s.bents.find? t.bent = some tb →
        ((tb.drain = true ∨ s.root t.bent ≠ s.root s.myBent) → answers 2) ∧
        (tb.drain = false → s.root t.bent = s.root s.myBent →
          let taken := (s.pegAt (s.root s.myBent) (s.getX a)).isSome
          ((t.st ≠ 1 ∨ t.psave = true ∨ taken = true) → answers 3) ∧
          (t.st = 1 → t.psave = false → taken = false → ∀ rl,
            r.recordLoc s.myBay (Peg.fresh (s.getX a) t.bent) .both = .ok rl →
              (s.place s.myBay t.bent (t.link != 0) = .noRoom → answers 1) ∧
              (s.place s.myBay t.bent (t.link != 0) = .pool s.myBay → ¬ Waits s 3 0xFFFF →
                ∃ u q, exec (.enq d a) s = .next u ∧ OnlyX s u d 0 ∧ u.mem = s.mem ∧ u.pegs.find? s.stamp = some q ∧
                  q.recAddr = s.getX a ∧ q.bent = t.bent ∧ q.st = .ready ∧ q.pool = some s.myBay ∧ q.pin = t.pin ∧ q.psave = false ∧
                  q.link = t.link))))

/-- R8, R159, R164, R338, R339: SPAWN and ENQ create pegs, or say why not. -/
def Obligations.PegsAreCreated : Prop := Sys2Proof.Claims.SpawnCreatesPegs ∧ Sys2Proof.Claims.EnqueueAnswers

/-- R161: EXIT waits for the peg's commands and contexts; a peg with live joinable children takes cause 0x14; otherwise the peg is gone, its record
free, its ST and PIN 0 (R30), the core idle, its allocations on every core and its phaser registrations given back, and its parent's JoinCount one lower. -/
def Obligations.ExitEndsThePeg : Prop :=
  ∀ (s : State) (id : Nat) (p : Peg) (l : Loc), CanSuspend s id p l →
    let u := reached s p.recAddr 64 .both l
    (p.joins ≠ 0 → CanTrap s → exec .exit s = .next (inHandler u 0x14 0 0)) ∧
    (p.joins = 0 → s.hasWork id = true → exec .exit s = .next u) ∧
    (p.joins = 0 → s.hasWork id = false → ∃ t, exec .exit s = .next t ∧ t.pegs.find? id = none ∧ t.me.peg = none ∧
      ((∀ b r, s.bents.find? b = some r → r.overflow = []) →
        leNat (t.bytesAt l.slot (l.pa + 0x0C) 4) = leNat (s.bytesAt l.slot (l.pa + 0x0C) 4) / 32 * 32 ∧ OnlyWrites s t l 64) ∧ RegistersKept s t ∧
      (∀ c, ∀ a ∈ (t.core c).allocs, a.peg ≠ id) ∧ (∀ bay n, (t.phaser bay n).member (.peg id) = none) ∧
      (∀ q pp, p.parent = some q → q ≠ id → s.pegs.find? q = some pp →
        ∃ qq, t.pegs.find? q = some qq ∧ qq.joins = pp.joins - 1))

/-! ## Bents -/

/-- R162, R336, R337: BENT.NEW of a privileged peg. A template with a reserved bit, and a result that fails R337's checks, take cause 0x09; without a free
number, or below level 8, x[XD] is all ones and nothing is created; otherwise the new bent is a child of the peg's, one level deeper, of the same
owner, with its budgets and priority clamped to the parent's and what INH names inherited, and x[XD] is its number. -/
def Obligations.BentCreation : Prop :=
  ∀ (s : State) (d a : RegNo) (l : Loc) (p : Bent), s.privileged = true → Reaches s (s.getX a) 256 0 .read true l →
    s.bents.find? s.myBent = some p →
    (∀ n, s.pickBent = some n → s.lockedOut (s.bentLoc n).pa 256 = false) →
    let u := reached s (s.getX a) 256 .read l
    let data := ownBytes s (s.getX a) 256 l
    let c := (Bent.ofTemplate data).inherit p
    let inh (i : Nat) : Prop := leNat ((data.drop 8).take 2) / 2 ^ i % 2 = 1
    let ok := templateReserved data false = false ∧ s.badBent c p.phBase p.phCnt = false
    (¬ ok → CanTrap s → exec (.bentNew d a) s = .next (inHandler u 0x09 0 0)) ∧
    (ok → (s.pickBent = none ∨ 8 ≤ p.level) → exec (.bentNew d a) s = .next (wroteX u d 0xFFFFFFFFFFFFFFFF)) ∧
    (∀ n, ok → s.pickBent = some n → p.level < 8 → ∃ t r, exec (.bentNew d a) s = .next t ∧
      OnlyX s t d (BitVec.ofNat 64 n) ∧ t.bents.find? n = some r ∧ r.parent = some s.myBent ∧ r.level = p.level + 1 ∧
      r.owner = p.owner ∧ r.drain = false ∧ r.maxCores ≤ p.maxCores ∧ r.maxCtx ≤ p.maxCtx ∧ r.hbmq ≤ p.hbmq ∧ r.prio ≤ p.prio ∧
      r.effPrio = r.prio ∧ (r.priv = true → p.priv = true) ∧
      (inh 0 → r.maxCores = p.maxCores ∧ r.maxCtx = p.maxCtx ∧ r.hbmq = p.hbmq) ∧ (inh 1 → r.prio = p.prio) ∧
      (inh 2 → r.hpc = p.hpc ∧ r.save = p.save) ∧ (inh 3 → r.key = p.key) ∧ (inh 4 → r.det = p.det) ∧
      (inh 5 → r.phBase = p.phBase ∧ r.phCnt = p.phCnt))

/-- R163, R373, R337: BENT.KILL of a bent in the peg's tree sets it and all below it draining, and goes on; outside the tree it takes cause 0x07. KILL then
ends each peg of a draining bent that has no context left: it is gone from its core, the journals, the allocations and the phasers. A write-back
writes the Z fields of the record and leaves every bent as it is while none drains, and ends a draining bent that has no work left. -/
def Obligations.BentsEnd : Prop :=
  (∀ (s : State) (a : RegNo), s.privileged = true →
    let b := (s.getX a).toNat
    (∀ r, s.bents.find? b = some r → s.root b = s.root s.myBent → ∃ t, exec (.bentKill a) s = .next t ∧ Drained s t b ∧
      t.me.pc = s.me.pc + 4 ∧ t.me.x = s.me.x ∧ t.me.f = s.me.f ∧ t.me.d = s.me.d ∧ t.me.regs = s.me.regs) ∧
    ((s.bents.find? b = none ∨ s.root b ≠ s.root s.myBent) → CanTrap s → exec (.bentKill a) s = .next (inHandler s 0x07 0 0))) ∧
  (∀ (s : State) (id : Nat) (p : Peg) (r : Bent), s.pegs.find? id = some p → s.bents.find? p.bent = some r → r.drain = true →
    s.recordHeld p = false → (∀ e ∈ s.cores, ∀ x ∈ e.2.ctxs, x.peg ≠ id) →
      ∃ t, exec (.kill id) s = .next t ∧ t.pegs.find? id = none ∧ RegistersKept s t ∧
        (∀ bay n, (t.phaser bay n).member (.peg id) = none) ∧
        ∀ c, (t.core c).peg ≠ some id ∧ (∀ e ∈ (t.core c).journal, e.peg ≠ id) ∧ (∀ e ∈ (t.core c).allocs, e.peg ≠ id)) ∧
  (∀ (s : State) (b : Nat) (r : Bent), s.bents.find? b = some r → s.lockedOut (s.bentLoc b).pa 256 = false →
    ((∀ e ∈ s.bents, e.2.drain = false) → ∃ t, exec (.bentRecordWriteback b) s = .next t ∧ t.bents = s.bents ∧
      RegistersKept s t ∧
      (∀ o, s.region (s.bentLoc b).pa = .hbm o → (∀ a ∈ s.accums, a.meets (s.bentLoc b).pa 256 = false) →
        let at_ := (s.bentLoc b).pa
        let field (u : State) (off n : Nat) : Nat := leNat (u.bytesAt none (at_ + off) n)
        field t 0 4 = r.parent.getD 0xFFFFFF % 2 ^ 32 ∧ field t 4 1 = r.level % 2 ^ 8 ∧
        -- FLAGS: DRAIN and LOCKLOST, the other bits as they stood
        field t 6 2 = field s 6 2 - field s 6 2 / 4 % 4 * 4 + (if r.lockLost then 8 else 0) ∧
        field t 0x44 4 = r.ovqh.toNat ∧ field t 0x48 4 = r.ovqt.toNat ∧ field t 0xC0 8 = r.dispatches.toNat ∧
        field t 0xC8 8 = r.preempts.toNat ∧ field t 0xD0 8 = r.traps.toNat ∧ field t 0xD8 8 = r.spawns.toNat ∧
        field t 0xE0 4 = s.livePegs b % 2 ^ 32 ∧ field t 0xE4 4 = s.coresOf b % 2 ^ 32 ∧ field t 0xE8 4 = s.ctxsOf b % 2 ^ 32 ∧
        field t 0xEC 4 = s.pegs.countP (fun e => decide (e.2.bent = b) && e.2.pool.isSome) % 2 ^ 32 ∧
        (∀ k, k < 256 → (k = 5 ∨ 8 ≤ k ∧ k < 0x44 ∨ 0x4C ≤ k ∧ k < 0xC0 ∨ 0xF0 ≤ k) → field t k 1 = field s k 1) ∧
        OnlyWrites s t (s.bentLoc b) 256)) ∧
    (r.drain = true → s.busyBent b = false → ∃ t, exec (.bentRecordWriteback b) s = .next t ∧ t.bents.find? b = none ∧ RegistersKept s t))

/-! ## Scribe records -/

namespace Sys2Proof.Claims

/-- E_LO of R165's table by element type code, as the byte of a record. -/
def lowestExponent (t : Nat) : Nat :=
  if t = 7 then 0xF9 else if t = 8 then 0xF8 else if t < 7 ∨ t = 14 then 0xFF else 0xEF

/-- MaxFmt of R168 by element type code. -/
def largest (t : Nat) : ℚ :=
  match t with
  | 0 => 127
  | 5 => 7
  | 6 => 3
  | 7 => 448
  | 8 => 57344
  | 10 => 65504
  | _ => 6

/-- Whether R168 accepts an element type. -/
def scalable (t : Nat) : Bool := [0, 5, 6, 7, 8, 10, 14].contains t

/-- A 4-byte field of a record, as the running peg sees it. -/
def recordField (s : State) (l : Loc) (off : Nat) : Nat := leNat (s.bytesAt l.slot (l.pa + off) 4)

end Sys2Proof.Claims

/-- R165, R166, R167: SCRB.INIT writes a fresh record: ET, FLAGS 0, E_LO of the table, everything else 0. SCRB.NEXT raises the epoch by one modulo 2^32,
clears AMAX, the counts and the 24 bins, keeps ET, FLAGS, E_LO and the late count, and answers the new epoch. SCRB.RD answers one word. Only the
record changes. -/
def Obligations.ScribeInstructions : Prop :=
  ∀ (s : State) (d a : RegNo) (l : Loc),
    (∀ t : BitVec 4, Reaches s (s.getX a) 128 0 .both false l → ¬ Waits s (s.me.regs.ordScope.toNat % 8) 1 →
      ∃ u, exec (.scrbInit a t) s = .next u ∧ OnlyX s u 0 0 ∧ OnlyWrites s u l 128 ∧
        recordField u l 0 = t.toNat + 2 ^ 16 * lowestExponent t.toNat ∧ ∀ i, 1 ≤ i → i < 32 → recordField u l (4 * i) = 0) ∧
    (Reaches s (s.getX a) 128 0 .both false l → s.poisoned l.pa 128 = false → ¬ Waits s (s.me.regs.ordScope.toNat % 8) 1 →
      ∃ u, exec (.scrbNext d a) s = .next u ∧ OnlyX s u d (BitVec.ofNat 64 ((recordField s l 4 + 1) % 2 ^ 32)) ∧ OnlyWrites s u l 128 ∧
        recordField u l 0 = recordField s l 0 ∧ recordField u l 4 = (recordField s l 4 + 1) % 2 ^ 32 ∧
        recordField u l 0x1C = recordField s l 0x1C ∧
        ∀ i, (2 ≤ i ∧ i < 7 ∨ 8 ≤ i ∧ i < 32) → recordField u l (4 * i) = 0) ∧
    (∀ w : BitVec 5, Reaches s (s.getX a) 128 0 .home false l → s.poisoned (l.pa + 4 * w.toNat) 4 = false →
      exec (.scrbRd d a w) s = .next (wroteX (reached s (s.getX a) 128 .home l) d (BitVec.ofNat 64 (recordField s l (4 * w.toNat)))))

/-- R168: QSCALE with an epoch within the window leaves a scale of the record's AMAX in x[XD] and changes nothing else: pow2 the E8M0 exponent of the
greatest power of two not above M / A, clamped to 0 to 254, 127 for A = 0, 0 for an infinite and 0xFF for a NaN A; exact the
finite f32 nearest to M / (A × 2^MARGIN), ties to even, 1 for A = 0, +0 for an infinite and a
NaN for a NaN A.
With a stale epoch it takes cause 0x0C at the record's address. -/
def Obligations.QuantisationScales : Prop :=
  ∀ (s : State) (d a : RegNo) (l : Loc) (t : BitVec 4) (v : BitVec 1) (w m : BitVec 2), scalable t.toNat = true →
    Reaches s (s.getX a) 128 0 .home false l → s.poisoned (l.pa + 4) 8 = false →
    let u := reached s (s.getX a) 128 .home l
    let late := ((s.getX d).toNat % 2 ^ 32 + 2 ^ 32 - recordField s l 4) % 2 ^ 32
    let win := if v = 1 then s.me.regs.scrbWin.toNat % 4 else w.toNat
    let bits := recordField s l 8 % 2 ^ 31
    let amax := ratOf (Fmt.f32.decode bits)
    (win < late → CanTrap s → exec (.qscalePow2 d a t v w) s = .next (inHandler u 0x0C (s.getX a) 0) ∧
      exec (.qscaleExact d a t v w m) s = .next (inHandler u 0x0C (s.getX a) 0)) ∧
    (late ≤ win →
      (∃ x, exec (.qscalePow2 d a t v w) s = .next (wroteX u d (BitVec.ofNat 64 x)) ∧
        (bits = 0 → x = 127) ∧ (bits = 0x7F800000 → x = 0) ∧ (0x7F800000 < bits → x = 0xFF) ∧
        (0 < bits → bits < 0x7F800000 → x ≤ 254 ∧
          (0 < x → amax * (2 : ℚ) ^ ((x : Int) - 127) ≤ largest t.toNat) ∧
          (x < 254 → largest t.toNat < amax * (2 : ℚ) ^ ((x : Int) - 126)))) ∧
      (∃ x, exec (.qscaleExact d a t v w m) s = .next (wroteX u d (BitVec.ofNat 64 x)) ∧
        (bits = 0 → x = 0x3F800000) ∧ (bits = 0x7F800000 → x = 0) ∧ (0x7F800000 < bits → x = 0x7FC00000) ∧
        (0 < bits → bits < 0x7F800000 →
          let exact := largest t.toNat / (amax * 2 ^ m.toNat)
          let off (y : Nat) : ℚ := |ratOf (Fmt.f32.decode y) - exact|
          x ≤ 0x7F7FFFFF ∧ ∀ y, y ≤ 0x7F7FFFFF → off x ≤ off y ∧ (y ≠ x → off x = off y → x % 2 = 0))))

/-- R156, R157: the advance of a phaser and the instructions that change a membership. -/
def Obligations.PhasersAdvance : Prop := Sys2Proof.Claims.PhaserAdvances ∧ Sys2Proof.Claims.PhaserMembership

/-! ## Commands -/

namespace Sys2Proof.Claims

/-- A command as it is journalled: what it is, its class, its waits and signals, and the values of the x and d registers that it names, the index
descriptor last (R179, R180, R193 to R206). -/
structure Issued where
  op : CmdOp
  cls : Nat
  ws : WaitSig
  xa : Word
  xb : Word
  da : Desc
  db : Desc
  di : Desc

/-- The commands that the journal takes: every command but DESC.LD and JRNL.RD (R181). -/
def commandOf (s : State) : Instr → Option Issued
  | .sld mode cj c a b ws => some ⟨.sld mode cj, c.toNat, ws, 0, 0, s.me.getD a, s.me.getD b, s.me.getD (b + 1)⟩
  | .sst q c a b ws => some ⟨.sst q, c.toNat, ws, 0, 0, s.me.getD a, s.me.getD b, 0⟩
  | .sgth c a b ws => some ⟨.sgth, c.toNat, ws, 0, 0, s.me.getD a, s.me.getD b, s.me.getD (b + 1)⟩
  | .ssct mrg c a b ws => some ⟨.ssct mrg, c.toNat, ws, 0, 0, s.me.getD a, s.me.getD b, s.me.getD (b + 1)⟩
  | .sred c a b ws => some ⟨.sred, c.toNat, ws, 0, 0, s.me.getD a, s.me.getD b, 0⟩
  | .scpy a b ws => some ⟨.scpy, 0, ws, 0, 0, s.me.getD a, s.me.getD b, 0⟩
  | .sbank k a ws => some ⟨.sbank k, 0, ws, s.getX a, 0, 0, 0, 0⟩
  | .salloc sp a b ws => some ⟨.salloc sp, 0, ws, s.getX a, s.getX b, 0, 0, 0⟩
  | .sfree sp a b ws => some ⟨.sfree sp, 0, ws, s.getX a, s.getX b, 0, 0, 0⟩
  | .seat bwd a ws => some ⟨.seat bwd, 0, ws, 0, 0, s.me.getD a, 0, 0⟩
  | .unseat a ws => some ⟨.unseat, 0, ws, 0, 0, s.me.getD a, 0, 0⟩
  | .krun c a ws => some ⟨.krun, c.toNat, ws, s.getX a, 0, 0, 0, 0⟩
  | .jigGo ws => some ⟨.jigGo, 0, ws, 0, 0, 0, 0, 0⟩
  | .jigRev ws => some ⟨.jigRev, 0, ws, 0, 0, 0, 0, 0⟩
  | .finSet a b ws => some ⟨.finSet, 0, ws, s.getX a, s.getX b, 0, 0, 0⟩
  | .coll c a ws => some ⟨.coll, c.toNat, ws, s.getX a, 0, 0, 0, 0⟩
  | .collAbt c a ws => some ⟨.collAbt, c.toNat, ws, s.getX a, 0, 0, 0, 0⟩
  | .sillLoad c a b ws => some ⟨.sillLoad, c.toNat, ws, s.getX a, s.getX b, 0, 0, 0⟩
  | .sillGo a b ws => some ⟨.sillGo, 0, ws, s.getX a, s.getX b, 0, 0, 0⟩
  | _ => none

/-- Whether a command is a jig run, whose capture also waits while three runs do (R181). -/
def isRun (op : CmdOp) : Bool := decide (op = .jigGo) || decide (op = .jigRev)

/-- Captured runs that have not become active (R181). -/
def runsBehind (k : Core) : Nat := k.journal.countP (fun c => isRun c.op && !(c.ready || decide (c.st = .stopped)))

/-- An entry of a core after an event. -/
def entryIs (t : State) (core : Nat) (c : Cmd) : Prop := (t.core core).entry c.seq = some c

/-- A trap has joined the pending traps of a peg. -/
def Pended (s t : State) (id : Nat) (u : Trap) : Prop :=
  ∀ p, s.pegs.find? id = some p → ∃ q, t.pegs.find? id = some q ∧ q.pending = p.pending ++ [u]

/-- The trap of a journal entry (R353 to R355). -/
def entryTrap (c : Cmd) (code elem : Nat) (addr : Word) : Trap :=
  { kind := if isRun c.op then 3 else 2, code := code, info := BitVec.ofNat 64 (c.seq.toNat * 2 ^ 32 + elem % 2 ^ 32), addr := addr
    seq := some c.seq, rank := elem, deferred := false }

end Sys2Proof.Claims

/-- R180, R181: a command with room in the journal is appended to it with the next sequence number, queued, holding the values of the registers it names,
the peg's RND.DEF, RNG.SEED, SCRB.WIN, SCRB.RTHR, ORD.SCOPE and COLL.TMO, its bent, and for a jig run the shadow set; the pc moves on by 8 and
nothing else changes. With 256 entries incomplete, or for a run with three waiting, it stalls. -/
def Obligations.CommandsAreJournalled : Prop :=
  ∀ (s : State) (i : Instr) (r : Issued), commandOf s i = some r →
    ((s.me.journal.length < 256 ∧ (isRun r.op = true → runsBehind s.me < 3)) →
      ∃ c : Cmd, exec i s = .next { s with cores := s.cores.put s.cur { s.me with
          journal := s.me.journal ++ [c], jnext := s.me.jnext + 1, pc := s.me.pc + 8 }, stamp := s.stamp + 1 } ∧
        c.seq = s.me.jnext ∧ c.no = s.stamp ∧ c.op = r.op ∧ c.cls = r.cls ∧ c.ws = r.ws ∧ c.xa = r.xa ∧ c.xb = r.xb ∧ c.da = r.da ∧ c.db = r.db ∧ c.di = r.di ∧
        c.peg = s.pegId.getD 0 ∧ c.bent = s.myBent ∧ c.rnd.toNat = s.me.regs.rndDef.toNat % 4 ∧
        c.seed.toNat = s.me.regs.rngSeed.toNat % 2 ^ 32 ∧ c.win = s.me.regs.scrbWin.toNat % 4 ∧
        c.thr = s.me.regs.scrbRthr.toNat % 2 ^ 32 ∧ c.scope = s.me.regs.ordScope.toNat % 8 ∧
        c.collTmo = s.me.regs.collTmo.toNat % 2 ^ 32 ∧ c.table = (if isRun r.op then s.me.jigShadow else []) ∧
        c.st = .queued ∧ c.trap = none ∧ c.held = false ∧ c.progress = 0) ∧
    ((256 ≤ s.me.journal.length ∨ (isRun r.op = true ∧ 3 ≤ runsBehind s.me)) → exec i s = .next s)

namespace Sys2Proof.Claims

/-- An entry after an element, `n` of them performed; what was read ahead for the elements performed is gone. -/
def advanced (c : Cmd) (n : Nat) : Cmd :=
  { c with progress := n, asked := none, ahead := c.ahead.filter (fun e => decide (4 * n ≤ e.1)) }

/-- The machine with one core's state replaced, its journal holding the new value of an entry. -/
def coreWith (s : State) (core : Nat) (k : Core) (c : Cmd) : State :=
  { s with cores := s.cores.put core { k with journal := k.journal.map (fun d => if d.seq = c.seq then c else d) } }

/-- An entry has stopped at an element with a trap for its peg, its reservation kept, and nothing else has changed (R192). -/
def StopsAt (s t : State) (core : Nat) (c : Cmd) (code elem : Nat) (addr : Word) : Prop :=
  Pended s t c.peg (entryTrap c code elem addr) ∧ (∀ id, id ≠ c.peg → t.pegs.find? id = s.pegs.find? id) ∧
  t = { coreWith s core (s.core core)
      { c with st := .stopped, progress := elem, asked := none, ahead := [], trap := some (entryTrap c code elem addr) } with
    pegs := t.pegs }

/-- A running entry at the head of its queue whose next element may perform: no access of its own still has to (R191, R192, R209). -/
def AtElement (s : State) (core : Nat) (c : Cmd) : Prop :=
  (s.core core).head c.op.queue = some c ∧ s.mayRun core c = true ∧ c.st = .running ∧ c.ready = true ∧
    s.unperformed (.queue core c.op.queue) c.no = false

/-- The bytes of a local space that a command names, as R193 accepts them: aligned, not none, and inside the space. -/
def rangeOk (sp : LocalSpace) (lo n : Nat) : Prop :=
  let unit := match sp with
    | .acc => 4096
    | _ => 256
  let size := match sp with
    | .acc => 0xC0000
    | _ => 0x200000
  lo % unit = 0 ∧ n % unit = 0 ∧ n ≠ 0 ∧ lo + n ≤ size

/-- Two ranges have no byte in common. -/
def apart (a n b m : Nat) : Prop := a + n ≤ b ∨ b + m ≤ a

/-- The wait of an entry at the head of its queue is met (R184). -/
def WaitMet (s : State) (core : Nat) (c : Cmd) : Prop :=
  c.wok = true ∨ c.ws.wsem = 255 ∨ c.ws.wthr.toNat ≤ (s.core core).sem c.ws.wsem.toNat

/-- COMMAND_START (R184, R187): the head of a queue whose wait is not met stays; when it is met WOK is set for good, and a command that acts on
its core alone runs with its reservation when it is granted, or waits for it. -/
def StartsCommands : Prop :=
  ∀ (s : State) (core : Nat) (q : Queue) (c : Cmd), (s.core core).head q = some c → s.mayRun core c = true → c.st = .queued →
    (¬ WaitMet s core c → exec (.commandStart core q) s = .next s) ∧
    (WaitMet s core c → s.issueDone c = true → c.op.admin = true → c.held = false → c.ready = false →
      let cl := s.claimsOf core c
      ∃ t, exec (.commandStart core q) s = .next t ∧ RegistersKept s t ∧ t.mem = s.mem ∧ t.pegs = s.pegs ∧
        (s.granted core c cl = true →
          entryIs t core { c with wok := true, st := .running, held := true, claims := cl, ready := true, asked := none }) ∧
        (s.granted core c cl = false → entryIs t core { c with wok := true }))

/-- The start of a data command with its reservation granted (R191): an operand that breaks step 1 stops it with cause 0x09 at element 0, one that breaks
step 2 with cause 0x05, a bank of another type than its descriptor's with 0x0A; when the checks pass, it is ready for its elements. -/
def ChecksOperands : Prop :=
  ∀ (s : State) (core : Nat) (c : Cmd), (s.core core).head c.op.queue = some c → s.mayRun core c = true → c.st = .queued → WaitMet s core c →
    s.issueDone c = true → c.op.data = true → c.held = false → c.ready = false → s.granted core c (s.claimsOf core c) = true →
      let d := Dsc.parse c.da 0
      let sr := Dsc.parse c.db (match c.op with
        | .sld .strided _ => 1
        | _ => 0)
      let ix := Dsc.parse c.di 0
      let k := s.core core
      let c1 := { c with wok := true, st := .running, held := true, claims := s.claimsOf core c }
      let indexed : Prop := (∃ j, c.op = .sld .gather j) ∨ c.op = .sgth ∨ ∃ m, c.op = .ssct m
      let stops (code : Nat) : Prop := ∃ t, exec (.commandStart core c.op.queue) s = .next t ∧ RegistersKept s t ∧ t.mem = s.mem ∧
        entryIs t core { c1 with st := .stopped, progress := 0, asked := none, ahead := [], trap := some (entryTrap c code 0 0) } ∧
        Pended s t c.peg (entryTrap c code 0 0)
      -- step 1: reserved bits, spaces, counts, types
      ((d.reserved = true ∨ sr.reserved = true ∨ indexed ∧ ix.reserved = true) → stops 0x09) ∧
      (((∃ m j, c.op = .sld m j) ∨ c.op = .sgth) → (d.space = none ∨ sr.space ≠ none) → stops 0x09) ∧
      (((∃ q, c.op = .sst q) ∨ (∃ m, c.op = .ssct m) ∨ c.op = .sred) → (d.space ≠ none ∨ sr.space = none) → stops 0x09) ∧
      (c.op = .scpy → (d.space = none ∨ sr.space = none) → stops 0x09) ∧
      (((∃ j, c.op = .sld .plain j) ∨ (∃ j, c.op = .sld .strided j) ∨ (∃ q, c.op = .sst q) ∨ c.op = .sred ∨ c.op = .scpy) → d.count ≠ sr.count → stops 0x09) ∧
      ((c.op = .sgth → d.count ≠ ix.count → stops 0x09) ∧ (∀ m, c.op = .ssct m → sr.count ≠ ix.count → stops 0x09)) ∧
      ((c.op = .ssct true ∨ c.op = .sred) → d.et ∉ [.i32, .i64, .f32, .f64, .bf16] → stops 0x09) ∧
      (∀ q, c.op = .sst q → q ≠ .none → (sr.scribe = 0 ∨ d.et ∉ [.i8, .e4m3, .e5m2, .f16] ∨ d.gs ≠ 0) → stops 0x09) ∧
      ((d.et.isC ≠ sr.et.isC ∨ ((d.et = .q4 ∨ d.et = .q3 ∨ d.gs ≠ 0) ∧ d.et ≠ sr.et)) → stops 0x09) ∧
      -- steps 2 and 3, for two descriptors of plain types whose step 1 holds
      (d.reserved = false → sr.reserved = false → c.op = .scpy → (∃ a, d.space = some a) → (∃ a, sr.space = some a) → d.count = sr.count →
        d.gs = 0 → sr.gs = 0 → d.et ∈ [.i8, .i32, .f32, .bf16] → sr.et ∈ [.i8, .i32, .f32, .bf16] → d.space ≠ some .acc → sr.space ≠ some .acc →
        d.scale = 0 → sr.scale = 0 →
        let off (m : Dsc) : Prop := m.base % m.et.bytes ≠ 0 ∨ ∃ x ∈ [m.s1, m.s2, m.s3], x % (m.et.bytes : Int) ≠ 0
        let other (m : Dsc) : Prop := m.space = some .srf ∧ m.count ≠ 0 ∧ m.base < 0x200000 ∧
          ET.ofCode ((k.fmtOf (m.base / 0x20000)).toNat % 16) ≠ m.et
        ((off d ∨ off sr) → stops 0x05) ∧
        (¬ off d → ¬ off sr → (other d ∨ other sr) → stops 0x0A) ∧
        (¬ off d → ¬ off sr → ¬ other d → ¬ other sr → (d.scribe = 0 ∨ d.count = 0) →
          exec (.commandStart core .reduce) s = .next (coreWith s core k { c1 with ready := true, asked := none })))

/-- COMMAND_ELEMENT of an SALLOC (R193): a range that is aligned, inside its space and clear of other allocations joins the core's, owned by the
peg; any other stops the entry with cause 0x09 at element 0. -/
def AllocatesRanges : Prop :=
  ∀ (s : State) (core : Nat) (c : Cmd) (sp : LocalSpace), AtElement s core c → c.op = .salloc sp → c.progress = 0 →
    let k := s.core core
    let lo := c.xa.toNat
    let n := c.xb.toNat
    let good := rangeOk sp lo n ∧ k.allocs.length < 64 ∧
      ∀ a ∈ k.allocs, a.space = sp → (sp = .acc → a.bent = c.bent) → apart a.base a.len lo n
    (good → exec (.commandElement core .reduce) s =
      .next (coreWith s core { k with allocs := k.allocs ++ [{ space := sp, base := lo, len := n, peg := c.peg, bent := c.bent }] } (advanced c 1))) ∧
    (¬ good → ∃ t, exec (.commandElement core .reduce) s = .next t ∧ StopsAt s t core c 0x09 0 0)

/-- COMMAND_ELEMENT of an SFREE (R193, R200, R370): the peg's allocation of exactly the range is gone; the windows of an ACC
one that the bent owns are cleared to +0 and have no owner. Any other range takes cause 0x09, a WB one that holds a seated macro 0x17. -/
def FreesRanges : Prop :=
  ∀ (s : State) (core : Nat) (c : Cmd) (sp : LocalSpace), AtElement s core c → c.op = .sfree sp → c.progress = 0 →
    let k := s.core core
    let lo := c.xa.toNat
    let n := c.xb.toNat
    let a : Alloc := { space := sp, base := lo, len := n, peg := c.peg, bent := c.bent }
    let held := ∃ e ∈ k.allocs, e.space = sp ∧ e.base = lo ∧ e.len = n ∧ e.peg = c.peg
    let seat := ∃ m, lo ≤ 0x10000 * m + 0xFFFF ∧ 0x10000 * m < lo + n ∧ ∃ r ∈ k.regions, r.macro0 ≤ m ∧ m < r.macro0 + r.count
    ((¬ held ∨ ¬ rangeOk sp lo n) → ∃ t, exec (.commandElement core .reduce) s = .next t ∧ StopsAt s t core c 0x09 0 0) ∧
    (held → rangeOk sp lo n → sp = .wb → seat → ∃ t, exec (.commandElement core .reduce) s = .next t ∧ StopsAt s t core c 0x17 0 0) ∧
    -- an allocation of the peg is of its bent
    (rangeOk sp lo n → (sp = .wb → ¬ seat) → (∀ e ∈ k.allocs, e.peg = c.peg → e.bent = c.bent) → a ∈ k.allocs →
      ∃ k', exec (.commandElement core .reduce) s = .next (coreWith s core k' (advanced c 1)) ∧
        k'.allocs = k.allocs.filter (fun e => decide (e ≠ a)) ∧ k'.srf = k.srf ∧ k'.srfFmt = k.srfFmt ∧ k'.wb = k.wb ∧ k'.x = k.x ∧ k'.regs = k.regs ∧
        (∀ r ∈ k.regions, r.count ≠ 0 → r ∈ k'.regions) ∧
        (sp ≠ .acc → k'.acc = k.acc ∧ k'.accOwn = k.accOwn) ∧
        (sp = .acc → ∀ w, ownedBy (k.ownEntry w) c.bent = true → lo ≤ 4096 * w → 4096 * w < lo + n →
          (∀ b, 4096 * w ≤ b → b < 4096 * w + 4096 → ByteMap.rd k'.acc b = 0) ∧ k'.ownEntry w = 0) ∧
        (∀ w, (ownedBy (k.ownEntry w) c.bent = false ∨ 4096 * w < lo ∨ lo + n ≤ 4096 * w) →
          (∀ b, 4096 * w ≤ b → b < 4096 * w + 4096 → ByteMap.rd k'.acc b = ByteMap.rd k.acc b) ∧ k'.ownEntry w = k.ownEntry w))

/-- The bits of x[XA] that a bank's format has, its type and group size (R90, R199). -/
def formatAccepted (f : Nat) : Prop :=
  let et := ET.ofCode (f % 16)
  let gs := f / 16 % 4
  (gs = 0 → et ≠ .q4 ∧ et ≠ .q3) ∧ (gs ≠ 0 → et = .q4 ∨ et = .q3 ∨ et = .i8)

/-- The shape that SEAT takes (R200, R296): CNT2 macros from a macro's start, each of CNT1 rows of CNT0 columns that fit its codes and its scale
rows, whole groups, and no SCALE (log 94). -/
def Seatable (d : Dsc) : Prop :=
  let g := if d.gs = 0 then 32 else 16 * 2 ^ d.gs
  d.reserved = false ∧ d.space = some .wb ∧ d.ndim = 2 ∧ ((d.et = .q4 ∨ d.et = .q3) ∧ d.gs ≠ 0 ∨ d.et = .i8) ∧
    (d.c0 = 64 ∨ d.c0 = 128 ∨ d.c0 = 256) ∧ d.c1 % g = 0 ∧ g ≤ d.c1 ∧ d.base % 0x10000 = 0 ∧ 1 ≤ d.c2 ∧ d.base / 0x10000 + d.c2 ≤ 32 ∧
    d.s1 = (d.c0 * d.et.bits / 8 : Nat) ∧ d.s2 = 0x10000 ∧ d.c1 * d.c0 * d.et.bits ≤ 8 * 0x10000 ∧
    (d.gs ≠ 0 → d.c1 / g * d.c0 ≤ 4096) ∧ d.scale = 0

/-- Every byte of a range is in an allocation of the bent. -/
def Allocated (k : Core) (sp : LocalSpace) (bent lo n : Nat) : Prop := ∀ a, lo ≤ a → a < lo + n → k.allocated sp bent a = true

/-- COMMAND_ELEMENT of SBANK, SEAT, UNSEAT and FIN.SET (R199, R200, R204): the bank's format, the seated region, the opened region, the finish words; and
the causes of what they refuse. None of them changes a byte of a buffer. -/
def SetsEngineState : Prop :=
  ∀ (s : State) (core : Nat) (c : Cmd), AtElement s core c → c.progress = 0 →
    let k := s.core core
    let d := Dsc.parse c.da 0
    let stops (q : Queue) (code : Nat) : Prop := ∃ t, exec (.commandElement core q) s = .next t ∧ StopsAt s t core c code 0 0
    let ends (q : Queue) (k' : Core) : Prop := exec (.commandElement core q) s = .next (coreWith s core k' (advanced c 1))
    (∀ b, c.op = .sbank b →
      let f := c.xa.toNat % 2 ^ 9
      let good := formatAccepted f ∧ Allocated k .srf c.bent (0x20000 * b.toNat) 0x20000
      (good → ends .reduce { k with srfFmt := k.srfFmt.put b.toNat (BitVec.ofNat 64 f) }) ∧ (¬ good → stops .reduce 0x09)) ∧
    (∀ bwd, c.op = .seat bwd →
      let good := Seatable d ∧ Allocated k .wb c.bent d.base (0x10000 * d.c2)
      let taken := ∃ r ∈ k.regions, ∃ m, d.base / 0x10000 ≤ m ∧ m < d.base / 0x10000 + d.c2 ∧ r.macro0 ≤ m ∧ m < r.macro0 + r.count
      let seated : Region := { macro0 := d.base / 0x10000, count := d.c2, k := d.c1, n := d.c0, et := d.et.code, gs := d.gs, bwd := bwd,
                               bent := c.bent, peg := c.peg }
      (good → ¬ taken → ends .matrix { k with regions := k.regions ++ [seated] }) ∧
      (good → taken → stops .matrix 0x17) ∧ (¬ good → stops .matrix 0x09)) ∧
    (c.op = .unseat →
      let mine (r : Region) : Prop := 0x10000 * r.macro0 = d.base ∧ r.count = d.c2 ∧ r.bent = c.bent
      let good := d.reserved = false ∧ d.space = some .wb ∧ d.typeOk = true ∧ d.scale = 0 ∧ ∃ r ∈ k.regions, mine r
      (good → ∃ rs, ends .matrix { k with regions := rs } ∧ ∀ r, r ∈ rs ↔ r ∈ k.regions ∧ ¬ mine r) ∧ (¬ good → stops .matrix 0x09)) ∧
    (c.op = .finSet →
      let w := c.xa.toNat
      let sm := w / 2 ^ 8 % 4
      let good := w < 2 ^ 22 ∧ w / 2 ^ 7 % 2 = 0 ∧ w / 2 ^ 17 % 8 ≠ 7 ∧ (ET.ofCode (w % 16)).packed = false ∧
        (w / 2 ^ 10 % 2 = 0 → w / 2 ^ 11 % 4 = 0) ∧ (w / 2 ^ 15 % 2 = 1 → w / 2 ^ 13 % 4 = 0) ∧
        (sm ≠ 3 → w / 2 ^ 10 % 2 ^ 6 = 0)
      (good → ends .matrix { k with finCw := c.xa, finScale := BitVec.ofNat 64 (c.xb.toNat % 2 ^ 32) }) ∧ (¬ good → stops .matrix 0x09))

/-! ### Elements of data commands -/

/-- The indices of an element in a walk, the first fastest (R189). -/
def walk (d : Dsc) (e : Nat) : Idx := ⟨e % d.c0, e / d.c0 % d.c1, e / (d.c0 * d.c1) % d.c2, e / (d.c0 * d.c1 * d.c2)⟩

/-- Where the element with these indices lies (R46, R52, R91, R189). -/
def spotAt (d : Dsc) (i : Idx) : Spot :=
  { row := (d.base : Int) + i.i1 * d.s1 + i.i2 * d.s2 + i.i3 * d.s3
    bit := if d.et = .e2m1 ∧ d.space = some .srf then 8 * (i.i0 / 512 * 272) + 4 * (i.i0 % 512) else d.et.bits * i.i0
    width := d.et.bits }

/-- Where the scale byte of an e2m1 element lies: after the codes of its superblock, or at SCALE plus its block (R52, R91). -/
def blockScaleAt (d : Dsc) (i : Idx) : Spot :=
  if d.space = some .srf then
    { row := (d.base : Int) + i.i1 * d.s1 + i.i2 * d.s2 + i.i3 * d.s3, bit := 8 * (i.i0 / 512 * 272 + 256 + i.i0 % 512 / 32), width := 8 }
  else { row := d.scale, bit := 8 * ((i.i0 + d.c0 * (i.i1 + d.c1 * (i.i2 + d.c2 * i.i3))) / 32), width := 8 }

/-- A place in a local space that a command may use (R25, R91, R190, R191, R368): inside the space and the bent's allocations; in the SRF, in banks of
the format of the first one; for a write, in no seated macro; in the ACC, in a window that nobody else owns. -/
def Usable (k : Core) (c : Cmd) (d : Dsc) (sp : LocalSpace) (p : Spot) (write : Bool) : Prop :=
  0 ≤ p.lo ∧ p.lo.toNat + p.len ≤ spaceSize sp ∧ Allocated k sp c.bent p.lo.toNat p.len ∧
  match sp with
  | .srf => ∀ a, p.lo.toNat ≤ a → a < p.lo.toNat + p.len → k.fmtOf (a / 0x20000) = k.fmtOf (d.base / 0x20000)
  | .wb => write = true → ∀ r ∈ k.regions, ¬ (r.macro0 ≤ p.lo.toNat / 0x10000 ∧ p.lo.toNat / 0x10000 < r.macro0 + r.count)
  | .acc => (k.ownEntry (p.lo.toNat / 4096)).getLsbD 31 = true → ownedBy (k.ownEntry (p.lo.toNat / 4096)) c.bent = true

/-- The machine once the bent of a command has touched a place: a window of the ACC that nobody owned is the bent's (R368). -/
def owning (s : State) (core : Nat) (c : Cmd) (sp : LocalSpace) (p : Spot) : State :=
  let k := s.core core
  let w := p.lo.toNat / 4096
  if sp = .acc then
    s.setCore core (if (k.ownEntry w).getLsbD 31 then k else { k with accOwn := k.accOwn.put w (BitVec.ofNat 64 (c.bent % 2 ^ 24 + 2 ^ 31)) })
  else s

/-- The agent that a command's accesses are made by (R186). -/
def byQueue (c : Cmd) (core : Nat) : Issuer :=
  { ag := .queue core c.op.queue, core := core, bent := c.bent, cls := c.cls, no := c.no }

/-- A command has read the bits of a place in a descriptor's space. -/
def Fetched (s : State) (core : Nat) (c : Cmd) (d : Dsc) (p : Spot) (v : Nat) (t : State) : Prop :=
  match d.space with
  | none => ∃ data, s.gRead (s.bayOf core) (byQueue c core) p.va p.len = .ok t data ∧ v = p.get data
  | some sp => Usable (s.core core) c d sp p false ∧ (s.core core).bufPoisoned sp p.lo.toNat p.len = false ∧
      t = owning s core c sp p ∧ v = p.get ((s.core core).readBuf sp p.lo.toNat p.len)

/-- A command has written the bits of a place in a descriptor's space. -/
def Written (s : State) (core : Nat) (c : Cmd) (d : Dsc) (p : Spot) (v : Nat) (t : State) : Prop :=
  match d.space with
  | none => ∃ x, (if p.width % 8 = 0 then s.gWrite (s.bayOf core) (byQueue c core) p.va (leBytes p.len v)
      else s.gPatch (s.bayOf core) (byQueue c core) p v) = .ok t x
  | some sp => Usable (s.core core) c d sp p true ∧
      t = (owning s core c sp p).setCore core (((owning s core c sp p).core core).writeBuf sp p.lo.toNat
        (p.put ((s.core core).readBuf sp p.lo.toNat p.len) v))

/-- A command has read element `n` of its index descriptor (R194, R196). -/
def indexAt (c : Cmd) (ix : Dsc) (n : Nat) (s : State) (core : Nat) (v : Int) (t : State) : Prop :=
  ∃ raw, Fetched s core c ix (spotAt ix ⟨n, 0, 0, 0⟩) raw t ∧ v = signedOf ix.et.bits raw

/-- The source element of the element `e` of a walk (R194, R196): its indices and place, and the state that has read the index, where there is one. -/
def SourceOf (s : State) (core : Nat) (c : Cmd) (d sr ix : Dsc) (e : Nat) (i : Idx) (p : Spot) (t : State) : Prop :=
  match c.op with
  | .sld .strided _ => t = s ∧ i = walk sr e ∧
      p = { row := (sr.base : Int) + (walk sr e).i0 * sr.s1 + (walk sr e).i1 * sr.s2 + (walk sr e).i2 * sr.s3, bit := 0, width := sr.et.bits }
  | .sld .transpose _ => t = s ∧ i = ⟨(walk d e).i1, (walk d e).i0, (walk d e).i2, (walk d e).i3⟩ ∧ p = spotAt sr i
  | .sld .gather _ => ∃ r : Int, indexAt c ix (walk d e).i1 s core r t ∧ 0 ≤ r ∧ r < sr.c1 ∧
      i = ⟨(walk d e).i0, r.toNat, (walk d e).i2, (walk d e).i3⟩ ∧ p = spotAt sr i
  | .sgth => ∃ r : Int, indexAt c ix e s core r t ∧ 0 ≤ r ∧ r < sr.count ∧ i = walk sr r.toNat ∧ p = spotAt sr i
  | _ => t = s ∧ i = walk sr e ∧ p = spotAt sr i

/-- The destination of the element `e` of a walk (R196). -/
def DestOf (s : State) (core : Nat) (c : Cmd) (d ix : Dsc) (e : Nat) (i : Idx) (t : State) : Prop :=
  match c.op with
  | .ssct _ => ∃ r : Int, indexAt c ix e s core r t ∧ 0 ≤ r ∧ r < d.count ∧ i = walk d r.toNat
  | _ => t = s ∧ i = walk d e

/-- Whether scale rows take part in a command (R297). -/
def scalesMove (c : Cmd) (d sr : Dsc) : Prop :=
  d.gs ≠ 0 ∧ d.et = sr.et ∧ d.gs = sr.gs ∧ match c.op with
    | .sld _ _ => d.seatShape = true
    | .sst _ => sr.seatShape = true
    | .scpy => d.seatShape = true ∧ sr.seatShape = true
    | _ => False

/-- A source element as bits and as a number (R48, R52, R53): its code, with the block's E8M0 scale or the group's bf16 scale where it has one and the
element is converted. -/
def Sourced (s : State) (core : Nat) (c : Cmd) (d sr : Dsc) (i : Idx) (p : Spot) (raw : Nat) (v : Val) (t : State) : Prop :=
  ∃ u, Fetched s core c sr p raw u ∧
    if sr.et = .e2m1 then ∃ x, Fetched u core c sr (blockScaleAt sr i) x t ∧ v = .flt (e2m1Val raw x)
    else
      let scaled := sr.gs ≠ 0 ∧ sr.space = none ∧ sr.scale ≠ 0 ∧ ¬ scalesMove c d sr ∧ ¬ (d.et = sr.et ∧ d.gs = sr.gs)
      let g := 16 * 2 ^ sr.gs
      let n := ((i.i2 + sr.c2 * i.i3) * (sr.c1 / g) + i.i1 / g) * sr.c0 + i.i0
      (scaled → ∃ x, Fetched u core c sr { row := sr.scale, bit := 16 * n, width := 16 } x t ∧
        v = .flt ((sr.et.decode false raw).toF.mul (Fmt.bf16.decode x))) ∧
      (¬ scaled → t = u ∧ v = sr.et.decode false raw)

/-- The rounding and saturation of a conversion into a destination: its bank's, or the descriptor's own (R190). -/
def roundInto (k : Core) (c : Cmd) (d : Dsc) : RMode × Bool :=
  let f := k.fmtOf (d.base / 0x20000)
  if d.space = some .srf ∧ d.ovr = false then (RMode.ofField (f.extractLsb' 6 2) c.rnd, f.getLsbD 8) else (RMode.ofField d.rm c.rnd, d.sat)

/-- The generator that the element `e` of a command rounds with, stepped once from where it stands (R57, R58). -/
def generator (c : Cmd) (e : Nat) : Word32 := xorShift32 (c.gens.get (e % 32) (seedLane c.seed (e % 32) c.seq))

/-- The entry with that generator stepped, where the mode is stochastic. -/
def steppedGen (c : Cmd) (m : RMode) (e : Nat) : Cmd := if m = .sr then { c with gens := c.gens.put (e % 32) (generator c e) } else c

/-- A source element as SLD with CJ takes it, the sign of its imaginary part flipped; any other command takes it as it is (R67, R194). -/
def conjugated (c : Cmd) (t : ET) (raw : Nat) (v : Val) : Nat × Val :=
  match c.op with
  | .sld _ true => (raw ^^^ 2 ^ (t.bits - 1), t.decode false (raw ^^^ 2 ^ (t.bits - 1)))
  | _ => (raw, v)

/-- The elements of a data command (R189, R196). -/
def elementsOf (c : Cmd) (d sr : Dsc) : Nat :=
  match c.op with
  | .ssct _ => sr.c0 * sr.c1 * sr.c2 * sr.c3
  | _ => d.c0 * d.c1 * d.c2 * d.c3

/-- The entries that a statement about elements speaks of: a data command with an element left, with nothing read ahead in this turn, that gathers
no statistics. -/
def Moving (s : State) (core : Nat) (c : Cmd) : Prop :=
  AtElement s core c ∧ c.op.data = true ∧ s.aheadTurn = false ∧ c.ahead = [] ∧ c.stats = none

/-- The three descriptors of a data command; SLD.ST steps a stride more (R188, R194). -/
def descriptors (c : Cmd) : Dsc × Dsc × Dsc :=
  (Dsc.parse c.da 0, Dsc.parse c.db (match c.op with
    | .sld .strided _ => 1
    | _ => 0), Dsc.parse c.di 0)

/-- COMMAND_ELEMENT of SLD, SST without Q, SGTH, SSCT with MRG = 0 and SCPY into a destination of one element at a time (R190, R194 to R196, R198): the source element, copied where the formats
are equal and converted else, is in the destination element, and the entry has moved on by one. Nothing else changes. -/
def MovesElements : Prop :=
  ∀ (s s1 s2 s3 t : State) (core : Nat) (c : Cmd) (i di : Idx) (p : Spot) (raw : Nat) (v : Val),
    let (d, sr, ix) := descriptors c
    let e := c.progress
    Moving s core c → c.scale = none → c.op.merges = false → d.et ≠ .e2m1 → ¬ scalesMove c d sr →
    e < elementsOf c d sr → SourceOf s core c d sr ix e i p s1 → DestOf s1 core c d ix e di s2 → Sourced s2 core c d sr i p raw v s3 →
      let r := roundInto (s.core core) c d
      let x := conjugated c sr.et raw v
      let bits := if d.et = sr.et ∧ (d.gs = sr.gs ∨ d.et.packed = true) then x.1 else convert d.et false r.1 r.2 (generator c e) x.2
      Written s3 core c d (spotAt d di) bits t →
        exec (.commandElement core c.op.queue) s = .next (coreWith t core (t.core core) { steppedGen c r.1 e with progress := e + 1, asked := none })

/-- COMMAND_ELEMENT of SST with Q (R195, R431): the source element times the scale kept in the entry is rounded once into the destination. An
overflow of an element not counted yet counts, and takes cause 0x0D at the element when the count passes the captured threshold. -/
def QuantisesElements : Prop :=
  ∀ (s s3 t : State) (core : Nat) (c : Cmd) (raw x : Nat) (v : Val) (q : SstQuant) (exact : Bool),
    let (d, sr, _) := descriptors c
    let e := c.progress
    Moving s core c → c.op = .sst q → c.scale = some x → (∃ dw, q = .pow2 dw ∧ exact = false ∨ ∃ m, q = .exact m dw ∧ exact = true) → d.et ≠ .e2m1 →
    ¬ scalesMove c d sr → e < elementsOf c d sr → Sourced s core c d sr (walk sr e) (spotAt sr (walk sr e)) raw v s3 →
      let r := roundInto (s.core core) c d
      let y := convertQuant d.et r.1 (generator c e) (v.toF.mul (scaleVal exact x))
      let n := min (c.ovf + 1) (2 ^ 32 - 1)
      let news : Bool := y.2 && !decide (c.counted = some e)
      (news = true → c.thr < n → ∃ u, exec (.commandElement core .store) s = .next u ∧
        StopsAt s u core { c with ovf := n, counted := some e } 0x0D e (BitVec.ofNat 64 (c.ovf * 2 ^ 32 + 1))) ∧
      ((news = true → n ≤ c.thr) → Written s3 core c d (spotAt d (walk d e)) y.1 t →
        exec (.commandElement core .store) s = .next (coreWith t core (t.core core)
          { steppedGen c r.1 e with progress := e + 1, asked := none, ovf := (if news then n else c.ovf), counted := (if news then some e else c.counted) }))

/-- COMMAND_ELEMENT of SSCT with MRG = 1 and SRED (R147, R196, R197): the converted element is accepted for performance at home as a merge add, or is
refused with the cause of its access; the entry has moved on, and no byte of memory has changed. -/
def MergesElements : Prop :=
  ∀ (s s1 s2 s3 : State) (core : Nat) (c : Cmd) (i di : Idx) (p : Spot) (raw : Nat) (v : Val),
    let (d, sr, ix) := descriptors c
    let e := c.progress
    Moving s core c → (c.op = .ssct true ∨ c.op = .sred) → (d.et = .i32 ∨ d.et = .i64 ∨ d.et = .f32 ∨ d.et = .f64 ∨ d.et = .bf16) → e < elementsOf c d sr →
    SourceOf s core c d sr ix e i p s1 → DestOf s1 core c d ix e di s2 → Sourced s2 core c d sr i p raw v s3 →
      let r := roundInto (s.core core) c d
      let bits := if d.et = sr.et ∧ d.gs = sr.gs then raw else convert d.et false r.1 r.2 (generator c e) v
      let va := (spotAt d di).va
      let n := d.et.bytes
      (∀ l, s3.access (s.bayOf core) c.bent va n .both = .ok l →
        ∃ t m q, exec (.commandElement core c.op.queue) s = .next t ∧ t.merges = s3.merges ++ [m] ∧ t.mem = s3.mem ∧ RegistersKept s3 t ∧
          entryIs t core { steppedGen c r.1 e with progress := e + 1, asked := none } ∧
          m.parties = [q] ∧ q.agent = .queue core c.op.queue ∧ q.peg = c.peg ∧ q.bent = c.bent ∧ q.cmd = some c.no ∧ q.cls = c.cls ∧ q.va = va ∧
          m.loc = l ∧ m.size = n ∧ m.operand = BitVec.ofNat 64 bits ∧ m.op = (if d.et = .i32 ∨ d.et = .i64 then .add else .fadd) ∧ m.release = false) ∧
      (∀ code, code ≠ 0x0D → s3.access (s.bayOf core) c.bent va n .both = .error code →
        ∃ t, exec (.commandElement core c.op.queue) s = .next t ∧ StopsAt s t core c code e va)

/-- Every element of a list is read in turn. -/
def SourcedAll (core : Nat) (c : Cmd) (d sr ix : Dsc) : List Nat → State → List (Nat × Val) → State → Prop
  | [], s, [], t => t = s
  | e :: es, s, (raw, v) :: vs, t => ∃ s1 s2 i p, SourceOf s core c d sr ix e i p s1 ∧ Sourced s1 core c d sr i p raw v s2 ∧
      SourcedAll core c d sr ix es s2 vs t
  | _, _, _, _ => False

/-- Codes are written to the elements of a list in turn. -/
def WrittenAll (core : Nat) (c : Cmd) (d : Dsc) : List Nat → State → List Nat → State → Prop
  | [], s, [], t => t = s
  | e :: es, s, q :: qs, t => ∃ u, Written s core c d (spotAt d (walk d e)) q u ∧ WrittenAll core c d es u qs t
  | _, _, _, _ => False

/-- COMMAND_ELEMENT into e2m1 (R53, R92): the 32 elements of a block are read, and its scale byte and its codes written: those of the source where it is
e2m1 and keeps its blocks, else X = Floor(Log2(max |v|)) − 2 + 127 within 0 and 254, 0 for zeros and 0xFF for a NaN or an infinity, with each code rounded under its
own generator. -/
def MovesBlocks : Prop :=
  ∀ (s s1 s2 s3 t : State) (core : Nat) (c : Cmd) (vs : List (Nat × Val)) (qs : List Nat) (x : Nat),
    let (d, sr, ix) := descriptors c
    let b := c.progress
    let es := (List.range 32).map (b + ·)
    Moving s core c → c.op.merges = false → (∀ m, c.op ≠ .ssct m) → d.et = .e2m1 → b % 32 = 0 → b < elementsOf c d sr → SourcedAll core c d sr ix es s vs s1 →
      let r := (roundInto (s.core core) c d).1
      let fs := vs.map (fun q => q.2.toF)
      let copied := sr.et = .e2m1 ∧ c.op ≠ .sgth
      (copied → ∃ i p u, SourceOf s1 core c d sr ix b i p u ∧ Fetched u core c sr (blockScaleAt sr i) x s2 ∧ qs = vs.map Prod.fst) →
      (¬ copied → s2 = s1 ∧ qs.length = 32 ∧
        ((∃ v ∈ fs, isFinite v = false) → x = 0xFF ∧ ∀ q ∈ qs, q = 0) ∧
        ((∀ v ∈ fs, isFinite v = true) →
          let a := (fs.map (fun v => |ratOf v|)).foldl max 0
          (a = 0 → x = 0) ∧ (a ≠ 0 → (x : Int) = max 0 (min 254 (Int.log 2 a - 2 + 127))) ∧
          ∀ j, j < 32 → qs[j]? = (fs[j]?).map (e2m1Code r (generator c (b + j)) x))) →
      Written s2 core c d (blockScaleAt d (walk d b)) x s3 → WrittenAll core c d es s3 qs t →
        ∃ g, exec (.commandElement core c.op.queue) s = .next (coreWith t core (t.core core) { c with progress := b + 32, asked := none, gens := g }) ∧
          (r ≠ .sr → g = c.gens) ∧ (r = .sr → ∀ j, j < 32 → g.get ((b + j) % 32) 0 = generator c (b + j))

/-- COMMAND_ELEMENT where scale rows take part (R297): with the code of element (g × G, n) its scale moves, from SCALE's array to the macro's rows, from rows to
the array, or from rows to rows; with any other element the code alone. -/
def MovesScales : Prop :=
  ∀ (s s0 s1 s2 t : State) (core : Nat) (c : Cmd) (si : Idx) (p : Spot) (raw : Nat),
    let (d, sr, ix) := descriptors c
    let e := c.progress
    let di := walk d e
    let g := 16 * 2 ^ d.gs
    Moving s core c → c.scale = none → scalesMove c d sr → e < elementsOf c d sr → d.et ≠ .e2m1 → SourceOf s core c d sr ix e si p s0 →
    Fetched s0 core c sr p raw s1 → Written s1 core c d (spotAt d di) (conjugated c sr.et raw (.int 0)).1 s2 →
      let load := ∃ m j, c.op = .sld m j
      let store := ∃ q, c.op = .sst q
      let rowOf (m : Dsc) (x : Idx) : Nat := 8192 * (m.base / 0x10000 + x.i2) + 2 * (x.i1 / g * m.c0 + x.i0)
      let array (m w : Dsc) (i : Idx) : Spot := { row := m.scale, bit := 16 * ((i.i2 * (w.c1 / g) + i.i1 / g) * w.c0 + i.i0), width := 16 }
      let k := s2.core core
      let rows (u : State) (data : List Byte) : State :=
        u.setCore core { u.core core with scaleRows := ByteMap.wrN (u.core core).scaleRows (rowOf d di) data }
      let first := (store → si.i1 % g = 0) ∧ (¬ store → di.i1 % g = 0)
      (¬ first → t = s2) →
      (first → (¬ load → k.scalesPoisoned (rowOf sr si) 2 = false) ∧
        (load → ∃ v u, Fetched s2 core c sr (array sr d di) v u ∧ t = rows u (leBytes 2 v)) ∧
        (store → Written s2 core c d (array d sr si) (leNat (ByteMap.rdN k.scaleRows (rowOf sr si) 2)) t) ∧
        (c.op = .scpy → t = rows s2 (ByteMap.rdN k.scaleRows (rowOf sr si) 2))) →
        exec (.commandElement core c.op.queue) s = .next (coreWith t core (t.core core) { steppedGen c (roundInto (s.core core) c d).1 e with
          progress := e + 1, asked := none })

/-- The refusals of an element (R191, R192): an index out of range, a byte outside the bent's allocations, a bank of another format, a seated macro, and poisoned
data stop the entry there with nothing performed; a window of another bent stops it for firmware with cause 0x0B (R360, R369). -/
def StopsAtElements : Prop :=
  ∀ (s s1 : State) (core : Nat) (c : Cmd),
    let (d, sr, ix) := descriptors c
    let e := c.progress
    let k := s.core core
    let stops (code : Nat) : Prop := ∃ t, exec (.commandElement core c.op.queue) s = .next t ∧ StopsAt s t core c code e 0
    Moving s core c → d.et ≠ .e2m1 → e < elementsOf c d sr →
      (∀ r : Int, c.op = .sgth → indexAt c ix e s core r s1 → (r < 0 ∨ (sr.count : Int) ≤ r) → stops 0x09) ∧
      (∀ r : Int, (∃ j, c.op = .sld .gather j) → indexAt c ix (walk d e).i1 s core r s1 → (r < 0 ∨ (sr.c1 : Int) ≤ r) → stops 0x09) ∧
      (∀ (r : Int) (m : Bool), c.op = .ssct m → indexAt c ix e s core r s1 → (r < 0 ∨ (d.count : Int) ≤ r) → stops 0x09) ∧
      -- a source in a local space
      (∀ sp, (∃ q, c.op = .sst q) ∨ c.op = .sred ∨ c.op = .scpy → sr.space = some sp →
        let p := spotAt sr (walk sr e)
        let lo := p.lo.toNat
        let inside := 0 ≤ p.lo ∧ lo + p.len ≤ spaceSize sp ∧ Allocated k sp c.bent lo p.len
        (¬ inside → stops 0x09) ∧
        (inside → sp = .srf → (∃ a, lo ≤ a ∧ a < lo + p.len ∧ k.fmtOf (a / 0x20000) ≠ k.fmtOf (sr.base / 0x20000)) → stops 0x0A) ∧
        (Usable k c sr sp p false → k.bufPoisoned sp lo p.len = true → stops 0x1B) ∧
        (inside → sp = .acc → (k.ownEntry (lo / 4096)).getLsbD 31 = true → ownedBy (k.ownEntry (lo / 4096)) c.bent = false →
          exec (.commandElement core c.op.queue) s = .next (coreWith s core k
            { c with st := .stopped, trap := some (entryTrap c 0x0B e (BitVec.ofNat 64 (lo / 4096))) }))) ∧
      -- a destination in a seated macro
      (∀ (raw : Nat) (v : Val), c.op = .scpy → c.scale = none → ¬ scalesMove c d sr → Sourced s core c d sr (walk sr e) (spotAt sr (walk sr e)) raw v s1 →
        d.space = some .wb →
        let p := spotAt d (walk d e)
        0 ≤ p.lo → p.lo.toNat + p.len ≤ spaceSize .wb → Allocated k .wb c.bent p.lo.toNat p.len →
        (∃ r ∈ k.regions, r.macro0 ≤ p.lo.toNat / 0x10000 ∧ p.lo.toNat / 0x10000 < r.macro0 + r.count) → stops 0x17)

/-- What a global access of an engine inside one 8-byte unit does (R102, R135, R190): a read gives the bytes of its location, a write replaces them and
no others, at once or, in a turn that leaves accesses pending, later; a failed check, a home that refuses and poisoned data are the access's cause. -/
def ReachesUnits : Prop :=
  ∀ (s : State) (bay : Nat) (w : Issuer) (va : Word) (n : Nat), 0 < n → va.toNat % 8 + n ≤ 8 →
    (∀ code, s.translate bay w.bent va .read = .error code → s.gRead bay w va n = .fault code va) ∧
    (∀ code data, data.length = n → s.translate bay w.bent va .write = .error code → s.gWrite bay w va data = .fault code va) ∧
    (∀ l, s.translate bay w.bent va .read = .ok l → s.lockedOut l.pa n = false → s.mergeOverlap w.ag l.pa n = false → s.pendingOverlap w.ag l.pa n = false →
      (s.answer l.pa n = .refused → s.gRead bay w va n = .fault 0x1C va) ∧
      (s.answer l.pa n = .here → s.readPoisoned none bay l n = true → s.gRead bay w va n = .fault 0x1B va) ∧
      (s.answer l.pa n = .here → s.readPoisoned none bay l n = false → (l.cp ≠ 2 ∨ s.remote? l.pa = none) →
        (∀ x ∈ s.accums, x.meets l.pa n = false) →
        ∃ u, s.gRead bay w va n = .ok u (meetsBytes (s.touched bay w.bent va l n .read) bay l n) ∧ Touched s u ∧ ∀ slot pa, u.byteAt slot pa = s.byteAt slot pa)) ∧
    (∀ l data, data.length = n → s.translate bay w.bent va .write = .ok l → s.lockedOut l.pa n = false → s.mergeOverlap w.ag l.pa n = false →
      s.pendingOverlap w.ag l.pa n = false →
      (s.answer l.pa n = .refused → s.gWrite bay w va data = .fault 0x1C va) ∧
      (s.answer l.pa n = .here → (∀ x ∈ s.accums, x.meets l.pa n = false) → (s.defer = false ∨ s.remote? l.pa ≠ none) →
        ∃ u, s.gWrite bay w va data = .ok u [] ∧ RegistersKept s u ∧ u.bytesAt l.slot l.pa n = data ∧ OnlyWrites s u l n) ∧
      (s.answer l.pa n = .here → s.defer = true → s.remote? l.pa = none → bay < 8 →
        ∃ u a, s.gWrite bay w va data = .ok u [] ∧ u.mem = s.mem ∧ u.pending = s.pending ++ [a] ∧ a.kind = .store data ∧ a.agent = w.ag ∧
          a.no = w.no ∧ a.loc = l ∧ a.size = n ∧ a.cls = w.cls))

/-! ### Collectives and timetables -/

/-- COMMAND_ELEMENT of a COLL (R205, R406): the first step sends each other member its part of SEND, to the engine of a bay here or over the fabric; a step that awaits a
contribution passes once enough are held, and stays until then; the last writes RECV, the members' elements reduced by ROP, or joined in list order. -/
def StepsCollectives : Prop :=
  ∀ (s : State) (core : Nat) (c : Cmd), AtElement s core c → c.op = .coll → c.coll.count ≠ 0 →
    2 ≤ c.coll.nmem → c.coll.op ≤ 3 → c.coll.rop ≤ 2 → 0 < c.coll.et.bytes →
    let b := c.coll
    let bay := s.bayOf core
    let u := (s.takeHeld bay c).1
    let c1 := (s.takeHeld bay c).2
    let need := (List.range b.nmem).filter (fun i => decide (if b.op = 3 then i = 0 ∧ b.me ≠ 0 else i ≠ b.me))
    let part (data : List Byte) (i : Nat) : List Byte :=
      if b.op = 1 then (data.drop (i * b.count * b.et.bytes)).take (b.count * b.et.bytes) else data
    c.progress < need.length + 2 →
    (b.round ∈ (s.bay bay).aborted → ∃ t, exec (.commandElement core .coll) s = .next t ∧
      StopsAt s t core c 0x16 c.progress (b.round.zeroExtend 64)) ∧
    (b.round ∉ (s.bay bay).aborted →
      -- what this member sends
      (c.progress = 0 → (b.op ≠ 3 ∨ b.me = 0) → ∀ (v : State) (data : List Byte),
        u.gRead bay (byQueue c core) (BitVec.ofNat 64 b.send) ((if b.op = 1 then b.nmem else 1) * b.count * b.et.bytes) = .ok v data →
        ∃ t e, exec (.commandElement core .coll) s = .next t ∧ entryIs t core e ∧ e.progress = 1 ∧ e.got.find? b.me = some (part data b.me) ∧ t.mem = v.mem ∧
          ∀ i m, b.members[i]? = some m → i ≠ b.me →
            let msg : CollMsg := { round := b.round, src := b.me, data := part data i, det := c1.det }
            (m % 256 = s.mgmt.config.pkg → (b.round ∉ (v.bay (m / 256 % 8)).aborted → msg ∈ (t.bay (m / 256 % 8)).held)) ∧
            (m % 256 ≠ s.mgmt.config.pkg → (v.peer (v.hop (m % 256))).sends (b.nmem * packetsOf 0 data.length) = true →
              OutMsg.collStep (m % 256) (m / 256 % 8) msg ∈ t.outbox)) ∧
      (c.progress = 0 → b.op = 3 → b.me ≠ 0 → exec (.commandElement core .coll) s = .next (coreWith u core (u.core core) (advanced c1 1))) ∧
      -- what it awaits
      (1 ≤ c.progress → c.progress ≤ need.length →
        let have_ := need.countP (fun i => AMap.has c1.got i)
        (have_ < c.progress → exec (.commandElement core .coll) s = .next s) ∧
        (c.progress ≤ have_ → exec (.commandElement core .coll) s = .next (coreWith u core (u.core core) (advanced c1 (c.progress + 1))))) ∧
      -- what it receives
      (need.length < c.progress → ∀ (es : List Nat) (v : State) (x : List Byte),
        let w := b.et.bits
        let at_ (i e : Nat) : Nat := leNat (((AMap.get c1.got i []).drop (e * b.et.bytes)).take b.et.bytes)
        let col (e : Nat) : List Nat := (List.range b.nmem).map (fun i => at_ i e)
        es.length = (if b.op = 2 then b.nmem else 1) * b.count →
        (∀ i, i < b.nmem → (b.op = 3 → i = 0) → (AMap.get c1.got i []).length = b.count * b.et.bytes) →
        (b.op < 2 → ∀ e, e < b.count → ∀ y, es[e]? = some y →
          match b.et.fmt? with
          | none =>
            let num (z : Nat) : Int := if b.uns then (z : Int) else signedOf w z
            y < 2 ^ w ∧ (b.rop = 0 → y = (col e).sum % 2 ^ w) ∧
            (b.rop = 1 → y ∈ col e ∧ ∀ z ∈ col e, num y ≤ num z) ∧ (b.rop = 2 → y ∈ col e ∧ ∀ z ∈ col e, num z ≤ num y)
          | some f =>
            let vs := (col e).map f.decode
            let r := match b.rop with
              | 0 => if c1.det then canonSum f vs else assocSum f (Config.sumSplit (u.free + e)) vs
              | 1 => vs.tail.foldl FVal.min (vs.headD .zero)
              | _ => vs.tail.foldl FVal.max (vs.headD .zero)
            y = (f.deliver .rne false 0 r).1) →
        (b.op = 2 → ∀ i e, i < b.nmem → e < b.count → es[i * b.count + e]? = some (at_ i e)) →
        (b.op = 3 → ∀ e, e < b.count → es[e]? = some (at_ 0 e)) →
        ({ u with free := u.free + b.count }).gWrite bay (byQueue c core) (BitVec.ofNat 64 b.recv) ((es.map (leBytes b.et.bytes)).flatten) = .ok v x →
          c1.stats = none → exec (.commandElement core .coll) s = .next (coreWith v core (v.core core) (advanced c1 (c.progress + 1)))))

/-- COMMAND_ELEMENT of a COLL.ABT (R409): a member of this package has cleared the round at its engine, one that can be reached has been sent the abort, and the
command moves on; one that no package answers for is awaited. -/
def AbortsRounds : Prop :=
  ∀ (s : State) (core : Nat) (c : Cmd) (m : Nat), AtElement s core c → c.op = .collAbt → c.coll.members[c.progress]? = some m →
    let pkg := m % 256
    let bay := m / 256 % 8
    let r := c.coll.round
    (pkg = s.mgmt.config.pkg → ∃ t e, exec (.commandElement core .abort) s = .next t ∧ entryIs t core e ∧ e.progress = c.progress + 1 ∧
      r ∈ (t.bay bay).aborted ∧ (∀ x ∈ (t.bay bay).held, x.round ≠ r) ∧ RegistersKept s t ∧ t.mem = s.mem) ∧
    (pkg ≠ s.mgmt.config.pkg → s.reachable pkg 1 = true → ∃ t e, exec (.commandElement core .abort) s = .next t ∧ entryIs t core e ∧
      e.progress = c.progress + 1 ∧ t.outbox = s.outbox ++ [.collAbort pkg bay { round := r, src := c.coll.me }] ∧ t.mem = s.mem) ∧
    (pkg ≠ s.mgmt.config.pkg → s.reachable pkg 1 = false → exec (.commandElement core .abort) s = .next s)

/-- COMMAND_ELEMENT of a SILL.LOAD (R206, R392, R393): the next channel of the range holds the timetable, its entries, and the granules of the segment that lie in it
in ascending order; a channel that is not there, one in a running state and one that holds another bent's timetable take cause 0x09 at the element. -/
def LoadsChannels : Prop :=
  ∀ (s : State) (core : Nat) (c : Cmd), AtElement s core c → c.op = .sillLoad → c.progress < c.xb.toNat / 2 ^ 16 % 512 →
    let ch := c.xb.toNat % 512 + c.progress
    let y := s.sill ch
    let runs := y.st = .armed ∨ y.st = .running ∨ y.st = .holding
    let refused := s.mgmt.chans ≤ ch ∨ y.st ≠ .empty ∧ (y.bent ≠ c.bent ∨ runs)
    (refused → ∃ t, exec (.commandElement core .sill) s = .next t ∧ StopsAt s t core c 0x09 c.progress 0) ∧
    (¬ refused → ∃ u : Sill, exec (.commandElement core .sill) s =
        .next (coreWith { s with sills := s.sills.put ch u } core (s.core core) (advanced c (c.progress + 1))) ∧
      u.st = .loaded ∧ u.bent = c.bent ∧ u.header = c.block.take 224 ∧ u.lm = [] ∧ u.sr = [] ∧ u.stats = none ∧ u.lock = none ∧
      (∀ i, i < ttNent c.block → u.entries[i]? = some (BitVec.ofNat 64 (leNat ((c.block.drop (224 + 8 * i)).take 8)))) ∧
      u.entries.length = ttNent c.block ∧ u.locs = c.locs ∧ u.dropped = c.unmapped ∧ (u.granules.map Prod.fst).Pairwise (· < ·) ∧
      ∀ va pa, (va, pa) ∈ u.granules ↔ ∃ i l size, i < ttSegn c.block ∧ va = ttSegb c.block + 256 * i ∧ c.locs.find? va = some (l, size) ∧ l.pa = pa ∧
        (channelOf s.mgmt.chans pa).1 = ch)

/-- COMMAND_ELEMENT of a SILL.GO (R206, R393): the next channel is armed for the start timestamp with the captured SILL.GTO, whatever state it was loaded in; a
stop request ends an armed or holding channel at once, a running one at the end of its pass, and leaves any other alone. -/
def ArmsChannels : Prop :=
  ∀ (s : State) (core : Nat) (c : Cmd), AtElement s core c → c.op = .sillGo → c.progress < c.xb.toNat / 2 ^ 16 % 512 →
    let ch := c.xb.toNat % 512 + c.progress
    let y := s.sill ch
    let stop := c.xa = 0xFFFFFFFFFFFFFFFF
    let ends (u : Sill) : Prop := exec (.commandElement core .sill) s =
      .next (coreWith { s with sills := s.sills.put ch u } core (s.core core) (advanced c (c.progress + 1)))
    (s.mgmt.chans ≤ ch → ∃ t, exec (.commandElement core .sill) s = .next t ∧ StopsAt s t core c 0x09 c.progress 0) ∧
    (ch < s.mgmt.chans → ¬ stop → ends { y with
      st := .armed, prior := (if y.st = .armed ∨ y.st = .running ∨ y.st = .holding then y.prior else y.st), peg := c.peg, seq := c.seq, core := core
      start := c.xa.toNat, gto := c.sillGto, stopReq := false, doneOwed := false }) ∧
    (ch < s.mgmt.chans → stop → y.bent = c.bent → y.doneOwed = false →
      (y.st = .running → ends { y with stopReq := true }) ∧
      (y.st = .armed ∨ y.st = .holding → ends { y with st := .running, lock := none, stats := none, doneOwed := true })) ∧
    (ch < s.mgmt.chans → stop → (y.bent ≠ c.bent ∨ y.st = .empty ∨ y.st = .loaded ∨ y.st = .done ∨ y.st = .stopped) →
      exec (.commandElement core .sill) s = .next (coreWith s core (s.core core) (advanced c (c.progress + 1))))

/-- The commands whose last part is done with their last element (R182, R185, R195, R205, R206): no KRUN, no COLL.ABT, no SST that writes its scale, no COLL
that writes its FLAG, no SILL.GO that comes too late or a stop request that waits. -/
def endsAtOnce (s : State) (c : Cmd) : Prop :=
  match c.op with
  | .krun | .collAbt => False
  | .sst _ => c.scale = none
  | .coll => c.coll.flag = 0
  | .sillGo => s.goLate c = false ∧ s.stopWaits c = false
  | _ => True

/-- An entry at the head of its queue that has performed every element, with no access of its own and no statistics outstanding. -/
def AtEnd (s : State) (core : Nat) (c : Cmd) : Prop :=
  (s.core core).head c.op.queue = some c ∧ s.mayRun core c = true ∧ c.st = .running ∧ c.ready = true ∧ s.cmdTotal core c ≤ c.progress ∧
    s.unperformed (.queue core c.op.queue) c.no = false ∧ c.stats = none

/-- An entry has completed (R182, R185): it has left the journal, COMP of its queue is its number, and its SINC is added to semSSEM; an addition that would pass
65 535 leaves the count and pends cause 0x13. -/
def Completed (s t : State) (core : Nat) (c : Cmd) : Prop :=
  let n := c.ws.ssem.toNat
  let sum := (s.core core).sem n + c.ws.sinc.toNat
  (t.core core).entry c.seq = none ∧ (t.core core).compOf (queueNo c.op.queue) = c.seq ∧ RegistersKept s t ∧
    (∀ e ∈ (s.core core).journal, e.seq ≠ c.seq → e ∈ (t.core core).journal) ∧
    (∀ m, (t.core core).sem m = if m = n ∧ n ≠ 255 ∧ sum ≤ 65535 then sum else (s.core core).sem m) ∧
    (n ≠ 255 → 65535 < sum → Pended s t c.peg (entryTrap c 0x13 0 0))

/-- The command signals no semaphore, or one that no bridge of its bent counts (R346). -/
def Unbridged (s : State) (c : Cmd) : Prop :=
  c.ws.ssem.toNat ≠ 255 → ∀ r, s.bents.find? c.bent = some r → ∀ b ∈ r.brg, b.toNat % 256 ≠ c.ws.ssem.toNat

/-- COMMAND_COMPLETE (R182, R185): a command that owes nothing more completes. -/
def CompletesCommands : Prop :=
  ∀ (s : State) (core : Nat) (c : Cmd), Unbridged s c → AtEnd s core c → endsAtOnce s c →
    ∃ t, exec (.commandComplete core c.op.queue) s = .next t ∧ Completed s t core c ∧ t.mem = s.mem ∧ t.bents = s.bents

/-- What else COMMAND_COMPLETE does (R195, R205, R206): SST with Q writes its scale as an f32 at a SCALE that is not zero, COLL its FLAGV at FLAG, and then they
complete; a COLL.ABT completes without a COMP, and with it the stopped COLLs of its block; a SILL.GO whose start is past disarms its channels and stops with cause 0x09 at element 0. -/
def CompletesWithEffects : Prop :=
  ∀ (s : State) (core : Nat) (c : Cmd), AtEnd s core c →
    let d := Dsc.parse c.da 0
    (∀ q x exact u data, Unbridged s c → c.op = .sst q → c.scale = some x → (∃ dw, q = .pow2 dw ∧ exact = false ∨ ∃ m, q = .exact m dw ∧ exact = true) →
      d.scale ≠ 0 → c.scaled = false →
      s.gWrite (s.bayOf core) (byQueue c core) (BitVec.ofNat 64 d.scale)
        (leBytes 4 (if exact then x else (Fmt.f32.deliver .rne false 0 (scaleVal false x)).1)) = .ok u data → (exact = false → x < 256) →
        ∃ t, exec (.commandComplete core .store) s = .next t ∧ Completed u t core c ∧ t.mem = u.mem) ∧
    (∀ u data, Unbridged s c → c.op = .coll → c.coll.flag ≠ 0 → (∀ m ∈ s.recordMerges, m.cmd = some c.no → m.lost = true) →
      s.gWrite (s.bayOf core) (byQueue c core) (BitVec.ofNat 64 c.coll.flag) (leBytes 8 c.coll.flagv) = .ok u data →
        ∃ t, exec (.commandComplete core .coll) s = .next t ∧ Completed u t core c ∧ t.mem = u.mem) ∧
    (c.op = .collAbt → c.ws.ssem = 255 → ∃ t, exec (.commandComplete core .abort) s = .next t ∧ RegistersKept s t ∧ t.mem = s.mem ∧ t.pegs = s.pegs ∧
      (∀ e, e ∈ (t.core core).journal ↔ e ∈ (s.core core).journal ∧ e.seq ≠ c.seq ∧
        ¬ ∃ e' ∈ (s.core core).journal, e'.seq = e.seq ∧ e'.op = .coll ∧ e'.st = .stopped ∧ e'.xa = c.xa) ∧
      (t.core core).sems = (s.core core).sems) ∧
    (c.op = .sillGo → c.xa ≠ 0xFFFFFFFFFFFFFFFF → c.xb.toNat / 2 ^ 16 % 512 ≠ 0 → c.progress = c.xb.toNat / 2 ^ 16 % 512 → c.xa.toNat ≤ s.timestamp →
      ∃ t, exec (.commandComplete core .sill) s = .next t ∧ RegistersKept s t ∧ t.mem = s.mem ∧ Pended s t c.peg (entryTrap c 0x09 0 0) ∧
        entryIs t core { c with st := .stopped, progress := 0, ahead := [], trap := some (entryTrap c 0x09 0 0) } ∧
        ∀ i, i < c.xb.toNat / 2 ^ 16 % 512 → (t.sill (c.xb.toNat % 512 + i)).st = (s.sill (c.xb.toNat % 512 + i)).prior)

/-- The end of a command that gathered statistics (R326, R327): their merge is issued to the record that its destination names; a check of it that fails stops the
command at its last element, and a replay, its element progress kept, performs only the merge. -/
def MergesStatistics : Prop :=
  ∀ (s : State) (core : Nat) (c : Cmd) (st : Stats), (s.core core).head c.op.queue = some c → s.mayRun core c = true → c.st = .running → c.ready = true →
    s.cmdTotal core c ≤ c.progress → s.unperformed (.queue core c.op.queue) c.no = false → c.stats = some st → st.count ≠ 0 → c.merged = false → Unbridged s c →
    (c.op = .scpy ∨ c.op = .sred ∨ c.op = .sst .none) →
      let va := BitVec.ofNat 64 (Dsc.parse c.da 0).scribe
      let bay := s.bayOf core
      (Dsc.parse c.da 0).scribe ≠ 0 →
      (∀ code, s.access bay c.bent va 128 .both = .error code → ∃ t, exec (.commandComplete core c.op.queue) s = .next t ∧ RegistersKept s t ∧
        t.mem = s.mem ∧ t.recordMerges = s.recordMerges ∧ Pended s t c.peg (entryTrap c code c.progress va) ∧
        ∃ e, entryIs t core e ∧ e.st = .stopped ∧ e.progress = c.progress ∧ e.stats = some st ∧ e.merged = false) ∧
      (∀ l, s.access bay c.bent va 128 .both = .ok l → ∃ t m, exec (.commandComplete core c.op.queue) s = .next t ∧ Completed s t core c ∧ t.mem = s.mem ∧
        t.recordMerges = s.recordMerges ++ [m] ∧ m.agent = .queue core c.op.queue ∧ m.peg = c.peg ∧ m.bent = c.bent ∧ m.cmd = some c.no ∧ m.cls = c.cls ∧
        m.va = va ∧ m.loc = l ∧ m.stats = st ∧ m.lost = false)

end Sys2Proof.Claims

/-- R182 to R187, R191 to R200, R204 to R206, R211, R297, R370, R406, R409: commands start when their wait is met and their reservation is granted, check their operands, perform their
elements one after another or stop at one, and complete with their signal. -/
def Obligations.CommandsRun : Prop :=
  StartsCommands ∧ ChecksOperands ∧ (AllocatesRanges ∧ FreesRanges ∧ SetsEngineState) ∧
  (MovesElements ∧ QuantisesElements ∧ MergesElements ∧ MovesBlocks ∧ MovesScales ∧ StopsAtElements ∧ ReachesUnits) ∧
  (StepsCollectives ∧ AbortsRounds ∧ LoadsChannels ∧ ArmsChannels) ∧ CompletesCommands ∧ CompletesWithEffects ∧ MergesStatistics

namespace Sys2Proof.Claims

/-- JIG_RUN_START (R203, R204, R304, R315): the head run with its reservation makes its table the active one and takes the finish words that stand. When its checks
pass it runs from step 0, or is done if it has no steps; a check that fails stops it with its cause at step 0. A run with SMODE 3 computes its scale from the
record first, once, and stops with cause 0x0C where that is stale. -/
def StartsRuns : Prop :=
  ∀ (s : State) (core : Nat) (c : Cmd), (s.core core).head .matrix = some c → isRun c.op = true → c.st = .running → c.held = true →
    c.ready = false → s.mayRun core c = true →
      let k := s.core core
      let c1 := if c.progress = 0 ∧ c.scale = none ∧ c.stats = none then { c with finCw := k.finCw, finScale := k.finScale } else c
      let shown := k.showRun (s.jig core c) 0
      let s1 := s.setCore core shown
      let j := s1.jig core c1
      let w := c1.finCw.toNat
      let smode3 := j.fin = true ∧ w / 2 ^ 8 % 4 = 3 ∧ c1.scale = none
      let tagged := j.fin = true ∧ w / 2 ^ 21 % 2 = 1 ∧ c1.stats = none ∧ j.scrb ≠ 0
      shown.jigActive = c.table ∧ shown.jigSteps = 0 ∧
      (∀ code, j.check shown = some code → ∃ t, exec (.jigRunStart core) s = .next t ∧ StopsAt s1 t core { c1 with asked := none } code 0 0) ∧
      (j.check shown = none → (j.empty = true ∨ ¬ smode3 ∧ ¬ tagged) →
        exec (.jigRunStart core) s = .next (coreWith s core shown { c1 with ready := true, asked := none })) ∧
      (j.check shown = none → j.empty = false → smode3 → ¬ tagged → w / 2 ^ 21 % 2 = 0 →
        let va := BitVec.ofNat 64 j.scrb
        (j.scrb % 128 ≠ 0 → ∃ t, exec (.jigRunStart core) s = .next t ∧ StopsAt s1 t core { c1 with asked := none } 0x05 0 va) ∧
        (j.scrb % 128 = 0 → ∀ u data, s1.gReadAs (s.bayOf core) (byQueue c core) .home (va + 4) 8 = .ok u data →
          let win := if w / 2 ^ 15 % 2 = 1 then c.win else w / 2 ^ 13 % 4
          let stale := staleEpoch (c1.finScale.toNat % 2 ^ 32) (leNat (data.take 4)) win
          let x := qscaleOf (ET.ofCode (w % 16)) (decide (w / 2 ^ 10 % 2 = 1)) (w / 2 ^ 11 % 4) (leNat ((data.drop 4).take 4))
          (stale = true → ∃ t, exec (.jigRunStart core) s = .next t ∧ StopsAt s1 t core { c1 with asked := none } 0x0C 0 va) ∧
          (stale = false → exec (.jigRunStart core) s = .next (coreWith u core (u.core core) { c1 with scale := some x, ready := true, asked := none }))))

/-- The index of level `l` at step `n` of a run (R300): level 0 fastest, a level that runs downward from its last value. -/
def loopIndex (j : Jig) (n l : Nat) : Nat :=
  let x := n / (j.cnt.take l).prod % j.cnt.getD l 1
  if j.down.getD l false then j.cnt.getD l 1 - 1 - x else x

/-- Σ iL × STRX(L) at a step (R301). -/
def offsetAt (j : Jig) (n : Nat) (st : List Int) : Int := ((List.range 6).map (fun l => (loopIndex j n l : Int) * st.getD l 0)).sum

/-- A run whose next step may be taken: the head of the matrix engine, running with its reservation, on a core that does not refuse runs (R311). -/
def AtStep (s : State) (core : Nat) (c : Cmd) : Prop :=
  (s.core core).head .matrix = some c ∧ isRun c.op = true ∧ c.st = .running ∧ c.held = true ∧ c.ready = true ∧ s.mayRun core c = true ∧
    c.progress < (s.jig core c).cnt.prod ∧ (s.core core).refuse = false

/-- The value of an accumulator element before a step: +0 where the step is the first of a run with ZERO that reaches it (R305). -/
def heldBy (k : Core) (c : Cmd) (zero : Bool) (f : Fmt) (addr : Nat) : FVal :=
  let n := (f.ebits + f.mbits + 1) / 8
  if zero = true ∧ c.touched.find? (addr / n) = none then f.decode 0 else f.decode (leNat (k.readBuf .acc addr n))

/-- A core after a step that finishes nothing: its accumulators as the step leaves them, a window that nobody owned the bent's, JIG.STAT and the indices
at the next step, and nothing else changed but its journal. -/
def AfterStep (s t : State) (core : Nat) (c : Cmd) (j : Jig) (addr : Nat) : Prop :=
  let k := s.core core
  let k' := t.core core
  let w := addr / 4096
  RegistersKept s t ∧ t.mem = s.mem ∧ t.pegs = s.pegs ∧ (∀ i, i ≠ core → t.core i = s.core i) ∧
  k'.srf = k.srf ∧ k'.wb = k.wb ∧ k'.scaleRows = k.scaleRows ∧ k'.regions = k.regions ∧ k'.allocs = k.allocs ∧ k'.srfFmt = k.srfFmt ∧
  (∀ v, v ≠ w → k'.ownEntry v = k.ownEntry v) ∧ ownedBy (k'.ownEntry w) c.bent = true ∧ k'.jigActive = c.table ∧
  k'.jigSteps = BitVec.ofNat 32 (c.progress + 1) ∧ (∀ l, l < 6 → k'.jigIdx.get l 0 = BitVec.ofNat 64 (loopIndex j (c.progress + 1) l)) ∧
  ∃ e, entryIs t core e ∧ e.progress = c.progress + 1 ∧ e.st = .running ∧ e.op = c.op ∧ e.table = c.table ∧ e.stats = c.stats ∧ e.gens = c.gens ∧
    e.outputs = c.outputs ∧ e.trap = none

/-- JIG_STEP on the tile path at f32 and f64 (R301, R302, R305, R307): each C element of the step is its old value with the products of its row of A and its column of
B added by fused steps in ascending k; nothing else of the accumulators, and no other buffer, has changed, and the run is at its next step. -/
def StepsTiles : Prop :=
  ∀ (s : State) (core : Nat) (c : Cmd) (wide : Bool), AtStep s core c → c.trap = none → c.bent < 2 ^ 24 →
    let j := s.jig core c
    let k := s.core core
    let n := c.progress
    let f := if wide then Fmt.f64 else Fmt.f32
    let m : Nat := if wide then 8 else 16
    let u : Nat := if wide then 8 else 4
    let a := ((j.baseA : Int) + u * offsetAt j n j.sA).toNat
    let b := ((j.baseB : Int) + u * offsetAt j n j.sB).toNat
    let x := ((j.baseC : Int) + u * offsetAt j n j.sC).toNat
    let el (p i : Nat) : FVal := f.decode (leNat (k.readBuf .srf (p + u * i) u))
    j.tile = true → j.eta = (if wide then .f64 else .f32) → j.etb = j.eta → j.acc64 = wide → j.fin = false → j.zm = false →
    0 ≤ (j.baseB : Int) + u * offsetAt j n j.sB →
    ((k.ownEntry (x / 4096)).getLsbD 31 = true → ownedBy (k.ownEntry (x / 4096)) c.bent = true) →
    k.bufPoisoned .srf a (u * (m * m)) = false → k.bufPoisoned .srf b (u * (m * m)) = false → k.bufPoisoned .acc x (u * (m * m)) = false →
      ∃ t, exec (.jigStep core .ok) s = .next t ∧ AfterStep s t core c j x ∧
        (∀ r q, r < m → q < m →
          leNat ((t.core core).readBuf .acc (x + u * (r * m + q)) u) =
            convert (if wide then .f64 else .f32) false .rne false 0 (.flt
              ((List.range m).foldl (fun acc i => f.rne ((el a (r * m + i)).fma (el b (i * m + q)) acc))
                (heldBy k c j.zero f (x + u * (r * m + q)))))) ∧
        (∀ p, p < x ∨ x + u * (m * m) ≤ p → ByteMap.rd (t.core core).acc p = ByteMap.rd k.acc p)

/-- JIG_STEP on the CIM path, forward (R298, R301, R305): each column's element becomes RoundNE(acc + RoundNE(RoundNE(Σ) × S)) over the step's group of rows of the
seated region, Σ the sum of R63 to R65 of its codes and the activations, S its group's scale or 1. -/
def StepsGroups : Prop :=
  ∀ (s : State) (core : Nat) (c : Cmd) (r : Region), AtStep s core c → c.trap = none → c.bent < 2 ^ 24 →
    let j := s.jig core c
    let k := s.core core
    let n := c.progress
    let t0 := ET.ofCode r.et
    let ks := if r.gs = 0 then 32 else 16 * 2 ^ r.gs
    let b := (offsetAt j n j.sB).toNat
    let mac := r.macro0 + b / (r.k / ks)
    let k0 := ks * (b % (r.k / ks))
    let a := ((j.baseA : Int) + j.eta.bytes * offsetAt j n j.sA).toNat
    let x := ((j.baseC : Int) + 4 * offsetAt j n j.sC).toNat
    let act (i : Nat) : FVal := (j.eta.decode false (leNat (k.readBuf .srf (a + j.eta.bytes * i) j.eta.bytes))).toF
    let code (i q : Nat) : Int :=
      let bit := (i * r.n + q) * t0.bits
      let p : Spot := { row := 0x10000 * mac, bit := bit, width := t0.bits }
      match t0.decode false (p.get (k.readBuf .wb (0x10000 * mac + bit / 8) p.len)) with
      | .int v => v
      | _ => 0
    let scale (q : Nat) : FVal := if r.gs = 0 then .fin false 1 0
      else Fmt.bf16.decode (leNat (ByteMap.rdN k.scaleRows (8192 * mac + 2 * (k0 / ks * r.n + q)) 2))
    j.tile = false → c.op = .jigGo → (j.eta = .e4m3 ∨ j.eta = .e5m2 ∨ j.eta = .bf16) → j.acc64 = false → j.fin = false → j.zm = false → j.reg = some r →
    0 < r.n → 0 < r.k / ks → r.n * t0.bits % 8 = 0 →
    ((k.ownEntry (x / 4096)).getLsbD 31 = true → ownedBy (k.ownEntry (x / 4096)) c.bent = true) →
    k.bufPoisoned .srf a (j.eta.bytes * ks) = false → k.bufPoisoned .wb (0x10000 * mac + r.n * t0.bits / 8 * k0) (r.n * t0.bits / 8 * ks) = false →
    (r.gs ≠ 0 → k.scalesPoisoned (8192 * mac + 2 * (b % (r.k / ks) * r.n)) (2 * r.n) = false) → k.bufPoisoned .acc x (4 * r.n) = false →
      ∃ t, exec (.jigStep core .ok) s = .next t ∧ AfterStep s t core c j x ∧
        (∀ q, q < r.n →
          let sum := Fmt.f32.rne (cimSum (decide (j.eta = .bf16)) ((List.range ks).map (fun i => { code := code (k0 + i) q, act := act i })))
          leNat ((t.core core).readBuf .acc (x + 4 * q) 4) = convert .f32 false .rne false 0 (.flt
            (Fmt.f32.rne ((heldBy k c j.zero .f32 (x + 4 * q)).add (Fmt.f32.rne (sum.mul (scale q))))))) ∧
        (∀ p, p < x ∨ x + 4 * r.n ≤ p → ByteMap.rd (t.core core).acc p = ByteMap.rd k.acc p)

/-- JIG_STEP (R305, R311, R317): a core that refuses runs stops the run with cause 0x0E at its step; every step changes no register of a control core
and no byte of memory. -/
def StepsRuns : Prop :=
  ∀ (s : State) (core : Nat) (c : Cmd) (res : ResidueCheck), (s.core core).head .matrix = some c → isRun c.op = true → c.st = .running →
    c.held = true → c.ready = true → s.mayRun core c = true → c.progress < (s.jig core c).total →
      ∃ t, exec (.jigStep core res) s = .next t ∧ RegistersKept s t ∧ t.mem = s.mem ∧
        ((s.core core).refuse = true →
          entryIs t core { c with st := .stopped, ahead := [], trap := some (entryTrap c 0x0E c.progress 0) } ∧
          Pended s t c.peg (entryTrap c 0x0E c.progress 0))

/-- JIG_STEP that finishes, with SMODE 0 or 1, no bias, activation or clamp (R306, R312, R314): D element i of the step is the converted C element i, as updated, times FIN.SCALE
with SMODE 1, each under its own generator step where the mode is stochastic; nothing else of the SRF has changed. -/
def FinishesTiles : Prop :=
  ∀ (s t : State) (core : Nat) (c : Cmd), AtStep s core c → exec (.jigStep core .ok) s = .next t →
    let j := s.jig core c
    let k := t.core core
    let n := c.progress
    let w := c.finCw.toNat
    let o := ET.ofCode (w % 16)
    let m := RMode.ofField (BitVec.ofNat 2 (w / 2 ^ 4 % 4)) c.rnd
    let x := ((j.baseC : Int) + 4 * offsetAt j n j.sC).toNat
    let d := ((j.baseD : Int) + o.bytes * offsetAt j n j.sD).toNat
    let gen (i : Nat) : Word32 := (List.range (if m = .sr then i / 32 + 1 else 1)).foldl (fun g _ => xorShift32 g)
      (c.gens.get ((c.outputs + i) % 32) (seedLane c.seed ((c.outputs + i) % 32) c.seq))
    (∀ e, (t.core core).entry c.seq = some e → e.st = .running) →
    j.tile = true → j.eta = .f32 → j.acc64 = false → j.fin = true → o.isC = false → 0 < o.bytes →
    (∀ l, l < 6 → j.sC.getD l 0 = 0 → n / (j.cnt.take l).prod % j.cnt.getD l 1 = j.cnt.getD l 1 - 1) →
    w / 2 ^ 8 % 4 ≤ 1 → w / 2 ^ 16 % 2 = 0 → w / 2 ^ 17 % 8 = 0 → w / 2 ^ 20 % 2 = 0 →
      (∀ i, i < 256 →
        let v := Fmt.f32.decode (leNat (k.readBuf .acc (x + 4 * i) 4))
        let v := if w / 2 ^ 8 % 4 = 1 then Fmt.f32.rne (v.mul (Fmt.f32.decode (c.finScale.toNat % 2 ^ 32))) else v
        leNat (k.readBuf .srf (d + o.bytes * i) o.bytes) = convert o false m (decide (w / 2 ^ 6 % 2 = 1)) (gen i) (.flt v)) ∧
      (∀ p, p < d ∨ d + o.bytes * 256 ≤ p → ByteMap.rd k.srf p = ByteMap.rd (s.core core).srf p)

end Sys2Proof.Claims

/-- R203, R204, R298, R300 to R307, R311 to R317: the start and the steps of jig runs. -/
def Obligations.JigRuns : Prop := StartsRuns ∧ StepsRuns ∧ StepsTiles ∧ StepsGroups ∧ FinishesTiles

/-! ## Kernel contexts -/

namespace Sys2Proof.Claims

/-- CONTEXT_LAUNCH (R33, R201, R202): the running KRUN at the head of the launcher, with a place, room under MAXCTX and no tagged output, starts its
context: at its entry, with the arguments from scalar register 1 up, in its role, class and window, first to issue. -/
def LaunchesContexts : Prop :=
  ∀ (s : State) (core : Nat) (c : Cmd) (r : Bent) (first slot base : Nat), (s.core core).head .launcher = some c → c.st = .running →
    s.mayRun core c = true → s.bents.find? c.bent = some r → s.ctxRoom c.bent = true →
    (let g := 2 ^ c.launch.gsz
     (s.core core).findPlace (if c.launch.gk = 0xFF then rangeFrom 0 (8 / g) else [c.launch.gk]) g c.launch.vwin = some (first, slot, base)) →
    (∀ o ∈ c.launch.outs, o.scrb = 0) →
      ∃ t x, exec (.contextLaunch core) s = .next t ∧ (t.core core).ctxs = (s.core core).ctxs ++ [x] ∧ RegistersKept s t ∧ t.mem = s.mem ∧
        x.uid = s.stamp ∧ x.pc = c.launch.entry ∧ x.bent = c.bent ∧ x.peg = c.peg ∧ x.seq = c.seq ∧ x.role = c.launch.role ∧ x.cls = c.cls ∧
        x.first = first ∧ x.slot = slot ∧ x.base = base ∧ x.size = 2 ^ c.launch.gsz ∧ x.vwin = c.launch.vwin ∧ x.ins = c.launch.ins ∧
        x.outs = c.launch.outs ∧ x.accw = c.launch.accw ∧ x.flags = 0 ∧ x.w = 0 ∧ x.frozen = false ∧ x.flight = [] ∧
        (∀ e ∈ x.cl, ∀ j, 1 ≤ j → AMap.get e.s j 0 = (c.launch.args[j - 1]?).getD 0) ∧
        entryIs t core { c with ctx := some s.stamp, progress := 1, asked := none }

/-- CONTEXT_HALT (R263): a context that has ended, with no access of its own outstanding, is gone with its memberships, and its KRUN has halted, its
reservation free; it owes the statistics of its tagged outputs, and a context with none owes nothing. -/
def HaltsContexts : Prop :=
  ∀ (s : State) (core uid : Nat) (x : Context) (c : Cmd), (s.core core).ctx? uid = some x → x.ended = true → x.frozen = false → x.srfx = [] →
    (s.core core).entry x.seq = some c →
      ∃ t e, exec (.contextHalt core uid) s = .next t ∧ (t.core core).ctx? uid = none ∧ RegistersKept s t ∧ t.mem = s.mem ∧
        (∀ bay n, (t.phaser bay n).member (.context uid) = none) ∧
        (t.core core).entry x.seq = some e ∧ e.halted = true ∧ e.held = false ∧ e.seq = c.seq ∧ e.ws = c.ws ∧
        ((∀ o ∈ x.outs, o.stats = none) → e.owed = []) ∧
        (x.flight = [] → (∀ o ∈ x.outs, ET.ofCode o.et ≠ .e2m1) → e.owed = x.outs.filterMap (fun o => o.stats.map (fun st => (o.scrb, st))))

/-- BUNDLE_ISSUE (R217, R270, R277, R348): a context that may issue does so with W := 0 in this clock; an error kept from an access of it, and a fetch past
the image space, freeze it with their trap, which joins its peg's; whatever the bundle does, no register of a control core changes. A bundle
that begins inside the space and ends past it takes 0x03 where its header's upper half is clear (log 100). -/
def IssuesBundles : Prop :=
  ∀ (s : State) (core uid : Nat) (x : Context), (s.core core).ctx? uid = some x → s.mayIssue core x = true → x.mustStall = false →
    ∃ t, exec (.bundleIssue core uid) s = .next t ∧ RegistersKept s t ∧ t.clk = s.clk ∧
      (∀ y, (t.core core).ctx? uid = some y → y.w = 0 ∧ y.issuedAt = some s.clk) ∧
      (∀ u rest, x.deferred = u :: rest → x.flight = [] → u.code ≠ 0x0B → ∃ y v, (t.core core).ctx? uid = some y ∧ y.frozen = true ∧ y.pc = x.pc ∧
        y.deferred = rest ∧ y.trap = some v ∧ v.kind = 1 ∧ v.code = u.code ∧ v.addr = u.addr ∧ v.seq = some x.seq ∧ Pended s t x.peg v) ∧
      (x.deferred = [] → x.flight = [] →
        (0x20000 ≤ x.pc ∨ (let h := (imageWord (s.imageOf core x.bent) x.pc).toNat; h < 2 ^ 31 ∧ 0x20000 < x.pc + bundleLen h)) →
        ∃ y v, (t.core core).ctx? uid = some y ∧ y.frozen = true ∧ y.pc = x.pc ∧
          y.trap = some v ∧ v.kind = 1 ∧ v.code = 0x03 ∧ v.addr = 0 ∧ v.seq = some x.seq ∧ Pended s t x.peg v)

/-- STALL_STEP (R380): a compatibility-mode context whose next results need more steps makes one, and issues nothing. -/
def StallsContexts : Prop :=
  ∀ (s : State) (core uid : Nat) (x : Context), (s.core core).ctx? uid = some x → s.mayIssue core x = true → x.mustStall = true →
    ∃ t, exec (.stallStep core uid) s = .next t ∧ RegistersKept s t ∧ t.mem = s.mem ∧ t.pegs = s.pegs ∧
      (t.core core).ctx? uid = some { x with w := 0, issuedAt := some s.clk, steps := x.steps + 1, stalled := true }

/-- IMEM_LINE_FILL (R375, R376): the line that a context's next fetch misses is in a frame of the core, read under its bent's key; a locked frame stays. -/
def FillsLines : Prop :=
  ∀ (s : State) (core uid line : Nat) (x : Context) (r : Bent), (s.core core).ctx? uid = some x → s.bents.find? x.bent = some r →
    s.missingLine core x = some line →
    ∃ t, exec (.imemLineFill core uid) s = .next t ∧ RegistersKept s t ∧ t.mem = s.mem ∧ (t.core core).ctxs = (s.core core).ctxs ∧
      (∃ f ∈ (t.core core).frames, f.bent = x.bent ∧ f.line = line ∧ f.key = s.keyOf r.key) ∧
      (∀ f ∈ (s.core core).frames, f.locked = true → ¬ (f.bent = x.bent ∧ f.line = line) →
        ((s.core core).frames.map (fun g => (g.bent, g.line))).Nodup → f ∈ (t.core core).frames)

/-- SEMARM_FLAG_SET and PHARM_FLAG_SET (R273, R274): an armed watch whose semaphore or phase is reached sets its flag and is disarmed. -/
def SetsWatchFlags : Prop :=
  ∀ (s : State) (core uid f : Nat) (x : Context), (s.core core).ctx? uid = some x →
    (∀ n thr, x.semWatch.find? f = some (n, thr) → thr ≤ (s.core core).sem n →
      ∃ t, exec (.semarmFlagSet core uid f) s = .next t ∧ RegistersKept s t ∧ t.mem = s.mem ∧
        (t.core core).ctx? uid = some { x with flags := x.flags ||| BitVec.ofNat 16 (2 ^ f), semWatch := x.semWatch.erase f }) ∧
    (∀ n l, x.phWatch.find? f = some (n, l) → phaseReached (s.phaser (s.bayOf core) n) l = true →
      ∃ t, exec (.pharmFlagSet core uid f) s = .next t ∧ RegistersKept s t ∧ t.mem = s.mem ∧
        (t.core core).ctx? uid = some { x with flags := x.flags ||| BitVec.ofNat 16 (2 ^ f), phWatch := x.phWatch.erase f })

/-- SRFX_FLAG_SET (R102, R268 to R270): a context's oldest access of one 8-byte unit whose home answers performs: a store's bytes are in memory, a load's in the
SRF; its flag is set and it is outstanding no more. Of one of two units an event may perform one, which sets no flag. One whose home refuses it
keeps cause 0x1C for the next issue instead, and one that reads poison 0x1B. -/
def PerformsContextAccesses : Prop :=
  ∀ (s : State) (core uid f : Nat) (x : Context) (o : SrfxOp) (rest : List SrfxOp), (s.core core).ctx? uid = some x →
    x.srfx = o :: rest → o.flag = some f →
    (∀ p ∈ o.parts, s.lockedOut p.loc.pa p.len = false ∧ ∀ a ∈ s.accums, a.meets p.loc.pa p.len = false) →
      let bay := s.bayOf core
      let local_ (p : SrfxPart) : Prop := p.loc.cp ≠ 2 ∨ s.remote? p.loc.pa = none
      let flagged (t : State) : Prop := (t.core core).ctx? uid = some { x with srfx := rest, flags := x.flags ||| BitVec.ofNat 16 (2 ^ f) }
      let late (code : Nat) : Prop := ∃ t y u, exec (.srfxFlagSet core uid 0) s = .next t ∧ RegistersKept s t ∧ t.mem = s.mem ∧
        (t.core core).ctx? uid = some y ∧ y.srfx = rest ∧ y.flags = x.flags ∧ y.deferred = x.deferred ++ [u] ∧ u.code = code ∧ u.addr = o.va
      (∀ p, o.parts = [p] → p.off = 0 → p.len = o.size → o.size ≠ 0 →
        (s.answer p.loc.pa o.size = .here → ∀ data, o.kind = .store data → data.length = o.size →
          ∃ t, exec (.srfxFlagSet core uid 0) s = .next t ∧ RegistersKept s t ∧ flagged t ∧ t.bytesAt p.loc.slot p.loc.pa o.size = data ∧
            OnlyWrites s t p.loc o.size) ∧
        (s.answer p.loc.pa o.size = .here → s.poisoned p.loc.pa o.size = false → local_ p → ∀ a, o.kind = .gld a →
          ∃ t, exec (.srfxFlagSet core uid 0) s = .next t ∧ RegistersKept s t ∧ flagged t ∧ t.mem = s.mem ∧
            (t.core core).readBuf .srf a o.size = meetsBytes s bay p.loc o.size) ∧
        (s.answer p.loc.pa o.size = .here → s.poisoned p.loc.pa o.size = true → local_ p → (∃ a, o.kind = .gld a) → late 0x1B) ∧
        (s.answer p.loc.pa o.size = .refused → late 0x1C)) ∧
      (∀ p q data, o.parts = [p, q] → o.kind = .store data → data.length = p.len + q.len → p.off = 0 → q.off = p.len → s.defer = true →
        s.answer p.loc.pa p.len = .here → s.answer q.loc.pa q.len = .here →
        ∃ t, exec (.srfxFlagSet core uid 0) s = .next t ∧ RegistersKept s t ∧
          ∃ m other, (m = p ∧ other = q ∨ m = q ∧ other = p) ∧ t.bytesAt m.loc.slot m.loc.pa m.len = (data.drop m.off).take m.len ∧
            OnlyWrites s t m.loc m.len ∧ (t.core core).ctx? uid = some { x with srfx := { o with parts := [other] } :: rest })

end Sys2Proof.Claims

/-- R33, R202, R263, R376, R380: contexts launch, stall, miss lines and halt. -/
def Obligations.ContextsLiveAndEnd : Prop := LaunchesContexts ∧ HaltsContexts ∧ StallsContexts ∧ FillsLines

/-- R217, R268 to R274, R277: contexts issue bundles, and their accesses and watches set flags. -/
def Obligations.ContextsIssueAndWatch : Prop := IssuesBundles ∧ SetsWatchFlags ∧ PerformsContextAccesses

/-! ## The typed buffers -/

namespace Sys2Proof.Claims

/-- Events that may write any typed buffer: the elements of commands, a dispatch that restores a saved core, and the loss of power. -/
def writesAnyBuffer : Instr → Bool
  | .commandElement _ _ | .pegDispatch _ | .powerUp _ | .resetInput _ | .powerRemoval => true
  | _ => false

/-- Events that may also write the SRF: issues, halts and accesses of contexts, and steps of jig runs. -/
def writesSrf : Instr → Bool
  | .bundleIssue _ _ | .contextHalt _ _ | .srfxFlagSet _ _ _ | .jigStep _ _ => true
  | _ => false

/-- Events that may also write accumulators: issues, steps of jig runs, and first uses of windows. -/
def writesAcc : Instr → Bool
  | .bundleIssue _ _ | .jigStep _ _ | .accFirstUse _ _ => true
  | _ => false

/-- Instructions and events that may clear windows: those that end pegs or bents, and migration. -/
def clearsWindows : Instr → Bool
  | .exit | .bentKill _ | .kill _ | .killBent _ | .bentRecordWriteback _ | .pegMigration _ _ => true
  | _ => false

/-- The core whose buffers alone an event may write. -/
def writerCore : Instr → Option Nat
  | .commandElement c _ | .pegDispatch c | .bundleIssue c _ | .contextHalt c _ | .srfxFlagSet c _ _ | .jigStep c _ | .accFirstUse c _ => some c
  | _ => none

end Sys2Proof.Claims

/-- R89 to R93, R193, R370: the typed buffers and the formats of their banks. Whatever an instruction or an event does, it leaves every SRF, WB, scale row, bank
format and accumulator as it was, but for the writers named; a window that ends with its bent, its allocation or its migration reads +0 and has no owner. -/
def Obligations.TypedBuffersAreKept : Prop :=
  ∀ (s t : State) (i : Instr), exec i s = .next t → ∀ c,
    let k := s.core c
    let m := t.core c
    (writesAnyBuffer i = false → m.wb = k.wb ∧ m.scaleRows = k.scaleRows ∧ m.srfFmt = k.srfFmt ∧ (writesSrf i = false → m.srf = k.srf)) ∧
    (writesAnyBuffer i = false → writesAcc i = false →
      (clearsWindows i = false → m.acc = k.acc) ∧
      (∀ a, ByteMap.rd m.acc a = ByteMap.rd k.acc a ∨ (ByteMap.rd m.acc a = 0 ∧ m.ownEntry (a / 4096) = 0))) ∧
    (∀ w, writerCore i = some w → w ≠ c → m.srf = k.srf ∧ m.wb = k.wb ∧ m.scaleRows = k.scaleRows ∧ m.srfFmt = k.srfFmt ∧ m.acc = k.acc)

/-! ## The memory system's own events -/

namespace Sys2Proof.Claims

/-- The deferred data trap of an access of a peg (R434): kind 0, TRAP.ADDR the access's, ranked by its place in program order. -/
def dataTrap (a : Access) (code : Nat) : Trap :=
  { kind := 0, code := code, info := 0x1000, addr := a.va, seq := none, rank := a.no, deferred := true }

/-- The pegs after a trap has become pending for one of them. -/
def pegsWith (s : State) (id : Nat) (p : Peg) (u : Trap) : AMap Peg := s.pegs.put id { p with pending := p.pending ++ [u] }

/-- An entry that no walk may use at a level (R74, R75): not valid, reserved bits, a table pointer at the last level or with leaf bits; a leaf at the top
level or not aligned to its page, a contiguous one above the last level, CP 3, or a writable read-only-cacheable one. -/
def Malformed (e : BitVec 64) (sh : Nat) : Prop :=
  let n := e.toNat
  n % 2 = 0 ∨ 2 ^ 60 ≤ n ∨ n / 2 ^ 10 % 2 = 1 ∨
  (if n / 2 ^ 4 % 2 = 1 then sh = 12 ∨ n / 2 ^ 5 % 2 ^ 7 ≠ 0 ∨ n / 2 ^ 52 % 2 ^ 8 ≠ 0
   else sh = 39 ∨ n % 2 ^ 52 / 2 ^ 12 * 2 ^ 12 % 2 ^ sh ≠ 0 ∨ (n / 2 ^ 5 % 2 = 1 ∧ sh ≠ 12) ∨ n / 2 ^ 8 % 4 = 3 ∨
     (n / 2 ^ 8 % 4 = 2 ∧ n / 2 ^ 2 % 2 = 1))

/-- One level of a walk (R73 to R76): the entry of the table at the level's index, whose absence, poison or form stops the walk with its cause at this level; a
pointer leads to the next table, a leaf gives the page, or its group of 64 KiB, around the address. A table at an absent address takes 0x06
(log 88). -/
def WalksTables : Prop :=
  ∀ (s : State) (root va sh w table : Nat) (rest : List (Nat × Nat)),
    let at_ := table + 8 * (va / 2 ^ sh % 2 ^ w)
    let e := s.pte at_
    let n := e.toNat
    let pa := n % 2 ^ 52 / 2 ^ 12 * 2 ^ 12
    let walk := s.walkFrom root va ((sh, w) :: rest) table
    let level := 3 - rest.length
    let size := if n / 2 ^ 5 % 2 = 1 then 2 ^ 16 else 2 ^ sh
    (s.absent at_ = true → walk = .stop 0x06 level) ∧
    (s.absent at_ = false → s.poisoned (s.home at_) 8 = true → walk = .stop 0x1B level) ∧
    (s.absent at_ = false → s.poisoned (s.home at_) 8 = false →
      (Malformed e sh → walk = .stop 0x06 level) ∧
      (¬ Malformed e sh → n / 2 ^ 4 % 2 = 1 → walk = s.walkFrom root va rest pa) ∧
      (¬ Malformed e sh → n / 2 ^ 4 % 2 = 0 → s.absent pa = true → walk = .stop 0x06 level) ∧
      (¬ Malformed e sh → n / 2 ^ 4 % 2 = 0 → s.absent pa = false →
        walk = .page { root := root, base := va / size * size, size := size, leaf := e }))

/-- PAGE_WALK (R73, R104, R105): with a walker free and no translation in the bay's TLB, the walk of a page begins, and holds what the tables say then; the
walk that has begun ends: its page is first in the TLB, a fault enters nothing. -/
def InstallsTranslations : Prop :=
  ∀ (s : State) (bay b : Nat) (va : Word), va.toNat < 2 ^ 56 →
    let y := s.bay bay
    let root := s.root b
    let mine (w : Walk) : Prop := w.root = root ∧ w.page = va.toNat / 4096
    let missed : Prop := ∀ t ∈ y.tlb, ¬ (t.root = root ∧ t.base ≤ va.toNat ∧ va.toNat < t.base + t.size)
    (∀ r, s.bents.find? root = some r → (∀ w ∈ y.walks, ¬ mine w) → missed → y.walks.length < 8 →
      exec (.pageWalk bay b va) s = .next { s with bays := s.bays.put bay { y with
        walks := y.walks ++ [{ root := root, page := va.toNat / 4096
                               result := s.walkFrom root va.toNat [(39, 17), (30, 9), (21, 9), (12, 9)] r.ptroot }] } }) ∧
    ((∀ w ∈ y.walks, ¬ mine w) → (8 ≤ y.walks.length ∨ ¬ missed) → exec (.pageWalk bay b va) s = .next s) ∧
    (∀ pre w post, y.walks = pre ++ w :: post → mine w → (∀ v ∈ pre ++ post, ¬ mine v) →
      ∃ t, exec (.pageWalk bay b va) s = .next t ∧ RegistersKept s t ∧ t.mem = s.mem ∧ (∀ c, c ≠ bay → t.bay c = s.bay c) ∧
        (t.bay bay).walks = pre ++ post ∧
        (∀ e, w.result = .page e → missed → (t.bay bay).tlb = (e :: y.tlb).take 4096) ∧
        (∀ c l, w.result = .stop c l → t.bay bay = { y with walks := pre ++ post }))

/-- HOME_ACCESS (R281, R282, R426, R434): a pending access that can meet its home leaves the list and performs: a store's bytes are in memory, a load
gives its core the bytes, an atomic does both, a compare-and-swap writes only where its old value is the expected one; a poisoned unit
that it reads becomes a deferred trap instead. -/
def PerformsPendingAccesses : Prop :=
  ∀ (s : State) (i : Nat) (a : Access), s.pending[i]? = some a → s.canPerform a = true → s.answer a.loc.pa a.size = .here →
    (∀ x ∈ s.accums, x.meets a.loc.pa a.size = false) →
      let rest := s.pending.eraseIdx i
      let old := leNat (s.bytesAt a.loc.slot a.loc.pa a.size)
      let bad := s.poisoned a.loc.pa a.size
      let plain : Prop := a.loc.cp ≠ 2 ∨ s.remote? a.loc.pa = none
      let loaded (t : State) (d : LoadDest) : Prop :=
        (t.core a.core).x = ((s.core a.core).putLoad d old).x ∧ (t.core a.core).f = ((s.core a.core).putLoad d old).f
      (∀ data, a.kind = .store data → data.length = a.size → ∃ t, exec (.homeAccess i .ok) s = .next t ∧ t.pending = rest ∧
        t.bytesAt a.loc.slot a.loc.pa a.size = data ∧ OnlyWrites s t a.loc a.size ∧ RegistersKept s t) ∧
      (∀ d, a.kind = .load d → bad = false → plain → a.lost = false →
        exec (.homeAccess i .ok) s =
          .next { s with
            pending := rest
            cores := s.cores.put a.core ((s.core a.core).putLoad d (leNat (meetsBytes s (s.bayOf a.core) a.loc a.size))) }) ∧
      (∀ op b d, a.kind = .amo op b d → bad = false → a.lost = false → ∃ t, exec (.homeAccess i .ok) s = .next t ∧ t.pending = rest ∧
        leNat (t.bytesAt a.loc.slot a.loc.pa a.size) = aop op a.size old b.toNat % 2 ^ (8 * a.size) ∧ OnlyWrites s t a.loc a.size ∧ loaded t d) ∧
      (∀ e n d, a.kind = .cas e n d → bad = false → a.lost = false → ∃ t, exec (.homeAccess i .ok) s = .next t ∧ t.pending = rest ∧
        leNat (t.bytesAt a.loc.slot a.loc.pa a.size) =
          (if old = e.toNat % 2 ^ (8 * a.size) then n.toNat % 2 ^ (8 * a.size) else old) ∧ OnlyWrites s t a.loc a.size ∧ loaded t d) ∧
      (∀ id p, a.agent = .peg id → s.pegs.find? id = some p → bad = true → plain → a.kind.isWrite = false → a.lost = false →
        (∀ u ∈ p.pending, ¬ (u.deferred = true ∧ u.rank = a.no)) →
        exec (.homeAccess i .ok) s = .next { s with pending := rest, pegs := pegsWith s id p (dataTrap a 0x1B) })

/-- FABRIC_ERROR_ANSWER and FABRIC_TIMEOUT (R403): an access of a peg that its home refuses, or that has had no answer for 100 µs, takes cause 0x1C as
a deferred trap; the one is gone, the other, unless it is a load, may still perform once. -/
def FailsPendingAccesses : Prop :=
  ∀ (s : State) (i id : Nat) (a : Access) (p : Peg), s.pending[i]? = some a → a.agent = .peg id → s.pegs.find? id = some p → a.lost = false →
    (∀ u ∈ p.pending, ¬ (u.deferred = true ∧ u.rank = a.no)) →
    (s.answer a.loc.pa a.size = .refused → exec (.fabricErrorAnswer i) s =
      .next { s with pending := s.pending.eraseIdx i, pegs := pegsWith s id p (dataTrap a 0x1C) }) ∧
    (s.answer a.loc.pa a.size = .silent → a.sent + 100000 ≤ s.elapsed → exec (.fabricTimeout i) s =
      .next { s with
        pending := if a.kind.isRead then s.pending.eraseIdx i else s.pending.set i { a with lost := true }
        pegs := pegsWith s id p (dataTrap a 0x1C) })

/-- MERGE_AT_HOME (R70, R147, R289, R405): an accepted merge performs at its home once, as AOp on its location, or, when it is deterministic and
floating, exactly into an accumulator, memory waiting; a router may first combine two merges into one that stands for both. -/
def PerformsMerges : Prop :=
  ∀ (s : State) (i : Nat) (m : Merge), s.merges[i]? = some m →
    let exact := m.det = true ∧ (m.op = .fadd ∨ m.op = .bfadd2)
    let ready : Prop := s.answer m.loc.pa m.size = .here ∧ m.size ≠ 0 ∧ s.mergeWaits m = false ∧ s.poisoned m.loc.pa m.size = false
    (ready → (∀ a ∈ s.accums, a.meets m.loc.pa m.size = false) →
        ∃ t, exec (.mergeAtHome i none) s = .next t ∧ t.merges = s.merges.eraseIdx i ∧ RegistersKept s t ∧
          (¬ exact → OnlyWrites s t m.loc m.size ∧ leNat (t.bytesAt m.loc.slot m.loc.pa m.size) =
            aop m.op m.size (leNat (s.bytesAt m.loc.slot m.loc.pa m.size)) m.operand.toNat % 2 ^ (8 * m.size)) ∧
          (exact → t.mem = s.mem ∧ ∃ a ∈ t.accums, a.pa = m.loc.pa ∧ a.size = m.size ∧ a.slot = m.loc.slot)) ∧
    (∀ a, ready → exact → m.op = .fadd → s.accums = [a] → a.pa = m.loc.pa → a.size = m.size → a.two = false →
      ∃ t, exec (.mergeAtHome i none) s = .next t ∧ t.merges = s.merges.eraseIdx i ∧ RegistersKept s t ∧ t.mem = s.mem ∧
        ∃ b, t.accums = [b] ∧ b.pa = a.pa ∧ b.size = a.size ∧ b.slot = a.slot ∧
          b.lo = ExactSum.of (a.lo.val.add
            ((if m.size = 8 then Fmt.f64 else if m.size = 2 then .bf16 else .f32).decode (m.operand.toNat % 2 ^ (8 * m.size))))) ∧
    (∀ j n, s.merges[j]? = some n → i ≠ j → s.combinable m n = true → ∃ c : Merge,
      exec (.mergeAtHome i (some j)) s = .next { s with merges := (s.merges.set i c).eraseIdx j } ∧
        c.parties = m.parties ++ n.parties ∧ c.op = m.op ∧ c.loc = m.loc ∧ c.size = m.size ∧
        c.operand = BitVec.ofNat 64 (aop m.op m.size m.operand.toNat n.operand.toNat))

/-- SCRUB (R424, R425) changes no data: a corrected error is counted, an uncorrectable one poisons its 8-byte unit, counted once, in HBM4 or in a typed
buffer; an address where no HBM4 is has no such event. LINE_EVICTION (R99) takes one line out of a bay's L2 slice, or of a core's data cache. -/
def ScrubsAndEvicts : Prop :=
  (∀ (s : State) (pa a : Nat), s.region pa = .hbm a →
    let m := s.mgmt
    exec (.scrub pa .ok) s = .next s ∧
    exec (.scrub pa .corrected) s = .next { s with mgmt := { m with corrected := m.corrected + 1 } } ∧
    (s.poisoned a 1 = false → exec (.scrub pa .uncorrectable) s =
      .next { s with poison := s.poison.put (a / 8) (), mgmt := { m with poisonings := m.poisonings + 1 } }) ∧
    (s.poisoned a 1 = true → exec (.scrub pa .uncorrectable) s = .next s) ∧
    (∀ u, ∃ t, exec (.scrub pa (.storage u)) s = .next t ∧ RegistersKept s t ∧ t.mem = s.mem ∧ t.pegs = s.pegs ∧ t.pending = s.pending ∧
      ∀ c, (t.core c).srf = (s.core c).srf ∧ (t.core c).wb = (s.core c).wb ∧ (t.core c).acc = (s.core c).acc ∧
        (t.core c).scaleRows = (s.core c).scaleRows) ∧
    (∀ core sp n, 8 * n < (match sp with | .acc => 0xC0000 | _ => 0x200000) → (s.core core).bufPoisoned sp (8 * n) 8 = false →
      ∃ t, exec (.scrub pa (.storage (.buffer core sp n))) s = .next t ∧ (t.core core).bufPoisoned sp (8 * n) 8 = true ∧
        t.mgmt.poisonings = m.poisonings + 1 ∧
        ∀ j, j ≠ n → (t.core core).bufPoisoned sp (8 * j) 8 = (s.core core).bufPoisoned sp (8 * j) 8)) ∧
  (∀ (s : State) (pa : Nat) (e : EccCheck), (∀ a, s.region pa ≠ .hbm a) → exec (.scrub pa e) s = .fault (.absentLocation pa)) ∧
  (∀ (s : State) (bay line : Nat),
    exec (.lineEviction bay { line := line, core := none }) s =
      .next { s with bays := s.bays.put bay { s.bay bay with l2 := (s.bay bay).l2.erase line } } ∧
    ∀ c, exec (.lineEviction bay { line := line, core := some c }) s =
      .next { s with cores := s.cores.put c { s.core c with dcache := (s.core c).dcache.erase line } })

/-- SCRIBE_MERGE (R319, R326): statistics of the record's epoch and type add to its counts, which stop at 2³² − 1, and raise its AMAX; those of
another epoch only count as dropped; those of another type change no count. -/
def PerformsScribeMerges : Prop :=
  ∀ (s : State) (i : Nat) (m : RecordMerge), s.recordMerges[i]? = some m → s.answer m.loc.pa 128 = .here → s.lockedOut m.loc.pa 128 = false →
    s.recordWaits m = false → s.poisoned m.loc.pa 128 = false → m.stats.bins.length = 24 →
      let f (u : State) (off : Nat) : Nat := recordField u m.loc off
      let top (n : Nat) : Nat := min n (2 ^ 32 - 1)
      let same := f s 0 % 256 = m.stats.et ∧ Int.bmod (f s 0 / 2 ^ 16 % 256) 256 = m.stats.eLo
      ∃ t, exec (.scribeMerge i) s = .next t ∧ t.recordMerges = s.recordMerges.eraseIdx i ∧ RegistersKept s t ∧ OnlyWrites s t m.loc 128 ∧
        f t 4 = f s 4 ∧
        (f s 4 ≠ m.stats.epoch → f t 0x1C = top (f s 0x1C + 1) ∧ ∀ k, 1 ≤ k → k < 32 → k ≠ 7 → f t (4 * k) = f s (4 * k)) ∧
        (f s 4 = m.stats.epoch → ¬ same → ∀ k, 1 ≤ k → k < 32 → f t (4 * k) = f s (4 * k)) ∧
        (f s 4 = m.stats.epoch → same → f t 8 = max (f s 8) m.stats.amax % 2 ^ 32 ∧ f t 0x0C = top (f s 0x0C + m.stats.nan) ∧
          f t 0x10 = top (f s 0x10 + m.stats.inf) ∧ f t 0x14 = top (f s 0x14 + m.stats.zero) ∧
          f t 0x18 = top (f s 0x18 + m.stats.count) ∧ f t 0x1C = f s 0x1C ∧
          ∀ k n, m.stats.bins[k]? = some n → f t (0x20 + 4 * k) = top (f s (0x20 + 4 * k) + n))

/-- ACC_FIRST_USE (R367 to R369): firmware gives the window to the work that touched it and resumes the work: a window that nobody owns, or the
toucher itself, as it is; one that another bent left spilled, with no slot of the toucher noted for it, as +0. -/
def HandsWindowsOver : Prop :=
  ∀ (s : State) (core n : Nat),
    let e := (s.core core).accOwn.get n 0
    let free (b : Nat) : Prop := e.getLsbD 31 = false ∨ (e.extractLsb' 0 24).toNat = b
    let owned (t : State) (b : Nat) : Prop := ∃ w, (t.core core).accOwn.find? n = some w ∧ w.getLsbD 31 = true ∧ w.getLsbD 32 = false ∧
      (w.extractLsb' 0 24).toNat = b % 2 ^ 24
    (∀ uid x, (s.core core).ctx? uid = some x → x.accWait = some n →
      (free x.bent → ∃ t, exec (.accFirstUse core (.context uid)) s = .next t ∧ RegistersKept s t ∧ t.mem = s.mem ∧ owned t x.bent ∧
        (t.core core).acc = (s.core core).acc ∧
        (t.core core).ctx? uid = some { x with frozen := false, trap := none, accWait := none }) ∧
      (∀ r, ¬ free x.bent → e.getLsbD 32 = true → s.bents.find? x.bent = some r → r.spills.find? (256 * core + n) = none →
        ∃ t, exec (.accFirstUse core (.context uid)) s = .next t ∧ RegistersKept s t ∧ t.mem = s.mem ∧ owned t x.bent ∧
          (∀ a, 4096 * n ≤ a → a < 4096 * n + 4096 → ByteMap.rd (t.core core).acc a = 0) ∧
          (∀ a, a < 4096 * n ∨ 4096 * n + 4096 ≤ a → ByteMap.rd (t.core core).acc a = ByteMap.rd (s.core core).acc a) ∧
          (t.core core).ctx? uid = some { x with frozen := false, trap := none, accWait := none })) ∧
    (∀ q c u, (s.core core).head q = some c → c.trap = some u → c.st = .stopped → u.code = 0x0B → u.addr.toNat = n → c.held = true →
      free c.bent → ∃ t, exec (.accFirstUse core (.command q)) s = .next t ∧ RegistersKept s t ∧ t.mem = s.mem ∧ owned t c.bent ∧
        entryIs t core { c with st := .running, trap := none })

/-- R366, R369: firmware notes the slot of the owner's save area that it spills a window into; loading the window gives the toucher the bytes of the slot noted
for it, which is then free, and changes no other window. -/
def SpillsAndLoadsWindows : Prop :=
  ∀ (s : State) (core w owner : Nat) (h : SaveHeader), w < 192 → s.saveHeader owner = some (s, h) →
    (∀ t, s.spillWindow core w owner = some t →
      ∃ r i, t.bents.find? owner = some r ∧ r.spills.find? (256 * core + w) = some i ∧ i < h.nas ∧ RegistersKept s t ∧
        (∀ c, (t.core c).acc = (s.core c).acc)) ∧
    (∀ t, s.loadWindow core core w owner = some t → RegistersKept s t ∧
      (∃ e, (t.core core).accOwn.find? w = some e ∧ e.getLsbD 31 = true ∧ (e.extractLsb' 0 24).toNat = owner % 2 ^ 24) ∧
      (∀ a, a < 4096 * w ∨ 4096 * w + 4096 ≤ a → ByteMap.rd (t.core core).acc a = ByteMap.rd (s.core core).acc a) ∧
      (∀ i g, s.taggedSlot core w owner = .slot i g →
        (∀ r, t.bents.find? owner = some r → r.spills.find? (256 * core + w) = none) ∧
        (∀ u d, s.saveGet owner (g.afo + 4096 * i) 4096 = some (u, d) → (t.core core).readBuf .acc (4096 * w) 4096 = d)))

end Sys2Proof.Claims

/-- R70, R73 to R76, R99, R104, R281, R282, R289, R403, R405, R424 to R426: walks, accesses and merges at home, failed answers, scrubbing. That a
merge may be combined at any moment, and an access perform at any moment that its order allows, is the model's schedule (log 1). -/
def Obligations.MemoryEvents : Prop :=
  WalksTables ∧ InstallsTranslations ∧ PerformsPendingAccesses ∧ FailsPendingAccesses ∧ PerformsMerges ∧ ScrubsAndEvicts

/-- R326, R366 to R369: statistics merges at home, accumulator windows at first use, and their spill slots. -/
def Obligations.RecordsAndWindows : Prop := PerformsScribeMerges ∧ HandsWindowsOver ∧ SpillsAndLoadsWindows

/-! ## Scheduling -/

namespace Sys2Proof.Claims

/-- A dispatched peg on its core: bound to it, with no request to stop and nothing halted; every other core's registers and pegs as they were, the peg
running with PSAVE clear in a record whose ST is 2, and its bent charged (R28, R29, R338 to R341). -/
def Dispatched (s u : State) (core id : Nat) (p : Peg) (r : Bent) (l : Loc) : Prop :=
  ∃ q b, (u.core core).peg = some id ∧ (u.core core).preempt = none ∧ (u.core core).preemptFor = none ∧ (u.core core).halted = false ∧
    (u.core core).sems = (s.core core).sems ∧
    (∀ c, c ≠ core → (u.core c).x = (s.core c).x ∧ (u.core c).pc = (s.core c).pc ∧ (u.core c).peg = (s.core c).peg) ∧
    u.pegs.find? id = some q ∧ q.st = .running ∧ q.psave = false ∧ q.pin = p.pin ∧ q.core = p.core ∧ q.frameNo = none ∧ q.coreFrameNo = none ∧
    q.coreFrame = none ∧ q.pending = p.pending ∧
    leNat (u.bytesAt l.slot (l.pa + 0x0C) 4) % 64 = 2 + (if p.pin then 16 else 0) ∧
    u.bents.find? p.bent = some b ∧ b.dispatches = r.dispatches + 1 ∧ b.effPrio = r.prio ∧ b.lastDispatch = s.stamp + 1

/-- PEG_DISPATCH with PSAVE = 0 (R28, R108, R109, R338 to R341): the best-ranked eligible peg of an idle core, PIN, CORE and PSAVE read from its record,
runs there with its record's PC, FP and A0 to A3, its own trap cause, information and address, every other register at its dispatch value. A
record that R8 or R339 refuses, or that fails its check, ends the bent instead (R433). -/
def DispatchesPegs : Prop :=
  ∀ (s : State) (core id : Nat) (p0 : Peg) (r : Bent), s.idle core = true → s.mgmt.phase = .service → s.pegs.find? id = some p0 →
    let p := s.viewed p0
    best s.pegBefore (s.readyPegs.filter (fun e => s.eligible e.1 e.2 core)) = some (id, p) → s.bents.find? p.bent = some r →
    s.recordHeld p = false →
      (∀ c, s.recordLoc (s.bayOf core) p .both = .error c → ∃ u, exec (.pegDispatch core) s = .next u ∧ Drained s u p.bent ∧
        RegistersKept s u) ∧
      (∀ l, s.recordLoc (s.bayOf core) p .both = .ok l → (∀ a ∈ s.accums, a.meets l.pa 64 = false) →
        let t := PegRecord.parse (s.bytesAt l.slot l.pa 64)
        ((t.refused = true ∨ 4 ≤ t.st) → ∃ u, exec (.pegDispatch core) s = .next u ∧ Drained s u p.bent ∧ RegistersKept s u) ∧
        (t.refused = false → t.st < 4 → p.psave = false → ∃ u, exec (.pegDispatch core) s = .next u ∧ Dispatched s u core id p r l ∧
          OnlyWrites s u l 64 ∧
          (let k := u.core core
           k.pc = t.pc ∧ k.getX 3 = t.fp ∧ k.getX 10 = t.a0 ∧ k.getX 11 = t.a1 ∧ k.getX 12 = t.a2 ∧ k.getX 13 = t.a3 ∧
           (∀ n, n ≠ 3 → n < 10 ∨ 13 < n → k.getX n = 0) ∧ (∀ n, k.getF n = 0) ∧ (∀ n, k.getD n = 0) ∧
           k.regs = { (State.reset.core core).regs with trapCause := p.cause, trapInfo := p.info, trapAddr := p.addr } ∧
           k.journal = (s.core core).journal ∧ k.allocs = (s.core core).allocs)))

/-- PEG_DISPATCH with PSAVE = 1 (R29, R371, R372): the peg frame gives back x, f, d, the state registers and the pc, and a core frame its
allocations, the bytes of its SRF and WB ranges with their formats, its regions, scale rows and entries. A frame of another stepping holds the
peg back and runs nothing; one that cannot be read ends the bent. -/
def ResumesPegs : Prop :=
  ∀ (s : State) (core id : Nat) (p0 : Peg) (r : Bent) (l : Loc), s.idle core = true → s.mgmt.phase = .service → s.pegs.find? id = some p0 →
    let p := s.viewed p0
    best s.pegBefore (s.readyPegs.filter (fun e => s.eligible e.1 e.2 core)) = some (id, p) → s.bents.find? p.bent = some r →
    s.recordHeld p = false → s.recordLoc (s.bayOf core) p .both = .ok l →
    (PegRecord.parse (s.readLoc l 64).2).refused = false → (PegRecord.parse (s.readLoc l 64).2).st < 4 → p.psave = true →
      ((s.readLoc l 64).1.framesOf p = none → ∃ u, exec (.pegDispatch core) s = .next u ∧ Drained s u p.bent ∧ RegistersKept s u) ∧
      (∀ s1 d step, (s.readLoc l 64).1.framesOf p = some (s1, d, step) →
        ((leNat (d.take 4) ≠ devStep.toNat ∨ step ≠ devStep.toNat) → ∃ u q, exec (.pegDispatch core) s = .next u ∧
          u.pegs.find? id = some q ∧ q.held = true ∧ q.st = p.st ∧ (u.core core).peg = none ∧ RegistersKept s u) ∧
        (leNat (d.take 4) = devStep.toNat → step = devStep.toNat → (∀ f, p.coreFrame = some f → f.spilled = []) →
          ∃ u, exec (.pegDispatch core) s = .next u ∧ Dispatched s u core id p r l ∧
            (let k := u.core core
             k.pc = field64 d 0x670 &&& 0x00FFFFFFFFFFFFFC ∧ k.getX 0 = 0 ∧ (∀ n : RegNo, n ≠ 0 → k.getX n = field64 d (8 * n.toNat)) ∧
             (∀ n : RegNo, k.getF n = field64 d (0x100 + 8 * n.toNat)) ∧
             (∀ n : BitVec 4, (k.getD n).toNat = leNat ((d.drop (0x200 + 64 * n.toNat)).take 64)) ∧ k.regs = frameRegs d ∧
             (p.coreFrame = none → k.allocs = (s1.core core).allocs ∧ k.journal = (s1.core core).journal ∧ k.srf = (s1.core core).srf) ∧
             (∀ f, p.coreFrame = some f → k.allocs = (s1.core core).allocs ++ f.allocs ∧ k.regions = (s1.core core).regions ++ f.regions ∧
               k.srf = putRanges (s1.core core).srf f.srf (allocRanges f.allocs .srf) ∧
               k.wb = putRanges (s1.core core).wb f.wb (allocRanges f.allocs .wb) ∧
               k.srfFmt = putRanges (s1.core core).srfFmt f.srfFmt (coarser 0x20000 (allocRanges f.allocs .srf)) ∧
               k.scaleRows = putRanges (s1.core core).scaleRows f.scaleRows (scaleRanges f.allocs) ∧
               k.finCw = f.finCw ∧ k.finScale = f.finScale ∧ (∀ c ∈ f.cmds, c.restore ∈ k.journal) ∧
               (∀ c ∈ (s1.core core).journal, c ∈ k.journal)))))

/-- The order of R340: the bent of higher effective priority, then the one dispatched longest ago, then the lower number; within a bent, the oldest
peg. The chosen element of a list is one of it, and no other is before it. -/
def RanksPegs : Prop :=
  (∀ (s : State) (a b : Nat × Peg),
    (a.2.bent = b.2.bent → (s.pegBefore a b = true ↔ a.2.age < b.2.age)) ∧
    (∀ x y, a.2.bent ≠ b.2.bent → s.bents.find? a.2.bent = some x → s.bents.find? b.2.bent = some y →
      (s.pegBefore a b = true ↔ y.effPrio < x.effPrio ∨ x.effPrio = y.effPrio ∧
        (x.lastDispatch < y.lastDispatch ∨ x.lastDispatch = y.lastDispatch ∧ a.2.bent < b.2.bent)))) ∧
  (∀ (key : Nat × Peg → Nat) (l : List (Nat × Peg)) (e : Nat × Peg), best (fun a b => decide (key a < key b)) l = some e →
    e ∈ l ∧ ∀ d ∈ l, key e ≤ key d)

/-- PRIORITY_AGEING (R341): when the longest-waiting ready peg of a bent in a bay's pool has waited a full AGE interval since the last dispatch or
rise, the bent's effective priority rises by one level, not above its parent's PRIO, or above 15 for a root. -/
def AgesPriorities : Prop :=
  ∀ (s : State) (bay bent : Nat) (r : Bent) (cap t : Nat), s.bents.find? bent = some r → r.drain = false →
    let age := 1000 * ((s.bay bay).age.toNat % 2 ^ 16)
    let waits (e : Nat × Peg) : Prop := e.2.bent = bent ∧ e.2.st = .ready ∧ e.2.pool = some bay ∧ e.2.held = false
    (r.parent = none ∧ cap = 15 ∨ ∃ q b, r.parent = some q ∧ s.bents.find? q = some b ∧ cap = b.prio) →
    (∃ e ∈ s.pegs, waits e ∧ e.2.readySince = t) → (∀ e ∈ s.pegs, waits e → t ≤ e.2.readySince) →
      (age ≠ 0 → max r.agedAt t + age ≤ s.elapsed → exec (.priorityAgeing bay bent) s = .next { s with
        bents := s.bents.put bent { r with
          effPrio := if r.effPrio < cap then r.effPrio + 1 else r.effPrio, agedAt := max r.agedAt t + age } }) ∧
      ((age = 0 ∨ s.elapsed < max r.agedAt t + age) → exec (.priorityAgeing bay bent) s = .next s)

/-- PREEMPTION_REQUEST (R342, R364): with no idle core eligible for a ready peg that stops no other peg already, a running peg that yields to it, of
lowest effective priority, is asked to stop at its next boundary; nothing else changes. While that peg stops, the ready one asks no other. -/
def RequestsPreemption : Prop :=
  ∀ (s : State) (id : Nat) (p0 : Peg), s.pegs.find? id = some p0 →
    let p := s.viewed p0
    ((∃ e ∈ s.cores, e.2.preemptFor = some id) → exec (.preemptionRequest id) s = .next s) ∧
    (p.st = .ready → p.pool.isSome = true → p.held = false → (∀ e ∈ s.cores, e.2.preemptFor ≠ some id) →
      (∀ c, c < s.coreCount → s.idle c = true → s.eligible id p c = false) →
      (∃ e ∈ s.cores, ∃ q, e.2.peg = some q ∧ s.yields id p e.1 q = true) →
      (∀ e ∈ s.cores, ∀ q v, e.2.peg = some q → s.yields id p e.1 q = true → s.pegs.find? q = some v → s.framesFree e.1 q v = true) →
        ∃ e ∈ s.cores, ∃ q v, e.2.peg = some q ∧ s.yields id p e.1 q = true ∧ s.pegs.find? q = some v ∧
          exec (.preemptionRequest id) s =
            .next { s with cores := s.cores.put e.1 { s.core e.1 with preempt := some s.clk, preemptFor := some id } } ∧
          ∀ e' ∈ s.cores, ∀ q' v', e'.2.peg = some q' → s.yields id p e'.1 q' = true → s.pegs.find? q' = some v' →
            s.prioOf v.bent ≤ s.prioOf v'.bent)

/-- CONTEXT_REST_FREEZE and PREEMPTION_ESCALATED (R364, R373): a context of a peg asked to stop freezes at a rest point, and at any issue boundary
when WIN clocks have passed since the request; one of a draining bent is discarded instead. -/
def FreezesContexts : Prop :=
  ∀ (s : State) (core uid : Nat) (x : Context) (r : Bent), (s.core core).ctx? uid = some x → s.mustRest core x = true → x.frozen = false →
    x.ended = false → s.bents.find? x.bent = some r →
      let stops (i : Instr) : Prop := ∃ t, exec i s = .next t ∧ RegistersKept s t ∧ t.mem = s.mem ∧ t.pegs = s.pegs ∧
        (r.drain = false → (t.core core).ctx? uid = some { x with frozen := true } ∧ t.bays = s.bays) ∧
        (r.drain = true → (t.core core).ctx? uid = none ∧ ∀ bay n, (t.phaser bay n).member (.context uid) = none)
      (s.missingLine core x = none → x.atRest (s.bundleOf core x) = true → stops (.contextRestFreeze core uid)) ∧
      (s.restSince core x + (s.core core).restWin.toNat % 2 ^ 32 ≤ s.clk → stops (.preemptionEscalated core uid))

/-- PREEMPTION_COMPLETE (R29, R364 to R366): when the control core has stopped and everything of its peg is frozen, its peg frame and, where it holds
state on the core, its core frame are written into the save area, its record holds PC, ST = 1 and PSAVE = 1, it is ready, and its core,
slots, ranges and entries are free. Without a free frame the peg keeps running, and the contexts that the request froze go on. -/
def CompletesPreemption : Prop :=
  ∀ (s0 : State) (core id : Nat) (p : Peg) (r : Bent) (l : Loc) (s1 : State) (h : SaveHeader),
    let s : State := { s0 with cur := core }
    s.me.peg = some id → s.pegs.find? id = some p → s.me.preempt.isSome = true → s.me.halted = true →
    s.me.quiet id = true → s.bents.find? p.bent = some r → r.drain = false → s0.recordHeld p = false → s.recordLoc s.myBay p .both = .ok l →
    s.saveHeader p.bent = some (s1, h) →
      let holds := s1.me.holdsFor id
      let pegFrame := freeFrame (s1.framesUsed p.bent Bent.usedFrames) h.npf
      let coreFrame := if holds then freeFrame (s1.framesUsed p.bent Bent.usedCoreFrames) h.ncf else some 0
      (pegFrame = none ∨ coreFrame = none →
        ∃ t, exec (.preemptionComplete core) s0 = .next t ∧ (t.core core).preempt = none ∧ (t.core core).preemptFor = none ∧
          (t.core core).halted = false ∧ (t.core core).peg = some id ∧ RegistersKept s0 t ∧
          (∀ x ∈ (t.core core).ctxs, x.peg = id → x.trap = none → x.accWait = none → x.frozen = false)) ∧
      (∀ n m s2, pegFrame = some n → coreFrame = some m →
        (s1.savePut p.bent (h.pfo + 4096 * n) (pegFrameBytes s1.me (if holds then some m else none))).bind (fun u =>
          if holds then u.saveCore p.bent (h.cfo + 0x800000 * m) (s1.me.saveFrame s1.cur id) else some u) = some s2 →
          ∃ t q b, exec (.preemptionComplete core) s0 = .next t ∧ RegistersKept s0 t ∧
            (∀ slot pa, pa / 32 < l.pa / 32 ∨ (l.pa + 63) / 32 < pa / 32 → (∀ a ∈ s2.accums, a.meets l.pa 64 = false) →
              t.byteAt slot pa = s2.byteAt slot pa) ∧
            (t.core core).peg = none ∧ (t.core core).preempt = none ∧ (t.core core).halted = false ∧
            (∀ a ∈ (t.core core).allocs, a.peg ≠ id) ∧ (∀ x ∈ (t.core core).ctxs, x.peg ≠ id) ∧ (∀ c ∈ (t.core core).journal, c.peg ≠ id) ∧
            t.pegs.find? id = some q ∧ q.st = .ready ∧ q.psave = true ∧ q.pin = holds ∧ q.frameNo = some n ∧
            q.coreFrameNo = (if holds then some m else none) ∧
            q.coreFrame = (if holds then some (s1.me.saveFrame s1.cur id) else none) ∧ q.pending = p.pending ∧
            q.cause = s.me.regs.trapCause ∧
            leNat (t.bytesAt l.slot l.pa 8) = s.me.pc.toNat ∧
            leNat (t.bytesAt l.slot (l.pa + 0x0C) 4) = 33 + (if holds then 16 + core % 2 ^ 16 * 2 ^ 16 else 0) ∧
            t.bents.find? p.bent = some b ∧ b.preempts = r.preempts + 1 ∧ b.usedFrames.has n = true ∧
            (holds = true → b.usedCoreFrames.has m = true))

/-- PEG_MIGRATION (R371): a pinned, saved peg that has been ready for an AGE interval with its own core unavailable moves to an idle core that can
take it: the windows that its bent owns under its allocations are spilled and cleared on the old core, then its record's CORE names the new
core, whose restore loads them. A bent without slots for them ends (R369). -/
def MigratesPegs : Prop :=
  ∀ (s : State) (id core : Nat) (p0 : Peg) (f : CoreFrame) (l : Loc), s.pegs.find? id = some p0 →
    let p := s.viewed p0
    p.coreFrame = some f → p.pin = true → p.psave = true → core ≠ p.core → core < 2 ^ 16 → s.idle core = true →
    (s.idle p.core = true → s.eligible id p p.core = false) →
    s.eligible id { p with core := core, coreFrame := some { f with fromCore := core } } core = true →
    (s.baysOf id p = [] ∨ s.bayOf core = s.bayOf p.core) → s.recordHeld p = false → (∀ c ∈ f.cmds, c.ws.wsem = 255 ∨ c.wok = true) →
    p.readySince + s.ageOf (p.pool.getD 0) ≤ s.elapsed → s.recordLoc (s.bayOf core) p .both = .ok l →
      let ws := (s.core p.core).ownedWindows p.bent f
      (s.spillAll p.core p.bent ws = none → ∃ t, exec (.pegMigration id core) s = .next t ∧ Drained s t p.bent ∧ RegistersKept s t) ∧
      (∀ s2, s.spillAll p.core p.bent ws = some s2 → (∀ a ∈ s2.accums, a.meets l.pa 64 = false) →
        ∃ t q g, exec (.pegMigration id core) s = .next t ∧ RegistersKept s t ∧ OnlyWrites s2 t l 64 ∧ t.pegs.find? id = some q ∧ q.core = core ∧
          q.st = p0.st ∧ q.coreFrame = some g ∧ g.allocs = f.allocs ∧ g.cmds = f.cmds ∧ g.ctxs = f.ctxs ∧ g.srf = f.srf ∧ g.wb = f.wb ∧
          g.fromCore = core ∧ g.spilled = f.spilled ++ ws.map (fun w => (p.core, w)) ∧
          (∀ w ∈ ws, (t.core p.core).accOwn.find? w = none) ∧
          leNat (t.bytesAt l.slot (l.pa + 0x0E) 2) = core ∧
          (∀ off, off < 0x0E ∨ (0x10 ≤ off ∧ off < 64) → t.byteAt l.slot (l.pa + off) = s2.byteAt l.slot (l.pa + off)))

end Sys2Proof.Claims

/-- R28, R338 to R341, R371, R433: dispatch, the order of the choice, and ageing. Which idle core receives a peg is the schedule's (log 1). -/
def Obligations.PegsAreScheduled : Prop := DispatchesPegs ∧ ResumesPegs ∧ RanksPegs ∧ AgesPriorities

/-- R342, R364 to R366, R371, R373: pre-emption from its request to the saved frames, and migration. What a core frame's contexts and entries look
like in memory is no rule's (log 52). -/
def Obligations.PegsArePreempted : Prop := RequestsPreemption ∧ FreezesContexts ∧ CompletesPreemption ∧ MigratesPegs

/-! ## Sill units -/

namespace Sys2Proof.Claims

/-- The entry that a running channel executes next, of a kind, its tick come and no refresh due before it (R391, R394). -/
def SillDue (s : State) (ch kind : Nat) (u : Sill) (e : Word) : Prop :=
  s.sills.find? ch = some u ∧ u.st = .running ∧ u.doneOwed = false ∧ u.tick < u.lastRefresh + 3900 ∧ u.start + u.tick ≤ s.timestamp ∧
  u.entries[u.entry]? = some e ∧ e.toNat / 2 ^ 60 = kind

/-- The machine with one channel's sill unit changed. -/
def channelNow (s : State) (ch : Nat) (v : Sill) : State := { s with sills := s.sills.put ch v }

/-- `n` bytes at `off` past an address that the channel holds translated (R392): where they are, with the home answering and no open accumulator. -/
def SillHolds (s : State) (u : Sill) (va off n : Nat) (l : Loc) : Prop :=
  u.dropped.find? va = none ∧ (∃ l0 size, u.locs.find? va = some (l0, size) ∧ l = { l0 with pa := l0.pa + off }) ∧
  s.answer l.pa n = .here ∧ ∀ a ∈ s.accums, a.meets l.pa n = false

/-- A header field of a timetable (R390). -/
def headerField (u : Sill) (off n : Nat) : Nat := leNat ((u.header.drop off).take n)

/-- SILL_WAIT and SILL_REF (R391): N ticks pass; every EVERY passes a refresh of 60 ticks is made. SILL_REFRESH_INSERT (R394) adds 60 ticks when 3900
have passed without one, and delays nothing while the channel holds. -/
def SillWaitsAndRefreshes : Prop :=
  ∀ (s : State) (ch : Nat) (u : Sill) (e : Word),
    (SillDue s ch 0 u e →
      exec (.sillWait ch) s = .next (channelNow s ch { u.land with entry := u.entry + 1, tick := u.tick + e.toNat % 2 ^ 32 })) ∧
    (SillDue s ch 5 u e → e.toNat % 2 ^ 16 ≠ 0 →
      (u.pass % (e.toNat % 2 ^ 16) = e.toNat % 2 ^ 16 - 1 → exec (.sillRef ch) s =
        .next (channelNow s ch { u.land with entry := u.entry + 1, tick := u.tick + 60, lastRefresh := u.tick + 60 })) ∧
      (u.pass % (e.toNat % 2 ^ 16) ≠ e.toNat % 2 ^ 16 - 1 → exec (.sillRef ch) s =
        .next (channelNow s ch { u.land with entry := u.entry + 1 }))) ∧
    (s.sills.find? ch = some u → u.st = .running → u.doneOwed = false → u.lastRefresh + 3900 ≤ u.tick → exec (.sillRefreshInsert ch) s =
      .next (channelNow s ch { u with tick := u.tick + 60, lastRefresh := u.tick + 60 })) ∧
    (s.sills.find? ch = some u → u.st = .holding → u.lastRefresh + 3900 ≤ max u.tick (s.timestamp - u.start) →
      exec (.sillRefreshInsert ch) s = .next (channelNow s ch { u with lastRefresh := max u.tick (s.timestamp - u.start) }))

/-- SILL_MV with one move (R388, R389): the source port's value enters the destination one tick later, a scalar register its low 32 bits; a move to
a trigger starts its unit on every lane: the adder's sum, difference, product or fused sum with o0 and o1 lands after 4 ticks, the comparer's
minimum or maximum after 1, the root of the special-function unit after 8. -/
def SillMoves : Prop :=
  ∀ (s : State) (ch : Nat) (u : Sill) (e : Word), SillDue s ch 1 u e → e.getLsbD 48 = true → e.getLsbD 49 = false →
    let a := u.land
    let dst := e.toNat % 2 ^ 8
    let src := e.toNat / 2 ^ 8 % 2 ^ 8
    let lane (d : Desc) (i : Nat) : BitVec 32 := d.extractLsb' (32 * i) 32
    let op := e.toNat / 2 ^ 32 % 2 ^ 8
    let value (d : Desc) (i : Nat) : FVal := Fmt.f32.decode (lane d i).toNat
    let lanes (d : Desc) (f : Nat → FVal) : Prop := ∀ i, i < 16 → (lane d i).toNat = (Fmt.f32.deliver .rne false 0 (f i)).1
    ∃ (v : Sill) (w : Desc), exec (.sillMv ch) s = .next (channelNow s ch v) ∧ v.entry = u.entry + 1 ∧ v.tick = u.tick + 1 ∧
      v.pass = u.pass ∧ v.lock = u.lock ∧ v.granules = u.granules ∧
      (src < 0x10 → ∀ i, i < 16 → lane w i = a.sr.get src 0) ∧ (0x40 ≤ src → src < 0x80 → w = a.lm.get (src - 0x40) 0) ∧
      (src = 0x80 → w = a.rd0) ∧ (src = 0x81 → w = a.rd1) ∧ (src = 0x82 → w = a.wb) ∧
      (src = 0x84 → ∀ i, i < 16 → lane w i = BitVec.ofNat 32 u.pass) ∧ (src = 0x9C → w = a.add.x) ∧
      (dst < 0x10 → v.sr = a.sr.put dst (lane w 0) ∧ v.lm = a.lm ∧ v.wb = a.wb) ∧
      (0x40 ≤ dst → dst < 0x80 → v.lm = a.lm.put (dst - 0x40) w ∧ v.sr = a.sr ∧ v.wb = a.wb) ∧
      (dst = 0x82 → v.wb = w ∧ v.sr = a.sr ∧ v.lm = a.lm) ∧
      (dst = 0x90 → v.add.o0 = w ∧ v.add.o1 = a.add.o1 ∧ v.add.flight = a.add.flight) ∧
      (dst = 0x98 → ∃ d : Desc, v.add.flight = a.add.flight ++ [(u.tick + 4, d)] ∧
        (op = 0 → lanes d (fun i => (value w i).add (value a.add.o0 i))) ∧
        (op = 1 → lanes d (fun i => (value w i).sub (value a.add.o0 i))) ∧
        (op = 2 → lanes d (fun i => (value w i).mul (value a.add.o0 i))) ∧
        (op = 3 → lanes d (fun i => (value w i).fma (value a.add.o0 i) (value a.add.o1 i)))) ∧
      (dst = 0xA8 → ∃ d : Desc, v.cmp.flight = a.cmp.flight ++ [(u.tick + 1, d)] ∧
        (op = 0 → lanes d (fun i => (value w i).min (value a.cmp.o0 i))) ∧
        (op = 1 → lanes d (fun i => (value w i).max (value a.cmp.o0 i)))) ∧
      (dst = 0xB8 → ∃ d : Desc, v.sfn.flight = a.sfn.flight ++ [(u.tick + 8, d)] ∧ (op = 0 → lanes d (fun i => (value w i).sqrt)))

/-- Results land at their tick (R389, R394): a unit shows the last one whose tick has come, and keeps its value while none has. -/
def SillResultsLand : Prop :=
  ∀ (u : Sill) (t : Nat) (d : Desc) (b : Bool),
    (u.add.flight = [(t, d)] → u.land.add.x = if t ≤ u.tick then d else u.add.x) ∧
    (u.rdFlight = [(t, b, d)] → u.land.rd0 = (if t ≤ u.tick ∧ b = false then d else u.rd0) ∧
      u.land.rd1 = (if t ≤ u.tick ∧ b = true then d else u.rd1)) ∧
    u.land.sr = u.sr ∧ u.land.lm = u.lm ∧ u.land.wb = u.wb ∧ u.land.tick = u.tick

/-- SILL_RD, SILL_WR and SILL_LDS (R391, R394, R399): a line of the pass's granule is read, to be seen 24 ticks later, with LOCK locking the granule;
wb is written to a line, and to nothing else, with UNLOCK unlocking it; 4 bytes enter a scalar register. -/
def SillAccesses : Prop :=
  ∀ (s : State) (ch : Nat) (u : Sill) (e : Word) (l : Loc),
    let line := 64 * (e.toNat % 4)
    (∀ va pa, SillDue s ch 2 u e → u.granules[u.pass]? = some (va, pa) → SillHolds s u va line 64 l → s.poisoned l.pa 64 = false →
      exec (.sillRd ch) s = .next (channelNow s ch { u.land with
        entry := u.entry + 1, tick := u.tick + 1, asked := none, lock := if e.getLsbD 3 then some u.pass else u.lock
        rdFlight := u.land.rdFlight ++ [(u.tick + 24, e.getLsbD 2, BitVec.ofNat 512 (leNat (s.bytesAt l.slot l.pa 64)))] })) ∧
    (∀ va pa, SillDue s ch 3 u e → u.granules[u.pass]? = some (va, pa) → SillHolds s u va line 64 l →
      ∃ t v, exec (.sillWr ch) s = .next t ∧ t.sills = s.sills.put ch v ∧
        v = { u.land with
          entry := u.entry + 1, tick := u.tick + 1, asked := none, lock := if e.getLsbD 2 then none else u.lock, stats := v.stats } ∧
        (e.getLsbD 3 = false → v.stats = u.stats) ∧
        leNat (t.bytesAt l.slot l.pa 64) = u.wb.toNat ∧ OnlyWrites s t l 64 ∧ RegistersKept s t) ∧
    (let va := headerField u (0x80 + 8 * (e.toNat / 16 % 4)) 8
     SillDue s ch 7 u e → SillHolds s u va 0 4 l → s.lockedOut l.pa 4 = false → s.poisoned l.pa 4 = false →
      exec (.sillLds ch) s = .next (channelNow s ch { u.land with
        entry := u.entry + 1, tick := max u.tick (s.timestamp - u.start) + 1, asked := none
        sr := u.sr.put (e.toNat % 16) (BitVec.ofNat 32 (leNat (s.bytesAt l.slot l.pa 4))) }))

/-- SILL_GATE, SILL_GATE_REREAD and SILL_GATE_TIMEOUT (R396 to R398): a gate whose flag has reached FVAL passes, with its low 32 bits in gp; one whose
flag has not makes the channel hold; FIRST skips it after pass 0; the refreshes that fell due during a hold have been made; a hold longer than the captured TMO stops the channel with cause 0x1D for
the peg that armed it. -/
def SillGates : Prop :=
  ∀ (s : State) (ch : Nat) (u : Sill) (e : Word) (l : Loc),
    let k := e.toNat % 4
    let flag := leNat (s.bytesAt l.slot l.pa 8)
    let open_ := SillHolds s u (headerField u (0x40 + 8 * k) 8) 0 8 l ∧ s.lockedOut l.pa 8 = false ∧ s.poisoned l.pa 8 = false
    let now := max u.tick (s.timestamp - u.start)
    let passes (v : Sill) (w : Sill) : Prop := w = { v with
      st := .running, gp := BitVec.ofNat 32 flag, entry := u.entry + 1, tick := now + 1, asked := none
      lastRefresh := if u.st = .holding then u.lastRefresh + (now - u.lastRefresh) / 3900 * 3900 else u.lastRefresh }
    (SillDue s ch 6 u e →
      (e.getLsbD 4 = true → u.pass ≠ 0 → exec (.sillGate ch) s = .next (channelNow s ch { u.land with entry := u.entry + 1 })) ∧
      ((e.getLsbD 4 = false ∨ u.pass = 0) → open_ →
        (headerField u (0x60 + 8 * k) 8 ≤ flag → ∃ w, passes u.land w ∧ exec (.sillGate ch) s = .next (channelNow s ch w)) ∧
        (flag < headerField u (0x60 + 8 * k) 8 → exec (.sillGate ch) s =
          .next (channelNow s ch { u.land with st := .holding, holdSince := s.timestamp, asked := none })))) ∧
    (s.sills.find? ch = some u → u.st = .holding →
      (u.entries[u.entry]? = some e → open_ →
        (headerField u (0x60 + 8 * k) 8 ≤ flag → ∃ w, passes u w ∧ exec (.sillGateReread ch) s = .next (channelNow s ch w)) ∧
        (flag < headerField u (0x60 + 8 * k) 8 → exec (.sillGateReread ch) s = .next (channelNow s ch { u with asked := none }))) ∧
      (∀ p, s.pegs.find? u.peg = some p → u.gto ≠ 0 → u.holdSince + 1000 * u.gto < s.timestamp → exec (.sillGateTimeout ch) s = .next
        { s with
          sills := s.sills.put ch { u with st := .stopped, lock := none, stats := none, stopReq := false, doneOwed := false, asked := none }
          pegs := pegsWith s u.peg p { kind := 2, code := 0x1D, info := BitVec.ofNat 64 (u.seq.toNat * 2 ^ 32 + ch % 2 ^ 32), addr := 0
                                       seq := some u.seq, rank := ch, deferred := false } }) ∧
      (s.timestamp ≤ u.holdSince + 1000 * u.gto → exec (.sillGateTimeout ch) s = .next s))

/-- SILL_RUN_START (R388, R390, R394, R395, R400): an armed channel whose SILL.GO has completed begins pass 0 at its start timestamp, its scalar registers
from the header and its record bound, when it names one; before that it waits. A channel without granules owes the DONE add at once. -/
def SillRunsStart : Prop :=
  ∀ (s : State) (ch : Nat) (u : Sill), s.sills.find? ch = some u → u.st = .armed →
    (s.timestamp < u.start → exec (.sillRunStart ch) s = .next s) ∧
    (u.start ≤ s.timestamp → (∀ c ∈ (s.core u.core).journal, ¬ (c.seq = u.seq ∧ c.peg = u.peg)) →
      let starts (s1 : State) (st : Option Stats) (owed : Bool) : Prop := ∃ v, exec (.sillRunStart ch) s = .next (channelNow s1 ch v) ∧
        v.st = .running ∧ v.pass = 0 ∧ v.entry = 0 ∧ v.tick = 0 ∧ v.lastRefresh = 0 ∧ v.lock = none ∧ v.stats = st ∧ v.lm = [] ∧
        v.rdFlight = [] ∧ v.entries = u.entries ∧ v.granules = u.granules ∧ v.header = u.header ∧ v.doneOwed = owed ∧
        ∀ k, k < 16 → v.sr.get k 0 = BitVec.ofNat 32 (headerField u (0xA0 + 4 * k) 4)
      (u.granules = [] → starts s none true) ∧
      (u.granules ≠ [] → headerField u 0x18 8 = 0 → starts s none u.doneOwed) ∧
      (∀ s1 st, u.granules ≠ [] → headerField u 0x18 8 ≠ 0 →
        s.bindRecord homeBay u.bent (.sill ch) (BitVec.ofNat 64 (headerField u 0x18 8)) = .ok s1 st → starts s1 (some st) u.doneOwed))

/-- SILL_PASS_END (R395, R400): after the last entry the next pass begins; after the last pass the sweep's statistics are merged once, or the channel
stops where the merge's check fails, and then, without LOOP or with a stop requested, the DONE add is owed, which adds 1 to the DONE
location, when there is one, and ends the run; with LOOP the sweep begins again, its record bound anew. -/
def SillPassesEnd : Prop :=
  ∀ (s : State) (ch : Nat) (u : Sill), s.sills.find? ch = some u → u.st = .running →
    let loop := headerField u 6 2 % 2 = 1
    (u.doneOwed = false → u.entries.length ≤ u.entry → u.start + u.tick ≤ s.timestamp →
      (u.pass + 1 < u.granules.length → u.stopReq = false → exec (.sillPassEnd ch) s =
        .next (channelNow s ch { u with pass := u.pass + 1, entry := 0, lock := none })) ∧
      (u.pass + 1 < u.granules.length → u.stopReq = true → exec (.sillPassEnd ch) s =
        .next (channelNow s ch { u with lock := none, stats := none, doneOwed := true })) ∧
      (u.granules.length ≤ u.pass + 1 → u.stats = none →
        ((¬ loop ∨ u.stopReq = true) → exec (.sillPassEnd ch) s =
          .next (channelNow s ch { u with lock := none, stats := none, doneOwed := true })) ∧
        (loop → u.stopReq = false → headerField u 0x18 8 = 0 → u.granules ≠ [] → exec (.sillPassEnd ch) s =
            .next (channelNow s ch { u with pass := 0, entry := 0, lock := none, stats := none, st := .running })) ∧
        (∀ s1 st, loop → u.stopReq = false → headerField u 0x18 8 ≠ 0 → u.granules ≠ [] →
          (channelNow s ch u).bindRecord homeBay u.bent (.sill ch) (BitVec.ofNat 64 (headerField u 0x18 8)) = .ok s1 st →
          exec (.sillPassEnd ch) s = .next (channelNow s1 ch
            { u with pass := 0, entry := 0, lock := none, stats := some st, st := .running, asked := none }))) ∧
      (∀ st, u.granules.length ≤ u.pass + 1 → u.stats = some st → st.count ≠ 0 →
        let va := BitVec.ofNat 64 (headerField u 0x18 8)
        (∀ c p, s.access homeBay u.bent va 128 .both = .error c → s.pegs.find? u.peg = some p → ∃ t v, exec (.sillPassEnd ch) s = .next t ∧
          RegistersKept s t ∧ t.recordMerges = s.recordMerges ∧ t.sills.find? ch = some v ∧ v.st = .stopped ∧
          Pended s t u.peg { kind := 2, code := c, info := BitVec.ofNat 64 (u.seq.toNat * 2 ^ 32 + ch % 2 ^ 32), addr := va
                             seq := some u.seq, rank := ch, deferred := false }) ∧
        (∀ l, s.access homeBay u.bent va 128 .both = .ok l → (¬ loop ∨ u.stopReq = true) → ∃ t m, exec (.sillPassEnd ch) s = .next t ∧
          RegistersKept s t ∧ t.recordMerges = s.recordMerges ++ [m] ∧ m.agent = .sill ch ∧ m.bent = u.bent ∧ m.cls = 0 ∧ m.loc = l ∧
          m.stats = st ∧ t.sills = s.sills.put ch { u with lock := none, stats := none, doneOwed := true }))) ∧
    (u.doneOwed = true → (∀ m ∈ s.recordMerges, m.agent = .sill ch → m.lost = true) →
      (headerField u 0x20 8 = 0 → exec (.sillPassEnd ch) s =
        .next (channelNow s ch { u with st := .done, doneOwed := false, stopReq := false })) ∧
      (∀ l, headerField u 0x20 8 ≠ 0 → SillHolds s u (headerField u 0x20 8) 0 8 l → s.lockedOut l.pa 8 = false → s.poisoned l.pa 8 = false →
        ∃ t, exec (.sillPassEnd ch) s = .next t ∧ RegistersKept s t ∧ OnlyWrites s t l 8 ∧
          t.sills = s.sills.put ch { u with st := .done, doneOwed := false, stopReq := false, asked := none } ∧
          leNat (t.bytesAt l.slot l.pa 8) = (leNat (s.bytesAt l.slot l.pa 8) + 1) % 2 ^ 64))

end Sys2Proof.Claims

/-- R388, R389, R391, R394, R399: the entries of a timetable that wait, move, refresh, read and write. -/
def Obligations.SillEntriesExecute : Prop := SillWaitsAndRefreshes ∧ SillMoves ∧ SillResultsLand ∧ SillAccesses

/-- R390, R394 to R398: the start of a run, its gates, the ends of passes and the DONE add. -/
def Obligations.SillRuns : Prop := SillRunsStart ∧ SillGates ∧ SillPassesEnd

/-! ## The fabric and collectives -/

namespace Sys2Proof.Claims

/-- A packet of this module left on the link toward a package: in the trace of what the module sends, counted on the link (R404). -/
def sentFabric (s : State) (q : Peer) (p : FabricPacket) : State :=
  { s with peers := s.peers.put (s.hop p.dst) { q with packets := q.packets + 1 }, outbox := s.outbox ++ [.fabric p] }

/-- The link toward a package carries another packet under its key (R404). -/
def LinkOpen (s : State) (dst : Nat) (q : Peer) : Prop := s.peers.find? (s.hop dst) = some q ∧ q.linkUp = true ∧ q.packets + 1 < 2 ^ 32

/-- Links carry packets only where this module has power and came up (R428). -/
def Up (s : State) : Prop := s.mgmt.phase ≠ .off ∧ s.mgmt.phase ≠ .stopped

/-- FABRIC_PACKET addressed here (R81, R401, R402, R405, R426): an access inside what is present, not locked, performs under the slot that the packet
names and is answered, a combined merge to each issuer; a read of poison, and an access beyond what is present, is answered with an error and
changes nothing. No packet crosses a 256-byte boundary: one that does is none of the fabric's and is dropped (log 104). -/
def AnswersPackets : Prop :=
  ∀ (s : State) (p : FabricPacket) (q : Peer), Up s → p.src ≠ s.mgmt.config.pkg → p.dst = s.mgmt.config.pkg → LinkOpen s p.src q →
    let slot : Option Nat := if p.slot = 0 then none else some p.slot
    let back (d : Nat) (b : FabricBody) : FabricPacket := { src := s.mgmt.config.pkg, also := [], dst := d, slot := p.slot, body := b }
    let answers (t : State) (b : FabricBody) : Prop := p.also = [] → exec (.fabricPacket p) s = .next (sentFabric t q (back p.src b))
    let whole (pa n : Nat) : Prop := 0 < n ∧ pa % 256 + n ≤ 256
    let fits (pa n : Nat) : Prop := whole pa n ∧ pa + n ≤ s.capacity ∧ s.lockedOut pa n = false ∧ ∀ a ∈ s.accums, a.meets pa n = false
    let spot (pa : Nat) : Loc := { pa := pa, slot := slot, det := false, mw := false, cp := 0 }
    (∀ pa n, p.body = .load pa n →
      (fits pa n → s.poisoned pa n = false → answers s (.response (s.bytesAt slot pa n))) ∧
      (fits pa n → s.poisoned pa n = true → answers s (.error true)) ∧
      (whole pa n → s.capacity < pa + n → answers s (.error false)) ∧
      (0 < n → 256 < pa % 256 + n → exec (.fabricPacket p) s = .next s)) ∧
    (∀ pa d, p.body = .store pa d →
      (fits pa d.length → ∃ t, answers t .ack ∧ t.bytesAt slot pa d.length = d ∧ OnlyWrites s t (spot pa) d.length ∧ RegistersKept s t) ∧
      (whole pa d.length → s.capacity < pa + d.length → answers s (.error false)) ∧
      (0 < d.length → 256 < pa % 256 + d.length → exec (.fabricPacket p) s = .next s)) ∧
    (∀ op pa n b, p.body = .atomic op pa n b → fits pa n → s.poisoned pa n = false → ∃ t, answers t (.response (s.bytesAt slot pa n)) ∧
      leNat (t.bytesAt slot pa n) = aop op n (leNat (s.bytesAt slot pa n)) b.toNat % 2 ^ (8 * n) ∧ OnlyWrites s t (spot pa) n ∧
      RegistersKept s t) ∧
    (∀ op pa n b r w, p.body = .merge op pa n b r w false → fits pa n → s.poisoned pa n = false → ∃ t, answers t .ack ∧
      leNat (t.bytesAt slot pa n) = aop op n (leNat (s.bytesAt slot pa n)) b.toNat % 2 ^ (8 * n) ∧ OnlyWrites s t (spot pa) n ∧
      RegistersKept s t) ∧
    (∀ pa n e x, p.body = .compareSwap pa n e x → fits pa n → s.poisoned pa n = false → ∃ t, answers t (.response (s.bytesAt slot pa n)) ∧
      leNat (t.bytesAt slot pa n) =
        (if leNat (s.bytesAt slot pa n) = e.toNat % 2 ^ (8 * n) then x.toNat % 2 ^ (8 * n) else leNat (s.bytesAt slot pa n)) ∧
      OnlyWrites s t (spot pa) n ∧ RegistersKept s t) ∧
    (∀ pa et, p.body = .scribeInit pa et → fits pa 128 → ∃ t, answers t .ack ∧ t.bytesAt slot pa 128 = freshRecord et.toNat ∧
      OnlyWrites s t (spot pa) 128 ∧ RegistersKept s t) ∧
    (∀ d q2 op pa n b r w, p.also = [d] → LinkOpen s d q2 → s.hop d ≠ s.hop p.src → p.body = .merge op pa n b r w false → fits pa n →
      s.poisoned pa n = false →
        ∃ t, exec (.fabricPacket p) s = .next (sentFabric (sentFabric t q (back p.src .ack)) q2 (back d .ack)) ∧
          leNat (t.bytesAt slot pa n) = aop op n (leNat (s.bytesAt slot pa n)) b.toNat % 2 ^ (8 * n) ∧ OnlyWrites s t (spot pa) n)

/-- FABRIC_PACKET for another package (R401, R405): it goes on toward it; a merge with MW may wait at the router, and one that meets another to the
same location under the same key is combined with it by one addition, every issuer's contribution to be acknowledged. -/
def ForwardsPackets : Prop :=
  ∀ (s : State) (p : FabricPacket) (q : Peer), Up s → p.src ≠ s.mgmt.config.pkg → p.dst ≠ s.mgmt.config.pkg → LinkOpen s p.dst q →
    ((∀ op pa n b, p.body ≠ .merge op pa n b false true false) → s.router = [] → wholePacket p = true →
      exec (.fabricPacket p) s = .next (sentFabric { s with free := s.free + 1 } q p)) ∧
    (∀ op pa n a b r, p.body = .merge op pa n b false true false → s.router = [r] → r.body = .merge op pa n a false true false →
      r.dst = p.dst → r.slot = p.slot → 0 < n → pa % 256 + n ≤ 256 →
        let sum := { r with
          also := r.also ++ p.src :: p.also, body := .merge op pa n (BitVec.ofNat 64 (aop op n a.toNat b.toNat)) false true false }
        exec (.fabricPacket p) s = .next { s with free := s.free + 1, router := [sum] } ∨
        exec (.fabricPacket p) s = .next (sentFabric { s with free := s.free + 1, router := [] } q sum))

/-- LINK_BRING_UP and LINK_KEY_RENEWAL (R404): an authentic peer's link is up under the key of its next agreement, with its packets counted from 0; one
that fails is not up; a renewal takes the next key and counts from 0 again. -/
def LinksAreKeyed : Prop :=
  ∀ (s : State) (peer : Nat), Up s → peer ≠ s.mgmt.config.pkg → peer < 255 →
    (∃ q, exec (.linkBringUp peer true) s = .next { s with peers := s.peers.put peer q } ∧ q.linkUp = true ∧ q.answers = true ∧
      q.packets = 0 ∧ q.key = Config.linkKey peer q.keyEpoch ∧
      ∀ o, s.peers.find? peer = some o → q.capacity = o.capacity ∧ q.keyEpoch = o.keyEpoch + 1) ∧
    (∃ q, exec (.linkBringUp peer false) s = .next { s with peers := s.peers.put peer q } ∧ q.linkUp = false ∧
      ∀ o, s.peers.find? peer = some o → q = { o with linkUp := false }) ∧
    (∀ q, s.peers.find? peer = some q → q.linkUp = true → exec (.linkKeyRenewal peer) s = .next { s with
      peers := s.peers.put peer { q with keyEpoch := q.keyEpoch + 1, key := Config.linkKey peer (q.keyEpoch + 1), packets := 0 } })

/-- COLL_STEP_MESSAGE, COLL_ABT_MESSAGE, COLL_TIMEOUT and COLL_ABT_MEMBER_TIMEOUT (R407 to R409): a step message is held for its round and dropped once
the round was aborted; an abort drops what is held and stops every COLL of the round in the bay; a COLL past its COLL.TMO stops with cause 0x16
and ROUND in TRAP.ADDR; a COLL.ABT past its own skips the member that it waits for, and the next has its COLL.TMO to itself. -/
def CollMessagesAndTimeouts : Prop :=
  (∀ (s : State) (bay : Nat) (m : CollMsg),
    (m.round ∉ (s.bay bay).aborted → exec (.collStepMessage bay m) s =
      .next { s with bays := s.bays.put bay { s.bay bay with held := (s.bay bay).held ++ [m] } }) ∧
    (m.round ∈ (s.bay bay).aborted → exec (.collStepMessage bay m) s = .next s)) ∧
  (∀ (s : State) (bay : Nat) (m : CollAbortMsg), (s.cores.map Prod.fst).Nodup → (∀ e ∈ s.cores, (e.2.journal.map Cmd.seq).Nodup) →
    ∃ t, exec (.collAbtMessage bay m) s = .next t ∧ RegistersKept s t ∧ t.mem = s.mem ∧ m.round ∈ (t.bay bay).aborted ∧
      (t.bay bay).held = (s.bay bay).held.filter (fun h => decide (h.round ≠ m.round)) ∧
      ∀ c, s.bayOf c = bay → ∀ e ∈ (t.core c).journal, e.ofRound m.round = true → e.st = .stopped) ∧
  (∀ (s : State) (core : Nat) (n : BitVec 32) (c : Cmd), (s.core core).entry n = some c → c.ready = true → c.collTmo ≠ 0 →
    c.started + 1000 * c.collTmo ≤ s.elapsed →
      (c.op = .coll → c.st ≠ .stopped →
        let u := entryTrap c 0x16 c.progress (c.coll.round.zeroExtend 64)
        ∃ t, exec (.collTimeout core n) s = .next t ∧ RegistersKept s t ∧ t.mem = s.mem ∧
          entryIs t core { c with st := .stopped, trap := some u } ∧ Pended s t c.peg u) ∧
      (c.op = .collAbt → c.st = .running → c.progress < c.coll.members.length →
        ∃ t, exec (.collAbtMemberTimeout core n) s = .next t ∧ RegistersKept s t ∧ t.mem = s.mem ∧ t.pegs = s.pegs ∧
          entryIs t core { c with progress := c.progress + 1, started := s.elapsed }))

end Sys2Proof.Claims

/-- R81, R401, R402, R404, R405, R426: packets performed, answered, forwarded and combined, and the links that carry them. Whether a router holds a
merge that it may combine is a free value of the model (log 13). -/
def Sys2Proof.Claims.FabricEvents : Prop := AnswersPackets ∧ ForwardsPackets ∧ LinksAreKeyed

/-- R407 to R409: messages, timeouts and aborts of collectives. -/
def Sys2Proof.Claims.CollectiveEvents : Prop := CollMessagesAndTimeouts

/-- R81, R401 to R409: the fabric's packets and links, and the messages and timeouts of collectives. -/
def Obligations.FabricAndCollectives : Prop := Sys2Proof.Claims.FabricEvents ∧ Sys2Proof.Claims.CollectiveEvents

/-! ## The host's attachment -/

namespace Sys2Proof.Claims

/-- ARP_REQUEST, NEIGHBOR_DISCOVERY and FRAME_DROP (R410): both ports answer for their configured addresses; a frame that is longer than 9216 bytes, that
carries a datagram to another address or to another port than those of RoCEv2, IEEE 1588 and the control channel, or anything else, is dropped,
as is a datagram that fails (R415). The ports of IEEE 1588 are PRESUMED (log 29). -/
def AnswersAddresses : Prop :=
  ∀ (s : State) (port : Nat) (addr : List Byte),
    (Up s → addr ∈ s.mgmt.config.addresses →
      exec (.arpRequest port addr) s = .next { s with outbox := s.outbox ++ [.arpReply port addr] } ∧
      exec (.neighborDiscovery port addr) s = .next { s with outbox := s.outbox ++ [.neighborReply port addr] } ∧
      ∀ n, n ≤ 9216 →
        exec (.frameDrop { port := port, length := n, kind := .arp addr }) s = .next { s with outbox := s.outbox ++ [.arpReply port addr] } ∧
        exec (.frameDrop { port := port, length := n, kind := .neighbor addr }) s =
          .next { s with outbox := s.outbox ++ [.neighborReply port addr] }) ∧
    (addr ∉ s.mgmt.config.addresses →
      exec (.arpRequest port addr) s = .next s ∧ exec (.neighborDiscovery port addr) s = .next s) ∧
    (∀ f : EthFrame, (9216 < f.length ∨ f.kind = .other ∨ ((∃ a n, f.kind = .udp a n) ∨ f.kind = .ptp)) → exec (.frameDrop f) s = .next s) ∧
    (∀ p d, s.openRoce p = some d → (p.dst ∈ s.mgmt.config.addresses ∧ (packetFrame p).length ≤ 9216)) ∧
    exec (.datagramDrop addr) s = .next s

/-- The machine after an acknowledgement or refusal of a packet, kept for its retransmission: nothing else has changed but the queue pair. Its bytes,
the syndrome in byte 12 among them, are PRESUMED (log 29). -/
def Acknowledged (s t : State) (p : RocePacket) (q : QueuePair) (ext : Nat) (syndrome : Byte) : Prop :=
  ∃ header data, header[0]? = some 0x11 ∧ header[12]? = some syndrome ∧ t = { s with
    qps := s.qps.put p.qpn.toNat { q with packetsOut := q.packetsOut + 1, sent := q.sent.put ext (header, data) }
    outbox := s.outbox ++ [.roce p.port header data] }

/-- RDMA_WRITE, RDMA_READ and ROCE_INVALID_REQUEST (R411, R412): a WRITE in one packet inside its bent's staging window is written there and
acknowledged, a READ inside it is answered with what it reads, without a change of memory; with another R_Key, outside the window, or of another
opcode or transport, the request changes no memory and is refused. A request seen before is answered again as it was; one out of order is
refused. -/
def RespondsToRequests : Prop :=
  ∀ (s : State) (p : RocePacket) (q : QueuePair) (d : List Byte) (b : Bent) (ext : Nat), s.openRoce p = some (q, ext, d) → p.ecn = false →
    s.bents.find? q.bent = some b →
    let inside := p.rkey.toNat = q.bent ∧ p.va.toNat + p.len.toNat ≤ b.stagen
    let next : QueuePair := { q with psn := q.psn + 1, writeLeft := 0 }
    let bound : State := { s with qps := s.qps.put p.qpn.toNat q }
    let who := Issuer.of (.host p.qpn.toNat) q.bent
    let write := p.reliableConnected = true ∧ p.opcode = 0x0A ∧ q.writeLeft = 0 ∧ d.length = p.len.toNat ∧ d.length ≤ 4080
    (write → ext = q.psn →
      (¬ inside → ∃ t, exec (.rdmaWrite p) s = .next t ∧ Acknowledged s t p { next with writeAt := p.va.toNat } ext 0x62) ∧
      (inside → ∀ u x, bound.gWrite homeBay who (b.stage + p.va) d = .ok u x → ∃ t, exec (.rdmaWrite p) s = .next t ∧
        Acknowledged u t p { next with writeAt := p.va.toNat + d.length, msn := q.msn + 1 } ext 0x1F)) ∧
    (write → q.psn < ext → ∃ t, exec (.rdmaWrite p) s = .next t ∧ Acknowledged s t p q q.psn 0x60) ∧
    (write → ext < q.psn → ∀ h w, q.sent.find? ext = some (h, w) → exec (.rdmaWrite p) s = .next { s with
      qps := s.qps.put p.qpn.toNat { q with packetsOut := q.packetsOut + 1 }, outbox := s.outbox ++ [.roce p.port h w] }) ∧
    (p.reliableConnected = true → p.opcode = 0x0C → q.writeLeft = 0 → ext = q.psn →
      (¬ inside → ∃ t, exec (.rdmaRead p) s = .next t ∧ Acknowledged s t p next ext 0x62) ∧
      (inside → ∀ u x, bound.gRead homeBay who (b.stage + p.va) p.len.toNat = .ok u x → ∃ t, exec (.rdmaRead p) s = .next t ∧
        t.mem = u.mem ∧ t.bents = u.bents ∧ t.pegs = u.pegs ∧ t.cores = u.cores ∧ u.outbox.length < t.outbox.length ∧
        t.outbox.take u.outbox.length = u.outbox ∧
        (p.len.toNat ≤ 4080 → ∃ h, h[0]? = some 0x10 ∧ t.outbox =
          u.outbox ++ [.roce p.port h (gcmSeal q.key (roceNonce dirOut p.qpn ext) h (x.take 4080))]))) ∧
    ((p.reliableConnected = false ∨ roceSupported p.opcode = false) → ext = q.psn →
      ∃ t, exec (.roceInvalidRequest p) s = .next t ∧ Acknowledged s t p next ext 0x61)

/-- PTP_MESSAGE (R414): the first announcement chooses the time transmitter; its Sync in one step takes the arrival time and asks for the delay; the
answer gives the offset, by which an unlocked module steps forward when it is behind and a locked one slews. -/
def ReceivesTime : Prop :=
  ∀ (s : State) (port sender id : Nat) (tr : PtpTransport) (ds : List Nat), Up s →
    let dom := s.mgmt.config.ptpDomain
    (s.ptp.best = none → exec (.ptpMessage (.announce port tr dom sender ds)) s =
      .next { s with ptp := { s.ptp with
        best := some (ds, sender, port), bestAt := s.elapsed, syncAt := none, origin := none, delaySent := none } }) ∧
    (∀ best, s.ptp.best = some (best, sender, port) →
      (∀ t1, exec (.ptpMessage (.sync port tr dom sender id false t1)) s = .next { s with
        ptp := { s.ptp with syncAt := some (id, s.timestamp), origin := some t1, delaySent := some (id, s.timestamp) }
        outbox := s.outbox ++ [.delayReq port id] }) ∧
      (∀ t1 t2 t3 t4 : Nat, s.ptp.syncAt = some (id, t2) → s.ptp.origin = some t1 → s.ptp.delaySent = some (id, t3) →
        let ahead : Int := -((((t2 : Int) - t1) - ((t4 : Int) - t3)) / 2)
        ∃ t, exec (.ptpMessage (.delayResp port tr dom sender id t4)) s = .next t ∧ t.ptp.locked = true ∧ t.mem = s.mem ∧ t.cores = s.cores ∧
          s.timestamp ≤ t.timestamp ∧
          (s.ptp.locked = false → 0 < ahead → (t.timestamp : Int) = s.timestamp + ahead ∧ t.ptp.slew = 0) ∧
          (s.ptp.locked = true ∨ ahead ≤ 0 → t.timestamp = s.timestamp ∧ t.ptp.slew = ahead)))

end Sys2Proof.Claims

/-- R410 to R412, R414, R415: frames, RoCEv2 requests and time reception. The bytes of RoCEv2 answers and the choice of time transmitter are the
model's (logs 28 and 29). -/
def Obligations.EthernetEvents : Prop := AnswersAddresses ∧ RespondsToRequests ∧ ReceivesTime

/-! ## The control channel -/

namespace Sys2Proof.Claims

/-- The machine after it answered a request on a session (R415): the session's sequence numbers, and the sealed answer. -/
def replied (s : State) (x : Session) (typ status : Nat) (body : List Byte) : State :=
  let y := { x with seqOut := x.seqOut + 1 }
  let header := leBytes 1 typ ++ leBytes 1 status ++ leBytes 2 0 ++ leBytes 4 x.num ++ leBytes 8 y.seqOut ++ leBytes 4 body.length ++ leBytes 12 0
  { s with
    sessions := s.sessions.map (fun z => if z.num = x.num then y else z)
    outbox := s.outbox ++
      [.datagram (header ++ gcmSeal x.keyOut (leBytes 8 y.seqOut ++ [0x02, 0, 0, 0]) header body)] }

/-- The requests of a session, by TYPE (R415, R417). -/
def requestOf (dg : List Byte) : List (Nat × Instr) :=
  [(0x10, .createBent dg), (0x11, .killBent dg), (0x12, .enqueuePeg dg), (0x13, .loadImage dg), (0x14, .keyInstall dg),
   (0x15, .attestation dg), (0x16, .telemetry dg), (0x17, .dumpRetrieval dg)]

/-- The types that name a bent in the first four bytes of their body, with that body's length (R417). -/
def namesBent : List (Nat × Nat) := [(0x11, 4), (0x12, 12), (0x13, 36), (0x14, 72)]

/-- Requests (R415 to R418): one that is not accepted changes nothing; a body of another length is answered with STATUS 3, a bent that is not a live one
of the session's owner with STATUS 2, and neither changes anything else. -/
def ChecksRequests : Prop :=
  (∀ (s : State) (typ : Nat) (dg : List Byte) (i : Instr), (typ, i) ∈ requestOf dg → s.openDatagram typ dg = none → exec i s = .next s) ∧
  (∀ (s : State) (typ : Nat) (dg : List Byte) (g : Datagram) (x : Session) (body : List Byte), Datagram.parse dg = some g → g.typ = typ →
    s.mgmt.phase.answers typ = true → s.session? g.session = some x →
      (g.seq ≤ x.seqIn → s.openDatagram typ dg = none) ∧
      (x.seqIn < g.seq →
        gcmOpen x.keyIn (leBytes 8 g.seq ++ [0x01, 0, 0, 0]) g.header g.body g.tag = some body →
          s.openDatagram typ dg = some ({ x with seqIn := g.seq }, body))) ∧
  (∀ (s : State) (typ n : Nat) (dg : List Byte) (i : Instr) (x : Session) (body : List Byte), (typ, i) ∈ requestOf dg → (typ, n) ∈ namesBent →
    s.openDatagram typ dg = some (x, body) →
      (body.length ≠ n → typ ≠ 0x14 → exec i s = .next (replied s x typ 3 [])) ∧
      (body.length = n → (∀ r, s.bents.find? (leNat (body.take 4)) = some r → r.owner ≠ x.owner) →
        exec i s = .next (replied s x typ 2 [])))

/-- INIT (R416): signed by an owner key of the configuration record, it opens a session of that owner, in the place of the oldest when 16 are open, and
is answered once; any other is dropped. -/
def OpensSessions : Prop :=
  ∀ (s : State) (dg : List Byte) (g : Datagram), Datagram.parse dg = some g →
    let signed (key : List Byte) : Bool := Config.slhVerify key (g.body.take 1217) (g.body.drop 1217)
    let index := leNat ((g.body.drop 1216).take 1)
    (∀ key, g.typ = 1 → g.session = 0 → g.body.length = 9073 → s.mgmt.phase.answers 1 = true → s.mgmt.config.ownerKeys[index]? = some key →
      ∃ t, exec (.init dg) s = .next t ∧ t.mem = s.mem ∧ t.cores = s.cores ∧ t.bents = s.bents ∧
        (signed key = true → ∃ x out, t.sessions = (if s.sessions.length < 16 then s.sessions else s.sessions.drop 1) ++ [x] ∧
          x.num = s.nextSession ∧ x.owner = key ∧ x.seqIn = 0 ∧ x.seqOut = 0 ∧ t.outbox = s.outbox ++ [.datagram out]) ∧
        (signed key = false → t = s)) ∧
    (s.mgmt.config.ownerKeys[index]? = none → exec (.init dg) s = .next s)

/-- CREATE_BENT (R335, R417, R418): with a free key slot of the owner's and room, a root bent of the session's owner, and its queue pairs; a key slot of 0 or
of another owner is answered with STATUS 5 and nothing else changes. -/
def CreatesBents : Prop :=
  ∀ (s : State) (dg : List Byte) (x : Session) (body : List Byte), s.openDatagram 0x10 dg = some (x, body) →
    let n := (body.length - 272) / 4
    let c : Bent := { Bent.ofTemplate (body.take 256) with owner := x.owner, parent := none, level := 1 }
    let quota := leNat ((body.drop 256).take 8)
    let base := leNat ((body.drop 264).take 8)
    let size := tableArea quota + quota
    let qpns := qpnsOf n (body.drop 272)
    272 ≤ body.length → (body.length - 272) % 4 = 0 → n ≤ 512 →
      ((c.key = 0 ∨ s.keyTaken x.owner c.key = true) → exec (.createBent dg) s = .next (replied s x 0x10 5 [])) ∧
      (∀ b pa, c.key ≠ 0 → s.keyTaken x.owner c.key = false → quota % 0x200000 = 0 → base % 0x200000 = 0 → base + size ≤ 2 ^ 56 →
        templateReserved (body.take 256) true = false → s.badBent c 0 1024 = false →
        (∀ q ∈ qpns, q < 2 ^ 24 ∧ s.qps.find? q = none) → s.qps.length + n ≤ 512 → s.pickBent = some b → s.quotaPlace size = some pa →
          ∃ u r, exec (.createBent dg) s = .next (replied u x 0x10 0 (leBytes 4 b)) ∧ u.sessions = s.sessions ∧ u.outbox = s.outbox ∧
            RegistersKept s u ∧ u.bents.find? b = some r ∧ r.owner = x.owner ∧ r.parent = none ∧ r.level = 1 ∧
            r.drain = false ∧ r.ptroot = pa ∧ r.quotaAt = pa ∧ r.quotaLen = size ∧ r.key = c.key ∧ r.prio = c.prio ∧ r.maxCores = c.maxCores ∧
            (∀ o, o ≠ b → u.bents.find? o = s.bents.find? o) ∧ ∀ q ∈ qpns, ∃ k, u.qps.find? q = some k ∧ k.bent = b)

/-- KILL_BENT, ENQUEUE_PEG and LOAD_IMAGE for a live bent of the session's owner (R133, R163, R164, R378, R417): the kill drains as BENT.KILL does; the
enqueue answers in its body what ENQ answers, and flushes the instruction caches; the load, which reads through pages with EX and RD, answers its
result, and an image that is accepted, native or bundled from a Vuzen form, stands in the image space, a form's sealed copy in its output area. -/
def ServesBents : Prop :=
  ∀ (s : State) (dg : List Byte) (x : Session) (body : List Byte) (r : Bent),
    let b := leNat (body.take 4)
    let f (off n : Nat) : Nat := leNat ((body.drop off).take n)
    s.bents.find? b = some r → r.owner = x.owner →
      (s.openDatagram 0x11 dg = some (x, body) → body.length = 4 →
        ∃ u, exec (.killBent dg) s = .next (replied u x 0x11 0 []) ∧ Drained s u b ∧ RegistersKept s u ∧ u.outbox = s.outbox) ∧
      (s.openDatagram 0x12 dg = some (x, body) → body.length = 12 → f 4 8 % 64 = 0 → f 4 8 + 64 ≤ r.stagen →
        let addr := r.stage + BitVec.ofNat 64 (f 4 8)
        let answers (v : State) (n : Nat) : Prop := exec (.enqueuePeg dg) s = .next (replied { v with
          cores := v.cores.map (fun e => (e.1, { e.2 with icache := [] })) } x 0x12 0 (leBytes 4 n))
        addr.toNat % 64 = 0 → ∀ u d, s.gRead homeBay (Issuer.of s.firmware b) addr 64 = .ok u d →
          (∀ v, u.enqueue b u.emptiestBay addr d = .go v → answers v 0) ∧
          (∀ n, u.enqueue b u.emptiestBay addr d = .status n → answers u n)) ∧
      (s.openDatagram 0x13 dg = some (x, body) → body.length = 36 → f 20 8 = 0 → f 28 8 = 0 → f 4 8 + f 12 8 ≤ r.stagen →
        ∀ u d, s.gReadAs homeBay (Issuer.of s.firmware b) .exec (r.stage + BitVec.ofNat 64 (f 4 8)) (f 12 8) = .ok u d →
          leNat (d.take 4) ≠ 0x565A4631 →
          let answers (v : State) (n : Nat) : Prop := exec (.loadImage dg) s = .next (replied v x 0x13 0 (leBytes 4 n ++ leBytes 4 0))
          (ImageHeader.parse d = none → answers u 3) ∧
          (∀ h, ImageHeader.parse d = some h → (h.steps = false → answers u 1) ∧
            (h.steps = true → h.contents d = none → answers u 2) ∧
            (∀ c, h.steps = true → h.contents d = some c → (u.hasContexts b = true → answers u 5) ∧
              (u.hasContexts b = false → ∃ v q, answers v 0 ∧ v.bents.find? b = some q ∧ RegistersKept s v ∧ v.mem = u.mem ∧
                ∀ i y, (c.take h.len)[i]? = some y → ByteMap.rd q.image (h.off + i) = y)))) ∧
      (s.openDatagram 0x13 dg = some (x, body) → body.length = 36 → f 4 8 + f 12 8 ≤ r.stagen → f 20 8 + f 28 8 ≤ r.stagen →
        (f 4 8 + f 12 8 ≤ f 20 8 ∨ f 20 8 + f 28 8 ≤ f 4 8) →
        ∀ u d, s.gReadAs homeBay (Issuer.of s.firmware b) .exec (r.stage + BitVec.ofNat 64 (f 4 8)) (f 12 8) = .ok u d →
          leNat (d.take 4) = 0x565A4631 →
          let answers (v : State) (n m : Nat) : Prop := exec (.loadImage dg) s = .next (replied v x 0x13 0 (leBytes 4 n ++ leBytes 4 m))
          (bundleForm d = none → answers u 4 0) ∧
          (∀ code map, bundleForm d = some (code, map) →
            let copy := sealedCopy (leNat ((d.drop 16).take 4)) (drbgDraw (u.mgmt.draws + 1) 12) code map
            (u.hasContexts b = true → answers u 5 0) ∧
            (u.hasContexts b = false → f 28 8 < copy.length → answers u 6 0) ∧
            (∀ v w, u.hasContexts b = false → copy.length ≤ f 28 8 →
              u.gWrite homeBay (Issuer.of s.firmware b) (r.stage + BitVec.ofNat 64 (f 20 8)) copy = .ok v w →
              ∃ z q, answers z 0 copy.length ∧ z.mem = v.mem ∧ RegistersKept s z ∧ z.bents.find? b = some q ∧
                ∀ i y, code[i]? = some y → ByteMap.rd q.image (leNat ((d.drop 16).take 4) + i) = y)))

/-- KEY_INSTALL (R83, R412, R417, R418): the key of the bent's slot, or of one of its queue pairs, whose packets count from 0 again. -/
def InstallsKeys : Prop :=
  ∀ (s : State) (dg : List Byte) (x : Session) (body : List Byte) (r : Bent), s.openDatagram 0x14 dg = some (x, body) →
    let b := leNat (body.take 4)
    let kind := leNat ((body.drop 4).take 4)
    let qpn := leNat ((body.drop 8).take 4)
    s.bents.find? b = some r → r.owner = x.owner → r.drain = false →
      (kind = 0 → body.length = 72 → r.key ≠ 0 → s.keyTaken r.owner r.key = false → exec (.keyInstall dg) s =
        .next (replied { s with keys := s.keys.put r.key (BitVec.ofNat 512 (leNat (body.drop 8))) } x 0x14 0 [])) ∧
      (∀ q, kind = 1 → body.length = 44 → s.qps.find? qpn = some q → q.bent = b → exec (.keyInstall dg) s =
        .next (replied { s with qps := s.qps.put qpn { q with
          key := BitVec.ofNat 256 (leNat (body.drop 12)), packetsIn := 0, packetsOut := 0 } } x 0x14 0 []))

/-- ATTESTATION, TELEMETRY and DUMP_RETRIEVAL (R419, R420, R427, R430): the report is the challenge, the stepping, the device's count, the public key of
the identity that HKDF gives of the root secret, its certificate, the firmware's hash and version, the bundler's version and the record's hash and
floor, with its signature; telemetry gives the timestamp, the clock, the power and the die temperatures; a dump is delivered only as far as it
is the owner's. They change nothing but the session. -/
def ReportsState : Prop :=
  ∀ (s : State) (dg : List Byte) (x : Session) (body : List Byte),
    (s.openDatagram 0x15 dg = some (x, body) → body.length = 32 → 
        let c := s.mgmt.config
        let seed := hkdf Config.rootSecret [] [0x69, 0x64, 0x65, 0x6E] 48
        let rep := body ++ leBytes 8 0xB1 ++ leBytes 8 s.devCnt.toNat ++ Config.slhKey seed ++ Config.identityCert ++ s.mgmt.fwHash ++
          leBytes 8 s.mgmt.fwVersion.toNat ++ leBytes 4 Config.bundlerVersion.toNat ++ sha256 (Config.recordBytes c) ++ leBytes 8 c.floor
        exec (.attestation dg) s = .next (replied s x 0x15 0 (rep ++ Config.slhSign seed rep))) ∧
    (s.openDatagram 0x16 dg = some (x, body) → body = [] → ∃ rep, exec (.telemetry dg) s = .next (replied s x 0x16 0 rep) ∧
        leNat (rep.take 8) = s.timestamp % 2 ^ 64 ∧ leNat ((rep.drop 8).take 4) = s.mgmt.clockMHz % 2 ^ 32 ∧
        leNat ((rep.drop 12).take 4) = s.mgmt.avgPower % 2 ^ 32 ∧
        (∀ i, i < 8 → rep[16 + i]? = some (BitVec.ofInt 8 (s.bay i).temp)) ∧
        leNat ((rep.drop 24).take 8) = (if s.mgmt.phase = .belowCounts then 0 else s.mgmt.corrected.toNat) ∧
        leNat ((rep.drop 32).take 8) = (if s.mgmt.phase = .belowCounts then 0 else s.mgmt.poisonings.toNat)) ∧
    (s.openDatagram 0x17 dg = some (x, body) → body = [] →
      (s.mgmt.dump = none → exec (.dumpRetrieval dg) s = .next (replied s x 0x17 0 [])) ∧
      (∀ d, s.mgmt.dump = some d → (∀ e ∈ d.sections, e.owner ≠ some x.owner) → ∃ rep, exec (.dumpRetrieval dg) s =
        .next (replied s x 0x17 0 rep) ∧ rep.length = 64 ∧ leNat (rep.take 4) = 0x444D5031))

/-- CONFIGURATION_RECORD_UPDATE (R421): a record of the vendor's with a floor no lower, or of a current owner's that changes the floor alone, and raises
it, is in force from then on; any other leaves the old one in force. -/
def UpdatesTheRecord : Prop :=
  ∀ (s : State) (r : ConfigRecord),
    let old := s.mgmt.config
    let accepted (w : RecordSigner) : Prop := exec (.configurationRecordUpdate r w) s = .next { s with mgmt := { s.mgmt with config := r } }
    let rejected (w : RecordSigner) : Prop := exec (.configurationRecordUpdate r w) s = .next s
    (old.floor ≤ r.floor → accepted .vendor) ∧ (r.floor < old.floor → rejected .vendor) ∧ rejected .nobody ∧
    (∀ i, i < old.ownerKeys.length → old.floor ≤ r.floor → r = { old with floor := r.floor } → accepted (.owner i)) ∧
    (∀ i, r.floor < old.floor ∨ old.ownerKeys.length ≤ i → rejected (.owner i))

end Sys2Proof.Claims

/-- R415 to R418: which requests are accepted, and sessions. The layout of bodies is the model's (log 27). -/
def Obligations.ControlRequests : Prop := ChecksRequests ∧ OpensSessions

/-- R335, R378, R412, R417, R418, R420, R421, R427, R430: what the requests do. The layout of bodies, the placing of quotas and a dump's contents are the
model's (logs 19, 27 and 31). -/
def Obligations.ControlServices : Prop := CreatesBents ∧ ServesBents ∧ InstallsKeys ∧ ReportsState ∧ UpdatesTheRecord

/-! ## Power, heat and bring-up -/

namespace Sys2Proof.Claims

/-- Firmware serves the module. -/
def Managed (s : State) : Prop := s.mgmt.phase = .service ∨ s.mgmt.phase = .belowCounts

/-- POWER_SAMPLE (R422, R427): a measurement due, 100 µs after the last, takes the die temperatures, and the average of the last ten moves the clock by
50 MHz: down above 3.6 kW, not below 1.0 GHz, up below 3.4 kW, not above 3.3 GHz and not while a die holds it. Before it is due nothing changes. -/
def FollowsPower : Prop :=
  ∀ (s : State) (p : PowerReading), Managed s ∨ s.mgmt.phase = .fatal →
    let l := (p.watts :: s.mgmt.samples).take 10
    let held := ∃ e ∈ s.bays, e.2.hold = true
    (∀ a, s.mgmt.sampledAt = some a → s.elapsed < a + 100000 → exec (.powerSample p) s = .next s) ∧
    ((∀ a, s.mgmt.sampledAt = some a → a + 100000 ≤ s.elapsed) →
      ∃ t, exec (.powerSample p) s = .next t ∧ t.mgmt.samples = l ∧ t.mgmt.avgPower = l.sum / l.length ∧ t.mgmt.sampledAt = some s.elapsed ∧
        t.mem = s.mem ∧ t.cores = s.cores ∧ (∀ i v, i < 8 → p.temps[i]? = some v → (t.bay i).temp = v) ∧
        (3600 * l.length < l.sum → t.mgmt.clockMHz = max 1000 (s.mgmt.clockMHz - 50)) ∧
        (l.sum < 3400 * l.length → ¬ held → t.mgmt.clockMHz = min 3300 (s.mgmt.clockMHz + 50)) ∧
        (3400 * l.length ≤ l.sum → l.sum ≤ 3600 * l.length → t.mgmt.clockMHz = s.mgmt.clockMHz) ∧
        (l.sum < 3400 * l.length → held → t.mgmt.clockMHz = s.mgmt.clockMHz))

/-- THERMAL_HOLD and THERMAL_RELEASE (R423): a die at 105 °C holds the clock at 1.0 GHz and is reported once; below 100 °C the hold ends. -/
def HoldsForHeat : Prop :=
  ∀ (s : State) (bay : Nat) (temp : Int),
    (Managed s → 105 ≤ temp → ∃ t, exec (.thermalHold bay temp) s = .next t ∧ t.mgmt.clockMHz = 1000 ∧
      t.bays = s.bays.put bay { s.bay bay with temp := temp, hold := true } ∧ t.mem = s.mem ∧ t.cores = s.cores ∧
      ((s.bay bay).hold = true → t.mgmt.events = s.mgmt.events) ∧
      ((s.bay bay).hold = false → ∃ e, t.mgmt.events = s.mgmt.events ++ [e] ∧ e.kind = 5 ∧ e.unitNo = bay ∧ e.ts = s.timestamp)) ∧
    (temp < 100 → (s.bay bay).hold = true → exec (.thermalRelease bay temp) s =
      .next { s with bays := s.bays.put bay { s.bay bay with temp := temp, hold := false } }) ∧
    (100 ≤ temp → exec (.thermalRelease bay temp) s = .next s)

/-- A fatal error (R429, R430): every bent drains, the module serves no more, and the dump, written at that time with its cause, holds a section for
each bent; no register changes. -/
def Fatal (s t : State) (cause : Nat) : Prop :=
  t.mgmt.phase = .fatal ∧ (∀ b r, t.bents.find? b = some r → r.drain = true) ∧ RegistersKept s t ∧
  ∃ d, t.mgmt.dump = some d ∧ d.ts = s.timestamp ∧ d.cause = cause ∧
    ∀ b r, s.bents.find? b = some r → ∃ e ∈ d.sections, e.owner = some r.owner ∧ e.bent = b

/-- THERMAL_TRIP, FIRMWARE_STATE_ERROR and INPUT_POWER_FAULT (R423, R429): each is a fatal error of its own cause. -/
def FatalErrors : Prop :=
  ∀ s : State, Managed s →
    (∀ (bay : Nat) (temp : Int), 115 ≤ temp → ∃ t, exec (.thermalTrip bay temp) s = .next t ∧ Fatal s t 1) ∧
    (∃ t, exec .firmwareStateError s = .next t ∧ Fatal s t 2) ∧ (∃ t, exec .inputPowerFault s = .next t ∧ Fatal s t 3)

/-- POWER_UP, RESET_INPUT and POWER_REMOVAL (R40, R41, R311, R418 to R420, R428, R429): bring-up leaves no bent, peg, session or written memory, a fresh
key in each of the 256 slots, and enables the cores that pass their tests and that neither the flash list nor a core listed since names; a list that
is not authentic names every core. The module is stopped when the root secret has not its digest, or the firmware is not signed by the vendor's key or
is below the floor; it serves when the counts of R40 are met, and is below them otherwise. A reset keeps the dump; without power nothing is kept
but the flash. The message that the vendor signs is the model's (log 17). -/
def BringsUp : Prop :=
  ∀ (s : State) (b : BringUp),
    let list := s.mgmt.flashList ++ s.mgmt.listed
    let secret := sha256 b.root = sha256 Config.rootSecret
    let signed := sha256 b.firmware.vendorKey = Config.vendorKeyDigest ∧
      Config.slhVerify b.firmware.vendorKey (leBytes 8 b.firmware.version.toNat ++ b.firmware.image) b.firmware.signature = true ∧
      s.mgmt.config.floor ≤ b.firmware.version.toNat
    let up (t : State) (dump : Option Dump) : Prop :=
      let bays := t.mgmt.bayCores
      let met := 1984 ≤ bays.sum ∧ (∀ n ∈ bays, 240 ≤ n) ∧ 372 ≤ b.chans
      t.bents = [] ∧ t.pegs = [] ∧ t.cores = [] ∧ t.mem = [] ∧ t.sessions = [] ∧ t.qps = [] ∧
      t.pending = [] ∧ t.timestamp = 0 ∧ t.mgmt.config = s.mgmt.config ∧ t.mgmt.chans = b.chans ∧ t.mgmt.flashList = list ∧ t.mgmt.dump = dump ∧
      t.mgmt.fwHash = sha256 b.firmware.image ∧ t.mgmt.fwVersion = b.firmware.version ∧ t.mgmt.fwBuild = b.firmware.build ∧
      (∀ p, p ∈ t.mgmt.physical ↔ b.flashListValid = true ∧ p ∉ list ∧ ∃ l, b.passed[p / 256]? = some l ∧ p % 256 ∈ l) ∧
      bays.length = b.passed.length ∧
      (∀ i n, bays[i]? = some n → n = (t.mgmt.physical.filter (fun p => decide (p / 256 = i))).length) ∧
      (∀ i, i < 256 → ∃ k, t.keys.find? i = some k) ∧
      (¬ (secret ∧ signed) → t.mgmt.phase = .stopped) ∧
      (secret → signed → (met → t.mgmt.phase = .service) ∧ (¬ met → t.mgmt.phase = .belowCounts))
    (s.mgmt.phase = .off → ∃ t, exec (.powerUp b) s = .next t ∧ up t none) ∧
    (s.mgmt.phase ≠ .off → ∃ t, exec (.resetInput b) s = .next t ∧ up t s.mgmt.dump) ∧
    (s.mgmt.phase = .off → exec (.resetInput b) s = .next s) ∧ (s.mgmt.phase ≠ .off → exec (.powerUp b) s = .next s) ∧
    ∃ t, exec .powerRemoval s = .next t ∧ t.mgmt.phase = .off ∧ t.mgmt.dump = none ∧ t.bents = [] ∧ t.pegs = [] ∧ t.cores = [] ∧ t.mem = [] ∧
      t.keys = [] ∧ t.mgmt.config = s.mgmt.config ∧ t.mgmt.flashList = list

end Sys2Proof.Claims

/-- R38 to R40, R418, R422, R423, R428 to R430: power and heat, fatal errors and bring-up. That memory reads 0 after bring-up is the model's choice
(log 4), as is a dump's contents (log 31). -/
def Obligations.PowerAndBringUp : Prop := FollowsPower ∧ HoldsForHeat ∧ FatalErrors ∧ BringsUp

/-! ## The pc -/

namespace Sys2Proof.Claims

/-- Every core's pc and TRAP.PC, and every bent's handler, is a multiple of 4 (R134, R337, R353). -/
def PcAligned (s : State) : Prop :=
  (∀ c, (s.core c).pc.toNat % 4 = 0 ∧ (s.core c).regs.trapPc.toNat % 4 = 0) ∧ ∀ e ∈ s.bents, e.2.hpc.toNat % 4 = 0

/-- It holds after reset. -/
def ResetPcIsAligned : Prop := PcAligned State.reset

end Sys2Proof.Claims

/-- Every step of every instruction and event keeps each core's pc and TRAP.PC, and each bent's handler, word-aligned (R8, R134, R337, R353, R366). -/
def Obligations.StepKeepsPcAligned : Prop := ∀ s t : State, PcAligned s → step s = .next t → PcAligned t

/-! ## Kernel units -/

namespace Sys2Proof.Claims

/-- An integer result in `w` bits, modulo 2^w, or clamped to the type's range first (R45, R241). -/
def fitInt (w : Nat) (uns sat : Bool) (v : Int) : Nat :=
  let lo : Int := if uns then 0 else -(2 ^ (w - 1) : Int)
  let hi : Int := if uns then 2 ^ w - 1 else 2 ^ (w - 1) - 1
  ((if sat then max lo (min hi v) else v) % (2 ^ w : Int)).toNat

/-- The integer an element of `w` bits stands for. -/
def intValue (w : Nat) (uns : Bool) (x : Nat) : Int := if uns then (x : Int) else Int.bmod x (2 ^ w)

/-- Element `j` of an integer operation of VALU (R240, R241), from elements a, b and c. -/
def intElement (op w j : Nat) (uns sat : Bool) (a b c : Nat) : Option Nat :=
  let v := intValue w uns
  match op with
  | 0x00 => some (fitInt w uns sat (v a + v b))
  | 0x01 => some (fitInt w uns sat (v a - v b))
  | 0x02 => some (fitInt w uns sat (v a * v b))
  | 0x03 => some (if v a ≤ v b then a else b)
  | 0x04 => some (if v a ≤ v b then b else a)
  | 0x05 => some (fitInt w uns sat (if 0 ≤ v a then v a else -v a))
  | 0x06 => some (fitInt w uns sat (-v a))
  | 0x07 => some (a &&& b)
  | 0x08 => some (a ||| b)
  | 0x09 => some (a ^^^ b)
  | 0x0A => some (2 ^ w - 1 - a)
  | 0x0B => some (a * 2 ^ (b % w) % 2 ^ w)
  | 0x0C => some (a / 2 ^ (b % w))
  | 0x0D => some ((Int.bmod a (2 ^ w) / 2 ^ (b % w) % (2 ^ w : Int)).toNat)
  | 0x0F => some (if v c ≤ (if v a ≤ v b then v b else v a) then c else if v a ≤ v b then b else a)
  | 0x14 => some ((b + j) % 2 ^ w)
  | _ => none

/-- Bits lo to lo + n − 1 of a number. -/
def bitsAt (v lo n : Nat) : Nat := v / 2 ^ lo % 2 ^ n

/-- Element `j` of an operand port: of its lane groups, or its scalar when S is set (R235, R236). -/
def portElement (e : KEnv) (k : KOp) (i sz j : Nat) : Nat :=
  let p := AMap.get e.ports (4 * k.unitNo + i) { bits := 0, s := false, v := 0 }
  if p.s then p.v.toNat % 2 ^ sz else bitsAt p.bits.toNat (256 * k.lgb + j * sz) sz

/-- Element `j` of a value placed from the trigger's lane groups up (R236). -/
def laneElement (k : KOp) (v sz j : Nat) : Nat := bitsAt v (256 * k.lgb + j * sz) sz

/-- A width and lane groups that the path has (R221). -/
def Placed (k : KOp) : Prop := k.w ∈ [64, 256, 512, 1024] ∧ 256 * k.lgb + k.w ≤ 1024

/-- The bytes that a result writes: the trigger's lane groups, or 8 bytes. -/
def groupMask (k : KOp) : Nat := (2 ^ (k.w / 8) - 1) * 2 ^ (32 * k.lgb)

/-- A generator's state after `n` steps (R57). -/
def stepsOf (n : Nat) (g : Word32) : Word32 := (List.range n).foldl (fun g _ => xorShift32 g) g

/-- The state of the generator of a lane (R57, R58). -/
def laneState (e : KEnv) (gens : AMap Word32) (l : Nat) : Word32 := AMap.get gens l (seedLane e.seed l 0)

/-- The state that the element at bit `pos i` of the path draws, where the elements step their generators in ascending order (R58, R238). -/
def drawOf (e : KEnv) (pos : Nat → Nat) (i : Nat) : Word32 :=
  let lane (j : Nat) : Nat := 32 * e.cid + pos j / 32
  stepsOf ((List.range (i + 1)).filter (fun j => decide (lane j = lane i))).length (laneState e e.gens (lane i))

/-- The generators that a result of `n` elements leaves (R58, R238): each stepped once an element of its lane under SR, else as they were. -/
def Drawn (e : KEnv) (rm : RMode) (pos : Nat → Nat) (n : Nat) (gens : AMap Word32) : Prop :=
  (rm ≠ .sr → gens = e.gens) ∧
  (rm = .sr → ∀ l, laneState e gens l =
    stepsOf ((List.range n).filter (fun j => decide (32 * e.cid + pos j / 32 = l))).length (laneState e e.gens l))

/-- R236, R240, R241, R243: an integer operation of a vector ALU writes, in the lane groups of its trigger and nowhere else, the result of each element from T
and the operand ports, and so do the bitwise operations on every type and sel; DP4 of VMAC adds four exact products to an i32 addend. They step no
generator and count no overflow. -/
def VectorIntegers : Prop :=
  ∀ (k : KOp) (e : KEnv), Placed k →
    let sz := k.et.bits
    let a (j : Nat) : Nat := laneElement k e.t sz j
    let b (j : Nat) : Nat := portElement e k 0 sz j
    let written (r : KRes) : Prop := r.ovCount = 0 ∧ r.gens = e.gens ∧ r.mask.toNat = groupMask k
    (k.et.isInt = true → k.valuOk = true → ∀ uns, uns = (decide (k.et = .n8) || decide (k.op / 32 % 2 = 1)) →
      ∀ j v, j < k.w / sz → intElement (k.op % 32) sz j uns k.sat (a j) (b j) (portElement e k 1 sz j) = some v →
        written (k.valu e) ∧ laneElement k (k.valu e).value.toNat sz j = v) ∧
    (k.et.packed = false → k.valuOk = true → 7 ≤ k.op % 32 → k.op % 32 ≤ 10 →
      ∀ j v, j < k.w / sz → intElement (k.op % 32) sz j false false (a j) (b j) 0 = some v →
        written (k.valu e) ∧ laneElement k (k.valu e).value.toNat sz j = v) ∧
    (k.valuOk = true → k.op % 32 = 0x0E → ∀ j, j < k.w / sz →
      let p := AMap.get e.ports (4 * k.unitNo + 1) { bits := 0, s := false, v := 0 }
      written (k.valu e) ∧
        laneElement k (k.valu e).value.toNat sz j = if p.bits.getLsbD ((256 * k.lgb + j * sz) / 8) then a j else b j) ∧
    (k.op = 9 → k.vmacOk = true → ∀ j, j < k.w / 32 →
      let uns := decide (k.et = .n8)
      let part (i : Nat) : Int := intValue 8 uns (laneElement k e.t 8 (4 * j + i)) * intValue 8 uns (portElement e k 0 8 (4 * j + i))
      written (k.vmac e) ∧ laneElement k (k.vmac e).value.toNat 32 j =
        fitInt 32 false k.sat (Int.bmod (portElement e k 1 32 j) (2 ^ 32) + part 0 + part 1 + part 2 + part 3))

/-- R238, R240, R242: floating add, sub and mul of a vector ALU round each element once by the trigger's mode, under its own draw where that is
stochastic; min, max and clamp do not round; abs and neg change the sign bit alone; add, sub and neg act on each component of a complex element, which draws once. -/
def VectorFloats : Prop :=
  ∀ (k : KOp) (e : KEnv) (f : Fmt), Placed k → k.valuOk = true →
    let sz := k.et.bits
    let n := k.w / sz
    let o := k.op % 32
    let rm := k.rmode e
    let r := k.valu e
    let pos (j : Nat) : Nat := 256 * k.lgb + j * sz
    let gen (j : Nat) : Word32 := if rm = .sr then drawOf e pos j else 0
    let a (j : Nat) : Nat := laneElement k e.t sz j
    let b (j : Nat) : Nat := portElement e k 0 sz j
    let exact (x y : FVal) : FVal := match o with
      | 0 => x.add y
      | 1 => x.sub y
      | _ => x.mul y
    let whole (v : FVal) : Nat := (f.deliver .rne false 0 v).1
    let signed (w x : Nat) : Nat := (x + 2 ^ (w - 1)) % 2 ^ w
    (k.et.isF = true → k.et.fmt? = some f → ∀ j, j < n →
      let x := f.decode (a j)
      let y := f.decode (b j)
      let v := laneElement k r.value.toNat sz j
      (o ≤ 2 → v = (f.deliver rm k.sat (gen j) (exact x y)).1) ∧ (o = 3 → v = whole (x.min y)) ∧ (o = 4 → v = whole (x.max y)) ∧
      (o = 5 → v = a j % 2 ^ (sz - 1)) ∧ (o = 6 → v = signed sz (a j)) ∧
      (o = 0x0F → v = whole ((x.max y).min (f.decode (portElement e k 1 sz j))))) ∧
    (k.et.isC = true → k.et.comp.fmt? = some f → ∀ j, j < n → ∀ c, c < 2 →
      let w := sz / 2
      let part (x : Nat) : Nat := bitsAt x (c * w) w
      let v := part (laneElement k r.value.toNat sz j)
      (o ≤ 1 → v = (f.deliver rm k.sat (gen j) (exact (f.decode (part (a j))) (f.decode (part (b j))))).1) ∧
      (o = 6 → v = signed w (part (a j)))) ∧
    ((k.et.isF = true ∨ k.et.isC = true) → o ≤ 6 ∨ o = 0x0F → r.ovCount = 0 ∧ r.mask.toNat = groupMask k ∧ Drawn e rm pos n r.gens)

/-- R242: a compare writes the whole of x: bit p is 1 exactly where p is below 128 and byte p of the path lies in an element whose comparison holds; a
comparison with a NaN holds for cmpne alone, and complex elements are equal where both components are. -/
def VectorCompares : Prop :=
  ∀ (k : KOp) (e : KEnv), Placed k → k.valuOk = true → 0x10 ≤ k.op % 32 → k.op % 32 ≤ 0x13 →
    let sz := k.et.bits
    let o := k.op % 32
    let uns := decide (k.et = .n8) || decide (k.op / 32 % 2 = 1)
    let a (j : Nat) : Nat := laneElement k e.t sz j
    let b (j : Nat) : Nat := portElement e k 0 sz j
    let pick (eq lt : Bool) : Bool := if o = 0x10 then eq else if o = 0x11 then !eq else if o = 0x12 then lt else lt || eq
    let holds (j : Nat) : Bool :=
      if k.et.isInt then pick (decide (a j = b j)) (decide (intValue sz uns (a j) < intValue sz uns (b j)))
      else match k.et.fmt?, k.et.comp.fmt? with
        | some f, _ => pick ((f.decode (a j)).feq (f.decode (b j))) ((f.decode (a j)).lt (f.decode (b j)))
        | none, some f =>
          let w := sz / 2
          let same (c : Nat) : Bool := (f.decode (bitsAt (a j) (c * w) w)).feq (f.decode (bitsAt (b j) (c * w) w))
          pick (same 0 && same 1) false
        | none, none => false
    let r := k.valu e
    r.mask = BitVec.allOnes 128 ∧ r.gens = e.gens ∧ r.ovCount = 0 ∧
      ∀ p, r.value.getLsbD p = true ↔ p < 128 ∧
        ∃ j, j < k.w / sz ∧ 256 * k.lgb + j * sz ≤ 8 * p ∧ 8 * p < 256 * k.lgb + (j + 1) * sz ∧ holds j = true

/-- R67, R243, R244: the multiply-accumulate unit: fma, fms, fnma and mul form each element exactly and round it once; a complex form makes two fused steps a
component, each rounded to nearest, a mul from −0; dp2 sums two exact products and its f32 addend exactly, its NaN the first in their order. -/
def MultiplyAccumulates : Prop :=
  ∀ (k : KOp) (e : KEnv) (f : Fmt), Placed k → k.vmacOk = true →
    let sz := k.et.bits
    let o := k.op
    let rm := k.rmode e
    let r := k.vmac e
    let gen (w j : Nat) : Word32 := if rm = .sr then drawOf e (fun j => 256 * k.lgb + j * w) j else 0
    let a (j : Nat) : Nat := laneElement k e.t sz j
    let b (j : Nat) : Nat := portElement e k 0 sz j
    let c (j : Nat) : Nat := portElement e k 1 sz j
    let kept (w : Nat) : Prop := r.ovCount = 0 ∧ r.mask.toNat = groupMask k ∧
      Drawn e (if k.et.isInt || k.et.isC then .rne else rm) (fun j => 256 * k.lgb + j * w) (k.w / w) r.gens
    (o ≤ 3 → k.et.isInt = true → kept sz ∧ ∀ j, j < k.w / sz →
      let uns := decide (k.et = .n8)
      let p := intValue sz uns (a j) * intValue sz uns (b j)
      let z := intValue sz uns (c j)
      laneElement k r.value.toNat sz j = fitInt sz uns k.sat (if o = 0 then p + z else if o = 1 then p - z else if o = 2 then z - p else p)) ∧
    (o ≤ 3 → k.et.fmt? = some f → kept sz ∧ ∀ j, j < k.w / sz →
      let x := f.decode (a j)
      let y := f.decode (b j)
      let z := f.decode (c j)
      laneElement k r.value.toNat sz j = (f.deliver rm k.sat (gen sz j)
        (if o = 0 then x.fma y z else if o = 1 then x.fms y z else if o = 2 then x.fnma y z else x.mul y)).1) ∧
    (3 ≤ o → o ≤ 7 → k.et.isC = true → k.et.comp.fmt? = some f → kept sz ∧ ∀ j, j < k.w / sz →
      let w := sz / 2
      let rn (v : FVal) : FVal := f.decode (f.deliver .rne k.sat 0 v).1
      let part (x i : Nat) : FVal := f.decode (bitsAt x (i * w) w)
      let xi := if o = 5 ∨ o = 7 then (part (a j) 1).negate else part (a j) 1
      let yi := if o = 6 ∨ o = 7 then (part (b j) 1).negate else part (b j) 1
      let start (i : Nat) : FVal := if o = 3 then .fin true 0 0 else part (c j) i
      let re := rn (xi.negate.fma yi (rn ((part (a j) 0).fma (part (b j) 0) (start 0))))
      let im := rn (xi.fma (part (b j) 0) (rn ((part (a j) 0).fma yi (start 1))))
      bitsAt (laneElement k r.value.toNat sz j) 0 w = (f.deliver .rne false 0 re).1 ∧
        bitsAt (laneElement k r.value.toNat sz j) w w = (f.deliver .rne false 0 im).1) ∧
    (o = 8 → k.et.fmt? = some f → kept 32 ∧ ∀ j, j < k.w / 32 →
      let x (i : Nat) : FVal := f.decode (laneElement k e.t 16 (2 * j + i))
      let y (i : Nat) : FVal := f.decode (portElement e k 0 16 (2 * j + i))
      let z := Fmt.f32.decode (portElement e k 1 32 j)
      laneElement k r.value.toNat 32 j = (Fmt.f32.deliver rm k.sat (gen 32 j) (match firstNaN [z, x 0, y 0, x 1, y 1] with
        | some v => v
        | none => exactSum [z, (x 0).mul (y 0), (x 1).mul (y 1)])).1)

/-- The results of the special functions at zeros and infinities (R247). -/
def atZero (fn : Nat) (s : Bool) : FVal :=
  match fn with
  | 0 | 1 => .inf s
  | 3 | 5 | 11 => .fin false 1 0
  | 4 => .inf true
  | 7 => .fin false 1 (-1)
  | _ => .fin s 0 0

def atInfinity (fn : Nat) (s : Bool) : FVal :=
  match fn, s with
  | 0, s => .fin s 0 0
  | 1, false => .fin false 0 0
  | 2, false | 4, false | 3, false | 5, false | 8, false | 9, false => .inf false
  | 3, true | 5, true | 7, true => .fin false 0 0
  | 6, s => .fin s 1 0
  | 7, false => .fin false 1 0
  | 8, true | 9, true => .fin true 0 0
  | _, _ => .dnan

/-- R245 to R248: a special function carries a NaN through, gives R247's values at zeros and infinities, default NaN for the root, the reciprocal root and
the logarithm of a negative number, a correctly rounded root, and elsewhere an f32 value within the bound of R248, rounded once; FTZ takes
subnormal inputs and results as zeros; equal inputs give equal results, in every core. The bits within the bound are the stepping's (log 14). -/
def SpecialFunctions : Prop :=
  ∀ (k : KOp) (e : KEnv) (f : Fmt) (rnd : BitVec 2), Placed k → k.vsfuOk rnd = true → e.rnd = rnd → k.et.fmt? = some f →
    let sz := k.et.bits
    let fn := k.op % 128
    let ftz := decide (k.op / 128 = 1)
    let r := k.vsfu e
    let flush (x : Nat) : Nat := if ftz && decide (x / 2 ^ f.mbits % 2 ^ f.ebits = 0) then x / 2 ^ (sz - 1) % 2 * 2 ^ (sz - 1) else x
    r.ovCount = 0 ∧ r.gens = e.gens ∧ r.mask.toNat = groupMask k ∧
    (∀ j, j < k.w / sz →
      let a := Fmt.f32.decode (Fmt.f32.deliver .rne false 0 (f.decode (flush (laneElement k e.t sz j)))).1
      let v := laneElement k r.value.toNat sz j
      let out (sat : Bool) (x : FVal) : Nat := flush (f.deliver .rne sat 0 x).1
      (a.isNaN = true → v = out false a.quiet) ∧
      (∀ s m g, a = .fin s m g → m = 0 → v = out false (atZero fn s)) ∧
      (∀ s, a = .inf s → v = out false (atInfinity fn s)) ∧
      (∀ m g, a = .fin true m g → m ≠ 0 → fn = 1 ∨ fn = 2 ∨ fn = 4 → v = out false .dnan) ∧
      (∀ m g, a = .fin false m g → m ≠ 0 → fn = 2 → v = out k.sat (Fmt.f32.decode (Fmt.f32.deliver (k.rmode e) false 0 a.sqrt).1)) ∧
      (∀ s m g, a = .fin s m g → m ≠ 0 → fn ≠ 2 → (s = true → fn ≠ 1 ∧ fn ≠ 4) →
        let far := (fn = 10 ∨ fn = 11) ∧ (FVal.fin false 1 16).lt a.abs = true
        let power := fn = 4 ∧ m = 2 ^ Nat.log2 m
        let whole (i : Int) : Prop := fn = 3 ∧ -512 < i ∧ i < 512 ∧ (0 ≤ g ∧ i.natAbs = m * 2 ^ g.toNat ∨ g < 0 ∧ i.natAbs * 2 ^ (-g).toNat = m) ∧ (i < 0 ↔ s = true)
        ∃ x : FVal, x.isNaN = false ∧ v = out k.sat x ∧ (far → (FVal.fin false 1 0).lt x.abs = false) ∧
          (power → x = Fmt.f32.rne (FVal.ofInt (Nat.log2 m + g))) ∧ (∀ i, whole i → x = Fmt.f32.rne (.fin false 1 i)) ∧
          (¬ far → ¬ power → (∀ i, ¬ whole i) → inBound fn (fnRef fn a) x = true ∨ x = Fmt.f32.rne (fnRef fn a)))) ∧
    (∀ (k' : KOp) (e' : KEnv), Placed k' → k'.op = k.op → k'.et = k.et → k'.sat = k.sat → k'.rmode e' = k.rmode e → ∀ i j, i < k'.w / sz → j < k.w / sz →
      laneElement k' e'.t sz i = laneElement k e.t sz j → laneElement k' (k'.vsfu e').value.toNat sz i = laneElement k r.value.toNat sz j)

/-- R249 to R251: a permutation writes the elements that its selector names, unchanged; TR16X4 turns 16 rows of 4 into 4 rows of 16; UNPK
sign-extends 128 packed codes to i8. -/
def Permutes : Prop :=
  ∀ (k : KOp) (e : KEnv), Placed k → k.vprmOk = true →
    let sz := k.et.bits
    let n := k.w / sz
    let a (j : Nat) : Nat := laneElement k e.t sz j
    let b (j : Nat) : Nat := portElement e k 0 sz j
    let both (i : Nat) : Nat := if i < n then a i else b (i - n)
    let r := k.vprm e
    r.ovCount = 0 ∧ r.gens = e.gens ∧ r.mask.toNat = groupMask k ∧
    (k.op ≤ 9 → ∀ j, j < n → laneElement k r.value.toNat sz j = (match k.op with
      | 0 => a (b j % n)
      | 1 => a (b 0 % n)
      | 2 => a ((j + b 0) % n)
      | 3 => if j % 2 = 0 then a (j / 2) else b (j / 2)
      | 4 => if j % 2 = 0 then a (n / 2 + j / 2) else b (n / 2 + j / 2)
      | 5 => both (2 * j)
      | 6 => both (2 * j + 1)
      | 7 => a (4 * (j % 16) + j / 16)
      | 8 => both (4 * (j % 16) + j / 16)
      | _ => both (4 * (j % 16) + (32 + j) / 16))) ∧
    (10 ≤ k.op → ∀ j, j < 128 → laneElement k r.value.toNat 8 j =
      (Int.bmod (laneElement k e.t sz (128 * (k.op - 10) + j)) (2 ^ sz) % 256).toNat)

/-- R252 to R256: a conversion takes its elements from T, from T and the first ports when it narrows, or from a part of T when it widens, and writes Convert
of each under the mode, its own draw and SAT, equal types unchanged; a quantising one multiplies by its scale first, saturates, and counts the
elements that overflow. -/
def Conversions : Prop :=
  ∀ (k : KOp) (e : KEnv), Placed k → k.cvtOk = true →
    let src := ET.ofCode (k.op % 16)
    let mode := k.op / 64 % 4
    let part := k.op / 16 % 4
    let ss := src.bits
    let ds := k.et.bits
    let n := k.w / ss
    let off := if ds < ss then 0 else part * k.w * ss / ds
    let elem (i : Nat) : Nat :=
      if ds < ss ∧ n ≤ i then portElement e k (i / n - 1) ss (i % n) else bitsAt e.t (256 * k.lgb + off + i * ss) ss
    let pos (i : Nat) : Nat := 256 * k.lgb + off + (if ds < ss then i % n else i) * ss
    let rm := k.rmode e
    let gen (i : Nat) : Word32 := if rm = .sr then drawOf e pos i else 0
    let r := k.cvt e
    r.mask.toNat = groupMask k ∧ Drawn e rm pos (k.w / ds) r.gens ∧
    (mode < 2 → r.ovCount = 0 ∧ ∀ i, i < k.w / ds → laneElement k r.value.toNat ds i =
      if src = k.et then elem i else convert k.et (decide (mode = 1)) rm k.sat (gen i) (src.decode (decide (mode = 1)) (elem i))) ∧
    (∀ f, 2 ≤ mode → src.fmt? = some f →
      let p := AMap.get e.ports (4 * k.unitNo + 3) { bits := 0, s := false, v := 0 }
      let w := if p.s then p.v.toNat else bitsAt p.bits.toNat 0 64
      let scale : FVal := if mode = 2 then Fmt.f32.decode (w % 2 ^ 32)
        else if w % 256 = 255 then .dnan else .fin false 1 ((w % 256 : Nat) - 127)
      let q (i : Nat) : Nat × Bool := convertQuant k.et rm (gen i) ((f.decode (elem i)).mul scale)
      r.ovCount = ((List.range (k.w / ds)).filter (fun i => (q i).2)).length ∧
        ∀ i, i < k.w / ds → laneElement k r.value.toNat ds i = (q i).1)

/-- R257, R258: a reduction writes one value at its lane group, zeros above it: sums, least and greatest elements, and bitwise folds of the elements of T, or
of every cluster of the group in ascending CID, where a cluster that did not start gives the identity; a floating sum under the deterministic flag is
the canonical tree's, else some tree's. -/
def Reductions : Prop :=
  ∀ (k : KOp) (e : KEnv) (ts : List (Option Nat)) (det : Bool) (split : Nat → Nat → Nat), Placed k → k.redOk = true → k.typeOk = true →
    let sz := k.et.bits
    let n := k.w / sz
    let grouped := decide (k.op / 16 % 2 = 1)
    let count := if grouped then n * ts.length else n
    let elem (i : Nat) : Option Nat :=
      if grouped then (match ts[i / n]? with
        | some (some t) => some (laneElement k t sz (i % n))
        | _ => none)
      else some (laneElement k e.t sz i)
    let xs := (List.range count).map elem
    let here := xs.filterMap id
    let uns := decide (k.et = .n8) || decide (k.op / 8 % 2 = 1)
    let o := k.op % 8
    let r := k.red e ts det split
    let is (v : Nat) : Prop := r.value.toNat = v * 2 ^ (256 * k.lgb)
    let sums (f : Fmt) (vs : List FVal) : Nat := (f.deliver .rne false 0 (if det then canonSum f vs else assocSum f split vs)).1
    let valueOr (g : Nat → FVal) (x : Option Nat) : FVal := match x with
      | some x => g x
      | none => .fin true 0 0
    r.mask.toNat = groupMask k ∧ r.gens = e.gens ∧ r.ovCount = 0 ∧
    (o = 3 → is (here.foldl (· &&& ·) (2 ^ sz - 1))) ∧ (o = 4 → is (here.foldl (· ||| ·) 0)) ∧ (o = 5 → is (here.foldl (· ^^^ ·) 0)) ∧
    (k.et.isInt = true → o = 0 → is (((here.map (intValue sz uns)).foldl (· + ·) 0 % (2 ^ sz : Int)).toNat)) ∧
    (k.et.isInt = true → here ≠ [] → (o = 1 → ∃ v ∈ here, is v ∧ ∀ x ∈ here, intValue sz uns v ≤ intValue sz uns x) ∧
      (o = 2 → ∃ v ∈ here, is v ∧ ∀ x ∈ here, intValue sz uns x ≤ intValue sz uns v)) ∧
    (∀ f, k.et.fmt? = some f →
      (o = 0 → is (sums f (xs.map (valueOr f.decode)))) ∧
      (o = 6 → is (sums f (xs.map (valueOr (fun x => f.rne ((f.decode x).mul (f.decode x))))))) ∧
      (∀ x rest, here = x :: rest →
        (o = 1 → is (f.deliver .rne false 0 (rest.foldl (fun a y => a.min (f.decode y)) (f.decode x))).1) ∧
        (o = 2 → is (f.deliver .rne false 0 (rest.foldl (fun a y => a.max (f.decode y)) (f.decode x))).1))) ∧
    (∀ f, k.et.isC = true → k.et.comp.fmt? = some f → o = 0 →
      is (sums f (xs.map (valueOr (fun x => f.decode (bitsAt x 0 (sz / 2))))) +
        2 ^ (sz / 2) * sums f (xs.map (valueOr (fun x => f.decode (bitsAt x (sz / 2) (sz / 2)))))))

/-- An integer operation of SALU on `w` bits (R137, R138, R259, R260). -/
def scalarElement (op w a b : Nat) : Option Nat :=
  let v := intValue w false
  let wrap (i : Int) : Nat := (i % (2 ^ w : Int)).toNat
  let bit (p : Bool) : Nat := if p then 1 else 0
  match op with
  | 0x00 => some ((a + b) % 2 ^ w)
  | 0x01 => some (wrap ((a : Int) - b))
  | 0x02 => some (a &&& b)
  | 0x03 => some (a ||| b)
  | 0x04 => some (a ^^^ b)
  | 0x05 => some (a * 2 ^ (b % w) % 2 ^ w)
  | 0x06 => some (a / 2 ^ (b % w))
  | 0x07 => some (wrap (v a / 2 ^ (b % w)))
  | 0x08 => some (bit (decide (v a < v b)))
  | 0x09 => some (bit (decide (a < b)))
  | 0x0A => some (if v a ≤ v b then a else b)
  | 0x0B => some (if v a ≤ v b then b else a)
  | 0x0C => some (min a b)
  | 0x0D => some (max a b)
  | 0x0E => some (a * b % 2 ^ w)
  | 0x0F => some (wrap (v a * v b / 2 ^ w))
  | 0x10 => some (a * b / 2 ^ w)
  | 0x11 => some (if b = 0 then 2 ^ w - 1 else wrap ((v a).tdiv (v b)))
  | 0x12 => some (if b = 0 then 2 ^ w - 1 else a / b)
  | 0x13 => some (if b = 0 then a else wrap ((v a).tmod (v b)))
  | 0x14 => some (if b = 0 then a else a % b)
  | 0x16 => some (bit (decide (a = b)))
  | 0x17 => some (w - a.size)
  | 0x18 => some (((List.range w).takeWhile (fun i => !a.testBit i)).length)
  | 0x19 => some (((List.range w).filter (fun i => a.testBit i)).length)
  | _ => none

/-- R259, R260: an integer operation of SALU on i64, or on the low halves on i32, sign-extended; sel by its third operand; a floating one on f64 or f32,
rounded once with the draw of lane 32 × CID, f32 zero-extended. -/
def ScalarResults : Prop :=
  ∀ (k : KOp) (e : KEnv), k.saluOk = true → k.unitNo = 7 → k.w = 64 → k.lgb < 4 →
    let w := k.et.bits
    let a := (BitVec.ofNat 64 (e.t / 2 ^ (256 * k.lgb))).toNat
    let port (i : Nat) : Nat := portElement e k i 64 0
    let r := k.salu e
    let rm := k.rmode e
    let pos (_ : Nat) : Nat := 0
    let gen := if rm = .sr then drawOf e pos 0 else 0
    (∀ v, scalarElement k.op w (a % 2 ^ w) (port 0 % 2 ^ w) = some v → r.1 = BitVec.ofInt 64 (Int.bmod v (2 ^ w)) ∧ r.2 = e.gens) ∧
    (k.op = 0x15 → r.1.toNat = (if port 1 ≠ 0 then a else port 0) ∧ r.2 = e.gens) ∧
    (∀ f, k.et.fmt? = some f →
      let x := f.decode (a % 2 ^ w)
      let y := f.decode (port 0 % 2 ^ w)
      let z := f.decode (port 1 % 2 ^ w)
      let one (v : FVal) : Nat := (f.deliver rm k.sat gen v).1
      let whole (v : FVal) : Nat := (f.deliver .rne false 0 v).1
      let bit (p : Bool) : Nat := if p then 1 else 0
      (k.op = 0x20 → r.1.toNat = one (x.add y)) ∧ (k.op = 0x21 → r.1.toNat = one (x.sub y)) ∧ (k.op = 0x22 → r.1.toNat = one (x.mul y)) ∧
      (k.op = 0x23 → r.1.toNat = one (x.fma y z)) ∧ (k.op = 0x24 → r.1.toNat = whole (x.min y)) ∧ (k.op = 0x25 → r.1.toNat = whole (x.max y)) ∧
      (k.op = 0x26 → r.1.toNat = bit (x.feq y)) ∧ (k.op = 0x27 → r.1.toNat = bit (x.lt y)) ∧
      (k.op = 0x28 → r.1.toNat = bit (x.lt y || x.feq y)) ∧
      (0x20 ≤ k.op → k.op ≤ 0x23 → Drawn e rm pos 1 r.2))

/-- R271: a cluster receives, in the trigger's lane groups, T of the cluster that the form names, zero where that one did not start. -/
def Exchanges : Prop :=
  ∀ (k : KOp) (e : KEnv) (ts : List (Option Nat)), Placed k → k.op ≤ 2 → ts ≠ [] →
    let g := ts.length
    let b := portElement e k 0 64 0
    let src := match k.op with
      | 0 => b % g
      | 1 => (e.cid + b) % g
      | _ => (e.cid ^^^ b) % g
    let r := k.xsw e ts
    r.ovCount = 0 ∧ r.gens = e.gens ∧ r.mask.toNat = groupMask k ∧
      bitsAt r.value.toNat (256 * k.lgb) k.w = (match ts[src]? with
        | some (some t) => bitsAt t (256 * k.lgb) k.w
        | _ => 0)

/-! ### Issues of one trigger -/

/-- An issue of a context of one cluster, the last of its bundle, that holds one move, its guard true, from a register, port or immediate into the trigger port of
unit `u`, and breaks no rule of encoding. -/
def Triggers (s : State) (core : Nat) (x : Context) (bd : Bundle) (m : Move) (u : Nat) : Prop :=
  (s.core core).ctx? x.uid = some x ∧ x.size = 1 ∧ bd.moves x.rep x.holds = [m] ∧ bd.traps [m] x.vwin x.rnd (!x.delays.isEmpty) = [] ∧
  m.slot.dstPort = some (.t u) ∧ (∀ i, m.slot.srcPort ≠ some (.sin i)) ∧ x.on 0 m.slot = true ∧ x.sourceBad 0 m = false ∧
  x.operandsBad 0 (m.slot.kop u) = false ∧ x.rep = bd.rpt ∧ x.delays = [] ∧ s.bents.find? x.bent ≠ none

/-- What the trigger reads (R217, R234). -/
def envOf (x : Context) (m : Move) : KEnv :=
  { cid := 0, t := x.source 0 m 0, ports := (x.cluster 0).o, rnd := x.rnd, seed := x.seed, gens := x.gens }

/-- The context has gone on past its bundle, `new` having taken flight behind what was in flight (R225, R228). -/
def WentOn (s t : State) (core : Nat) (x y : Context) (bd : Bundle) (new : List Flight) : Prop :=
  (t.core core).ctx? x.uid = some y ∧ y.pc = x.pc + bd.len ∧ y.rep = 0 ∧ y.steps = x.steps + 1 ∧ y.frozen = x.frozen ∧ y.ended = x.ended ∧
  y.flight = x.flight.map (fun f => { f with rem := f.rem - 1 }) ++ new ∧ RegistersKept s t ∧ t.pegs.map Prod.fst = s.pegs.map Prod.fst

/-- The context has frozen at its bundle with a trap for its peg; nothing of the bundle has happened (R278). -/
def Froze (s t : State) (core : Nat) (x : Context) (code : Nat) (addr : Word) : Prop :=
  ∃ y v, (t.core core).ctx? x.uid = some y ∧ y.frozen = true ∧ y.pc = x.pc ∧ y.flight = x.flight ∧ y.ovc = x.ovc ∧ y.trap = some v ∧ v.kind = 1 ∧
    v.code = code ∧ v.addr = addr ∧ v.seq = some x.seq ∧ Pended s t x.peg v ∧ RegistersKept s t ∧ t.mem = s.mem

/-- The issues from that of a trigger to that where its result can be read (R225). -/
def latency (u : Nat) : Nat :=
  match u with
  | 0 | 1 => 2
  | 2 | 11 => 4
  | 3 => 8
  | 4 | 5 => 3
  | 6 | 9 => 5
  | _ => 1

/-- A result of one cluster on its way into an x port. -/
def flightOf (x : Context) (b1 a2 u value mask : Nat) : Flight :=
  { cid := 0, dest := .x u, value := BitVec.ofNat 1024 value, mask := BitVec.ofNat 128 mask
    rem := (if x.compat then a2 else b1) - 1, step := if x.compat then x.steps + b1 else 0 }

/-- R217, R225, R236, R256: a trigger of a vector unit, the reduction unit, SALU or the switch puts its unit's result in flight into that unit's x port, to be
read after the unit's latency; a quantising one that takes the count of overflows past its threshold takes cause 0x0D instead. -/
def UnitsDeliver : Prop :=
  ∀ (s : State) (core u : Nat) (x : Context) (bd : Bundle) (m : Move), Triggers s core x bd m u →
    let k := m.slot.kop u
    let e := envOf x m
    let t := s.issueBundle core x bd
    let det := match s.bents.find? x.bent with
      | some b => b.det
      | none => false
    (∀ r : KRes, (u ≤ 1 ∧ r = k.valu e ∨ u = 2 ∧ r = k.vmac e ∨ u = 3 ∧ r = k.vsfu e ∨ u = 4 ∧ r = k.vprm e ∨ u = 5 ∧ r = k.cvt e ∨
        u = 6 ∧ r = k.red e [some e.t] det (Config.sumSplit (s.free + 1)) ∨ u = 11 ∧ r = k.xsw e [some e.t]) →
      let count := min (x.ovc + r.ovCount) (2 ^ 32 - 1)
      ((r.ovCount = 0 ∨ count ≤ x.thr) → x.ovc < 2 ^ 32 → ∃ y, WentOn s t core x y bd [flightOf x (latency u) (latency u) u r.value.toNat r.mask.toNat] ∧
        y.gens = r.gens ∧ y.ovc = count ∧ y.delays = [] ∧ t.mem = s.mem) ∧
      (r.ovCount ≠ 0 → x.thr < count → Froze s t core x 0x0D (BitVec.ofNat 64 (x.ovc * 2 ^ 32 + r.ovCount)))) ∧
    (u = 7 → ∃ y, WentOn s t core x y bd [flightOf x 1 1 7 ((k.salu e).1.toNat * 2 ^ (256 * k.lgb)) (255 * 2 ^ (32 * k.lgb))] ∧
      y.gens = (k.salu e).2 ∧ y.delays = [] ∧ t.mem = s.mem)

/-- R231, R261 to R264: a branch that is taken transfers to its target after two delay issues, a target that is outside the space, misaligned or without its
start bit takes cause 0x03 at the branch; a loop counts its counter down; halt and rest take effect after two delay issues too. -/
def BranchesAct : Prop :=
  ∀ (s : State) (core : Nat) (x : Context) (bd : Bundle) (m : Move) (r : Bent), Triggers s core x bd m 8 → s.bents.find? x.bent = some r →
    let k := m.slot.kop 8
    let t := s.issueBundle core x bd
    let disp := BitVec.ofNat 64 (x.source 0 m 0 / 2 ^ (256 * k.lgb))
    let cond := portElement (envOf x m) k 0 64 0
    let i := k.op - 4
    let lc := (AMap.get x.lc i 0).toNat
    let loop := 4 ≤ k.op ∧ k.op ≤ 7
    let taken := k.op = 0 ∨ k.op = 1 ∧ cond ≠ 0 ∨ k.op = 2 ∧ cond = 0 ∨ k.op = 8 ∨ loop ∧ 2 ≤ lc
    let target : Int := if k.op = 8 then (disp.toNat % 2 ^ 17 : Nat) else (x.pc : Int) + 16 * disp.toInt
    let good := 0 ≤ target ∧ target < 0x20000 ∧ target % 16 = 0 ∧ r.starts.find? (target.toNat / 16) ≠ none
    let counted : List Flight := [{ cid := 0, dest := .lc i, value := BitVec.ofNat 1024 (lc - 1), mask := BitVec.allOnes 128, rem := 0
                                    step := if x.compat then x.steps + 1 else 0 }]
    (taken → good → ∃ y, WentOn s t core x y bd (if loop then counted else []) ∧ y.delays = [(2, .goto target.toNat)]) ∧
    (taken → ¬ good → Froze s t core x 0x03 0) ∧
    (¬ taken → k.op ≤ 7 → ∃ y, WentOn s t core x y bd (if loop ∧ lc ≠ 0 then counted else []) ∧ y.delays = []) ∧
    (k.op = 0x10 → ∃ y, WentOn s t core x y bd [] ∧ y.delays = [(2, .halt)]) ∧
    (k.op = 0x11 → ∃ y, WentOn s t core x y bd [] ∧ y.delays = [(2, .rest)])

/-- R231, R263, R264: the issues after a branch: the first goes on, the second transfers, ends the context's issue or makes the boundary a rest point. -/
def DelaysRunOut : Prop :=
  ∀ (s : State) (core : Nat) (x : Context) (bd : Bundle) (a : AfterDelay), (s.core core).ctx? x.uid = some x → bd.moves x.rep x.holds = [] →
    bd.bad = none → bd.rpt = 0 → x.rep = 0 →
      let t := s.issueBundle core x bd
      let flight := x.flight.map (fun f => { f with rem := f.rem - 1 })
      (x.delays = [(2, a)] → ∃ y, (t.core core).ctx? x.uid = some y ∧ y.pc = x.pc + bd.len ∧ y.delays = [(1, a)] ∧ y.flight = flight) ∧
      (x.delays = [(1, a)] → ∃ y, (t.core core).ctx? x.uid = some y ∧ y.delays = [] ∧ y.flight = flight ∧
        (∀ g, a = .goto g → y.pc = g) ∧ (a = .halt → y.ended = true) ∧ (a = .rest → y.restNow = true ∧ y.pc = x.pc + bd.len))

/-- The data width of a unit's load (R265, R268, R275). -/
def loadWidth (op : Nat) : Nat := ([64, 256, 512, 1024][op / 64 % 4]?).getD 1024

/-- R265 to R268, R311, R368: the accumulator port reads, writes and adds to the window that its address selects, for a window without another owner;
an address outside takes cause 0x04, one off its multiple 0x05, another bent's window waits for firmware. -/
def AccumulatorPort : Prop :=
  ∀ (s : State) (core : Nat) (x : Context) (bd : Bundle) (m : Move), Triggers s core x bd m 9 →
    let k := m.slot.kop 9
    let e := envOf x m
    let t := s.issueBundle core x bd
    let o := k.op % 4
    let w := if o = 0 then loadWidth k.op else k.w
    let data := bitsAt e.t (256 * k.lgb) w
    let addr := if o = 0 then (BitVec.ofNat 64 (e.t / 2 ^ (256 * k.lgb))).toNat else portElement e k 0 64 0
    let el := addr % 1024
    let acc := (s.core core).acc
    (x.accw[addr / 2 ^ 16 % 8]? = none → Froze s t core x 0x04 0) ∧
    (∀ win, x.accw[addr / 2 ^ 16 % 8]? = some win →
      let entry := (s.core core).ownEntry win
      let mine := entry.getLsbD 31 = false ∨ ownedBy entry x.bent = true
      let a := 4096 * win + 4 * el
      let n := w / 8
      let aligned := el % (if w = 64 then 2 else 8) = 0
      (1024 < el + w / 32 → Froze s t core x 0x04 0) ∧
      (el + w / 32 ≤ 1024 → ¬ aligned → Froze s t core x 0x05 0) ∧
      (el + w / 32 ≤ 1024 → aligned → ¬ mine → ∃ y, (t.core core).ctx? x.uid = some y ∧ y.frozen = true ∧ y.accWait = some (win % 2 ^ 64) ∧ y.pc = x.pc ∧
        t.pegs = s.pegs) ∧
      (el + w / 32 ≤ 1024 → aligned → mine → (s.core core).bufPoisoned .acc a n = false →
        ((t.core core).ownEntry win).getLsbD 31 = true ∧
        (o = 0 → ∃ y, WentOn s t core x y bd [flightOf x 5 5 9 (leNat ((s.core core).readBuf .acc a n) * 2 ^ (256 * k.lgb)) ((2 ^ n - 1) * 2 ^ (32 * k.lgb))] ∧
          (t.core core).acc = acc) ∧
        (o = 1 → ∃ y, WentOn s t core x y bd [] ∧ leNat ((t.core core).readBuf .acc a n) = data ∧
          ∀ p, p < a ∨ a + n ≤ p → ByteMap.rd (t.core core).acc p = ByteMap.rd acc p) ∧
        (∀ f, o = 2 → k.et.fmt? = some f → ∃ y, WentOn s t core x y bd [] ∧
          (∀ j, j < w / k.et.bits → leNat ((t.core core).readBuf .acc (a + k.et.bytes * j) k.et.bytes) =
            (f.deliver (k.rmode e) k.sat (if k.rmode e = .sr then drawOf e (fun j => 256 * k.lgb + j * k.et.bits) j else 0)
              ((f.decode (leNat ((s.core core).readBuf .acc (a + k.et.bytes * j) k.et.bytes))).add (f.decode (bitsAt data (j * k.et.bits) k.et.bits)))).1) ∧
          ∀ p, p < a ∨ a + n ≤ p → ByteMap.rd (t.core core).acc p = ByteMap.rd acc p)))

/-- R91, R268 to R270: the SRF exchange reads and writes bytes of the bindings, and issues global loads and stores that its flag will report; a binding that is absent, an
input written to, or bytes past its LEN take cause 0x04, bytes off their multiple 0x05, a bank of another type 0x0A. -/
def SrfExchange : Prop :=
  ∀ (s : State) (core : Nat) (x : Context) (bd : Bundle) (m : Move), Triggers s core x bd m 10 →
    let k := m.slot.kop 10
    let e := envOf x m
    let t := s.issueBundle core x bd
    let o := k.op % 8
    let n := (if o = 0 ∨ o = 2 then loadWidth k.op else k.w) / 8
    let data := leBytes n (bitsAt e.t (256 * k.lgb) (8 * n))
    let scalar := BitVec.ofNat 64 (e.t / 2 ^ (256 * k.lgb))
    let first := BitVec.ofNat 64 (portElement e k 0 64 0)
    let ctl := portElement e k 1 64 0
    let where_ := (if o = 0 then scalar else first).toNat
    let out := decide (o ≠ 0)
    let i := where_ / 2 ^ 32 % 16
    let bind := if i < 8 then x.ins[i]? else x.outs[i - 8]?
    let off := where_ % 2 ^ 32
    let flag := if ctl / 16 % 2 = 1 then none else some (ctl % 16)
    let fmt (b : Binding) : Nat := ((s.core core).fmtOf (b.base / 0x20000)).toNat % 16
    (o ≤ 2 →
      (bind = none → Froze s t core x 0x04 0) ∧
      (∀ b, bind = some b →
        (fmt b ≠ m.slot.et → Froze s t core x 0x0A 0) ∧
        (fmt b = m.slot.et → (out = true ∧ i < 8 ∨ b.len < off + n) → Froze s t core x 0x04 0) ∧
        (fmt b = m.slot.et → (out = true → 8 ≤ i) → off + n ≤ b.len → off % n ≠ 0 → Froze s t core x 0x05 0) ∧
        (fmt b = m.slot.et → (out = true → 8 ≤ i) → off + n ≤ b.len → off % n = 0 →
          (o = 0 → (s.core core).bufPoisoned .srf (b.base + off) n = false → ∃ y, WentOn s t core x y bd
              [flightOf x 6 4 10 (leNat ((s.core core).readBuf .srf (b.base + off) n) * 2 ^ (256 * k.lgb)) ((2 ^ n - 1) * 2 ^ (32 * k.lgb))] ∧
            y.srfx = x.srfx ∧ t.mem = s.mem) ∧
          (o = 1 → ∃ y, WentOn s t core x y bd [] ∧ y.srfx = x.srfx ∧ (t.core core).readBuf .srf (b.base + off) n = data ∧
            ∀ p, p < b.base + off ∨ b.base + off + n ≤ p → ByteMap.rd (t.core core).srf p = ByteMap.rd (s.core core).srf p) ∧
          (∀ l, o = 2 → n = 8 → scalar.toNat % 8 = 0 → s.translate (s.bayOf core) x.bent scalar .read = .ok l → ∃ y q, WentOn s t core x y bd [] ∧
            y.srfx = x.srfx ++ [q] ∧ q.kind = .gld (b.base + off) ∧ q.size = 8 ∧ q.va = scalar ∧ q.cls = ctl / 32 % 16 ∧ q.flag = flag ∧
            q.parts = [{ off := 0, loc := l, len := 8 }] ∧ (t.core core).srf = (s.core core).srf)))) ∧
    (o = 3 →
      (first.toNat % min n 8 ≠ 0 → Froze s t core x 0x05 first) ∧
      (n = 8 → first.toNat % 8 = 0 →
        (∀ c, s.translate (s.bayOf core) x.bent first .write = .error c → Froze s t core x c first) ∧
        (∀ l, s.translate (s.bayOf core) x.bent first .write = .ok l → ∃ y q, WentOn s t core x y bd [] ∧
          y.srfx = x.srfx ++ [q] ∧ q.kind = .store data ∧ q.size = 8 ∧ q.va = first ∧ q.cls = ctl / 32 % 16 ∧ q.flag = flag ∧
          q.parts = [{ off := 0, loc := l, len := 8 }] ∧ t.mem = s.mem)))

/-- R272 to R274: the synchronisation unit sets, clears and reads flags, reads the timestamp, adds to a semaphore of the core, arms watches on semaphores and
phases, and acts on a phaser of the bay as a member; a count out of range takes cause 0x13, a misuse of a phaser 0x14. -/
def Synchronises : Prop :=
  ∀ (s : State) (core : Nat) (x : Context) (bd : Bundle) (m : Move), Triggers s core x bd m 12 →
    let k := m.slot.kop 12
    let e := envOf x m
    let t := s.issueBundle core x bd
    let arg := BitVec.ofNat 64 (e.t / 2 ^ (256 * k.lgb))
    let bits := BitVec.ofNat 16 arg.toNat
    let o0 := portElement e k 0 64 0
    let o1 := portElement e k 1 64 0
    let n := o0 % 256
    let result (v : Nat) : List Flight := [flightOf x 1 1 12 (v * 2 ^ (256 * k.lgb)) (255 * 2 ^ (32 * k.lgb))]
    let same (y : Context) : Prop := y.flags = x.flags ∧ y.semWatch = x.semWatch ∧ y.phWatch = x.phWatch
    (k.op = 0 → ∃ y, WentOn s t core x y bd [] ∧ y.flags = x.flags ||| bits) ∧
    (k.op = 1 → ∃ y, WentOn s t core x y bd [] ∧ y.flags = x.flags &&& ~~~ bits ∧
      (∀ f, bits.getLsbD f = true → y.semWatch.find? f = none ∧ y.phWatch.find? f = none) ∧
      (∀ f, bits.getLsbD f = false → y.semWatch.find? f = x.semWatch.find? f ∧ y.phWatch.find? f = x.phWatch.find? f)) ∧
    (k.op = 2 → ∃ y, WentOn s t core x y bd (result x.flags.toNat) ∧ same y) ∧
    (k.op = 3 → ∃ y, WentOn s t core x y bd (result (s.timestamp % 2 ^ 64)) ∧ same y) ∧
    (k.op = 4 → n = 255 → ∃ y, WentOn s t core x y bd [] ∧ same y ∧ (t.core core).sems = (s.core core).sems) ∧
    (k.op = 4 → n ≠ 255 →
      let v : Int := ((s.core core).sem n : Int) + bits.toInt
      ((v < 0 ∨ 65535 < v) → Froze s t core x 0x13 0) ∧
      (0 ≤ v → v ≤ 65535 → ∃ y, WentOn s t core x y bd [] ∧ y.flags = x.flags ∧ (t.core core).sem n = v.toNat ∧
        ∀ j, j ≠ n → (t.core core).sem j = (s.core core).sem j)) ∧
    (k.op = 5 → n = 255 → ∃ y, WentOn s t core x y bd [] ∧ y.flags = x.flags ||| BitVec.ofNat 16 (2 ^ (o1 % 16)) ∧ y.semWatch.find? (o1 % 16) = none) ∧
    (k.op = 5 → n ≠ 255 → ∃ y, WentOn s t core x y bd [] ∧ y.flags = x.flags ∧ ∃ thr, y.semWatch.find? (o1 % 16) = some (n, thr) ∧
      (thr = bits.toNat ∨ thr = 0 ∧ bits.toNat ≤ (s.core core).sem n)) ∧
    (6 ≤ k.op →
      let p := arg.toNat % 1024
      let bay := s.bayOf core
      let ph := s.phaser bay p
      let me : Member := .context x.uid
      let advanced (q : Phaser) : Prop := ∃ y, WentOn s t core x y bd [] ∧ y.flags = x.flags ∧ t.phaser bay p = q.advance ∧
        (∀ b j, (b ≠ bay ∨ j ≠ p) → t.phaser b j = s.phaser b j)
      let bad : Prop := Froze s t core x 0x14 0
      (s.ownsPhaser x.bent p = false → bad) ∧
      (s.ownsPhaser x.bent p = true →
        (k.op = 6 → (ph.member me ≠ none ∨ o0 % 4 = 0) → bad) ∧
        (k.op = 6 → ph.member me = none → (o0 % 4 = 1 → advanced (withMembers ph (ph.members ++ [(me, .sig, ph.p + 1)]))) ∧
          (o0 % 4 = 2 → advanced (withMembers ph (ph.members ++ [(me, .wait, ph.p)]))) ∧
          (o0 % 4 = 3 → advanced (withMembers ph (ph.members ++ [(me, .sigwait, ph.p + 1)])))) ∧
        (k.op = 7 → (∀ mode l, ph.member me = some (mode, l) → mode = .wait ∨ phaseReached { ph with p := l } (ph.p + 1) = true) → bad) ∧
        (∀ mode l, k.op = 7 → ph.member me = some (mode, l) → mode ≠ .wait → phaseReached { ph with p := l } (ph.p + 1) = false →
          advanced (withLocal ph me (l + 1))) ∧
        (k.op = 8 → (ph.member me = none ∨ ∃ l, ph.member me = some (.sig, l)) → bad) ∧
        (∀ l, k.op = 8 → ph.member me = some (.wait, l) → ∃ y, WentOn s t core x y bd [] ∧ y.phWatch.find? (o0 % 16) = some (p, l + 1) ∧
          t.phaser bay p = withLocal ph me (l + 1)) ∧
        (∀ l, k.op = 8 → ph.member me = some (.sigwait, l) → ∃ y, WentOn s t core x y bd [] ∧ y.phWatch.find? (o0 % 16) = some (p, l) ∧
          t.phaser bay p = ph) ∧
        (k.op = 9 → ph.member me = none → bad) ∧
        (k.op = 9 → ph.member me ≠ none → ∃ y, WentOn s t core x y bd [] ∧ (t.phaser bay p).member me = none)))

/-- R275: the spill unit of a context that runs without redirection reads and writes its cluster's slice of spill memory; an offset whose bytes pass the slice takes cause
0x04, one off its multiple 0x05. -/
def SpillsSlices : Prop :=
  ∀ (s : State) (core : Nat) (x : Context) (bd : Bundle) (m : Move), Triggers s core x bd m 13 → x.redir = false →
    let k := m.slot.kop 13
    let e := envOf x m
    let t := s.issueBundle core x bd
    let ld := k.op % 4 = 0
    let n := (if ld then loadWidth k.op else k.w) / 8
    let off := (if ld then (BitVec.ofNat 64 (e.t / 2 ^ (256 * k.lgb))).toNat else portElement e k 0 64 0) % 0x800
    let a := 0x2000 * x.first + 0x800 * x.slot + off
    let spill := (s.core core).spill
    (0x800 < off + n → Froze s t core x 0x04 0) ∧
    (off + n ≤ 0x800 → off % n ≠ 0 → Froze s t core x 0x05 0) ∧
    (off + n ≤ 0x800 → off % n = 0 →
      (ld → ∃ y, WentOn s t core x y bd [flightOf x 1 1 13 (leNat (ByteMap.rdN spill a n) * 2 ^ (256 * k.lgb)) ((2 ^ n - 1) * 2 ^ (32 * k.lgb))] ∧
        (t.core core).spill = spill) ∧
      (¬ ld → ∃ y, WentOn s t core x y bd [] ∧ leNat (ByteMap.rdN (t.core core).spill a n) = bitsAt e.t (256 * k.lgb) k.w ∧
        ∀ p, p < a ∨ a + n ≤ p → ByteMap.rd (t.core core).spill p = ByteMap.rd spill p))

end Sys2Proof.Claims

/-- R236 to R260, R271: what the vector units, the conversion, permutation and reduction units, SALU and the switch compute from their operands. -/
def Obligations.KernelUnitResults : Prop :=
  VectorIntegers ∧ VectorFloats ∧ VectorCompares ∧ MultiplyAccumulates ∧ SpecialFunctions ∧ Permutes ∧ Conversions ∧ Reductions ∧
    ScalarResults ∧ Exchanges

/-- R217, R225, R231, R256, R261 to R275: what one trigger does at its issue: a result in flight, a branch, an access of accumulators, the SRF, global or spill
memory, an operation on flags, semaphores and phasers, or its trap. -/
def Obligations.TriggersAct : Prop :=
  UnitsDeliver ∧ BranchesAct ∧ DelaysRunOut ∧ AccumulatorPort ∧ SrfExchange ∧ Synchronises ∧ SpillsSlices

/-- R109, R155: what reset leaves. Memory that reads 0 and registers without a reset value are the model's choices (logs 3 and 4). -/
def Obligations.ResetState : Prop := Sys2Proof.Claims.ResetMemoryIsCanonical ∧ Sys2Proof.Claims.ResetRegisterValues ∧ Sys2Proof.Claims.ResetPcIsAligned
end

