-- ==== Sys2Proof/Laws/State.lean ====
section
/-! SUPPORT. Every named update of the state, field by field: what it sets, and that it leaves every other field alone. All of them hold by
computation, so that no proof unfolds a record update. -/

namespace Sys2Proof.Machine

variable (s : State)

/-! ## setCore -/

@[simp] theorem State.setCore_sched (c : Nat) (k : Core) : (s.setCore c k).sched = s.sched := rfl
@[simp] theorem State.setCore_turns (c : Nat) (k : Core) : (s.setCore c k).turns = s.turns := rfl
@[simp] theorem State.setCore_cur (c : Nat) (k : Core) : (s.setCore c k).cur = s.cur := rfl
@[simp] theorem State.setCore_defer (c : Nat) (k : Core) : (s.setCore c k).defer = s.defer := rfl
@[simp] theorem State.setCore_free (c : Nat) (k : Core) : (s.setCore c k).free = s.free := rfl
@[simp] theorem State.setCore_stamp (c : Nat) (k : Core) : (s.setCore c k).stamp = s.stamp := rfl
@[simp] theorem State.setCore_timestamp (c : Nat) (k : Core) : (s.setCore c k).timestamp = s.timestamp := rfl
@[simp] theorem State.setCore_elapsed (c : Nat) (k : Core) : (s.setCore c k).elapsed = s.elapsed := rfl
@[simp] theorem State.setCore_clk (c : Nat) (k : Core) : (s.setCore c k).clk = s.clk := rfl
@[simp] theorem State.setCore_cores (c : Nat) (k : Core) : (s.setCore c k).cores = s.cores.put c k := rfl
@[simp] theorem State.setCore_bays (c : Nat) (k : Core) : (s.setCore c k).bays = s.bays := rfl
@[simp] theorem State.setCore_pegs (c : Nat) (k : Core) : (s.setCore c k).pegs = s.pegs := rfl
@[simp] theorem State.setCore_bents (c : Nat) (k : Core) : (s.setCore c k).bents = s.bents := rfl
@[simp] theorem State.setCore_mem (c : Nat) (k : Core) : (s.setCore c k).mem = s.mem := rfl
@[simp] theorem State.setCore_poison (c : Nat) (k : Core) : (s.setCore c k).poison = s.poison := rfl
@[simp] theorem State.setCore_unitKey (c : Nat) (k : Core) : (s.setCore c k).unitKey = s.unitKey := rfl
@[simp] theorem State.setCore_accums (c : Nat) (k : Core) : (s.setCore c k).accums = s.accums := rfl
@[simp] theorem State.setCore_pending (c : Nat) (k : Core) : (s.setCore c k).pending = s.pending := rfl
@[simp] theorem State.setCore_fences (c : Nat) (k : Core) : (s.setCore c k).fences = s.fences := rfl
@[simp] theorem State.setCore_merges (c : Nat) (k : Core) : (s.setCore c k).merges = s.merges := rfl
@[simp] theorem State.setCore_recordMerges (c : Nat) (k : Core) : (s.setCore c k).recordMerges = s.recordMerges := rfl
@[simp] theorem State.setCore_keys (c : Nat) (k : Core) : (s.setCore c k).keys = s.keys := rfl
@[simp] theorem State.setCore_sills (c : Nat) (k : Core) : (s.setCore c k).sills = s.sills := rfl
@[simp] theorem State.setCore_peers (c : Nat) (k : Core) : (s.setCore c k).peers = s.peers := rfl
@[simp] theorem State.setCore_router (c : Nat) (k : Core) : (s.setCore c k).router = s.router := rfl
@[simp] theorem State.setCore_sessions (c : Nat) (k : Core) : (s.setCore c k).sessions = s.sessions := rfl
@[simp] theorem State.setCore_nextSession (c : Nat) (k : Core) : (s.setCore c k).nextSession = s.nextSession := rfl
@[simp] theorem State.setCore_qps (c : Nat) (k : Core) : (s.setCore c k).qps = s.qps := rfl
@[simp] theorem State.setCore_outbox (c : Nat) (k : Core) : (s.setCore c k).outbox = s.outbox := rfl
@[simp] theorem State.setCore_ptp (c : Nat) (k : Core) : (s.setCore c k).ptp = s.ptp := rfl
@[simp] theorem State.setCore_mgmt (c : Nat) (k : Core) : (s.setCore c k).mgmt = s.mgmt := rfl

/-! ## setMe -/

@[simp] theorem State.setMe_sched (k : Core) : (s.setMe k).sched = s.sched := rfl
@[simp] theorem State.setMe_turns (k : Core) : (s.setMe k).turns = s.turns := rfl
@[simp] theorem State.setMe_cur (k : Core) : (s.setMe k).cur = s.cur := rfl
@[simp] theorem State.setMe_defer (k : Core) : (s.setMe k).defer = s.defer := rfl
@[simp] theorem State.setMe_free (k : Core) : (s.setMe k).free = s.free := rfl
@[simp] theorem State.setMe_stamp (k : Core) : (s.setMe k).stamp = s.stamp := rfl
@[simp] theorem State.setMe_timestamp (k : Core) : (s.setMe k).timestamp = s.timestamp := rfl
@[simp] theorem State.setMe_elapsed (k : Core) : (s.setMe k).elapsed = s.elapsed := rfl
@[simp] theorem State.setMe_clk (k : Core) : (s.setMe k).clk = s.clk := rfl
@[simp] theorem State.setMe_bays (k : Core) : (s.setMe k).bays = s.bays := rfl
@[simp] theorem State.setMe_pegs (k : Core) : (s.setMe k).pegs = s.pegs := rfl
@[simp] theorem State.setMe_bents (k : Core) : (s.setMe k).bents = s.bents := rfl
@[simp] theorem State.setMe_mem (k : Core) : (s.setMe k).mem = s.mem := rfl
@[simp] theorem State.setMe_poison (k : Core) : (s.setMe k).poison = s.poison := rfl
@[simp] theorem State.setMe_unitKey (k : Core) : (s.setMe k).unitKey = s.unitKey := rfl
@[simp] theorem State.setMe_accums (k : Core) : (s.setMe k).accums = s.accums := rfl
@[simp] theorem State.setMe_pending (k : Core) : (s.setMe k).pending = s.pending := rfl
@[simp] theorem State.setMe_fences (k : Core) : (s.setMe k).fences = s.fences := rfl
@[simp] theorem State.setMe_merges (k : Core) : (s.setMe k).merges = s.merges := rfl
@[simp] theorem State.setMe_recordMerges (k : Core) : (s.setMe k).recordMerges = s.recordMerges := rfl
@[simp] theorem State.setMe_keys (k : Core) : (s.setMe k).keys = s.keys := rfl
@[simp] theorem State.setMe_sills (k : Core) : (s.setMe k).sills = s.sills := rfl
@[simp] theorem State.setMe_peers (k : Core) : (s.setMe k).peers = s.peers := rfl
@[simp] theorem State.setMe_router (k : Core) : (s.setMe k).router = s.router := rfl
@[simp] theorem State.setMe_sessions (k : Core) : (s.setMe k).sessions = s.sessions := rfl
@[simp] theorem State.setMe_nextSession (k : Core) : (s.setMe k).nextSession = s.nextSession := rfl
@[simp] theorem State.setMe_qps (k : Core) : (s.setMe k).qps = s.qps := rfl
@[simp] theorem State.setMe_outbox (k : Core) : (s.setMe k).outbox = s.outbox := rfl
@[simp] theorem State.setMe_ptp (k : Core) : (s.setMe k).ptp = s.ptp := rfl
@[simp] theorem State.setMe_mgmt (k : Core) : (s.setMe k).mgmt = s.mgmt := rfl

/-! ## setPc -/

@[simp] theorem State.setPc_sched (w : Word) : (s.setPc w).sched = s.sched := rfl
@[simp] theorem State.setPc_turns (w : Word) : (s.setPc w).turns = s.turns := rfl
@[simp] theorem State.setPc_cur (w : Word) : (s.setPc w).cur = s.cur := rfl
@[simp] theorem State.setPc_defer (w : Word) : (s.setPc w).defer = s.defer := rfl
@[simp] theorem State.setPc_free (w : Word) : (s.setPc w).free = s.free := rfl
@[simp] theorem State.setPc_stamp (w : Word) : (s.setPc w).stamp = s.stamp := rfl
@[simp] theorem State.setPc_timestamp (w : Word) : (s.setPc w).timestamp = s.timestamp := rfl
@[simp] theorem State.setPc_elapsed (w : Word) : (s.setPc w).elapsed = s.elapsed := rfl
@[simp] theorem State.setPc_clk (w : Word) : (s.setPc w).clk = s.clk := rfl
@[simp] theorem State.setPc_bays (w : Word) : (s.setPc w).bays = s.bays := rfl
@[simp] theorem State.setPc_pegs (w : Word) : (s.setPc w).pegs = s.pegs := rfl
@[simp] theorem State.setPc_bents (w : Word) : (s.setPc w).bents = s.bents := rfl
@[simp] theorem State.setPc_mem (w : Word) : (s.setPc w).mem = s.mem := rfl
@[simp] theorem State.setPc_poison (w : Word) : (s.setPc w).poison = s.poison := rfl
@[simp] theorem State.setPc_unitKey (w : Word) : (s.setPc w).unitKey = s.unitKey := rfl
@[simp] theorem State.setPc_accums (w : Word) : (s.setPc w).accums = s.accums := rfl
@[simp] theorem State.setPc_pending (w : Word) : (s.setPc w).pending = s.pending := rfl
@[simp] theorem State.setPc_fences (w : Word) : (s.setPc w).fences = s.fences := rfl
@[simp] theorem State.setPc_merges (w : Word) : (s.setPc w).merges = s.merges := rfl
@[simp] theorem State.setPc_recordMerges (w : Word) : (s.setPc w).recordMerges = s.recordMerges := rfl
@[simp] theorem State.setPc_keys (w : Word) : (s.setPc w).keys = s.keys := rfl
@[simp] theorem State.setPc_sills (w : Word) : (s.setPc w).sills = s.sills := rfl
@[simp] theorem State.setPc_peers (w : Word) : (s.setPc w).peers = s.peers := rfl
@[simp] theorem State.setPc_router (w : Word) : (s.setPc w).router = s.router := rfl
@[simp] theorem State.setPc_sessions (w : Word) : (s.setPc w).sessions = s.sessions := rfl
@[simp] theorem State.setPc_nextSession (w : Word) : (s.setPc w).nextSession = s.nextSession := rfl
@[simp] theorem State.setPc_qps (w : Word) : (s.setPc w).qps = s.qps := rfl
@[simp] theorem State.setPc_outbox (w : Word) : (s.setPc w).outbox = s.outbox := rfl
@[simp] theorem State.setPc_ptp (w : Word) : (s.setPc w).ptp = s.ptp := rfl
@[simp] theorem State.setPc_mgmt (w : Word) : (s.setPc w).mgmt = s.mgmt := rfl

/-! ## putX -/

@[simp] theorem State.putX_sched (r : RegNo) (v : Word) : (s.putX r v).sched = s.sched := rfl
@[simp] theorem State.putX_turns (r : RegNo) (v : Word) : (s.putX r v).turns = s.turns := rfl
@[simp] theorem State.putX_cur (r : RegNo) (v : Word) : (s.putX r v).cur = s.cur := rfl
@[simp] theorem State.putX_defer (r : RegNo) (v : Word) : (s.putX r v).defer = s.defer := rfl
@[simp] theorem State.putX_free (r : RegNo) (v : Word) : (s.putX r v).free = s.free := rfl
@[simp] theorem State.putX_stamp (r : RegNo) (v : Word) : (s.putX r v).stamp = s.stamp := rfl
@[simp] theorem State.putX_timestamp (r : RegNo) (v : Word) : (s.putX r v).timestamp = s.timestamp := rfl
@[simp] theorem State.putX_elapsed (r : RegNo) (v : Word) : (s.putX r v).elapsed = s.elapsed := rfl
@[simp] theorem State.putX_clk (r : RegNo) (v : Word) : (s.putX r v).clk = s.clk := rfl
@[simp] theorem State.putX_bays (r : RegNo) (v : Word) : (s.putX r v).bays = s.bays := rfl
@[simp] theorem State.putX_pegs (r : RegNo) (v : Word) : (s.putX r v).pegs = s.pegs := rfl
@[simp] theorem State.putX_bents (r : RegNo) (v : Word) : (s.putX r v).bents = s.bents := rfl
@[simp] theorem State.putX_mem (r : RegNo) (v : Word) : (s.putX r v).mem = s.mem := rfl
@[simp] theorem State.putX_poison (r : RegNo) (v : Word) : (s.putX r v).poison = s.poison := rfl
@[simp] theorem State.putX_unitKey (r : RegNo) (v : Word) : (s.putX r v).unitKey = s.unitKey := rfl
@[simp] theorem State.putX_accums (r : RegNo) (v : Word) : (s.putX r v).accums = s.accums := rfl
@[simp] theorem State.putX_pending (r : RegNo) (v : Word) : (s.putX r v).pending = s.pending := rfl
@[simp] theorem State.putX_fences (r : RegNo) (v : Word) : (s.putX r v).fences = s.fences := rfl
@[simp] theorem State.putX_merges (r : RegNo) (v : Word) : (s.putX r v).merges = s.merges := rfl
@[simp] theorem State.putX_recordMerges (r : RegNo) (v : Word) : (s.putX r v).recordMerges = s.recordMerges := rfl
@[simp] theorem State.putX_keys (r : RegNo) (v : Word) : (s.putX r v).keys = s.keys := rfl
@[simp] theorem State.putX_sills (r : RegNo) (v : Word) : (s.putX r v).sills = s.sills := rfl
@[simp] theorem State.putX_peers (r : RegNo) (v : Word) : (s.putX r v).peers = s.peers := rfl
@[simp] theorem State.putX_router (r : RegNo) (v : Word) : (s.putX r v).router = s.router := rfl
@[simp] theorem State.putX_sessions (r : RegNo) (v : Word) : (s.putX r v).sessions = s.sessions := rfl
@[simp] theorem State.putX_nextSession (r : RegNo) (v : Word) : (s.putX r v).nextSession = s.nextSession := rfl
@[simp] theorem State.putX_qps (r : RegNo) (v : Word) : (s.putX r v).qps = s.qps := rfl
@[simp] theorem State.putX_outbox (r : RegNo) (v : Word) : (s.putX r v).outbox = s.outbox := rfl
@[simp] theorem State.putX_ptp (r : RegNo) (v : Word) : (s.putX r v).ptp = s.ptp := rfl
@[simp] theorem State.putX_mgmt (r : RegNo) (v : Word) : (s.putX r v).mgmt = s.mgmt := rfl

/-! ## putF -/

@[simp] theorem State.putF_sched (r : RegNo) (v : Word) : (s.putF r v).sched = s.sched := rfl
@[simp] theorem State.putF_turns (r : RegNo) (v : Word) : (s.putF r v).turns = s.turns := rfl
@[simp] theorem State.putF_cur (r : RegNo) (v : Word) : (s.putF r v).cur = s.cur := rfl
@[simp] theorem State.putF_defer (r : RegNo) (v : Word) : (s.putF r v).defer = s.defer := rfl
@[simp] theorem State.putF_free (r : RegNo) (v : Word) : (s.putF r v).free = s.free := rfl
@[simp] theorem State.putF_stamp (r : RegNo) (v : Word) : (s.putF r v).stamp = s.stamp := rfl
@[simp] theorem State.putF_timestamp (r : RegNo) (v : Word) : (s.putF r v).timestamp = s.timestamp := rfl
@[simp] theorem State.putF_elapsed (r : RegNo) (v : Word) : (s.putF r v).elapsed = s.elapsed := rfl
@[simp] theorem State.putF_clk (r : RegNo) (v : Word) : (s.putF r v).clk = s.clk := rfl
@[simp] theorem State.putF_bays (r : RegNo) (v : Word) : (s.putF r v).bays = s.bays := rfl
@[simp] theorem State.putF_pegs (r : RegNo) (v : Word) : (s.putF r v).pegs = s.pegs := rfl
@[simp] theorem State.putF_bents (r : RegNo) (v : Word) : (s.putF r v).bents = s.bents := rfl
@[simp] theorem State.putF_mem (r : RegNo) (v : Word) : (s.putF r v).mem = s.mem := rfl
@[simp] theorem State.putF_poison (r : RegNo) (v : Word) : (s.putF r v).poison = s.poison := rfl
@[simp] theorem State.putF_unitKey (r : RegNo) (v : Word) : (s.putF r v).unitKey = s.unitKey := rfl
@[simp] theorem State.putF_accums (r : RegNo) (v : Word) : (s.putF r v).accums = s.accums := rfl
@[simp] theorem State.putF_pending (r : RegNo) (v : Word) : (s.putF r v).pending = s.pending := rfl
@[simp] theorem State.putF_fences (r : RegNo) (v : Word) : (s.putF r v).fences = s.fences := rfl
@[simp] theorem State.putF_merges (r : RegNo) (v : Word) : (s.putF r v).merges = s.merges := rfl
@[simp] theorem State.putF_recordMerges (r : RegNo) (v : Word) : (s.putF r v).recordMerges = s.recordMerges := rfl
@[simp] theorem State.putF_keys (r : RegNo) (v : Word) : (s.putF r v).keys = s.keys := rfl
@[simp] theorem State.putF_sills (r : RegNo) (v : Word) : (s.putF r v).sills = s.sills := rfl
@[simp] theorem State.putF_peers (r : RegNo) (v : Word) : (s.putF r v).peers = s.peers := rfl
@[simp] theorem State.putF_router (r : RegNo) (v : Word) : (s.putF r v).router = s.router := rfl
@[simp] theorem State.putF_sessions (r : RegNo) (v : Word) : (s.putF r v).sessions = s.sessions := rfl
@[simp] theorem State.putF_nextSession (r : RegNo) (v : Word) : (s.putF r v).nextSession = s.nextSession := rfl
@[simp] theorem State.putF_qps (r : RegNo) (v : Word) : (s.putF r v).qps = s.qps := rfl
@[simp] theorem State.putF_outbox (r : RegNo) (v : Word) : (s.putF r v).outbox = s.outbox := rfl
@[simp] theorem State.putF_ptp (r : RegNo) (v : Word) : (s.putF r v).ptp = s.ptp := rfl
@[simp] theorem State.putF_mgmt (r : RegNo) (v : Word) : (s.putF r v).mgmt = s.mgmt := rfl

/-! ## skip -/

@[simp] theorem State.skip_sched : (s.skip).sched = s.sched := rfl
@[simp] theorem State.skip_turns : (s.skip).turns = s.turns := rfl
@[simp] theorem State.skip_cur : (s.skip).cur = s.cur := rfl
@[simp] theorem State.skip_defer : (s.skip).defer = s.defer := rfl
@[simp] theorem State.skip_free : (s.skip).free = s.free := rfl
@[simp] theorem State.skip_stamp : (s.skip).stamp = s.stamp := rfl
@[simp] theorem State.skip_timestamp : (s.skip).timestamp = s.timestamp := rfl
@[simp] theorem State.skip_elapsed : (s.skip).elapsed = s.elapsed := rfl
@[simp] theorem State.skip_clk : (s.skip).clk = s.clk := rfl
@[simp] theorem State.skip_bays : (s.skip).bays = s.bays := rfl
@[simp] theorem State.skip_pegs : (s.skip).pegs = s.pegs := rfl
@[simp] theorem State.skip_bents : (s.skip).bents = s.bents := rfl
@[simp] theorem State.skip_mem : (s.skip).mem = s.mem := rfl
@[simp] theorem State.skip_poison : (s.skip).poison = s.poison := rfl
@[simp] theorem State.skip_unitKey : (s.skip).unitKey = s.unitKey := rfl
@[simp] theorem State.skip_accums : (s.skip).accums = s.accums := rfl
@[simp] theorem State.skip_pending : (s.skip).pending = s.pending := rfl
@[simp] theorem State.skip_fences : (s.skip).fences = s.fences := rfl
@[simp] theorem State.skip_merges : (s.skip).merges = s.merges := rfl
@[simp] theorem State.skip_recordMerges : (s.skip).recordMerges = s.recordMerges := rfl
@[simp] theorem State.skip_keys : (s.skip).keys = s.keys := rfl
@[simp] theorem State.skip_sills : (s.skip).sills = s.sills := rfl
@[simp] theorem State.skip_peers : (s.skip).peers = s.peers := rfl
@[simp] theorem State.skip_router : (s.skip).router = s.router := rfl
@[simp] theorem State.skip_sessions : (s.skip).sessions = s.sessions := rfl
@[simp] theorem State.skip_nextSession : (s.skip).nextSession = s.nextSession := rfl
@[simp] theorem State.skip_qps : (s.skip).qps = s.qps := rfl
@[simp] theorem State.skip_outbox : (s.skip).outbox = s.outbox := rfl
@[simp] theorem State.skip_ptp : (s.skip).ptp = s.ptp := rfl
@[simp] theorem State.skip_mgmt : (s.skip).mgmt = s.mgmt := rfl

/-! ## setBay -/

@[simp] theorem State.setBay_sched (b : Nat) (y : Bay) : (s.setBay b y).sched = s.sched := rfl
@[simp] theorem State.setBay_turns (b : Nat) (y : Bay) : (s.setBay b y).turns = s.turns := rfl
@[simp] theorem State.setBay_cur (b : Nat) (y : Bay) : (s.setBay b y).cur = s.cur := rfl
@[simp] theorem State.setBay_defer (b : Nat) (y : Bay) : (s.setBay b y).defer = s.defer := rfl
@[simp] theorem State.setBay_free (b : Nat) (y : Bay) : (s.setBay b y).free = s.free := rfl
@[simp] theorem State.setBay_stamp (b : Nat) (y : Bay) : (s.setBay b y).stamp = s.stamp := rfl
@[simp] theorem State.setBay_timestamp (b : Nat) (y : Bay) : (s.setBay b y).timestamp = s.timestamp := rfl
@[simp] theorem State.setBay_elapsed (b : Nat) (y : Bay) : (s.setBay b y).elapsed = s.elapsed := rfl
@[simp] theorem State.setBay_clk (b : Nat) (y : Bay) : (s.setBay b y).clk = s.clk := rfl
@[simp] theorem State.setBay_cores (b : Nat) (y : Bay) : (s.setBay b y).cores = s.cores := rfl
@[simp] theorem State.setBay_bays (b : Nat) (y : Bay) : (s.setBay b y).bays = s.bays.put b y := rfl
@[simp] theorem State.setBay_pegs (b : Nat) (y : Bay) : (s.setBay b y).pegs = s.pegs := rfl
@[simp] theorem State.setBay_bents (b : Nat) (y : Bay) : (s.setBay b y).bents = s.bents := rfl
@[simp] theorem State.setBay_mem (b : Nat) (y : Bay) : (s.setBay b y).mem = s.mem := rfl
@[simp] theorem State.setBay_poison (b : Nat) (y : Bay) : (s.setBay b y).poison = s.poison := rfl
@[simp] theorem State.setBay_unitKey (b : Nat) (y : Bay) : (s.setBay b y).unitKey = s.unitKey := rfl
@[simp] theorem State.setBay_accums (b : Nat) (y : Bay) : (s.setBay b y).accums = s.accums := rfl
@[simp] theorem State.setBay_pending (b : Nat) (y : Bay) : (s.setBay b y).pending = s.pending := rfl
@[simp] theorem State.setBay_fences (b : Nat) (y : Bay) : (s.setBay b y).fences = s.fences := rfl
@[simp] theorem State.setBay_merges (b : Nat) (y : Bay) : (s.setBay b y).merges = s.merges := rfl
@[simp] theorem State.setBay_recordMerges (b : Nat) (y : Bay) : (s.setBay b y).recordMerges = s.recordMerges := rfl
@[simp] theorem State.setBay_keys (b : Nat) (y : Bay) : (s.setBay b y).keys = s.keys := rfl
@[simp] theorem State.setBay_sills (b : Nat) (y : Bay) : (s.setBay b y).sills = s.sills := rfl
@[simp] theorem State.setBay_peers (b : Nat) (y : Bay) : (s.setBay b y).peers = s.peers := rfl
@[simp] theorem State.setBay_router (b : Nat) (y : Bay) : (s.setBay b y).router = s.router := rfl
@[simp] theorem State.setBay_sessions (b : Nat) (y : Bay) : (s.setBay b y).sessions = s.sessions := rfl
@[simp] theorem State.setBay_nextSession (b : Nat) (y : Bay) : (s.setBay b y).nextSession = s.nextSession := rfl
@[simp] theorem State.setBay_qps (b : Nat) (y : Bay) : (s.setBay b y).qps = s.qps := rfl
@[simp] theorem State.setBay_outbox (b : Nat) (y : Bay) : (s.setBay b y).outbox = s.outbox := rfl
@[simp] theorem State.setBay_ptp (b : Nat) (y : Bay) : (s.setBay b y).ptp = s.ptp := rfl
@[simp] theorem State.setBay_mgmt (b : Nat) (y : Bay) : (s.setBay b y).mgmt = s.mgmt := rfl

/-! ## setPhaser -/

@[simp] theorem State.setPhaser_sched (b n : Nat) (p : Phaser) : (s.setPhaser b n p).sched = s.sched := rfl
@[simp] theorem State.setPhaser_turns (b n : Nat) (p : Phaser) : (s.setPhaser b n p).turns = s.turns := rfl
@[simp] theorem State.setPhaser_cur (b n : Nat) (p : Phaser) : (s.setPhaser b n p).cur = s.cur := rfl
@[simp] theorem State.setPhaser_defer (b n : Nat) (p : Phaser) : (s.setPhaser b n p).defer = s.defer := rfl
@[simp] theorem State.setPhaser_free (b n : Nat) (p : Phaser) : (s.setPhaser b n p).free = s.free := rfl
@[simp] theorem State.setPhaser_stamp (b n : Nat) (p : Phaser) : (s.setPhaser b n p).stamp = s.stamp := rfl
@[simp] theorem State.setPhaser_timestamp (b n : Nat) (p : Phaser) : (s.setPhaser b n p).timestamp = s.timestamp := rfl
@[simp] theorem State.setPhaser_elapsed (b n : Nat) (p : Phaser) : (s.setPhaser b n p).elapsed = s.elapsed := rfl
@[simp] theorem State.setPhaser_clk (b n : Nat) (p : Phaser) : (s.setPhaser b n p).clk = s.clk := rfl
@[simp] theorem State.setPhaser_cores (b n : Nat) (p : Phaser) : (s.setPhaser b n p).cores = s.cores := rfl
@[simp] theorem State.setPhaser_pegs (b n : Nat) (p : Phaser) : (s.setPhaser b n p).pegs = s.pegs := rfl
@[simp] theorem State.setPhaser_bents (b n : Nat) (p : Phaser) : (s.setPhaser b n p).bents = s.bents := rfl
@[simp] theorem State.setPhaser_mem (b n : Nat) (p : Phaser) : (s.setPhaser b n p).mem = s.mem := rfl
@[simp] theorem State.setPhaser_poison (b n : Nat) (p : Phaser) : (s.setPhaser b n p).poison = s.poison := rfl
@[simp] theorem State.setPhaser_unitKey (b n : Nat) (p : Phaser) : (s.setPhaser b n p).unitKey = s.unitKey := rfl
@[simp] theorem State.setPhaser_accums (b n : Nat) (p : Phaser) : (s.setPhaser b n p).accums = s.accums := rfl
@[simp] theorem State.setPhaser_pending (b n : Nat) (p : Phaser) : (s.setPhaser b n p).pending = s.pending := rfl
@[simp] theorem State.setPhaser_fences (b n : Nat) (p : Phaser) : (s.setPhaser b n p).fences = s.fences := rfl
@[simp] theorem State.setPhaser_merges (b n : Nat) (p : Phaser) : (s.setPhaser b n p).merges = s.merges := rfl
@[simp] theorem State.setPhaser_recordMerges (b n : Nat) (p : Phaser) : (s.setPhaser b n p).recordMerges = s.recordMerges := rfl
@[simp] theorem State.setPhaser_keys (b n : Nat) (p : Phaser) : (s.setPhaser b n p).keys = s.keys := rfl
@[simp] theorem State.setPhaser_sills (b n : Nat) (p : Phaser) : (s.setPhaser b n p).sills = s.sills := rfl
@[simp] theorem State.setPhaser_peers (b n : Nat) (p : Phaser) : (s.setPhaser b n p).peers = s.peers := rfl
@[simp] theorem State.setPhaser_router (b n : Nat) (p : Phaser) : (s.setPhaser b n p).router = s.router := rfl
@[simp] theorem State.setPhaser_sessions (b n : Nat) (p : Phaser) : (s.setPhaser b n p).sessions = s.sessions := rfl
@[simp] theorem State.setPhaser_nextSession (b n : Nat) (p : Phaser) : (s.setPhaser b n p).nextSession = s.nextSession := rfl
@[simp] theorem State.setPhaser_qps (b n : Nat) (p : Phaser) : (s.setPhaser b n p).qps = s.qps := rfl
@[simp] theorem State.setPhaser_outbox (b n : Nat) (p : Phaser) : (s.setPhaser b n p).outbox = s.outbox := rfl
@[simp] theorem State.setPhaser_ptp (b n : Nat) (p : Phaser) : (s.setPhaser b n p).ptp = s.ptp := rfl
@[simp] theorem State.setPhaser_mgmt (b n : Nat) (p : Phaser) : (s.setPhaser b n p).mgmt = s.mgmt := rfl

/-! ## setSill -/

@[simp] theorem State.setSill_sched (ch : Nat) (u : Sill) : (s.setSill ch u).sched = s.sched := rfl
@[simp] theorem State.setSill_turns (ch : Nat) (u : Sill) : (s.setSill ch u).turns = s.turns := rfl
@[simp] theorem State.setSill_cur (ch : Nat) (u : Sill) : (s.setSill ch u).cur = s.cur := rfl
@[simp] theorem State.setSill_defer (ch : Nat) (u : Sill) : (s.setSill ch u).defer = s.defer := rfl
@[simp] theorem State.setSill_free (ch : Nat) (u : Sill) : (s.setSill ch u).free = s.free := rfl
@[simp] theorem State.setSill_stamp (ch : Nat) (u : Sill) : (s.setSill ch u).stamp = s.stamp := rfl
@[simp] theorem State.setSill_timestamp (ch : Nat) (u : Sill) : (s.setSill ch u).timestamp = s.timestamp := rfl
@[simp] theorem State.setSill_elapsed (ch : Nat) (u : Sill) : (s.setSill ch u).elapsed = s.elapsed := rfl
@[simp] theorem State.setSill_clk (ch : Nat) (u : Sill) : (s.setSill ch u).clk = s.clk := rfl
@[simp] theorem State.setSill_cores (ch : Nat) (u : Sill) : (s.setSill ch u).cores = s.cores := rfl
@[simp] theorem State.setSill_bays (ch : Nat) (u : Sill) : (s.setSill ch u).bays = s.bays := rfl
@[simp] theorem State.setSill_pegs (ch : Nat) (u : Sill) : (s.setSill ch u).pegs = s.pegs := rfl
@[simp] theorem State.setSill_bents (ch : Nat) (u : Sill) : (s.setSill ch u).bents = s.bents := rfl
@[simp] theorem State.setSill_mem (ch : Nat) (u : Sill) : (s.setSill ch u).mem = s.mem := rfl
@[simp] theorem State.setSill_poison (ch : Nat) (u : Sill) : (s.setSill ch u).poison = s.poison := rfl
@[simp] theorem State.setSill_unitKey (ch : Nat) (u : Sill) : (s.setSill ch u).unitKey = s.unitKey := rfl
@[simp] theorem State.setSill_accums (ch : Nat) (u : Sill) : (s.setSill ch u).accums = s.accums := rfl
@[simp] theorem State.setSill_pending (ch : Nat) (u : Sill) : (s.setSill ch u).pending = s.pending := rfl
@[simp] theorem State.setSill_fences (ch : Nat) (u : Sill) : (s.setSill ch u).fences = s.fences := rfl
@[simp] theorem State.setSill_merges (ch : Nat) (u : Sill) : (s.setSill ch u).merges = s.merges := rfl
@[simp] theorem State.setSill_recordMerges (ch : Nat) (u : Sill) : (s.setSill ch u).recordMerges = s.recordMerges := rfl
@[simp] theorem State.setSill_keys (ch : Nat) (u : Sill) : (s.setSill ch u).keys = s.keys := rfl
@[simp] theorem State.setSill_sills (ch : Nat) (u : Sill) : (s.setSill ch u).sills = s.sills.put ch u := rfl
@[simp] theorem State.setSill_peers (ch : Nat) (u : Sill) : (s.setSill ch u).peers = s.peers := rfl
@[simp] theorem State.setSill_router (ch : Nat) (u : Sill) : (s.setSill ch u).router = s.router := rfl
@[simp] theorem State.setSill_sessions (ch : Nat) (u : Sill) : (s.setSill ch u).sessions = s.sessions := rfl
@[simp] theorem State.setSill_nextSession (ch : Nat) (u : Sill) : (s.setSill ch u).nextSession = s.nextSession := rfl
@[simp] theorem State.setSill_qps (ch : Nat) (u : Sill) : (s.setSill ch u).qps = s.qps := rfl
@[simp] theorem State.setSill_outbox (ch : Nat) (u : Sill) : (s.setSill ch u).outbox = s.outbox := rfl
@[simp] theorem State.setSill_ptp (ch : Nat) (u : Sill) : (s.setSill ch u).ptp = s.ptp := rfl
@[simp] theorem State.setSill_mgmt (ch : Nat) (u : Sill) : (s.setSill ch u).mgmt = s.mgmt := rfl

/-! ## setPeg -/

@[simp] theorem State.setPeg_sched (id : Nat) (p : Peg) : (s.setPeg id p).sched = s.sched := rfl
@[simp] theorem State.setPeg_turns (id : Nat) (p : Peg) : (s.setPeg id p).turns = s.turns := rfl
@[simp] theorem State.setPeg_cur (id : Nat) (p : Peg) : (s.setPeg id p).cur = s.cur := rfl
@[simp] theorem State.setPeg_defer (id : Nat) (p : Peg) : (s.setPeg id p).defer = s.defer := rfl
@[simp] theorem State.setPeg_free (id : Nat) (p : Peg) : (s.setPeg id p).free = s.free := rfl
@[simp] theorem State.setPeg_stamp (id : Nat) (p : Peg) : (s.setPeg id p).stamp = s.stamp := rfl
@[simp] theorem State.setPeg_timestamp (id : Nat) (p : Peg) : (s.setPeg id p).timestamp = s.timestamp := rfl
@[simp] theorem State.setPeg_elapsed (id : Nat) (p : Peg) : (s.setPeg id p).elapsed = s.elapsed := rfl
@[simp] theorem State.setPeg_clk (id : Nat) (p : Peg) : (s.setPeg id p).clk = s.clk := rfl
@[simp] theorem State.setPeg_cores (id : Nat) (p : Peg) : (s.setPeg id p).cores = s.cores := rfl
@[simp] theorem State.setPeg_bays (id : Nat) (p : Peg) : (s.setPeg id p).bays = s.bays := rfl
@[simp] theorem State.setPeg_pegs (id : Nat) (p : Peg) : (s.setPeg id p).pegs = s.pegs.put id p := rfl
@[simp] theorem State.setPeg_bents (id : Nat) (p : Peg) : (s.setPeg id p).bents = s.bents := rfl
@[simp] theorem State.setPeg_mem (id : Nat) (p : Peg) : (s.setPeg id p).mem = s.mem := rfl
@[simp] theorem State.setPeg_poison (id : Nat) (p : Peg) : (s.setPeg id p).poison = s.poison := rfl
@[simp] theorem State.setPeg_unitKey (id : Nat) (p : Peg) : (s.setPeg id p).unitKey = s.unitKey := rfl
@[simp] theorem State.setPeg_accums (id : Nat) (p : Peg) : (s.setPeg id p).accums = s.accums := rfl
@[simp] theorem State.setPeg_pending (id : Nat) (p : Peg) : (s.setPeg id p).pending = s.pending := rfl
@[simp] theorem State.setPeg_fences (id : Nat) (p : Peg) : (s.setPeg id p).fences = s.fences := rfl
@[simp] theorem State.setPeg_merges (id : Nat) (p : Peg) : (s.setPeg id p).merges = s.merges := rfl
@[simp] theorem State.setPeg_recordMerges (id : Nat) (p : Peg) : (s.setPeg id p).recordMerges = s.recordMerges := rfl
@[simp] theorem State.setPeg_keys (id : Nat) (p : Peg) : (s.setPeg id p).keys = s.keys := rfl
@[simp] theorem State.setPeg_sills (id : Nat) (p : Peg) : (s.setPeg id p).sills = s.sills := rfl
@[simp] theorem State.setPeg_peers (id : Nat) (p : Peg) : (s.setPeg id p).peers = s.peers := rfl
@[simp] theorem State.setPeg_router (id : Nat) (p : Peg) : (s.setPeg id p).router = s.router := rfl
@[simp] theorem State.setPeg_sessions (id : Nat) (p : Peg) : (s.setPeg id p).sessions = s.sessions := rfl
@[simp] theorem State.setPeg_nextSession (id : Nat) (p : Peg) : (s.setPeg id p).nextSession = s.nextSession := rfl
@[simp] theorem State.setPeg_qps (id : Nat) (p : Peg) : (s.setPeg id p).qps = s.qps := rfl
@[simp] theorem State.setPeg_outbox (id : Nat) (p : Peg) : (s.setPeg id p).outbox = s.outbox := rfl
@[simp] theorem State.setPeg_ptp (id : Nat) (p : Peg) : (s.setPeg id p).ptp = s.ptp := rfl
@[simp] theorem State.setPeg_mgmt (id : Nat) (p : Peg) : (s.setPeg id p).mgmt = s.mgmt := rfl

/-! ## modPeg -/

@[simp] theorem State.modPeg_sched (id : Nat) (f : Peg → Peg) : (s.modPeg id f).sched = s.sched := rfl
@[simp] theorem State.modPeg_turns (id : Nat) (f : Peg → Peg) : (s.modPeg id f).turns = s.turns := rfl
@[simp] theorem State.modPeg_cur (id : Nat) (f : Peg → Peg) : (s.modPeg id f).cur = s.cur := rfl
@[simp] theorem State.modPeg_defer (id : Nat) (f : Peg → Peg) : (s.modPeg id f).defer = s.defer := rfl
@[simp] theorem State.modPeg_free (id : Nat) (f : Peg → Peg) : (s.modPeg id f).free = s.free := rfl
@[simp] theorem State.modPeg_stamp (id : Nat) (f : Peg → Peg) : (s.modPeg id f).stamp = s.stamp := rfl
@[simp] theorem State.modPeg_timestamp (id : Nat) (f : Peg → Peg) : (s.modPeg id f).timestamp = s.timestamp := rfl
@[simp] theorem State.modPeg_elapsed (id : Nat) (f : Peg → Peg) : (s.modPeg id f).elapsed = s.elapsed := rfl
@[simp] theorem State.modPeg_clk (id : Nat) (f : Peg → Peg) : (s.modPeg id f).clk = s.clk := rfl
@[simp] theorem State.modPeg_cores (id : Nat) (f : Peg → Peg) : (s.modPeg id f).cores = s.cores := rfl
@[simp] theorem State.modPeg_bays (id : Nat) (f : Peg → Peg) : (s.modPeg id f).bays = s.bays := rfl
@[simp] theorem State.modPeg_pegs (id : Nat) (f : Peg → Peg) : (s.modPeg id f).pegs = s.pegs.modify id f := rfl
@[simp] theorem State.modPeg_bents (id : Nat) (f : Peg → Peg) : (s.modPeg id f).bents = s.bents := rfl
@[simp] theorem State.modPeg_mem (id : Nat) (f : Peg → Peg) : (s.modPeg id f).mem = s.mem := rfl
@[simp] theorem State.modPeg_poison (id : Nat) (f : Peg → Peg) : (s.modPeg id f).poison = s.poison := rfl
@[simp] theorem State.modPeg_unitKey (id : Nat) (f : Peg → Peg) : (s.modPeg id f).unitKey = s.unitKey := rfl
@[simp] theorem State.modPeg_accums (id : Nat) (f : Peg → Peg) : (s.modPeg id f).accums = s.accums := rfl
@[simp] theorem State.modPeg_pending (id : Nat) (f : Peg → Peg) : (s.modPeg id f).pending = s.pending := rfl
@[simp] theorem State.modPeg_fences (id : Nat) (f : Peg → Peg) : (s.modPeg id f).fences = s.fences := rfl
@[simp] theorem State.modPeg_merges (id : Nat) (f : Peg → Peg) : (s.modPeg id f).merges = s.merges := rfl
@[simp] theorem State.modPeg_recordMerges (id : Nat) (f : Peg → Peg) : (s.modPeg id f).recordMerges = s.recordMerges := rfl
@[simp] theorem State.modPeg_keys (id : Nat) (f : Peg → Peg) : (s.modPeg id f).keys = s.keys := rfl
@[simp] theorem State.modPeg_sills (id : Nat) (f : Peg → Peg) : (s.modPeg id f).sills = s.sills := rfl
@[simp] theorem State.modPeg_peers (id : Nat) (f : Peg → Peg) : (s.modPeg id f).peers = s.peers := rfl
@[simp] theorem State.modPeg_router (id : Nat) (f : Peg → Peg) : (s.modPeg id f).router = s.router := rfl
@[simp] theorem State.modPeg_sessions (id : Nat) (f : Peg → Peg) : (s.modPeg id f).sessions = s.sessions := rfl
@[simp] theorem State.modPeg_nextSession (id : Nat) (f : Peg → Peg) : (s.modPeg id f).nextSession = s.nextSession := rfl
@[simp] theorem State.modPeg_qps (id : Nat) (f : Peg → Peg) : (s.modPeg id f).qps = s.qps := rfl
@[simp] theorem State.modPeg_outbox (id : Nat) (f : Peg → Peg) : (s.modPeg id f).outbox = s.outbox := rfl
@[simp] theorem State.modPeg_ptp (id : Nat) (f : Peg → Peg) : (s.modPeg id f).ptp = s.ptp := rfl
@[simp] theorem State.modPeg_mgmt (id : Nat) (f : Peg → Peg) : (s.modPeg id f).mgmt = s.mgmt := rfl

/-! ## modBent -/

@[simp] theorem State.modBent_sched (b : Nat) (f : Bent → Bent) : (s.modBent b f).sched = s.sched := rfl
@[simp] theorem State.modBent_turns (b : Nat) (f : Bent → Bent) : (s.modBent b f).turns = s.turns := rfl
@[simp] theorem State.modBent_cur (b : Nat) (f : Bent → Bent) : (s.modBent b f).cur = s.cur := rfl
@[simp] theorem State.modBent_defer (b : Nat) (f : Bent → Bent) : (s.modBent b f).defer = s.defer := rfl
@[simp] theorem State.modBent_free (b : Nat) (f : Bent → Bent) : (s.modBent b f).free = s.free := rfl
@[simp] theorem State.modBent_stamp (b : Nat) (f : Bent → Bent) : (s.modBent b f).stamp = s.stamp := rfl
@[simp] theorem State.modBent_timestamp (b : Nat) (f : Bent → Bent) : (s.modBent b f).timestamp = s.timestamp := rfl
@[simp] theorem State.modBent_elapsed (b : Nat) (f : Bent → Bent) : (s.modBent b f).elapsed = s.elapsed := rfl
@[simp] theorem State.modBent_clk (b : Nat) (f : Bent → Bent) : (s.modBent b f).clk = s.clk := rfl
@[simp] theorem State.modBent_cores (b : Nat) (f : Bent → Bent) : (s.modBent b f).cores = s.cores := rfl
@[simp] theorem State.modBent_bays (b : Nat) (f : Bent → Bent) : (s.modBent b f).bays = s.bays := rfl
@[simp] theorem State.modBent_pegs (b : Nat) (f : Bent → Bent) : (s.modBent b f).pegs = s.pegs := rfl
@[simp] theorem State.modBent_bents (b : Nat) (f : Bent → Bent) : (s.modBent b f).bents = s.bents.modify b f := rfl
@[simp] theorem State.modBent_mem (b : Nat) (f : Bent → Bent) : (s.modBent b f).mem = s.mem := rfl
@[simp] theorem State.modBent_poison (b : Nat) (f : Bent → Bent) : (s.modBent b f).poison = s.poison := rfl
@[simp] theorem State.modBent_unitKey (b : Nat) (f : Bent → Bent) : (s.modBent b f).unitKey = s.unitKey := rfl
@[simp] theorem State.modBent_accums (b : Nat) (f : Bent → Bent) : (s.modBent b f).accums = s.accums := rfl
@[simp] theorem State.modBent_pending (b : Nat) (f : Bent → Bent) : (s.modBent b f).pending = s.pending := rfl
@[simp] theorem State.modBent_fences (b : Nat) (f : Bent → Bent) : (s.modBent b f).fences = s.fences := rfl
@[simp] theorem State.modBent_merges (b : Nat) (f : Bent → Bent) : (s.modBent b f).merges = s.merges := rfl
@[simp] theorem State.modBent_recordMerges (b : Nat) (f : Bent → Bent) : (s.modBent b f).recordMerges = s.recordMerges := rfl
@[simp] theorem State.modBent_keys (b : Nat) (f : Bent → Bent) : (s.modBent b f).keys = s.keys := rfl
@[simp] theorem State.modBent_sills (b : Nat) (f : Bent → Bent) : (s.modBent b f).sills = s.sills := rfl
@[simp] theorem State.modBent_peers (b : Nat) (f : Bent → Bent) : (s.modBent b f).peers = s.peers := rfl
@[simp] theorem State.modBent_router (b : Nat) (f : Bent → Bent) : (s.modBent b f).router = s.router := rfl
@[simp] theorem State.modBent_sessions (b : Nat) (f : Bent → Bent) : (s.modBent b f).sessions = s.sessions := rfl
@[simp] theorem State.modBent_nextSession (b : Nat) (f : Bent → Bent) : (s.modBent b f).nextSession = s.nextSession := rfl
@[simp] theorem State.modBent_qps (b : Nat) (f : Bent → Bent) : (s.modBent b f).qps = s.qps := rfl
@[simp] theorem State.modBent_outbox (b : Nat) (f : Bent → Bent) : (s.modBent b f).outbox = s.outbox := rfl
@[simp] theorem State.modBent_ptp (b : Nat) (f : Bent → Bent) : (s.modBent b f).ptp = s.ptp := rfl
@[simp] theorem State.modBent_mgmt (b : Nat) (f : Bent → Bent) : (s.modBent b f).mgmt = s.mgmt := rfl

end Sys2Proof.Machine
end

