-- ==== Sys2Proof/Laws/Table.lean ====
section
/-! SUPPORT. The laws of the sparse tables and of the byte tables: what a read finds after a write, and that every operation keeps keys
rising and byte tables canonical. -/

namespace Sys2Proof.Machine

/-! ## Sparse tables -/

@[simp] theorem AMap.find?_nil {α : Type} (n : Nat) : AMap.find? ([] : AMap α) n = none := rfl

theorem AMap.find?_cons {α : Type} (k : Nat) (v : α) (t : AMap α) (n : Nat) :
    AMap.find? ((k, v) :: t) n = if k = n then some v else AMap.find? t n := rfl

/-- After a put the key has the value put. -/
@[simp] theorem AMap.find?_put_same {α : Type} (m : AMap α) (n : Nat) (x : α) : (AMap.put m n x).find? n = some x := by
  induction m with
  | nil => simp [AMap.put, AMap.find?]
  | cons e t ih =>
    obtain ⟨k, v⟩ := e
    simp only [AMap.put]
    split
    · simp [AMap.find?]
    · split
      · simp [AMap.find?]
      · rename_i h
        simp [AMap.find?, h, ih]

/-- A put leaves every other key alone. -/
@[simp] theorem AMap.find?_put_other {α : Type} (m : AMap α) (n j : Nat) (x : α) (h : j ≠ n) :
    (AMap.put m n x).find? j = m.find? j := by
  induction m with
  | nil => simp [AMap.put, AMap.find?, h.symm]
  | cons e t ih =>
    obtain ⟨k, v⟩ := e
    simp only [AMap.put]
    split
    · simp [AMap.find?, h.symm]
    · split
      · rename_i h2
        subst h2
        simp [AMap.find?, h.symm]
      · simp [AMap.find?, ih]

theorem AMap.find?_put {α : Type} (m : AMap α) (n j : Nat) (x : α) :
    (AMap.put m n x).find? j = if j = n then some x else m.find? j := by
  by_cases h : j = n
  · subst h; simp
  · simp [h]

/-- An erased key has no entry. -/
@[simp] theorem AMap.find?_erase_same {α : Type} (m : AMap α) (n : Nat) : (AMap.erase m n).find? n = none := by
  induction m with
  | nil => rfl
  | cons e t ih =>
    obtain ⟨k, v⟩ := e
    simp only [AMap.erase]
    split
    · exact ih
    · rename_i h
      simp [AMap.find?, h, ih]

/-- An erase leaves every other key alone. -/
@[simp] theorem AMap.find?_erase_other {α : Type} (m : AMap α) (n j : Nat) (h : j ≠ n) :
    (AMap.erase m n).find? j = m.find? j := by
  induction m with
  | nil => rfl
  | cons e t ih =>
    obtain ⟨k, v⟩ := e
    simp only [AMap.erase]
    split
    · rename_i h2
      subst h2
      simp [AMap.find?, ih, h.symm]
    · simp [AMap.find?, ih]

@[simp] theorem AMap.get_put_same {α : Type} (m : AMap α) (n : Nat) (x d : α) : (AMap.put m n x).get n d = x := by
  simp [AMap.get]

@[simp] theorem AMap.get_put_other {α : Type} (m : AMap α) (n j : Nat) (x d : α) (h : j ≠ n) :
    (AMap.put m n x).get j d = m.get j d := by
  simp [AMap.get, h]

/-- A second put to a key replaces the first. -/
@[simp] theorem AMap.put_put {α : Type} (m : AMap α) (n : Nat) (x y : α) : (m.put n x).put n y = m.put n y := by
  induction m with
  | nil => simp [AMap.put]
  | cons e t ih =>
    obtain ⟨k, v⟩ := e
    simp only [AMap.put]
    split
    · simp [AMap.put]
    · split
      · simp [AMap.put]
      · rename_i h1 h2
        simp [AMap.put, h1, h2, ih]

/-- A change of a key that has an entry is a put. -/
theorem AMap.find?_modify {α : Type} (m : AMap α) (n j : Nat) (f : α → α) :
    (AMap.modify m n f).find? j = if j = n then (m.find? n).map f else m.find? j := by
  unfold AMap.modify
  split
  · rename_i v h
    rw [AMap.find?_put]
    by_cases e : j = n <;> simp [e, h]
  · rename_i h
    by_cases e : j = n
    · subst e; simp [h]
    · simp [e]

@[simp] theorem AMap.find?_modify_same {α : Type} (m : AMap α) (n : Nat) (f : α → α) :
    (AMap.modify m n f).find? n = (m.find? n).map f := by simp [AMap.find?_modify]

@[simp] theorem AMap.find?_modify_other {α : Type} (m : AMap α) (n j : Nat) (f : α → α) (h : j ≠ n) :
    (AMap.modify m n f).find? j = m.find? j := by simp [AMap.find?_modify, h]

/-! ## Rising keys -/

theorem risesFrom_mono {α : Type} {lo lo' : Nat} {m : AMap α} (h : risesFrom lo m = true) (hl : lo' ≤ lo) :
    risesFrom lo' m = true := by
  cases m with
  | nil => rfl
  | cons e t => simp only [risesFrom, Bool.and_eq_true, decide_eq_true_eq] at h ⊢; exact ⟨by omega, h.2⟩

theorem risesFrom_put {α : Type} {lo n : Nat} {m : AMap α} {x : α} (h : risesFrom lo m = true) (hn : lo ≤ n) :
    risesFrom lo (m.put n x) = true := by
  induction m generalizing lo with
  | nil => simp [AMap.put, risesFrom, hn]
  | cons e t ih =>
    obtain ⟨k, v⟩ := e
    simp only [risesFrom, Bool.and_eq_true, decide_eq_true_eq] at h
    simp only [AMap.put]
    split
    · simp only [risesFrom, Bool.and_eq_true, decide_eq_true_eq]
      exact ⟨hn, by omega, h.2⟩
    · split
      · rename_i h2
        subst h2
        simp only [risesFrom, Bool.and_eq_true, decide_eq_true_eq]
        exact h
      · simp only [risesFrom, Bool.and_eq_true, decide_eq_true_eq]
        exact ⟨h.1, ih h.2 (by omega)⟩

theorem risesFrom_filter {α : Type} {lo : Nat} {m : AMap α} (p : Nat × α → Bool) (h : risesFrom lo m = true) :
    risesFrom lo (m.filter p) = true := by
  induction m generalizing lo with
  | nil => rfl
  | cons e t ih =>
    obtain ⟨k, v⟩ := e
    simp only [risesFrom, Bool.and_eq_true, decide_eq_true_eq] at h
    simp only [List.filter_cons]
    split
    · simp only [risesFrom, Bool.and_eq_true, decide_eq_true_eq]
      exact ⟨h.1, ih h.2⟩
    · exact risesFrom_mono (ih h.2) (by omega)

theorem AMap.erase_eq_filter {α : Type} (m : AMap α) (n : Nat) : m.erase n = m.filter (fun e => decide (e.1 ≠ n)) := by
  induction m with
  | nil => rfl
  | cons e t ih =>
    obtain ⟨k, v⟩ := e
    simp only [AMap.erase, List.filter_cons]
    by_cases h : k = n <;> simp [h, ih]

/-- Every entry that a table with rising keys lists lies at or above the bound. -/
theorem risesFrom_le {α : Type} {lo : Nat} {m : AMap α} (h : risesFrom lo m = true) : ∀ e ∈ m, lo ≤ e.1 := by
  induction m generalizing lo with
  | nil => simp
  | cons e t ih =>
    obtain ⟨k, v⟩ := e
    simp only [risesFrom, Bool.and_eq_true, decide_eq_true_eq] at h
    intro e he
    cases he with
    | head => exact h.1
    | tail _ he => exact Nat.le_trans (by omega) (ih h.2 e he)

/-! ## Byte tables -/

theorem AMap.mem_put {α : Type} {m : AMap α} {n : Nat} {x : α} {e : Nat × α} (h : e ∈ m.put n x) : e = (n, x) ∨ e ∈ m := by
  induction m with
  | nil => simp only [AMap.put, List.mem_singleton] at h; exact .inl h
  | cons a t ih =>
    obtain ⟨k, v⟩ := a
    simp only [AMap.put] at h
    split at h
    · simpa using h
    · split at h
      · simp only [List.mem_cons] at h ⊢; tauto
      · simp only [List.mem_cons] at h ⊢
        rcases h with h | h
        · tauto
        · have := ih h; tauto

/-- A byte write keeps the canonical form. -/
@[simp] theorem ByteMap.wf_wr {m : ByteMap} (a : Nat) (b : Byte) (h : m.wf = true) : (m.wr a b).wf = true := by
  simp only [ByteMap.wf, Bool.and_eq_true, List.all_eq_true, bne_iff_ne, ne_eq] at h ⊢
  unfold ByteMap.wr
  split
  · rw [AMap.erase_eq_filter]
    exact ⟨risesFrom_filter _ h.1, fun c hc => h.2 c (List.mem_filter.1 hc).1⟩
  · rename_i hb
    refine ⟨risesFrom_put h.1 (Nat.zero_le _), fun c hc => ?_⟩
    rcases AMap.mem_put hc with rfl | hc
    · exact hb
    · exact h.2 c hc

/-- A write of bytes keeps the canonical form. -/
@[simp] theorem ByteMap.wf_wrN {m : ByteMap} (a : Nat) (l : List Byte) (h : m.wf = true) : (m.wrN a l).wf = true := by
  induction l generalizing m a with
  | nil => exact h
  | cons b t ih => exact ih _ (ByteMap.wf_wr a b h)

/-- Removing entries keeps the canonical form. -/
@[simp] theorem ByteMap.wf_filter {m : ByteMap} (p : Host.Cell → Bool) (h : m.wf = true) : ByteMap.wf (List.filter p m) = true := by
  simp only [ByteMap.wf, Bool.and_eq_true, List.all_eq_true, bne_iff_ne, ne_eq] at h ⊢
  exact ⟨risesFrom_filter p h.1, fun c hc => h.2 c (List.mem_filter.1 hc).1⟩

@[simp] theorem ByteMap.wf_nil : ByteMap.wf [] = true := rfl

/-- The byte just written reads back. -/
@[simp] theorem ByteMap.rd_wr_same (m : ByteMap) (a : Nat) (b : Byte) : (m.wr a b).rd a = b := by
  unfold ByteMap.wr
  split
  · rename_i h; simp [ByteMap.rd, AMap.get, h]
  · simp [ByteMap.rd]

/-- A byte write leaves every other address alone. -/
@[simp] theorem ByteMap.rd_wr_other (m : ByteMap) (a j : Nat) (b : Byte) (h : j ≠ a) : (m.wr a b).rd j = m.rd j := by
  unfold ByteMap.wr
  split <;> simp [ByteMap.rd, AMap.get, h]

/-- A write of bytes leaves addresses outside them alone. -/
theorem ByteMap.rd_wrN_outside (m : ByteMap) (a j : Nat) (l : List Byte) (h : j < a ∨ a + l.length ≤ j) :
    (m.wrN a l).rd j = m.rd j := by
  induction l generalizing m a with
  | nil => rfl
  | cons b t ih =>
    simp only [List.length_cons] at h
    rw [ByteMap.wrN, ih _ _ (by omega), ByteMap.rd_wr_other _ _ _ _ (by omega)]

/-- The bytes written read back. -/
theorem ByteMap.rd_wrN_inside (m : ByteMap) (a i : Nat) (l : List Byte) (h : i < l.length) :
    (m.wrN a l).rd (a + i) = l[i] := by
  induction l generalizing m a i with
  | nil => simp at h
  | cons b t ih =>
    cases i with
    | zero =>
      rw [ByteMap.wrN, Nat.add_zero, ByteMap.rd_wrN_outside _ _ _ _ (by omega)]
      simp
    | succ i =>
      simp only [List.length_cons] at h
      have := ih (m.wr a b) (a + 1) i (by omega)
      simp only [ByteMap.wrN, List.getElem_cons_succ]
      rw [← this]
      congr 1
      omega

@[simp] theorem ByteMap.rdN_length (m : ByteMap) (a n : Nat) : (m.rdN a n).length = n := by
  induction n generalizing a with
  | zero => rfl
  | succ n ih => simp [ByteMap.rdN, ih]

/-! ## Little-endian numbers -/

@[simp] theorem leBytes_length (n x : Nat) : (leBytes n x).length = n := by
  induction n generalizing x with
  | zero => rfl
  | succ n ih => simp [leBytes, ih]

/-- The bytes of a number hold it, up to their width. -/
@[simp] theorem leNat_leBytes (n x : Nat) : leNat (leBytes n x) = x % 256 ^ n := by
  induction n generalizing x with
  | zero => simp [leBytes, leNat, Nat.mod_one]
  | succ n ih =>
    have h := Nat.mod_mul (a := 256) (b := 256 ^ n) (x := x)
    have e : 256 ^ (n + 1) = 256 * 256 ^ n := by ring
    rw [leBytes, leNat, ih, BitVec.toNat_ofNat, e, h]

theorem leNat_lt (l : List Byte) : leNat l < 256 ^ l.length := by
  induction l with
  | nil => simp [leNat]
  | cons b t ih =>
    simp only [leNat, List.length_cons, Nat.pow_succ]
    have := b.isLt
    omega

/-- The number that bytes hold gives those bytes back. -/
@[simp] theorem leBytes_leNat (l : List Byte) : leBytes l.length (leNat l) = l := by
  induction l with
  | nil => rfl
  | cons b t ih =>
    have hb : b.toNat < 256 := b.isLt
    have hd : (b.toNat + 256 * leNat t) / 256 = leNat t := by omega
    simp only [List.length_cons, leBytes, leNat]
    rw [hd, ih]
    congr 1
    apply BitVec.eq_of_toNat_eq
    simp only [BitVec.toNat_ofNat]
    omega

end Sys2Proof.Machine
end

