-- ==== Sys2Proof/Laws/Regs.lean ====
section
/-! SUPPORT. The laws of cores and registers: what reading a core, a register or the pc gives after each named update, and the spec lemmas of
the operations that end most instructions. -/

namespace Sys2Proof.Machine

variable (s : State)

/-! ## Cores -/

@[simp] theorem State.core_setCore_same (c : Nat) (k : Core) : (s.setCore c k).core c = k := by
  simp [State.core]

@[simp] theorem State.core_setCore_other (c j : Nat) (k : Core) (h : j ≠ c) : (s.setCore c k).core j = s.core j := by
  simp [State.core, h]

@[simp] theorem State.setCore_setCore (c : Nat) (k q : Core) : (s.setCore c k).setCore c q = s.setCore c q := by
  simp [State.setCore]

@[simp] theorem State.bay_setBay_same (b : Nat) (y : Bay) : (s.setBay b y).bay b = y := by simp [State.bay]

@[simp] theorem State.bay_setBay_other (b j : Nat) (y : Bay) (h : j ≠ b) : (s.setBay b y).bay j = s.bay j := by
  simp [State.bay, h]

@[simp] theorem State.sill_setSill_same (ch : Nat) (u : Sill) : (s.setSill ch u).sill ch = u := by simp [State.sill]

@[simp] theorem State.sill_setSill_other (ch j : Nat) (u : Sill) (h : j ≠ ch) : (s.setSill ch u).sill j = s.sill j := by
  simp [State.sill, h]

@[simp] theorem State.core_setBay (b c : Nat) (y : Bay) : (s.setBay b y).core c = s.core c := rfl
@[simp] theorem State.core_setSill (ch c : Nat) (u : Sill) : (s.setSill ch u).core c = s.core c := rfl
@[simp] theorem State.core_modPeg (id c : Nat) (f : Peg → Peg) : (s.modPeg id f).core c = s.core c := rfl
@[simp] theorem State.core_modBent (b c : Nat) (f : Bent → Bent) : (s.modBent b f).core c = s.core c := rfl
@[simp] theorem State.me_modPeg (id : Nat) (f : Peg → Peg) : (s.modPeg id f).me = s.me := rfl
@[simp] theorem State.me_modBent (b : Nat) (f : Bent → Bent) : (s.modBent b f).me = s.me := rfl
@[simp] theorem State.me_setBay (b : Nat) (y : Bay) : (s.setBay b y).me = s.me := rfl

/-! ## The acting core -/

@[simp] theorem State.me_setMe (k : Core) : (s.setMe k).me = k := by simp [State.me, State.setMe]

@[simp] theorem State.setMe_setMe (k q : Core) : (s.setMe k).setMe q = s.setMe q := by
  simp [State.setMe]

theorem State.core_setMe_other (c : Nat) (k : Core) (h : c ≠ s.cur) : (s.setMe k).core c = s.core c := by
  simp [State.setMe, h]

@[simp] theorem State.pc_setPc (w : Word) : (s.setPc w).pc = w := by simp [State.setPc, State.pc]

@[simp] theorem State.pc_putX (r : RegNo) (v : Word) : (s.putX r v).pc = s.pc := by
  simp only [State.putX, State.pc, State.me_setMe, Core.putX]
  split <;> rfl

@[simp] theorem State.pc_putF (r : RegNo) (v : Word) : (s.putF r v).pc = s.pc := by
  simp [State.putF, State.pc, Core.putF]

@[simp] theorem State.pc_skip : s.skip.pc = s.pc + 4 := by simp [State.skip]

/-! ## The x file -/

/-- x0 reads as zero (R107). -/
theorem Core.getX_zero (k : Core) : k.getX 0 = 0 := if_pos rfl

theorem State.getX_zero : s.getX 0 = 0 := Core.getX_zero _

theorem regGet_set (v : Vector Word 32) (d r : RegNo) (w : Word) :
    (v.set d.toNat w d.isLt).get ⟨r.toNat, r.isLt⟩ = if r = d then w else v.get ⟨r.toNat, r.isLt⟩ := by
  have h : (v.set d.toNat w d.isLt)[r.toNat]'r.isLt = if d.toNat = r.toNat then w else v[r.toNat]'r.isLt :=
    Vector.getElem_set d.isLt r.isLt
  by_cases e : r = d
  · rw [if_pos (by rw [e])] at h
    rw [if_pos e]
    exact h
  · rw [if_neg (fun q => e (BitVec.eq_of_toNat_eq q.symm))] at h
    rw [if_neg e]
    exact h

/-- A register written reads back; x0 stays zero (R107). -/
theorem Core.getX_putX (k : Core) (d r : RegNo) (v : Word) :
    (k.putX d v).getX r = if r = d ∧ d ≠ 0 then v else k.getX r := by
  unfold Core.getX Core.putX
  by_cases hd : d = 0
  · simp [hd]
  · by_cases hr : r = 0
    · rw [if_pos hr, if_pos hr, if_neg (fun h : r = d ∧ d ≠ 0 => h.2 (h.1 ▸ hr))]
    · rw [if_neg hd, if_neg hr, if_neg hr, regGet_set]
      by_cases e : r = d
      · rw [if_pos e, if_pos ⟨e, hd⟩]
      · rw [if_neg e, if_neg (fun h : r = d ∧ d ≠ 0 => e h.1)]

theorem State.getX_putX (d r : RegNo) (v : Word) :
    (s.putX d v).getX r = if r = d ∧ d ≠ 0 then v else s.getX r := by
  simp [State.getX, State.putX, Core.getX_putX]

@[simp] theorem State.getX_setPc (w : Word) (r : RegNo) : (s.setPc w).getX r = s.getX r := by
  simp only [State.getX, State.setPc, State.me_setMe, Core.getX]

@[simp] theorem State.getX_skip (r : RegNo) : s.skip.getX r = s.getX r := by simp [State.skip]

@[simp] theorem State.getX_putF (d r : RegNo) (v : Word) : (s.putF d v).getX r = s.getX r := by
  simp only [State.getX, State.putF, State.me_setMe, Core.getX, Core.putF]

/-! ## The f file -/

theorem Core.getF_putF (k : Core) (d r : RegNo) (v : Word) : (k.putF d v).getF r = if r = d then v else k.getF r :=
  regGet_set _ _ _ _

theorem State.getF_putF (d r : RegNo) (v : Word) : (s.putF d v).getF r = if r = d then v else s.getF r := by
  simp [State.getF, State.putF, Core.getF_putF]

@[simp] theorem Core.getF_putX (k : Core) (d r : RegNo) (v : Word) : (k.putX d v).getF r = k.getF r := by
  simp only [Core.putX]
  split <;> rfl

@[simp] theorem State.getF_putX (d r : RegNo) (v : Word) : (s.putX d v).getF r = s.getF r := by
  simp [State.getF, State.putX]

@[simp] theorem State.getF_setPc (w : Word) (r : RegNo) : (s.setPc w).getF r = s.getF r := by
  simp only [State.getF, State.setPc, State.me_setMe, Core.getF]

@[simp] theorem State.getF_skip (r : RegNo) : s.skip.getF r = s.getF r := by simp [State.skip]

/-! ## What a register write leaves alone -/

@[simp] theorem Core.putX_regs (k : Core) (r : RegNo) (v : Word) : (k.putX r v).regs = k.regs := by simp only [Core.putX]; split <;> rfl
@[simp] theorem Core.putX_d (k : Core) (r : RegNo) (v : Word) : (k.putX r v).d = k.d := by simp only [Core.putX]; split <;> rfl
@[simp] theorem Core.putX_f (k : Core) (r : RegNo) (v : Word) : (k.putX r v).f = k.f := by simp only [Core.putX]; split <;> rfl
@[simp] theorem Core.putX_pc (k : Core) (r : RegNo) (v : Word) : (k.putX r v).pc = k.pc := by simp only [Core.putX]; split <;> rfl
@[simp] theorem Core.putX_peg (k : Core) (r : RegNo) (v : Word) : (k.putX r v).peg = k.peg := by simp only [Core.putX]; split <;> rfl
@[simp] theorem Core.putX_journal (k : Core) (r : RegNo) (v : Word) : (k.putX r v).journal = k.journal := by
  simp only [Core.putX]; split <;> rfl
@[simp] theorem Core.putX_sems (k : Core) (r : RegNo) (v : Word) : (k.putX r v).sems = k.sems := by simp only [Core.putX]; split <;> rfl

/-- A register write changes the x file and nothing else of a core. -/
theorem Core.putX_eq (k : Core) (r : RegNo) (v : Word) : k.putX r v = { k with x := (k.putX r v).x } := by
  simp only [Core.putX]; split <;> rfl

/-- The physical map depends on the package and the capacity of the module. -/
theorem State.region_congr {s t : State} (h4 : t.mgmt = s.mgmt) (pa : Nat) : t.region pa = s.region pa := by
  simp only [State.region, State.capacity, h4]
  rfl

theorem State.remote?_congr {s t : State} (h4 : t.mgmt = s.mgmt) (pa : Nat) : t.remote? pa = s.remote? pa := by
  simp only [State.remote?, State.region_congr h4, h4]

/-- The key that a unit is under depends on the key slots and on the package and capacity of the module. -/
theorem State.keyAt_congr {s t : State} (h3 : t.keys = s.keys) (h4 : t.mgmt = s.mgmt) (slot u : Nat) : t.keyAt slot u = s.keyAt slot u := by
  simp only [State.keyAt, State.remote?_congr h4, State.keyOf, h3]

theorem State.tweakOf_congr {s t : State} (h4 : t.mgmt = s.mgmt) (u : Nat) : t.tweakOf u = s.tweakOf u := by
  simp only [State.tweakOf, State.region_congr h4]

/-- A byte of memory depends on the stored bytes, their keys, the key slots and the module's place and capacity alone. -/
theorem State.byteAt_congr {s t : State} (h1 : t.mem = s.mem) (h2 : t.unitKey = s.unitKey) (h3 : t.keys = s.keys) (h4 : t.mgmt = s.mgmt)
    (slot : Option Nat) (pa : Nat) : t.byteAt slot pa = s.byteAt slot pa := by
  simp only [State.byteAt, State.sameKey, State.unitUnder, State.unitStored, State.keyAt_congr h3 h4, State.tweakOf_congr h4, h1, h2]
  rfl

end Sys2Proof.Machine
end

