-- ==== Sys2Proof/Laws/Memory.lean ====
section
/-! SUPPORT. The laws of memory at home: what reading a byte gives after each operation that writes, and that every operation over memory keeps
its canonical form. -/

namespace Sys2Proof.Machine

/-! ## Reading lists of bytes -/

theorem ByteMap.rdN_congr (m q : ByteMap) (a n : Nat) (h : ∀ i, i < n → m.rd (a + i) = q.rd (a + i)) : m.rdN a n = q.rdN a n := by
  induction n generalizing a with
  | zero => rfl
  | succ n ih =>
    simp only [ByteMap.rdN]
    rw [show m.rd a = q.rd a from h 0 (by omega)]
    congr 1
    exact ih (a + 1) (fun i hi => by rw [Nat.add_assoc, Nat.add_comm 1 i]; exact h (i + 1) (by omega))

theorem nth?_eq_getElem? {α : Type} (l : List α) (i : Nat) : nth? l i = l[i]? := by
  induction l generalizing i with
  | nil => simp [nth?]
  | cons a t ih => cases i with
    | zero => rfl
    | succ i => simpa [nth?] using ih i

@[simp] theorem xorBlock_length (a b : List Byte) : (xorBlock a b).length = 16 := rfl

@[simp] theorem xtsUnit_length (f : BitVec 256 → List Byte → List Byte) (key : BitVec 512) (pa : Nat) (d : List Byte) :
    (xtsUnit f key pa d).length = 32 := by simp [xtsUnit]

@[simp] theorem State.unitStored_length (s : State) (u : Nat) : (s.unitStored u).length = 32 := by
  unfold State.unitStored
  split <;> simp [xtsEncrypt]

@[simp] theorem State.unitUnder_length (s : State) (slot : Option Nat) (u : Nat) : (s.unitUnder slot u).length = 32 := by
  unfold State.unitUnder
  split
  · simp
  · split <;> simp [xtsDecrypt]

/-! ## Bringing a unit under a key -/

theorem State.sameKey_rekey (s : State) (slot : Option Nat) (u : Nat) : (s.rekey slot u).sameKey slot u = true := by
  unfold State.rekey
  split
  · assumption
  · cases slot with
    | none => simp [State.sameKey]
    | some t =>
      simp only [State.sameKey, AMap.find?_put_same, decide_eq_true_eq]
      exact (State.keyAt_congr rfl rfl t u).symm

theorem State.rekey_keys (s : State) (slot : Option Nat) (u : Nat) : (s.rekey slot u).keys = s.keys := by
  unfold State.rekey; split <;> rfl

theorem State.rekey_mgmt (s : State) (slot : Option Nat) (u : Nat) : (s.rekey slot u).mgmt = s.mgmt := by
  unfold State.rekey; split <;> rfl

theorem State.rekey_unitKey_other (s : State) (slot : Option Nat) (u v : Nat) (h : v ≠ u) :
    AMap.find? (s.rekey slot u).unitKey v = AMap.find? s.unitKey v := by
  unfold State.rekey
  split
  · rfl
  · cases slot <;> simp [h]

theorem State.rekey_rd_other (s : State) (slot : Option Nat) (u pa : Nat) (h : pa / 32 ≠ u) :
    ByteMap.rd (s.rekey slot u).mem pa = ByteMap.rd s.mem pa := by
  unfold State.rekey
  split
  · rfl
  · apply ByteMap.rd_wrN_outside
    rw [State.unitUnder_length]
    omega

theorem State.rekey_rdN_other (s : State) (slot : Option Nat) (u v : Nat) (h : v ≠ u) :
    ByteMap.rdN (s.rekey slot u).mem (32 * v) 32 = ByteMap.rdN s.mem (32 * v) 32 :=
  ByteMap.rdN_congr _ _ _ _ (fun i hi => State.rekey_rd_other s slot u _ (by omega))

/-- What a unit reads as depends on its bytes, the key it is under and the key slots. -/
theorem State.unitUnder_congr {s t : State} (u : Nat) (h1 : ByteMap.rdN t.mem (32 * u) 32 = ByteMap.rdN s.mem (32 * u) 32)
    (h2 : AMap.find? t.unitKey u = AMap.find? s.unitKey u) (h3 : t.keys = s.keys) (h4 : t.mgmt = s.mgmt) (slot : Option Nat) :
    t.unitUnder slot u = s.unitUnder slot u := by
  simp only [State.unitUnder, State.unitStored, State.sameKey, State.keyAt_congr h3 h4, State.tweakOf_congr h4, h1, h2]
  rfl

theorem State.sameKey_congr {s t : State} (u : Nat) (h2 : AMap.find? t.unitKey u = AMap.find? s.unitKey u) (h3 : t.keys = s.keys)
    (h4 : t.mgmt = s.mgmt) (slot : Option Nat) : t.sameKey slot u = s.sameKey slot u := by
  simp only [State.sameKey, State.keyAt_congr h3 h4, h2]

/-- A byte reads the same when its unit's bytes, its unit's key and the key slots are the same. -/
theorem State.byteAt_unit_congr {s t : State} (pa : Nat)
    (h1 : ∀ i, i < 32 → ByteMap.rd t.mem (32 * (pa / 32) + i) = ByteMap.rd s.mem (32 * (pa / 32) + i))
    (h2 : AMap.find? t.unitKey (pa / 32) = AMap.find? s.unitKey (pa / 32)) (h3 : t.keys = s.keys) (h4 : t.mgmt = s.mgmt) (slot : Option Nat) :
    t.byteAt slot pa = s.byteAt slot pa := by
  unfold State.byteAt
  rw [State.sameKey_congr (s := s) _ h2 h3 h4, State.unitUnder_congr (s := s) _ (ByteMap.rdN_congr _ _ _ _ h1) h2 h3 h4]
  have := h1 (pa % 32) (Nat.mod_lt _ (by decide))
  rw [Nat.div_add_mod] at this
  rw [this]

theorem State.byteAt_rekey_other (s : State) (slot sl : Option Nat) (u pa : Nat) (h : pa / 32 ≠ u) :
    (s.rekey slot u).byteAt sl pa = s.byteAt sl pa :=
  State.byteAt_unit_congr pa (fun i hi => State.rekey_rd_other s slot u _ (by omega)) (State.rekey_unitKey_other s slot u _ h)
    (State.rekey_keys s slot u) (State.rekey_mgmt s slot u) sl

/-- Bringing a unit under a key changes nothing that is read under that key. -/
theorem State.byteAt_rekey (s : State) (slot : Option Nat) (u pa : Nat) : (s.rekey slot u).byteAt slot pa = s.byteAt slot pa := by
  by_cases h : pa / 32 = u
  · subst h
    by_cases hk : s.sameKey slot (pa / 32) = true
    · unfold State.rekey
      rw [if_pos hk]
    · have hs := State.sameKey_rekey s slot (pa / 32)
      unfold State.byteAt
      rw [if_pos hs, if_neg hk]
      unfold State.rekey
      rw [if_neg hk]
      have hl : pa % 32 < (s.unitUnder slot (pa / 32)).length := by simp [Nat.mod_lt]
      have := ByteMap.rd_wrN_inside s.mem (32 * (pa / 32)) (pa % 32) _ hl
      rw [Nat.div_add_mod] at this
      rw [nth?_eq_getElem?, List.getElem?_eq_getElem hl]
      exact this
  · exact State.byteAt_rekey_other s slot slot u pa h

/-! ## Writing a byte -/

theorem State.putByte_keys (s : State) (slot : Option Nat) (pa : Nat) (b : Byte) : (s.putByte slot pa b).keys = s.keys :=
  State.rekey_keys s slot (pa / 32)

/-- The byte written reads back under the key it was written with. -/
theorem State.byteAt_putByte_same (s : State) (slot : Option Nat) (pa : Nat) (b : Byte) : (s.putByte slot pa b).byteAt slot pa = b := by
  have hs : (s.putByte slot pa b).sameKey slot (pa / 32) = true := State.sameKey_rekey s slot (pa / 32)
  unfold State.byteAt
  rw [if_pos hs]
  exact ByteMap.rd_wr_same _ _ _

/-- Every other byte reads as before under that key. -/
theorem State.byteAt_putByte_other (s : State) (slot : Option Nat) (pa q : Nat) (b : Byte) (h : q ≠ pa) :
    (s.putByte slot pa b).byteAt slot q = s.byteAt slot q := by
  rw [← State.byteAt_rekey s slot (pa / 32) q]
  by_cases hu : q / 32 = pa / 32
  · have hs := State.sameKey_rekey s slot (pa / 32)
    have hs' : (s.putByte slot pa b).sameKey slot (pa / 32) = true := hs
    unfold State.byteAt
    rw [hu, if_pos hs, if_pos hs']
    exact ByteMap.rd_wr_other _ _ _ _ h
  · exact State.byteAt_unit_congr (s := s.rekey slot (pa / 32)) (t := s.putByte slot pa b) q
      (fun i hi => ByteMap.rd_wr_other _ pa _ b (by omega)) rfl rfl rfl slot

/-- A byte of another unit reads as before under every key. -/
theorem State.byteAt_putByte_unit (s : State) (slot sl : Option Nat) (pa q : Nat) (b : Byte) (h : q / 32 ≠ pa / 32) :
    (s.putByte slot pa b).byteAt sl q = s.byteAt sl q := by
  rw [← State.byteAt_rekey_other s slot sl (pa / 32) q h]
  exact State.byteAt_unit_congr (s := s.rekey slot (pa / 32)) (t := s.putByte slot pa b) q
    (fun i hi => ByteMap.rd_wr_other _ pa _ b (by omega)) rfl rfl rfl sl

/-! ## Writing bytes -/

theorem State.byteAt_putBytes_outside (s : State) (slot : Option Nat) (pa q : Nat) (data : List Byte)
    (h : q < pa ∨ pa + data.length ≤ q) : (s.putBytes slot pa data).byteAt slot q = s.byteAt slot q := by
  induction data generalizing s pa with
  | nil => rfl
  | cons b t ih =>
    simp only [State.putBytes]
    simp only [List.length_cons] at h
    rw [ih _ _ (by omega), State.byteAt_putByte_other _ _ _ _ _ (by omega)]

theorem State.byteAt_putBytes_unit (s : State) (slot sl : Option Nat) (pa q : Nat) (data : List Byte)
    (h : q / 32 < pa / 32 ∨ (pa + data.length - 1) / 32 < q / 32) : (s.putBytes slot pa data).byteAt sl q = s.byteAt sl q := by
  induction data generalizing s pa with
  | nil => rfl
  | cons b t ih =>
    simp only [State.putBytes]
    simp only [List.length_cons] at h
    cases t with
    | nil =>
      simp only [State.putBytes]
      refine State.byteAt_putByte_unit _ _ _ _ _ _ ?_
      simp only [List.length_nil] at h
      omega
    | cons c t =>
      simp only [List.length_cons] at h ih
      rw [ih _ _ (by omega), State.byteAt_putByte_unit _ _ _ _ _ _ (by omega)]

theorem State.byteAt_putBytes_inside (s : State) (slot : Option Nat) (pa i : Nat) (data : List Byte) (h : i < data.length) :
    (s.putBytes slot pa data).byteAt slot (pa + i) = data[i] := by
  induction data generalizing s pa i with
  | nil => simp at h
  | cons b t ih =>
    simp only [State.putBytes]
    cases i with
    | zero =>
      rw [State.byteAt_putBytes_outside _ _ _ _ _ (.inl (by omega))]
      exact State.byteAt_putByte_same _ _ _ _
    | succ i =>
      have := ih (s.putByte slot pa b) (pa + 1) i (by simpa using h)
      rw [show pa + (i + 1) = pa + 1 + i by omega, this]
      rfl

@[simp] theorem State.bytesAt_length (s : State) (slot : Option Nat) (pa n : Nat) : (s.bytesAt slot pa n).length = n := by
  induction n generalizing pa with
  | zero => rfl
  | succ n ih => simp [State.bytesAt, ih]

theorem State.bytesAt_getElem (s : State) (slot : Option Nat) (pa n i : Nat) (h : i < (s.bytesAt slot pa n).length) :
    (s.bytesAt slot pa n)[i] = s.byteAt slot (pa + i) := by
  induction n generalizing pa i with
  | zero => simp at h
  | succ n ih =>
    cases i with
    | zero => rfl
    | succ i =>
      have := ih (pa + 1) i (by simpa using h)
      rw [show pa + (i + 1) = pa + 1 + i by omega, ← this]
      rfl

/-- Bytes read the same when each byte does. -/
theorem State.bytesAt_congr {s t : State} (slot : Option Nat) (pa n : Nat) (h : ∀ i, i < n → t.byteAt slot (pa + i) = s.byteAt slot (pa + i)) :
    t.bytesAt slot pa n = s.bytesAt slot pa n := by
  apply List.ext_getElem
  · simp
  · intro i h1 h2
    rw [State.bytesAt_getElem, State.bytesAt_getElem]
    exact h i (by simpa using h1)

/-- Bytes written read back under the key they were written with. -/
theorem State.bytesAt_putBytes (s : State) (slot : Option Nat) (pa : Nat) (data : List Byte) :
    (s.putBytes slot pa data).bytesAt slot pa data.length = data := by
  apply List.ext_getElem
  · simp
  · intro i h1 h2
    rw [State.bytesAt_getElem]
    exact State.byteAt_putBytes_inside s slot pa i data h2

/-! ## What writing bytes leaves alone -/

theorem State.rekey_eq (s : State) (slot : Option Nat) (u : Nat) :
    ∃ m k, s.rekey slot u = { s with mem := m, unitKey := k } := by
  unfold State.rekey
  split
  · exact ⟨s.mem, s.unitKey, rfl⟩
  · exact ⟨_, _, rfl⟩

theorem State.putByte_eq (s : State) (slot : Option Nat) (pa : Nat) (b : Byte) :
    ∃ m k, s.putByte slot pa b = { s with mem := m, unitKey := k } := by
  obtain ⟨m, k, h⟩ := State.rekey_eq s slot (pa / 32)
  exact ⟨_, k, by unfold State.putByte; rw [h]⟩

/-- Writing bytes changes memory and the keys of its units, nothing else. -/
theorem State.putBytes_eq (s : State) (slot : Option Nat) (pa : Nat) (data : List Byte) :
    ∃ m k, s.putBytes slot pa data = { s with mem := m, unitKey := k } := by
  induction data generalizing s pa with
  | nil => exact ⟨s.mem, s.unitKey, rfl⟩
  | cons b t ih =>
    obtain ⟨m, k, h⟩ := State.putByte_eq s slot pa b
    obtain ⟨m2, k2, h2⟩ := ih (s.putByte slot pa b) (pa + 1)
    exact ⟨m2, k2, by simp only [State.putBytes]; rw [h2, h]⟩

/-! ## Accumulators -/

/-- Accumulators that an access does not meet stay open. -/
theorem State.closeAccums_none (s : State) (pa n : Nat) (h : ∀ a ∈ s.accums, a.meets pa n = false) : s.closeAccums pa n = s := by
  unfold State.closeAccums
  have : s.accums.filter (fun a => a.meets pa n) = [] := List.filter_eq_nil_iff.2 (fun a ha => by simp [h a ha])
  simp [this]

theorem State.closeFold_eq (l : List Accum) (s : State) :
    ∃ m k, l.foldl (fun s a => s.putBytes a.slot a.pa a.bytes) s = { s with mem := m, unitKey := k } := by
  induction l generalizing s with
  | nil => exact ⟨s.mem, s.unitKey, rfl⟩
  | cons a t ih =>
    obtain ⟨m, k, h⟩ := State.putBytes_eq s a.slot a.pa a.bytes
    obtain ⟨m2, k2, h2⟩ := ih (s.putBytes a.slot a.pa a.bytes)
    exact ⟨m2, k2, by simp only [List.foldl_cons]; rw [h2, h]⟩

/-- Closing accumulators changes memory, the keys of its units and the accumulators that the access meets, nothing else. -/
theorem State.closeAccums_eq (s : State) (pa n : Nat) :
    ∃ m k, s.closeAccums pa n = { s with mem := m, unitKey := k, accums := s.accums.filter (fun a => !a.meets pa n) } := by
  unfold State.closeAccums
  simp only
  split
  · rename_i h
    have h' := List.isEmpty_iff.1 h
    have : s.accums.filter (fun a => !a.meets pa n) = s.accums := by
      rw [List.filter_eq_self]
      intro a ha
      have := List.filter_eq_nil_iff.1 h' a ha
      simpa using this
    exact ⟨s.mem, s.unitKey, by rw [this]⟩
  · exact State.closeFold_eq _ _

theorem State.closeAccums_clear (s : State) (pa n : Nat) : ∀ a ∈ (s.closeAccums pa n).accums, a.meets pa n = false := by
  obtain ⟨m, k, h⟩ := State.closeAccums_eq s pa n
  rw [h]
  intro a ha
  simpa using (List.mem_filter.1 ha).2

/-! ## Writing and reading a location -/

@[simp] theorem State.dropLines_mem (s : State) (pa n : Nat) : (s.dropLines pa n).mem = s.mem := by unfold State.dropLines; split <;> rfl
@[simp] theorem State.dropLines_unitKey (s : State) (pa n : Nat) : (s.dropLines pa n).unitKey = s.unitKey := by unfold State.dropLines; split <;> rfl
@[simp] theorem State.dropLines_keys (s : State) (pa n : Nat) : (s.dropLines pa n).keys = s.keys := by unfold State.dropLines; split <;> rfl
@[simp] theorem State.dropLines_mgmt (s : State) (pa n : Nat) : (s.dropLines pa n).mgmt = s.mgmt := by unfold State.dropLines; split <;> rfl
@[simp] theorem State.dropLines_accums (s : State) (pa n : Nat) : (s.dropLines pa n).accums = s.accums := by unfold State.dropLines; split <;> rfl

@[simp] theorem State.wake_mem (s : State) (pa n : Nat) : (s.wake pa n).mem = s.mem := rfl
@[simp] theorem State.wake_unitKey (s : State) (pa n : Nat) : (s.wake pa n).unitKey = s.unitKey := rfl
@[simp] theorem State.wake_keys (s : State) (pa n : Nat) : (s.wake pa n).keys = s.keys := rfl
@[simp] theorem State.wake_accums (s : State) (pa n : Nat) : (s.wake pa n).accums = s.accums := rfl

theorem State.writeLoc_byteAt (s : State) (l : Loc) (data : List Byte) (slot : Option Nat) (pa : Nat) :
    (s.writeLoc l data).byteAt slot pa = (((s.closeAccums l.pa data.length).dropLines l.pa data.length).putBytes l.slot l.pa data).byteAt slot pa :=
  State.byteAt_congr rfl rfl rfl rfl slot pa

/-- Invalidating copies changes no byte of memory. -/
theorem State.dropLines_byteAt (s : State) (a n : Nat) (slot : Option Nat) (pa : Nat) : (s.dropLines a n).byteAt slot pa = s.byteAt slot pa :=
  State.byteAt_congr (State.dropLines_mem s a n) (State.dropLines_unitKey s a n) (State.dropLines_keys s a n) (State.dropLines_mgmt s a n) slot pa

theorem State.writeLoc_accums (s : State) (l : Loc) (data : List Byte) :
    (s.writeLoc l data).accums = s.accums.filter (fun a => !a.meets l.pa data.length) := by
  obtain ⟨m, k, h⟩ := State.closeAccums_eq s l.pa data.length
  obtain ⟨m2, k2, h2⟩ := State.putBytes_eq ((s.closeAccums l.pa data.length).dropLines l.pa data.length) l.slot l.pa data
  change (((s.closeAccums l.pa data.length).dropLines l.pa data.length).putBytes l.slot l.pa data).accums = _
  rw [h2]
  exact (State.dropLines_accums _ _ _).trans (by rw [h])

/-- A read of what was just written. -/
theorem State.readLoc_writeLoc (s : State) (l : Loc) (data : List Byte) : ((s.writeLoc l data).readLoc l data.length).2 = data := by
  have hc : ((s.writeLoc l data).closeAccums l.pa data.length) = s.writeLoc l data := by
    apply State.closeAccums_none
    rw [State.writeLoc_accums]
    intro a ha
    simpa using (List.mem_filter.1 ha).2
  unfold State.readLoc
  simp only [hc]
  have h := State.bytesAt_putBytes ((s.closeAccums l.pa data.length).dropLines l.pa data.length) l.slot l.pa data
  refine Eq.trans (State.bytesAt_congr _ _ _ (fun i _ => State.writeLoc_byteAt s l data l.slot (l.pa + i))) h

theorem State.byteAt_writeLoc_outside (s : State) (l : Loc) (data : List Byte) (pa : Nat) (h : pa < l.pa ∨ l.pa + data.length ≤ pa) :
    (s.writeLoc l data).byteAt l.slot pa = (s.closeAccums l.pa data.length).byteAt l.slot pa := by
  rw [State.writeLoc_byteAt, State.byteAt_putBytes_outside _ _ _ _ _ h, State.dropLines_byteAt]

theorem State.byteAt_writeLoc_unit (s : State) (l : Loc) (data : List Byte) (slot : Option Nat) (pa : Nat)
    (h : pa / 32 < l.pa / 32 ∨ (l.pa + data.length - 1) / 32 < pa / 32) :
    (s.writeLoc l data).byteAt slot pa = (s.closeAccums l.pa data.length).byteAt slot pa := by
  rw [State.writeLoc_byteAt, State.byteAt_putBytes_unit _ _ _ _ _ _ h, State.dropLines_byteAt]

theorem State.readLoc_none (s : State) (l : Loc) (n : Nat) (h : ∀ a ∈ s.accums, a.meets l.pa n = false) :
    s.readLoc l n = (s, s.bytesAt l.slot l.pa n) := by
  unfold State.readLoc
  rw [State.closeAccums_none s l.pa n h]

/-! ## The canonical form -/

theorem State.wf_rekey {s : State} (slot : Option Nat) (u : Nat) (h : ByteMap.wf s.mem = true) : ByteMap.wf (s.rekey slot u).mem = true := by
  unfold State.rekey
  split
  · exact h
  · exact ByteMap.wf_wrN _ _ h

@[simp] theorem State.wf_putByte {s : State} (slot : Option Nat) (pa : Nat) (b : Byte) (h : ByteMap.wf s.mem = true) :
    ByteMap.wf (s.putByte slot pa b).mem = true := ByteMap.wf_wr _ _ (State.wf_rekey slot _ h)

@[simp] theorem State.wf_putBytes {s : State} (slot : Option Nat) (pa : Nat) (data : List Byte) (h : ByteMap.wf s.mem = true) :
    ByteMap.wf (s.putBytes slot pa data).mem = true := by
  induction data generalizing s pa with
  | nil => exact h
  | cons b t ih => exact ih _ (State.wf_putByte slot pa b h)

theorem State.wf_closeFold (l : List Accum) {s : State} (h : ByteMap.wf s.mem = true) :
    ByteMap.wf (l.foldl (fun s a => s.putBytes a.slot a.pa a.bytes) s).mem = true := by
  induction l generalizing s with
  | nil => exact h
  | cons a t ih => exact ih (State.wf_putBytes _ _ _ h)

@[simp] theorem State.wf_closeAccums {s : State} (pa n : Nat) (h : ByteMap.wf s.mem = true) :
    ByteMap.wf (s.closeAccums pa n).mem = true := by
  unfold State.closeAccums
  simp only
  split
  · exact h
  · exact State.wf_closeFold _ h

@[simp] theorem State.wf_readLoc {s : State} (l : Loc) (n : Nat) (h : ByteMap.wf s.mem = true) : ByteMap.wf (s.readLoc l n).1.mem = true :=
  State.wf_closeAccums _ _ h

@[simp] theorem State.wf_writeLoc {s : State} (l : Loc) (data : List Byte) (h : ByteMap.wf s.mem = true) :
    ByteMap.wf (s.writeLoc l data).mem = true :=
  State.wf_putBytes _ _ _ (by rw [State.dropLines_mem]; exact State.wf_closeAccums _ _ h)

end Sys2Proof.Machine
end

