-- ==== Sys2Proof/Laws/Ops.lean ====
section
/-! SUPPORT. The spec lemmas of the shared operations: for each, once, all that it can answer, and what it leaves alone. -/

namespace Sys2Proof.Machine

variable (s : State)

/-! ## Plain results -/

theorem State.retX_eq (r : RegNo) (v : Word) : s.retX r v = .next ((s.putX r v).skip) := rfl

theorem State.retF_eq (r : RegNo) (v : Word) : s.retF r v = .next ((s.putF r v).skip) := rfl

theorem State.stay_eq : s.stay = .next s := rfl

@[simp] theorem State.mem_setMe (k : Core) : (s.setMe k).mem = s.mem := rfl
@[simp] theorem State.mem_setCore (c : Nat) (k : Core) : (s.setCore c k).mem = s.mem := rfl
@[simp] theorem State.mem_setBay (b : Nat) (y : Bay) : (s.setBay b y).mem = s.mem := rfl
@[simp] theorem State.mem_modPeg (id : Nat) (f : Peg → Peg) : (s.modPeg id f).mem = s.mem := rfl
@[simp] theorem State.mem_modBent (b : Nat) (f : Bent → Bent) : (s.modBent b f).mem = s.mem := rfl
@[simp] theorem State.mem_pend (id : Nat) (t : Trap) : (s.pend id t).mem = s.mem := rfl
@[simp] theorem State.mem_skip : s.skip.mem = s.mem := rfl
@[simp] theorem State.mem_drain (b : Nat) : (s.drain b).mem = s.mem := rfl
@[simp] theorem State.mem_deliver (t : Trap) (pc : Word) : (s.deliver t pc).mem = s.mem := rfl
@[simp] theorem State.mem_note (k u b : Nat) : (s.note k u b).mem = s.mem := rfl
@[simp] theorem State.mem_heard : s.heard.mem = s.mem := rfl

/-! ## Traps -/

/-- What a synchronous trap comes to (R356, R359): the handler, or the end of the bent. -/
theorem State.trapWith_cases (code : Nat) (addr info : Word) :
    (hact s.me.regs.trapCause = true ∧ s.trapWith code addr info = .next (s.killBent s.myBent 0x18 0)) ∨
    (hact s.me.regs.trapCause = false ∧ s.hasHandler = true ∧
      s.trapWith code addr info = .next (s.deliver ⟨0, code, info, addr, none, 0, false⟩ s.pc)) ∨
    (hact s.me.regs.trapCause = false ∧ s.hasHandler = false ∧
      s.trapWith code addr info = .next (s.killBent s.myBent code 0)) := by
  unfold State.trapWith State.takeTrap
  cases hact s.me.regs.trapCause <;> cases s.hasHandler <;> simp

/-- The trap registers of a delivery (R353, R356). -/
theorem State.deliver_regs (t : Trap) (pc : Word) : (s.deliver t pc).me.regs =
    { s.me.regs with trapCause := causeWord t.kind t.code, trapInfo := t.info, trapAddr := t.addr, trapPc := pc } := by
  simp [State.deliver]

/-- No x register changes at a delivery (R356). -/
theorem State.deliver_getX (t : Trap) (pc : Word) (r : RegNo) : (s.deliver t pc).getX r = s.getX r := by
  simp [State.deliver, State.getX, Core.getX]

theorem State.deliver_getF (t : Trap) (pc : Word) (r : RegNo) : (s.deliver t pc).getF r = s.getF r := by
  simp [State.deliver, State.getF, Core.getF]

theorem State.deliver_core_other (t : Trap) (pc : Word) (c : Nat) (h : c ≠ s.cur) : (s.deliver t pc).core c = s.core c := by
  simp [State.deliver, State.core_setMe_other s c _ h]

theorem State.wf_saveWrite (b off : Nat) (data : List Byte) (h : ByteMap.wf s.mem = true) :
    ByteMap.wf (s.saveWrite b off data).mem = true := by
  unfold State.saveWrite
  split
  · exact h
  · split
    · exact h
    · exact State.wf_writeLoc _ _ h

theorem State.wf_recordLast (b cause kind : Nat) (h : ByteMap.wf s.mem = true) :
    ByteMap.wf (s.recordLast b cause kind).mem = true := by
  unfold State.recordLast
  split
  · exact h
  · split
    · exact h
    · exact State.wf_saveWrite s _ _ _ h

theorem State.wf_killBent (b cause kind : Nat) (h : ByteMap.wf s.mem = true) : ByteMap.wf (s.killBent b cause kind).mem = true :=
  State.wf_recordLast s b cause kind h

theorem State.wf_takeTrap (t : Trap) (pc : Word) (h : ByteMap.wf s.mem = true) : ByteMap.wf (s.takeTrap t pc).mem = true := by
  unfold State.takeTrap
  split
  · exact h
  · exact State.wf_killBent s _ _ _ h

/-- A trap keeps memory canonical. -/
theorem State.wf_trapWith {t : State} (code : Nat) (addr info : Word) (h : ByteMap.wf s.mem = true)
    (ht : s.trapWith code addr info = .next t) : ByteMap.wf t.mem = true := by
  unfold State.trapWith at ht
  split at ht <;> cases ht
  · exact State.wf_killBent s _ _ _ h
  · exact State.wf_takeTrap s _ _ h

/-! ## Conditions of floating instructions -/

/-- The conditions of a floating instruction are recorded in FLG; only an enabled one traps (R110). -/
theorem State.fpFlags_cases (g : FFlags) (k : State → Result) :
    let u := s.setMe { s.me with regs := { s.me.regs with fpCsr := csrWith s.me.regs.fpCsr g } }
    (csrTraps s.me.regs.fpCsr g = true ∧ s.fpFlags g k = u.trap 0x0F) ∨
    (csrTraps s.me.regs.fpCsr g = false ∧ s.fpFlags g k = k u) := by
  unfold State.fpFlags
  cases h : csrTraps s.me.regs.fpCsr g
  · exact .inr ⟨rfl, if_neg (by simp [h])⟩
  · exact .inl ⟨rfl, if_pos h⟩

/-! ## What leaves memory alone -/

theorem State.mem_sent (pa n : Nat) : (s.sent pa n).mem = s.mem := by
  unfold State.sent
  split
  · rfl
  · split <;> rfl

theorem State.mem_fetchedLine (core : Option Nat) (bay : Nat) (slot : Option Nat) (line : Nat) :
    (s.fetchedLine core bay slot line).mem = s.mem := by
  unfold State.fetchedLine
  dsimp only
  generalize (_ || _ : Bool) = c
  cases c
  · exact State.mem_sent s _ _
  · rfl

theorem State.mem_keepLine (core : Option Nat) (bay line : Nat) (c : CacheLine) : (s.keepLine core bay line c).mem = s.mem := by
  unfold State.keepLine
  cases core with
  | none => dsimp only; split <;> rfl
  | some k => dsimp only; split <;> split <;> rfl

theorem State.mem_cacheLines (bay : Nat) (l : Loc) (n : Nat) : (s.cacheLines bay l n).mem = s.mem := by
  unfold State.cacheLines
  split
  · rfl
  · dsimp only
    split <;> rfl

theorem State.mem_dropStale (bay : Nat) (ts : List TlbEntry) : (s.dropStale bay ts).mem = s.mem := by
  unfold State.dropStale
  dsimp only
  split <;> rfl

theorem State.mem_enterTlb (bay : Nat) (e : TlbEntry) : (s.enterTlb bay e).mem = s.mem := by
  unfold State.enterTlb
  dsimp only
  split
  · rfl
  · exact State.mem_dropStale s _ _

theorem State.mem_install (bay b : Nat) (va : Word) : (s.install bay b va).mem = s.mem := by
  unfold State.install
  dsimp only
  split
  · rfl
  · split
    · exact State.mem_enterTlb s _ _
    · rfl

/-- What a checked access leaves in the TLB, the L2 and the links changes no memory (R76, R94, R104). -/
theorem State.mem_touched (bay b : Nat) (va : Word) (l : Loc) (n : Nat) (need : Need) : (s.touched bay b va l n need).mem = s.mem := by
  unfold State.touched
  dsimp only
  split
  · rw [State.mem_cacheLines, State.mem_install]
  · rw [State.mem_sent, State.mem_install]

/-! ## Releases and accesses -/

/-- A wait for merges stalls, or takes cause 0x1C for one that failed (R289, R403). -/
theorem State.awaitAcks_cases (scope : Nat) (mask : BitVec 16) :
    s.awaitAcks scope mask = .next s ∨
      ∃ id va, s.pegId = some id ∧ s.awaitAcks scope mask = (s.loseMerges id va).trapAt 0x1C va := by
  unfold State.awaitAcks
  split
  · next va id _ hid => exact .inr ⟨id, va, hid, rfl⟩
  · exact .inl rfl

/-- A release goes on when nothing is left to wait for; else it stalls, or takes cause 0x1C for a merge that failed (R289, R403). -/
theorem State.release_cases (scope : Nat) (mask : BitVec 16) (k : State → Result) :
    (s.releaseWaits scope mask = false ∧ s.release scope mask k = k s) ∨
    (s.releaseWaits scope mask = true ∧ (s.release scope mask k = .next s ∨
      ∃ id va, s.pegId = some id ∧ s.release scope mask k = (s.loseMerges id va).trapAt 0x1C va)) := by
  unfold State.release
  cases h : s.releaseWaits scope mask
  · exact .inl ⟨rfl, rfl⟩
  · exact .inr ⟨rfl, s.awaitAcks_cases scope mask⟩

/-- The same of a release that waits for merges alone (R289). -/
theorem State.ackThen_cases (scope : Nat) (mask : BitVec 16) (k : State → Result) :
    (s.ackWaits scope mask = false ∧ s.ackThen scope mask k = k s) ∨
    (s.ackWaits scope mask = true ∧ (s.ackThen scope mask k = .next s ∨
      ∃ id va, s.pegId = some id ∧ s.ackThen scope mask k = (s.loseMerges id va).trapAt 0x1C va)) := by
  unfold State.ackThen
  cases h : s.ackWaits scope mask
  · exact .inl ⟨rfl, rfl⟩
  · exact .inr ⟨rfl, s.awaitAcks_cases scope mask⟩

theorem State.mem_loseMerges (id : Nat) (va : Word) : (s.loseMerges id va).mem = s.mem := rfl

/-- A release keeps memory canonical when what it goes on with does. -/
theorem State.wf_release {t : State} (scope : Nat) (mask : BitVec 16) (k : State → Result) (h : ByteMap.wf s.mem = true)
    (hk : ∀ t, k s = .next t → ByteMap.wf t.mem = true) (ht : s.release scope mask k = .next t) : ByteMap.wf t.mem = true := by
  rcases s.release_cases scope mask k with ⟨-, e⟩ | ⟨-, e | ⟨id, va, -, e⟩⟩ <;> rw [e] at ht
  · exact hk t ht
  · cases ht; exact h
  · exact State.wf_trapWith (s.loseMerges id va) 0x1C va 0 h ht

theorem State.wf_ackThen {t : State} (scope : Nat) (mask : BitVec 16) (k : State → Result) (h : ByteMap.wf s.mem = true)
    (hk : ∀ t, k s = .next t → ByteMap.wf t.mem = true) (ht : s.ackThen scope mask k = .next t) : ByteMap.wf t.mem = true := by
  rcases s.ackThen_cases scope mask k with ⟨-, e⟩ | ⟨-, e | ⟨id, va, -, e⟩⟩ <;> rw [e] at ht
  · exact hk t ht
  · cases ht; exact h
  · exact State.wf_trapWith (s.loseMerges id va) 0x1C va 0 h ht

/-- An issued access performs at once, or stays pending (R146). -/
theorem State.issue_cases (a : Access) :
    (s.defer = false ∧ s.canPerform a = true ∧ s.issue a = s.perform a) ∨
    ((s.defer = true ∨ s.canPerform a = false) ∧ s.issue a = { s with pending := s.pending ++ [a] }) := by
  unfold State.issue
  cases s.defer <;> cases s.canPerform a <;> simp

theorem State.mem_deferTrap (a : Access) (code : Nat) : (s.deferTrap a code).mem = s.mem := by
  unfold State.deferTrap
  split
  · split
    · split <;> rfl
    · rfl
  · rfl

theorem State.mem_fetchLines (core : Option Nat) (bay : Nat) (slot : Option Nat) (got : List (Nat × CacheLine)) (s : State) :
    (got.foldl (fun s e => (s.fetchedLine core bay slot e.1).keepLine core bay e.1 e.2) s).mem = s.mem := by
  induction got generalizing s with
  | nil => rfl
  | cons e t ih => rw [List.foldl_cons, ih, State.mem_keepLine, State.mem_fetchedLine]

theorem State.wf_fetchLoc (core : Option Nat) (bay : Nat) (l : Loc) (n : Nat) (h : ByteMap.wf s.mem = true) :
    ByteMap.wf (s.fetchLoc core bay l n).1.mem = true := by
  unfold State.fetchLoc
  split
  · dsimp only
    rw [State.mem_fetchLines]
    exact State.wf_closeAccums _ _ h
  · exact State.wf_closeAccums _ _ h

theorem State.wf_performHere (a : Access) (h : ByteMap.wf s.mem = true) : ByteMap.wf (s.performHere a).mem = true := by
  unfold State.performHere
  split
  · split
    · rw [State.mem_deferTrap]; exact h
    · dsimp only
      split <;> exact State.wf_fetchLoc s _ _ _ _ h
  · rw [State.mem_cacheLines]; exact State.wf_writeLoc _ _ h
  · split
    · split
      · exact h
      · rw [State.mem_deferTrap]; exact h
    · dsimp only
      split <;> exact State.wf_writeLoc _ _ (State.wf_readLoc _ _ h)
  · split
    · split
      · exact h
      · rw [State.mem_deferTrap]; exact h
    · dsimp only
      split <;> split
      · exact State.wf_writeLoc _ _ (State.wf_readLoc _ _ h)
      · rw [State.dropLines_mem]; exact State.wf_readLoc _ _ h
      · exact State.wf_writeLoc _ _ (State.wf_readLoc _ _ h)
      · rw [State.mem_setCore, State.dropLines_mem]; exact State.wf_readLoc _ _ h

theorem State.wf_perform (a : Access) (h : ByteMap.wf s.mem = true) : ByteMap.wf (s.perform a).mem = true := by
  unfold State.perform
  split
  · split
    · exact h
    · rw [State.mem_deferTrap]; exact h
  · exact State.wf_performHere s a h

theorem State.wf_issue (a : Access) (h : ByteMap.wf s.mem = true) : ByteMap.wf (s.issue a).mem = true := by
  unfold State.issue
  split
  · exact State.wf_perform s a h
  · exact h

/-- Issuing the accesses of an instruction keeps memory canonical. -/
theorem State.wf_accessAll (cls : BitVec 4) (o : BitVec 2) (us : Units) (va : Word) (l : Loc) (h : ByteMap.wf s.mem = true) :
    ByteMap.wf (s.accessAll cls o us va l).mem = true := by
  unfold State.accessAll
  generalize hs : ({ s with stamp := s.stamp + 1 } : State) = t
  have ht : ByteMap.wf t.mem = true := by rw [← hs]; exact h
  clear hs
  induction us generalizing t with
  | nil => exact ht
  | cons u us ih => exact ih _ (State.wf_issue t _ ht)

/-- What a load, store or atomic of the running peg goes on with (R134, R135, R146). -/
def State.afterAccess (s : State) (va : Word) (size : Nat) (need : Need) (cls : BitVec 4) (o : BitVec 2) (us : Units) (l : Loc) : Result :=
  .next ((s.touched s.myBay s.myBent va l size need).accessAll cls o us va l).skip

/-- What a load, store or atomic of the running peg comes to (R134, R135, R289): the check's trap, the issue of its accesses, or the
wait of its release. -/
theorem State.dataUnits_cases (va : Word) (size : Nat) (need : Need) (cls : BitVec 4) (o : BitVec 2) (us : Units) :
    (∃ c, s.access s.myBay s.myBent va size need = .error c ∧ s.dataUnits va size need cls o us = s.trapAt c va) ∨
    (∃ l, s.access s.myBay s.myBent va size need = .ok l ∧
      (s.dataUnits va size need cls o us = s.afterAccess va size need cls o us l ∨
        ordReleases o = true ∧ s.dataUnits va size need cls o us =
          s.ackThen s.ordScope (BitVec.ofNat 16 (2 ^ cls.toNat)) (fun s => s.afterAccess va size need cls o us l))) := by
  unfold State.dataUnits
  cases h : s.access s.myBay s.myBent va size need with
  | error c => exact .inl ⟨c, rfl, rfl⟩
  | ok l =>
    refine .inr ⟨l, rfl, ?_⟩
    dsimp only
    by_cases hc : (ordReleases o && !decide (need = .read)) = true
    · exact .inr ⟨(Bool.and_eq_true _ _ ▸ hc).1, if_pos hc⟩
    · exact .inl (if_neg hc)

theorem State.wf_afterAccess {t : State} (va : Word) (size : Nat) (need : Need) (cls : BitVec 4) (o : BitVec 2) (us : Units) (l : Loc)
    (h : ByteMap.wf s.mem = true) (ht : s.afterAccess va size need cls o us l = .next t) : ByteMap.wf t.mem = true := by
  cases ht
  exact State.wf_accessAll _ _ _ _ _ _ (by rw [State.mem_touched]; exact h)

/-- A load, store or atomic keeps memory canonical. -/
theorem State.wf_dataUnits {t : State} (va : Word) (size : Nat) (need : Need) (cls : BitVec 4) (o : BitVec 2) (us : Units)
    (h : ByteMap.wf s.mem = true) (ht : s.dataUnits va size need cls o us = .next t) : ByteMap.wf t.mem = true := by
  rcases s.dataUnits_cases va size need cls o us with ⟨c, -, e⟩ | ⟨l, -, e | ⟨-, e⟩⟩ <;> rw [e] at ht
  · exact State.wf_trapWith _ _ _ _ h ht
  · exact State.wf_afterAccess s _ _ _ _ _ _ l h ht
  · exact State.wf_ackThen s _ _ _ h (fun _ e => State.wf_afterAccess s _ _ _ _ _ _ l h e) ht

/-- What an access that an instruction waits for comes to (R135, R434): a trap at its address, a stall that changes no memory, or
going on with its location. -/
theorem State.withLoc_cases (va : Word) (size align cls : Nat) (need : Need) (reads : Bool) (k : State → Loc → Result) :
    (va.toNat % align ≠ 0 ∧ s.withLoc va size align cls need reads k = s.trapAt 0x05 va) ∨
    (∃ c, s.translate s.myBay s.myBent va need = .error c ∧ s.withLoc va size align cls need reads k = s.trapAt c va) ∨
    (∃ l, s.translate s.myBay s.myBent va need = .ok l ∧
      ((∃ t, s.probe l size cls need reads = .stall t ∧ s.withLoc va size align cls need reads k = .next t) ∨
       (∃ c, s.probe l size cls need reads = .fault c ∧ s.withLoc va size align cls need reads k = s.heard.trapAt c va) ∨
       (s.probe l size cls need reads = .ready ∧
          s.withLoc va size align cls need reads k = k (s.heard.touched s.myBay s.myBent va l size need) l))) := by
  unfold State.withLoc
  by_cases ha : va.toNat % align ≠ 0
  · exact .inl ⟨ha, if_pos ha⟩
  · right
    rw [if_neg ha]
    cases ht : s.translate s.myBay s.myBent va need with
    | error c => exact .inl ⟨c, rfl, rfl⟩
    | ok l =>
      refine .inr ⟨l, rfl, ?_⟩
      dsimp only
      cases hp : s.probe l size cls need reads with
      | stall t => exact .inl ⟨t, rfl, rfl⟩
      | fault c => exact .inr (.inl ⟨c, rfl, rfl⟩)
      | ready => exact .inr (.inr ⟨rfl, rfl⟩)

/-- A stalled probe changes at most when it asked. -/
theorem State.probe_stall {t : State} (l : Loc) (n cls : Nat) (need : Need) (reads : Bool) (h : s.probe l n cls need reads = .stall t) :
    t = s ∨ t = s.setMe { s.me with asked := some s.elapsed } := by
  unfold State.probe at h
  split at h
  · cases h; exact .inl rfl
  · split at h
    · cases h
    · split at h
      · cases h; exact .inr rfl
      · split at h <;> cases h
        exact .inl rfl
    · dsimp only at h
      generalize (reads && _ : Bool) = c at h
      cases c <;> cases h

/-- An access that an instruction waits for keeps memory canonical when what it goes on with does. -/
theorem State.wf_withLoc {t : State} (va : Word) (size align cls : Nat) (need : Need) (reads : Bool) (k : State → Loc → Result)
    (h : ByteMap.wf s.mem = true) (hk : ∀ l u t, ByteMap.wf u.mem = true → k u l = .next t → ByteMap.wf t.mem = true)
    (ht : s.withLoc va size align cls need reads k = .next t) : ByteMap.wf t.mem = true := by
  rcases s.withLoc_cases va size align cls need reads k with ⟨-, e⟩ | ⟨c, -, e⟩ | ⟨l, -, ⟨u, hu, e⟩ | ⟨c, -, e⟩ | ⟨-, e⟩⟩ <;> rw [e] at ht
  · exact State.wf_trapWith _ _ _ _ h ht
  · exact State.wf_trapWith _ _ _ _ h ht
  · cases ht
    rcases s.probe_stall l size cls need reads hu with rfl | rfl <;> exact h
  · exact State.wf_trapWith s.heard c va 0 h ht
  · exact hk l _ t (by rw [State.mem_touched]; exact h) ht

/-! ## The journal -/

/-- Issuing a command journals it, or stalls (R181). -/
theorem State.journalCmd_cases (c : Cmd) :
    (s.me.journal.length < 256 ∧ s.journalCmd c =
      .next ({ s with stamp := s.stamp + 1 }.setMe { s.me with journal := s.me.journal ++ [c], jnext := s.me.jnext + 1, pc := s.me.pc + 8 })) ∨
    s.journalCmd c = .next s := by
  unfold State.journalCmd
  split
  · exact .inr rfl
  · next h =>
    simp only [Bool.or_eq_true, decide_eq_true_eq, not_or] at h
    exact .inl ⟨by omega, rfl⟩

/-- Stopping an entry pends its trap at its peg, and writes no memory (R192). -/
theorem State.mem_stopCmd (core : Nat) (c : Cmd) (code elem : Nat) (addr : Word) : (s.stopCmd core c code elem addr).mem = s.mem := rfl

/-! ## The return -/

/-- TRET's state part (R358). -/
theorem State.returnFromTrap_me : s.returnFromTrap.me =
    { s.me with pc := s.me.regs.trapPc, hactTime := 0, hactFrom := 0
                regs := { s.me.regs with trapCause := s.me.regs.trapCause &&& ~~~ (0x8000 : Word) } } := by
  simp [State.returnFromTrap]

theorem State.returnFromTrap_getX (r : RegNo) : s.returnFromTrap.getX r = s.getX r := by
  simp [State.returnFromTrap, State.getX, Core.getX]

end Sys2Proof.Machine
end

