-- ==== Sys2Proof/Laws/PerInstr.lean ====
section
/-! SUPPORT. Statements made instruction by instruction. RoundTrip: the decoder reads the words of a well-formed instruction as that
instruction and leaves the bytes that follow. -/

set_option Elab.async false
set_option linter.unusedSimpArgs false
set_option linter.unusedVariables false

namespace Sys2Proof.Laws

/-! ## Words as numbers -/

theorem append_toNat {n m : Nat} (x : BitVec n) (y : BitVec m) : (x ++ y).toNat = x.toNat * 2 ^ m + y.toNat := by
  rw [BitVec.toNat_append, Nat.shiftLeft_eq, ← Nat.shiftLeft_eq, ← Nat.shiftLeft_add_eq_or_of_lt y.isLt, Nat.shiftLeft_eq]

theorem field_eq {n : Nat} (w : BitVec n) (s l : Nat) (v : BitVec l) (h : w.toNat / 2 ^ s % 2 ^ l = v.toNat) :
    w.extractLsb' s l = v := by
  rw [← BitVec.toNat_inj, BitVec.extractLsb'_toNat, Nat.shiftRight_eq_div_pow, h]

theorem word32_bytes (w : Word32) :
    Decode.word32 (w.extractLsb' 0 8) (w.extractLsb' 8 8) (w.extractLsb' 16 8) (w.extractLsb' 24 8) = w := by
  rw [← BitVec.toNat_inj]
  unfold Decode.word32
  rw [append_toNat]
  simp only [append_toNat, BitVec.extractLsb'_toNat, Nat.shiftRight_eq_div_pow]
  have := w.isLt
  omega

/-- A part of a field that is known. -/
theorem field_part {n : Nat} {w : BitVec n} {s l : Nat} {z : BitVec l} (e : w.extractLsb' s l = z) (s' l' : Nat) (h : s ≤ s')
    (h' : s' + l' ≤ s + l) : w.extractLsb' s' l' = z.extractLsb' (s' - s) l' := by
  subst e
  ext i hi
  simp only [BitVec.getElem_extractLsb', BitVec.getLsbD_extractLsb']
  rw [decide_eq_true (show s' - s + i < l by omega), Bool.true_and]
  congr 1
  omega

/-- A short instruction's bytes decode as its word does. -/
theorem bytes_short (w : Word32) (i : Instr) (ho : w.extractLsb' 26 6 ≠ 0x3F#6) (hw : Decode.word w = some i) (h : i.wf = true)
    (rest : List Byte) : Decode.bytes (bytesOfWords [w] ++ rest) = .ok (i, rest) := by
  have hl : Decode.isLong w = false := decide_eq_false ho
  unfold bytesOfWords bytesOfWords
  simp only [List.cons_append, List.nil_append, Decode.bytes, word32_bytes, hl, Decode.short, hw, Decode.accept, h, if_true]
  rfl

/-- A long instruction's bytes decode as its two words do. -/
theorem bytes_long (w0 w1 : Word32) (i : Instr) (ho : w0.extractLsb' 26 6 = 0x3F#6) (hw : Decode.long w0 w1 = some i) (h : i.wf = true)
    (rest : List Byte) : Decode.bytes (bytesOfWords [w0, w1] ++ rest) = .ok (i, rest) := by
  have hl : Decode.isLong w0 = true := decide_eq_true ho
  unfold bytesOfWords bytesOfWords bytesOfWords
  simp only [List.cons_append, List.nil_append, Decode.bytes, word32_bytes, hl, hw, Decode.accept, h, if_true]

/-! ## The major opcode -/

theorem word_01 (w : Word32) (h : w.extractLsb' 26 6 = 0x01#6) : Decode.word w = Decode.opInt w := by
  simp only [Decode.word, h]

theorem word_02 (w : Word32) (h : w.extractLsb' 26 6 = 0x02#6) : Decode.word w = Decode.opMulDiv w := by
  simp only [Decode.word, h]

theorem word_03 (w : Word32) (h : w.extractLsb' 26 6 = 0x03#6) : Decode.word w = some (.addi (w.extractLsb' 21 5) (w.extractLsb' 16 5) (w.extractLsb' 0 16)) := by
  simp only [Decode.word, h]

theorem word_04 (w : Word32) (h : w.extractLsb' 26 6 = 0x04#6) : Decode.word w = some (.andi (w.extractLsb' 21 5) (w.extractLsb' 16 5) (w.extractLsb' 0 16)) := by
  simp only [Decode.word, h]

theorem word_05 (w : Word32) (h : w.extractLsb' 26 6 = 0x05#6) : Decode.word w = some (.ori (w.extractLsb' 21 5) (w.extractLsb' 16 5) (w.extractLsb' 0 16)) := by
  simp only [Decode.word, h]

theorem word_06 (w : Word32) (h : w.extractLsb' 26 6 = 0x06#6) : Decode.word w = some (.xori (w.extractLsb' 21 5) (w.extractLsb' 16 5) (w.extractLsb' 0 16)) := by
  simp only [Decode.word, h]

theorem word_07 (w : Word32) (h : w.extractLsb' 26 6 = 0x07#6) : Decode.word w = some (.slti (w.extractLsb' 21 5) (w.extractLsb' 16 5) (w.extractLsb' 0 16)) := by
  simp only [Decode.word, h]

theorem word_08 (w : Word32) (h : w.extractLsb' 26 6 = 0x08#6) : Decode.word w = some (.sltiN (w.extractLsb' 21 5) (w.extractLsb' 16 5) (w.extractLsb' 0 16)) := by
  simp only [Decode.word, h]

theorem word_09 (w : Word32) (h : w.extractLsb' 26 6 = 0x09#6) : Decode.word w = Decode.opShift w := by
  simp only [Decode.word, h]

theorem word_0A (w : Word32) (h : w.extractLsb' 26 6 = 0x0A#6) : Decode.word w = if w.extractLsb' 16 5 = 0#5 then some (.lui (w.extractLsb' 21 5) (w.extractLsb' 0 16)) else none := by
  simp only [Decode.word, h]

theorem word_0B (w : Word32) (h : w.extractLsb' 26 6 = 0x0B#6) : Decode.word w = if w.extractLsb' 16 5 = 0#5 then some (.lpc (w.extractLsb' 21 5) (w.extractLsb' 0 16)) else none := by
  simp only [Decode.word, h]

theorem word_0C (w : Word32) (h : w.extractLsb' 26 6 = 0x0C#6) : Decode.word w = Decode.opFp64 w := by
  simp only [Decode.word, h]

theorem word_0D (w : Word32) (h : w.extractLsb' 26 6 = 0x0D#6) : Decode.word w = Decode.opFp32 w := by
  simp only [Decode.word, h]

theorem word_0E (w : Word32) (h : w.extractLsb' 26 6 = 0x0E#6) : Decode.word w = Decode.opFcvt w := by
  simp only [Decode.word, h]

theorem word_10 (w : Word32) (h : w.extractLsb' 26 6 = 0x10#6) : Decode.word w = some (.ldB (w.extractLsb' 21 5) (w.extractLsb' 16 5) (w.extractLsb' 12 4) (w.extractLsb' 10 2) (w.extractLsb' 0 10)) := by
  simp only [Decode.word, h]

theorem word_11 (w : Word32) (h : w.extractLsb' 26 6 = 0x11#6) : Decode.word w = some (.ldH (w.extractLsb' 21 5) (w.extractLsb' 16 5) (w.extractLsb' 12 4) (w.extractLsb' 10 2) (w.extractLsb' 0 10)) := by
  simp only [Decode.word, h]

theorem word_12 (w : Word32) (h : w.extractLsb' 26 6 = 0x12#6) : Decode.word w = some (.ldW (w.extractLsb' 21 5) (w.extractLsb' 16 5) (w.extractLsb' 12 4) (w.extractLsb' 10 2) (w.extractLsb' 0 10)) := by
  simp only [Decode.word, h]

theorem word_13 (w : Word32) (h : w.extractLsb' 26 6 = 0x13#6) : Decode.word w = some (.ldD (w.extractLsb' 21 5) (w.extractLsb' 16 5) (w.extractLsb' 12 4) (w.extractLsb' 10 2) (w.extractLsb' 0 10)) := by
  simp only [Decode.word, h]

theorem word_14 (w : Word32) (h : w.extractLsb' 26 6 = 0x14#6) : Decode.word w = some (.ldBn (w.extractLsb' 21 5) (w.extractLsb' 16 5) (w.extractLsb' 12 4) (w.extractLsb' 10 2) (w.extractLsb' 0 10)) := by
  simp only [Decode.word, h]

theorem word_15 (w : Word32) (h : w.extractLsb' 26 6 = 0x15#6) : Decode.word w = some (.ldHn (w.extractLsb' 21 5) (w.extractLsb' 16 5) (w.extractLsb' 12 4) (w.extractLsb' 10 2) (w.extractLsb' 0 10)) := by
  simp only [Decode.word, h]

theorem word_16 (w : Word32) (h : w.extractLsb' 26 6 = 0x16#6) : Decode.word w = some (.ldWn (w.extractLsb' 21 5) (w.extractLsb' 16 5) (w.extractLsb' 12 4) (w.extractLsb' 10 2) (w.extractLsb' 0 10)) := by
  simp only [Decode.word, h]

theorem word_17 (w : Word32) (h : w.extractLsb' 26 6 = 0x17#6) : Decode.word w = some (.ldFw (w.extractLsb' 21 5) (w.extractLsb' 16 5) (w.extractLsb' 12 4) (w.extractLsb' 10 2) (w.extractLsb' 0 10)) := by
  simp only [Decode.word, h]

theorem word_18 (w : Word32) (h : w.extractLsb' 26 6 = 0x18#6) : Decode.word w = some (.ldFd (w.extractLsb' 21 5) (w.extractLsb' 16 5) (w.extractLsb' 12 4) (w.extractLsb' 10 2) (w.extractLsb' 0 10)) := by
  simp only [Decode.word, h]

theorem word_19 (w : Word32) (h : w.extractLsb' 26 6 = 0x19#6) : Decode.word w = if w.extractLsb' 21 1 = 0#1 then some (.ldA16 (w.extractLsb' 22 4) (w.extractLsb' 16 5) (w.extractLsb' 12 4) (w.extractLsb' 10 2) (w.extractLsb' 0 10)) else none := by
  simp only [Decode.word, h]

theorem word_1A (w : Word32) (h : w.extractLsb' 26 6 = 0x1A#6) : Decode.word w = if w.extractLsb' 21 1 = 0#1 then some (.ldV16 (w.extractLsb' 22 4) (w.extractLsb' 16 5) (w.extractLsb' 12 4) (w.extractLsb' 10 2) (w.extractLsb' 0 10)) else none := by
  simp only [Decode.word, h]

theorem word_1C (w : Word32) (h : w.extractLsb' 26 6 = 0x1C#6) : Decode.word w = some (.stB (w.extractLsb' 21 5) (w.extractLsb' 16 5) (w.extractLsb' 12 4) (w.extractLsb' 10 2) (w.extractLsb' 0 10)) := by
  simp only [Decode.word, h]

theorem word_1D (w : Word32) (h : w.extractLsb' 26 6 = 0x1D#6) : Decode.word w = some (.stH (w.extractLsb' 21 5) (w.extractLsb' 16 5) (w.extractLsb' 12 4) (w.extractLsb' 10 2) (w.extractLsb' 0 10)) := by
  simp only [Decode.word, h]

theorem word_1E (w : Word32) (h : w.extractLsb' 26 6 = 0x1E#6) : Decode.word w = some (.stW (w.extractLsb' 21 5) (w.extractLsb' 16 5) (w.extractLsb' 12 4) (w.extractLsb' 10 2) (w.extractLsb' 0 10)) := by
  simp only [Decode.word, h]

theorem word_1F (w : Word32) (h : w.extractLsb' 26 6 = 0x1F#6) : Decode.word w = some (.stD (w.extractLsb' 21 5) (w.extractLsb' 16 5) (w.extractLsb' 12 4) (w.extractLsb' 10 2) (w.extractLsb' 0 10)) := by
  simp only [Decode.word, h]

theorem word_20 (w : Word32) (h : w.extractLsb' 26 6 = 0x20#6) : Decode.word w = some (.stFw (w.extractLsb' 21 5) (w.extractLsb' 16 5) (w.extractLsb' 12 4) (w.extractLsb' 10 2) (w.extractLsb' 0 10)) := by
  simp only [Decode.word, h]

theorem word_21 (w : Word32) (h : w.extractLsb' 26 6 = 0x21#6) : Decode.word w = some (.stFd (w.extractLsb' 21 5) (w.extractLsb' 16 5) (w.extractLsb' 12 4) (w.extractLsb' 10 2) (w.extractLsb' 0 10)) := by
  simp only [Decode.word, h]

theorem word_22 (w : Word32) (h : w.extractLsb' 26 6 = 0x22#6) : Decode.word w = if w.extractLsb' 21 1 = 0#1 then some (.stA16 (w.extractLsb' 22 4) (w.extractLsb' 16 5) (w.extractLsb' 12 4) (w.extractLsb' 10 2) (w.extractLsb' 0 10)) else none := by
  simp only [Decode.word, h]

theorem word_23 (w : Word32) (h : w.extractLsb' 26 6 = 0x23#6) : Decode.word w = if w.extractLsb' 21 1 = 0#1 then some (.stV16 (w.extractLsb' 22 4) (w.extractLsb' 16 5) (w.extractLsb' 12 4) (w.extractLsb' 10 2) (w.extractLsb' 0 10)) else none := by
  simp only [Decode.word, h]

theorem word_24 (w : Word32) (h : w.extractLsb' 26 6 = 0x24#6) : Decode.word w = some (.amoW (w.extractLsb' 21 5) (w.extractLsb' 16 5) (w.extractLsb' 11 5) (w.extractLsb' 7 4) (w.extractLsb' 6 1) (w.extractLsb' 4 2) (w.extractLsb' 0 4)) := by
  simp only [Decode.word, h]

theorem word_25 (w : Word32) (h : w.extractLsb' 26 6 = 0x25#6) : Decode.word w = some (.amoD (w.extractLsb' 21 5) (w.extractLsb' 16 5) (w.extractLsb' 11 5) (w.extractLsb' 7 4) (w.extractLsb' 6 1) (w.extractLsb' 4 2) (w.extractLsb' 0 4)) := by
  simp only [Decode.word, h]

theorem word_26 (w : Word32) (h : w.extractLsb' 26 6 = 0x26#6) : Decode.word w = if w.extractLsb' 6 5 = 0#5 then some (.casW (w.extractLsb' 21 5) (w.extractLsb' 16 5) (w.extractLsb' 11 5) (w.extractLsb' 4 2) (w.extractLsb' 0 4)) else none := by
  simp only [Decode.word, h]

theorem word_27 (w : Word32) (h : w.extractLsb' 26 6 = 0x27#6) : Decode.word w = if w.extractLsb' 6 5 = 0#5 then some (.casD (w.extractLsb' 21 5) (w.extractLsb' 16 5) (w.extractLsb' 11 5) (w.extractLsb' 4 2) (w.extractLsb' 0 4)) else none := by
  simp only [Decode.word, h]

theorem word_28 (w : Word32) (h : w.extractLsb' 26 6 = 0x28#6) : Decode.word w = some (.beq (w.extractLsb' 21 5) (w.extractLsb' 16 5) (w.extractLsb' 0 16)) := by
  simp only [Decode.word, h]

theorem word_29 (w : Word32) (h : w.extractLsb' 26 6 = 0x29#6) : Decode.word w = some (.bne (w.extractLsb' 21 5) (w.extractLsb' 16 5) (w.extractLsb' 0 16)) := by
  simp only [Decode.word, h]

theorem word_2A (w : Word32) (h : w.extractLsb' 26 6 = 0x2A#6) : Decode.word w = some (.blt (w.extractLsb' 21 5) (w.extractLsb' 16 5) (w.extractLsb' 0 16)) := by
  simp only [Decode.word, h]

theorem word_2B (w : Word32) (h : w.extractLsb' 26 6 = 0x2B#6) : Decode.word w = some (.bge (w.extractLsb' 21 5) (w.extractLsb' 16 5) (w.extractLsb' 0 16)) := by
  simp only [Decode.word, h]

theorem word_2C (w : Word32) (h : w.extractLsb' 26 6 = 0x2C#6) : Decode.word w = some (.bltN (w.extractLsb' 21 5) (w.extractLsb' 16 5) (w.extractLsb' 0 16)) := by
  simp only [Decode.word, h]

theorem word_2D (w : Word32) (h : w.extractLsb' 26 6 = 0x2D#6) : Decode.word w = some (.bgeN (w.extractLsb' 21 5) (w.extractLsb' 16 5) (w.extractLsb' 0 16)) := by
  simp only [Decode.word, h]

theorem word_2E (w : Word32) (h : w.extractLsb' 26 6 = 0x2E#6) : Decode.word w = some (.j (w.extractLsb' 0 26)) := by
  simp only [Decode.word, h]

theorem word_2F (w : Word32) (h : w.extractLsb' 26 6 = 0x2F#6) : Decode.word w = some (.jal (w.extractLsb' 0 26)) := by
  simp only [Decode.word, h]

theorem word_30 (w : Word32) (h : w.extractLsb' 26 6 = 0x30#6) : Decode.word w = some (.jalr (w.extractLsb' 21 5) (w.extractLsb' 16 5) (w.extractLsb' 0 16)) := by
  simp only [Decode.word, h]

theorem word_31 (w : Word32) (h : w.extractLsb' 26 6 = 0x31#6) : Decode.word w = if w.extractLsb' 16 5 = 0#5 then some (.fence (w.extractLsb' 23 3) (w.extractLsb' 21 2) (w.extractLsb' 0 16)) else none := by
  simp only [Decode.word, h]

theorem word_32 (w : Word32) (h : w.extractLsb' 26 6 = 0x32#6) : Decode.word w = Decode.opState w := by
  simp only [Decode.word, h]

theorem word_33 (w : Word32) (h : w.extractLsb' 26 6 = 0x33#6) : Decode.word w = Decode.opWait w := by
  simp only [Decode.word, h]

theorem word_34 (w : Word32) (h : w.extractLsb' 26 6 = 0x34#6) : Decode.word w = Decode.opPeg w := by
  simp only [Decode.word, h]

theorem word_35 (w : Word32) (h : w.extractLsb' 26 6 = 0x35#6) : Decode.word w = Decode.opScribe w := by
  simp only [Decode.word, h]

theorem word_36 (w : Word32) (h : w.extractLsb' 26 6 = 0x36#6) : Decode.word w = Decode.opEngine w := by
  simp only [Decode.word, h]

theorem word_37 (w : Word32) (h : w.extractLsb' 26 6 = 0x37#6) : Decode.word w = Decode.opSystem w := by
  simp only [Decode.word, h]

/-! ## The fields of a word, by format (R113) -/

theorem fields_6_5_5_5_11 (a : BitVec 6) (b : BitVec 5) (c : BitVec 5) (d : BitVec 5) (e : BitVec 11) (q : Word32) (hq : q = a ++ b ++ c ++ d ++ e) :
    q.extractLsb' 26 6 = a ∧
    q.extractLsb' 21 5 = b ∧
    q.extractLsb' 16 5 = c ∧
    q.extractLsb' 11 5 = d ∧
    q.extractLsb' 0 11 = e := by
  have hn := congrArg BitVec.toNat hq
  rw [append_toNat] at hn
  simp only [append_toNat] at hn
  clear hq
  have := a.isLt
  have := b.isLt
  have := c.isLt
  have := d.isLt
  have := e.isLt
  exact ⟨field_eq q 26 6 a (by omega), field_eq q 21 5 b (by omega), field_eq q 16 5 c (by omega), field_eq q 11 5 d (by omega), field_eq q 0 11 e (by omega)⟩

theorem fields_6_5_5_16 (a : BitVec 6) (b : BitVec 5) (c : BitVec 5) (d : BitVec 16) (q : Word32) (hq : q = a ++ b ++ c ++ d) :
    q.extractLsb' 26 6 = a ∧
    q.extractLsb' 21 5 = b ∧
    q.extractLsb' 16 5 = c ∧
    q.extractLsb' 0 16 = d := by
  have hn := congrArg BitVec.toNat hq
  rw [append_toNat] at hn
  simp only [append_toNat] at hn
  clear hq
  have := a.isLt
  have := b.isLt
  have := c.isLt
  have := d.isLt
  exact ⟨field_eq q 26 6 a (by omega), field_eq q 21 5 b (by omega), field_eq q 16 5 c (by omega), field_eq q 0 16 d (by omega)⟩

theorem fields_6_5_5_10_6 (a : BitVec 6) (b : BitVec 5) (c : BitVec 5) (d : BitVec 10) (e : BitVec 6) (q : Word32) (hq : q = a ++ b ++ c ++ d ++ e) :
    q.extractLsb' 26 6 = a ∧
    q.extractLsb' 21 5 = b ∧
    q.extractLsb' 16 5 = c ∧
    q.extractLsb' 6 10 = d ∧
    q.extractLsb' 0 6 = e := by
  have hn := congrArg BitVec.toNat hq
  rw [append_toNat] at hn
  simp only [append_toNat] at hn
  clear hq
  have := a.isLt
  have := b.isLt
  have := c.isLt
  have := d.isLt
  have := e.isLt
  exact ⟨field_eq q 26 6 a (by omega), field_eq q 21 5 b (by omega), field_eq q 16 5 c (by omega), field_eq q 6 10 d (by omega), field_eq q 0 6 e (by omega)⟩

theorem fields_6_5_5_5_2_9 (a : BitVec 6) (b : BitVec 5) (c : BitVec 5) (d : BitVec 5) (e : BitVec 2) (f : BitVec 9) (q : Word32) (hq : q = a ++ b ++ c ++ d ++ e ++ f) :
    q.extractLsb' 26 6 = a ∧
    q.extractLsb' 21 5 = b ∧
    q.extractLsb' 16 5 = c ∧
    q.extractLsb' 11 5 = d ∧
    q.extractLsb' 9 2 = e ∧
    q.extractLsb' 0 9 = f := by
  have hn := congrArg BitVec.toNat hq
  rw [append_toNat] at hn
  simp only [append_toNat] at hn
  clear hq
  have := a.isLt
  have := b.isLt
  have := c.isLt
  have := d.isLt
  have := e.isLt
  have := f.isLt
  exact ⟨field_eq q 26 6 a (by omega), field_eq q 21 5 b (by omega), field_eq q 16 5 c (by omega), field_eq q 11 5 d (by omega), field_eq q 9 2 e (by omega), field_eq q 0 9 f (by omega)⟩

theorem fields_6_5_5_4_2_10 (a : BitVec 6) (b : BitVec 5) (c : BitVec 5) (d : BitVec 4) (e : BitVec 2) (f : BitVec 10) (q : Word32) (hq : q = a ++ b ++ c ++ d ++ e ++ f) :
    q.extractLsb' 26 6 = a ∧
    q.extractLsb' 21 5 = b ∧
    q.extractLsb' 16 5 = c ∧
    q.extractLsb' 12 4 = d ∧
    q.extractLsb' 10 2 = e ∧
    q.extractLsb' 0 10 = f := by
  have hn := congrArg BitVec.toNat hq
  rw [append_toNat] at hn
  simp only [append_toNat] at hn
  clear hq
  have := a.isLt
  have := b.isLt
  have := c.isLt
  have := d.isLt
  have := e.isLt
  have := f.isLt
  exact ⟨field_eq q 26 6 a (by omega), field_eq q 21 5 b (by omega), field_eq q 16 5 c (by omega), field_eq q 12 4 d (by omega), field_eq q 10 2 e (by omega), field_eq q 0 10 f (by omega)⟩

theorem fields_6_4_1_5_4_2_10 (a : BitVec 6) (b : BitVec 4) (c : BitVec 1) (d : BitVec 5) (e : BitVec 4) (f : BitVec 2) (g : BitVec 10) (q : Word32) (hq : q = a ++ b ++ c ++ d ++ e ++ f ++ g) :
    q.extractLsb' 26 6 = a ∧
    q.extractLsb' 22 4 = b ∧
    q.extractLsb' 21 1 = c ∧
    q.extractLsb' 16 5 = d ∧
    q.extractLsb' 12 4 = e ∧
    q.extractLsb' 10 2 = f ∧
    q.extractLsb' 0 10 = g := by
  have hn := congrArg BitVec.toNat hq
  rw [append_toNat] at hn
  simp only [append_toNat] at hn
  clear hq
  have := a.isLt
  have := b.isLt
  have := c.isLt
  have := d.isLt
  have := e.isLt
  have := f.isLt
  have := g.isLt
  exact ⟨field_eq q 26 6 a (by omega), field_eq q 22 4 b (by omega), field_eq q 21 1 c (by omega), field_eq q 16 5 d (by omega), field_eq q 12 4 e (by omega), field_eq q 10 2 f (by omega), field_eq q 0 10 g (by omega)⟩

theorem fields_6_5_5_5_4_1_2_4 (a : BitVec 6) (b : BitVec 5) (c : BitVec 5) (d : BitVec 5) (e : BitVec 4) (f : BitVec 1) (g : BitVec 2) (h : BitVec 4) (q : Word32) (hq : q = a ++ b ++ c ++ d ++ e ++ f ++ g ++ h) :
    q.extractLsb' 26 6 = a ∧
    q.extractLsb' 21 5 = b ∧
    q.extractLsb' 16 5 = c ∧
    q.extractLsb' 11 5 = d ∧
    q.extractLsb' 7 4 = e ∧
    q.extractLsb' 6 1 = f ∧
    q.extractLsb' 4 2 = g ∧
    q.extractLsb' 0 4 = h := by
  have hn := congrArg BitVec.toNat hq
  rw [append_toNat] at hn
  simp only [append_toNat] at hn
  clear hq
  have := a.isLt
  have := b.isLt
  have := c.isLt
  have := d.isLt
  have := e.isLt
  have := f.isLt
  have := g.isLt
  have := h.isLt
  exact ⟨field_eq q 26 6 a (by omega), field_eq q 21 5 b (by omega), field_eq q 16 5 c (by omega), field_eq q 11 5 d (by omega), field_eq q 7 4 e (by omega), field_eq q 6 1 f (by omega), field_eq q 4 2 g (by omega), field_eq q 0 4 h (by omega)⟩

theorem fields_6_5_5_5_5_2_4 (a : BitVec 6) (b : BitVec 5) (c : BitVec 5) (d : BitVec 5) (e : BitVec 5) (f : BitVec 2) (g : BitVec 4) (q : Word32) (hq : q = a ++ b ++ c ++ d ++ e ++ f ++ g) :
    q.extractLsb' 26 6 = a ∧
    q.extractLsb' 21 5 = b ∧
    q.extractLsb' 16 5 = c ∧
    q.extractLsb' 11 5 = d ∧
    q.extractLsb' 6 5 = e ∧
    q.extractLsb' 4 2 = f ∧
    q.extractLsb' 0 4 = g := by
  have hn := congrArg BitVec.toNat hq
  rw [append_toNat] at hn
  simp only [append_toNat] at hn
  clear hq
  have := a.isLt
  have := b.isLt
  have := c.isLt
  have := d.isLt
  have := e.isLt
  have := f.isLt
  have := g.isLt
  exact ⟨field_eq q 26 6 a (by omega), field_eq q 21 5 b (by omega), field_eq q 16 5 c (by omega), field_eq q 11 5 d (by omega), field_eq q 6 5 e (by omega), field_eq q 4 2 f (by omega), field_eq q 0 4 g (by omega)⟩

theorem fields_6_26 (a : BitVec 6) (b : BitVec 26) (q : Word32) (hq : q = a ++ b) :
    q.extractLsb' 26 6 = a ∧
    q.extractLsb' 0 26 = b := by
  have hn := congrArg BitVec.toNat hq
  rw [append_toNat] at hn
  clear hq
  have := a.isLt
  have := b.isLt
  exact ⟨field_eq q 26 6 a (by omega), field_eq q 0 26 b (by omega)⟩

theorem fields_6_3_2_5_16 (a : BitVec 6) (b : BitVec 3) (c : BitVec 2) (d : BitVec 5) (e : BitVec 16) (q : Word32) (hq : q = a ++ b ++ c ++ d ++ e) :
    q.extractLsb' 26 6 = a ∧
    q.extractLsb' 23 3 = b ∧
    q.extractLsb' 21 2 = c ∧
    q.extractLsb' 16 5 = d ∧
    q.extractLsb' 0 16 = e := by
  have hn := congrArg BitVec.toNat hq
  rw [append_toNat] at hn
  simp only [append_toNat] at hn
  clear hq
  have := a.isLt
  have := b.isLt
  have := c.isLt
  have := d.isLt
  have := e.isLt
  exact ⟨field_eq q 26 6 a (by omega), field_eq q 23 3 b (by omega), field_eq q 21 2 c (by omega), field_eq q 16 5 d (by omega), field_eq q 0 16 e (by omega)⟩

theorem fields_6_5_5_12_4 (a : BitVec 6) (b : BitVec 5) (c : BitVec 5) (d : BitVec 12) (e : BitVec 4) (q : Word32) (hq : q = a ++ b ++ c ++ d ++ e) :
    q.extractLsb' 26 6 = a ∧
    q.extractLsb' 21 5 = b ∧
    q.extractLsb' 16 5 = c ∧
    q.extractLsb' 4 12 = d ∧
    q.extractLsb' 0 4 = e := by
  have hn := congrArg BitVec.toNat hq
  rw [append_toNat] at hn
  simp only [append_toNat] at hn
  clear hq
  have := a.isLt
  have := b.isLt
  have := c.isLt
  have := d.isLt
  have := e.isLt
  exact ⟨field_eq q 26 6 a (by omega), field_eq q 21 5 b (by omega), field_eq q 16 5 c (by omega), field_eq q 4 12 d (by omega), field_eq q 0 4 e (by omega)⟩

theorem fields_6_10_2_10_4 (a : BitVec 6) (b : BitVec 10) (c : BitVec 2) (d : BitVec 10) (e : BitVec 4) (q : Word32) (hq : q = a ++ b ++ c ++ d ++ e) :
    q.extractLsb' 26 6 = a ∧
    q.extractLsb' 16 10 = b ∧
    q.extractLsb' 14 2 = c ∧
    q.extractLsb' 4 10 = d ∧
    q.extractLsb' 0 4 = e := by
  have hn := congrArg BitVec.toNat hq
  rw [append_toNat] at hn
  simp only [append_toNat] at hn
  clear hq
  have := a.isLt
  have := b.isLt
  have := c.isLt
  have := d.isLt
  have := e.isLt
  exact ⟨field_eq q 26 6 a (by omega), field_eq q 16 10 b (by omega), field_eq q 14 2 c (by omega), field_eq q 4 10 d (by omega), field_eq q 0 4 e (by omega)⟩

theorem fields_6_12_10_4 (a : BitVec 6) (b : BitVec 12) (c : BitVec 10) (d : BitVec 4) (q : Word32) (hq : q = a ++ b ++ c ++ d) :
    q.extractLsb' 26 6 = a ∧
    q.extractLsb' 14 12 = b ∧
    q.extractLsb' 4 10 = c ∧
    q.extractLsb' 0 4 = d := by
  have hn := congrArg BitVec.toNat hq
  rw [append_toNat] at hn
  simp only [append_toNat] at hn
  clear hq
  have := a.isLt
  have := b.isLt
  have := c.isLt
  have := d.isLt
  exact ⟨field_eq q 26 6 a (by omega), field_eq q 14 12 b (by omega), field_eq q 4 10 c (by omega), field_eq q 0 4 d (by omega)⟩

theorem fields_6_5_7_10_4 (a : BitVec 6) (b : BitVec 5) (c : BitVec 7) (d : BitVec 10) (e : BitVec 4) (q : Word32) (hq : q = a ++ b ++ c ++ d ++ e) :
    q.extractLsb' 26 6 = a ∧
    q.extractLsb' 21 5 = b ∧
    q.extractLsb' 14 7 = c ∧
    q.extractLsb' 4 10 = d ∧
    q.extractLsb' 0 4 = e := by
  have hn := congrArg BitVec.toNat hq
  rw [append_toNat] at hn
  simp only [append_toNat] at hn
  clear hq
  have := a.isLt
  have := b.isLt
  have := c.isLt
  have := d.isLt
  have := e.isLt
  exact ⟨field_eq q 26 6 a (by omega), field_eq q 21 5 b (by omega), field_eq q 14 7 c (by omega), field_eq q 4 10 d (by omega), field_eq q 0 4 e (by omega)⟩

theorem fields_6_5_5_4_8_4 (a : BitVec 6) (b : BitVec 5) (c : BitVec 5) (d : BitVec 4) (e : BitVec 8) (f : BitVec 4) (q : Word32) (hq : q = a ++ b ++ c ++ d ++ e ++ f) :
    q.extractLsb' 26 6 = a ∧
    q.extractLsb' 21 5 = b ∧
    q.extractLsb' 16 5 = c ∧
    q.extractLsb' 12 4 = d ∧
    q.extractLsb' 4 8 = e ∧
    q.extractLsb' 0 4 = f := by
  have hn := congrArg BitVec.toNat hq
  rw [append_toNat] at hn
  simp only [append_toNat] at hn
  clear hq
  have := a.isLt
  have := b.isLt
  have := c.isLt
  have := d.isLt
  have := e.isLt
  have := f.isLt
  exact ⟨field_eq q 26 6 a (by omega), field_eq q 21 5 b (by omega), field_eq q 16 5 c (by omega), field_eq q 12 4 d (by omega), field_eq q 4 8 e (by omega), field_eq q 0 4 f (by omega)⟩

theorem fields_6_5_9_8_4 (a : BitVec 6) (b : BitVec 5) (c : BitVec 9) (d : BitVec 8) (e : BitVec 4) (q : Word32) (hq : q = a ++ b ++ c ++ d ++ e) :
    q.extractLsb' 26 6 = a ∧
    q.extractLsb' 21 5 = b ∧
    q.extractLsb' 12 9 = c ∧
    q.extractLsb' 4 8 = d ∧
    q.extractLsb' 0 4 = e := by
  have hn := congrArg BitVec.toNat hq
  rw [append_toNat] at hn
  simp only [append_toNat] at hn
  clear hq
  have := a.isLt
  have := b.isLt
  have := c.isLt
  have := d.isLt
  have := e.isLt
  exact ⟨field_eq q 26 6 a (by omega), field_eq q 21 5 b (by omega), field_eq q 12 9 c (by omega), field_eq q 4 8 d (by omega), field_eq q 0 4 e (by omega)⟩

theorem fields_6_5_5_8_4_4 (a : BitVec 6) (b : BitVec 5) (c : BitVec 5) (d : BitVec 8) (e : BitVec 4) (f : BitVec 4) (q : Word32) (hq : q = a ++ b ++ c ++ d ++ e ++ f) :
    q.extractLsb' 26 6 = a ∧
    q.extractLsb' 21 5 = b ∧
    q.extractLsb' 16 5 = c ∧
    q.extractLsb' 8 8 = d ∧
    q.extractLsb' 4 4 = e ∧
    q.extractLsb' 0 4 = f := by
  have hn := congrArg BitVec.toNat hq
  rw [append_toNat] at hn
  simp only [append_toNat] at hn
  clear hq
  have := a.isLt
  have := b.isLt
  have := c.isLt
  have := d.isLt
  have := e.isLt
  have := f.isLt
  exact ⟨field_eq q 26 6 a (by omega), field_eq q 21 5 b (by omega), field_eq q 16 5 c (by omega), field_eq q 8 8 d (by omega), field_eq q 4 4 e (by omega), field_eq q 0 4 f (by omega)⟩

theorem fields_6_5_5_7_5_4 (a : BitVec 6) (b : BitVec 5) (c : BitVec 5) (d : BitVec 7) (e : BitVec 5) (f : BitVec 4) (q : Word32) (hq : q = a ++ b ++ c ++ d ++ e ++ f) :
    q.extractLsb' 26 6 = a ∧
    q.extractLsb' 21 5 = b ∧
    q.extractLsb' 16 5 = c ∧
    q.extractLsb' 9 7 = d ∧
    q.extractLsb' 4 5 = e ∧
    q.extractLsb' 0 4 = f := by
  have hn := congrArg BitVec.toNat hq
  rw [append_toNat] at hn
  simp only [append_toNat] at hn
  clear hq
  have := a.isLt
  have := b.isLt
  have := c.isLt
  have := d.isLt
  have := e.isLt
  have := f.isLt
  exact ⟨field_eq q 26 6 a (by omega), field_eq q 21 5 b (by omega), field_eq q 16 5 c (by omega), field_eq q 9 7 d (by omega), field_eq q 4 5 e (by omega), field_eq q 0 4 f (by omega)⟩

theorem fields_6_5_5_4_1_2_9 (a : BitVec 6) (b : BitVec 5) (c : BitVec 5) (d : BitVec 4) (e : BitVec 1) (f : BitVec 2) (g : BitVec 9) (q : Word32) (hq : q = a ++ b ++ c ++ d ++ e ++ f ++ g) :
    q.extractLsb' 26 6 = a ∧
    q.extractLsb' 21 5 = b ∧
    q.extractLsb' 16 5 = c ∧
    q.extractLsb' 12 4 = d ∧
    q.extractLsb' 11 1 = e ∧
    q.extractLsb' 9 2 = f ∧
    q.extractLsb' 0 9 = g := by
  have hn := congrArg BitVec.toNat hq
  rw [append_toNat] at hn
  simp only [append_toNat] at hn
  clear hq
  have := a.isLt
  have := b.isLt
  have := c.isLt
  have := d.isLt
  have := e.isLt
  have := f.isLt
  have := g.isLt
  exact ⟨field_eq q 26 6 a (by omega), field_eq q 21 5 b (by omega), field_eq q 16 5 c (by omega), field_eq q 12 4 d (by omega), field_eq q 11 1 e (by omega), field_eq q 9 2 f (by omega), field_eq q 0 9 g (by omega)⟩

theorem fields_6_5_5_4_1_2_1_2_6 (a : BitVec 6) (b : BitVec 5) (c : BitVec 5) (d : BitVec 4) (e : BitVec 1) (f : BitVec 2) (g : BitVec 1) (h : BitVec 2) (i : BitVec 6) (q : Word32) (hq : q = a ++ b ++ c ++ d ++ e ++ f ++ g ++ h ++ i) :
    q.extractLsb' 26 6 = a ∧
    q.extractLsb' 21 5 = b ∧
    q.extractLsb' 16 5 = c ∧
    q.extractLsb' 12 4 = d ∧
    q.extractLsb' 11 1 = e ∧
    q.extractLsb' 9 2 = f ∧
    q.extractLsb' 8 1 = g ∧
    q.extractLsb' 6 2 = h ∧
    q.extractLsb' 0 6 = i := by
  have hn := congrArg BitVec.toNat hq
  rw [append_toNat] at hn
  simp only [append_toNat] at hn
  clear hq
  have := a.isLt
  have := b.isLt
  have := c.isLt
  have := d.isLt
  have := e.isLt
  have := f.isLt
  have := g.isLt
  have := h.isLt
  have := i.isLt
  exact ⟨field_eq q 26 6 a (by omega), field_eq q 21 5 b (by omega), field_eq q 16 5 c (by omega), field_eq q 12 4 d (by omega), field_eq q 11 1 e (by omega), field_eq q 9 2 f (by omega), field_eq q 8 1 g (by omega), field_eq q 6 2 h (by omega), field_eq q 0 6 i (by omega)⟩

theorem fields_6_10_12_4 (a : BitVec 6) (b : BitVec 10) (c : BitVec 12) (d : BitVec 4) (q : Word32) (hq : q = a ++ b ++ c ++ d) :
    q.extractLsb' 26 6 = a ∧
    q.extractLsb' 16 10 = b ∧
    q.extractLsb' 4 12 = c ∧
    q.extractLsb' 0 4 = d := by
  have hn := congrArg BitVec.toNat hq
  rw [append_toNat] at hn
  simp only [append_toNat] at hn
  clear hq
  have := a.isLt
  have := b.isLt
  have := c.isLt
  have := d.isLt
  exact ⟨field_eq q 26 6 a (by omega), field_eq q 16 10 b (by omega), field_eq q 4 12 c (by omega), field_eq q 0 4 d (by omega)⟩

theorem fields_6_5_21 (a : BitVec 6) (b : BitVec 5) (c : BitVec 21) (q : Word32) (hq : q = a ++ b ++ c) :
    q.extractLsb' 26 6 = a ∧
    q.extractLsb' 21 5 = b ∧
    q.extractLsb' 0 21 = c := by
  have hn := congrArg BitVec.toNat hq
  rw [append_toNat] at hn
  simp only [append_toNat] at hn
  clear hq
  have := a.isLt
  have := b.isLt
  have := c.isLt
  exact ⟨field_eq q 26 6 a (by omega), field_eq q 21 5 b (by omega), field_eq q 0 21 c (by omega)⟩

theorem fields_6_6_5_5_4_6 (a : BitVec 6) (b : BitVec 6) (c : BitVec 5) (d : BitVec 5) (e : BitVec 4) (f : BitVec 6) (q : Word32) (hq : q = a ++ b ++ c ++ d ++ e ++ f) :
    q.extractLsb' 26 6 = a ∧
    q.extractLsb' 20 6 = b ∧
    q.extractLsb' 15 5 = c ∧
    q.extractLsb' 10 5 = d ∧
    q.extractLsb' 6 4 = e ∧
    q.extractLsb' 0 6 = f := by
  have hn := congrArg BitVec.toNat hq
  rw [append_toNat] at hn
  simp only [append_toNat] at hn
  clear hq
  have := a.isLt
  have := b.isLt
  have := c.isLt
  have := d.isLt
  have := e.isLt
  have := f.isLt
  exact ⟨field_eq q 26 6 a (by omega), field_eq q 20 6 b (by omega), field_eq q 15 5 c (by omega), field_eq q 10 5 d (by omega), field_eq q 6 4 e (by omega), field_eq q 0 6 f (by omega)⟩

theorem fields_8_12_8_4 (a : BitVec 8) (b : BitVec 12) (c : BitVec 8) (d : BitVec 4) (q : Word32) (hq : q = a ++ b ++ c ++ d) :
    q.extractLsb' 24 8 = a ∧
    q.extractLsb' 12 12 = b ∧
    q.extractLsb' 4 8 = c ∧
    q.extractLsb' 0 4 = d := by
  have hn := congrArg BitVec.toNat hq
  rw [append_toNat] at hn
  simp only [append_toNat] at hn
  clear hq
  have := a.isLt
  have := b.isLt
  have := c.isLt
  have := d.isLt
  exact ⟨field_eq q 24 8 a (by omega), field_eq q 12 12 b (by omega), field_eq q 4 8 c (by omega), field_eq q 0 4 d (by omega)⟩

/-! ## RoundTrip -/

/-- The decoder reads the words of a well-formed instruction as that instruction. -/
def RoundTrip.Statement (i : Instr) : Prop :=
  (encode i).isEmpty = false → i.wf = true → ∀ rest, Decode.bytes (bytesOfWords (encode i) ++ rest) = .ok (i, rest)

theorem RoundTrip.add (d : RegNo) (a : RegNo) (b : RegNo) : RoundTrip.Statement (.add d a b) := by
  intro _ h rest
  change Decode.bytes (bytesOfWords [(0x1#6 ++ d ++ a ++ b ++ 0x0#11 : Word32)] ++ rest) = _
  generalize hq : (0x1#6 ++ d ++ a ++ b ++ 0x0#11 : Word32) = q
  obtain ⟨e26_6, e21_5, e16_5, e11_5, e0_11⟩ := fields_6_5_5_5_11 _ _ _ _ _ q hq.symm
  refine bytes_short q _ (by rw [e26_6]; decide) ?_ h rest
  rw [word_01 q e26_6]
  simp only [Decode.opInt, e0_11, e11_5, e16_5, e21_5, reduceIte, BitVec.reduceEq]

theorem RoundTrip.sub (d : RegNo) (a : RegNo) (b : RegNo) : RoundTrip.Statement (.sub d a b) := by
  intro _ h rest
  change Decode.bytes (bytesOfWords [(0x1#6 ++ d ++ a ++ b ++ 0x1#11 : Word32)] ++ rest) = _
  generalize hq : (0x1#6 ++ d ++ a ++ b ++ 0x1#11 : Word32) = q
  obtain ⟨e26_6, e21_5, e16_5, e11_5, e0_11⟩ := fields_6_5_5_5_11 _ _ _ _ _ q hq.symm
  refine bytes_short q _ (by rw [e26_6]; decide) ?_ h rest
  rw [word_01 q e26_6]
  simp only [Decode.opInt, e0_11, e11_5, e16_5, e21_5, reduceIte, BitVec.reduceEq]

theorem RoundTrip.and (d : RegNo) (a : RegNo) (b : RegNo) : RoundTrip.Statement (.and d a b) := by
  intro _ h rest
  change Decode.bytes (bytesOfWords [(0x1#6 ++ d ++ a ++ b ++ 0x2#11 : Word32)] ++ rest) = _
  generalize hq : (0x1#6 ++ d ++ a ++ b ++ 0x2#11 : Word32) = q
  obtain ⟨e26_6, e21_5, e16_5, e11_5, e0_11⟩ := fields_6_5_5_5_11 _ _ _ _ _ q hq.symm
  refine bytes_short q _ (by rw [e26_6]; decide) ?_ h rest
  rw [word_01 q e26_6]
  simp only [Decode.opInt, e0_11, e11_5, e16_5, e21_5, reduceIte, BitVec.reduceEq]

theorem RoundTrip.or (d : RegNo) (a : RegNo) (b : RegNo) : RoundTrip.Statement (.or d a b) := by
  intro _ h rest
  change Decode.bytes (bytesOfWords [(0x1#6 ++ d ++ a ++ b ++ 0x3#11 : Word32)] ++ rest) = _
  generalize hq : (0x1#6 ++ d ++ a ++ b ++ 0x3#11 : Word32) = q
  obtain ⟨e26_6, e21_5, e16_5, e11_5, e0_11⟩ := fields_6_5_5_5_11 _ _ _ _ _ q hq.symm
  refine bytes_short q _ (by rw [e26_6]; decide) ?_ h rest
  rw [word_01 q e26_6]
  simp only [Decode.opInt, e0_11, e11_5, e16_5, e21_5, reduceIte, BitVec.reduceEq]

theorem RoundTrip.xor (d : RegNo) (a : RegNo) (b : RegNo) : RoundTrip.Statement (.xor d a b) := by
  intro _ h rest
  change Decode.bytes (bytesOfWords [(0x1#6 ++ d ++ a ++ b ++ 0x4#11 : Word32)] ++ rest) = _
  generalize hq : (0x1#6 ++ d ++ a ++ b ++ 0x4#11 : Word32) = q
  obtain ⟨e26_6, e21_5, e16_5, e11_5, e0_11⟩ := fields_6_5_5_5_11 _ _ _ _ _ q hq.symm
  refine bytes_short q _ (by rw [e26_6]; decide) ?_ h rest
  rw [word_01 q e26_6]
  simp only [Decode.opInt, e0_11, e11_5, e16_5, e21_5, reduceIte, BitVec.reduceEq]

theorem RoundTrip.sll (d : RegNo) (a : RegNo) (b : RegNo) : RoundTrip.Statement (.sll d a b) := by
  intro _ h rest
  change Decode.bytes (bytesOfWords [(0x1#6 ++ d ++ a ++ b ++ 0x5#11 : Word32)] ++ rest) = _
  generalize hq : (0x1#6 ++ d ++ a ++ b ++ 0x5#11 : Word32) = q
  obtain ⟨e26_6, e21_5, e16_5, e11_5, e0_11⟩ := fields_6_5_5_5_11 _ _ _ _ _ q hq.symm
  refine bytes_short q _ (by rw [e26_6]; decide) ?_ h rest
  rw [word_01 q e26_6]
  simp only [Decode.opInt, e0_11, e11_5, e16_5, e21_5, reduceIte, BitVec.reduceEq]

theorem RoundTrip.srl (d : RegNo) (a : RegNo) (b : RegNo) : RoundTrip.Statement (.srl d a b) := by
  intro _ h rest
  change Decode.bytes (bytesOfWords [(0x1#6 ++ d ++ a ++ b ++ 0x6#11 : Word32)] ++ rest) = _
  generalize hq : (0x1#6 ++ d ++ a ++ b ++ 0x6#11 : Word32) = q
  obtain ⟨e26_6, e21_5, e16_5, e11_5, e0_11⟩ := fields_6_5_5_5_11 _ _ _ _ _ q hq.symm
  refine bytes_short q _ (by rw [e26_6]; decide) ?_ h rest
  rw [word_01 q e26_6]
  simp only [Decode.opInt, e0_11, e11_5, e16_5, e21_5, reduceIte, BitVec.reduceEq]

theorem RoundTrip.sra (d : RegNo) (a : RegNo) (b : RegNo) : RoundTrip.Statement (.sra d a b) := by
  intro _ h rest
  change Decode.bytes (bytesOfWords [(0x1#6 ++ d ++ a ++ b ++ 0x7#11 : Word32)] ++ rest) = _
  generalize hq : (0x1#6 ++ d ++ a ++ b ++ 0x7#11 : Word32) = q
  obtain ⟨e26_6, e21_5, e16_5, e11_5, e0_11⟩ := fields_6_5_5_5_11 _ _ _ _ _ q hq.symm
  refine bytes_short q _ (by rw [e26_6]; decide) ?_ h rest
  rw [word_01 q e26_6]
  simp only [Decode.opInt, e0_11, e11_5, e16_5, e21_5, reduceIte, BitVec.reduceEq]

theorem RoundTrip.slt (d : RegNo) (a : RegNo) (b : RegNo) : RoundTrip.Statement (.slt d a b) := by
  intro _ h rest
  change Decode.bytes (bytesOfWords [(0x1#6 ++ d ++ a ++ b ++ 0x8#11 : Word32)] ++ rest) = _
  generalize hq : (0x1#6 ++ d ++ a ++ b ++ 0x8#11 : Word32) = q
  obtain ⟨e26_6, e21_5, e16_5, e11_5, e0_11⟩ := fields_6_5_5_5_11 _ _ _ _ _ q hq.symm
  refine bytes_short q _ (by rw [e26_6]; decide) ?_ h rest
  rw [word_01 q e26_6]
  simp only [Decode.opInt, e0_11, e11_5, e16_5, e21_5, reduceIte, BitVec.reduceEq]

theorem RoundTrip.sltN (d : RegNo) (a : RegNo) (b : RegNo) : RoundTrip.Statement (.sltN d a b) := by
  intro _ h rest
  change Decode.bytes (bytesOfWords [(0x1#6 ++ d ++ a ++ b ++ 0x9#11 : Word32)] ++ rest) = _
  generalize hq : (0x1#6 ++ d ++ a ++ b ++ 0x9#11 : Word32) = q
  obtain ⟨e26_6, e21_5, e16_5, e11_5, e0_11⟩ := fields_6_5_5_5_11 _ _ _ _ _ q hq.symm
  refine bytes_short q _ (by rw [e26_6]; decide) ?_ h rest
  rw [word_01 q e26_6]
  simp only [Decode.opInt, e0_11, e11_5, e16_5, e21_5, reduceIte, BitVec.reduceEq]

theorem RoundTrip.min (d : RegNo) (a : RegNo) (b : RegNo) : RoundTrip.Statement (.min d a b) := by
  intro _ h rest
  change Decode.bytes (bytesOfWords [(0x1#6 ++ d ++ a ++ b ++ 0xA#11 : Word32)] ++ rest) = _
  generalize hq : (0x1#6 ++ d ++ a ++ b ++ 0xA#11 : Word32) = q
  obtain ⟨e26_6, e21_5, e16_5, e11_5, e0_11⟩ := fields_6_5_5_5_11 _ _ _ _ _ q hq.symm
  refine bytes_short q _ (by rw [e26_6]; decide) ?_ h rest
  rw [word_01 q e26_6]
  simp only [Decode.opInt, e0_11, e11_5, e16_5, e21_5, reduceIte, BitVec.reduceEq]

theorem RoundTrip.max (d : RegNo) (a : RegNo) (b : RegNo) : RoundTrip.Statement (.max d a b) := by
  intro _ h rest
  change Decode.bytes (bytesOfWords [(0x1#6 ++ d ++ a ++ b ++ 0xB#11 : Word32)] ++ rest) = _
  generalize hq : (0x1#6 ++ d ++ a ++ b ++ 0xB#11 : Word32) = q
  obtain ⟨e26_6, e21_5, e16_5, e11_5, e0_11⟩ := fields_6_5_5_5_11 _ _ _ _ _ q hq.symm
  refine bytes_short q _ (by rw [e26_6]; decide) ?_ h rest
  rw [word_01 q e26_6]
  simp only [Decode.opInt, e0_11, e11_5, e16_5, e21_5, reduceIte, BitVec.reduceEq]

theorem RoundTrip.minN (d : RegNo) (a : RegNo) (b : RegNo) : RoundTrip.Statement (.minN d a b) := by
  intro _ h rest
  change Decode.bytes (bytesOfWords [(0x1#6 ++ d ++ a ++ b ++ 0xC#11 : Word32)] ++ rest) = _
  generalize hq : (0x1#6 ++ d ++ a ++ b ++ 0xC#11 : Word32) = q
  obtain ⟨e26_6, e21_5, e16_5, e11_5, e0_11⟩ := fields_6_5_5_5_11 _ _ _ _ _ q hq.symm
  refine bytes_short q _ (by rw [e26_6]; decide) ?_ h rest
  rw [word_01 q e26_6]
  simp only [Decode.opInt, e0_11, e11_5, e16_5, e21_5, reduceIte, BitVec.reduceEq]

theorem RoundTrip.maxN (d : RegNo) (a : RegNo) (b : RegNo) : RoundTrip.Statement (.maxN d a b) := by
  intro _ h rest
  change Decode.bytes (bytesOfWords [(0x1#6 ++ d ++ a ++ b ++ 0xD#11 : Word32)] ++ rest) = _
  generalize hq : (0x1#6 ++ d ++ a ++ b ++ 0xD#11 : Word32) = q
  obtain ⟨e26_6, e21_5, e16_5, e11_5, e0_11⟩ := fields_6_5_5_5_11 _ _ _ _ _ q hq.symm
  refine bytes_short q _ (by rw [e26_6]; decide) ?_ h rest
  rw [word_01 q e26_6]
  simp only [Decode.opInt, e0_11, e11_5, e16_5, e21_5, reduceIte, BitVec.reduceEq]

theorem RoundTrip.ror (d : RegNo) (a : RegNo) (b : RegNo) : RoundTrip.Statement (.ror d a b) := by
  intro _ h rest
  change Decode.bytes (bytesOfWords [(0x1#6 ++ d ++ a ++ b ++ 0xE#11 : Word32)] ++ rest) = _
  generalize hq : (0x1#6 ++ d ++ a ++ b ++ 0xE#11 : Word32) = q
  obtain ⟨e26_6, e21_5, e16_5, e11_5, e0_11⟩ := fields_6_5_5_5_11 _ _ _ _ _ q hq.symm
  refine bytes_short q _ (by rw [e26_6]; decide) ?_ h rest
  rw [word_01 q e26_6]
  simp only [Decode.opInt, e0_11, e11_5, e16_5, e21_5, reduceIte, BitVec.reduceEq]

theorem RoundTrip.clz (d : RegNo) (a : RegNo) : RoundTrip.Statement (.clz d a) := by
  intro _ h rest
  change Decode.bytes (bytesOfWords [(0x1#6 ++ d ++ a ++ 0xF#16 : Word32)] ++ rest) = _
  generalize hq : (0x1#6 ++ d ++ a ++ 0xF#16 : Word32) = q
  obtain ⟨e26_6, e21_5, e16_5, e0_16⟩ := fields_6_5_5_16 _ _ _ _ q hq.symm
  refine bytes_short q _ (by rw [e26_6]; decide) ?_ h rest
  rw [word_01 q e26_6]
  have e0_11 : q.extractLsb' 0 11 = 15#11 := field_part e0_16 0 11 (by decide) (by decide)
  simp only [Decode.opInt, e0_11, e0_16, e16_5, e21_5, reduceIte, BitVec.reduceEq]

theorem RoundTrip.ctz (d : RegNo) (a : RegNo) : RoundTrip.Statement (.ctz d a) := by
  intro _ h rest
  change Decode.bytes (bytesOfWords [(0x1#6 ++ d ++ a ++ 0x10#16 : Word32)] ++ rest) = _
  generalize hq : (0x1#6 ++ d ++ a ++ 0x10#16 : Word32) = q
  obtain ⟨e26_6, e21_5, e16_5, e0_16⟩ := fields_6_5_5_16 _ _ _ _ q hq.symm
  refine bytes_short q _ (by rw [e26_6]; decide) ?_ h rest
  rw [word_01 q e26_6]
  have e0_11 : q.extractLsb' 0 11 = 16#11 := field_part e0_16 0 11 (by decide) (by decide)
  simp only [Decode.opInt, e0_11, e0_16, e16_5, e21_5, reduceIte, BitVec.reduceEq]

theorem RoundTrip.popc (d : RegNo) (a : RegNo) : RoundTrip.Statement (.popc d a) := by
  intro _ h rest
  change Decode.bytes (bytesOfWords [(0x1#6 ++ d ++ a ++ 0x11#16 : Word32)] ++ rest) = _
  generalize hq : (0x1#6 ++ d ++ a ++ 0x11#16 : Word32) = q
  obtain ⟨e26_6, e21_5, e16_5, e0_16⟩ := fields_6_5_5_16 _ _ _ _ q hq.symm
  refine bytes_short q _ (by rw [e26_6]; decide) ?_ h rest
  rw [word_01 q e26_6]
  have e0_11 : q.extractLsb' 0 11 = 17#11 := field_part e0_16 0 11 (by decide) (by decide)
  simp only [Decode.opInt, e0_11, e0_16, e16_5, e21_5, reduceIte, BitVec.reduceEq]

theorem RoundTrip.addW (d : RegNo) (a : RegNo) (b : RegNo) : RoundTrip.Statement (.addW d a b) := by
  intro _ h rest
  change Decode.bytes (bytesOfWords [(0x1#6 ++ d ++ a ++ b ++ 0x12#11 : Word32)] ++ rest) = _
  generalize hq : (0x1#6 ++ d ++ a ++ b ++ 0x12#11 : Word32) = q
  obtain ⟨e26_6, e21_5, e16_5, e11_5, e0_11⟩ := fields_6_5_5_5_11 _ _ _ _ _ q hq.symm
  refine bytes_short q _ (by rw [e26_6]; decide) ?_ h rest
  rw [word_01 q e26_6]
  have n0_16_15 : ¬ q.extractLsb' 0 16 = 15#16 := fun e =>
    absurd ((field_part e0_11 0 11 (by decide) (by decide)).symm.trans (field_part e 0 11 (by decide) (by decide))) (by decide)
  have n0_16_16 : ¬ q.extractLsb' 0 16 = 16#16 := fun e =>
    absurd ((field_part e0_11 0 11 (by decide) (by decide)).symm.trans (field_part e 0 11 (by decide) (by decide))) (by decide)
  have n0_16_17 : ¬ q.extractLsb' 0 16 = 17#16 := fun e =>
    absurd ((field_part e0_11 0 11 (by decide) (by decide)).symm.trans (field_part e 0 11 (by decide) (by decide))) (by decide)
  simp only [Decode.opInt, e0_11, e11_5, e16_5, e21_5, n0_16_15, n0_16_16, n0_16_17, reduceIte, BitVec.reduceEq]

theorem RoundTrip.subW (d : RegNo) (a : RegNo) (b : RegNo) : RoundTrip.Statement (.subW d a b) := by
  intro _ h rest
  change Decode.bytes (bytesOfWords [(0x1#6 ++ d ++ a ++ b ++ 0x13#11 : Word32)] ++ rest) = _
  generalize hq : (0x1#6 ++ d ++ a ++ b ++ 0x13#11 : Word32) = q
  obtain ⟨e26_6, e21_5, e16_5, e11_5, e0_11⟩ := fields_6_5_5_5_11 _ _ _ _ _ q hq.symm
  refine bytes_short q _ (by rw [e26_6]; decide) ?_ h rest
  rw [word_01 q e26_6]
  have n0_16_15 : ¬ q.extractLsb' 0 16 = 15#16 := fun e =>
    absurd ((field_part e0_11 0 11 (by decide) (by decide)).symm.trans (field_part e 0 11 (by decide) (by decide))) (by decide)
  have n0_16_16 : ¬ q.extractLsb' 0 16 = 16#16 := fun e =>
    absurd ((field_part e0_11 0 11 (by decide) (by decide)).symm.trans (field_part e 0 11 (by decide) (by decide))) (by decide)
  have n0_16_17 : ¬ q.extractLsb' 0 16 = 17#16 := fun e =>
    absurd ((field_part e0_11 0 11 (by decide) (by decide)).symm.trans (field_part e 0 11 (by decide) (by decide))) (by decide)
  simp only [Decode.opInt, e0_11, e11_5, e16_5, e21_5, n0_16_15, n0_16_16, n0_16_17, reduceIte, BitVec.reduceEq]

theorem RoundTrip.mul (d : RegNo) (a : RegNo) (b : RegNo) : RoundTrip.Statement (.mul d a b) := by
  intro _ h rest
  change Decode.bytes (bytesOfWords [(0x2#6 ++ d ++ a ++ b ++ 0x0#11 : Word32)] ++ rest) = _
  generalize hq : (0x2#6 ++ d ++ a ++ b ++ 0x0#11 : Word32) = q
  obtain ⟨e26_6, e21_5, e16_5, e11_5, e0_11⟩ := fields_6_5_5_5_11 _ _ _ _ _ q hq.symm
  refine bytes_short q _ (by rw [e26_6]; decide) ?_ h rest
  rw [word_02 q e26_6]
  simp only [Decode.opMulDiv, e0_11, e11_5, e16_5, e21_5, reduceIte, BitVec.reduceEq]

theorem RoundTrip.mulh (d : RegNo) (a : RegNo) (b : RegNo) : RoundTrip.Statement (.mulh d a b) := by
  intro _ h rest
  change Decode.bytes (bytesOfWords [(0x2#6 ++ d ++ a ++ b ++ 0x1#11 : Word32)] ++ rest) = _
  generalize hq : (0x2#6 ++ d ++ a ++ b ++ 0x1#11 : Word32) = q
  obtain ⟨e26_6, e21_5, e16_5, e11_5, e0_11⟩ := fields_6_5_5_5_11 _ _ _ _ _ q hq.symm
  refine bytes_short q _ (by rw [e26_6]; decide) ?_ h rest
  rw [word_02 q e26_6]
  simp only [Decode.opMulDiv, e0_11, e11_5, e16_5, e21_5, reduceIte, BitVec.reduceEq]

theorem RoundTrip.mulhN (d : RegNo) (a : RegNo) (b : RegNo) : RoundTrip.Statement (.mulhN d a b) := by
  intro _ h rest
  change Decode.bytes (bytesOfWords [(0x2#6 ++ d ++ a ++ b ++ 0x2#11 : Word32)] ++ rest) = _
  generalize hq : (0x2#6 ++ d ++ a ++ b ++ 0x2#11 : Word32) = q
  obtain ⟨e26_6, e21_5, e16_5, e11_5, e0_11⟩ := fields_6_5_5_5_11 _ _ _ _ _ q hq.symm
  refine bytes_short q _ (by rw [e26_6]; decide) ?_ h rest
  rw [word_02 q e26_6]
  simp only [Decode.opMulDiv, e0_11, e11_5, e16_5, e21_5, reduceIte, BitVec.reduceEq]

theorem RoundTrip.div (d : RegNo) (a : RegNo) (b : RegNo) : RoundTrip.Statement (.div d a b) := by
  intro _ h rest
  change Decode.bytes (bytesOfWords [(0x2#6 ++ d ++ a ++ b ++ 0x3#11 : Word32)] ++ rest) = _
  generalize hq : (0x2#6 ++ d ++ a ++ b ++ 0x3#11 : Word32) = q
  obtain ⟨e26_6, e21_5, e16_5, e11_5, e0_11⟩ := fields_6_5_5_5_11 _ _ _ _ _ q hq.symm
  refine bytes_short q _ (by rw [e26_6]; decide) ?_ h rest
  rw [word_02 q e26_6]
  simp only [Decode.opMulDiv, e0_11, e11_5, e16_5, e21_5, reduceIte, BitVec.reduceEq]

theorem RoundTrip.divN (d : RegNo) (a : RegNo) (b : RegNo) : RoundTrip.Statement (.divN d a b) := by
  intro _ h rest
  change Decode.bytes (bytesOfWords [(0x2#6 ++ d ++ a ++ b ++ 0x4#11 : Word32)] ++ rest) = _
  generalize hq : (0x2#6 ++ d ++ a ++ b ++ 0x4#11 : Word32) = q
  obtain ⟨e26_6, e21_5, e16_5, e11_5, e0_11⟩ := fields_6_5_5_5_11 _ _ _ _ _ q hq.symm
  refine bytes_short q _ (by rw [e26_6]; decide) ?_ h rest
  rw [word_02 q e26_6]
  simp only [Decode.opMulDiv, e0_11, e11_5, e16_5, e21_5, reduceIte, BitVec.reduceEq]

theorem RoundTrip.rem (d : RegNo) (a : RegNo) (b : RegNo) : RoundTrip.Statement (.rem d a b) := by
  intro _ h rest
  change Decode.bytes (bytesOfWords [(0x2#6 ++ d ++ a ++ b ++ 0x5#11 : Word32)] ++ rest) = _
  generalize hq : (0x2#6 ++ d ++ a ++ b ++ 0x5#11 : Word32) = q
  obtain ⟨e26_6, e21_5, e16_5, e11_5, e0_11⟩ := fields_6_5_5_5_11 _ _ _ _ _ q hq.symm
  refine bytes_short q _ (by rw [e26_6]; decide) ?_ h rest
  rw [word_02 q e26_6]
  simp only [Decode.opMulDiv, e0_11, e11_5, e16_5, e21_5, reduceIte, BitVec.reduceEq]

theorem RoundTrip.remN (d : RegNo) (a : RegNo) (b : RegNo) : RoundTrip.Statement (.remN d a b) := by
  intro _ h rest
  change Decode.bytes (bytesOfWords [(0x2#6 ++ d ++ a ++ b ++ 0x6#11 : Word32)] ++ rest) = _
  generalize hq : (0x2#6 ++ d ++ a ++ b ++ 0x6#11 : Word32) = q
  obtain ⟨e26_6, e21_5, e16_5, e11_5, e0_11⟩ := fields_6_5_5_5_11 _ _ _ _ _ q hq.symm
  refine bytes_short q _ (by rw [e26_6]; decide) ?_ h rest
  rw [word_02 q e26_6]
  simp only [Decode.opMulDiv, e0_11, e11_5, e16_5, e21_5, reduceIte, BitVec.reduceEq]

theorem RoundTrip.addi (d : RegNo) (a : RegNo) (i : BitVec 16) : RoundTrip.Statement (.addi d a i) := by
  intro _ h rest
  change Decode.bytes (bytesOfWords [(0x3#6 ++ d ++ a ++ i : Word32)] ++ rest) = _
  generalize hq : (0x3#6 ++ d ++ a ++ i : Word32) = q
  obtain ⟨e26_6, e21_5, e16_5, e0_16⟩ := fields_6_5_5_16 _ _ _ _ q hq.symm
  refine bytes_short q _ (by rw [e26_6]; decide) ?_ h rest
  rw [word_03 q e26_6]
  rw [e21_5, e16_5, e0_16]

theorem RoundTrip.andi (d : RegNo) (a : RegNo) (i : BitVec 16) : RoundTrip.Statement (.andi d a i) := by
  intro _ h rest
  change Decode.bytes (bytesOfWords [(0x4#6 ++ d ++ a ++ i : Word32)] ++ rest) = _
  generalize hq : (0x4#6 ++ d ++ a ++ i : Word32) = q
  obtain ⟨e26_6, e21_5, e16_5, e0_16⟩ := fields_6_5_5_16 _ _ _ _ q hq.symm
  refine bytes_short q _ (by rw [e26_6]; decide) ?_ h rest
  rw [word_04 q e26_6]
  rw [e21_5, e16_5, e0_16]

theorem RoundTrip.ori (d : RegNo) (a : RegNo) (i : BitVec 16) : RoundTrip.Statement (.ori d a i) := by
  intro _ h rest
  change Decode.bytes (bytesOfWords [(0x5#6 ++ d ++ a ++ i : Word32)] ++ rest) = _
  generalize hq : (0x5#6 ++ d ++ a ++ i : Word32) = q
  obtain ⟨e26_6, e21_5, e16_5, e0_16⟩ := fields_6_5_5_16 _ _ _ _ q hq.symm
  refine bytes_short q _ (by rw [e26_6]; decide) ?_ h rest
  rw [word_05 q e26_6]
  rw [e21_5, e16_5, e0_16]

theorem RoundTrip.xori (d : RegNo) (a : RegNo) (i : BitVec 16) : RoundTrip.Statement (.xori d a i) := by
  intro _ h rest
  change Decode.bytes (bytesOfWords [(0x6#6 ++ d ++ a ++ i : Word32)] ++ rest) = _
  generalize hq : (0x6#6 ++ d ++ a ++ i : Word32) = q
  obtain ⟨e26_6, e21_5, e16_5, e0_16⟩ := fields_6_5_5_16 _ _ _ _ q hq.symm
  refine bytes_short q _ (by rw [e26_6]; decide) ?_ h rest
  rw [word_06 q e26_6]
  rw [e21_5, e16_5, e0_16]

theorem RoundTrip.slti (d : RegNo) (a : RegNo) (i : BitVec 16) : RoundTrip.Statement (.slti d a i) := by
  intro _ h rest
  change Decode.bytes (bytesOfWords [(0x7#6 ++ d ++ a ++ i : Word32)] ++ rest) = _
  generalize hq : (0x7#6 ++ d ++ a ++ i : Word32) = q
  obtain ⟨e26_6, e21_5, e16_5, e0_16⟩ := fields_6_5_5_16 _ _ _ _ q hq.symm
  refine bytes_short q _ (by rw [e26_6]; decide) ?_ h rest
  rw [word_07 q e26_6]
  rw [e21_5, e16_5, e0_16]

theorem RoundTrip.sltiN (d : RegNo) (a : RegNo) (i : BitVec 16) : RoundTrip.Statement (.sltiN d a i) := by
  intro _ h rest
  change Decode.bytes (bytesOfWords [(0x8#6 ++ d ++ a ++ i : Word32)] ++ rest) = _
  generalize hq : (0x8#6 ++ d ++ a ++ i : Word32) = q
  obtain ⟨e26_6, e21_5, e16_5, e0_16⟩ := fields_6_5_5_16 _ _ _ _ q hq.symm
  refine bytes_short q _ (by rw [e26_6]; decide) ?_ h rest
  rw [word_08 q e26_6]
  rw [e21_5, e16_5, e0_16]

theorem RoundTrip.slli (d : RegNo) (a : RegNo) (n : BitVec 6) : RoundTrip.Statement (.slli d a n) := by
  intro _ h rest
  change Decode.bytes (bytesOfWords [(0x9#6 ++ d ++ a ++ 0x0#10 ++ n : Word32)] ++ rest) = _
  generalize hq : (0x9#6 ++ d ++ a ++ 0x0#10 ++ n : Word32) = q
  obtain ⟨e26_6, e21_5, e16_5, e6_10, e0_6⟩ := fields_6_5_5_10_6 _ _ _ _ _ q hq.symm
  refine bytes_short q _ (by rw [e26_6]; decide) ?_ h rest
  rw [word_09 q e26_6]
  simp only [Decode.opShift, e0_6, e6_10, e16_5, e21_5, reduceIte, BitVec.reduceEq]

theorem RoundTrip.srli (d : RegNo) (a : RegNo) (n : BitVec 6) : RoundTrip.Statement (.srli d a n) := by
  intro _ h rest
  change Decode.bytes (bytesOfWords [(0x9#6 ++ d ++ a ++ 0x1#10 ++ n : Word32)] ++ rest) = _
  generalize hq : (0x9#6 ++ d ++ a ++ 0x1#10 ++ n : Word32) = q
  obtain ⟨e26_6, e21_5, e16_5, e6_10, e0_6⟩ := fields_6_5_5_10_6 _ _ _ _ _ q hq.symm
  refine bytes_short q _ (by rw [e26_6]; decide) ?_ h rest
  rw [word_09 q e26_6]
  simp only [Decode.opShift, e0_6, e6_10, e16_5, e21_5, reduceIte, BitVec.reduceEq]

theorem RoundTrip.srai (d : RegNo) (a : RegNo) (n : BitVec 6) : RoundTrip.Statement (.srai d a n) := by
  intro _ h rest
  change Decode.bytes (bytesOfWords [(0x9#6 ++ d ++ a ++ 0x2#10 ++ n : Word32)] ++ rest) = _
  generalize hq : (0x9#6 ++ d ++ a ++ 0x2#10 ++ n : Word32) = q
  obtain ⟨e26_6, e21_5, e16_5, e6_10, e0_6⟩ := fields_6_5_5_10_6 _ _ _ _ _ q hq.symm
  refine bytes_short q _ (by rw [e26_6]; decide) ?_ h rest
  rw [word_09 q e26_6]
  simp only [Decode.opShift, e0_6, e6_10, e16_5, e21_5, reduceIte, BitVec.reduceEq]

theorem RoundTrip.rori (d : RegNo) (a : RegNo) (n : BitVec 6) : RoundTrip.Statement (.rori d a n) := by
  intro _ h rest
  change Decode.bytes (bytesOfWords [(0x9#6 ++ d ++ a ++ 0x3#10 ++ n : Word32)] ++ rest) = _
  generalize hq : (0x9#6 ++ d ++ a ++ 0x3#10 ++ n : Word32) = q
  obtain ⟨e26_6, e21_5, e16_5, e6_10, e0_6⟩ := fields_6_5_5_10_6 _ _ _ _ _ q hq.symm
  refine bytes_short q _ (by rw [e26_6]; decide) ?_ h rest
  rw [word_09 q e26_6]
  simp only [Decode.opShift, e0_6, e6_10, e16_5, e21_5, reduceIte, BitVec.reduceEq]

theorem RoundTrip.lui (d : RegNo) (i : BitVec 16) : RoundTrip.Statement (.lui d i) := by
  intro _ h rest
  change Decode.bytes (bytesOfWords [(0xA#6 ++ d ++ 0x0#5 ++ i : Word32)] ++ rest) = _
  generalize hq : (0xA#6 ++ d ++ 0x0#5 ++ i : Word32) = q
  obtain ⟨e26_6, e21_5, e16_5, e0_16⟩ := fields_6_5_5_16 _ _ _ _ q hq.symm
  refine bytes_short q _ (by rw [e26_6]; decide) ?_ h rest
  rw [word_0A q e26_6]
  simp only [e16_5, e21_5, e0_16, reduceIte]

theorem RoundTrip.lpc (d : RegNo) (i : BitVec 16) : RoundTrip.Statement (.lpc d i) := by
  intro _ h rest
  change Decode.bytes (bytesOfWords [(0xB#6 ++ d ++ 0x0#5 ++ i : Word32)] ++ rest) = _
  generalize hq : (0xB#6 ++ d ++ 0x0#5 ++ i : Word32) = q
  obtain ⟨e26_6, e21_5, e16_5, e0_16⟩ := fields_6_5_5_16 _ _ _ _ q hq.symm
  refine bytes_short q _ (by rw [e26_6]; decide) ?_ h rest
  rw [word_0B q e26_6]
  simp only [e16_5, e21_5, e0_16, reduceIte]

theorem RoundTrip.faddF64 (d : RegNo) (a : RegNo) (b : RegNo) (m : BitVec 2) : RoundTrip.Statement (.faddF64 d a b m) := by
  intro _ h rest
  change Decode.bytes (bytesOfWords [(0xC#6 ++ d ++ a ++ b ++ m ++ 0x0#9 : Word32)] ++ rest) = _
  generalize hq : (0xC#6 ++ d ++ a ++ b ++ m ++ 0x0#9 : Word32) = q
  obtain ⟨e26_6, e21_5, e16_5, e11_5, e9_2, e0_9⟩ := fields_6_5_5_5_2_9 _ _ _ _ _ _ q hq.symm
  refine bytes_short q _ (by rw [e26_6]; decide) ?_ h rest
  rw [word_0C q e26_6]
  simp only [Decode.opFp64, e0_9, e9_2, e11_5, e16_5, e21_5, reduceIte, BitVec.reduceEq]

theorem RoundTrip.fsubF64 (d : RegNo) (a : RegNo) (b : RegNo) (m : BitVec 2) : RoundTrip.Statement (.fsubF64 d a b m) := by
  intro _ h rest
  change Decode.bytes (bytesOfWords [(0xC#6 ++ d ++ a ++ b ++ m ++ 0x1#9 : Word32)] ++ rest) = _
  generalize hq : (0xC#6 ++ d ++ a ++ b ++ m ++ 0x1#9 : Word32) = q
  obtain ⟨e26_6, e21_5, e16_5, e11_5, e9_2, e0_9⟩ := fields_6_5_5_5_2_9 _ _ _ _ _ _ q hq.symm
  refine bytes_short q _ (by rw [e26_6]; decide) ?_ h rest
  rw [word_0C q e26_6]
  simp only [Decode.opFp64, e0_9, e9_2, e11_5, e16_5, e21_5, reduceIte, BitVec.reduceEq]

theorem RoundTrip.fmulF64 (d : RegNo) (a : RegNo) (b : RegNo) (m : BitVec 2) : RoundTrip.Statement (.fmulF64 d a b m) := by
  intro _ h rest
  change Decode.bytes (bytesOfWords [(0xC#6 ++ d ++ a ++ b ++ m ++ 0x2#9 : Word32)] ++ rest) = _
  generalize hq : (0xC#6 ++ d ++ a ++ b ++ m ++ 0x2#9 : Word32) = q
  obtain ⟨e26_6, e21_5, e16_5, e11_5, e9_2, e0_9⟩ := fields_6_5_5_5_2_9 _ _ _ _ _ _ q hq.symm
  refine bytes_short q _ (by rw [e26_6]; decide) ?_ h rest
  rw [word_0C q e26_6]
  simp only [Decode.opFp64, e0_9, e9_2, e11_5, e16_5, e21_5, reduceIte, BitVec.reduceEq]

theorem RoundTrip.fdivF64 (d : RegNo) (a : RegNo) (b : RegNo) (m : BitVec 2) : RoundTrip.Statement (.fdivF64 d a b m) := by
  intro _ h rest
  change Decode.bytes (bytesOfWords [(0xC#6 ++ d ++ a ++ b ++ m ++ 0x3#9 : Word32)] ++ rest) = _
  generalize hq : (0xC#6 ++ d ++ a ++ b ++ m ++ 0x3#9 : Word32) = q
  obtain ⟨e26_6, e21_5, e16_5, e11_5, e9_2, e0_9⟩ := fields_6_5_5_5_2_9 _ _ _ _ _ _ q hq.symm
  refine bytes_short q _ (by rw [e26_6]; decide) ?_ h rest
  rw [word_0C q e26_6]
  simp only [Decode.opFp64, e0_9, e9_2, e11_5, e16_5, e21_5, reduceIte, BitVec.reduceEq]

theorem RoundTrip.fsqrtF64 (d : RegNo) (a : RegNo) (m : BitVec 2) : RoundTrip.Statement (.fsqrtF64 d a m) := by
  intro _ h rest
  change Decode.bytes (bytesOfWords [(0xC#6 ++ d ++ a ++ 0x0#5 ++ m ++ 0x4#9 : Word32)] ++ rest) = _
  generalize hq : (0xC#6 ++ d ++ a ++ 0x0#5 ++ m ++ 0x4#9 : Word32) = q
  obtain ⟨e26_6, e21_5, e16_5, e11_5, e9_2, e0_9⟩ := fields_6_5_5_5_2_9 _ _ _ _ _ _ q hq.symm
  refine bytes_short q _ (by rw [e26_6]; decide) ?_ h rest
  rw [word_0C q e26_6]
  simp only [Decode.opFp64, e0_9, e9_2, e11_5, e16_5, e21_5, reduceIte, BitVec.reduceEq, and_true, and_false, false_and]

theorem RoundTrip.fminF64 (d : RegNo) (a : RegNo) (b : RegNo) : RoundTrip.Statement (.fminF64 d a b) := by
  intro _ h rest
  change Decode.bytes (bytesOfWords [(0xC#6 ++ d ++ a ++ b ++ 0x5#11 : Word32)] ++ rest) = _
  generalize hq : (0xC#6 ++ d ++ a ++ b ++ 0x5#11 : Word32) = q
  obtain ⟨e26_6, e21_5, e16_5, e11_5, e0_11⟩ := fields_6_5_5_5_11 _ _ _ _ _ q hq.symm
  refine bytes_short q _ (by rw [e26_6]; decide) ?_ h rest
  rw [word_0C q e26_6]
  have e0_9 : q.extractLsb' 0 9 = 5#9 := field_part e0_11 0 9 (by decide) (by decide)
  simp only [Decode.opFp64, e0_9, e0_11, e11_5, e16_5, e21_5, reduceIte, BitVec.reduceEq, and_true, and_false, false_and]

theorem RoundTrip.fmaxF64 (d : RegNo) (a : RegNo) (b : RegNo) : RoundTrip.Statement (.fmaxF64 d a b) := by
  intro _ h rest
  change Decode.bytes (bytesOfWords [(0xC#6 ++ d ++ a ++ b ++ 0x6#11 : Word32)] ++ rest) = _
  generalize hq : (0xC#6 ++ d ++ a ++ b ++ 0x6#11 : Word32) = q
  obtain ⟨e26_6, e21_5, e16_5, e11_5, e0_11⟩ := fields_6_5_5_5_11 _ _ _ _ _ q hq.symm
  refine bytes_short q _ (by rw [e26_6]; decide) ?_ h rest
  rw [word_0C q e26_6]
  have e0_9 : q.extractLsb' 0 9 = 6#9 := field_part e0_11 0 9 (by decide) (by decide)
  simp only [Decode.opFp64, e0_9, e0_11, e11_5, e16_5, e21_5, reduceIte, BitVec.reduceEq, and_true, and_false, false_and]

theorem RoundTrip.fmaF64 (d : RegNo) (a : RegNo) (b : RegNo) (m : BitVec 2) : RoundTrip.Statement (.fmaF64 d a b m) := by
  intro _ h rest
  change Decode.bytes (bytesOfWords [(0xC#6 ++ d ++ a ++ b ++ m ++ 0x7#9 : Word32)] ++ rest) = _
  generalize hq : (0xC#6 ++ d ++ a ++ b ++ m ++ 0x7#9 : Word32) = q
  obtain ⟨e26_6, e21_5, e16_5, e11_5, e9_2, e0_9⟩ := fields_6_5_5_5_2_9 _ _ _ _ _ _ q hq.symm
  refine bytes_short q _ (by rw [e26_6]; decide) ?_ h rest
  rw [word_0C q e26_6]
  have n0_11_5 : ¬ q.extractLsb' 0 11 = 5#11 := fun e =>
    absurd ((field_part e0_9 0 9 (by decide) (by decide)).symm.trans (field_part e 0 9 (by decide) (by decide))) (by decide)
  have n0_11_6 : ¬ q.extractLsb' 0 11 = 6#11 := fun e =>
    absurd ((field_part e0_9 0 9 (by decide) (by decide)).symm.trans (field_part e 0 9 (by decide) (by decide))) (by decide)
  simp only [Decode.opFp64, e0_9, e9_2, e11_5, e16_5, e21_5, n0_11_5, n0_11_6, reduceIte, BitVec.reduceEq, and_true, and_false, false_and]

theorem RoundTrip.fabsF64 (d : RegNo) (a : RegNo) : RoundTrip.Statement (.fabsF64 d a) := by
  intro _ h rest
  change Decode.bytes (bytesOfWords [(0xC#6 ++ d ++ a ++ 0x8#16 : Word32)] ++ rest) = _
  generalize hq : (0xC#6 ++ d ++ a ++ 0x8#16 : Word32) = q
  obtain ⟨e26_6, e21_5, e16_5, e0_16⟩ := fields_6_5_5_16 _ _ _ _ q hq.symm
  refine bytes_short q _ (by rw [e26_6]; decide) ?_ h rest
  rw [word_0C q e26_6]
  have e0_9 : q.extractLsb' 0 9 = 8#9 := field_part e0_16 0 9 (by decide) (by decide)
  have e11_5 : q.extractLsb' 11 5 = 0#5 := field_part e0_16 11 5 (by decide) (by decide)
  have e0_11 : q.extractLsb' 0 11 = 8#11 := field_part e0_16 0 11 (by decide) (by decide)
  simp only [Decode.opFp64, e0_9, e0_11, e0_16, e11_5, e16_5, e21_5, reduceIte, BitVec.reduceEq, and_true, and_false, false_and]

theorem RoundTrip.fnegF64 (d : RegNo) (a : RegNo) : RoundTrip.Statement (.fnegF64 d a) := by
  intro _ h rest
  change Decode.bytes (bytesOfWords [(0xC#6 ++ d ++ a ++ 0x9#16 : Word32)] ++ rest) = _
  generalize hq : (0xC#6 ++ d ++ a ++ 0x9#16 : Word32) = q
  obtain ⟨e26_6, e21_5, e16_5, e0_16⟩ := fields_6_5_5_16 _ _ _ _ q hq.symm
  refine bytes_short q _ (by rw [e26_6]; decide) ?_ h rest
  rw [word_0C q e26_6]
  have e0_9 : q.extractLsb' 0 9 = 9#9 := field_part e0_16 0 9 (by decide) (by decide)
  have e11_5 : q.extractLsb' 11 5 = 0#5 := field_part e0_16 11 5 (by decide) (by decide)
  have e0_11 : q.extractLsb' 0 11 = 9#11 := field_part e0_16 0 11 (by decide) (by decide)
  simp only [Decode.opFp64, e0_9, e0_11, e0_16, e11_5, e16_5, e21_5, reduceIte, BitVec.reduceEq, and_true, and_false, false_and]

theorem RoundTrip.feqF64 (d : RegNo) (a : RegNo) (b : RegNo) : RoundTrip.Statement (.feqF64 d a b) := by
  intro _ h rest
  change Decode.bytes (bytesOfWords [(0xC#6 ++ d ++ a ++ b ++ 0xA#11 : Word32)] ++ rest) = _
  generalize hq : (0xC#6 ++ d ++ a ++ b ++ 0xA#11 : Word32) = q
  obtain ⟨e26_6, e21_5, e16_5, e11_5, e0_11⟩ := fields_6_5_5_5_11 _ _ _ _ _ q hq.symm
  refine bytes_short q _ (by rw [e26_6]; decide) ?_ h rest
  rw [word_0C q e26_6]
  have e0_9 : q.extractLsb' 0 9 = 10#9 := field_part e0_11 0 9 (by decide) (by decide)
  have n0_16_8 : ¬ q.extractLsb' 0 16 = 8#16 := fun e =>
    absurd ((field_part e0_11 0 11 (by decide) (by decide)).symm.trans (field_part e 0 11 (by decide) (by decide))) (by decide)
  have n0_16_9 : ¬ q.extractLsb' 0 16 = 9#16 := fun e =>
    absurd ((field_part e0_11 0 11 (by decide) (by decide)).symm.trans (field_part e 0 11 (by decide) (by decide))) (by decide)
  simp only [Decode.opFp64, e0_9, e0_11, e11_5, e16_5, e21_5, n0_16_8, n0_16_9, reduceIte, BitVec.reduceEq, and_true, and_false, false_and]

theorem RoundTrip.fltF64 (d : RegNo) (a : RegNo) (b : RegNo) : RoundTrip.Statement (.fltF64 d a b) := by
  intro _ h rest
  change Decode.bytes (bytesOfWords [(0xC#6 ++ d ++ a ++ b ++ 0xB#11 : Word32)] ++ rest) = _
  generalize hq : (0xC#6 ++ d ++ a ++ b ++ 0xB#11 : Word32) = q
  obtain ⟨e26_6, e21_5, e16_5, e11_5, e0_11⟩ := fields_6_5_5_5_11 _ _ _ _ _ q hq.symm
  refine bytes_short q _ (by rw [e26_6]; decide) ?_ h rest
  rw [word_0C q e26_6]
  have e0_9 : q.extractLsb' 0 9 = 11#9 := field_part e0_11 0 9 (by decide) (by decide)
  have n0_16_8 : ¬ q.extractLsb' 0 16 = 8#16 := fun e =>
    absurd ((field_part e0_11 0 11 (by decide) (by decide)).symm.trans (field_part e 0 11 (by decide) (by decide))) (by decide)
  have n0_16_9 : ¬ q.extractLsb' 0 16 = 9#16 := fun e =>
    absurd ((field_part e0_11 0 11 (by decide) (by decide)).symm.trans (field_part e 0 11 (by decide) (by decide))) (by decide)
  simp only [Decode.opFp64, e0_9, e0_11, e11_5, e16_5, e21_5, n0_16_8, n0_16_9, reduceIte, BitVec.reduceEq, and_true, and_false, false_and]

theorem RoundTrip.fleF64 (d : RegNo) (a : RegNo) (b : RegNo) : RoundTrip.Statement (.fleF64 d a b) := by
  intro _ h rest
  change Decode.bytes (bytesOfWords [(0xC#6 ++ d ++ a ++ b ++ 0xC#11 : Word32)] ++ rest) = _
  generalize hq : (0xC#6 ++ d ++ a ++ b ++ 0xC#11 : Word32) = q
  obtain ⟨e26_6, e21_5, e16_5, e11_5, e0_11⟩ := fields_6_5_5_5_11 _ _ _ _ _ q hq.symm
  refine bytes_short q _ (by rw [e26_6]; decide) ?_ h rest
  rw [word_0C q e26_6]
  have e0_9 : q.extractLsb' 0 9 = 12#9 := field_part e0_11 0 9 (by decide) (by decide)
  have n0_16_8 : ¬ q.extractLsb' 0 16 = 8#16 := fun e =>
    absurd ((field_part e0_11 0 11 (by decide) (by decide)).symm.trans (field_part e 0 11 (by decide) (by decide))) (by decide)
  have n0_16_9 : ¬ q.extractLsb' 0 16 = 9#16 := fun e =>
    absurd ((field_part e0_11 0 11 (by decide) (by decide)).symm.trans (field_part e 0 11 (by decide) (by decide))) (by decide)
  simp only [Decode.opFp64, e0_9, e0_11, e11_5, e16_5, e21_5, n0_16_8, n0_16_9, reduceIte, BitVec.reduceEq, and_true, and_false, false_and]

theorem RoundTrip.fclassF64 (d : RegNo) (a : RegNo) : RoundTrip.Statement (.fclassF64 d a) := by
  intro _ h rest
  change Decode.bytes (bytesOfWords [(0xC#6 ++ d ++ a ++ 0xD#16 : Word32)] ++ rest) = _
  generalize hq : (0xC#6 ++ d ++ a ++ 0xD#16 : Word32) = q
  obtain ⟨e26_6, e21_5, e16_5, e0_16⟩ := fields_6_5_5_16 _ _ _ _ q hq.symm
  refine bytes_short q _ (by rw [e26_6]; decide) ?_ h rest
  rw [word_0C q e26_6]
  have e0_9 : q.extractLsb' 0 9 = 13#9 := field_part e0_16 0 9 (by decide) (by decide)
  have e11_5 : q.extractLsb' 11 5 = 0#5 := field_part e0_16 11 5 (by decide) (by decide)
  have e0_11 : q.extractLsb' 0 11 = 13#11 := field_part e0_16 0 11 (by decide) (by decide)
  simp only [Decode.opFp64, e0_9, e0_11, e0_16, e11_5, e16_5, e21_5, reduceIte, BitVec.reduceEq, and_true, and_false, false_and]

theorem RoundTrip.faddF32 (d : RegNo) (a : RegNo) (b : RegNo) (m : BitVec 2) : RoundTrip.Statement (.faddF32 d a b m) := by
  intro _ h rest
  change Decode.bytes (bytesOfWords [(0xD#6 ++ d ++ a ++ b ++ m ++ 0x0#9 : Word32)] ++ rest) = _
  generalize hq : (0xD#6 ++ d ++ a ++ b ++ m ++ 0x0#9 : Word32) = q
  obtain ⟨e26_6, e21_5, e16_5, e11_5, e9_2, e0_9⟩ := fields_6_5_5_5_2_9 _ _ _ _ _ _ q hq.symm
  refine bytes_short q _ (by rw [e26_6]; decide) ?_ h rest
  rw [word_0D q e26_6]
  simp only [Decode.opFp32, e0_9, e9_2, e11_5, e16_5, e21_5, reduceIte, BitVec.reduceEq]

theorem RoundTrip.fsubF32 (d : RegNo) (a : RegNo) (b : RegNo) (m : BitVec 2) : RoundTrip.Statement (.fsubF32 d a b m) := by
  intro _ h rest
  change Decode.bytes (bytesOfWords [(0xD#6 ++ d ++ a ++ b ++ m ++ 0x1#9 : Word32)] ++ rest) = _
  generalize hq : (0xD#6 ++ d ++ a ++ b ++ m ++ 0x1#9 : Word32) = q
  obtain ⟨e26_6, e21_5, e16_5, e11_5, e9_2, e0_9⟩ := fields_6_5_5_5_2_9 _ _ _ _ _ _ q hq.symm
  refine bytes_short q _ (by rw [e26_6]; decide) ?_ h rest
  rw [word_0D q e26_6]
  simp only [Decode.opFp32, e0_9, e9_2, e11_5, e16_5, e21_5, reduceIte, BitVec.reduceEq]

theorem RoundTrip.fmulF32 (d : RegNo) (a : RegNo) (b : RegNo) (m : BitVec 2) : RoundTrip.Statement (.fmulF32 d a b m) := by
  intro _ h rest
  change Decode.bytes (bytesOfWords [(0xD#6 ++ d ++ a ++ b ++ m ++ 0x2#9 : Word32)] ++ rest) = _
  generalize hq : (0xD#6 ++ d ++ a ++ b ++ m ++ 0x2#9 : Word32) = q
  obtain ⟨e26_6, e21_5, e16_5, e11_5, e9_2, e0_9⟩ := fields_6_5_5_5_2_9 _ _ _ _ _ _ q hq.symm
  refine bytes_short q _ (by rw [e26_6]; decide) ?_ h rest
  rw [word_0D q e26_6]
  simp only [Decode.opFp32, e0_9, e9_2, e11_5, e16_5, e21_5, reduceIte, BitVec.reduceEq]

theorem RoundTrip.fdivF32 (d : RegNo) (a : RegNo) (b : RegNo) (m : BitVec 2) : RoundTrip.Statement (.fdivF32 d a b m) := by
  intro _ h rest
  change Decode.bytes (bytesOfWords [(0xD#6 ++ d ++ a ++ b ++ m ++ 0x3#9 : Word32)] ++ rest) = _
  generalize hq : (0xD#6 ++ d ++ a ++ b ++ m ++ 0x3#9 : Word32) = q
  obtain ⟨e26_6, e21_5, e16_5, e11_5, e9_2, e0_9⟩ := fields_6_5_5_5_2_9 _ _ _ _ _ _ q hq.symm
  refine bytes_short q _ (by rw [e26_6]; decide) ?_ h rest
  rw [word_0D q e26_6]
  simp only [Decode.opFp32, e0_9, e9_2, e11_5, e16_5, e21_5, reduceIte, BitVec.reduceEq]

theorem RoundTrip.fsqrtF32 (d : RegNo) (a : RegNo) (m : BitVec 2) : RoundTrip.Statement (.fsqrtF32 d a m) := by
  intro _ h rest
  change Decode.bytes (bytesOfWords [(0xD#6 ++ d ++ a ++ 0x0#5 ++ m ++ 0x4#9 : Word32)] ++ rest) = _
  generalize hq : (0xD#6 ++ d ++ a ++ 0x0#5 ++ m ++ 0x4#9 : Word32) = q
  obtain ⟨e26_6, e21_5, e16_5, e11_5, e9_2, e0_9⟩ := fields_6_5_5_5_2_9 _ _ _ _ _ _ q hq.symm
  refine bytes_short q _ (by rw [e26_6]; decide) ?_ h rest
  rw [word_0D q e26_6]
  simp only [Decode.opFp32, e0_9, e9_2, e11_5, e16_5, e21_5, reduceIte, BitVec.reduceEq, and_true, and_false, false_and]

theorem RoundTrip.fminF32 (d : RegNo) (a : RegNo) (b : RegNo) : RoundTrip.Statement (.fminF32 d a b) := by
  intro _ h rest
  change Decode.bytes (bytesOfWords [(0xD#6 ++ d ++ a ++ b ++ 0x5#11 : Word32)] ++ rest) = _
  generalize hq : (0xD#6 ++ d ++ a ++ b ++ 0x5#11 : Word32) = q
  obtain ⟨e26_6, e21_5, e16_5, e11_5, e0_11⟩ := fields_6_5_5_5_11 _ _ _ _ _ q hq.symm
  refine bytes_short q _ (by rw [e26_6]; decide) ?_ h rest
  rw [word_0D q e26_6]
  have e0_9 : q.extractLsb' 0 9 = 5#9 := field_part e0_11 0 9 (by decide) (by decide)
  simp only [Decode.opFp32, e0_9, e0_11, e11_5, e16_5, e21_5, reduceIte, BitVec.reduceEq, and_true, and_false, false_and]

theorem RoundTrip.fmaxF32 (d : RegNo) (a : RegNo) (b : RegNo) : RoundTrip.Statement (.fmaxF32 d a b) := by
  intro _ h rest
  change Decode.bytes (bytesOfWords [(0xD#6 ++ d ++ a ++ b ++ 0x6#11 : Word32)] ++ rest) = _
  generalize hq : (0xD#6 ++ d ++ a ++ b ++ 0x6#11 : Word32) = q
  obtain ⟨e26_6, e21_5, e16_5, e11_5, e0_11⟩ := fields_6_5_5_5_11 _ _ _ _ _ q hq.symm
  refine bytes_short q _ (by rw [e26_6]; decide) ?_ h rest
  rw [word_0D q e26_6]
  have e0_9 : q.extractLsb' 0 9 = 6#9 := field_part e0_11 0 9 (by decide) (by decide)
  simp only [Decode.opFp32, e0_9, e0_11, e11_5, e16_5, e21_5, reduceIte, BitVec.reduceEq, and_true, and_false, false_and]

theorem RoundTrip.fmaF32 (d : RegNo) (a : RegNo) (b : RegNo) (m : BitVec 2) : RoundTrip.Statement (.fmaF32 d a b m) := by
  intro _ h rest
  change Decode.bytes (bytesOfWords [(0xD#6 ++ d ++ a ++ b ++ m ++ 0x7#9 : Word32)] ++ rest) = _
  generalize hq : (0xD#6 ++ d ++ a ++ b ++ m ++ 0x7#9 : Word32) = q
  obtain ⟨e26_6, e21_5, e16_5, e11_5, e9_2, e0_9⟩ := fields_6_5_5_5_2_9 _ _ _ _ _ _ q hq.symm
  refine bytes_short q _ (by rw [e26_6]; decide) ?_ h rest
  rw [word_0D q e26_6]
  have n0_11_5 : ¬ q.extractLsb' 0 11 = 5#11 := fun e =>
    absurd ((field_part e0_9 0 9 (by decide) (by decide)).symm.trans (field_part e 0 9 (by decide) (by decide))) (by decide)
  have n0_11_6 : ¬ q.extractLsb' 0 11 = 6#11 := fun e =>
    absurd ((field_part e0_9 0 9 (by decide) (by decide)).symm.trans (field_part e 0 9 (by decide) (by decide))) (by decide)
  simp only [Decode.opFp32, e0_9, e9_2, e11_5, e16_5, e21_5, n0_11_5, n0_11_6, reduceIte, BitVec.reduceEq, and_true, and_false, false_and]

theorem RoundTrip.fabsF32 (d : RegNo) (a : RegNo) : RoundTrip.Statement (.fabsF32 d a) := by
  intro _ h rest
  change Decode.bytes (bytesOfWords [(0xD#6 ++ d ++ a ++ 0x8#16 : Word32)] ++ rest) = _
  generalize hq : (0xD#6 ++ d ++ a ++ 0x8#16 : Word32) = q
  obtain ⟨e26_6, e21_5, e16_5, e0_16⟩ := fields_6_5_5_16 _ _ _ _ q hq.symm
  refine bytes_short q _ (by rw [e26_6]; decide) ?_ h rest
  rw [word_0D q e26_6]
  have e0_9 : q.extractLsb' 0 9 = 8#9 := field_part e0_16 0 9 (by decide) (by decide)
  have e11_5 : q.extractLsb' 11 5 = 0#5 := field_part e0_16 11 5 (by decide) (by decide)
  have e0_11 : q.extractLsb' 0 11 = 8#11 := field_part e0_16 0 11 (by decide) (by decide)
  simp only [Decode.opFp32, e0_9, e0_11, e0_16, e11_5, e16_5, e21_5, reduceIte, BitVec.reduceEq, and_true, and_false, false_and]

theorem RoundTrip.fnegF32 (d : RegNo) (a : RegNo) : RoundTrip.Statement (.fnegF32 d a) := by
  intro _ h rest
  change Decode.bytes (bytesOfWords [(0xD#6 ++ d ++ a ++ 0x9#16 : Word32)] ++ rest) = _
  generalize hq : (0xD#6 ++ d ++ a ++ 0x9#16 : Word32) = q
  obtain ⟨e26_6, e21_5, e16_5, e0_16⟩ := fields_6_5_5_16 _ _ _ _ q hq.symm
  refine bytes_short q _ (by rw [e26_6]; decide) ?_ h rest
  rw [word_0D q e26_6]
  have e0_9 : q.extractLsb' 0 9 = 9#9 := field_part e0_16 0 9 (by decide) (by decide)
  have e11_5 : q.extractLsb' 11 5 = 0#5 := field_part e0_16 11 5 (by decide) (by decide)
  have e0_11 : q.extractLsb' 0 11 = 9#11 := field_part e0_16 0 11 (by decide) (by decide)
  simp only [Decode.opFp32, e0_9, e0_11, e0_16, e11_5, e16_5, e21_5, reduceIte, BitVec.reduceEq, and_true, and_false, false_and]

theorem RoundTrip.feqF32 (d : RegNo) (a : RegNo) (b : RegNo) : RoundTrip.Statement (.feqF32 d a b) := by
  intro _ h rest
  change Decode.bytes (bytesOfWords [(0xD#6 ++ d ++ a ++ b ++ 0xA#11 : Word32)] ++ rest) = _
  generalize hq : (0xD#6 ++ d ++ a ++ b ++ 0xA#11 : Word32) = q
  obtain ⟨e26_6, e21_5, e16_5, e11_5, e0_11⟩ := fields_6_5_5_5_11 _ _ _ _ _ q hq.symm
  refine bytes_short q _ (by rw [e26_6]; decide) ?_ h rest
  rw [word_0D q e26_6]
  have e0_9 : q.extractLsb' 0 9 = 10#9 := field_part e0_11 0 9 (by decide) (by decide)
  have n0_16_8 : ¬ q.extractLsb' 0 16 = 8#16 := fun e =>
    absurd ((field_part e0_11 0 11 (by decide) (by decide)).symm.trans (field_part e 0 11 (by decide) (by decide))) (by decide)
  have n0_16_9 : ¬ q.extractLsb' 0 16 = 9#16 := fun e =>
    absurd ((field_part e0_11 0 11 (by decide) (by decide)).symm.trans (field_part e 0 11 (by decide) (by decide))) (by decide)
  simp only [Decode.opFp32, e0_9, e0_11, e11_5, e16_5, e21_5, n0_16_8, n0_16_9, reduceIte, BitVec.reduceEq, and_true, and_false, false_and]

theorem RoundTrip.fltF32 (d : RegNo) (a : RegNo) (b : RegNo) : RoundTrip.Statement (.fltF32 d a b) := by
  intro _ h rest
  change Decode.bytes (bytesOfWords [(0xD#6 ++ d ++ a ++ b ++ 0xB#11 : Word32)] ++ rest) = _
  generalize hq : (0xD#6 ++ d ++ a ++ b ++ 0xB#11 : Word32) = q
  obtain ⟨e26_6, e21_5, e16_5, e11_5, e0_11⟩ := fields_6_5_5_5_11 _ _ _ _ _ q hq.symm
  refine bytes_short q _ (by rw [e26_6]; decide) ?_ h rest
  rw [word_0D q e26_6]
  have e0_9 : q.extractLsb' 0 9 = 11#9 := field_part e0_11 0 9 (by decide) (by decide)
  have n0_16_8 : ¬ q.extractLsb' 0 16 = 8#16 := fun e =>
    absurd ((field_part e0_11 0 11 (by decide) (by decide)).symm.trans (field_part e 0 11 (by decide) (by decide))) (by decide)
  have n0_16_9 : ¬ q.extractLsb' 0 16 = 9#16 := fun e =>
    absurd ((field_part e0_11 0 11 (by decide) (by decide)).symm.trans (field_part e 0 11 (by decide) (by decide))) (by decide)
  simp only [Decode.opFp32, e0_9, e0_11, e11_5, e16_5, e21_5, n0_16_8, n0_16_9, reduceIte, BitVec.reduceEq, and_true, and_false, false_and]

theorem RoundTrip.fleF32 (d : RegNo) (a : RegNo) (b : RegNo) : RoundTrip.Statement (.fleF32 d a b) := by
  intro _ h rest
  change Decode.bytes (bytesOfWords [(0xD#6 ++ d ++ a ++ b ++ 0xC#11 : Word32)] ++ rest) = _
  generalize hq : (0xD#6 ++ d ++ a ++ b ++ 0xC#11 : Word32) = q
  obtain ⟨e26_6, e21_5, e16_5, e11_5, e0_11⟩ := fields_6_5_5_5_11 _ _ _ _ _ q hq.symm
  refine bytes_short q _ (by rw [e26_6]; decide) ?_ h rest
  rw [word_0D q e26_6]
  have e0_9 : q.extractLsb' 0 9 = 12#9 := field_part e0_11 0 9 (by decide) (by decide)
  have n0_16_8 : ¬ q.extractLsb' 0 16 = 8#16 := fun e =>
    absurd ((field_part e0_11 0 11 (by decide) (by decide)).symm.trans (field_part e 0 11 (by decide) (by decide))) (by decide)
  have n0_16_9 : ¬ q.extractLsb' 0 16 = 9#16 := fun e =>
    absurd ((field_part e0_11 0 11 (by decide) (by decide)).symm.trans (field_part e 0 11 (by decide) (by decide))) (by decide)
  simp only [Decode.opFp32, e0_9, e0_11, e11_5, e16_5, e21_5, n0_16_8, n0_16_9, reduceIte, BitVec.reduceEq, and_true, and_false, false_and]

theorem RoundTrip.fclassF32 (d : RegNo) (a : RegNo) : RoundTrip.Statement (.fclassF32 d a) := by
  intro _ h rest
  change Decode.bytes (bytesOfWords [(0xD#6 ++ d ++ a ++ 0xD#16 : Word32)] ++ rest) = _
  generalize hq : (0xD#6 ++ d ++ a ++ 0xD#16 : Word32) = q
  obtain ⟨e26_6, e21_5, e16_5, e0_16⟩ := fields_6_5_5_16 _ _ _ _ q hq.symm
  refine bytes_short q _ (by rw [e26_6]; decide) ?_ h rest
  rw [word_0D q e26_6]
  have e0_9 : q.extractLsb' 0 9 = 13#9 := field_part e0_16 0 9 (by decide) (by decide)
  have e11_5 : q.extractLsb' 11 5 = 0#5 := field_part e0_16 11 5 (by decide) (by decide)
  have e0_11 : q.extractLsb' 0 11 = 13#11 := field_part e0_16 0 11 (by decide) (by decide)
  simp only [Decode.opFp32, e0_9, e0_11, e0_16, e11_5, e16_5, e21_5, reduceIte, BitVec.reduceEq, and_true, and_false, false_and]

theorem RoundTrip.cvtF64I64 (d : RegNo) (a : RegNo) (m : BitVec 2) : RoundTrip.Statement (.cvtF64I64 d a m) := by
  intro _ h rest
  change Decode.bytes (bytesOfWords [(0xE#6 ++ d ++ a ++ 0x0#5 ++ m ++ 0x0#9 : Word32)] ++ rest) = _
  generalize hq : (0xE#6 ++ d ++ a ++ 0x0#5 ++ m ++ 0x0#9 : Word32) = q
  obtain ⟨e26_6, e21_5, e16_5, e11_5, e9_2, e0_9⟩ := fields_6_5_5_5_2_9 _ _ _ _ _ _ q hq.symm
  refine bytes_short q _ (by rw [e26_6]; decide) ?_ h rest
  rw [word_0E q e26_6]
  simp only [Decode.opFcvt, e0_9, e9_2, e11_5, e16_5, e21_5, reduceIte, BitVec.reduceEq, and_true, and_false, false_and]

theorem RoundTrip.cvtF64N64 (d : RegNo) (a : RegNo) (m : BitVec 2) : RoundTrip.Statement (.cvtF64N64 d a m) := by
  intro _ h rest
  change Decode.bytes (bytesOfWords [(0xE#6 ++ d ++ a ++ 0x0#5 ++ m ++ 0x1#9 : Word32)] ++ rest) = _
  generalize hq : (0xE#6 ++ d ++ a ++ 0x0#5 ++ m ++ 0x1#9 : Word32) = q
  obtain ⟨e26_6, e21_5, e16_5, e11_5, e9_2, e0_9⟩ := fields_6_5_5_5_2_9 _ _ _ _ _ _ q hq.symm
  refine bytes_short q _ (by rw [e26_6]; decide) ?_ h rest
  rw [word_0E q e26_6]
  simp only [Decode.opFcvt, e0_9, e9_2, e11_5, e16_5, e21_5, reduceIte, BitVec.reduceEq, and_true, and_false, false_and]

theorem RoundTrip.cvtI64F64 (d : RegNo) (a : RegNo) (m : BitVec 2) : RoundTrip.Statement (.cvtI64F64 d a m) := by
  intro _ h rest
  change Decode.bytes (bytesOfWords [(0xE#6 ++ d ++ a ++ 0x0#5 ++ m ++ 0x2#9 : Word32)] ++ rest) = _
  generalize hq : (0xE#6 ++ d ++ a ++ 0x0#5 ++ m ++ 0x2#9 : Word32) = q
  obtain ⟨e26_6, e21_5, e16_5, e11_5, e9_2, e0_9⟩ := fields_6_5_5_5_2_9 _ _ _ _ _ _ q hq.symm
  refine bytes_short q _ (by rw [e26_6]; decide) ?_ h rest
  rw [word_0E q e26_6]
  simp only [Decode.opFcvt, e0_9, e9_2, e11_5, e16_5, e21_5, reduceIte, BitVec.reduceEq, and_true, and_false, false_and]

theorem RoundTrip.cvtN64F64 (d : RegNo) (a : RegNo) (m : BitVec 2) : RoundTrip.Statement (.cvtN64F64 d a m) := by
  intro _ h rest
  change Decode.bytes (bytesOfWords [(0xE#6 ++ d ++ a ++ 0x0#5 ++ m ++ 0x3#9 : Word32)] ++ rest) = _
  generalize hq : (0xE#6 ++ d ++ a ++ 0x0#5 ++ m ++ 0x3#9 : Word32) = q
  obtain ⟨e26_6, e21_5, e16_5, e11_5, e9_2, e0_9⟩ := fields_6_5_5_5_2_9 _ _ _ _ _ _ q hq.symm
  refine bytes_short q _ (by rw [e26_6]; decide) ?_ h rest
  rw [word_0E q e26_6]
  simp only [Decode.opFcvt, e0_9, e9_2, e11_5, e16_5, e21_5, reduceIte, BitVec.reduceEq, and_true, and_false, false_and]

theorem RoundTrip.cvtF32I64 (d : RegNo) (a : RegNo) (m : BitVec 2) : RoundTrip.Statement (.cvtF32I64 d a m) := by
  intro _ h rest
  change Decode.bytes (bytesOfWords [(0xE#6 ++ d ++ a ++ 0x0#5 ++ m ++ 0x4#9 : Word32)] ++ rest) = _
  generalize hq : (0xE#6 ++ d ++ a ++ 0x0#5 ++ m ++ 0x4#9 : Word32) = q
  obtain ⟨e26_6, e21_5, e16_5, e11_5, e9_2, e0_9⟩ := fields_6_5_5_5_2_9 _ _ _ _ _ _ q hq.symm
  refine bytes_short q _ (by rw [e26_6]; decide) ?_ h rest
  rw [word_0E q e26_6]
  simp only [Decode.opFcvt, e0_9, e9_2, e11_5, e16_5, e21_5, reduceIte, BitVec.reduceEq, and_true, and_false, false_and]

theorem RoundTrip.cvtF32N64 (d : RegNo) (a : RegNo) (m : BitVec 2) : RoundTrip.Statement (.cvtF32N64 d a m) := by
  intro _ h rest
  change Decode.bytes (bytesOfWords [(0xE#6 ++ d ++ a ++ 0x0#5 ++ m ++ 0x5#9 : Word32)] ++ rest) = _
  generalize hq : (0xE#6 ++ d ++ a ++ 0x0#5 ++ m ++ 0x5#9 : Word32) = q
  obtain ⟨e26_6, e21_5, e16_5, e11_5, e9_2, e0_9⟩ := fields_6_5_5_5_2_9 _ _ _ _ _ _ q hq.symm
  refine bytes_short q _ (by rw [e26_6]; decide) ?_ h rest
  rw [word_0E q e26_6]
  simp only [Decode.opFcvt, e0_9, e9_2, e11_5, e16_5, e21_5, reduceIte, BitVec.reduceEq, and_true, and_false, false_and]

theorem RoundTrip.cvtI64F32 (d : RegNo) (a : RegNo) (m : BitVec 2) : RoundTrip.Statement (.cvtI64F32 d a m) := by
  intro _ h rest
  change Decode.bytes (bytesOfWords [(0xE#6 ++ d ++ a ++ 0x0#5 ++ m ++ 0x6#9 : Word32)] ++ rest) = _
  generalize hq : (0xE#6 ++ d ++ a ++ 0x0#5 ++ m ++ 0x6#9 : Word32) = q
  obtain ⟨e26_6, e21_5, e16_5, e11_5, e9_2, e0_9⟩ := fields_6_5_5_5_2_9 _ _ _ _ _ _ q hq.symm
  refine bytes_short q _ (by rw [e26_6]; decide) ?_ h rest
  rw [word_0E q e26_6]
  simp only [Decode.opFcvt, e0_9, e9_2, e11_5, e16_5, e21_5, reduceIte, BitVec.reduceEq, and_true, and_false, false_and]

theorem RoundTrip.cvtN64F32 (d : RegNo) (a : RegNo) (m : BitVec 2) : RoundTrip.Statement (.cvtN64F32 d a m) := by
  intro _ h rest
  change Decode.bytes (bytesOfWords [(0xE#6 ++ d ++ a ++ 0x0#5 ++ m ++ 0x7#9 : Word32)] ++ rest) = _
  generalize hq : (0xE#6 ++ d ++ a ++ 0x0#5 ++ m ++ 0x7#9 : Word32) = q
  obtain ⟨e26_6, e21_5, e16_5, e11_5, e9_2, e0_9⟩ := fields_6_5_5_5_2_9 _ _ _ _ _ _ q hq.symm
  refine bytes_short q _ (by rw [e26_6]; decide) ?_ h rest
  rw [word_0E q e26_6]
  simp only [Decode.opFcvt, e0_9, e9_2, e11_5, e16_5, e21_5, reduceIte, BitVec.reduceEq, and_true, and_false, false_and]

theorem RoundTrip.cvtF64F32 (d : RegNo) (a : RegNo) : RoundTrip.Statement (.cvtF64F32 d a) := by
  intro _ h rest
  change Decode.bytes (bytesOfWords [(0xE#6 ++ d ++ a ++ 0x8#16 : Word32)] ++ rest) = _
  generalize hq : (0xE#6 ++ d ++ a ++ 0x8#16 : Word32) = q
  obtain ⟨e26_6, e21_5, e16_5, e0_16⟩ := fields_6_5_5_16 _ _ _ _ q hq.symm
  refine bytes_short q _ (by rw [e26_6]; decide) ?_ h rest
  rw [word_0E q e26_6]
  have e0_9 : q.extractLsb' 0 9 = 8#9 := field_part e0_16 0 9 (by decide) (by decide)
  have e11_5 : q.extractLsb' 11 5 = 0#5 := field_part e0_16 11 5 (by decide) (by decide)
  simp only [Decode.opFcvt, e0_9, e0_16, e11_5, e16_5, e21_5, reduceIte, BitVec.reduceEq, and_true, and_false, false_and]

theorem RoundTrip.cvtF32F64 (d : RegNo) (a : RegNo) (m : BitVec 2) : RoundTrip.Statement (.cvtF32F64 d a m) := by
  intro _ h rest
  change Decode.bytes (bytesOfWords [(0xE#6 ++ d ++ a ++ 0x0#5 ++ m ++ 0x9#9 : Word32)] ++ rest) = _
  generalize hq : (0xE#6 ++ d ++ a ++ 0x0#5 ++ m ++ 0x9#9 : Word32) = q
  obtain ⟨e26_6, e21_5, e16_5, e11_5, e9_2, e0_9⟩ := fields_6_5_5_5_2_9 _ _ _ _ _ _ q hq.symm
  refine bytes_short q _ (by rw [e26_6]; decide) ?_ h rest
  rw [word_0E q e26_6]
  have n0_16_8 : ¬ q.extractLsb' 0 16 = 8#16 := fun e =>
    absurd ((field_part e0_9 0 9 (by decide) (by decide)).symm.trans (field_part e 0 9 (by decide) (by decide))) (by decide)
  simp only [Decode.opFcvt, e0_9, e9_2, e11_5, e16_5, e21_5, n0_16_8, reduceIte, BitVec.reduceEq, and_true, and_false, false_and]

theorem RoundTrip.fmvX (d : RegNo) (a : RegNo) : RoundTrip.Statement (.fmvX d a) := by
  intro _ h rest
  change Decode.bytes (bytesOfWords [(0xE#6 ++ d ++ a ++ 0xA#16 : Word32)] ++ rest) = _
  generalize hq : (0xE#6 ++ d ++ a ++ 0xA#16 : Word32) = q
  obtain ⟨e26_6, e21_5, e16_5, e0_16⟩ := fields_6_5_5_16 _ _ _ _ q hq.symm
  refine bytes_short q _ (by rw [e26_6]; decide) ?_ h rest
  rw [word_0E q e26_6]
  have e0_9 : q.extractLsb' 0 9 = 10#9 := field_part e0_16 0 9 (by decide) (by decide)
  have e11_5 : q.extractLsb' 11 5 = 0#5 := field_part e0_16 11 5 (by decide) (by decide)
  simp only [Decode.opFcvt, e0_9, e0_16, e11_5, e16_5, e21_5, reduceIte, BitVec.reduceEq, and_true, and_false, false_and]

theorem RoundTrip.fmvF (d : RegNo) (a : RegNo) : RoundTrip.Statement (.fmvF d a) := by
  intro _ h rest
  change Decode.bytes (bytesOfWords [(0xE#6 ++ d ++ a ++ 0xB#16 : Word32)] ++ rest) = _
  generalize hq : (0xE#6 ++ d ++ a ++ 0xB#16 : Word32) = q
  obtain ⟨e26_6, e21_5, e16_5, e0_16⟩ := fields_6_5_5_16 _ _ _ _ q hq.symm
  refine bytes_short q _ (by rw [e26_6]; decide) ?_ h rest
  rw [word_0E q e26_6]
  have e0_9 : q.extractLsb' 0 9 = 11#9 := field_part e0_16 0 9 (by decide) (by decide)
  have e11_5 : q.extractLsb' 11 5 = 0#5 := field_part e0_16 11 5 (by decide) (by decide)
  simp only [Decode.opFcvt, e0_9, e0_16, e11_5, e16_5, e21_5, reduceIte, BitVec.reduceEq, and_true, and_false, false_and]

theorem RoundTrip.ldB (d : RegNo) (a : RegNo) (c : BitVec 4) (o : BitVec 2) (f : BitVec 10) : RoundTrip.Statement (.ldB d a c o f) := by
  intro _ h rest
  change Decode.bytes (bytesOfWords [(0x10#6 ++ d ++ a ++ c ++ o ++ f : Word32)] ++ rest) = _
  generalize hq : (0x10#6 ++ d ++ a ++ c ++ o ++ f : Word32) = q
  obtain ⟨e26_6, e21_5, e16_5, e12_4, e10_2, e0_10⟩ := fields_6_5_5_4_2_10 _ _ _ _ _ _ q hq.symm
  refine bytes_short q _ (by rw [e26_6]; decide) ?_ h rest
  rw [word_10 q e26_6]
  rw [e21_5, e16_5, e12_4, e10_2, e0_10]

theorem RoundTrip.ldH (d : RegNo) (a : RegNo) (c : BitVec 4) (o : BitVec 2) (f : BitVec 10) : RoundTrip.Statement (.ldH d a c o f) := by
  intro _ h rest
  change Decode.bytes (bytesOfWords [(0x11#6 ++ d ++ a ++ c ++ o ++ f : Word32)] ++ rest) = _
  generalize hq : (0x11#6 ++ d ++ a ++ c ++ o ++ f : Word32) = q
  obtain ⟨e26_6, e21_5, e16_5, e12_4, e10_2, e0_10⟩ := fields_6_5_5_4_2_10 _ _ _ _ _ _ q hq.symm
  refine bytes_short q _ (by rw [e26_6]; decide) ?_ h rest
  rw [word_11 q e26_6]
  rw [e21_5, e16_5, e12_4, e10_2, e0_10]

theorem RoundTrip.ldW (d : RegNo) (a : RegNo) (c : BitVec 4) (o : BitVec 2) (f : BitVec 10) : RoundTrip.Statement (.ldW d a c o f) := by
  intro _ h rest
  change Decode.bytes (bytesOfWords [(0x12#6 ++ d ++ a ++ c ++ o ++ f : Word32)] ++ rest) = _
  generalize hq : (0x12#6 ++ d ++ a ++ c ++ o ++ f : Word32) = q
  obtain ⟨e26_6, e21_5, e16_5, e12_4, e10_2, e0_10⟩ := fields_6_5_5_4_2_10 _ _ _ _ _ _ q hq.symm
  refine bytes_short q _ (by rw [e26_6]; decide) ?_ h rest
  rw [word_12 q e26_6]
  rw [e21_5, e16_5, e12_4, e10_2, e0_10]

theorem RoundTrip.ldD (d : RegNo) (a : RegNo) (c : BitVec 4) (o : BitVec 2) (f : BitVec 10) : RoundTrip.Statement (.ldD d a c o f) := by
  intro _ h rest
  change Decode.bytes (bytesOfWords [(0x13#6 ++ d ++ a ++ c ++ o ++ f : Word32)] ++ rest) = _
  generalize hq : (0x13#6 ++ d ++ a ++ c ++ o ++ f : Word32) = q
  obtain ⟨e26_6, e21_5, e16_5, e12_4, e10_2, e0_10⟩ := fields_6_5_5_4_2_10 _ _ _ _ _ _ q hq.symm
  refine bytes_short q _ (by rw [e26_6]; decide) ?_ h rest
  rw [word_13 q e26_6]
  rw [e21_5, e16_5, e12_4, e10_2, e0_10]

theorem RoundTrip.ldBn (d : RegNo) (a : RegNo) (c : BitVec 4) (o : BitVec 2) (f : BitVec 10) : RoundTrip.Statement (.ldBn d a c o f) := by
  intro _ h rest
  change Decode.bytes (bytesOfWords [(0x14#6 ++ d ++ a ++ c ++ o ++ f : Word32)] ++ rest) = _
  generalize hq : (0x14#6 ++ d ++ a ++ c ++ o ++ f : Word32) = q
  obtain ⟨e26_6, e21_5, e16_5, e12_4, e10_2, e0_10⟩ := fields_6_5_5_4_2_10 _ _ _ _ _ _ q hq.symm
  refine bytes_short q _ (by rw [e26_6]; decide) ?_ h rest
  rw [word_14 q e26_6]
  rw [e21_5, e16_5, e12_4, e10_2, e0_10]

theorem RoundTrip.ldHn (d : RegNo) (a : RegNo) (c : BitVec 4) (o : BitVec 2) (f : BitVec 10) : RoundTrip.Statement (.ldHn d a c o f) := by
  intro _ h rest
  change Decode.bytes (bytesOfWords [(0x15#6 ++ d ++ a ++ c ++ o ++ f : Word32)] ++ rest) = _
  generalize hq : (0x15#6 ++ d ++ a ++ c ++ o ++ f : Word32) = q
  obtain ⟨e26_6, e21_5, e16_5, e12_4, e10_2, e0_10⟩ := fields_6_5_5_4_2_10 _ _ _ _ _ _ q hq.symm
  refine bytes_short q _ (by rw [e26_6]; decide) ?_ h rest
  rw [word_15 q e26_6]
  rw [e21_5, e16_5, e12_4, e10_2, e0_10]

theorem RoundTrip.ldWn (d : RegNo) (a : RegNo) (c : BitVec 4) (o : BitVec 2) (f : BitVec 10) : RoundTrip.Statement (.ldWn d a c o f) := by
  intro _ h rest
  change Decode.bytes (bytesOfWords [(0x16#6 ++ d ++ a ++ c ++ o ++ f : Word32)] ++ rest) = _
  generalize hq : (0x16#6 ++ d ++ a ++ c ++ o ++ f : Word32) = q
  obtain ⟨e26_6, e21_5, e16_5, e12_4, e10_2, e0_10⟩ := fields_6_5_5_4_2_10 _ _ _ _ _ _ q hq.symm
  refine bytes_short q _ (by rw [e26_6]; decide) ?_ h rest
  rw [word_16 q e26_6]
  rw [e21_5, e16_5, e12_4, e10_2, e0_10]

theorem RoundTrip.ldFw (d : RegNo) (a : RegNo) (c : BitVec 4) (o : BitVec 2) (f : BitVec 10) : RoundTrip.Statement (.ldFw d a c o f) := by
  intro _ h rest
  change Decode.bytes (bytesOfWords [(0x17#6 ++ d ++ a ++ c ++ o ++ f : Word32)] ++ rest) = _
  generalize hq : (0x17#6 ++ d ++ a ++ c ++ o ++ f : Word32) = q
  obtain ⟨e26_6, e21_5, e16_5, e12_4, e10_2, e0_10⟩ := fields_6_5_5_4_2_10 _ _ _ _ _ _ q hq.symm
  refine bytes_short q _ (by rw [e26_6]; decide) ?_ h rest
  rw [word_17 q e26_6]
  rw [e21_5, e16_5, e12_4, e10_2, e0_10]

theorem RoundTrip.ldFd (d : RegNo) (a : RegNo) (c : BitVec 4) (o : BitVec 2) (f : BitVec 10) : RoundTrip.Statement (.ldFd d a c o f) := by
  intro _ h rest
  change Decode.bytes (bytesOfWords [(0x18#6 ++ d ++ a ++ c ++ o ++ f : Word32)] ++ rest) = _
  generalize hq : (0x18#6 ++ d ++ a ++ c ++ o ++ f : Word32) = q
  obtain ⟨e26_6, e21_5, e16_5, e12_4, e10_2, e0_10⟩ := fields_6_5_5_4_2_10 _ _ _ _ _ _ q hq.symm
  refine bytes_short q _ (by rw [e26_6]; decide) ?_ h rest
  rw [word_18 q e26_6]
  rw [e21_5, e16_5, e12_4, e10_2, e0_10]

theorem RoundTrip.ldA16 (d : BitVec 4) (a : RegNo) (c : BitVec 4) (o : BitVec 2) (f : BitVec 10) : RoundTrip.Statement (.ldA16 d a c o f) := by
  intro _ h rest
  change Decode.bytes (bytesOfWords [(0x19#6 ++ d ++ 0x0#1 ++ a ++ c ++ o ++ f : Word32)] ++ rest) = _
  generalize hq : (0x19#6 ++ d ++ 0x0#1 ++ a ++ c ++ o ++ f : Word32) = q
  obtain ⟨e26_6, e22_4, e21_1, e16_5, e12_4, e10_2, e0_10⟩ := fields_6_4_1_5_4_2_10 _ _ _ _ _ _ _ q hq.symm
  refine bytes_short q _ (by rw [e26_6]; decide) ?_ h rest
  rw [word_19 q e26_6]
  simp only [e21_1, e22_4, e16_5, e12_4, e10_2, e0_10, reduceIte]

theorem RoundTrip.ldV16 (d : BitVec 4) (a : RegNo) (c : BitVec 4) (o : BitVec 2) (f : BitVec 10) : RoundTrip.Statement (.ldV16 d a c o f) := by
  intro _ h rest
  change Decode.bytes (bytesOfWords [(0x1A#6 ++ d ++ 0x0#1 ++ a ++ c ++ o ++ f : Word32)] ++ rest) = _
  generalize hq : (0x1A#6 ++ d ++ 0x0#1 ++ a ++ c ++ o ++ f : Word32) = q
  obtain ⟨e26_6, e22_4, e21_1, e16_5, e12_4, e10_2, e0_10⟩ := fields_6_4_1_5_4_2_10 _ _ _ _ _ _ _ q hq.symm
  refine bytes_short q _ (by rw [e26_6]; decide) ?_ h rest
  rw [word_1A q e26_6]
  simp only [e21_1, e22_4, e16_5, e12_4, e10_2, e0_10, reduceIte]

theorem RoundTrip.stB (s : RegNo) (a : RegNo) (c : BitVec 4) (o : BitVec 2) (f : BitVec 10) : RoundTrip.Statement (.stB s a c o f) := by
  intro _ h rest
  change Decode.bytes (bytesOfWords [(0x1C#6 ++ s ++ a ++ c ++ o ++ f : Word32)] ++ rest) = _
  generalize hq : (0x1C#6 ++ s ++ a ++ c ++ o ++ f : Word32) = q
  obtain ⟨e26_6, e21_5, e16_5, e12_4, e10_2, e0_10⟩ := fields_6_5_5_4_2_10 _ _ _ _ _ _ q hq.symm
  refine bytes_short q _ (by rw [e26_6]; decide) ?_ h rest
  rw [word_1C q e26_6]
  rw [e21_5, e16_5, e12_4, e10_2, e0_10]

theorem RoundTrip.stH (s : RegNo) (a : RegNo) (c : BitVec 4) (o : BitVec 2) (f : BitVec 10) : RoundTrip.Statement (.stH s a c o f) := by
  intro _ h rest
  change Decode.bytes (bytesOfWords [(0x1D#6 ++ s ++ a ++ c ++ o ++ f : Word32)] ++ rest) = _
  generalize hq : (0x1D#6 ++ s ++ a ++ c ++ o ++ f : Word32) = q
  obtain ⟨e26_6, e21_5, e16_5, e12_4, e10_2, e0_10⟩ := fields_6_5_5_4_2_10 _ _ _ _ _ _ q hq.symm
  refine bytes_short q _ (by rw [e26_6]; decide) ?_ h rest
  rw [word_1D q e26_6]
  rw [e21_5, e16_5, e12_4, e10_2, e0_10]

theorem RoundTrip.stW (s : RegNo) (a : RegNo) (c : BitVec 4) (o : BitVec 2) (f : BitVec 10) : RoundTrip.Statement (.stW s a c o f) := by
  intro _ h rest
  change Decode.bytes (bytesOfWords [(0x1E#6 ++ s ++ a ++ c ++ o ++ f : Word32)] ++ rest) = _
  generalize hq : (0x1E#6 ++ s ++ a ++ c ++ o ++ f : Word32) = q
  obtain ⟨e26_6, e21_5, e16_5, e12_4, e10_2, e0_10⟩ := fields_6_5_5_4_2_10 _ _ _ _ _ _ q hq.symm
  refine bytes_short q _ (by rw [e26_6]; decide) ?_ h rest
  rw [word_1E q e26_6]
  rw [e21_5, e16_5, e12_4, e10_2, e0_10]

theorem RoundTrip.stD (s : RegNo) (a : RegNo) (c : BitVec 4) (o : BitVec 2) (f : BitVec 10) : RoundTrip.Statement (.stD s a c o f) := by
  intro _ h rest
  change Decode.bytes (bytesOfWords [(0x1F#6 ++ s ++ a ++ c ++ o ++ f : Word32)] ++ rest) = _
  generalize hq : (0x1F#6 ++ s ++ a ++ c ++ o ++ f : Word32) = q
  obtain ⟨e26_6, e21_5, e16_5, e12_4, e10_2, e0_10⟩ := fields_6_5_5_4_2_10 _ _ _ _ _ _ q hq.symm
  refine bytes_short q _ (by rw [e26_6]; decide) ?_ h rest
  rw [word_1F q e26_6]
  rw [e21_5, e16_5, e12_4, e10_2, e0_10]

theorem RoundTrip.stFw (s : RegNo) (a : RegNo) (c : BitVec 4) (o : BitVec 2) (f : BitVec 10) : RoundTrip.Statement (.stFw s a c o f) := by
  intro _ h rest
  change Decode.bytes (bytesOfWords [(0x20#6 ++ s ++ a ++ c ++ o ++ f : Word32)] ++ rest) = _
  generalize hq : (0x20#6 ++ s ++ a ++ c ++ o ++ f : Word32) = q
  obtain ⟨e26_6, e21_5, e16_5, e12_4, e10_2, e0_10⟩ := fields_6_5_5_4_2_10 _ _ _ _ _ _ q hq.symm
  refine bytes_short q _ (by rw [e26_6]; decide) ?_ h rest
  rw [word_20 q e26_6]
  rw [e21_5, e16_5, e12_4, e10_2, e0_10]

theorem RoundTrip.stFd (s : RegNo) (a : RegNo) (c : BitVec 4) (o : BitVec 2) (f : BitVec 10) : RoundTrip.Statement (.stFd s a c o f) := by
  intro _ h rest
  change Decode.bytes (bytesOfWords [(0x21#6 ++ s ++ a ++ c ++ o ++ f : Word32)] ++ rest) = _
  generalize hq : (0x21#6 ++ s ++ a ++ c ++ o ++ f : Word32) = q
  obtain ⟨e26_6, e21_5, e16_5, e12_4, e10_2, e0_10⟩ := fields_6_5_5_4_2_10 _ _ _ _ _ _ q hq.symm
  refine bytes_short q _ (by rw [e26_6]; decide) ?_ h rest
  rw [word_21 q e26_6]
  rw [e21_5, e16_5, e12_4, e10_2, e0_10]

theorem RoundTrip.stA16 (s : BitVec 4) (a : RegNo) (c : BitVec 4) (o : BitVec 2) (f : BitVec 10) : RoundTrip.Statement (.stA16 s a c o f) := by
  intro _ h rest
  change Decode.bytes (bytesOfWords [(0x22#6 ++ s ++ 0x0#1 ++ a ++ c ++ o ++ f : Word32)] ++ rest) = _
  generalize hq : (0x22#6 ++ s ++ 0x0#1 ++ a ++ c ++ o ++ f : Word32) = q
  obtain ⟨e26_6, e22_4, e21_1, e16_5, e12_4, e10_2, e0_10⟩ := fields_6_4_1_5_4_2_10 _ _ _ _ _ _ _ q hq.symm
  refine bytes_short q _ (by rw [e26_6]; decide) ?_ h rest
  rw [word_22 q e26_6]
  simp only [e21_1, e22_4, e16_5, e12_4, e10_2, e0_10, reduceIte]

theorem RoundTrip.stV16 (s : BitVec 4) (a : RegNo) (c : BitVec 4) (o : BitVec 2) (f : BitVec 10) : RoundTrip.Statement (.stV16 s a c o f) := by
  intro _ h rest
  change Decode.bytes (bytesOfWords [(0x23#6 ++ s ++ 0x0#1 ++ a ++ c ++ o ++ f : Word32)] ++ rest) = _
  generalize hq : (0x23#6 ++ s ++ 0x0#1 ++ a ++ c ++ o ++ f : Word32) = q
  obtain ⟨e26_6, e22_4, e21_1, e16_5, e12_4, e10_2, e0_10⟩ := fields_6_4_1_5_4_2_10 _ _ _ _ _ _ _ q hq.symm
  refine bytes_short q _ (by rw [e26_6]; decide) ?_ h rest
  rw [word_23 q e26_6]
  simp only [e21_1, e22_4, e16_5, e12_4, e10_2, e0_10, reduceIte]

theorem RoundTrip.amoW (d : RegNo) (a : RegNo) (b : RegNo) (p : BitVec 4) (m : BitVec 1) (o : BitVec 2) (c : BitVec 4) : RoundTrip.Statement (.amoW d a b p m o c) := by
  intro _ h rest
  change Decode.bytes (bytesOfWords [(0x24#6 ++ d ++ a ++ b ++ p ++ m ++ o ++ c : Word32)] ++ rest) = _
  generalize hq : (0x24#6 ++ d ++ a ++ b ++ p ++ m ++ o ++ c : Word32) = q
  obtain ⟨e26_6, e21_5, e16_5, e11_5, e7_4, e6_1, e4_2, e0_4⟩ := fields_6_5_5_5_4_1_2_4 _ _ _ _ _ _ _ _ q hq.symm
  refine bytes_short q _ (by rw [e26_6]; decide) ?_ h rest
  rw [word_24 q e26_6]
  rw [e21_5, e16_5, e11_5, e7_4, e6_1, e4_2, e0_4]

theorem RoundTrip.amoD (d : RegNo) (a : RegNo) (b : RegNo) (p : BitVec 4) (m : BitVec 1) (o : BitVec 2) (c : BitVec 4) : RoundTrip.Statement (.amoD d a b p m o c) := by
  intro _ h rest
  change Decode.bytes (bytesOfWords [(0x25#6 ++ d ++ a ++ b ++ p ++ m ++ o ++ c : Word32)] ++ rest) = _
  generalize hq : (0x25#6 ++ d ++ a ++ b ++ p ++ m ++ o ++ c : Word32) = q
  obtain ⟨e26_6, e21_5, e16_5, e11_5, e7_4, e6_1, e4_2, e0_4⟩ := fields_6_5_5_5_4_1_2_4 _ _ _ _ _ _ _ _ q hq.symm
  refine bytes_short q _ (by rw [e26_6]; decide) ?_ h rest
  rw [word_25 q e26_6]
  rw [e21_5, e16_5, e11_5, e7_4, e6_1, e4_2, e0_4]

theorem RoundTrip.casW (d : RegNo) (a : RegNo) (b : RegNo) (o : BitVec 2) (c : BitVec 4) : RoundTrip.Statement (.casW d a b o c) := by
  intro _ h rest
  change Decode.bytes (bytesOfWords [(0x26#6 ++ d ++ a ++ b ++ 0x0#5 ++ o ++ c : Word32)] ++ rest) = _
  generalize hq : (0x26#6 ++ d ++ a ++ b ++ 0x0#5 ++ o ++ c : Word32) = q
  obtain ⟨e26_6, e21_5, e16_5, e11_5, e6_5, e4_2, e0_4⟩ := fields_6_5_5_5_5_2_4 _ _ _ _ _ _ _ q hq.symm
  refine bytes_short q _ (by rw [e26_6]; decide) ?_ h rest
  rw [word_26 q e26_6]
  simp only [e6_5, e21_5, e16_5, e11_5, e4_2, e0_4, reduceIte]

theorem RoundTrip.casD (d : RegNo) (a : RegNo) (b : RegNo) (o : BitVec 2) (c : BitVec 4) : RoundTrip.Statement (.casD d a b o c) := by
  intro _ h rest
  change Decode.bytes (bytesOfWords [(0x27#6 ++ d ++ a ++ b ++ 0x0#5 ++ o ++ c : Word32)] ++ rest) = _
  generalize hq : (0x27#6 ++ d ++ a ++ b ++ 0x0#5 ++ o ++ c : Word32) = q
  obtain ⟨e26_6, e21_5, e16_5, e11_5, e6_5, e4_2, e0_4⟩ := fields_6_5_5_5_5_2_4 _ _ _ _ _ _ _ q hq.symm
  refine bytes_short q _ (by rw [e26_6]; decide) ?_ h rest
  rw [word_27 q e26_6]
  simp only [e6_5, e21_5, e16_5, e11_5, e4_2, e0_4, reduceIte]

theorem RoundTrip.beq (a : RegNo) (b : RegNo) (o : BitVec 16) : RoundTrip.Statement (.beq a b o) := by
  intro _ h rest
  change Decode.bytes (bytesOfWords [(0x28#6 ++ a ++ b ++ o : Word32)] ++ rest) = _
  generalize hq : (0x28#6 ++ a ++ b ++ o : Word32) = q
  obtain ⟨e26_6, e21_5, e16_5, e0_16⟩ := fields_6_5_5_16 _ _ _ _ q hq.symm
  refine bytes_short q _ (by rw [e26_6]; decide) ?_ h rest
  rw [word_28 q e26_6]
  rw [e21_5, e16_5, e0_16]

theorem RoundTrip.bne (a : RegNo) (b : RegNo) (o : BitVec 16) : RoundTrip.Statement (.bne a b o) := by
  intro _ h rest
  change Decode.bytes (bytesOfWords [(0x29#6 ++ a ++ b ++ o : Word32)] ++ rest) = _
  generalize hq : (0x29#6 ++ a ++ b ++ o : Word32) = q
  obtain ⟨e26_6, e21_5, e16_5, e0_16⟩ := fields_6_5_5_16 _ _ _ _ q hq.symm
  refine bytes_short q _ (by rw [e26_6]; decide) ?_ h rest
  rw [word_29 q e26_6]
  rw [e21_5, e16_5, e0_16]

theorem RoundTrip.blt (a : RegNo) (b : RegNo) (o : BitVec 16) : RoundTrip.Statement (.blt a b o) := by
  intro _ h rest
  change Decode.bytes (bytesOfWords [(0x2A#6 ++ a ++ b ++ o : Word32)] ++ rest) = _
  generalize hq : (0x2A#6 ++ a ++ b ++ o : Word32) = q
  obtain ⟨e26_6, e21_5, e16_5, e0_16⟩ := fields_6_5_5_16 _ _ _ _ q hq.symm
  refine bytes_short q _ (by rw [e26_6]; decide) ?_ h rest
  rw [word_2A q e26_6]
  rw [e21_5, e16_5, e0_16]

theorem RoundTrip.bge (a : RegNo) (b : RegNo) (o : BitVec 16) : RoundTrip.Statement (.bge a b o) := by
  intro _ h rest
  change Decode.bytes (bytesOfWords [(0x2B#6 ++ a ++ b ++ o : Word32)] ++ rest) = _
  generalize hq : (0x2B#6 ++ a ++ b ++ o : Word32) = q
  obtain ⟨e26_6, e21_5, e16_5, e0_16⟩ := fields_6_5_5_16 _ _ _ _ q hq.symm
  refine bytes_short q _ (by rw [e26_6]; decide) ?_ h rest
  rw [word_2B q e26_6]
  rw [e21_5, e16_5, e0_16]

theorem RoundTrip.bltN (a : RegNo) (b : RegNo) (o : BitVec 16) : RoundTrip.Statement (.bltN a b o) := by
  intro _ h rest
  change Decode.bytes (bytesOfWords [(0x2C#6 ++ a ++ b ++ o : Word32)] ++ rest) = _
  generalize hq : (0x2C#6 ++ a ++ b ++ o : Word32) = q
  obtain ⟨e26_6, e21_5, e16_5, e0_16⟩ := fields_6_5_5_16 _ _ _ _ q hq.symm
  refine bytes_short q _ (by rw [e26_6]; decide) ?_ h rest
  rw [word_2C q e26_6]
  rw [e21_5, e16_5, e0_16]

theorem RoundTrip.bgeN (a : RegNo) (b : RegNo) (o : BitVec 16) : RoundTrip.Statement (.bgeN a b o) := by
  intro _ h rest
  change Decode.bytes (bytesOfWords [(0x2D#6 ++ a ++ b ++ o : Word32)] ++ rest) = _
  generalize hq : (0x2D#6 ++ a ++ b ++ o : Word32) = q
  obtain ⟨e26_6, e21_5, e16_5, e0_16⟩ := fields_6_5_5_16 _ _ _ _ q hq.symm
  refine bytes_short q _ (by rw [e26_6]; decide) ?_ h rest
  rw [word_2D q e26_6]
  rw [e21_5, e16_5, e0_16]

theorem RoundTrip.j (o : BitVec 26) : RoundTrip.Statement (.j o) := by
  intro _ h rest
  change Decode.bytes (bytesOfWords [(0x2E#6 ++ o : Word32)] ++ rest) = _
  generalize hq : (0x2E#6 ++ o : Word32) = q
  obtain ⟨e26_6, e0_26⟩ := fields_6_26 _ _ q hq.symm
  refine bytes_short q _ (by rw [e26_6]; decide) ?_ h rest
  rw [word_2E q e26_6]
  rw [e0_26]

theorem RoundTrip.jal (o : BitVec 26) : RoundTrip.Statement (.jal o) := by
  intro _ h rest
  change Decode.bytes (bytesOfWords [(0x2F#6 ++ o : Word32)] ++ rest) = _
  generalize hq : (0x2F#6 ++ o : Word32) = q
  obtain ⟨e26_6, e0_26⟩ := fields_6_26 _ _ q hq.symm
  refine bytes_short q _ (by rw [e26_6]; decide) ?_ h rest
  rw [word_2F q e26_6]
  rw [e0_26]

theorem RoundTrip.jalr (d : RegNo) (a : RegNo) (i : BitVec 16) : RoundTrip.Statement (.jalr d a i) := by
  intro _ h rest
  change Decode.bytes (bytesOfWords [(0x30#6 ++ d ++ a ++ i : Word32)] ++ rest) = _
  generalize hq : (0x30#6 ++ d ++ a ++ i : Word32) = q
  obtain ⟨e26_6, e21_5, e16_5, e0_16⟩ := fields_6_5_5_16 _ _ _ _ q hq.symm
  refine bytes_short q _ (by rw [e26_6]; decide) ?_ h rest
  rw [word_30 q e26_6]
  rw [e21_5, e16_5, e0_16]

theorem RoundTrip.fence (s : BitVec 3) (o : BitVec 2) (m : BitVec 16) : RoundTrip.Statement (.fence s o m) := by
  intro _ h rest
  change Decode.bytes (bytesOfWords [(0x31#6 ++ s ++ o ++ 0x0#5 ++ m : Word32)] ++ rest) = _
  generalize hq : (0x31#6 ++ s ++ o ++ 0x0#5 ++ m : Word32) = q
  obtain ⟨e26_6, e23_3, e21_2, e16_5, e0_16⟩ := fields_6_3_2_5_16 _ _ _ _ _ q hq.symm
  refine bytes_short q _ (by rw [e26_6]; decide) ?_ h rest
  rw [word_31 q e26_6]
  simp only [e16_5, e23_3, e21_2, e0_16, reduceIte]

theorem RoundTrip.gets (d : RegNo) (i : BitVec 12) : RoundTrip.Statement (.gets d i) := by
  intro _ h rest
  change Decode.bytes (bytesOfWords [(0x32#6 ++ d ++ 0x0#5 ++ i ++ 0x0#4 : Word32)] ++ rest) = _
  generalize hq : (0x32#6 ++ d ++ 0x0#5 ++ i ++ 0x0#4 : Word32) = q
  obtain ⟨e26_6, e21_5, e16_5, e4_12, e0_4⟩ := fields_6_5_5_12_4 _ _ _ _ _ q hq.symm
  refine bytes_short q _ (by rw [e26_6]; decide) ?_ h rest
  rw [word_32 q e26_6]
  simp only [Decode.opState, e0_4, e4_12, e16_5, e21_5, reduceIte, BitVec.reduceEq, and_true, and_false, false_and]

theorem RoundTrip.puts (a : RegNo) (i : BitVec 12) : RoundTrip.Statement (.puts a i) := by
  intro _ h rest
  change Decode.bytes (bytesOfWords [(0x32#6 ++ 0x0#5 ++ a ++ i ++ 0x1#4 : Word32)] ++ rest) = _
  generalize hq : (0x32#6 ++ 0x0#5 ++ a ++ i ++ 0x1#4 : Word32) = q
  obtain ⟨e26_6, e21_5, e16_5, e4_12, e0_4⟩ := fields_6_5_5_12_4 _ _ _ _ _ q hq.symm
  refine bytes_short q _ (by rw [e26_6]; decide) ?_ h rest
  rw [word_32 q e26_6]
  simp only [Decode.opState, e0_4, e4_12, e16_5, e21_5, reduceIte, BitVec.reduceEq, and_true, and_false, false_and]

theorem RoundTrip.mwait (d : RegNo) (a : RegNo) : RoundTrip.Statement (.mwait d a) := by
  intro _ h rest
  change Decode.bytes (bytesOfWords [(0x33#6 ++ d ++ a ++ 0x0#16 : Word32)] ++ rest) = _
  generalize hq : (0x33#6 ++ d ++ a ++ 0x0#16 : Word32) = q
  obtain ⟨e26_6, e21_5, e16_5, e0_16⟩ := fields_6_5_5_16 _ _ _ _ q hq.symm
  refine bytes_short q _ (by rw [e26_6]; decide) ?_ h rest
  rw [word_33 q e26_6]
  simp only [Decode.opWait, e0_16, e16_5, e21_5, reduceIte, BitVec.reduceEq]

theorem RoundTrip.phreg (m : BitVec 2) (n : BitVec 10) : RoundTrip.Statement (.phreg m n) := by
  intro _ h rest
  change Decode.bytes (bytesOfWords [(0x33#6 ++ 0x0#10 ++ m ++ n ++ 0x1#4 : Word32)] ++ rest) = _
  generalize hq : (0x33#6 ++ 0x0#10 ++ m ++ n ++ 0x1#4 : Word32) = q
  obtain ⟨e26_6, e16_10, e14_2, e4_10, e0_4⟩ := fields_6_10_2_10_4 _ _ _ _ _ q hq.symm
  refine bytes_short q _ (by rw [e26_6]; decide) ?_ h rest
  rw [word_33 q e26_6]
  have n0_16_0 : ¬ q.extractLsb' 0 16 = 0#16 := fun e =>
    absurd ((field_part e0_4 0 4 (by decide) (by decide)).symm.trans (field_part e 0 4 (by decide) (by decide))) (by decide)
  simp only [Decode.opWait, e0_4, e4_10, e14_2, e16_10, n0_16_0, reduceIte, BitVec.reduceEq, and_true, and_false, false_and]

theorem RoundTrip.phdrop (n : BitVec 10) : RoundTrip.Statement (.phdrop n) := by
  intro _ h rest
  change Decode.bytes (bytesOfWords [(0x33#6 ++ 0x0#12 ++ n ++ 0x2#4 : Word32)] ++ rest) = _
  generalize hq : (0x33#6 ++ 0x0#12 ++ n ++ 0x2#4 : Word32) = q
  obtain ⟨e26_6, e14_12, e4_10, e0_4⟩ := fields_6_12_10_4 _ _ _ _ q hq.symm
  refine bytes_short q _ (by rw [e26_6]; decide) ?_ h rest
  rw [word_33 q e26_6]
  have n0_16_0 : ¬ q.extractLsb' 0 16 = 0#16 := fun e =>
    absurd ((field_part e0_4 0 4 (by decide) (by decide)).symm.trans (field_part e 0 4 (by decide) (by decide))) (by decide)
  have e16_10 : q.extractLsb' 16 10 = 0#10 := field_part e14_12 16 10 (by decide) (by decide)
  simp only [Decode.opWait, e0_4, e4_10, e14_12, e16_10, n0_16_0, reduceIte, BitVec.reduceEq, and_true, and_false, false_and]

theorem RoundTrip.phsig (n : BitVec 10) : RoundTrip.Statement (.phsig n) := by
  intro _ h rest
  change Decode.bytes (bytesOfWords [(0x33#6 ++ 0x0#12 ++ n ++ 0x3#4 : Word32)] ++ rest) = _
  generalize hq : (0x33#6 ++ 0x0#12 ++ n ++ 0x3#4 : Word32) = q
  obtain ⟨e26_6, e14_12, e4_10, e0_4⟩ := fields_6_12_10_4 _ _ _ _ q hq.symm
  refine bytes_short q _ (by rw [e26_6]; decide) ?_ h rest
  rw [word_33 q e26_6]
  have n0_16_0 : ¬ q.extractLsb' 0 16 = 0#16 := fun e =>
    absurd ((field_part e0_4 0 4 (by decide) (by decide)).symm.trans (field_part e 0 4 (by decide) (by decide))) (by decide)
  have e16_10 : q.extractLsb' 16 10 = 0#10 := field_part e14_12 16 10 (by decide) (by decide)
  simp only [Decode.opWait, e0_4, e4_10, e14_12, e16_10, n0_16_0, reduceIte, BitVec.reduceEq, and_true, and_false, false_and]

theorem RoundTrip.phwait (d : RegNo) (n : BitVec 10) : RoundTrip.Statement (.phwait d n) := by
  intro _ h rest
  change Decode.bytes (bytesOfWords [(0x33#6 ++ d ++ 0x0#7 ++ n ++ 0x4#4 : Word32)] ++ rest) = _
  generalize hq : (0x33#6 ++ d ++ 0x0#7 ++ n ++ 0x4#4 : Word32) = q
  obtain ⟨e26_6, e21_5, e14_7, e4_10, e0_4⟩ := fields_6_5_7_10_4 _ _ _ _ _ q hq.symm
  refine bytes_short q _ (by rw [e26_6]; decide) ?_ h rest
  rw [word_33 q e26_6]
  have n0_16_0 : ¬ q.extractLsb' 0 16 = 0#16 := fun e =>
    absurd ((field_part e0_4 0 4 (by decide) (by decide)).symm.trans (field_part e 0 4 (by decide) (by decide))) (by decide)
  simp only [Decode.opWait, e0_4, e4_10, e14_7, e21_5, n0_16_0, reduceIte, BitVec.reduceEq, and_true, and_false, false_and]

theorem RoundTrip.semsig (a : RegNo) (n : BitVec 8) : RoundTrip.Statement (.semsig a n) := by
  intro _ h rest
  change Decode.bytes (bytesOfWords [(0x33#6 ++ 0x0#5 ++ a ++ 0x0#4 ++ n ++ 0x5#4 : Word32)] ++ rest) = _
  generalize hq : (0x33#6 ++ 0x0#5 ++ a ++ 0x0#4 ++ n ++ 0x5#4 : Word32) = q
  obtain ⟨e26_6, e21_5, e16_5, e12_4, e4_8, e0_4⟩ := fields_6_5_5_4_8_4 _ _ _ _ _ _ q hq.symm
  refine bytes_short q _ (by rw [e26_6]; decide) ?_ h rest
  rw [word_33 q e26_6]
  have n0_16_0 : ¬ q.extractLsb' 0 16 = 0#16 := fun e =>
    absurd ((field_part e0_4 0 4 (by decide) (by decide)).symm.trans (field_part e 0 4 (by decide) (by decide))) (by decide)
  simp only [Decode.opWait, e0_4, e4_8, e12_4, e16_5, e21_5, n0_16_0, reduceIte, BitVec.reduceEq, and_true, and_false, false_and]

theorem RoundTrip.semwait (a : RegNo) (n : BitVec 8) : RoundTrip.Statement (.semwait a n) := by
  intro _ h rest
  change Decode.bytes (bytesOfWords [(0x33#6 ++ 0x0#5 ++ a ++ 0x0#4 ++ n ++ 0x6#4 : Word32)] ++ rest) = _
  generalize hq : (0x33#6 ++ 0x0#5 ++ a ++ 0x0#4 ++ n ++ 0x6#4 : Word32) = q
  obtain ⟨e26_6, e21_5, e16_5, e12_4, e4_8, e0_4⟩ := fields_6_5_5_4_8_4 _ _ _ _ _ _ q hq.symm
  refine bytes_short q _ (by rw [e26_6]; decide) ?_ h rest
  rw [word_33 q e26_6]
  have n0_16_0 : ¬ q.extractLsb' 0 16 = 0#16 := fun e =>
    absurd ((field_part e0_4 0 4 (by decide) (by decide)).symm.trans (field_part e 0 4 (by decide) (by decide))) (by decide)
  simp only [Decode.opWait, e0_4, e4_8, e12_4, e16_5, e21_5, n0_16_0, reduceIte, BitVec.reduceEq, and_true, and_false, false_and]

theorem RoundTrip.semwaitS (a : RegNo) (n : BitVec 8) : RoundTrip.Statement (.semwaitS a n) := by
  intro _ h rest
  change Decode.bytes (bytesOfWords [(0x33#6 ++ 0x0#5 ++ a ++ 0x0#4 ++ n ++ 0x7#4 : Word32)] ++ rest) = _
  generalize hq : (0x33#6 ++ 0x0#5 ++ a ++ 0x0#4 ++ n ++ 0x7#4 : Word32) = q
  obtain ⟨e26_6, e21_5, e16_5, e12_4, e4_8, e0_4⟩ := fields_6_5_5_4_8_4 _ _ _ _ _ _ q hq.symm
  refine bytes_short q _ (by rw [e26_6]; decide) ?_ h rest
  rw [word_33 q e26_6]
  have n0_16_0 : ¬ q.extractLsb' 0 16 = 0#16 := fun e =>
    absurd ((field_part e0_4 0 4 (by decide) (by decide)).symm.trans (field_part e 0 4 (by decide) (by decide))) (by decide)
  simp only [Decode.opWait, e0_4, e4_8, e12_4, e16_5, e21_5, n0_16_0, reduceIte, BitVec.reduceEq, and_true, and_false, false_and]

theorem RoundTrip.semrd (d : RegNo) (n : BitVec 8) : RoundTrip.Statement (.semrd d n) := by
  intro _ h rest
  change Decode.bytes (bytesOfWords [(0x33#6 ++ d ++ 0x0#9 ++ n ++ 0x8#4 : Word32)] ++ rest) = _
  generalize hq : (0x33#6 ++ d ++ 0x0#9 ++ n ++ 0x8#4 : Word32) = q
  obtain ⟨e26_6, e21_5, e12_9, e4_8, e0_4⟩ := fields_6_5_9_8_4 _ _ _ _ _ q hq.symm
  refine bytes_short q _ (by rw [e26_6]; decide) ?_ h rest
  rw [word_33 q e26_6]
  have n0_16_0 : ¬ q.extractLsb' 0 16 = 0#16 := fun e =>
    absurd ((field_part e0_4 0 4 (by decide) (by decide)).symm.trans (field_part e 0 4 (by decide) (by decide))) (by decide)
  have e14_7 : q.extractLsb' 14 7 = 0#7 := field_part e12_9 14 7 (by decide) (by decide)
  have e12_4 : q.extractLsb' 12 4 = 0#4 := field_part e12_9 12 4 (by decide) (by decide)
  simp only [Decode.opWait, e0_4, e4_8, e12_4, e12_9, e14_7, e21_5, n0_16_0, reduceIte, BitVec.reduceEq, and_true, and_false, false_and]

theorem RoundTrip.spawn (d : RegNo) (a : RegNo) : RoundTrip.Statement (.spawn d a) := by
  intro _ h rest
  change Decode.bytes (bytesOfWords [(0x34#6 ++ d ++ a ++ 0x0#16 : Word32)] ++ rest) = _
  generalize hq : (0x34#6 ++ d ++ a ++ 0x0#16 : Word32) = q
  obtain ⟨e26_6, e21_5, e16_5, e0_16⟩ := fields_6_5_5_16 _ _ _ _ q hq.symm
  refine bytes_short q _ (by rw [e26_6]; decide) ?_ h rest
  rw [word_34 q e26_6]
  simp only [Decode.opPeg, e0_16, e16_5, e21_5, reduceIte, BitVec.reduceEq]

theorem RoundTrip.join : RoundTrip.Statement (.join) := by
  intro _ h rest
  change Decode.bytes (bytesOfWords [(0x34#6 ++ 0x1#26 : Word32)] ++ rest) = _
  generalize hq : (0x34#6 ++ 0x1#26 : Word32) = q
  obtain ⟨e26_6, e0_26⟩ := fields_6_26 _ _ q hq.symm
  refine bytes_short q _ (by rw [e26_6]; decide) ?_ h rest
  rw [word_34 q e26_6]
  have e0_16 : q.extractLsb' 0 16 = 1#16 := field_part e0_26 0 16 (by decide) (by decide)
  simp only [Decode.opPeg, e0_16, e0_26, reduceIte, BitVec.reduceEq]

theorem RoundTrip.yield : RoundTrip.Statement (.yield) := by
  intro _ h rest
  change Decode.bytes (bytesOfWords [(0x34#6 ++ 0x2#26 : Word32)] ++ rest) = _
  generalize hq : (0x34#6 ++ 0x2#26 : Word32) = q
  obtain ⟨e26_6, e0_26⟩ := fields_6_26 _ _ q hq.symm
  refine bytes_short q _ (by rw [e26_6]; decide) ?_ h rest
  rw [word_34 q e26_6]
  have e0_16 : q.extractLsb' 0 16 = 2#16 := field_part e0_26 0 16 (by decide) (by decide)
  simp only [Decode.opPeg, e0_16, e0_26, reduceIte, BitVec.reduceEq]

theorem RoundTrip.exit : RoundTrip.Statement (.exit) := by
  intro _ h rest
  change Decode.bytes (bytesOfWords [(0x34#6 ++ 0x3#26 : Word32)] ++ rest) = _
  generalize hq : (0x34#6 ++ 0x3#26 : Word32) = q
  obtain ⟨e26_6, e0_26⟩ := fields_6_26 _ _ q hq.symm
  refine bytes_short q _ (by rw [e26_6]; decide) ?_ h rest
  rw [word_34 q e26_6]
  have e0_16 : q.extractLsb' 0 16 = 3#16 := field_part e0_26 0 16 (by decide) (by decide)
  simp only [Decode.opPeg, e0_16, e0_26, reduceIte, BitVec.reduceEq]

theorem RoundTrip.bentNew (d : RegNo) (a : RegNo) : RoundTrip.Statement (.bentNew d a) := by
  intro _ h rest
  change Decode.bytes (bytesOfWords [(0x34#6 ++ d ++ a ++ 0x4#16 : Word32)] ++ rest) = _
  generalize hq : (0x34#6 ++ d ++ a ++ 0x4#16 : Word32) = q
  obtain ⟨e26_6, e21_5, e16_5, e0_16⟩ := fields_6_5_5_16 _ _ _ _ q hq.symm
  refine bytes_short q _ (by rw [e26_6]; decide) ?_ h rest
  rw [word_34 q e26_6]
  have n0_26_1 : ¬ q.extractLsb' 0 26 = 1#26 := fun e =>
    absurd ((field_part e0_16 0 16 (by decide) (by decide)).symm.trans (field_part e 0 16 (by decide) (by decide))) (by decide)
  have n0_26_2 : ¬ q.extractLsb' 0 26 = 2#26 := fun e =>
    absurd ((field_part e0_16 0 16 (by decide) (by decide)).symm.trans (field_part e 0 16 (by decide) (by decide))) (by decide)
  have n0_26_3 : ¬ q.extractLsb' 0 26 = 3#26 := fun e =>
    absurd ((field_part e0_16 0 16 (by decide) (by decide)).symm.trans (field_part e 0 16 (by decide) (by decide))) (by decide)
  simp only [Decode.opPeg, e0_16, e16_5, e21_5, n0_26_1, n0_26_2, n0_26_3, reduceIte, BitVec.reduceEq]

theorem RoundTrip.bentKill (a : RegNo) : RoundTrip.Statement (.bentKill a) := by
  intro _ h rest
  change Decode.bytes (bytesOfWords [(0x34#6 ++ 0x0#5 ++ a ++ 0x5#16 : Word32)] ++ rest) = _
  generalize hq : (0x34#6 ++ 0x0#5 ++ a ++ 0x5#16 : Word32) = q
  obtain ⟨e26_6, e21_5, e16_5, e0_16⟩ := fields_6_5_5_16 _ _ _ _ q hq.symm
  refine bytes_short q _ (by rw [e26_6]; decide) ?_ h rest
  rw [word_34 q e26_6]
  have n0_26_1 : ¬ q.extractLsb' 0 26 = 1#26 := fun e =>
    absurd ((field_part e0_16 0 16 (by decide) (by decide)).symm.trans (field_part e 0 16 (by decide) (by decide))) (by decide)
  have n0_26_2 : ¬ q.extractLsb' 0 26 = 2#26 := fun e =>
    absurd ((field_part e0_16 0 16 (by decide) (by decide)).symm.trans (field_part e 0 16 (by decide) (by decide))) (by decide)
  have n0_26_3 : ¬ q.extractLsb' 0 26 = 3#26 := fun e =>
    absurd ((field_part e0_16 0 16 (by decide) (by decide)).symm.trans (field_part e 0 16 (by decide) (by decide))) (by decide)
  simp only [Decode.opPeg, e0_16, e16_5, e21_5, n0_26_1, n0_26_2, n0_26_3, reduceIte, BitVec.reduceEq, and_true, and_false, false_and]

theorem RoundTrip.enq (d : RegNo) (a : RegNo) : RoundTrip.Statement (.enq d a) := by
  intro _ h rest
  change Decode.bytes (bytesOfWords [(0x34#6 ++ d ++ a ++ 0x6#16 : Word32)] ++ rest) = _
  generalize hq : (0x34#6 ++ d ++ a ++ 0x6#16 : Word32) = q
  obtain ⟨e26_6, e21_5, e16_5, e0_16⟩ := fields_6_5_5_16 _ _ _ _ q hq.symm
  refine bytes_short q _ (by rw [e26_6]; decide) ?_ h rest
  rw [word_34 q e26_6]
  have n0_26_1 : ¬ q.extractLsb' 0 26 = 1#26 := fun e =>
    absurd ((field_part e0_16 0 16 (by decide) (by decide)).symm.trans (field_part e 0 16 (by decide) (by decide))) (by decide)
  have n0_26_2 : ¬ q.extractLsb' 0 26 = 2#26 := fun e =>
    absurd ((field_part e0_16 0 16 (by decide) (by decide)).symm.trans (field_part e 0 16 (by decide) (by decide))) (by decide)
  have n0_26_3 : ¬ q.extractLsb' 0 26 = 3#26 := fun e =>
    absurd ((field_part e0_16 0 16 (by decide) (by decide)).symm.trans (field_part e 0 16 (by decide) (by decide))) (by decide)
  simp only [Decode.opPeg, e0_16, e16_5, e21_5, n0_26_1, n0_26_2, n0_26_3, reduceIte, BitVec.reduceEq, and_true, and_false, false_and]

theorem RoundTrip.scrbInit (a : RegNo) (t : BitVec 4) : RoundTrip.Statement (.scrbInit a t) := by
  intro _ h rest
  change Decode.bytes (bytesOfWords [(0x35#6 ++ 0x0#5 ++ a ++ 0x0#8 ++ t ++ 0x0#4 : Word32)] ++ rest) = _
  generalize hq : (0x35#6 ++ 0x0#5 ++ a ++ 0x0#8 ++ t ++ 0x0#4 : Word32) = q
  obtain ⟨e26_6, e21_5, e16_5, e8_8, e4_4, e0_4⟩ := fields_6_5_5_8_4_4 _ _ _ _ _ _ q hq.symm
  refine bytes_short q _ (by rw [e26_6]; decide) ?_ h rest
  rw [word_35 q e26_6]
  simp only [Decode.opScribe, e0_4, e4_4, e8_8, e16_5, e21_5, reduceIte, BitVec.reduceEq, and_true, and_false, false_and]

theorem RoundTrip.scrbNext (d : RegNo) (a : RegNo) : RoundTrip.Statement (.scrbNext d a) := by
  intro _ h rest
  change Decode.bytes (bytesOfWords [(0x35#6 ++ d ++ a ++ 0x1#16 : Word32)] ++ rest) = _
  generalize hq : (0x35#6 ++ d ++ a ++ 0x1#16 : Word32) = q
  obtain ⟨e26_6, e21_5, e16_5, e0_16⟩ := fields_6_5_5_16 _ _ _ _ q hq.symm
  refine bytes_short q _ (by rw [e26_6]; decide) ?_ h rest
  rw [word_35 q e26_6]
  have e0_4 : q.extractLsb' 0 4 = 1#4 := field_part e0_16 0 4 (by decide) (by decide)
  have e8_8 : q.extractLsb' 8 8 = 0#8 := field_part e0_16 8 8 (by decide) (by decide)
  simp only [Decode.opScribe, e0_4, e0_16, e8_8, e16_5, e21_5, reduceIte, BitVec.reduceEq, and_true, and_false, false_and]

theorem RoundTrip.scrbRd (d : RegNo) (a : RegNo) (w : BitVec 5) : RoundTrip.Statement (.scrbRd d a w) := by
  intro _ h rest
  change Decode.bytes (bytesOfWords [(0x35#6 ++ d ++ a ++ 0x0#7 ++ w ++ 0x2#4 : Word32)] ++ rest) = _
  generalize hq : (0x35#6 ++ d ++ a ++ 0x0#7 ++ w ++ 0x2#4 : Word32) = q
  obtain ⟨e26_6, e21_5, e16_5, e9_7, e4_5, e0_4⟩ := fields_6_5_5_7_5_4 _ _ _ _ _ _ q hq.symm
  refine bytes_short q _ (by rw [e26_6]; decide) ?_ h rest
  rw [word_35 q e26_6]
  have n0_16_1 : ¬ q.extractLsb' 0 16 = 1#16 := fun e =>
    absurd ((field_part e0_4 0 4 (by decide) (by decide)).symm.trans (field_part e 0 4 (by decide) (by decide))) (by decide)
  simp only [Decode.opScribe, e0_4, e4_5, e9_7, e16_5, e21_5, n0_16_1, reduceIte, BitVec.reduceEq, and_true, and_false, false_and]

theorem RoundTrip.qscalePow2 (d : RegNo) (a : RegNo) (t : BitVec 4) (v : BitVec 1) (w : BitVec 2) : RoundTrip.Statement (.qscalePow2 d a t v w) := by
  intro _ h rest
  change Decode.bytes (bytesOfWords [(0x35#6 ++ d ++ a ++ t ++ v ++ w ++ 0x3#9 : Word32)] ++ rest) = _
  generalize hq : (0x35#6 ++ d ++ a ++ t ++ v ++ w ++ 0x3#9 : Word32) = q
  obtain ⟨e26_6, e21_5, e16_5, e12_4, e11_1, e9_2, e0_9⟩ := fields_6_5_5_4_1_2_9 _ _ _ _ _ _ _ q hq.symm
  refine bytes_short q _ (by rw [e26_6]; decide) ?_ h rest
  rw [word_35 q e26_6]
  have e0_4 : q.extractLsb' 0 4 = 3#4 := field_part e0_9 0 4 (by decide) (by decide)
  have n0_16_1 : ¬ q.extractLsb' 0 16 = 1#16 := fun e =>
    absurd ((field_part e0_9 0 9 (by decide) (by decide)).symm.trans (field_part e 0 9 (by decide) (by decide))) (by decide)
  simp only [Decode.opScribe, e0_4, e0_9, e9_2, e11_1, e12_4, e16_5, e21_5, n0_16_1, reduceIte, BitVec.reduceEq, and_true, and_false, false_and]

theorem RoundTrip.qscaleExact (d : RegNo) (a : RegNo) (t : BitVec 4) (v : BitVec 1) (w : BitVec 2) (m : BitVec 2) : RoundTrip.Statement (.qscaleExact d a t v w m) := by
  intro _ h rest
  change Decode.bytes (bytesOfWords [(0x35#6 ++ d ++ a ++ t ++ v ++ w ++ 0x1#1 ++ m ++ 0x3#6 : Word32)] ++ rest) = _
  generalize hq : (0x35#6 ++ d ++ a ++ t ++ v ++ w ++ 0x1#1 ++ m ++ 0x3#6 : Word32) = q
  obtain ⟨e26_6, e21_5, e16_5, e12_4, e11_1, e9_2, e8_1, e6_2, e0_6⟩ := fields_6_5_5_4_1_2_1_2_6 _ _ _ _ _ _ _ _ _ q hq.symm
  refine bytes_short q _ (by rw [e26_6]; decide) ?_ h rest
  rw [word_35 q e26_6]
  have e0_4 : q.extractLsb' 0 4 = 3#4 := field_part e0_6 0 4 (by decide) (by decide)
  have n8_8_0 : ¬ q.extractLsb' 8 8 = 0#8 := fun e =>
    absurd ((field_part e8_1 8 1 (by decide) (by decide)).symm.trans (field_part e 8 1 (by decide) (by decide))) (by decide)
  have n0_16_1 : ¬ q.extractLsb' 0 16 = 1#16 := fun e =>
    absurd ((field_part e8_1 8 1 (by decide) (by decide)).symm.trans (field_part e 8 1 (by decide) (by decide))) (by decide)
  have n0_9_3 : ¬ q.extractLsb' 0 9 = 3#9 := fun e =>
    absurd ((field_part e8_1 8 1 (by decide) (by decide)).symm.trans (field_part e 8 1 (by decide) (by decide))) (by decide)
  simp only [Decode.opScribe, e0_4, e0_6, e6_2, e8_1, e9_2, e11_1, e12_4, e16_5, e21_5, n8_8_0, n0_16_1, n0_9_3, reduceIte, BitVec.reduceEq, and_true, and_false, false_and]

theorem RoundTrip.est (d : RegNo) (a : RegNo) (i : BitVec 12) : RoundTrip.Statement (.est d a i) := by
  intro _ h rest
  change Decode.bytes (bytesOfWords [(0x36#6 ++ d ++ a ++ i ++ 0x0#4 : Word32)] ++ rest) = _
  generalize hq : (0x36#6 ++ d ++ a ++ i ++ 0x0#4 : Word32) = q
  obtain ⟨e26_6, e21_5, e16_5, e4_12, e0_4⟩ := fields_6_5_5_12_4 _ _ _ _ _ q hq.symm
  refine bytes_short q _ (by rw [e26_6]; decide) ?_ h rest
  rw [word_36 q e26_6]
  simp only [Decode.opEngine, e0_4, e4_12, e16_5, e21_5, reduceIte, BitVec.reduceEq]

theorem RoundTrip.eld (d : RegNo) (a : RegNo) (i : BitVec 12) : RoundTrip.Statement (.eld d a i) := by
  intro _ h rest
  change Decode.bytes (bytesOfWords [(0x36#6 ++ d ++ a ++ i ++ 0x1#4 : Word32)] ++ rest) = _
  generalize hq : (0x36#6 ++ d ++ a ++ i ++ 0x1#4 : Word32) = q
  obtain ⟨e26_6, e21_5, e16_5, e4_12, e0_4⟩ := fields_6_5_5_12_4 _ _ _ _ _ q hq.symm
  refine bytes_short q _ (by rw [e26_6]; decide) ?_ h rest
  rw [word_36 q e26_6]
  simp only [Decode.opEngine, e0_4, e4_12, e16_5, e21_5, reduceIte, BitVec.reduceEq]

theorem RoundTrip.trap (i : BitVec 12) : RoundTrip.Statement (.trap i) := by
  intro _ h rest
  change Decode.bytes (bytesOfWords [(0x37#6 ++ 0x0#10 ++ i ++ 0x0#4 : Word32)] ++ rest) = _
  generalize hq : (0x37#6 ++ 0x0#10 ++ i ++ 0x0#4 : Word32) = q
  obtain ⟨e26_6, e16_10, e4_12, e0_4⟩ := fields_6_10_12_4 _ _ _ _ q hq.symm
  refine bytes_short q _ (by rw [e26_6]; decide) ?_ h rest
  rw [word_37 q e26_6]
  simp only [Decode.opSystem, e0_4, e4_12, e16_10, reduceIte, BitVec.reduceEq, and_true, and_false, false_and]

theorem RoundTrip.tret : RoundTrip.Statement (.tret) := by
  intro _ h rest
  change Decode.bytes (bytesOfWords [(0x37#6 ++ 0x1#26 : Word32)] ++ rest) = _
  generalize hq : (0x37#6 ++ 0x1#26 : Word32) = q
  obtain ⟨e26_6, e0_26⟩ := fields_6_26 _ _ q hq.symm
  refine bytes_short q _ (by rw [e26_6]; decide) ?_ h rest
  rw [word_37 q e26_6]
  have e0_4 : q.extractLsb' 0 4 = 1#4 := field_part e0_26 0 4 (by decide) (by decide)
  have e16_10 : q.extractLsb' 16 10 = 0#10 := field_part e0_26 16 10 (by decide) (by decide)
  simp only [Decode.opSystem, e0_4, e0_26, e16_10, reduceIte, BitVec.reduceEq, and_true, and_false, false_and]

theorem RoundTrip.ecall (i : BitVec 12) : RoundTrip.Statement (.ecall i) := by
  intro _ h rest
  change Decode.bytes (bytesOfWords [(0x37#6 ++ 0x0#10 ++ i ++ 0x2#4 : Word32)] ++ rest) = _
  generalize hq : (0x37#6 ++ 0x0#10 ++ i ++ 0x2#4 : Word32) = q
  obtain ⟨e26_6, e16_10, e4_12, e0_4⟩ := fields_6_10_12_4 _ _ _ _ q hq.symm
  refine bytes_short q _ (by rw [e26_6]; decide) ?_ h rest
  rw [word_37 q e26_6]
  have n0_26_1 : ¬ q.extractLsb' 0 26 = 1#26 := fun e =>
    absurd ((field_part e0_4 0 4 (by decide) (by decide)).symm.trans (field_part e 0 4 (by decide) (by decide))) (by decide)
  simp only [Decode.opSystem, e0_4, e4_12, e16_10, n0_26_1, reduceIte, BitVec.reduceEq, and_true, and_false, false_and]

theorem RoundTrip.tlbi (a : RegNo) : RoundTrip.Statement (.tlbi a) := by
  intro _ h rest
  change Decode.bytes (bytesOfWords [(0x37#6 ++ 0x0#5 ++ a ++ 0x3#16 : Word32)] ++ rest) = _
  generalize hq : (0x37#6 ++ 0x0#5 ++ a ++ 0x3#16 : Word32) = q
  obtain ⟨e26_6, e21_5, e16_5, e0_16⟩ := fields_6_5_5_16 _ _ _ _ q hq.symm
  refine bytes_short q _ (by rw [e26_6]; decide) ?_ h rest
  rw [word_37 q e26_6]
  have e0_4 : q.extractLsb' 0 4 = 3#4 := field_part e0_16 0 4 (by decide) (by decide)
  have n0_26_1 : ¬ q.extractLsb' 0 26 = 1#26 := fun e =>
    absurd ((field_part e0_16 0 16 (by decide) (by decide)).symm.trans (field_part e 0 16 (by decide) (by decide))) (by decide)
  simp only [Decode.opSystem, e0_4, e0_16, e16_5, e21_5, n0_26_1, reduceIte, BitVec.reduceEq, and_true, and_false, false_and]

theorem RoundTrip.tlbiAll : RoundTrip.Statement (.tlbiAll) := by
  intro _ h rest
  change Decode.bytes (bytesOfWords [(0x37#6 ++ 0x13#26 : Word32)] ++ rest) = _
  generalize hq : (0x37#6 ++ 0x13#26 : Word32) = q
  obtain ⟨e26_6, e0_26⟩ := fields_6_26 _ _ q hq.symm
  refine bytes_short q _ (by rw [e26_6]; decide) ?_ h rest
  rw [word_37 q e26_6]
  have e0_4 : q.extractLsb' 0 4 = 3#4 := field_part e0_26 0 4 (by decide) (by decide)
  have e16_10 : q.extractLsb' 16 10 = 0#10 := field_part e0_26 16 10 (by decide) (by decide)
  have e0_16 : q.extractLsb' 0 16 = 19#16 := field_part e0_26 0 16 (by decide) (by decide)
  have e21_5 : q.extractLsb' 21 5 = 0#5 := field_part e0_26 21 5 (by decide) (by decide)
  simp only [Decode.opSystem, e0_4, e0_16, e0_26, e16_10, e21_5, reduceIte, BitVec.reduceEq, and_true, and_false, false_and]

theorem RoundTrip.klock (d : RegNo) (a : RegNo) : RoundTrip.Statement (.klock d a) := by
  intro _ h rest
  change Decode.bytes (bytesOfWords [(0x37#6 ++ d ++ a ++ 0x4#16 : Word32)] ++ rest) = _
  generalize hq : (0x37#6 ++ d ++ a ++ 0x4#16 : Word32) = q
  obtain ⟨e26_6, e21_5, e16_5, e0_16⟩ := fields_6_5_5_16 _ _ _ _ q hq.symm
  refine bytes_short q _ (by rw [e26_6]; decide) ?_ h rest
  rw [word_37 q e26_6]
  have e0_4 : q.extractLsb' 0 4 = 4#4 := field_part e0_16 0 4 (by decide) (by decide)
  have n0_26_1 : ¬ q.extractLsb' 0 26 = 1#26 := fun e =>
    absurd ((field_part e0_16 0 16 (by decide) (by decide)).symm.trans (field_part e 0 16 (by decide) (by decide))) (by decide)
  have n0_26_19 : ¬ q.extractLsb' 0 26 = 19#26 := fun e =>
    absurd ((field_part e0_16 0 16 (by decide) (by decide)).symm.trans (field_part e 0 16 (by decide) (by decide))) (by decide)
  simp only [Decode.opSystem, e0_4, e0_16, e16_5, e21_5, n0_26_1, n0_26_19, reduceIte, BitVec.reduceEq, and_true, and_false, false_and]

theorem RoundTrip.kunlock (a : RegNo) : RoundTrip.Statement (.kunlock a) := by
  intro _ h rest
  change Decode.bytes (bytesOfWords [(0x37#6 ++ 0x0#5 ++ a ++ 0x5#16 : Word32)] ++ rest) = _
  generalize hq : (0x37#6 ++ 0x0#5 ++ a ++ 0x5#16 : Word32) = q
  obtain ⟨e26_6, e21_5, e16_5, e0_16⟩ := fields_6_5_5_16 _ _ _ _ q hq.symm
  refine bytes_short q _ (by rw [e26_6]; decide) ?_ h rest
  rw [word_37 q e26_6]
  have e0_4 : q.extractLsb' 0 4 = 5#4 := field_part e0_16 0 4 (by decide) (by decide)
  have n0_26_1 : ¬ q.extractLsb' 0 26 = 1#26 := fun e =>
    absurd ((field_part e0_16 0 16 (by decide) (by decide)).symm.trans (field_part e 0 16 (by decide) (by decide))) (by decide)
  have n0_26_19 : ¬ q.extractLsb' 0 26 = 19#26 := fun e =>
    absurd ((field_part e0_16 0 16 (by decide) (by decide)).symm.trans (field_part e 0 16 (by decide) (by decide))) (by decide)
  simp only [Decode.opSystem, e0_4, e0_16, e16_5, e21_5, n0_26_1, n0_26_19, reduceIte, BitVec.reduceEq, and_true, and_false, false_and]

theorem RoundTrip.iflush : RoundTrip.Statement (.iflush) := by
  intro _ h rest
  change Decode.bytes (bytesOfWords [(0x37#6 ++ 0x6#26 : Word32)] ++ rest) = _
  generalize hq : (0x37#6 ++ 0x6#26 : Word32) = q
  obtain ⟨e26_6, e0_26⟩ := fields_6_26 _ _ q hq.symm
  refine bytes_short q _ (by rw [e26_6]; decide) ?_ h rest
  rw [word_37 q e26_6]
  have e0_4 : q.extractLsb' 0 4 = 6#4 := field_part e0_26 0 4 (by decide) (by decide)
  have e16_10 : q.extractLsb' 16 10 = 0#10 := field_part e0_26 16 10 (by decide) (by decide)
  have e0_16 : q.extractLsb' 0 16 = 6#16 := field_part e0_26 0 16 (by decide) (by decide)
  have e21_5 : q.extractLsb' 21 5 = 0#5 := field_part e0_26 21 5 (by decide) (by decide)
  simp only [Decode.opSystem, e0_4, e0_16, e0_26, e16_10, e21_5, reduceIte, BitVec.reduceEq, and_true, and_false, false_and]

theorem RoundTrip.tstamp (d : RegNo) : RoundTrip.Statement (.tstamp d) := by
  intro _ h rest
  change Decode.bytes (bytesOfWords [(0x37#6 ++ d ++ 0x7#21 : Word32)] ++ rest) = _
  generalize hq : (0x37#6 ++ d ++ 0x7#21 : Word32) = q
  obtain ⟨e26_6, e21_5, e0_21⟩ := fields_6_5_21 _ _ _ q hq.symm
  refine bytes_short q _ (by rw [e26_6]; decide) ?_ h rest
  rw [word_37 q e26_6]
  have e0_4 : q.extractLsb' 0 4 = 7#4 := field_part e0_21 0 4 (by decide) (by decide)
  have n0_26_1 : ¬ q.extractLsb' 0 26 = 1#26 := fun e =>
    absurd ((field_part e0_21 0 21 (by decide) (by decide)).symm.trans (field_part e 0 21 (by decide) (by decide))) (by decide)
  have e0_16 : q.extractLsb' 0 16 = 7#16 := field_part e0_21 0 16 (by decide) (by decide)
  have n0_26_19 : ¬ q.extractLsb' 0 26 = 19#26 := fun e =>
    absurd ((field_part e0_21 0 21 (by decide) (by decide)).symm.trans (field_part e 0 21 (by decide) (by decide))) (by decide)
  have n0_26_6 : ¬ q.extractLsb' 0 26 = 6#26 := fun e =>
    absurd ((field_part e0_21 0 21 (by decide) (by decide)).symm.trans (field_part e 0 21 (by decide) (by decide))) (by decide)
  simp only [Decode.opSystem, e0_4, e0_16, e0_21, e21_5, n0_26_1, n0_26_19, n0_26_6, reduceIte, BitVec.reduceEq, and_true, and_false, false_and]

theorem RoundTrip.jdrop (a : RegNo) : RoundTrip.Statement (.jdrop a) := by
  intro _ h rest
  change Decode.bytes (bytesOfWords [(0x37#6 ++ 0x0#5 ++ a ++ 0x8#16 : Word32)] ++ rest) = _
  generalize hq : (0x37#6 ++ 0x0#5 ++ a ++ 0x8#16 : Word32) = q
  obtain ⟨e26_6, e21_5, e16_5, e0_16⟩ := fields_6_5_5_16 _ _ _ _ q hq.symm
  refine bytes_short q _ (by rw [e26_6]; decide) ?_ h rest
  rw [word_37 q e26_6]
  have e0_4 : q.extractLsb' 0 4 = 8#4 := field_part e0_16 0 4 (by decide) (by decide)
  have n0_26_1 : ¬ q.extractLsb' 0 26 = 1#26 := fun e =>
    absurd ((field_part e0_16 0 16 (by decide) (by decide)).symm.trans (field_part e 0 16 (by decide) (by decide))) (by decide)
  have n0_26_19 : ¬ q.extractLsb' 0 26 = 19#26 := fun e =>
    absurd ((field_part e0_16 0 16 (by decide) (by decide)).symm.trans (field_part e 0 16 (by decide) (by decide))) (by decide)
  have n0_26_6 : ¬ q.extractLsb' 0 26 = 6#26 := fun e =>
    absurd ((field_part e0_16 0 16 (by decide) (by decide)).symm.trans (field_part e 0 16 (by decide) (by decide))) (by decide)
  have n0_21_7 : ¬ q.extractLsb' 0 21 = 7#21 := fun e =>
    absurd ((field_part e0_16 0 16 (by decide) (by decide)).symm.trans (field_part e 0 16 (by decide) (by decide))) (by decide)
  simp only [Decode.opSystem, e0_4, e0_16, e16_5, e21_5, n0_26_1, n0_26_19, n0_26_6, n0_21_7, reduceIte, BitVec.reduceEq, and_true, and_false, false_and]

theorem RoundTrip.bundleIssue (core : Nat) (ctx : Nat) : RoundTrip.Statement (.bundleIssue core ctx) :=
  fun h => absurd h (by simp [encode])

theorem RoundTrip.stallStep (core : Nat) (ctx : Nat) : RoundTrip.Statement (.stallStep core ctx) :=
  fun h => absurd h (by simp [encode])

theorem RoundTrip.imemLineFill (core : Nat) (ctx : Nat) : RoundTrip.Statement (.imemLineFill core ctx) :=
  fun h => absurd h (by simp [encode])

theorem RoundTrip.contextLaunch (core : Nat) : RoundTrip.Statement (.contextLaunch core) :=
  fun h => absurd h (by simp [encode])

theorem RoundTrip.contextHalt (core : Nat) (ctx : Nat) : RoundTrip.Statement (.contextHalt core ctx) :=
  fun h => absurd h (by simp [encode])

theorem RoundTrip.srfxFlagSet (core : Nat) (ctx : Nat) (k : Nat) : RoundTrip.Statement (.srfxFlagSet core ctx k) :=
  fun h => absurd h (by simp [encode])

theorem RoundTrip.semarmFlagSet (core : Nat) (ctx : Nat) (k : Nat) : RoundTrip.Statement (.semarmFlagSet core ctx k) :=
  fun h => absurd h (by simp [encode])

theorem RoundTrip.pharmFlagSet (core : Nat) (ctx : Nat) (k : Nat) : RoundTrip.Statement (.pharmFlagSet core ctx k) :=
  fun h => absurd h (by simp [encode])

theorem RoundTrip.commandStart (core : Nat) (q : Queue) : RoundTrip.Statement (.commandStart core q) :=
  fun h => absurd h (by simp [encode])

theorem RoundTrip.commandElement (core : Nat) (q : Queue) : RoundTrip.Statement (.commandElement core q) :=
  fun h => absurd h (by simp [encode])

theorem RoundTrip.commandComplete (core : Nat) (q : Queue) : RoundTrip.Statement (.commandComplete core q) :=
  fun h => absurd h (by simp [encode])

theorem RoundTrip.jigRunStart (core : Nat) : RoundTrip.Statement (.jigRunStart core) :=
  fun h => absurd h (by simp [encode])

theorem RoundTrip.jigStep (core : Nat) (r : ResidueCheck) : RoundTrip.Statement (.jigStep core r) :=
  fun h => absurd h (by simp [encode])

theorem RoundTrip.scribeMerge (idx : Nat) : RoundTrip.Statement (.scribeMerge idx) :=
  fun h => absurd h (by simp [encode])

theorem RoundTrip.pegDispatch (core : Nat) : RoundTrip.Statement (.pegDispatch core) :=
  fun h => absurd h (by simp [encode])

theorem RoundTrip.waitingPegReady (peg : Nat) : RoundTrip.Statement (.waitingPegReady peg) :=
  fun h => absurd h (by simp [encode])

theorem RoundTrip.mwaitSpinExpiry (core : Nat) : RoundTrip.Statement (.mwaitSpinExpiry core) :=
  fun h => absurd h (by simp [encode])

theorem RoundTrip.mwaitTimeout (peg : Nat) : RoundTrip.Statement (.mwaitTimeout peg) :=
  fun h => absurd h (by simp [encode])

theorem RoundTrip.monitorLoss (peg : Nat) : RoundTrip.Statement (.monitorLoss peg) :=
  fun h => absurd h (by simp [encode])

theorem RoundTrip.priorityAgeing (bay : Nat) (bent : Nat) : RoundTrip.Statement (.priorityAgeing bay bent) :=
  fun h => absurd h (by simp [encode])

theorem RoundTrip.preemptionRequest (peg : Nat) : RoundTrip.Statement (.preemptionRequest peg) :=
  fun h => absurd h (by simp [encode])

theorem RoundTrip.contextRestFreeze (core : Nat) (ctx : Nat) : RoundTrip.Statement (.contextRestFreeze core ctx) :=
  fun h => absurd h (by simp [encode])

theorem RoundTrip.preemptionEscalated (core : Nat) (ctx : Nat) : RoundTrip.Statement (.preemptionEscalated core ctx) :=
  fun h => absurd h (by simp [encode])

theorem RoundTrip.preemptionComplete (core : Nat) : RoundTrip.Statement (.preemptionComplete core) :=
  fun h => absurd h (by simp [encode])

theorem RoundTrip.pegMigration (peg : Nat) (core : Nat) : RoundTrip.Statement (.pegMigration peg core) :=
  fun h => absurd h (by simp [encode])

theorem RoundTrip.trapDelivery : RoundTrip.Statement (.trapDelivery) :=
  fun h => absurd h (by simp [encode])

theorem RoundTrip.deferredDataTrap : RoundTrip.Statement (.deferredDataTrap) :=
  fun h => absurd h (by simp [encode])

theorem RoundTrip.kill (peg : Nat) : RoundTrip.Statement (.kill peg) :=
  fun h => absurd h (by simp [encode])

theorem RoundTrip.watchdog (core : Nat) : RoundTrip.Statement (.watchdog core) :=
  fun h => absurd h (by simp [encode])

theorem RoundTrip.accFirstUse (core : Nat) (w : AccWork) : RoundTrip.Statement (.accFirstUse core w) :=
  fun h => absurd h (by simp [encode])

theorem RoundTrip.bentRecordWriteback (bent : Nat) : RoundTrip.Statement (.bentRecordWriteback bent) :=
  fun h => absurd h (by simp [encode])

theorem RoundTrip.pageWalk (bay : Nat) (bent : Nat) (va : Word) : RoundTrip.Statement (.pageWalk bay bent va) :=
  fun h => absurd h (by simp [encode])

theorem RoundTrip.homeAccess (idx : Nat) (ecc : EccCheck) : RoundTrip.Statement (.homeAccess idx ecc) :=
  fun h => absurd h (by simp [encode])

theorem RoundTrip.mergeAtHome (idx : Nat) (other : Option Nat) : RoundTrip.Statement (.mergeAtHome idx other) :=
  fun h => absurd h (by simp [encode])

theorem RoundTrip.scrub (pa : Nat) (ecc : EccCheck) : RoundTrip.Statement (.scrub pa ecc) :=
  fun h => absurd h (by simp [encode])

theorem RoundTrip.sillRunStart (ch : Nat) : RoundTrip.Statement (.sillRunStart ch) :=
  fun h => absurd h (by simp [encode])

theorem RoundTrip.sillWait (ch : Nat) : RoundTrip.Statement (.sillWait ch) :=
  fun h => absurd h (by simp [encode])

theorem RoundTrip.sillMv (ch : Nat) : RoundTrip.Statement (.sillMv ch) :=
  fun h => absurd h (by simp [encode])

theorem RoundTrip.sillRd (ch : Nat) : RoundTrip.Statement (.sillRd ch) :=
  fun h => absurd h (by simp [encode])

theorem RoundTrip.sillWr (ch : Nat) : RoundTrip.Statement (.sillWr ch) :=
  fun h => absurd h (by simp [encode])

theorem RoundTrip.sillRef (ch : Nat) : RoundTrip.Statement (.sillRef ch) :=
  fun h => absurd h (by simp [encode])

theorem RoundTrip.sillGate (ch : Nat) : RoundTrip.Statement (.sillGate ch) :=
  fun h => absurd h (by simp [encode])

theorem RoundTrip.sillLds (ch : Nat) : RoundTrip.Statement (.sillLds ch) :=
  fun h => absurd h (by simp [encode])

theorem RoundTrip.sillPassEnd (ch : Nat) : RoundTrip.Statement (.sillPassEnd ch) :=
  fun h => absurd h (by simp [encode])

theorem RoundTrip.sillGateReread (ch : Nat) : RoundTrip.Statement (.sillGateReread ch) :=
  fun h => absurd h (by simp [encode])

theorem RoundTrip.sillGateTimeout (ch : Nat) : RoundTrip.Statement (.sillGateTimeout ch) :=
  fun h => absurd h (by simp [encode])

theorem RoundTrip.sillRefreshInsert (ch : Nat) : RoundTrip.Statement (.sillRefreshInsert ch) :=
  fun h => absurd h (by simp [encode])

theorem RoundTrip.fabricPacket (p : FabricPacket) : RoundTrip.Statement (.fabricPacket p) :=
  fun h => absurd h (by simp [encode])

theorem RoundTrip.fabricTimeout (idx : Nat) : RoundTrip.Statement (.fabricTimeout idx) :=
  fun h => absurd h (by simp [encode])

theorem RoundTrip.fabricErrorAnswer (idx : Nat) : RoundTrip.Statement (.fabricErrorAnswer idx) :=
  fun h => absurd h (by simp [encode])

theorem RoundTrip.linkBringUp (peer : Nat) (authentic : Bool) : RoundTrip.Statement (.linkBringUp peer authentic) :=
  fun h => absurd h (by simp [encode])

theorem RoundTrip.linkKeyRenewal (peer : Nat) : RoundTrip.Statement (.linkKeyRenewal peer) :=
  fun h => absurd h (by simp [encode])

theorem RoundTrip.collStepMessage (bay : Nat) (m : CollMsg) : RoundTrip.Statement (.collStepMessage bay m) :=
  fun h => absurd h (by simp [encode])

theorem RoundTrip.collTimeout (core : Nat) (n : BitVec 32) : RoundTrip.Statement (.collTimeout core n) :=
  fun h => absurd h (by simp [encode])

theorem RoundTrip.collAbtMessage (bay : Nat) (m : CollAbortMsg) : RoundTrip.Statement (.collAbtMessage bay m) :=
  fun h => absurd h (by simp [encode])

theorem RoundTrip.rdmaWrite (p : RocePacket) : RoundTrip.Statement (.rdmaWrite p) :=
  fun h => absurd h (by simp [encode])

theorem RoundTrip.rdmaRead (p : RocePacket) : RoundTrip.Statement (.rdmaRead p) :=
  fun h => absurd h (by simp [encode])

theorem RoundTrip.roceInvalidRequest (p : RocePacket) : RoundTrip.Statement (.roceInvalidRequest p) :=
  fun h => absurd h (by simp [encode])

theorem RoundTrip.arpRequest (port : Nat) (addr : List Byte) : RoundTrip.Statement (.arpRequest port addr) :=
  fun h => absurd h (by simp [encode])

theorem RoundTrip.neighborDiscovery (port : Nat) (addr : List Byte) : RoundTrip.Statement (.neighborDiscovery port addr) :=
  fun h => absurd h (by simp [encode])

theorem RoundTrip.frameDrop (f : EthFrame) : RoundTrip.Statement (.frameDrop f) :=
  fun h => absurd h (by simp [encode])

theorem RoundTrip.ptpMessage (m : PtpMessage) : RoundTrip.Statement (.ptpMessage m) :=
  fun h => absurd h (by simp [encode])

theorem RoundTrip.datagramDrop (dg : List Byte) : RoundTrip.Statement (.datagramDrop dg) :=
  fun h => absurd h (by simp [encode])

theorem RoundTrip.init (dg : List Byte) : RoundTrip.Statement (.init dg) :=
  fun h => absurd h (by simp [encode])

theorem RoundTrip.createBent (dg : List Byte) : RoundTrip.Statement (.createBent dg) :=
  fun h => absurd h (by simp [encode])

theorem RoundTrip.killBent (dg : List Byte) : RoundTrip.Statement (.killBent dg) :=
  fun h => absurd h (by simp [encode])

theorem RoundTrip.enqueuePeg (dg : List Byte) : RoundTrip.Statement (.enqueuePeg dg) :=
  fun h => absurd h (by simp [encode])

theorem RoundTrip.loadImage (dg : List Byte) : RoundTrip.Statement (.loadImage dg) :=
  fun h => absurd h (by simp [encode])

theorem RoundTrip.keyInstall (dg : List Byte) : RoundTrip.Statement (.keyInstall dg) :=
  fun h => absurd h (by simp [encode])

theorem RoundTrip.attestation (dg : List Byte) : RoundTrip.Statement (.attestation dg) :=
  fun h => absurd h (by simp [encode])

theorem RoundTrip.telemetry (dg : List Byte) : RoundTrip.Statement (.telemetry dg) :=
  fun h => absurd h (by simp [encode])

theorem RoundTrip.dumpRetrieval (dg : List Byte) : RoundTrip.Statement (.dumpRetrieval dg) :=
  fun h => absurd h (by simp [encode])

theorem RoundTrip.powerSample (m : PowerReading) : RoundTrip.Statement (.powerSample m) :=
  fun h => absurd h (by simp [encode])

theorem RoundTrip.thermalHold (bay : Nat) (temp : Int) : RoundTrip.Statement (.thermalHold bay temp) :=
  fun h => absurd h (by simp [encode])

theorem RoundTrip.thermalRelease (bay : Nat) (temp : Int) : RoundTrip.Statement (.thermalRelease bay temp) :=
  fun h => absurd h (by simp [encode])

theorem RoundTrip.thermalTrip (bay : Nat) (temp : Int) : RoundTrip.Statement (.thermalTrip bay temp) :=
  fun h => absurd h (by simp [encode])

theorem RoundTrip.inputPowerFault : RoundTrip.Statement (.inputPowerFault) :=
  fun h => absurd h (by simp [encode])

theorem RoundTrip.powerUp (b : BringUp) : RoundTrip.Statement (.powerUp b) :=
  fun h => absurd h (by simp [encode])

theorem RoundTrip.resetInput (b : BringUp) : RoundTrip.Statement (.resetInput b) :=
  fun h => absurd h (by simp [encode])

theorem RoundTrip.illegalInstruction : RoundTrip.Statement (.illegalInstruction) :=
  fun h => absurd h (by simp [encode])

theorem RoundTrip.instructionFetchFault : RoundTrip.Statement (.instructionFetchFault) :=
  fun h => absurd h (by simp [encode])

theorem RoundTrip.lineEviction (bay : Nat) (l : CachedAt) : RoundTrip.Statement (.lineEviction bay l) :=
  fun h => absurd h (by simp [encode])

theorem RoundTrip.collAbtMemberTimeout (core : Nat) (n : BitVec 32) : RoundTrip.Statement (.collAbtMemberTimeout core n) :=
  fun h => absurd h (by simp [encode])

theorem RoundTrip.configurationRecordUpdate (r : ConfigRecord) (signer : RecordSigner) : RoundTrip.Statement (.configurationRecordUpdate r signer) :=
  fun h => absurd h (by simp [encode])

theorem RoundTrip.firmwareStateError : RoundTrip.Statement (.firmwareStateError) :=
  fun h => absurd h (by simp [encode])

theorem RoundTrip.powerRemoval : RoundTrip.Statement (.powerRemoval) :=
  fun h => absurd h (by simp [encode])

/-! ## Long instructions -/

theorem dField_dReg (a : BitVec 4) : Decode.dField (Encode.dReg a) = some a := by
  revert a
  decide

theorem sldFlags_encode (m : SldMode) (cj : Bool) : Decode.sldFlags (Encode.sldFlags m cj) = some (m, cj) := by
  cases m <;> cases cj <;> rfl

theorem sstFlags_encode (q : SstQuant) : Decode.sstFlags (Encode.sstFlags q) = some q := by
  cases q with
  | none => rfl
  | pow2 dw => cases dw <;> rfl
  | exact m dw =>
    revert m
    cases dw <;> decide

theorem spaceFlags_encode (sp : LocalSpace) : Decode.spaceFlags (Encode.space sp) = some sp := by cases sp <;> rfl

theorem flag_high (b : Bool) : (0#5 ++ Encode.flag b).extractLsb' 1 5 = 0#5 := by cases b <;> rfl

theorem flag_low (b : Bool) : decide ((0#5 ++ Encode.flag b).extractLsb' 0 1 = 1#1) = b := by cases b <;> rfl

theorem bank_high (k : BitVec 4) : (0#2 ++ k).extractLsb' 4 2 = 0#2 := by
  revert k
  decide

theorem bank_low (k : BitVec 4) : (0#2 ++ k).extractLsb' 0 4 = k := by
  revert k
  decide

theorem waitSig_long1 (ws : WaitSig) : Decode.waitSig (Encode.long1 ws) = ws := by
  obtain ⟨e0, e1, e2, e3⟩ := fields_8_12_8_4 ws.wsem ws.wthr ws.ssem ws.sinc (Encode.long1 ws) rfl
  unfold Decode.waitSig
  rw [e0, e1, e2, e3]

theorem waitSig_noWait : Decode.waitSig Encode.noWait = ⟨255, 0, 255, 0⟩ := by decide

theorem RoundTrip.sld (mode : SldMode) (cj : Bool) (c : BitVec 4) (a : BitVec 4) (b : BitVec 4) (ws : WaitSig) : RoundTrip.Statement (.sld mode cj c a b ws) := by
  intro _ h rest
  change Decode.bytes (bytesOfWords [Encode.long0 0x01#6 (Encode.dReg a) (Encode.dReg b) c (Encode.sldFlags mode cj), Encode.long1 ws] ++ rest) = _
  obtain ⟨e26, e20, e15, e10, e6, e0⟩ := fields_6_6_5_5_4_6 0x3F#6 (0x01#6) ((Encode.dReg a)) ((Encode.dReg b)) (c) ((Encode.sldFlags mode cj)) (Encode.long0 0x01#6 (Encode.dReg a) (Encode.dReg b) c (Encode.sldFlags mode cj)) rfl
  refine bytes_long _ _ _ e26 ?_ h rest
  simp only [Decode.long, e20, e15, e10, e6, e0, dField_dReg, sldFlags_encode, waitSig_long1, Option.bind_eq_bind, Option.bind_some, and_self, reduceIte]

theorem RoundTrip.sst (q : SstQuant) (c : BitVec 4) (a : BitVec 4) (b : BitVec 4) (ws : WaitSig) : RoundTrip.Statement (.sst q c a b ws) := by
  intro _ h rest
  change Decode.bytes (bytesOfWords [Encode.long0 0x02#6 (Encode.dReg a) (Encode.dReg b) c (Encode.sstFlags q), Encode.long1 ws] ++ rest) = _
  obtain ⟨e26, e20, e15, e10, e6, e0⟩ := fields_6_6_5_5_4_6 0x3F#6 (0x02#6) ((Encode.dReg a)) ((Encode.dReg b)) (c) ((Encode.sstFlags q)) (Encode.long0 0x02#6 (Encode.dReg a) (Encode.dReg b) c (Encode.sstFlags q)) rfl
  refine bytes_long _ _ _ e26 ?_ h rest
  simp only [Decode.long, e20, e15, e10, e6, e0, dField_dReg, sstFlags_encode, waitSig_long1, Option.bind_eq_bind, Option.bind_some, and_self, reduceIte]

theorem RoundTrip.sgth (c : BitVec 4) (a : BitVec 4) (b : BitVec 4) (ws : WaitSig) : RoundTrip.Statement (.sgth c a b ws) := by
  intro _ h rest
  change Decode.bytes (bytesOfWords [Encode.long0 0x03#6 (Encode.dReg a) (Encode.dReg b) c 0#6, Encode.long1 ws] ++ rest) = _
  obtain ⟨e26, e20, e15, e10, e6, e0⟩ := fields_6_6_5_5_4_6 0x3F#6 (0x03#6) ((Encode.dReg a)) ((Encode.dReg b)) (c) (0#6) (Encode.long0 0x03#6 (Encode.dReg a) (Encode.dReg b) c 0#6) rfl
  refine bytes_long _ _ _ e26 ?_ h rest
  simp only [Decode.long, e20, e15, e10, e6, e0, dField_dReg, waitSig_long1, Option.bind_eq_bind, Option.bind_some, and_self, reduceIte]

theorem RoundTrip.ssct (mrg : Bool) (c : BitVec 4) (a : BitVec 4) (b : BitVec 4) (ws : WaitSig) : RoundTrip.Statement (.ssct mrg c a b ws) := by
  intro _ h rest
  change Decode.bytes (bytesOfWords [Encode.long0 0x04#6 (Encode.dReg a) (Encode.dReg b) c (0#5 ++ Encode.flag mrg), Encode.long1 ws] ++ rest) = _
  obtain ⟨e26, e20, e15, e10, e6, e0⟩ := fields_6_6_5_5_4_6 0x3F#6 (0x04#6) ((Encode.dReg a)) ((Encode.dReg b)) (c) ((0#5 ++ Encode.flag mrg)) (Encode.long0 0x04#6 (Encode.dReg a) (Encode.dReg b) c (0#5 ++ Encode.flag mrg)) rfl
  refine bytes_long _ _ _ e26 ?_ h rest
  simp only [Decode.long, e20, e15, e10, e6, e0, dField_dReg, flag_high, flag_low, waitSig_long1, Option.bind_eq_bind, Option.bind_some, and_self, reduceIte]

theorem RoundTrip.sred (c : BitVec 4) (a : BitVec 4) (b : BitVec 4) (ws : WaitSig) : RoundTrip.Statement (.sred c a b ws) := by
  intro _ h rest
  change Decode.bytes (bytesOfWords [Encode.long0 0x05#6 (Encode.dReg a) (Encode.dReg b) c 0#6, Encode.long1 ws] ++ rest) = _
  obtain ⟨e26, e20, e15, e10, e6, e0⟩ := fields_6_6_5_5_4_6 0x3F#6 (0x05#6) ((Encode.dReg a)) ((Encode.dReg b)) (c) (0#6) (Encode.long0 0x05#6 (Encode.dReg a) (Encode.dReg b) c 0#6) rfl
  refine bytes_long _ _ _ e26 ?_ h rest
  simp only [Decode.long, e20, e15, e10, e6, e0, dField_dReg, waitSig_long1, Option.bind_eq_bind, Option.bind_some, and_self, reduceIte]

theorem RoundTrip.scpy (a : BitVec 4) (b : BitVec 4) (ws : WaitSig) : RoundTrip.Statement (.scpy a b ws) := by
  intro _ h rest
  change Decode.bytes (bytesOfWords [Encode.long0 0x06#6 (Encode.dReg a) (Encode.dReg b) 0#4 0#6, Encode.long1 ws] ++ rest) = _
  obtain ⟨e26, e20, e15, e10, e6, e0⟩ := fields_6_6_5_5_4_6 0x3F#6 (0x06#6) ((Encode.dReg a)) ((Encode.dReg b)) (0#4) (0#6) (Encode.long0 0x06#6 (Encode.dReg a) (Encode.dReg b) 0#4 0#6) rfl
  refine bytes_long _ _ _ e26 ?_ h rest
  simp only [Decode.long, e20, e15, e10, e6, e0, dField_dReg, waitSig_long1, Option.bind_eq_bind, Option.bind_some, and_self, reduceIte]

theorem RoundTrip.sbank (k : BitVec 4) (a : RegNo) (ws : WaitSig) : RoundTrip.Statement (.sbank k a ws) := by
  intro _ h rest
  change Decode.bytes (bytesOfWords [Encode.long0 0x07#6 a 0#5 0#4 (0#2 ++ k), Encode.long1 ws] ++ rest) = _
  obtain ⟨e26, e20, e15, e10, e6, e0⟩ := fields_6_6_5_5_4_6 0x3F#6 (0x07#6) (a) (0#5) (0#4) ((0#2 ++ k)) (Encode.long0 0x07#6 a 0#5 0#4 (0#2 ++ k)) rfl
  refine bytes_long _ _ _ e26 ?_ h rest
  simp only [Decode.long, e20, e15, e10, e6, e0, bank_high, bank_low, waitSig_long1, Option.bind_eq_bind, Option.bind_some, and_self, reduceIte]

theorem RoundTrip.salloc (sp : LocalSpace) (a : RegNo) (b : RegNo) (ws : WaitSig) : RoundTrip.Statement (.salloc sp a b ws) := by
  intro _ h rest
  change Decode.bytes (bytesOfWords [Encode.long0 0x08#6 a b 0#4 (Encode.space sp), Encode.long1 ws] ++ rest) = _
  obtain ⟨e26, e20, e15, e10, e6, e0⟩ := fields_6_6_5_5_4_6 0x3F#6 (0x08#6) (a) (b) (0#4) ((Encode.space sp)) (Encode.long0 0x08#6 a b 0#4 (Encode.space sp)) rfl
  refine bytes_long _ _ _ e26 ?_ h rest
  simp only [Decode.long, e20, e15, e10, e6, e0, spaceFlags_encode, waitSig_long1, Option.bind_eq_bind, Option.bind_some, and_self, reduceIte]

theorem RoundTrip.sfree (sp : LocalSpace) (a : RegNo) (b : RegNo) (ws : WaitSig) : RoundTrip.Statement (.sfree sp a b ws) := by
  intro _ h rest
  change Decode.bytes (bytesOfWords [Encode.long0 0x09#6 a b 0#4 (Encode.space sp), Encode.long1 ws] ++ rest) = _
  obtain ⟨e26, e20, e15, e10, e6, e0⟩ := fields_6_6_5_5_4_6 0x3F#6 (0x09#6) (a) (b) (0#4) ((Encode.space sp)) (Encode.long0 0x09#6 a b 0#4 (Encode.space sp)) rfl
  refine bytes_long _ _ _ e26 ?_ h rest
  simp only [Decode.long, e20, e15, e10, e6, e0, spaceFlags_encode, waitSig_long1, Option.bind_eq_bind, Option.bind_some, and_self, reduceIte]

theorem RoundTrip.seat (bwd : Bool) (a : BitVec 4) (ws : WaitSig) : RoundTrip.Statement (.seat bwd a ws) := by
  intro _ h rest
  change Decode.bytes (bytesOfWords [Encode.long0 0x0A#6 (Encode.dReg a) 0#5 0#4 (0#5 ++ Encode.flag bwd), Encode.long1 ws] ++ rest) = _
  obtain ⟨e26, e20, e15, e10, e6, e0⟩ := fields_6_6_5_5_4_6 0x3F#6 (0x0A#6) ((Encode.dReg a)) (0#5) (0#4) ((0#5 ++ Encode.flag bwd)) (Encode.long0 0x0A#6 (Encode.dReg a) 0#5 0#4 (0#5 ++ Encode.flag bwd)) rfl
  refine bytes_long _ _ _ e26 ?_ h rest
  simp only [Decode.long, e20, e15, e10, e6, e0, dField_dReg, flag_high, flag_low, waitSig_long1, Option.bind_eq_bind, Option.bind_some, and_self, reduceIte]

theorem RoundTrip.unseat (a : BitVec 4) (ws : WaitSig) : RoundTrip.Statement (.unseat a ws) := by
  intro _ h rest
  change Decode.bytes (bytesOfWords [Encode.long0 0x0B#6 (Encode.dReg a) 0#5 0#4 0#6, Encode.long1 ws] ++ rest) = _
  obtain ⟨e26, e20, e15, e10, e6, e0⟩ := fields_6_6_5_5_4_6 0x3F#6 (0x0B#6) ((Encode.dReg a)) (0#5) (0#4) (0#6) (Encode.long0 0x0B#6 (Encode.dReg a) 0#5 0#4 0#6) rfl
  refine bytes_long _ _ _ e26 ?_ h rest
  simp only [Decode.long, e20, e15, e10, e6, e0, dField_dReg, waitSig_long1, Option.bind_eq_bind, Option.bind_some, and_self, reduceIte]

theorem RoundTrip.krun (c : BitVec 4) (a : RegNo) (ws : WaitSig) : RoundTrip.Statement (.krun c a ws) := by
  intro _ h rest
  change Decode.bytes (bytesOfWords [Encode.long0 0x0C#6 a 0#5 c 0#6, Encode.long1 ws] ++ rest) = _
  obtain ⟨e26, e20, e15, e10, e6, e0⟩ := fields_6_6_5_5_4_6 0x3F#6 (0x0C#6) (a) (0#5) (c) (0#6) (Encode.long0 0x0C#6 a 0#5 c 0#6) rfl
  refine bytes_long _ _ _ e26 ?_ h rest
  simp only [Decode.long, e20, e15, e10, e6, e0, waitSig_long1, Option.bind_eq_bind, Option.bind_some, and_self, reduceIte]

theorem RoundTrip.jigGo (ws : WaitSig) : RoundTrip.Statement (.jigGo ws) := by
  intro _ h rest
  change Decode.bytes (bytesOfWords [Encode.long0 0x0D#6 0#5 0#5 0#4 0#6, Encode.long1 ws] ++ rest) = _
  obtain ⟨e26, e20, e15, e10, e6, e0⟩ := fields_6_6_5_5_4_6 0x3F#6 (0x0D#6) (0#5) (0#5) (0#4) (0#6) (Encode.long0 0x0D#6 0#5 0#5 0#4 0#6) rfl
  refine bytes_long _ _ _ e26 ?_ h rest
  simp only [Decode.long, e20, e15, e10, e6, e0, waitSig_long1, Option.bind_eq_bind, Option.bind_some, and_self, reduceIte]

theorem RoundTrip.jigRev (ws : WaitSig) : RoundTrip.Statement (.jigRev ws) := by
  intro _ h rest
  change Decode.bytes (bytesOfWords [Encode.long0 0x0E#6 0#5 0#5 0#4 0#6, Encode.long1 ws] ++ rest) = _
  obtain ⟨e26, e20, e15, e10, e6, e0⟩ := fields_6_6_5_5_4_6 0x3F#6 (0x0E#6) (0#5) (0#5) (0#4) (0#6) (Encode.long0 0x0E#6 0#5 0#5 0#4 0#6) rfl
  refine bytes_long _ _ _ e26 ?_ h rest
  simp only [Decode.long, e20, e15, e10, e6, e0, waitSig_long1, Option.bind_eq_bind, Option.bind_some, and_self, reduceIte]

theorem RoundTrip.finSet (a : RegNo) (b : RegNo) (ws : WaitSig) : RoundTrip.Statement (.finSet a b ws) := by
  intro _ h rest
  change Decode.bytes (bytesOfWords [Encode.long0 0x0F#6 a b 0#4 0#6, Encode.long1 ws] ++ rest) = _
  obtain ⟨e26, e20, e15, e10, e6, e0⟩ := fields_6_6_5_5_4_6 0x3F#6 (0x0F#6) (a) (b) (0#4) (0#6) (Encode.long0 0x0F#6 a b 0#4 0#6) rfl
  refine bytes_long _ _ _ e26 ?_ h rest
  simp only [Decode.long, e20, e15, e10, e6, e0, waitSig_long1, Option.bind_eq_bind, Option.bind_some, and_self, reduceIte]

theorem RoundTrip.coll (c : BitVec 4) (a : RegNo) (ws : WaitSig) : RoundTrip.Statement (.coll c a ws) := by
  intro _ h rest
  change Decode.bytes (bytesOfWords [Encode.long0 0x10#6 a 0#5 c 0#6, Encode.long1 ws] ++ rest) = _
  obtain ⟨e26, e20, e15, e10, e6, e0⟩ := fields_6_6_5_5_4_6 0x3F#6 (0x10#6) (a) (0#5) (c) (0#6) (Encode.long0 0x10#6 a 0#5 c 0#6) rfl
  refine bytes_long _ _ _ e26 ?_ h rest
  simp only [Decode.long, e20, e15, e10, e6, e0, waitSig_long1, Option.bind_eq_bind, Option.bind_some, and_self, reduceIte]

theorem RoundTrip.collAbt (c : BitVec 4) (a : RegNo) (ws : WaitSig) : RoundTrip.Statement (.collAbt c a ws) := by
  intro _ h rest
  change Decode.bytes (bytesOfWords [Encode.long0 0x11#6 a 0#5 c 0#6, Encode.long1 ws] ++ rest) = _
  obtain ⟨e26, e20, e15, e10, e6, e0⟩ := fields_6_6_5_5_4_6 0x3F#6 (0x11#6) (a) (0#5) (c) (0#6) (Encode.long0 0x11#6 a 0#5 c 0#6) rfl
  refine bytes_long _ _ _ e26 ?_ h rest
  simp only [Decode.long, e20, e15, e10, e6, e0, waitSig_long1, Option.bind_eq_bind, Option.bind_some, and_self, reduceIte]

theorem RoundTrip.sillLoad (c : BitVec 4) (a : RegNo) (b : RegNo) (ws : WaitSig) : RoundTrip.Statement (.sillLoad c a b ws) := by
  intro _ h rest
  change Decode.bytes (bytesOfWords [Encode.long0 0x12#6 a b c 0#6, Encode.long1 ws] ++ rest) = _
  obtain ⟨e26, e20, e15, e10, e6, e0⟩ := fields_6_6_5_5_4_6 0x3F#6 (0x12#6) (a) (b) (c) (0#6) (Encode.long0 0x12#6 a b c 0#6) rfl
  refine bytes_long _ _ _ e26 ?_ h rest
  simp only [Decode.long, e20, e15, e10, e6, e0, waitSig_long1, Option.bind_eq_bind, Option.bind_some, and_self, reduceIte]

theorem RoundTrip.sillGo (a : RegNo) (b : RegNo) (ws : WaitSig) : RoundTrip.Statement (.sillGo a b ws) := by
  intro _ h rest
  change Decode.bytes (bytesOfWords [Encode.long0 0x13#6 a b 0#4 0#6, Encode.long1 ws] ++ rest) = _
  obtain ⟨e26, e20, e15, e10, e6, e0⟩ := fields_6_6_5_5_4_6 0x3F#6 (0x13#6) (a) (b) (0#4) (0#6) (Encode.long0 0x13#6 a b 0#4 0#6) rfl
  refine bytes_long _ _ _ e26 ?_ h rest
  simp only [Decode.long, e20, e15, e10, e6, e0, waitSig_long1, Option.bind_eq_bind, Option.bind_some, and_self, reduceIte]

theorem RoundTrip.descLd (c : BitVec 4) (a : BitVec 4) (b : RegNo) : RoundTrip.Statement (.descLd c a b) := by
  intro _ h rest
  change Decode.bytes (bytesOfWords [Encode.long0 0x14#6 (Encode.dReg a) b c 0#6, Encode.noWait] ++ rest) = _
  obtain ⟨e26, e20, e15, e10, e6, e0⟩ := fields_6_6_5_5_4_6 0x3F#6 (0x14#6) ((Encode.dReg a)) (b) (c) (0#6) (Encode.long0 0x14#6 (Encode.dReg a) b c 0#6) rfl
  refine bytes_long _ _ _ e26 ?_ h rest
  simp only [Decode.long, e20, e15, e10, e6, e0, dField_dReg, waitSig_noWait, Option.bind_eq_bind, Option.bind_some, and_self, reduceIte]

theorem RoundTrip.jrnlRd (a : RegNo) (b : RegNo) : RoundTrip.Statement (.jrnlRd a b) := by
  intro _ h rest
  change Decode.bytes (bytesOfWords [Encode.long0 0x15#6 a b 0#4 0#6, Encode.noWait] ++ rest) = _
  obtain ⟨e26, e20, e15, e10, e6, e0⟩ := fields_6_6_5_5_4_6 0x3F#6 (0x15#6) (a) (b) (0#4) (0#6) (Encode.long0 0x15#6 a b 0#4 0#6) rfl
  refine bytes_long _ _ _ e26 ?_ h rest
  simp only [Decode.long, e20, e15, e10, e6, e0, waitSig_noWait, Option.bind_eq_bind, Option.bind_some, and_self, reduceIte]

end Sys2Proof.Laws
end

