-- ==== Sys2Proof/Tests/Witnesses.lean ====
section
/-! SUPPORT. Witnesses: for each statement with hypotheses, and for each of its clauses, a concrete state and operands that meet them. -/

set_option Elab.async false

namespace Sys2Proof.Tests

open Sys2Proof Sys2Proof.Machine Sys2Proof.Claims

/-! ## States -/

/-- A peg of a privileged root bent on core 0 at 0x1000, its record at 0x3000; its addresses below 1 GiB are physical 1 GiB upwards, in
clear. -/
def base : State := State.reset.withProgram []

/-- The location of a bent address of `base`. -/
def loc (va : Nat) : Loc := { pa := 0x40000000 + va, slot := none, det := false, mw := false, cp := 0 }

/-- `base` with x registers set. -/
def withX (l : List (RegNo × Word)) (s : State) : State := l.foldl (fun s e => s.putX e.1 e.2) s

/-- `base` with bytes at a bent address. -/
def withBytes (va : Nat) (bytes : List Byte) (s : State) : State := { s with mem := ByteMap.wrN s.mem (0x40000000 + va) bytes }

/-- A state with core 0 changed. -/
def withMe (f : Core → Core) (s : State) : State := s.setMe (f s.me)

/-- A state with core 0's state registers changed. -/
def withPegRegs (f : PegRegs → PegRegs) (s : State) : State := withMe (fun k => { k with regs := f k.regs }) s

/-- `base` with its bent changed. -/
def withBent (f : Bent → Bent) (s : State) : State := s.modBent 1 f

/-- `base` with its peg changed. -/
def withPeg (f : Peg → Peg) (s : State) : State := s.modPeg 1 f

/-- An access of the peg of `base` that has not performed. -/
def someAccess : Access :=
  { no := 0, agent := .peg 1, core := 0, bent := 1, cls := 0, ord := 0, kind := .store [1, 0, 0, 0, 0, 0, 0, 0], va := 0x4000, loc := loc 0x4000
    size := 8, sent := 0, lost := false }

theorem base_canTrap : CanTrap base := ⟨⟨_, rfl, by decide⟩, by decide⟩

/-- With nothing pending, a release waits for nothing. -/
theorem notWaits (s : State) (sc : Nat) (m : BitVec 16) (h1 : s.pending = []) (h2 : s.merges = []) (h3 : s.recordMerges = []) :
    ¬ Waits s sc m := by
  rintro (⟨a, ha, -⟩ | ⟨-, id, -, ⟨m, hm, -⟩ | ⟨m, hm, -⟩⟩)
  · rw [h1] at ha; cases ha
  · rw [h2] at hm; cases hm
  · rw [h3] at hm; cases hm

/-! ## Encoding and the step -/

theorem witness_EncodeDecodeRoundTrip : hasWords (.add 31 0 31) = true ∧ Instr.wf (.add 31 0 31) = true := by decide

theorem witness_DecodedBytesAreItsWords : Decode.bytes (bytesOfWords [0x08A63803] ++ [7]) = .ok (.div 5 6 7, [7]) := by decide

theorem witness_StepRunsFetchedInstruction_short : ∃ (s : State) (c : Nat) (w : Word32) (i : Instr), s.turn.act = .core c ∧
    Executes (s.beginTurn s.turn) ∧ Fetchable (s.beginTurn s.turn) (s.beginTurn s.turn).pc w ∧ Decode.bytes (bytesOfWords [w]) = .ok (i, []) ∧
    (s.beginTurn s.turn).registerWait i = false :=
  ⟨State.reset.withProgram (bytesOfWords [0x08A63803]), 0, 0x08A63803, .div 5 6 7, rfl,
    ⟨1, _, by decide, rfl, by decide, by decide, by decide, .inr (by decide)⟩,
    ⟨loc 0x1000, by decide +kernel, by decide, by decide, by decide, by decide, by decide, by decide +kernel, by decide +kernel, .inl (by decide)⟩, by decide, by decide⟩

/-- Two words at the pc of `base`: SLD, a long instruction. -/
def longBase : State := State.reset.withProgram (bytesOfWords [0xFC121480, 0x03002041])

theorem witness_StepRunsFetchedInstruction_long : longBase.turn.act = .core 0 ∧ Executes (longBase.beginTurn longBase.turn) ∧
    Fetchable (longBase.beginTurn longBase.turn) (longBase.beginTurn longBase.turn).pc 0xFC121480 ∧
    (∃ u, (longBase.beginTurn longBase.turn).fetchWord (longBase.beginTurn longBase.turn).pc = .word u 0xFC121480 ∧
      Fetchable u ((longBase.beginTurn longBase.turn).pc + 4) 0x03002041) ∧
    Decode.bytes (bytesOfWords [0xFC121480, 0x03002041]) = .ok (.sld .plain false 2 4 5 ⟨3, 2, 4, 1⟩, []) ∧
    (longBase.beginTurn longBase.turn).registerWait (.sld .plain false 2 4 5 ⟨3, 2, 4, 1⟩) = false :=
  ⟨rfl, ⟨1, _, by decide, rfl, by decide, by decide, by decide, .inr (by decide)⟩,
    ⟨loc 0x1000, by decide +kernel, by decide, by decide, by decide, by decide, by decide, by decide +kernel, by decide +kernel, .inl (by decide)⟩,
    ⟨_, rfl, loc 0x1004, by refine ⟨?_, ?_, ?_, ?_, ?_, ?_, ?_, ?_, .inl ?_⟩ <;> decide +kernel⟩, by decide, by decide⟩

theorem witness_StepRunsScheduledEvent :
    let s : State := { base with sched := [⟨1, 3, false, .event (.frameDrop ⟨1, 64, .ptp⟩)⟩] }
    s.turn.act = .event (.frameDrop ⟨1, 64, .ptp⟩) ∧ isEvent (.frameDrop ⟨1, 64, .ptp⟩) = true ∧ Instr.wf (.frameDrop ⟨1, 64, .ptp⟩) = true := by decide

/-! ## Integer instructions and transfers -/

theorem witness_IntOperations : intOf base (.subW 31 30 0) = some (31, BitVec.ofInt 64 (((base.getX 30).toInt - (base.getX 0).toInt).bmod (2 ^ 32))) := rfl

theorem witness_MulDivOperations : mulDivOf base (.div 1 2 0) = some (1, 0xFFFFFFFFFFFFFFFF) := by decide

theorem witness_ImmediateOperations : immOf base (.addi 1 0 0xFFFF) = some (1, 0xFFFFFFFFFFFFFFFF) := by decide

theorem witness_RegisterWriteFrame : (31 : RegNo) ≠ 0 ∧ (0 : RegNo) ≠ 31 ∧ 1 ≠ base.cur := by decide

theorem witness_ControlTransfers_branch : branchOf base (.bgeN 1 2 0x8000) = some (true, -32768) := by decide

theorem witness_ControlTransfers_jalr_aligned : (base.getX 1 + BitVec.ofInt 64 (0xFFFC : BitVec 16).toInt).toNat % 4 = 0 := by decide

theorem witness_ControlTransfers_jalr_misaligned : (base.getX 1 + BitVec.ofInt 64 (0x0002 : BitVec 16).toInt).toNat % 4 ≠ 0 ∧ CanTrap base :=
  ⟨by decide, base_canTrap⟩

/-! ## Floating-point instructions -/

theorem witness_FloatArithmeticResults_arith : Instr.wf (.faddF64 1 2 3 3) = true ∧ arithOf base (.faddF64 1 2 3 3) = some (1, 0, {}) ∧
    enabled base.me.regs.fpCsr {} = false := by decide +kernel

theorem witness_FloatArithmeticResults_minmax : Instr.wf (.fmaxF32 1 2 3) = true ∧ minMaxOf base (.fmaxF32 1 2 3) = some (1, 0, {}) ∧
    enabled base.me.regs.fpCsr {} = false := by decide +kernel

theorem witness_FloatCompareAndConvert_f : Instr.wf (.cvtF64I64 1 2 1) = true ∧ enabled base.me.regs.fpCsr {} = false ∧
    cvtFOf base (.cvtF64I64 1 2 1) = some (1, 0, {}) := by decide +kernel

theorem witness_FloatCompareAndConvert_x : Instr.wf (.cvtN64F32 1 2 1) = true ∧ enabled base.me.regs.fpCsr {} = false ∧
    cvtXOf base (.cvtN64F32 1 2 1) = some (1, 0, {}) ∧ compareOf base (.feqF32 1 2 3) = some (1, 1, {}) := by decide +kernel

/-- f1 holds −1, f2 a signalling NaN; division by zero and invalid are enabled. -/
def floatBase : State := withPegRegs (fun r => { r with fpCsr := 0x1800 }) ((base.putF 1 0xBFF0000000000000).putF 2 0x7FF0000000000001)

theorem floatBase_canTrap : CanTrap floatBase := ⟨⟨_, rfl, by decide⟩, by decide⟩

theorem witness_EnabledConditionTraps_arith : ∃ v g, Instr.wf (.fdivF64 3 1 0 0) = true ∧ CanTrap floatBase ∧
    arithOf floatBase (.fdivF64 3 1 0 0) = some (3, v, g) ∧ enabled floatBase.me.regs.fpCsr g = true :=
  ⟨0xFFF0000000000000, { divZero := true }, by decide, floatBase_canTrap, by decide +kernel, by decide⟩

theorem witness_EnabledConditionTraps_minmax : ∃ v g, CanTrap floatBase ∧
    minMaxOf floatBase (.fminF64 3 1 2) = some (3, v, g) ∧ enabled floatBase.me.regs.fpCsr g = true :=
  ⟨0x7FF8000000000001, { invalid := true }, floatBase_canTrap, by decide +kernel, by decide⟩

theorem witness_EnabledConditionTraps_compare : ∃ v g, CanTrap floatBase ∧
    compareOf floatBase (.fltF64 3 1 2) = some (3, v, g) ∧ enabled floatBase.me.regs.fpCsr g = true :=
  ⟨0, { invalid := true }, floatBase_canTrap, by decide +kernel, by decide⟩

theorem witness_EnabledConditionTraps_cvt : ∃ v g v' g', CanTrap floatBase ∧
    cvtFOf floatBase (.cvtF32F64 3 2 1) = some (3, v, g) ∧ enabled floatBase.me.regs.fpCsr g = true ∧
    cvtXOf floatBase (.cvtI64F64 3 2 0) = some (3, v', g') ∧ enabled floatBase.me.regs.fpCsr g' = true :=
  ⟨_, { invalid := true }, 0, { invalid := true }, floatBase_canTrap, rfl, by decide, by decide +kernel, by decide⟩

theorem witness_FloatOperationsAreExact : isFinite (.fin true 3 (-1074)) = true := by decide

/-! ## Memory -/

theorem witness_StepKeepsMemoryCanonical : ByteMap.wf State.reset.mem = true ∧ ∃ t, step (State.reset.withFetchWord 32 0x08A63803) = .next t :=
  ⟨by decide, _, rfl⟩

theorem witness_WriteThenRead : (0 < (loc 0x20).pa ∨ (loc 0x20).pa + 4 ≤ 0) ∧ (0 / 32 < (loc 0x20).pa / 32 ∨ ((loc 0x20).pa + 4 - 1) / 32 < 0 / 32) := by decide

/-- `base` with the leaf of its one GiB page replaced. -/
def withLeaf (v : Nat) : State := { base with mem := ByteMap.wrN base.mem 0x200000 (leBytes 8 v) }

theorem witness_AccessChecksInOrder_alignment : (0x1001 : Word).toNat % 2 ≠ 0 := by decide

theorem witness_AccessChecksInOrder_high : (0x0100000000000000 : Word).toNat % 8 = 0 ∧ 2 ^ 56 ≤ (0x0100000000000000 : Word).toNat := by decide

theorem witness_AccessChecksInOrder_walk : (0x40000000 : Word).toNat % 8 = 0 ∧ (0x40000000 : Word).toNat < 2 ^ 56 ∧
    base.lookup 0 (base.root 1) (0x40000000 : Word).toNat = .error 0x06 := by decide +kernel

theorem witness_AccessChecksInOrder_permission : ∃ t : TlbEntry, (withLeaf (clearLeaf 0x40000000 - 4)).lookup 0 ((withLeaf (clearLeaf 0x40000000 - 4)).root 1) 0x3FFFFFF8 = .ok t ∧
    t.leaf.getLsbD 2 = false := by
  refine ⟨⟨1, 0, 2 ^ 30, BitVec.ofNat 64 (clearLeaf 0x40000000 - 4)⟩, by decide +kernel, by decide⟩

theorem witness_AccessChecksInOrder_management : ∃ t : TlbEntry, (withLeaf (clearLeaf 0xF000000000000)).lookup 0 1 0 = .ok t ∧
    (withLeaf (clearLeaf 0xF000000000000)).isManagement (ptePa t.leaf / t.size * t.size) = true :=
  ⟨⟨1, 0, 2 ^ 30, BitVec.ofNat 64 (clearLeaf 0xF000000000000)⟩, by decide +kernel⟩

theorem witness_AccessChecksInOrder_key : ∃ t : TlbEntry, (withLeaf (0x40000000 + 15)).lookup 0 1 0 = .ok t ∧ t.leaf.getLsbD 11 = false ∧
    (withLeaf (0x40000000 + 15)).isManagement (ptePa t.leaf / t.size * t.size) = false ∧ (t.leaf.extractLsb' 52 8).toNat = 0 :=
  ⟨⟨1, 0, 2 ^ 30, BitVec.ofNat 64 (0x40000000 + 15)⟩, by decide +kernel, by decide, by decide +kernel, by decide⟩

theorem witness_AccessChecksInOrder_passes : ∃ t : TlbEntry, base.lookup 0 1 0 = .ok t ∧ t.leaf.getLsbD 11 = true ∧
    base.isManagement (ptePa t.leaf / t.size * t.size) = false ∧ t.leaf.getLsbD 1 = true ∧ t.leaf.getLsbD 2 = true ∧ t.leaf.getLsbD 3 = true :=
  ⟨⟨1, 0, 2 ^ 30, BitVec.ofNat 64 (clearLeaf 0x40000000)⟩, by decide +kernel, by decide, by decide +kernel, by decide, by decide, by decide⟩

/-- `base` with a page under key slot 3, the bent's, whose first line bay 0's L2 holds under slot 4 (R96). -/
def slotBase : State :=
  (withBent (fun r => { r with key := 3 }) (withLeaf (3 * 2 ^ 52 + 0x40000000 + 15))).setBay 0
    { base.bay 0 with l2 := [(0x1000000, { slot := some 4, data := [], poison := [] })] }

theorem witness_AccessChecksInOrder_clash : ∃ (t : TlbEntry) (c : CacheLine), slotBase.lookup 0 (slotBase.root 1) 0 = .ok t ∧
    slotBase.isManagement (ptePa t.leaf / t.size * t.size) = false ∧ t.leaf.getLsbD 11 = false ∧ (t.leaf.extractLsb' 52 8).toNat = 3 ∧
    slotBase.remote? (slotBase.home 0x40000000) = none ∧ (t.leaf.extractLsb' 8 2).toNat ≠ 1 ∧
    (slotBase.bay 0).l2.find? (slotBase.home 0x40000000 / 64) = some c ∧ c.slot ≠ some 3 :=
  ⟨⟨1, 0, 2 ^ 30, BitVec.ofNat 64 (3 * 2 ^ 52 + 0x40000000 + 15)⟩, ⟨some 4, [], []⟩, by decide +kernel⟩

/-- x1 holds 0x4000. -/
def memBase : State := withX [(1, 0x4000)] base

theorem memBase_canTrap : CanTrap memBase := ⟨⟨_, rfl, by decide⟩, by decide⟩

theorem witness_FailedAccessTraps : ∃ m, memFormOf memBase (.ldD 3 1 0 0 0) = some m ∧
    (∃ s m', memFormOf s (.ldD 3 1 0 0 0) = some m' ∧ CanTrap s ∧ s.access s.myBay s.myBent m'.va m'.size m'.need = .error 0x05) :=
  ⟨_, rfl, withX [(1, 0x4001)] base, _, rfl, ⟨⟨_, rfl, by decide⟩, by decide⟩, by decide +kernel⟩

/-- With no merge pending, a release waits for none. -/
theorem noMerges (s : State) (sc : Nat) (m : BitVec 16) (h2 : s.merges = []) (h3 : s.recordMerges = []) : ¬ WaitsForMerges s sc m := by
  rintro ⟨-, id, -, ⟨m, hm, -⟩ | ⟨m, hm, -⟩⟩
  · rw [h2] at hm; cases hm
  · rw [h3] at hm; cases hm

theorem witness_AccessesTouchOnlyCaches : memBase.translate 0 1 0x4000 .read = .ok (loc 0x4000) := by decide +kernel

theorem witness_AccessesIssueWithoutWaiting_deferred : ∃ (s : State) (m : MemForm) (l : Loc), memFormOf s (.stD 2 1 0 2 0) = some m ∧
    Issues s m l ∧ s.defer = true ∧ m.halves = none :=
  ⟨{ memBase with defer := true }, _, loc 0x4000, rfl, ⟨by decide +kernel, fun _ => noMerges _ _ _ rfl rfl⟩, rfl, rfl⟩

/-- `memBase` with an earlier access of its peg to 0x4000 that has not performed. -/
def orderedBase : State := { memBase with pending := [someAccess], stamp := 1 }

theorem witness_AccessesIssueWithoutWaiting_ordered : ∃ m, memFormOf orderedBase (.ldV16 2 1 0 0 0) = some m ∧ Issues orderedBase m (loc 0x4000) ∧
    orderedBase.remote? (loc 0x4000).pa = none ∧
    (issued orderedBase m (loc 0x4000)).map (fun a => (issuing orderedBase m (loc 0x4000)).canPerform a) = [false, true] :=
  ⟨_, rfl, ⟨by decide +kernel, fun _ => noMerges _ _ _ rfl rfl⟩, by decide +kernel, by decide +kernel⟩

theorem witness_AccessesIssueWithoutWaiting_waits : ∃ m, memFormOf orderedBase (.ldD 2 1 0 0 0) = some m ∧ Issues orderedBase m (loc 0x4000) ∧
    ∀ a ∈ issued orderedBase m (loc 0x4000), (issuing orderedBase m (loc 0x4000)).canPerform a = false :=
  ⟨_, rfl, ⟨by decide +kernel, fun _ => noMerges _ _ _ rfl rfl⟩, by decide +kernel⟩

/-- The accesses of a form of `memBase` can perform at once, where a home answers with data that is not poisoned. -/
def Performs (i : Instr) (m : MemForm) : Prop :=
  memFormOf memBase i = some m ∧ Issues memBase m (loc 0x4000) ∧ memBase.defer = false ∧
    (∀ a ∈ issued memBase m (loc 0x4000), (issuing memBase m (loc 0x4000)).canPerform a = true) ∧ Plain memBase (issued memBase m (loc 0x4000))

theorem performs_of (i : Instr) (m : MemForm) (hm : memFormOf memBase i = some m)
    (h1 : memBase.access memBase.myBay memBase.myBent m.va m.size m.need = .ok (loc 0x4000))
    (h3 : ∀ a ∈ issued memBase m (loc 0x4000), (issuing memBase m (loc 0x4000)).canPerform a = true)
    (h4 : ∀ a ∈ issued memBase m (loc 0x4000), memBase.answer a.loc.pa a.size = .here)
    (h5 : ∀ a ∈ issued memBase m (loc 0x4000), memBase.poisoned a.loc.pa a.size = false) : Performs i m :=
  ⟨hm, ⟨h1, fun _ => noMerges _ _ _ rfl rfl⟩, rfl, h3, fun a ha => ⟨h4 a ha, fun _ h => nomatch h⟩, h5⟩

theorem witness_LoadsReadMemory_x : ∃ m d, Performs (.ldB 31 1 15 3 0) m ∧ m.kind = .load d ∧
    ∀ a ∈ issued memBase m (loc 0x4000), ((loc 0x4000).cp ≠ 2 ∨ memBase.remote? a.loc.pa = none) ∧ memBase.poisoned a.loc.pa a.size = false :=
  ⟨_, _, performs_of _ _ rfl (by decide +kernel) (by decide +kernel) (by decide +kernel) (by decide +kernel), rfl, by decide +kernel⟩

theorem witness_LoadsReadMemory_f : ∃ m d, Performs (.ldFw 0 1 0 0 0) m ∧ m.kind = .load d :=
  ⟨_, _, performs_of _ _ rfl (by decide +kernel) (by decide +kernel) (by decide +kernel) (by decide +kernel), rfl⟩

theorem witness_LoadsReadMemory_pair : ∃ m d, Performs (.ldA16 15 1 0 0 0) m ∧ m.kind = .load d :=
  ⟨_, _, performs_of _ _ rfl (by decide +kernel) (by decide +kernel) (by decide +kernel) (by decide +kernel), rfl⟩

theorem witness_LoadsReadMemory_halves : ∃ m d, Performs (.ldV16 15 1 0 0 0) m ∧ m.kind = .load d ∧ m.halves.isSome = true :=
  ⟨_, _, performs_of _ _ rfl (by decide +kernel) (by decide +kernel) (by decide +kernel) (by decide +kernel), rfl, rfl⟩

/-- x1 holds 0x4000, in package 1's window on a read-only cacheable page, whose line core 0's data cache holds. -/
def cachedBase : State :=
  withMe (fun k => { k with dcache := [(0x20000004000 / 64, { slot := none, data := List.replicate 64 7, poison := [] })] })
    (withX [(1, 0x4000)] { withLeaf (clearLeaf 0x20000000200 - 4) with peers := [(1, ⟨2 ^ 30, true, true, 0, 0, 0⟩)] })

theorem witness_LoadsReadMemory_cached : ∃ (m : MemForm) (l : Loc), memFormOf cachedBase (.ldW 3 1 0 0 0) = some m ∧ Issues cachedBase m l ∧ l.cp = 2 ∧
    (∀ a ∈ issued cachedBase m l, (issuing cachedBase m l).canPerform a = true ∧ cachedBase.answer a.loc.pa a.size = .here ∧
      (cachedBase.remote? a.loc.pa).isSome = true) ∧
    l.pa % 64 + m.size ≤ 64 ∧ ∃ c, (issuing cachedBase m l).me.dcache.find? (l.pa / 64) = some c ∧ c.data ≠ [] ∧ c.slot = l.slot ∧ c.poison = [] :=
  ⟨_, { loc 0 with pa := 0x20000004000, cp := 2 }, rfl, ⟨by decide +kernel, fun _ => noMerges _ _ _ rfl rfl⟩, rfl, by decide +kernel,
    by decide +kernel, _, rfl, by decide, rfl, rfl⟩

theorem witness_StoresWriteMemory : ∃ m data, Performs (.stV16 15 1 0 2 0) m ∧ m.kind = .store data ∧ m.halves.isSome = true :=
  ⟨_, _, performs_of _ _ rfl (by decide +kernel) (by decide +kernel) (by decide +kernel) (by decide +kernel), rfl, rfl⟩

theorem witness_AmosUpdateMemory : ∃ m op b d v, Performs (.amoW 3 1 2 0xC 0 3 0) m ∧ m.kind = .amo op b d ∧
    bitOp m.size op (leNat (memBase.bytesAt none (loc 0x4000).pa m.size)) b.toNat = some v :=
  ⟨_, _, _, _, _, performs_of _ _ rfl (by decide +kernel) (by decide +kernel) (by decide +kernel) (by decide +kernel), rfl, rfl⟩

theorem witness_CompareAndSwap : ∃ m x n d, Performs (.casD 0 1 2 1 0) m ∧ m.kind = .cas x n d :=
  ⟨_, _, _, _, performs_of _ _ rfl (by decide +kernel) (by decide +kernel) (by decide +kernel) (by decide +kernel), rfl⟩

theorem witness_MergeAtomicsAreAccepted : memBase.access memBase.myBay memBase.myBent (memBase.getX 1) 8 .both = .ok (loc 0x4000) := by decide +kernel

/-! ## State registers -/

theorem witness_GetsReadsStateRegisters_readable : valueIn (0x062 : BitVec 12).toNat (gettable base) = some 0x64 ∧
    valueIn (0x000 : BitVec 12).toNat (gettable base) = some 0xB1 := by decide +kernel

theorem witness_GetsReadsStateRegisters_other : valueIn (0x063 : BitVec 12).toNat (gettable base) = none ∧ CanTrap base :=
  ⟨by decide +kernel, base_canTrap⟩

theorem witness_PutsWritesStateRegisters_rw : ∃ (r q : PegRegs), (puttable base.me.regs (base.getX 1)).find? (fun e => decide (e.1 = (0x020 : BitVec 12).toNat)) = some ((0x020 : BitVec 12).toNat, r) ∧
    (puttable base.me.regs (base.getX 1)).find? (fun e => decide (e.1 = (0x041 : BitVec 12).toNat)) = some ((0x041 : BitVec 12).toNat, q) :=
  ⟨_, _, rfl, rfl⟩

theorem witness_PutsWritesStateRegisters_ro : (0x000 : BitVec 12).toNat ∈ [0x000, 0x001, 0x002, 0x010, 0x011, 0x012, 0x029, 0x02A, 0x040, 0x042, 0x043] ∧
    (0x043 : BitVec 12).toNat ∈ [0x000, 0x001, 0x002, 0x010, 0x011, 0x012, 0x029, 0x02A, 0x040, 0x042, 0x043] := by decide

theorem witness_PutsWritesStateRegisters_privileged : base.privileged = true := by decide

/-- The bent of `base` without privilege. -/
def plainBase : State := withBent (fun r => { r with priv := false }) base

theorem plainBase_canTrap : CanTrap plainBase := ⟨⟨_, rfl, by decide⟩, by decide⟩

theorem witness_PutsWritesStateRegisters_traps : CanTrap plainBase ∧ plainBase.privileged = false ∧
    (0x062 : BitVec 12).toNat ∉ (puttable plainBase.me.regs (plainBase.getX 1)).map Prod.fst ∧ CanTrap base ∧
    (0xFFF : BitVec 12).toNat ∉ (puttable base.me.regs (base.getX 1)).map Prod.fst ∧ (0xFFF : BitVec 12).toNat ∉ [0x060, 0x061, 0x062] :=
  ⟨plainBase_canTrap, by decide, by decide, base_canTrap, by decide, by decide⟩

/-- Every boundary of the ranges of engine registers is an index that an EST or ELD can name. -/
theorem witness_EngineRegisterAccess : [0x000, 0x01B, 0x01C, 0x01F, 0x020, 0x025, 0x026, 0x027, 0x028, 0x03F, 0x040, 0x041, 0x042, 0x07F, 0x080, 0x08F,
    0x090, 0x0FF, 0x100, 0x11B, 0x11C, 0xFFF].all (fun n => ((base.getX 0).toNat + (BitVec.ofNat 12 n).toNat) % 65536 == n) = true := by decide

/-! ## Traps -/

theorem witness_TrapsAreTaken_check : ∃ s : State, CanTrap s ∧ s.access s.myBay s.myBent s.me.pc 4 .exec = .error 0x06 :=
  ⟨base.setPc 0x40000000, ⟨⟨_, rfl, by decide⟩, by decide⟩, by decide +kernel⟩

/-- Package 1's window, on a link that is up, of 4 KiB: the page of `base` begins at offset 0 of it. -/
def windowBase : State := { withLeaf (clearLeaf 0x20000000000) with peers := [(1, ⟨4096, true, true, 0, 0, 0⟩)] }

theorem witness_TrapsAreTaken_refused : ∃ l : Loc, CanTrap windowBase ∧ windowBase.access windowBase.myBay windowBase.myBent windowBase.me.pc 4 .exec = .ok l ∧
    windowBase.lockedOut l.pa 4 = false ∧ windowBase.answer l.pa 4 = .refused :=
  ⟨{ loc 0 with pa := 0x20000001000 }, ⟨⟨_, rfl, by decide⟩, by decide⟩, by decide +kernel, by decide, by decide +kernel⟩

theorem witness_TrapsAreTaken_poisoned : ∃ (s : State) (l : Loc), CanTrap s ∧ s.access s.myBay s.myBent s.me.pc 4 .exec = .ok l ∧ s.lockedOut l.pa 4 = false ∧
    s.answer l.pa 4 = .here ∧ (l.cp ≠ 2 ∨ s.remote? l.pa = none) ∧ s.poisoned l.pa 4 = true :=
  ⟨{ base with poison := [(0x8000200, ())] }, loc 0x1000, ⟨⟨_, rfl, by decide⟩, by decide⟩, by decide +kernel, by decide, by decide +kernel⟩

theorem witness_PrivilegeIsChecked : privilegedOnly (.bentNew 1 2) = true ∧ privilegedOnly .tlbiAll = true ∧ plainBase.privileged = false ∧ CanTrap plainBase :=
  ⟨by decide, by decide, by decide, plainBase_canTrap⟩

/-- In the handler of a trap of a kind, of work with number 5. -/
def handlerBase (kind : Nat) : State :=
  withPegRegs (fun r => { r with trapCause := BitVec.ofNat 64 (0x8000 + 0x1000 * kind + 0x09), trapPc := 0x1000, trapInfo := 0x500000000 }) base

/-- `base` without a handler. -/
def noHandler (s : State) : State := withBent (fun r => { r with hpc := 0 }) s

theorem witness_FatalTrapsDrainTheBent_handler : ∃ r : Bent, TrapsWith (handlerBase 0) (.trap 0xFFF) (handlerBase 0) 0x1A 0 0xFFF ∧
    (handlerBase 0).bents.find? (handlerBase 0).myBent = some r ∧ (handlerBase 0).me.regs.trapCause.getLsbD 15 = true :=
  ⟨_, .breakpoint 0xFFF, rfl, by decide⟩

theorem witness_FatalTrapsDrainTheBent_access : ∃ (s : State) (m : MemForm) (r : Bent), memFormOf s (.ldD 3 1 0 0 0) = some m ∧
    s.access s.myBay s.myBent m.va m.size m.need = .error 0x05 ∧ s.bents.find? s.myBent = some r ∧ r.hpc = 0 :=
  ⟨withX [(1, 0x4001)] (noHandler base), _, _, rfl, by decide +kernel, rfl, by decide⟩

theorem witness_FatalTrapsDrainTheBent_floating : ∃ (v : Word) (g : FFlags), Instr.wf (.fdivF64 3 1 0 0) = true ∧
    enabled (noHandler floatBase).me.regs.fpCsr g = true ∧ arithOf (noHandler floatBase) (.fdivF64 3 1 0 0) = some (3, v, g) :=
  ⟨0xFFF0000000000000, { divZero := true }, by decide, by decide, by decide +kernel⟩

theorem witness_FatalTrapsDrainTheBent_jump : ((noHandler base).getX 1 + BitVec.ofInt 64 (0x0002 : BitVec 16).toInt).toNat % 4 ≠ 0 ∧
    privilegedOnly (.tlbi 1) = true ∧ (noHandler plainBase).privileged = false := by decide

theorem witness_FatalTrapsDrainTheBent_watchdog : ∃ (s : State) (p : Peg), (s.core 0).peg = some 1 ∧ s.pegs.find? 1 = some p ∧
    (s.core 0).regs.trapCause.getLsbD 15 = true ∧ 1000000000 ≤ (s.core 0).hactTime + (s.timestamp - (s.core 0).hactFrom) :=
  ⟨{ handlerBase 0 with timestamp := 1000000000 }, _, by decide, rfl, by decide, by decide⟩

def firstTrap : Trap := { kind := 0, code := 0x1B, info := 0x1000, addr := 0x4000, seq := none, rank := 3, deferred := true }

/-- A deferred data trap and a command's trap pending. -/
def pendingBase : State := withPeg (fun p => { p with pending := [cmdTrap 2 0x09 5 7 0 7, firstTrap] }) base

theorem witness_FatalTrapsDrainTheBent_pending : ∃ (p : Peg) (r : Bent), (noHandler pendingBase).pegId = some 1 ∧ (noHandler pendingBase).peg? = some p ∧
    (noHandler pendingBase).bents.find? (noHandler pendingBase).myBent = some r ∧ r.hpc = 0 ∧
    (noHandler pendingBase).me.regs.trapCause.getLsbD 15 = false ∧ oldestTrap (noHandler pendingBase).me.jnext p.pending = some firstTrap :=
  ⟨_, _, by decide, rfl, rfl, by decide, by decide, by decide⟩

theorem witness_PendingTrapsAreDelivered_deferred : ∃ p : Peg, pendingBase.pegId = some 1 ∧ pendingBase.peg? = some p ∧ CanTrap pendingBase ∧
    oldestTrap pendingBase.me.jnext p.pending = some firstTrap ∧ firstTrap.kind < 8 ∧ firstTrap.code < 256 :=
  ⟨_, by decide, rfl, ⟨⟨_, rfl, by decide⟩, by decide⟩, by decide, by decide, by decide⟩

theorem witness_PendingTrapsAreDelivered_command : ∃ (s : State) (p : Peg), s.pegId = some 1 ∧ s.peg? = some p ∧ CanTrap s ∧
    oldestTrap s.me.jnext p.pending = some (cmdTrap 2 0x09 5 7 0 7) :=
  ⟨withPeg (fun p => { p with pending := [cmdTrap 2 0x09 6 0 0 0, cmdTrap 2 0x09 5 7 0 7] }) (withMe (fun k => { k with jnext := 7 }) base), _, by decide,
    rfl, ⟨⟨_, rfl, by decide⟩, by decide⟩, by decide⟩

theorem witness_BoundaryOrder_kill : ∃ (s : State) (p : Peg), s.turn.act = .core 0 ∧ (s.beginTurn s.turn).pegId = some 1 ∧ (s.beginTurn s.turn).peg? = some p ∧
    (s.beginTurn s.turn).me.halted = false ∧ (s.beginTurn s.turn).draining = true :=
  ⟨withBent (fun r => { r with drain := true }) base, _, by decide, by decide, rfl, by decide, by decide⟩

theorem witness_BoundaryOrder_preempt : ∃ (s : State) (p : Peg), s.turn.act = .core 0 ∧ (s.beginTurn s.turn).pegId = some 1 ∧ (s.beginTurn s.turn).peg? = some p ∧
    (s.beginTurn s.turn).me.halted = false ∧ (s.beginTurn s.turn).draining = false ∧ (s.beginTurn s.turn).me.preempt.isSome = true ∧
    ¬ Waits (s.beginTurn s.turn) 3 0xFFFF :=
  ⟨withMe (fun k => { k with preempt := some 0 }) base, _, by decide, by decide, rfl, by decide, by decide, by decide, notWaits _ _ _ rfl rfl rfl⟩

theorem witness_BoundaryOrder_preempt_waits : ∃ (s : State) (p : Peg), (s.beginTurn s.turn).peg? = some p ∧ (s.beginTurn s.turn).draining = false ∧
    (s.beginTurn s.turn).me.preempt.isSome = true ∧ Waits (s.beginTurn s.turn) 3 0xFFFF ∧ (s.beginTurn s.turn).mergeTimeout 0xFFFF = none :=
  ⟨{ withMe (fun k => { k with preempt := some 0 }) base with pending := [someAccess] }, _, rfl, by decide, by decide,
    .inl ⟨someAccess, .head _, by decide, by decide, by decide⟩, by decide⟩

theorem witness_BoundaryOrder_trap : ∃ p : Peg, pendingBase.turn.act = .core 0 ∧ (pendingBase.beginTurn pendingBase.turn).pegId = some 1 ∧
    (pendingBase.beginTurn pendingBase.turn).peg? = some p ∧ (pendingBase.beginTurn pendingBase.turn).me.halted = false ∧
    (pendingBase.beginTurn pendingBase.turn).draining = false ∧ (pendingBase.beginTurn pendingBase.turn).me.preempt = none ∧
    (pendingBase.beginTurn pendingBase.turn).me.regs.trapCause.getLsbD 15 = false ∧
    oldestTrap (pendingBase.beginTurn pendingBase.turn).me.jnext p.pending = some firstTrap :=
  ⟨_, by decide, by decide, rfl, by decide, by decide, by decide, by decide, by decide⟩

/-- A command of the peg of `base`, number 5. -/
def someCmd (op : CmdOp) : Cmd := { base.capture op 0 ⟨255, 0, 255, 0⟩ 0 0 0 0 0 with seq := 5 }

/-- A context of the peg of `base` that its command number 5 launched. -/
def someCtx : Context :=
  Context.start (someCmd .krun) (someCmd .krun).launch 9 0 0 0 [] false 0

theorem witness_TrapReturn_outside : base.me.regs.trapCause.getLsbD 15 = false ∧ CanTrap base := ⟨by decide, base_canTrap⟩

theorem witness_TrapReturn_kinds : (handlerBase 0).me.regs.trapCause.getLsbD 15 = true ∧ trapKind (handlerBase 0).me.regs.trapCause = 0 ∧
    trapKind (handlerBase 1).me.regs.trapCause = 1 ∧ trapKind (handlerBase 2).me.regs.trapCause = 2 ∧
    trapKind (handlerBase 3).me.regs.trapCause = 3 ∧ (handlerBase 3).me.regs.trapCause.getLsbD 15 = true := by decide

/-- In the handler of a frozen context's trap. -/
def ctxHandler : State :=
  withMe (fun k => { k with ctxs := [{ someCtx with frozen := true, trap := some { cmdTrap 1 0x09 5 0 0 0 with seq := some 5 } }] }) (handlerBase 1)

theorem witness_TrapReturn_context : ∃ x : Context, ctxHandler.me.trappedCtx ctxHandler.me.regs.trapSeq = some x := ⟨_, rfl⟩

/-- In the handler of a stopped entry's trap. -/
def cmdHandler (op : CmdOp) (kind : Nat) : State :=
  withMe (fun k => { k with jnext := 6, journal := [{ someCmd op with st := .stopped, progress := 7, trap := some (cmdTrap kind 0x09 5 7 0 7) }] }) (handlerBase kind)

theorem witness_TrapReturn_entry : ∃ (c e : Cmd), (cmdHandler .sgth 2).me.entry (cmdHandler .sgth 2).me.regs.trapSeq = some c ∧ c.st = .stopped ∧ c.op ≠ .krun ∧
    (cmdHandler .jigGo 3).me.entry (cmdHandler .jigGo 3).me.regs.trapSeq = some e ∧ e.st = .stopped :=
  ⟨_, _, rfl, rfl, by decide, rfl, rfl⟩

theorem witness_JournalDrop_traps : (∃ e : Bent, (handlerBase 0).bents.find? (handlerBase 0).myBent = some e) ∧ trapKind (handlerBase 0).me.regs.trapCause = 0 ∧
    base.me.regs.trapCause.getLsbD 15 = false ∧ CanTrap base := ⟨⟨_, rfl⟩, by decide, by decide, base_canTrap⟩

theorem witness_JournalDrop_context : ∃ x : Context, ctxHandler.me.regs.trapCause.getLsbD 15 = true ∧ trapKind ctxHandler.me.regs.trapCause ≠ 0 ∧
    trapKind ctxHandler.me.regs.trapCause = 1 ∧ ctxHandler.me.trappedCtx ctxHandler.me.regs.trapSeq = some x := ⟨_, by decide, by decide, by decide, rfl⟩

theorem witness_JournalDrop_complete : (handlerBase 2).me.entry (handlerBase 2).me.regs.trapSeq = none ∧ trapKind (handlerBase 2).me.regs.trapCause ≠ 1 := by
  decide

theorem witness_JournalDrop_entry : ∃ c : Cmd, (cmdHandler .scpy 2).me.entry (cmdHandler .scpy 2).me.regs.trapSeq = some c ∧ c.st = .stopped ∧ c.op ≠ .krun ∧
    c.op ≠ .coll ∧ c.op ≠ .collAbt ∧ ((cmdHandler .scpy 2).getX 0).getLsbD 0 = false := ⟨_, rfl, rfl, by decide, by decide, by decide, by decide⟩

/-! ## Services, locks, fences and semaphores -/

/-- A probe that is ready, from its decidable form. -/
theorem probe_of (s : State) (l : Loc) (n cls : Nat) (need : Need) (reads : Bool) (h : (match s.probe l n cls need reads with
      | .ready => true
      | _ => false) = true) : s.probe l n cls need reads = .ready := by
  revert h; cases s.probe l n cls need reads <;> simp

/-- The data of `memBase` at an address can be used now. -/
theorem memBase_reaches (va : Word) (n cls : Nat) (need : Need) (reads : Bool) (l : Loc)
    (h1 : memBase.access memBase.myBay memBase.myBent va n need = .ok l) (h2 : (match memBase.probe l n cls need reads with
      | .ready => true
      | _ => false) = true) (h3 : l.cp ≠ 2) : Reaches memBase va n cls need reads l :=
  ⟨h1, by revert h2; cases memBase.probe l n cls need reads <;> simp, .inl h3, fun _ h => nomatch h⟩

theorem witness_ServicesAnswer_descLd : Reaches memBase (memBase.getX 1) 64 (15 : BitVec 4).toNat .read true (loc 0x4000) :=
  memBase_reaches _ _ _ _ _ _ (by decide +kernel) (by decide +kernel) (by decide)

theorem witness_InstructionFlush_waits : ∃ s : State, ∃ a ∈ s.pending, a.agent = s.myAgent ∧ a.lost = false ∧ a.cls < 16 ∧ a.kind.isRead = false :=
  ⟨{ base with pending := [someAccess] }, someAccess, .head _, by decide, by decide, by decide, by decide⟩

theorem witness_InstructionFlush_passes : ∃ s : State, s.pending ≠ [] ∧ ∀ a ∈ s.pending, a.agent = s.myAgent → a.lost = false → a.kind.isRead = true :=
  ⟨{ base with pending := [{ someAccess with kind := .load (.x 1 8 false) }] }, by decide, by decide⟩

theorem witness_KernelLineLocks : base.me.lockCount ≤ 96 ∧ (base.me.frames.map (fun f => (f.bent, f.line))).Nodup ∧
    base.me.lockCount + (klockLines 0x6020).length ≤ 96 ∧ lineNamed 0x6020 0x20 ∧ lineNamed 0x6020 0x7F := by
  refine ⟨by decide, by decide, by decide, ?_, ?_⟩ <;> unfold lineNamed <;> decide

theorem witness_TranslationsAreRemoved : base.privileged = true ∧ 2 ^ 56 ≤ ((withX [(1, 0x0100000000000000)] base).getX 1).toNat ∧
    ((withX [(1, 0x00FFFFFFFFFFFFFF)] base).getX 1).toNat < 2 ^ 56 := by decide

theorem witness_FencesWaitThenPass_clear : ∀ (sc : Nat) (m : BitVec 16), ¬ WaitsForMerges base sc m ∧
    ¬ ∃ e ∈ base.pending, e.agent = base.myAgent ∧ e.no < base.stamp ∧ e.lost = false :=
  fun _ _ => ⟨noMerges _ _ _ rfl rfl, fun ⟨_, h, _⟩ => nomatch h⟩

theorem witness_FencesWaitThenPass_kept : (∀ (sc : Nat) (m : BitVec 16), ¬ WaitsForMerges orderedBase sc m) ∧
    ∃ e ∈ orderedBase.pending, e.agent = orderedBase.myAgent ∧ e.no < orderedBase.stamp ∧ e.lost = false :=
  ⟨fun _ _ => noMerges _ _ _ rfl rfl, someAccess, .head _, by decide, by decide, by decide⟩

/-- `base` with a merge that its peg issued to this package and that has not performed. -/
def mergeBase : State :=
  { base with merges := [{ parties := [⟨0, .peg 1, 1, 1, none, 0, 0x4000⟩], op := .add, loc := loc 0x4000, size := 8, operand := 1, det := false,
                           release := false, sent := 0 }] }

theorem witness_FencesWaitThenPass_merges : WaitsForMerges mergeBase 3 1 ∧ mergeBase.mergeTimeout 1 = none :=
  ⟨⟨by decide, 1, by decide, .inl ⟨_, .head _, _, .head _, by decide⟩⟩, by decide⟩

theorem witness_FencesWaitThenPass_orders : ∃ (s : State) (f : Fence) (e a : Access), f ∈ s.fences ∧ e ∈ s.pending ∧ e.agent = f.agent ∧ a.agent = f.agent ∧
    e.lost = false ∧ e.no < f.no ∧ f.no ≤ a.no ∧ f.mask.getLsbD e.cls = true ∧ f.mask.getLsbD a.cls = true ∧ f.ord = 1 ∧ a.kind.isRead = false :=
  ⟨{ base with pending := [someAccess], fences := [⟨.peg 1, 1, 1, 1⟩] }, ⟨.peg 1, 1, 1, 1⟩, someAccess, { someAccess with no := 1 }, .head _, .head _,
    by decide⟩

/-- A load of the line after that of a pending store, with a release fence between them. -/
theorem witness_FencesWaitThenPass_passes : ∃ (s : State) (a : Access), a.kind.isRead = true ∧ a.ord ≠ 3 ∧ s.answer a.loc.pa a.size = .here ∧
    s.lockedOut a.loc.pa a.size = false ∧ s.merges = [] ∧ s.recordMerges = [] ∧ s.fences ≠ [] ∧ (∀ f ∈ s.fences, f.ord < 3) ∧ s.pending ≠ [] ∧
    (∀ e ∈ s.pending, e.kind.isWrite = true ∧ (e.loc.pa + e.size ≤ a.loc.pa ∨ a.loc.pa + a.size ≤ e.loc.pa)) :=
  ⟨{ base with pending := [someAccess], fences := [⟨.peg 1, 1, 1, 1⟩] },
    { someAccess with no := 1, kind := .load (.x 1 8 false), va := 0x4008, loc := loc 0x4008 }, by decide, by decide, by decide +kernel, by decide +kernel,
    rfl, rfl, by decide, by decide, by decide, by decide⟩

theorem witness_SemaphoreInstructions_signals : ¬ Waits base 1 0xFFFF ∧
    (base.me.sem 254 : Int) + Int.bmod ((withX [(1, 0x7FFF)] base).getX 1).toNat (2 ^ 16) ≤ 65535 ∧
    ∃ s : State, ¬ Waits s 1 0xFFFF ∧ (s.me.sem 0 : Int) + Int.bmod (s.getX 1).toNat (2 ^ 16) = 65535 :=
  ⟨notWaits _ _ _ rfl rfl rfl, by decide +kernel,
    withX [(1, 1)] (withMe (fun k => { k with sems := [(0, 65534)] }) base), notWaits _ _ _ rfl rfl rfl, by decide +kernel⟩

theorem witness_SemaphoreInstructions_overflows : (∃ s : State, ¬ Waits s 1 0xFFFF ∧ CanTrap s ∧
      (s.me.sem 0 : Int) + Int.bmod (s.getX 1).toNat (2 ^ 16) = 65536) ∧
    ∃ s : State, ¬ Waits s 1 0xFFFF ∧ CanTrap s ∧ (s.me.sem 0 : Int) + Int.bmod (s.getX 1).toNat (2 ^ 16) = -1 :=
  ⟨⟨withX [(1, 1)] (withMe (fun k => { k with sems := [(0, 65535)] }) base), notWaits _ _ _ rfl rfl rfl, ⟨⟨_, rfl, by decide⟩, by decide⟩, by decide +kernel⟩,
    withX [(1, 0xFFFF)] base, notWaits _ _ _ rfl rfl rfl, ⟨⟨_, rfl, by decide⟩, by decide⟩, by decide +kernel⟩

theorem witness_SemaphoreInstructions_stalls : ∃ s : State, Waits s 1 0xFFFF :=
  ⟨{ base with pending := [someAccess] }, .inl ⟨someAccess, .head _, by decide, by decide, by decide⟩⟩

theorem witness_SemaphoreInstructions_waits : (base.getX 0).toNat % 2 ^ 16 = base.me.sem 7 ∧
    base.me.sem 7 < ((withX [(1, 1)] base).getX 1).toNat % 2 ^ 16 := by decide

theorem witness_SemaphoreInstructions_waitS : ∃ p : Peg, memBase.peg? = some p ∧ Reaches memBase p.recAddr 64 0 .both true (loc 0x3000) ∧
    (memBase.getX 0).toNat % 2 ^ 16 ≤ memBase.me.sem 7 :=
  ⟨_, rfl, memBase_reaches _ _ _ _ _ _ (by decide +kernel) (by decide +kernel) (by decide), by decide⟩

/-! ## Suspension -/

theorem memBase_waits (sc : Nat) (m : BitVec 16) : ¬ Waits memBase sc m := notWaits memBase sc m rfl rfl rfl

/-- The record of the peg of `memBase` is within reach. -/
theorem memBase_record : Reaches memBase 0x3000 64 0 .both true (loc 0x3000) :=
  memBase_reaches _ _ _ _ _ _ (by decide +kernel) (by decide +kernel) (by decide)

theorem witness_SuspendingInstructions : ∃ p : Peg, CanSuspend memBase 1 p (loc 0x3000) ∧ p.joins = 0 ∧
    memBase.me.sem 0 < (memBase.getX 1).toNat % 2 ^ 16 ∧ memBase.me.holdsFor 1 = false :=
  ⟨_, ⟨by decide, rfl, memBase_record, memBase_waits _ _⟩, by decide, by decide, by decide⟩

/-- The peg of `memBase` with two children and an allocation of its core's SRF. -/
def heldBase : State := withMe (fun k => { k with allocs := [⟨.srf, 0, 16384, 1, 1⟩] }) (withPeg (fun p => { p with joins := 2 }) memBase)

theorem heldBase_record : Reaches heldBase 0x3000 64 0 .both true (loc 0x3000) := by
  refine ⟨by decide +kernel, ?_, by decide, fun _ h => nomatch h⟩
  have h : (match heldBase.probe (loc 0x3000) 64 0 .both true with
    | .ready => true
    | _ => false) = true := by decide +kernel
  revert h
  cases heldBase.probe (loc 0x3000) 64 0 .both true <;> simp

theorem witness_SuspendingInstructions_join : ∃ p : Peg, CanSuspend heldBase 1 p (loc 0x3000) ∧ p.joins ≠ 0 ∧
    heldBase.me.sem 0 < (heldBase.getX 1).toNat % 2 ^ 16 ∧ heldBase.me.holdsFor 1 = true :=
  ⟨_, ⟨by decide, rfl, heldBase_record, notWaits _ _ _ rfl rfl rfl⟩, by decide, by decide, by decide⟩

/-- `memBase` spinning in MWAIT on x1's line. -/
def spinBase : State := withMe (fun k => { k with spin := some ⟨0x40004000, 0x4000, 0, 0, false⟩ }) memBase

theorem witness_MemoryWaits_first : ∃ p : Peg, memBase.pegId = some 1 ∧ memBase.peg? = some p ∧ Reaches memBase p.recAddr 64 0 .both true (loc 0x3000) ∧
    Reaches (reached memBase p.recAddr 64 .both (loc 0x3000)) (memBase.getX 1) 8 0 .read true (loc 0x4000) ∧ memBase.me.spin = none ∧
    (0 : Word) = memBase.getX 0 ∧ (0 : Word) ≠ memBase.getX 1 ∧
    (let s1 := reached memBase p.recAddr 64 .both (loc 0x3000)
     BitVec.ofNat 64 (leNat (meetsBytes (reached s1 (memBase.getX 1) 8 .read (loc 0x4000)) memBase.myBay (loc 0x4000) 8)) = 0) :=
  ⟨_, by decide, rfl, memBase_record,
    ⟨by decide +kernel, probe_of _ _ _ _ _ _ (by decide +kernel), .inl (by decide), fun _ h => nomatch (show _ ∈ ([] : List Accum) from h)⟩, rfl, by decide, by decide, by decide +kernel⟩

theorem witness_MemoryWaits_woken : ∃ (s : State) (p : Peg) (sp : Spin), s.pegId = some 1 ∧ s.peg? = some p ∧ s.me.spin = some sp ∧
    sp.woken = true ∧ s.access s.myBay s.myBent p.recAddr 64 .both = .ok (loc 0x3000) ∧ s.access s.myBay s.myBent (s.getX 1) 8 .read = .ok (loc 0x4000) :=
  ⟨withMe (fun k => { k with spin := some ⟨0x40004000, 0x4000, 0, 0, true⟩ }) memBase, _, _, by decide, rfl, rfl, by decide, by decide +kernel⟩

theorem witness_MemoryWaits_timed : ∃ (s t : State) (sp : Spin), s.me.spin = some sp ∧ sp.woken = false ∧ (s.me.regs.mwaitTmo >>> 32).toNat = 2 ∧
    sp.sinceTs + 2000 ≤ s.timestamp ∧ t.me.spin = some sp ∧ (t.me.regs.mwaitTmo >>> 32).toNat = 2 ∧ t.timestamp < sp.sinceTs + 2000 :=
  ⟨{ withPegRegs (fun r => { r with mwaitTmo := 0x200001000 }) spinBase with timestamp := 2000 },
    { withPegRegs (fun r => { r with mwaitTmo := 0x200001000 }) spinBase with timestamp := 1999 }, _, rfl, by decide, by decide, by decide, rfl, by decide, by decide⟩

theorem witness_MemoryWaits_spinExpiry : ∃ (s : State) (p : Peg) (sp : Spin), s.cur = 0 ∧ s.me.spin = some sp ∧ sp.woken = false ∧ s.me.halted = false ∧
    sp.since + s.me.regs.mwaitTmo.toNat % 2 ^ 16 ≤ s.clk ∧ s.pegId = some 1 ∧ s.peg? = some p ∧ s.recordLoc s.myBay p .both = .ok (loc 0x3000) ∧
    s.recordHeld p = false ∧ ¬ Waits s 3 0xFFFF ∧ ∀ a ∈ s.accums, a.meets (loc 0x3000).pa 64 = false :=
  ⟨{ spinBase with clk := 0x1000 }, _, _, rfl, rfl, by decide, by decide, by decide, by decide, rfl, by decide +kernel, by decide +kernel, notWaits _ _ _ rfl rfl rfl,
    fun _ h => nomatch h⟩

/-- `base` with its peg waiting, core 0 free; bytes 0 to 63 of its record count upwards. -/
def waitBase (w : Wait) (met : Bool) : State :=
  withMe (fun k => { k with peg := none }) (withPeg (fun p => { p with st := .waiting, wait := some w, met := met })
    (withBytes 0x3000 ((List.range 64).map (BitVec.ofNat 8)) base))

theorem witness_MemoryWaits_events : ∃ p : Peg, ((waitBase (.memory 0x40004000 0x4000 0 1) false).pegs.find? 1) = some p ∧
    p.wait = some (.memory 0x40004000 0x4000 0 1) ∧ ∃ s : State, s.pegs.find? 1 = some p ∧ (1 : Nat) ≠ 0 ∧ 0 + 1000 * 1 ≤ s.timestamp :=
  ⟨_, rfl, rfl, { waitBase (.memory 0x40004000 0x4000 0 1) false with timestamp := 1000 }, rfl, by decide, by decide⟩

/-- What a statement about a waiting peg asks of a state. -/
def WaitsFor (s : State) (w : Wait) (holds : Bool) : Prop := ∃ p : Peg, s.pegs.find? 1 = some p ∧ p.st = .waiting ∧ p.wait = some w ∧
  s.recordLoc (p.pool.getD 8) p .both = .ok (loc 0x3000) ∧ s.recordHeld p = false ∧ (∀ a ∈ s.accums, a.meets (loc 0x3000).pa 64 = false) ∧
  s.waitHolds 1 p = holds

theorem witness_WaitingPegsBecomeReady_join : WaitsFor (waitBase .join false) .join true :=
  ⟨_, rfl, rfl, rfl, by decide +kernel, by decide +kernel, (fun _ h => nomatch h), by decide⟩

theorem witness_WaitingPegsBecomeReady_sem : WaitsFor (waitBase (.sem 254 65535) true) (.sem 254 65535) true :=
  ⟨_, rfl, rfl, rfl, by decide +kernel, by decide +kernel, (fun _ h => nomatch h), by decide⟩

/-- A phaser of bay 0, which `base`'s bent owns. -/
def withPhaser (n : Nat) (ph : Phaser) (s : State) : State :=
  withBent (fun r => { r with phBase := 0, phCnt := 1024 }) { s with bays := s.bays.put 0 { s.bay 0 with phasers := (s.bay 0).phasers.put n ph } }

theorem witness_WaitingPegsBecomeReady_phaser :
    WaitsFor (withPhaser 1023 ⟨0, [(.peg 1, .wait, 0x80000001)]⟩ (waitBase (.phaser 0 1023 true) false)) (.phaser 0 1023 true) true :=
  ⟨_, rfl, rfl, rfl, by decide +kernel, by decide +kernel, (fun _ h => nomatch h), by decide⟩

theorem witness_WaitingPegsBecomeReady_memory : WaitsFor (waitBase (.memory 0x40004000 0x4000 0 0) true) (.memory 0x40004000 0x4000 0 0) true ∧
    (waitBase (.memory 0x40004000 0x4000 0 0) true).translate 0 1 0x4000 .read = .ok (loc 0x4000) ∧
    (waitBase (.memory 0x40004000 0x4000 0 0) true).lockedOut (loc 0x4000).pa 8 = false ∧
    (waitBase (.memory 0x40004000 0x4000 0 0) true).poisoned (loc 0x4000).pa 8 = false ∧
    (waitBase (.memory 0x40004000 0x4000 0 0) true).answer (loc 0x4000).pa 8 = .here ∧ (loc 0x4000).cp ≠ 2 ∧
    (waitBase (.memory 0x40004000 0x4000 0 0) true).accums = [] :=
  ⟨⟨_, rfl, rfl, rfl, by decide +kernel, by decide +kernel, (fun _ h => nomatch h), by decide⟩, by decide +kernel, by decide, by decide +kernel, by decide +kernel, by decide, rfl⟩

theorem witness_WaitingPegsBecomeReady_trap : ∃ s : State, WaitsFor s (.sem 0 1) false ∧ ∃ p : Peg, s.pegs.find? 1 = some p ∧ p.pending ≠ [] :=
  ⟨withPeg (fun p => { p with pending := [firstTrap] }) (waitBase (.sem 0 1) false), ⟨_, rfl, rfl, rfl, by decide +kernel, by decide +kernel, (fun _ h => nomatch h), by decide⟩,
    _, rfl, by decide⟩

/-! ## Phasers -/

theorem witness_PhaserAdvances_stays : (∀ e ∈ (⟨7, [(.peg 1, .wait, 7)]⟩ : Phaser).members, e.2.1 = .wait) ∧
    ahead ⟨7, [(.peg 1, .sig, 7)]⟩ 7 = false := by decide

theorem witness_PhaserAdvances_advances : ahead ⟨0xFFFFFFFF, [(.peg 1, .sig, 0), (.peg 2, .sigwait, 1)]⟩ 0 = true ∧
    ahead ⟨0xFFFFFFFF, [(.peg 1, .sig, 0), (.peg 2, .sigwait, 1)]⟩ 1 = true := by decide

/-- `memBase` with phaser 1023 in a phase. -/
def phaserBase (p : BitVec 32) (ms : List (Member × PhMode × BitVec 32)) : State := withPhaser 1023 ⟨p, ms⟩ memBase

theorem phaserBase_canTrap (p : BitVec 32) (ms : List (Member × PhMode × BitVec 32)) : CanTrap (phaserBase p ms) :=
  ⟨⟨{ programBent with phBase := 0, phCnt := 1024 }, rfl, by decide⟩, by rw [show (phaserBase p ms).me.regs.trapCause = 0 from rfl]; decide⟩

theorem witness_PhaserMembership_registers : (phaserBase 0xFFFFFFFF []).pegId = some 1 ∧
    (phaserBase 0xFFFFFFFF []).ownsPhaser (phaserBase 0xFFFFFFFF []).myBent 1023 = true ∧
    ((phaserBase 0xFFFFFFFF []).phaser (phaserBase 0xFFFFFFFF []).myBay 1023).member (.peg 1) = none ∧ CanTrap (phaserBase 0xFFFFFFFF []) :=
  ⟨by decide, by decide, by decide, phaserBase_canTrap _ _⟩

theorem witness_PhaserMembership_signals : ∃ ph : Phaser, (phaserBase 5 [(.peg 1, .sig, 5)]).phaser 0 1023 = ph ∧ ph.member (.peg 1) = some (.sig, 5) ∧
    ahead ph 5 = false ∧ ¬ Waits (phaserBase 5 [(.peg 1, .sig, 5)]) 2 0xFFFF :=
  ⟨_, rfl, by decide, by decide, notWaits _ _ _ rfl rfl rfl⟩

theorem witness_PhaserMembership_signals_twice : ∃ ph : Phaser, (phaserBase 5 [(.peg 1, .sig, 6)]).phaser 0 1023 = ph ∧
    ph.member (.peg 1) = some (.sig, 6) ∧ ahead ph 6 = true ∧ CanTrap (phaserBase 5 [(.peg 1, .sig, 6)]) :=
  ⟨_, rfl, by decide, by decide, phaserBase_canTrap _ _⟩

theorem witness_PhaserMembership_drop : ((phaserBase 5 [(.peg 1, .sig, 5)]).phaser 0 1023).p = 5 ∧
    ((phaserBase 5 [(.peg 1, .sig, 6)]).phaser 0 1023).p ≠ 6 := by decide

theorem witness_PhaserMembership_wait : ((phaserBase 5 [(.peg 1, .wait, 5)]).phaser 0 1023).member (.peg 1) = some (.wait, 5) := by decide

theorem witness_PhaserMembership_forbidden : memBase.pegId = some 1 ∧ memBase.ownsPhaser memBase.myBent 1023 = false ∧ CanTrap memBase :=
  ⟨by decide, by decide, memBase_canTrap⟩

/-- In such a state the record of the peg is within reach. -/
theorem phaserBase_record (p : BitVec 32) (ms : List (Member × PhMode × BitVec 32))
    (h : (match (phaserBase p ms).probe (loc 0x3000) 64 0 .both true with
      | .ready => true
      | _ => false) = true)
    (h2 : (phaserBase p ms).access (phaserBase p ms).myBay (phaserBase p ms).myBent 0x3000 64 .both = .ok (loc 0x3000)) :
    Reaches (phaserBase p ms) 0x3000 64 0 .both true (loc 0x3000) := by
  refine ⟨h2, ?_, .inl (by decide), fun _ h => nomatch h⟩
  revert h
  cases (phaserBase p ms).probe (loc 0x3000) 64 0 .both true <;> simp

theorem witness_PhaserWait_wait : ∃ p : Peg, (phaserBase 6 [(.peg 1, .wait, 5)]).peg? = some p ∧
    Reaches (phaserBase 6 [(.peg 1, .wait, 5)]) p.recAddr 64 0 .both true (loc 0x3000) ∧
    ((phaserBase 6 [(.peg 1, .wait, 5)]).phaser 0 1023).member (.peg 1) = some (.wait, 5) ∧
    phaseReached ((phaserBase 6 [(.peg 1, .wait, 5)]).phaser 0 1023) (5 + 1) = true :=
  ⟨_, rfl, phaserBase_record _ _ (by decide +kernel) (by decide +kernel), by decide, by decide⟩

theorem witness_PhaserWait_wait_suspends : ∃ p : Peg, (phaserBase 5 [(.peg 1, .wait, 5)]).peg? = some p ∧
    Reaches (phaserBase 5 [(.peg 1, .wait, 5)]) p.recAddr 64 0 .both true (loc 0x3000) ∧
    ((phaserBase 5 [(.peg 1, .wait, 5)]).phaser 0 1023).member (.peg 1) = some (.wait, 5) ∧
    phaseReached ((phaserBase 5 [(.peg 1, .wait, 5)]).phaser 0 1023) (5 + 1) = false ∧ ¬ Waits (phaserBase 5 [(.peg 1, .wait, 5)]) 3 0xFFFF :=
  ⟨_, rfl, phaserBase_record _ _ (by decide +kernel) (by decide +kernel), by decide, by decide, notWaits _ _ _ rfl rfl rfl⟩

theorem witness_PhaserWait_sigwait : ∃ p : Peg, (phaserBase 5 [(.peg 1, .sigwait, 5)]).peg? = some p ∧
    Reaches (phaserBase 5 [(.peg 1, .sigwait, 5)]) p.recAddr 64 0 .both true (loc 0x3000) ∧
    ((phaserBase 5 [(.peg 1, .sigwait, 5)]).phaser 0 1023).member (.peg 1) = some (.sigwait, 5) ∧
    phaseReached ((phaserBase 5 [(.peg 1, .sigwait, 5)]).phaser 0 1023) 5 = true :=
  ⟨_, rfl, phaserBase_record _ _ (by decide +kernel) (by decide +kernel), by decide, by decide⟩

theorem witness_PhaserWait_sigwait_suspends : ∃ p : Peg, (phaserBase 4 [(.peg 1, .sigwait, 5)]).peg? = some p ∧
    Reaches (phaserBase 4 [(.peg 1, .sigwait, 5)]) p.recAddr 64 0 .both true (loc 0x3000) ∧
    ((phaserBase 4 [(.peg 1, .sigwait, 5)]).phaser 0 1023).member (.peg 1) = some (.sigwait, 5) ∧
    phaseReached ((phaserBase 4 [(.peg 1, .sigwait, 5)]).phaser 0 1023) 5 = false ∧ ¬ Waits (phaserBase 4 [(.peg 1, .sigwait, 5)]) 3 0xFFFF :=
  ⟨_, rfl, phaserBase_record _ _ (by decide +kernel) (by decide +kernel), by decide, by decide, notWaits _ _ _ rfl rfl rfl⟩

theorem witness_PhaserWait_forbidden : ((phaserBase 5 [(.peg 1, .sig, 6)]).phaser 0 1023).member (.peg 1) = some (.sig, 6) ∧
    ((phaserBase 5 []).phaser 0 1023).member (.peg 1) = none ∧ CanTrap (phaserBase 5 []) ∧ Reaches (phaserBase 5 []) 0x3000 64 0 .both true (loc 0x3000) :=
  ⟨by decide, by decide, phaserBase_canTrap _ _, phaserBase_record _ _ (by decide +kernel) (by decide +kernel)⟩

/-! ## Creating and ending pegs and bents -/

/-- From its decidable parts: data within reach. -/
theorem reaches_of (s : State) (va : Word) (n cls : Nat) (need : Need) (reads : Bool) (l : Loc)
    (h1 : s.access s.myBay s.myBent va n need = .ok l) (h2 : (match s.probe l n cls need reads with
      | .ready => true
      | _ => false) = true) (h3 : l.cp ≠ 2) (h4 : s.accums = []) : Reaches s va n cls need reads l :=
  ⟨h1, by revert h2; cases s.probe l n cls need reads <;> simp, .inl h3, by rw [h4]; intro _ h; nomatch h⟩

/-- `memBase` whose bent has one record slot, at 0x8000, with a template at x1: pc 0x5000, a bent, a STATE word and a LINK. -/
def spawnBase (bent state : Nat) (link : Nat) : State :=
  withBent (fun r => { r with recn := 1, recBase := 0x8000 })
    (withBytes 0x4000 (leBytes 8 0x5000 ++ leBytes 4 bent ++ leBytes 4 state ++ leBytes 40 0x77 ++ leBytes 8 link) memBase)

theorem spawnBase_reaches (bent state link : Nat)
    (h1 : (spawnBase bent state link).access (spawnBase bent state link).myBay (spawnBase bent state link).myBent ((spawnBase bent state link).getX 1) 64 .read = .ok (loc 0x4000))
    (h2 : (match (spawnBase bent state link).probe (loc 0x4000) 64 0 .read true with
      | .ready => true
      | _ => false) = true) :
    Reaches (spawnBase bent state link) ((spawnBase bent state link).getX 1) 64 0 .read true (loc 0x4000) :=
  reaches_of _ _ _ _ _ _ _ h1 h2 (by decide) rfl

theorem witness_SpawnCreatesPegs_refused : ∃ me : Peg, (spawnBase 1 0x40 0).pegId = some 1 ∧ (spawnBase 1 0x40 0).peg? = some me ∧
    Reaches (spawnBase 1 0x40 0) ((spawnBase 1 0x40 0).getX 1) 64 0 .read true (loc 0x4000) ∧
    (template (spawnBase 1 0x40 0) 0x4000 (loc 0x4000)).refused = true ∧ CanTrap (spawnBase 1 0x40 0) :=
  ⟨_, by decide, rfl, spawnBase_reaches _ _ _ (by decide +kernel) (by decide +kernel), by decide +kernel, ⟨⟨_, rfl, by decide⟩, by decide⟩⟩

theorem witness_SpawnCreatesPegs_state : Reaches (spawnBase 1 1 0) ((spawnBase 1 1 0).getX 1) 64 0 .read true (loc 0x4000) ∧
    (template (spawnBase 1 1 0) 0x4000 (loc 0x4000)).state ≠ 0 :=
  ⟨spawnBase_reaches _ _ _ (by decide +kernel) (by decide +kernel), by decide +kernel⟩

/-- `spawnBase` with bent 2, another root. -/
def foreignBase : State := { spawnBase 2 0 0 with bents := (spawnBase 2 0 0).bents.put 2 programBent }

theorem witness_SpawnCreatesPegs_foreign : ∃ tb : Bent, Reaches foreignBase (foreignBase.getX 1) 64 0 .read true (loc 0x4000) ∧
    (template foreignBase 0x4000 (loc 0x4000)).refused = false ∧ (template foreignBase 0x4000 (loc 0x4000)).state = 0 ∧
    foreignBase.bents.find? (template foreignBase 0x4000 (loc 0x4000)).bent = some tb ∧
    foreignBase.under (template foreignBase 0x4000 (loc 0x4000)).bent foreignBase.myBent = false ∧ CanTrap foreignBase :=
  ⟨programBent, reaches_of _ _ _ _ _ _ _ (by decide +kernel) (by decide +kernel) (by decide) rfl, by decide +kernel, by decide +kernel, by decide +kernel,
    by decide +kernel, ⟨⟨_, rfl, by decide⟩, by decide⟩⟩

theorem witness_SpawnCreatesPegs_noSlot : ∃ (s : State) (tb : Bent), Reaches s (s.getX 1) 64 0 .read true (loc 0x4000) ∧
    s.bents.find? (template s 0x4000 (loc 0x4000)).bent = some tb ∧ s.under (template s 0x4000 (loc 0x4000)).bent s.myBent = true ∧ tb.drain = false ∧
    s.pickSlot tb = none ∧ CanTrap s :=
  ⟨withBytes 0x4000 (leBytes 12 (0x5000 + 2 ^ 64)) memBase, programBent,
    reaches_of _ _ _ _ _ _ _ (by decide +kernel) (by decide +kernel) (by decide) rfl, by decide +kernel, by decide +kernel, by decide, by decide,
    ⟨⟨_, rfl, by decide⟩, by decide⟩⟩

theorem witness_SpawnCreatesPegs_joins : ∃ (s : State) (me : Peg), s.peg? = some me ∧ (template s 0x4000 (loc 0x4000)).link ≠ 0 ∧ 65535 ≤ me.joins :=
  ⟨withPeg (fun p => { p with joins := 65535 }) (spawnBase 1 0 1), _, rfl, by decide +kernel, by decide⟩

theorem pickSlot_one (s : State) (r : Bent) (h : r.recn = 1) (h2 : r.slots = []) : s.pickSlot r = some 0 := by
  simp [State.pickSlot, h, h2, freeSlot, AMap.has, AMap.find?, Nat.mod_one]

theorem witness_SpawnCreatesPegs_spawns : ∃ (me : Peg) (tb : Bent), (spawnBase 1 0 1).pegId = some 1 ∧ (spawnBase 1 0 1).peg? = some me ∧
    Reaches (spawnBase 1 0 1) ((spawnBase 1 0 1).getX 1) 64 0 .read true (loc 0x4000) ∧
    (template (spawnBase 1 0 1) 0x4000 (loc 0x4000)).refused = false ∧ (template (spawnBase 1 0 1) 0x4000 (loc 0x4000)).state = 0 ∧
    (spawnBase 1 0 1).bents.find? (template (spawnBase 1 0 1) 0x4000 (loc 0x4000)).bent = some tb ∧
    (spawnBase 1 0 1).under (template (spawnBase 1 0 1) 0x4000 (loc 0x4000)).bent (spawnBase 1 0 1).myBent = true ∧ tb.drain = false ∧
    (spawnBase 1 0 1).pickSlot tb = some 0 ∧ (template (spawnBase 1 0 1) 0x4000 (loc 0x4000)).link = 1 ∧
    (spawnBase 1 0 1).place (spawnBase 1 0 1).myBay (template (spawnBase 1 0 1) 0x4000 (loc 0x4000)).bent true = .pool (spawnBase 1 0 1).myBay ∧ me.joins < 65535 ∧
    (spawnBase 1 0 1).recordLoc (spawnBase 1 0 1).myBay (Peg.fresh (tb.recBase + BitVec.ofNat 64 (64 * 0)) (template (spawnBase 1 0 1) 0x4000 (loc 0x4000)).bent) .both =
      .ok (loc 0x8000) ∧ (spawnBase 1 0 1).lockedOut (loc 0x8000).pa 64 = false ∧ ¬ Waits (spawnBase 1 0 1) 3 0xFFFF ∧ (spawnBase 1 0 1).pegs.find? (spawnBase 1 0 1).stamp = none :=
  ⟨_, { programBent with recn := 1, recBase := 0x8000 }, by decide, rfl, spawnBase_reaches _ _ _ (by decide +kernel) (by decide +kernel), by decide +kernel,
    by decide +kernel, by decide +kernel, by decide +kernel, by decide, pickSlot_one _ _ rfl rfl, by decide +kernel, by decide +kernel, by decide, by decide +kernel,
    by decide +kernel, notWaits _ _ _ rfl rfl rfl, by decide⟩

/-- An enqueue's answer of 3 for a refused record. -/
theorem witness_EnqueueAnswers_refused : (spawnBase 1 0x40 0).privileged = true ∧
    Reaches (spawnBase 1 0x40 0) ((spawnBase 1 0x40 0).getX 1) 64 0 .read true (loc 0x4000) ∧ (template (spawnBase 1 0x40 0) 0x4000 (loc 0x4000)).refused = true :=
  ⟨by decide, spawnBase_reaches _ _ _ (by decide +kernel) (by decide +kernel), by decide +kernel⟩

theorem witness_EnqueueAnswers_absent : Reaches (spawnBase 9 1 0) ((spawnBase 9 1 0).getX 1) 64 0 .read true (loc 0x4000) ∧
    (template (spawnBase 9 1 0) 0x4000 (loc 0x4000)).refused = false ∧ (spawnBase 9 1 0).bents.find? (template (spawnBase 9 1 0) 0x4000 (loc 0x4000)).bent = none :=
  ⟨spawnBase_reaches _ _ _ (by decide +kernel) (by decide +kernel), by decide +kernel⟩

theorem witness_EnqueueAnswers_foreign : ∃ tb : Bent, foreignBase.bents.find? (template foreignBase 0x4000 (loc 0x4000)).bent = some tb ∧
    foreignBase.root (template foreignBase 0x4000 (loc 0x4000)).bent ≠ foreignBase.root foreignBase.myBent :=
  ⟨programBent, by decide +kernel⟩

/-- What EnqueueAnswers asks before it looks at the record's state. -/
def Enqueues (s : State) : Prop := s.privileged = true ∧ Reaches s (s.getX 1) 64 0 .read true (loc 0x4000) ∧
  (template s 0x4000 (loc 0x4000)).refused = false ∧ ∃ tb : Bent, s.bents.find? (template s 0x4000 (loc 0x4000)).bent = some tb ∧ tb.drain = false ∧
    s.root (template s 0x4000 (loc 0x4000)).bent = s.root s.myBent

theorem spawnBase_enqueues (state : Nat)
    (h0 : (spawnBase 1 state 0).privileged = true)
    (h1 : (spawnBase 1 state 0).access (spawnBase 1 state 0).myBay (spawnBase 1 state 0).myBent ((spawnBase 1 state 0).getX 1) 64 .read = .ok (loc 0x4000))
    (h2 : (match (spawnBase 1 state 0).probe (loc 0x4000) 64 0 .read true with
      | .ready => true
      | _ => false) = true)
    (h3 : (template (spawnBase 1 state 0) 0x4000 (loc 0x4000)).refused = false) (h4 : (template (spawnBase 1 state 0) 0x4000 (loc 0x4000)).bent = 1)
    (h5 : (spawnBase 1 state 0).root 1 = (spawnBase 1 state 0).root (spawnBase 1 state 0).myBent) : Enqueues (spawnBase 1 state 0) :=
  ⟨h0, spawnBase_reaches _ _ _ h1 h2, h3, { programBent with recn := 1, recBase := 0x8000 }, by rw [h4]; rfl, rfl, by rw [h4]; exact h5⟩

theorem witness_EnqueueAnswers_saved : Enqueues (spawnBase 1 0x21 0) ∧ (template (spawnBase 1 0x21 0) 0x4000 (loc 0x4000)).psave = true ∧
    Enqueues (spawnBase 1 2 0) ∧ (template (spawnBase 1 2 0) 0x4000 (loc 0x4000)).st ≠ 1 :=
  ⟨spawnBase_enqueues _ (by decide) (by decide +kernel) (by decide +kernel) (by decide +kernel) (by decide +kernel) (by decide +kernel), by decide +kernel,
    spawnBase_enqueues _ (by decide) (by decide +kernel) (by decide +kernel) (by decide +kernel) (by decide +kernel) (by decide +kernel), by decide +kernel⟩

theorem witness_EnqueueAnswers_taken : ∃ s : State, Reaches s (s.getX 1) 64 0 .read true (loc 0x3000) ∧ (template s 0x3000 (loc 0x3000)).refused = false ∧
    (template s 0x3000 (loc 0x3000)).st = 1 ∧ (template s 0x3000 (loc 0x3000)).psave = false ∧ (s.pegAt (s.root s.myBent) (s.getX 1)).isSome = true :=
  ⟨withX [(1, 0x3000)] (withBytes 0x3008 (leBytes 8 (1 + 2 ^ 32)) base),
    reaches_of _ _ _ _ _ _ _ (by decide +kernel) (by decide +kernel) (by decide) rfl, by decide +kernel⟩

theorem witness_EnqueueAnswers_enqueues : Enqueues (spawnBase 1 1 0) ∧ (template (spawnBase 1 1 0) 0x4000 (loc 0x4000)).st = 1 ∧
    (template (spawnBase 1 1 0) 0x4000 (loc 0x4000)).psave = false ∧
    ((spawnBase 1 1 0).pegAt ((spawnBase 1 1 0).root (spawnBase 1 1 0).myBent) ((spawnBase 1 1 0).getX 1)).isSome = false ∧
    (spawnBase 1 1 0).recordLoc (spawnBase 1 1 0).myBay (Peg.fresh ((spawnBase 1 1 0).getX 1) (template (spawnBase 1 1 0) 0x4000 (loc 0x4000)).bent) .both = .ok (loc 0x4000) ∧
    (spawnBase 1 1 0).place (spawnBase 1 1 0).myBay (template (spawnBase 1 1 0) 0x4000 (loc 0x4000)).bent ((template (spawnBase 1 1 0) 0x4000 (loc 0x4000)).link != 0) =
      .pool (spawnBase 1 1 0).myBay ∧ ¬ Waits (spawnBase 1 1 0) 3 0xFFFF :=
  ⟨spawnBase_enqueues _ (by decide) (by decide +kernel) (by decide +kernel) (by decide +kernel) (by decide +kernel) (by decide +kernel), by decide +kernel,
    by decide +kernel, by decide +kernel, by decide +kernel, by decide +kernel, notWaits _ _ _ rfl rfl rfl⟩

theorem witness_EnqueueAnswers_noRoom : ∃ s : State, Enqueues s ∧ (template s 0x4000 (loc 0x4000)).st = 1 ∧ (template s 0x4000 (loc 0x4000)).psave = false ∧
    (s.pegAt (s.root s.myBent) (s.getX 1)).isSome = false ∧
    s.place s.myBay (template s 0x4000 (loc 0x4000)).bent ((template s 0x4000 (loc 0x4000)).link != 0) = .noRoom :=
  ⟨{ withBent (fun r => { r with ovqn := 0 }) (spawnBase 1 1 0) with pegs := (rangeFrom 1 4096).map (fun i => (i, { Peg.fresh (BitVec.ofNat 64 (0x10000 * i)) 1 with st := .running })) }, ⟨by decide, reaches_of _ _ _ _ _ _ _ (by decide +kernel) (by decide +kernel) (by decide) rfl, by decide +kernel,
    { programBent with recn := 1, recBase := 0x8000, ovqn := 0 }, by decide +kernel, by decide, by decide +kernel⟩, by decide +kernel⟩

theorem witness_ExitEndsThePeg_joins : ∃ p : Peg, CanSuspend heldBase 1 p (loc 0x3000) ∧ p.joins ≠ 0 ∧ CanTrap heldBase :=
  ⟨_, ⟨by decide, rfl, heldBase_record, notWaits _ _ _ rfl rfl rfl⟩, by decide, ⟨⟨_, rfl, by decide⟩, by decide⟩⟩

theorem witness_ExitEndsThePeg_work : ∃ (s : State) (p : Peg), CanSuspend s 1 p (loc 0x3000) ∧ p.joins = 0 ∧ s.hasWork 1 = true :=
  ⟨withMe (fun k => { k with journal := [someCmd .scpy], jnext := 6 }) base, _, ⟨by decide, rfl, reaches_of _ _ _ _ _ _ _ (by decide +kernel) (by decide +kernel) (by decide) rfl,
    notWaits _ _ _ rfl rfl rfl⟩, by decide, by decide⟩

theorem witness_ExitEndsThePeg_ends : ∃ (s : State) (p pp : Peg), CanSuspend s 1 p (loc 0x3000) ∧ p.joins = 0 ∧ s.hasWork 1 = false ∧
    p.parent = some 2 ∧ s.pegs.find? 2 = some pp ∧ pp.joins = 1 :=
  ⟨withPeg (fun p => { p with parent := some 2 }) { base with pegs := base.pegs.put 2 { Peg.fresh 0x6000 1 with joins := 1 } }, _, _,
    ⟨by decide, rfl, reaches_of _ _ _ _ _ _ _ (by decide +kernel) (by decide +kernel) (by decide) rfl, notWaits _ _ _ rfl rfl rfl⟩, by decide, by decide, rfl, rfl, by decide⟩

/-- `memBase` with a bent template at x1: FLAGS, INH 0x3F and the counts of R335, and an OVQN. -/
def bentBase (ovqn : Nat) : State :=
  { withBytes 0x4000 (leBytes 8 0x0000010000000000 ++ leBytes 8 0x3F ++ leBytes 8 5 ++ leBytes 40 0 ++ leBytes 8 ovqn ++ leBytes 40 0 ++
      leBytes 32 (0xFF + 2 ^ 64 * 0xFF + 2 ^ 128 * 0xFF + 2 ^ 192 * 0xFF)) memBase with mgmt := { memBase.mgmt with bentMax := 2 } }

theorem bentBase_reaches (n : Nat) (h1 : (bentBase n).access (bentBase n).myBay (bentBase n).myBent ((bentBase n).getX 1) 256 .read = .ok (loc 0x4000))
    (h2 : (match (bentBase n).probe (loc 0x4000) 256 0 .read true with
      | .ready => true
      | _ => false) = true) : Reaches (bentBase n) ((bentBase n).getX 1) 256 0 .read true (loc 0x4000) :=
  reaches_of _ _ _ _ _ _ _ h1 h2 (by decide) rfl

theorem witness_BentCreation_bad : (bentBase 255).privileged = true ∧ Reaches (bentBase 255) ((bentBase 255).getX 1) 256 0 .read true (loc 0x4000) ∧
    (bentBase 255).bents.find? (bentBase 255).myBent = some programBent ∧
    (bentBase 255).badBent ((Bent.ofTemplate ((bentBase 255).bytesAt none (loc 0x4000).pa 256)).inherit programBent) 0 0 = true ∧ CanTrap (bentBase 255) :=
  ⟨by decide, bentBase_reaches _ (by decide +kernel) (by decide +kernel), rfl, by decide +kernel, ⟨⟨_, rfl, by decide⟩, by decide⟩⟩

theorem bentBase_ok : Reaches (bentBase 256) ((bentBase 256).getX 1) 256 0 .read true (loc 0x4000) ∧
    templateReserved ((bentBase 256).bytesAt none (loc 0x4000).pa 256) false = false ∧
    (bentBase 256).badBent ((Bent.ofTemplate ((bentBase 256).bytesAt none (loc 0x4000).pa 256)).inherit programBent) 0 0 = false :=
  ⟨bentBase_reaches _ (by decide +kernel) (by decide +kernel), by decide +kernel⟩

/-- With bent 1 in use, 2 is the one number of two that is free. -/
theorem witness_BentCreation_creates : (bentBase 256).privileged = true ∧ (bentBase 256).pickBent = some 2 ∧ programBent.level < 8 ∧
    leNat ((((bentBase 256).bytesAt none (loc 0x4000).pa 256).drop 8).take 2) / 2 ^ 5 % 2 = 1 := by
  refine ⟨by decide, ?_, by decide, by decide +kernel⟩
  have h : (bentBase 256).pickBent = freeBent (bentBase 256).bents 2 2 ((Config.freeWord 0).toNat % 2) := rfl
  rw [h]
  obtain h | h : (Config.freeWord 0).toNat % 2 = 0 ∨ (Config.freeWord 0).toNat % 2 = 1 := by omega
  all_goals rw [h]; decide

theorem witness_BentCreation_open : ∀ n, (bentBase 256).pickBent = some n → (bentBase 256).lockedOut ((bentBase 256).bentLoc n).pa 256 = false := by
  intro n h
  obtain rfl : 2 = n := Option.some.inj (witness_BentCreation_creates.2.1.symm.trans h)
  decide +kernel

theorem witness_BentCreation_none : ({ bentBase 256 with mgmt := { (bentBase 256).mgmt with bentMax := 0 } } : State).pickBent = none := by decide

theorem witness_BentCreation_deep : ∃ (s : State) (p : Bent), Reaches s (s.getX 1) 256 0 .read true (loc 0x4000) ∧ s.bents.find? s.myBent = some p ∧ 8 ≤ p.level ∧
    templateReserved (s.bytesAt none (loc 0x4000).pa 256) false = false ∧
    s.badBent ((Bent.ofTemplate (s.bytesAt none (loc 0x4000).pa 256)).inherit p) p.phBase p.phCnt = false :=
  ⟨withBent (fun r => { r with level := 8 }) (bentBase 256), { programBent with level := 8 },
    reaches_of _ _ _ _ _ _ _ (by decide +kernel) (by decide +kernel) (by decide) rfl, rfl, by decide, by decide +kernel⟩

theorem witness_BentsEnd_kill : ∃ (s t : State) (r : Bent), s.privileged = true ∧ s.bents.find? (s.getX 1).toNat = some r ∧ s.root (s.getX 1).toNat = s.root s.myBent ∧
    t.privileged = true ∧ t.bents.find? (t.getX 1).toNat = none ∧ CanTrap t :=
  ⟨withX [(1, 1)] base, withX [(1, 2)] base, _, by decide, rfl, by decide, by decide, by decide, ⟨⟨_, rfl, by decide⟩, by decide⟩⟩

theorem witness_BentsEnd_killPeg : ∃ (s : State) (p : Peg) (r : Bent), s.pegs.find? 1 = some p ∧ s.bents.find? p.bent = some r ∧ r.drain = true ∧
    s.recordHeld p = false ∧ (∀ e ∈ s.cores, ∀ x ∈ e.2.ctxs, x.peg ≠ 1) :=
  ⟨withBent (fun r => { r with drain := true }) base, _, _, rfl, rfl, by decide, by decide +kernel, by decide⟩

theorem witness_BentsEnd_writeback : ∃ r : Bent, base.bents.find? 1 = some r ∧ base.lockedOut (base.bentLoc 1).pa 256 = false ∧
    (∀ e ∈ base.bents, e.2.drain = false) ∧ base.accums = [] ∧ ∃ o, base.region (base.bentLoc 1).pa = .hbm o :=
  ⟨_, rfl, by decide +kernel, by decide, rfl, (base.bentLoc 1).pa, by decide +kernel⟩

theorem witness_BentsEnd_ends : ∃ (s : State) (r : Bent), s.bents.find? 1 = some r ∧ s.lockedOut (s.bentLoc 1).pa 256 = false ∧ r.drain = true ∧
    s.busyBent 1 = false :=
  ⟨{ withBent (fun r => { r with drain := true }) base with pegs := [] }, _, rfl, by decide +kernel, by decide, by decide⟩

/-! ## Scribe records -/

theorem witness_ScribeInstructions : Reaches memBase (memBase.getX 1) 128 0 .both false (loc 0x4000) ∧
    Reaches memBase (memBase.getX 1) 128 0 .home false (loc 0x4000) ∧ memBase.poisoned (loc 0x4000).pa 128 = false ∧
    memBase.poisoned ((loc 0x4000).pa + 4 * (31 : BitVec 5).toNat) 4 = false ∧ ¬ Waits memBase (memBase.me.regs.ordScope.toNat % 8) 1 :=
  ⟨memBase_reaches _ _ _ _ _ _ (by decide +kernel) (by decide +kernel) (by decide), memBase_reaches _ _ _ _ _ _ (by decide +kernel) (by decide +kernel) (by decide),
    by decide +kernel, by decide +kernel, memBase_waits _ _⟩

/-- A record of epoch 5 and AMAX `amax` at x1; x2 holds 6. -/
def scaleBase (amax : Nat) : State := withBytes 0x4004 (leBytes 8 (5 + 2 ^ 32 * amax)) (withX [(2, 6)] memBase)

theorem witness_QuantisationScales : scalable 14 = true ∧ Reaches (scaleBase 0x3F800000) ((scaleBase 0x3F800000).getX 1) 128 0 .home false (loc 0x4000) ∧
    (scaleBase 0x3F800000).poisoned ((loc 0x4000).pa + 4) 8 = false ∧ recordField (scaleBase 0x3F800000) (loc 0x4000) 4 = 5 ∧
    recordField (scaleBase 0x3F800000) (loc 0x4000) 8 = 0x3F800000 ∧ recordField (scaleBase 0x7FC00000) (loc 0x4000) 8 = 0x7FC00000 ∧
    ((scaleBase 0x3F800000).getX 2).toNat % 2 ^ 32 = 6 ∧ CanTrap (scaleBase 0x3F800000) :=
  ⟨by decide, reaches_of _ _ _ _ _ _ _ (by decide +kernel) (by decide +kernel) (by decide) rfl, by decide +kernel, by decide +kernel, by decide +kernel, by decide +kernel,
    by decide +kernel, ⟨⟨_, rfl, by decide⟩, by decide⟩⟩

end Sys2Proof.Tests
end

