-- ==== Sys2Proof/Tests/Engines.lean ====
section
/-! SUPPORT. Witnesses for the statements about commands, jig runs, kernel contexts and kernel units. -/

set_option Elab.async false

namespace Sys2Proof.Tests

open Sys2Proof Sys2Proof.Machine Sys2Proof.Claims

/-! ## Commands -/

/-- `base` with journal entries on core 0, numbers 5 and up. -/
def cmdBase (l : List Cmd) : State := withMe (fun k => { k with journal := l, jnext := 300 }) base

theorem witness_CommandsAreJournalled_room : commandOf base (.sillGo 31 0 ⟨255, 0, 255, 0⟩) = some ⟨.sillGo, 0, ⟨255, 0, 255, 0⟩, base.getX 31, base.getX 0, 0, 0, 0⟩ ∧
    base.me.journal.length < 256 ∧ ∃ s : State, s.me.journal.length < 256 ∧ runsBehind s.me = 2 :=
  ⟨rfl, by decide +kernel, cmdBase [someCmd .jigGo, someCmd .jigRev, someCmd .scpy], by decide +kernel⟩

theorem witness_CommandsAreJournalled_full : ∃ s : State, 256 ≤ s.me.journal.length :=
  ⟨cmdBase (List.replicate 256 (someCmd .scpy)), by decide +kernel⟩

theorem witness_CommandsAreJournalled_runs : ∃ (s : State) (r : Issued), commandOf s (.jigGo ⟨255, 0, 255, 0⟩) = some r ∧ isRun r.op = true ∧ 3 ≤ runsBehind s.me :=
  ⟨cmdBase [someCmd .jigGo, someCmd .jigRev, someCmd .jigGo], _, rfl, by decide +kernel⟩

/-- A queued SALLOC of one bank. -/
def allocCmd : Cmd := { someCmd (.salloc .srf) with xa := 0x4000, xb := 0x4000 }

theorem witness_StartsCommands_waits : ∃ c : Cmd, ((cmdBase [{ allocCmd with ws := ⟨0, 1, 255, 0⟩ }]).core 0).head .reduce = some c ∧
    (cmdBase [{ allocCmd with ws := ⟨0, 1, 255, 0⟩ }]).mayRun 0 c = true ∧ c.st = .queued ∧ ¬ WaitMet (cmdBase [{ allocCmd with ws := ⟨0, 1, 255, 0⟩ }]) 0 c := by
  refine ⟨{ allocCmd with ws := ⟨0, 1, 255, 0⟩ }, by decide +kernel, by decide +kernel, by decide +kernel, ?_⟩
  rintro (h | h | h) <;> revert h <;> decide

theorem witness_StartsCommands_granted : ∃ c : Cmd, ((cmdBase [allocCmd]).core 0).head .reduce = some c ∧ (cmdBase [allocCmd]).mayRun 0 c = true ∧ c.st = .queued ∧
    WaitMet (cmdBase [allocCmd]) 0 c ∧ (cmdBase [allocCmd]).issueDone c = true ∧ c.op.admin = true ∧ c.held = false ∧ c.ready = false ∧
    (cmdBase [allocCmd]).granted 0 c ((cmdBase [allocCmd]).claimsOf 0 c) = true :=
  ⟨allocCmd, by decide +kernel, by decide +kernel, by decide +kernel, .inr (.inl (by decide +kernel)), by decide +kernel⟩

/-- A load that holds the bank, ahead of the SALLOC. -/
def blockedBase : State :=
  cmdBase [{ someCmd (.sld .plain false) with seq := 4, st := .running, ready := true, held := true, claims := [⟨.srf, 0, true⟩] }, allocCmd]

theorem witness_StartsCommands_blocked : (blockedBase.core 0).head .reduce = some allocCmd ∧ blockedBase.mayRun 0 allocCmd = true ∧
    WaitMet blockedBase 0 allocCmd ∧ blockedBase.issueDone allocCmd = true ∧ blockedBase.granted 0 allocCmd (blockedBase.claimsOf 0 allocCmd) = false :=
  ⟨by decide +kernel, by decide +kernel, .inr (.inl (by decide +kernel)), by decide +kernel⟩

/-- The SALLOC running, after allocations of the core. -/
def allocBase (l : List Alloc) : State :=
  withMe (fun k => { k with allocs := l }) (cmdBase [{ allocCmd with st := .running, ready := true }])

theorem witness_AllocatesRanges_good : ∃ c : Cmd, ((allocBase [⟨.srf, 0, 0x4000, 1, 1⟩]).core 0).head .reduce = some c ∧
    (allocBase [⟨.srf, 0, 0x4000, 1, 1⟩]).mayRun 0 c = true ∧ c.st = .running ∧ c.ready = true ∧ c.op = .salloc .srf ∧ c.progress = 0 ∧
    c.xa.toNat % 256 = 0 ∧ c.xb.toNat % 256 = 0 ∧ c.xb.toNat ≠ 0 ∧ c.xa.toNat + c.xb.toNat ≤ 0x200000 ∧
    ∀ a ∈ ((allocBase [⟨.srf, 0, 0x4000, 1, 1⟩]).core 0).allocs, a.base + a.len ≤ c.xa.toNat :=
  ⟨_, rfl, by decide +kernel⟩

theorem witness_AllocatesRanges_taken : ∃ c : Cmd, ((allocBase [⟨.srf, 0x7F00, 0x100, 1, 1⟩]).core 0).head .reduce = some c ∧ c.op = .salloc .srf ∧
    ∃ a ∈ ((allocBase [⟨.srf, 0x7F00, 0x100, 1, 1⟩]).core 0).allocs, a.space = .srf ∧ ¬ (a.base + a.len ≤ c.xa.toNat ∨ c.xa.toNat + c.xb.toNat ≤ a.base) :=
  ⟨_, rfl, by decide +kernel, ⟨.srf, 0x7F00, 0x100, 1, 1⟩, .head _, by decide +kernel⟩

/-! ### Administrative commands and operand checks -/

/-- A descriptor: BASE, the counts from bit 64 up, the strides from bit 192 up, FMT, CTL, SCALE and SCRIBE. -/
@[irreducible] def tensor (at_ counts strides fmt ctl scale scribe : Nat) : Desc :=
  let at_bit (n v : Nat) : Desc := BitVec.ofNat 512 v <<< n
  at_bit 0 at_ ||| at_bit 64 counts ||| at_bit 192 strides ||| at_bit 336 fmt ||| at_bit 344 ctl ||| at_bit 384 scale ||| at_bit 448 scribe

/-- A descriptor of one row. -/
def row (at_ n fmt : Nat) : Desc := tensor at_ n 0 fmt 0 0 0

/-- `cmdBase` of one command whose bent has every byte of the typed buffers. -/
def elemBase (c : Cmd) : State :=
  withMe (fun k => { k with allocs := [⟨.srf, 0, 0x200000, 1, 1⟩, ⟨.wb, 0, 0x200000, 1, 1⟩, ⟨.acc, 0, 0xC0000, 1, 1⟩] }) (cmdBase [c])

/-- A command past its checks. -/
def running (op : CmdOp) (a b i : Desc) : Cmd := { someCmd op with st := .running, held := true, ready := true, da := a, db := b, di := i }

/-- A data command whose wait is met and whose reservation nothing stands against. -/
def Starts (s : State) (c : Cmd) : Prop := (s.core 0).head c.op.queue = some c ∧ s.mayRun 0 c = true ∧ c.st = .queued ∧ WaitMet s 0 c ∧
  s.issueDone c = true ∧ c.op.data = true ∧ c.held = false ∧ c.ready = false ∧ s.granted 0 c (s.claimsOf 0 c) = true

theorem starts_of (s : State) (c : Cmd) (h : c.ws.wsem = 255)
    (h1 : (s.core 0).head c.op.queue = some c ∧ s.mayRun 0 c = true ∧ c.st = .queued)
    (h2 : s.issueDone c = true ∧ c.op.data = true ∧ c.held = false ∧ c.ready = false ∧ s.granted 0 c (s.claimsOf 0 c) = true) : Starts s c :=
  ⟨h1.1, h1.2.1, h1.2.2, .inr (.inl h), h2⟩

/-- A queued command of two descriptors. -/
def queued (op : CmdOp) (a b i : Desc) : Cmd := { someCmd op with da := a, db := b, di := i }

theorem witness_ChecksOperands_reserved : Starts (elemBase (queued .scpy (tensor 0 1 1 0x4B 0 0 0) (row 0x100 1 0x4B) 0)) (queued .scpy (tensor 0 1 1 0x4B 0 0 0) (row 0x100 1 0x4B) 0) ∧
    (Dsc.parse (tensor 0 1 1 0x4B 0 0 0) 0).reserved = true :=
  ⟨starts_of _ _ (by decide) (by decide +kernel) (by decide +kernel), by decide +kernel⟩

theorem witness_ChecksOperands_spaces :
    Starts (elemBase (queued (.sld .plain false) (row 0 1 0x4B) (row 0x100 1 0x4B) 0)) (queued (.sld .plain false) (row 0 1 0x4B) (row 0x100 1 0x4B) 0) ∧
    Starts (elemBase (queued .sred (row 0 1 0x4B) (row 0x100 1 0x4B) 0)) (queued .sred (row 0 1 0x4B) (row 0x100 1 0x4B) 0) ∧
    Starts (elemBase (queued .scpy (row 0 1 0x0B) (row 0x100 1 0x4B) 0)) (queued .scpy (row 0 1 0x0B) (row 0x100 1 0x4B) 0) ∧
    (Dsc.parse (row 0 1 0x4B) 0).space = some .srf ∧ (Dsc.parse (row 0 1 0x0B) 0).space = none :=
  ⟨starts_of _ _ (by decide) (by decide +kernel) (by decide +kernel), starts_of _ _ (by decide) (by decide +kernel) (by decide +kernel),
    starts_of _ _ (by decide) (by decide +kernel) (by decide +kernel), by decide +kernel⟩

theorem witness_ChecksOperands_counts :
    Starts (elemBase (queued (.sst .none) (row 0x4000 2 0x0B) (row 0x100 1 0x4B) 0)) (queued (.sst .none) (row 0x4000 2 0x0B) (row 0x100 1 0x4B) 0) ∧
    Starts (elemBase (queued .sgth (row 0 2 0x4B) (row 0x4000 1 0x0B) (row 0x100 1 0x43))) (queued .sgth (row 0 2 0x4B) (row 0x4000 1 0x0B) (row 0x100 1 0x43)) ∧
    (Dsc.parse (row 0x4000 2 0x0B) 0).count = 2 ∧ (Dsc.parse (row 0x100 1 0x4B) 0).count = 1 :=
  ⟨starts_of _ _ (by decide) (by decide +kernel) (by decide +kernel), starts_of _ _ (by decide) (by decide +kernel) (by decide +kernel), by decide +kernel⟩

theorem witness_ChecksOperands_types :
    Starts (elemBase (queued (.ssct true) (row 0x4000 1 0x00) (row 0 1 0x4B) (row 0x100 1 0x43))) (queued (.ssct true) (row 0x4000 1 0x00) (row 0 1 0x4B) (row 0x100 1 0x43)) ∧
    Starts (elemBase (queued (.sst (.pow2 false)) (row 0x4000 1 0x07) (row 0 1 0x4B) 0)) (queued (.sst (.pow2 false)) (row 0x4000 1 0x07) (row 0 1 0x4B) 0) ∧
    Starts (elemBase (queued .scpy (row 0 1 0x4D) (row 0x100 1 0x4B) 0)) (queued .scpy (row 0 1 0x4D) (row 0x100 1 0x4B) 0) ∧
    (Dsc.parse (row 0x4000 1 0x00) 0).et = .i8 ∧ (Dsc.parse (row 0 1 0x4B) 0).scribe = 0 ∧ (Dsc.parse (row 0 1 0x4D) 0).et.isC = true :=
  ⟨starts_of _ _ (by decide) (by decide +kernel) (by decide +kernel), starts_of _ _ (by decide) (by decide +kernel) (by decide +kernel),
    starts_of _ _ (by decide) (by decide +kernel) (by decide +kernel), by decide +kernel⟩

/-- What the last clause of ChecksOperands asks of two descriptors before steps 2 and 3. -/
def Step1 (d sr : Dsc) : Prop := d.reserved = false ∧ sr.reserved = false ∧ d.space = some .srf ∧ sr.space = some .srf ∧ d.count = sr.count ∧
  d.gs = 0 ∧ sr.gs = 0 ∧ d.et ∈ [ET.i8, .i32, .f32, .bf16] ∧ sr.et ∈ [ET.i8, .i32, .f32, .bf16] ∧ d.scale = 0 ∧ sr.scale = 0

theorem witness_ChecksOperands_steps :
    (Starts (elemBase (queued .scpy (row 2 1 0x4B) (row 0x100 1 0x4B) 0)) (queued .scpy (row 2 1 0x4B) (row 0x100 1 0x4B) 0) ∧
      Step1 (Dsc.parse (row 2 1 0x4B) 0) (Dsc.parse (row 0x100 1 0x4B) 0) ∧ (Dsc.parse (row 2 1 0x4B) 0).base % 4 ≠ 0) ∧
    (Starts (elemBase (queued .scpy (row 0 1 0x43) (row 0x100 1 0x4B) 0)) (queued .scpy (row 0 1 0x43) (row 0x100 1 0x4B) 0) ∧
      Step1 (Dsc.parse (row 0 1 0x43) 0) (Dsc.parse (row 0x100 1 0x4B) 0) ∧
      ET.ofCode (((elemBase (queued .scpy (row 0 1 0x43) (row 0x100 1 0x4B) 0)).core 0).fmtOf 0).toNat ≠ .i32) ∧
    (Starts (elemBase (queued .scpy (row 0 1 0x4B) (row 0x1FFFFC 1 0x4B) 0)) (queued .scpy (row 0 1 0x4B) (row 0x1FFFFC 1 0x4B) 0) ∧
      Step1 (Dsc.parse (row 0 1 0x4B) 0) (Dsc.parse (row 0x1FFFFC 1 0x4B) 0)) :=
  ⟨⟨starts_of _ _ (by decide) (by decide +kernel) (by decide +kernel), by unfold Step1; decide +kernel⟩,
    ⟨starts_of _ _ (by decide) (by decide +kernel) (by decide +kernel), by unfold Step1; decide +kernel⟩,
    starts_of _ _ (by decide) (by decide +kernel) (by decide +kernel), by unfold Step1; decide +kernel⟩

/-- A running SFREE of bytes 0 to 0xFFF of a space. -/
def freeCmd (sp : LocalSpace) (n : Word) : Cmd := { running (.sfree sp) 0 0 0 with xa := 0, xb := n }

theorem atElement_of (s : State) (c : Cmd) (h : (s.core 0).head c.op.queue = some c ∧ s.mayRun 0 c = true ∧ c.st = .running ∧ c.ready = true ∧
    s.unperformed (.queue 0 c.op.queue) c.no = false) : AtElement s 0 c := h

theorem witness_AllocatesRanges : AtElement (allocBase [⟨.srf, 0, 0x4000, 1, 1⟩]) 0 { allocCmd with st := .running, ready := true } ∧
    rangeOk .srf 0x4000 0x4000 ∧ rangeOk .acc 0xBF000 0x1000 ∧ ¬ rangeOk .acc 0xBF000 0x2000 ∧ apart 0 0x4000 0x4000 0x4000 := by
  refine ⟨atElement_of _ _ (by decide +kernel), ?_, ?_, ?_, ?_⟩ <;> simp only [rangeOk, apart] <;> decide

theorem witness_FreesRanges : AtElement (elemBase (freeCmd .acc 0xC0000)) 0 (freeCmd .acc 0xC0000) ∧ rangeOk .acc 0 0xC0000 ∧
    ⟨.acc, 0, 0xC0000, 1, 1⟩ ∈ ((elemBase (freeCmd .acc 0xC0000)).core 0).allocs ∧
    (∀ e ∈ ((elemBase (freeCmd .acc 0xC0000)).core 0).allocs, e.peg = (freeCmd .acc 0xC0000).peg → e.bent = (freeCmd .acc 0xC0000).bent) :=
  ⟨atElement_of _ _ (by decide +kernel), by simp only [rangeOk]; decide, by decide +kernel, by decide +kernel⟩

theorem witness_FreesRanges_unheld : AtElement (elemBase (freeCmd .srf 0x100)) 0 (freeCmd .srf 0x100) ∧
    ¬ ∃ e ∈ ((elemBase (freeCmd .srf 0x100)).core 0).allocs, e.space = .srf ∧ e.base = 0 ∧ e.len = 0x100 ∧ e.peg = (freeCmd .srf 0x100).peg :=
  ⟨atElement_of _ _ (by decide +kernel), by decide +kernel⟩

/-- Macro 31 of the WB seated. -/
def seatedBase (c : Cmd) : State :=
  withMe (fun k => { k with regions := [{ macro0 := 31, count := 1, k := 32, n := 64, et := 5, gs := 1, bwd := false, bent := 1, peg := 1 }] }) (elemBase c)

theorem witness_FreesRanges_seated : AtElement (seatedBase (freeCmd .wb 0x200000)) 0 (freeCmd .wb 0x200000) ∧ rangeOk .wb 0 0x200000 ∧
    (∃ e ∈ ((seatedBase (freeCmd .wb 0x200000)).core 0).allocs, e.space = .wb ∧ e.base = 0 ∧ e.len = 0x200000 ∧ e.peg = (freeCmd .wb 0x200000).peg) ∧
    ∃ r ∈ ((seatedBase (freeCmd .wb 0x200000)).core 0).regions, r.macro0 ≤ 31 ∧ 31 < r.macro0 + r.count :=
  ⟨atElement_of _ _ (by decide +kernel), by simp only [rangeOk]; decide, by decide +kernel, by decide +kernel⟩

/-- One allocation that holds a range. -/
theorem allocated_of (k : Core) (sp : LocalSpace) (bent lo n : Nat) (a : Alloc) (h : a ∈ k.allocs)
    (h1 : a.space = sp ∧ a.bent = bent ∧ a.base ≤ lo ∧ lo + n ≤ a.base + a.len) : Allocated k sp bent lo n := by
  intro x hx hy
  simp only [Core.allocated, List.any_eq_true, Bool.and_eq_true, decide_eq_true_eq]
  exact ⟨a, h, ⟨⟨h1.1, h1.2.1⟩, by omega⟩, by omega⟩

/-- The whole SRF is allocated. -/
def srfAll : Alloc := ⟨.srf, 0, 0x200000, 1, 1⟩

theorem witness_SetsEngineState_bank : ∃ c : Cmd, c = { running (.sbank 15) 0 0 0 with xa := 0x20 } ∧ AtElement (elemBase c) 0 c ∧
    formatAccepted (c.xa.toNat % 2 ^ 9) ∧ Allocated ((elemBase c).core 0) .srf c.bent (0x20000 * 15) 0x20000 ∧ ¬ formatAccepted 5 :=
  ⟨_, rfl, atElement_of _ _ (by decide +kernel), by unfold formatAccepted; decide, allocated_of _ _ _ _ _ srfAll (.head _) (by decide), by unfold formatAccepted; decide⟩

/-- A region of one macro: 32 rows of 64 q4 codes in groups of 32, from macro `m`. -/
def weights (m scale : Nat) : Desc := tensor (0x10000 * m) (64 + 2 ^ 32 * 32 + 2 ^ 64) (32 + 2 ^ 48 * 0x10000) 0x95 2 scale 0

theorem weights_seatable : Seatable (Dsc.parse (weights 31 0) 0) := by unfold Seatable; decide +kernel

theorem witness_SetsEngineState_seat : AtElement (elemBase (running (.seat true) (weights 31 0) 0 0)) 0 (running (.seat true) (weights 31 0) 0 0) ∧
    Allocated ((elemBase (running (.seat true) (weights 31 0) 0 0)).core 0) .wb 1 (0x10000 * 31) 0x10000 ∧
    ¬ Seatable (Dsc.parse (weights 31 0x4000) 0) ∧
    AtElement (seatedBase (running (.seat true) (weights 31 0) 0 0)) 0 (running (.seat true) (weights 31 0) 0 0) :=
  ⟨atElement_of _ _ (by decide +kernel), allocated_of _ _ _ _ _ ⟨.wb, 0, 0x200000, 1, 1⟩ (.tail _ (.head _)) (by decide),
    by unfold Seatable; decide +kernel, atElement_of _ _ (by decide +kernel)⟩

theorem witness_SetsEngineState_unseat : AtElement (seatedBase (running .unseat (weights 31 0) 0 0)) 0 (running .unseat (weights 31 0) 0 0) ∧
    (Dsc.parse (weights 31 0) 0).reserved = false ∧ (Dsc.parse (weights 31 0) 0).typeOk = true ∧
    (∃ r ∈ ((seatedBase (running .unseat (weights 31 0) 0 0)).core 0).regions,
      0x10000 * r.macro0 = (Dsc.parse (weights 31 0) 0).base ∧ r.count = (Dsc.parse (weights 31 0) 0).c2 ∧ r.bent = 1) ∧
    (Dsc.parse (weights 31 0x4000) 0).scale ≠ 0 :=
  ⟨atElement_of _ _ (by decide +kernel), by decide +kernel⟩

theorem witness_SetsEngineState_finish : AtElement (elemBase { running .finSet 0 0 0 with xa := 0x2C070B }) 0 { running .finSet 0 0 0 with xa := 0x2C070B } ∧
    (0x2C070B < 2 ^ 22 ∧ 0x2C070B / 2 ^ 7 % 2 = 0 ∧ 0x2C070B / 2 ^ 17 % 8 ≠ 7 ∧ (ET.ofCode (0x2C070B % 16)).packed = false ∧
      0x2C070B / 2 ^ 10 % 2 = 1 ∧ 0x2C070B / 2 ^ 15 % 2 = 0 ∧ 0x2C070B / 2 ^ 8 % 4 = 3) ∧
    AtElement (elemBase { running .finSet 0 0 0 with xa := 0xE000B }) 0 { running .finSet 0 0 0 with xa := 0xE000B } ∧ 0xE000B / 2 ^ 17 % 8 = 7 :=
  ⟨atElement_of _ _ (by decide +kernel), by decide, atElement_of _ _ (by decide +kernel), by decide⟩

/-! ### Elements -/

theorem moving_of (s : State) (c : Cmd) (h : (s.core 0).head c.op.queue = some c ∧ s.mayRun 0 c = true ∧ c.st = .running ∧ c.ready = true ∧
    s.unperformed (.queue 0 c.op.queue) c.no = false) (h2 : c.op.data = true ∧ s.aheadTurn = false ∧ c.ahead = [] ∧ c.stats = none) : Moving s 0 c := ⟨h, h2⟩

/-- Whether a command may use a place of the SRF, byte by byte. -/
def srfUsable (k : Core) (c : Cmd) (d : Dsc) (p : Spot) : Bool :=
  decide (0 ≤ p.lo) && decide (p.lo.toNat + p.len ≤ 0x200000) && (List.range p.len).all (fun i =>
    k.allocated .srf c.bent (p.lo.toNat + i) && decide (k.fmtOf ((p.lo.toNat + i) / 0x20000) = k.fmtOf (d.base / 0x20000)))

theorem usable_srf (k : Core) (c : Cmd) (d : Dsc) (p : Spot) (write : Bool) (h : srfUsable k c d p = true) : Usable k c d .srf p write := by
  simp only [srfUsable, Bool.and_eq_true, decide_eq_true_eq, List.all_eq_true, List.mem_range] at h
  have h' : ∀ a, p.lo.toNat ≤ a → a < p.lo.toNat + p.len → k.allocated .srf c.bent a = true ∧ k.fmtOf (a / 0x20000) = k.fmtOf (d.base / 0x20000) := by
    intro a h1 h2
    have := h.2 (a - p.lo.toNat) (by omega)
    rwa [show p.lo.toNat + (a - p.lo.toNat) = a by omega] at this
  exact ⟨h.1.1, h.1.2, fun a h1 h2 => (h' a h1 h2).1, fun a h1 h2 => (h' a h1 h2).2⟩

/-- What a command reads in the SRF. -/
theorem fetched_srf (s : State) (c : Cmd) (d : Dsc) (p : Spot) (hd : d.space = some .srf) (h1 : Usable (s.core 0) c d .srf p false)
    (h2 : (s.core 0).bufPoisoned .srf p.lo.toNat p.len = false) :
    Claims.Fetched s 0 c d p (p.get ((s.core 0).readBuf .srf p.lo.toNat p.len)) s := by
  unfold Claims.Fetched; rw [hd]; exact ⟨h1, h2, rfl, rfl⟩

/-- What a command leaves in the SRF. -/
theorem written_srf (s : State) (c : Cmd) (d : Dsc) (p : Spot) (v : Nat) (hd : d.space = some .srf) (h1 : Usable (s.core 0) c d .srf p true) :
    Written s 0 c d p v (s.setCore 0 ((s.core 0).writeBuf .srf p.lo.toNat (p.put ((s.core 0).readBuf .srf p.lo.toNat p.len) v))) := by
  unfold Written; rw [hd]; exact ⟨h1, rfl⟩

/-- A read of global memory that succeeds. -/
theorem fetched_global (s : State) (c : Cmd) (d : Dsc) (p : Spot) (hd : d.space = none)
    (h : (match s.gRead (s.bayOf 0) (byQueue c 0) p.va p.len with
      | .ok _ _ => true
      | _ => false) = true) : ∃ v t, Claims.Fetched s 0 c d p v t := by
  unfold Claims.Fetched; rw [hd]
  generalize s.gRead (s.bayOf 0) (byQueue c 0) p.va p.len = g at h ⊢
  cases g with
  | ok t data => exact ⟨_, t, data, rfl, rfl⟩
  | _ => simp at h

/-- A write of whole bytes of global memory that succeeds. -/
theorem written_global (s : State) (c : Cmd) (d : Dsc) (p : Spot) (v : Nat) (hd : d.space = none) (h8 : p.width % 8 = 0)
    (h : (match s.gWrite (s.bayOf 0) (byQueue c 0) p.va (leBytes p.len v) with
      | .ok _ _ => true
      | _ => false) = true) : ∃ t, Written s 0 c d p v t := by
  unfold Written; rw [hd]; simp only [h8, if_true]
  generalize s.gWrite (s.bayOf 0) (byQueue c 0) p.va (leBytes p.len v) = g at h ⊢
  cases g with
  | ok t data => exact ⟨t, data, rfl⟩
  | _ => simp at h

/-- An element without a scale. -/
theorem sourced_plain (s t : State) (c : Cmd) (d sr : Dsc) (i : Idx) (p : Spot) (raw : Nat) (h : Claims.Fetched s 0 c sr p raw t) (h1 : sr.et ≠ .e2m1) (h2 : sr.gs = 0) :
    Sourced s 0 c d sr i p raw (sr.et.decode false raw) t := by
  refine ⟨t, h, ?_⟩
  rw [if_neg h1]
  exact ⟨fun q => absurd h2 q.1, fun _ => ⟨rfl, rfl⟩⟩

theorem noScales (c : Cmd) (d sr : Dsc) (h : d.gs = 0) : ¬ scalesMove c d sr := fun q => q.1 h

/-- Three f32 elements copied from SRF byte 0x100 to SRF byte 0, the last of them next. -/
def copyCmd : Cmd := { running .scpy (row 0 3 0x4B) (row 0x100 3 0x4B) 0 with progress := 2 }

/-- `elemBase` with the f32 greatest value at SRF bytes 0x100 to 0x10B. -/
def dataBase (c : Cmd) : State := withMe (fun k => { k with srf := ByteMap.wrN [] 0x100 (leBytes 12 0x7F7FFFFF7F7FFFFF7F7FFFFF) }) (elemBase c)

/-- The places of the element: its source and its destination. -/
theorem copy_usable : Usable ((dataBase copyCmd).core 0) copyCmd (Dsc.parse copyCmd.db 0) .srf (spotAt (Dsc.parse copyCmd.db 0) (walk (Dsc.parse copyCmd.db 0) 2)) false ∧
    Usable ((dataBase copyCmd).core 0) copyCmd (Dsc.parse copyCmd.da 0) .srf (spotAt (Dsc.parse copyCmd.da 0) (walk (Dsc.parse copyCmd.da 0) 2)) true :=
  ⟨usable_srf _ _ _ _ _ (by decide +kernel),
    usable_srf _ _ _ _ _ (by decide +kernel)⟩

theorem witness_MovesElements_copy : ∃ (i di : Idx) (p : Spot) (raw : Nat) (v : Val) (t : State),
    descriptors copyCmd = (Dsc.parse copyCmd.da 0, Dsc.parse copyCmd.db 0, Dsc.parse copyCmd.di 0) ∧
    Moving (dataBase copyCmd) 0 copyCmd ∧ copyCmd.scale = none ∧ copyCmd.op.merges = false ∧ (Dsc.parse copyCmd.da 0).et ≠ .e2m1 ∧
    ¬ scalesMove copyCmd (Dsc.parse copyCmd.da 0) (Dsc.parse copyCmd.db 0) ∧ copyCmd.progress < elementsOf copyCmd (Dsc.parse copyCmd.da 0) (Dsc.parse copyCmd.db 0) ∧
    SourceOf (dataBase copyCmd) 0 copyCmd (Dsc.parse copyCmd.da 0) (Dsc.parse copyCmd.db 0) (Dsc.parse copyCmd.di 0) 2 i p (dataBase copyCmd) ∧
    DestOf (dataBase copyCmd) 0 copyCmd (Dsc.parse copyCmd.da 0) (Dsc.parse copyCmd.di 0) 2 di (dataBase copyCmd) ∧
    Sourced (dataBase copyCmd) 0 copyCmd (Dsc.parse copyCmd.da 0) (Dsc.parse copyCmd.db 0) i p raw v (dataBase copyCmd) ∧
    Written (dataBase copyCmd) 0 copyCmd (Dsc.parse copyCmd.da 0) (spotAt (Dsc.parse copyCmd.da 0) di) (conjugated copyCmd (Dsc.parse copyCmd.db 0).et raw v).1 t :=
  ⟨_, _, _, _, _, _, rfl, moving_of _ _ (by decide +kernel) (by decide +kernel), rfl, rfl, by decide +kernel, noScales _ _ _ (by decide +kernel), by decide +kernel,
    ⟨rfl, rfl, rfl⟩, ⟨rfl, rfl⟩,
    sourced_plain _ _ _ _ _ _ _ _ (fetched_srf _ _ _ _ (by decide +kernel) copy_usable.1 (by decide +kernel)) (by decide +kernel) (by decide +kernel),
    written_srf _ _ _ _ _ (by decide +kernel) copy_usable.2⟩

/-- A strided load, a transpose and a gather of one f32 element into SRF byte 0. -/
def loadCmd (m : SldMode) : Cmd :=
  running (.sld m false) (tensor 0 (4 + 2 ^ 32 * 16) 64 0x4B 1 0 0) (tensor 0x4000 (16 + 2 ^ 32 * 4) 64 0x0B 1 0 0) (row 0x8000 16 0x03)

theorem witness_MovesElements_transpose : ∃ (v : Nat) (t : State), Moving (elemBase (loadCmd .transpose)) 0 (loadCmd .transpose) ∧
    Claims.Fetched (elemBase (loadCmd .transpose)) 0 (loadCmd .transpose) (Dsc.parse (loadCmd .transpose).db 0) (spotAt (Dsc.parse (loadCmd .transpose).db 0) ⟨0, 0, 0, 0⟩) v t ∧
    (walk (Dsc.parse (loadCmd .transpose).da 0) 0) = ⟨0, 0, 0, 0⟩ := by
  obtain ⟨v, t, h⟩ := fetched_global (elemBase (loadCmd .transpose)) (loadCmd .transpose) (Dsc.parse (loadCmd .transpose).db 0)
    (spotAt (Dsc.parse (loadCmd .transpose).db 0) ⟨0, 0, 0, 0⟩) (by decide +kernel) (by decide +kernel)
  exact ⟨v, t, moving_of _ _ (by decide +kernel) (by decide +kernel), h, by decide +kernel⟩

/-- A scatter of SRF element 0 to the global element that the i32 index at SRF byte 0x20000 names. -/
def scatterCmd (m : Bool) : Cmd := running (.ssct m) (row 0x4000 2 0x0B) (row 0x100 1 0x4B) (row 0x20000 1 0x43)

/-- The bank of the index holds i32 elements; the index is `x`. -/
def scatterBase (c : Cmd) (x : Nat) : State :=
  withMe (fun k => { k with srfFmt := [(1, 3)], srf := ByteMap.wrN k.srf 0x20000 (leBytes 4 x) }) (dataBase c)

theorem scatter_index (m : Bool) (x : Nat) (hx : x = 1 ∨ x = 2) :
    indexAt (scatterCmd m) (Dsc.parse (scatterCmd m).di 0) 0 (scatterBase (scatterCmd m) x) 0 x (scatterBase (scatterCmd m) x) := by
  refine ⟨_, fetched_srf _ _ _ _ ?_ (usable_srf _ _ _ _ _ ?_) ?_, ?_⟩
  all_goals obtain rfl | rfl := hx
  all_goals cases m <;> decide +kernel

/-- The source of a scatter. -/
theorem scatter_source (m : Bool) :
    Claims.Fetched (scatterBase (scatterCmd m) 1) 0 (scatterCmd m) (Dsc.parse (scatterCmd m).db 0) (spotAt (Dsc.parse (scatterCmd m).db 0) (walk (Dsc.parse (scatterCmd m).db 0) 0))
      0x7F7FFFFF (scatterBase (scatterCmd m) 1) := by
  have h := fetched_srf (scatterBase (scatterCmd m) 1) (scatterCmd m) (Dsc.parse (scatterCmd m).db 0)
    (spotAt (Dsc.parse (scatterCmd m).db 0) (walk (Dsc.parse (scatterCmd m).db 0) 0)) (by cases m <;> decide +kernel)
    (usable_srf _ _ _ _ _ (by cases m <;> decide +kernel))
    (by cases m <;> decide +kernel)
  convert h using 1
  cases m <;> decide +kernel

theorem witness_MovesElements_scatter : ∃ t : State, Moving (scatterBase (scatterCmd false) 1) 0 (scatterCmd false) ∧
    DestOf (scatterBase (scatterCmd false) 1) 0 (scatterCmd false) (Dsc.parse (scatterCmd false).da 0) (Dsc.parse (scatterCmd false).di 0) 0
      (walk (Dsc.parse (scatterCmd false).da 0) 1) (scatterBase (scatterCmd false) 1) ∧
    Sourced (scatterBase (scatterCmd false) 1) 0 (scatterCmd false) (Dsc.parse (scatterCmd false).da 0) (Dsc.parse (scatterCmd false).db 0)
      (walk (Dsc.parse (scatterCmd false).db 0) 0) (spotAt (Dsc.parse (scatterCmd false).db 0) (walk (Dsc.parse (scatterCmd false).db 0) 0))
      0x7F7FFFFF ((Dsc.parse (scatterCmd false).db 0).et.decode false 0x7F7FFFFF) (scatterBase (scatterCmd false) 1) ∧
    Written (scatterBase (scatterCmd false) 1) 0 (scatterCmd false) (Dsc.parse (scatterCmd false).da 0)
      (spotAt (Dsc.parse (scatterCmd false).da 0) (walk (Dsc.parse (scatterCmd false).da 0) 1)) 0x7F7FFFFF t := by
  obtain ⟨t, h⟩ := written_global (scatterBase (scatterCmd false) 1) (scatterCmd false) (Dsc.parse (scatterCmd false).da 0)
    (spotAt (Dsc.parse (scatterCmd false).da 0) (walk (Dsc.parse (scatterCmd false).da 0) 1)) 0x7F7FFFFF (by decide +kernel) (by decide +kernel) (by decide +kernel)
  exact ⟨t, moving_of _ _ (by decide +kernel) (by decide +kernel), ⟨1, scatter_index _ _ (.inl rfl), by decide, by decide +kernel, by decide +kernel⟩,
    sourced_plain _ _ _ _ _ _ _ _ (scatter_source false) (by decide +kernel) (by decide +kernel), h⟩

/-- A quantised store of one f32 element of SRF byte 0x100 into an i8 element at 0x4000, its scale kept; `thr` the overflow threshold. -/
def quantCmd (thr : Nat) : Cmd :=
  { running (.sst (.pow2 false)) (row 0x4000 1 0x00) (tensor 0x100 1 0 0x4B 0 0 0x8000) 0 with scale := some 127, thr := thr }

theorem quant_source (thr : Nat) (h : thr = 0 ∨ thr = 1) : ∃ v : Val,
    Moving (dataBase (quantCmd thr)) 0 (quantCmd thr) ∧ Sourced (dataBase (quantCmd thr)) 0 (quantCmd thr) (Dsc.parse (quantCmd thr).da 0) (Dsc.parse (quantCmd thr).db 0)
      (walk (Dsc.parse (quantCmd thr).db 0) 0) (spotAt (Dsc.parse (quantCmd thr).db 0) (walk (Dsc.parse (quantCmd thr).db 0) 0)) 0x7F7FFFFF v (dataBase (quantCmd thr)) ∧
    (convertQuant .i8 .rne (generator (quantCmd thr) 0) (v.toF.mul (scaleVal false 127))).2 = true := by
  refine ⟨_, moving_of _ _ ?_ ?_, sourced_plain _ _ _ _ _ _ _ _ ?_ ?_ ?_, ?_⟩
  case refine_3 =>
    have h2 := fetched_srf (dataBase (quantCmd thr)) (quantCmd thr) (Dsc.parse (quantCmd thr).db 0)
      (spotAt (Dsc.parse (quantCmd thr).db 0) (walk (Dsc.parse (quantCmd thr).db 0) 0)) (by obtain rfl | rfl := h <;> decide +kernel)
      (usable_srf _ _ _ _ _ (by obtain rfl | rfl := h <;> decide +kernel)) (by obtain rfl | rfl := h <;> decide +kernel)
    convert h2 using 1
    obtain rfl | rfl := h <;> decide +kernel
  all_goals obtain rfl | rfl := h <;> decide +kernel

theorem witness_QuantisesElements : (∃ v : Val, Moving (dataBase (quantCmd 0)) 0 (quantCmd 0) ∧ Sourced (dataBase (quantCmd 0)) 0 (quantCmd 0)
      (Dsc.parse (quantCmd 0).da 0) (Dsc.parse (quantCmd 0).db 0) (walk (Dsc.parse (quantCmd 0).db 0) 0)
      (spotAt (Dsc.parse (quantCmd 0).db 0) (walk (Dsc.parse (quantCmd 0).db 0) 0)) 0x7F7FFFFF v (dataBase (quantCmd 0)) ∧ (quantCmd 0).thr < min ((quantCmd 0).ovf + 1) (2 ^ 32 - 1)) ∧
    ∃ t, Written (dataBase (quantCmd 1)) 0 (quantCmd 1) (Dsc.parse (quantCmd 1).da 0) (spotAt (Dsc.parse (quantCmd 1).da 0) (walk (Dsc.parse (quantCmd 1).da 0) 0)) 127 t := by
  obtain ⟨v, h1, h2, -⟩ := quant_source 0 (.inl rfl)
  exact ⟨⟨v, h1, h2, by decide⟩, written_global _ _ _ _ _ (by decide +kernel) (by decide +kernel) (by decide +kernel)⟩

theorem witness_MergesElements : Moving (scatterBase (scatterCmd true) 1) 0 (scatterCmd true) ∧ (Dsc.parse (scatterCmd true).da 0).et = .f32 ∧
    indexAt (scatterCmd true) (Dsc.parse (scatterCmd true).di 0) 0 (scatterBase (scatterCmd true) 1) 0 1 (scatterBase (scatterCmd true) 1) ∧
    Claims.Fetched (scatterBase (scatterCmd true) 1) 0 (scatterCmd true) (Dsc.parse (scatterCmd true).db 0)
      (spotAt (Dsc.parse (scatterCmd true).db 0) (walk (Dsc.parse (scatterCmd true).db 0) 0)) 0x7F7FFFFF (scatterBase (scatterCmd true) 1) ∧
    (scatterBase (scatterCmd true) 1).access 0 1 (spotAt (Dsc.parse (scatterCmd true).da 0) (walk (Dsc.parse (scatterCmd true).da 0) 1)).va 4 .both = .ok (loc 0x4004) :=
  ⟨moving_of _ _ (by decide +kernel) (by decide +kernel), by decide +kernel, scatter_index _ _ (.inl rfl), scatter_source true, by decide +kernel⟩

/-- An SRED of one f32 element to an address that nothing maps. -/
def lostCmd : Cmd := running .sred (row 0x40000000 1 0x0B) (row 0x100 1 0x4B) 0

theorem witness_MergesElements_refused : Moving (dataBase lostCmd) 0 lostCmd ∧
    (dataBase lostCmd).access 0 1 (spotAt (Dsc.parse lostCmd.da 0) (walk (Dsc.parse lostCmd.da 0) 0)).va 4 .both = .error 0x06 ∧
    Usable ((dataBase lostCmd).core 0) lostCmd (Dsc.parse lostCmd.db 0) .srf (spotAt (Dsc.parse lostCmd.db 0) (walk (Dsc.parse lostCmd.db 0) 0)) false :=
  ⟨moving_of _ _ (by decide +kernel) (by decide +kernel), by decide +kernel,
    usable_srf _ _ _ _ _ (by decide +kernel)⟩

/-- Elements of the SRF read in turn. -/
theorem sourcedAll_srf (s : State) (c : Cmd) (d sr ix : Dsc) (h : sr.space = some .srf) (h1 : sr.et ≠ .e2m1) (h2 : sr.gs = 0) (h3 : c.op = .scpy) :
    ∀ es : List Nat, (∀ e ∈ es, Usable (s.core 0) c sr .srf (spotAt sr (walk sr e)) false ∧
      (s.core 0).bufPoisoned .srf (spotAt sr (walk sr e)).lo.toNat (spotAt sr (walk sr e)).len = false) →
    SourcedAll 0 c d sr ix es s (es.map (fun e =>
      let raw := (spotAt sr (walk sr e)).get ((s.core 0).readBuf .srf (spotAt sr (walk sr e)).lo.toNat (spotAt sr (walk sr e)).len)
      (raw, sr.et.decode false raw))) s
  | [], _ => rfl
  | e :: es, hu => by
    refine ⟨s, s, walk sr e, spotAt sr (walk sr e), ?_, ?_, sourcedAll_srf s c d sr ix h h1 h2 h3 es (fun x hx => hu x (.tail _ hx))⟩
    · unfold SourceOf; rw [h3]; exact ⟨rfl, rfl, rfl⟩
    · exact sourced_plain _ _ _ _ _ _ _ _ (fetched_srf _ _ _ _ h (hu e (.head _)).1 (hu e (.head _)).2) h1 h2

/-- A write of the SRF keeps the allocations and formats that decide what may be used. -/
theorem usable_after (k : Core) (c : Cmd) (d : Dsc) (p : Spot) (o : Nat) (data : List Byte) (h : Usable k c d .srf p true) :
    Usable (k.writeBuf .srf o data) c d .srf p true := h

/-- Codes written to the SRF in turn. -/
theorem writtenAll_srf (c : Cmd) (d : Dsc) (h : d.space = some .srf) (es : List Nat) : ∀ (qs : List Nat) (s : State), es.length = qs.length →
    (∀ e ∈ es, Usable (s.core 0) c d .srf (spotAt d (walk d e)) true) → ∃ t, WrittenAll 0 c d es s qs t := by
  induction es with
  | nil => intro qs s hl _; cases qs with
    | nil => exact ⟨s, rfl⟩
    | cons => simp at hl
  | cons e es ih => intro qs s hl hu; cases qs with
    | nil => simp at hl
    | cons q qs =>
      have hw := written_srf s c d (spotAt d (walk d e)) q h (hu e (.head _))
      obtain ⟨t, ht⟩ := ih qs (s.setCore 0 ((s.core 0).writeBuf .srf (spotAt d (walk d e)).lo.toNat
        ((spotAt d (walk d e)).put ((s.core 0).readBuf .srf (spotAt d (walk d e)).lo.toNat (spotAt d (walk d e)).len) q))) (Nat.succ.inj hl) (fun x hx => by
          rw [State.core_setCore_same]
          exact usable_after _ _ _ _ _ _ (hu x (.tail _ hx)))
      exact ⟨t, _, hw, ht⟩

/-- 32 elements of SRF byte 0x40000 up into a block of e2m1 at SRF byte 0x20000, in a bank of that type. -/
def blockCmd (sfmt : Nat) : Cmd := running .scpy (row 0x20000 32 0x4E) (row 0x40000 32 sfmt) 0

/-- The banks of the command, and the source's first bytes. -/
def blockBase (sfmt : Nat) (data : List Byte) : State :=
  withMe (fun k => { k with srfFmt := [(1, 14), (2, BitVec.ofNat 64 (sfmt % 16))], srf := ByteMap.wrN [] 0x40000 data }) (elemBase (blockCmd sfmt))

/-- Every element of a block may be read at its source and written at its destination. -/
def blockUsable (s : State) (c : Cmd) : Bool :=
  (List.range 32).all (fun e => srfUsable (s.core 0) c (Dsc.parse c.da 0) (spotAt (Dsc.parse c.da 0) (walk (Dsc.parse c.da 0) e)) &&
    srfUsable (s.core 0) c (Dsc.parse c.db 0) (spotAt (Dsc.parse c.db 0) (walk (Dsc.parse c.db 0) e)) &&
    !(s.core 0).bufPoisoned .srf (spotAt (Dsc.parse c.db 0) (walk (Dsc.parse c.db 0) e)).lo.toNat (spotAt (Dsc.parse c.db 0) (walk (Dsc.parse c.db 0) e)).len)

/-- What MovesBlocks asks of a block of e2m1 whose source elements are f32: `x` and `qs` are what is written. -/
theorem block_moves (data : List Byte) (fs : List FVal) (x : Nat) (qs : List Nat) (hq : qs.length = 32)
    (h1 : ((blockBase 0x4B data).core 0).head (blockCmd 0x4B).op.queue = some (blockCmd 0x4B) ∧ (blockBase 0x4B data).mayRun 0 (blockCmd 0x4B) = true ∧
      (blockCmd 0x4B).st = .running ∧ (blockCmd 0x4B).ready = true ∧ (blockBase 0x4B data).unperformed (.queue 0 (blockCmd 0x4B).op.queue) (blockCmd 0x4B).no = false)
    (h2 : blockUsable (blockBase 0x4B data) (blockCmd 0x4B) = true)
    (h3 : srfUsable ((blockBase 0x4B data).core 0) (blockCmd 0x4B) (Dsc.parse (blockCmd 0x4B).da 0)
      (blockScaleAt (Dsc.parse (blockCmd 0x4B).da 0) (walk (Dsc.parse (blockCmd 0x4B).da 0) 0)) = true)
    (h4 : (List.range 32).map (fun e =>
      let p := spotAt (Dsc.parse (blockCmd 0x4B).db 0) (walk (Dsc.parse (blockCmd 0x4B).db 0) e)
      ((Dsc.parse (blockCmd 0x4B).db 0).et.decode false (p.get (((blockBase 0x4B data).core 0).readBuf .srf p.lo.toNat p.len))).toF) = fs) :
    ∃ (vs : List (Nat × Val)) (s3 t : State), Moving (blockBase 0x4B data) 0 (blockCmd 0x4B) ∧
      SourcedAll 0 (blockCmd 0x4B) (Dsc.parse (blockCmd 0x4B).da 0) (Dsc.parse (blockCmd 0x4B).db 0) (Dsc.parse (blockCmd 0x4B).di 0) (List.range 32)
        (blockBase 0x4B data) vs (blockBase 0x4B data) ∧
      Written (blockBase 0x4B data) 0 (blockCmd 0x4B) (Dsc.parse (blockCmd 0x4B).da 0)
        (blockScaleAt (Dsc.parse (blockCmd 0x4B).da 0) (walk (Dsc.parse (blockCmd 0x4B).da 0) 0)) x s3 ∧
      WrittenAll 0 (blockCmd 0x4B) (Dsc.parse (blockCmd 0x4B).da 0) (List.range 32) s3 qs t ∧ vs.map (fun v => v.2.toF) = fs := by
  have hd : (Dsc.parse (blockCmd 0x4B).da 0).space = some .srf := by decide +kernel
  have hs : (Dsc.parse (blockCmd 0x4B).db 0).space = some .srf := by decide +kernel
  have hu := List.all_eq_true.1 h2
  simp only [Bool.and_eq_true, Bool.not_eq_true'] at hu
  obtain ⟨s3, hw, h3⟩ : ∃ s3, Written (blockBase 0x4B data) 0 (blockCmd 0x4B) (Dsc.parse (blockCmd 0x4B).da 0)
      (blockScaleAt (Dsc.parse (blockCmd 0x4B).da 0) (walk (Dsc.parse (blockCmd 0x4B).da 0) 0)) x s3 ∧
      ∀ e ∈ List.range 32, Usable (s3.core 0) (blockCmd 0x4B) (Dsc.parse (blockCmd 0x4B).da 0) .srf
        (spotAt (Dsc.parse (blockCmd 0x4B).da 0) (walk (Dsc.parse (blockCmd 0x4B).da 0) e)) true :=
    ⟨_, written_srf _ _ _ _ _ hd (usable_srf _ _ _ _ _ h3), fun e he => by
      rw [State.core_setCore_same]
      exact usable_after _ _ _ _ _ _ (usable_srf _ _ _ _ true (hu e he).1.1)⟩
  obtain ⟨t, ht⟩ := writtenAll_srf (blockCmd 0x4B) _ hd (List.range 32) qs s3 (by rw [hq]; rfl) h3
  refine ⟨_, s3, t, ⟨h1, rfl, rfl, rfl, rfl⟩, sourcedAll_srf _ _ _ _ _ hs (by decide +kernel) (by decide +kernel) rfl _
    (fun e he => ⟨usable_srf _ _ _ _ false (hu e he).1.2, (hu e he).2⟩), hw, ht, ?_⟩
  rw [List.map_map]; exact h4

theorem witness_MovesBlocks_zeros : ∃ (vs : List (Nat × Val)) (s3 t : State), Moving (blockBase 0x4B []) 0 (blockCmd 0x4B) ∧
    SourcedAll 0 (blockCmd 0x4B) (Dsc.parse (blockCmd 0x4B).da 0) (Dsc.parse (blockCmd 0x4B).db 0) (Dsc.parse (blockCmd 0x4B).di 0) (List.range 32)
      (blockBase 0x4B []) vs (blockBase 0x4B []) ∧
    Written (blockBase 0x4B []) 0 (blockCmd 0x4B) (Dsc.parse (blockCmd 0x4B).da 0)
      (blockScaleAt (Dsc.parse (blockCmd 0x4B).da 0) (walk (Dsc.parse (blockCmd 0x4B).da 0) 0)) 0 s3 ∧
    WrittenAll 0 (blockCmd 0x4B) (Dsc.parse (blockCmd 0x4B).da 0) (List.range 32) s3 (List.replicate 32 0) t ∧
    vs.map (fun v => v.2.toF) = List.replicate 32 (.fin false 0 (-149)) ∧
    ∀ j, j < 32 → e2m1Code .rne (generator (blockCmd 0x4B) j) 0 (.fin false 0 (-149)) = 0 := by
  obtain ⟨vs, s3, t, h1, h2, h3, h4, h5⟩ := block_moves [] (List.replicate 32 (.fin false 0 (-149))) 0 (List.replicate 32 0) rfl (by decide +kernel)
    (by decide +kernel) (by decide +kernel) (by decide +kernel)
  exact ⟨vs, s3, t, h1, h2, h3, h4, h5, by decide +kernel⟩

/-- The first element a NaN. -/
theorem witness_MovesBlocks_nan : ∃ (vs : List (Nat × Val)) (s3 t : State), Moving (blockBase 0x4B (leBytes 4 0x7FC00000)) 0 (blockCmd 0x4B) ∧
    SourcedAll 0 (blockCmd 0x4B) (Dsc.parse (blockCmd 0x4B).da 0) (Dsc.parse (blockCmd 0x4B).db 0) (Dsc.parse (blockCmd 0x4B).di 0) (List.range 32)
      (blockBase 0x4B (leBytes 4 0x7FC00000)) vs (blockBase 0x4B (leBytes 4 0x7FC00000)) ∧
    Written (blockBase 0x4B (leBytes 4 0x7FC00000)) 0 (blockCmd 0x4B) (Dsc.parse (blockCmd 0x4B).da 0)
      (blockScaleAt (Dsc.parse (blockCmd 0x4B).da 0) (walk (Dsc.parse (blockCmd 0x4B).da 0) 0)) 0xFF s3 ∧
    WrittenAll 0 (blockCmd 0x4B) (Dsc.parse (blockCmd 0x4B).da 0) (List.range 32) s3 (List.replicate 32 0) t ∧
    ∃ v ∈ vs.map (fun v => v.2.toF), isFinite v = false := by
  obtain ⟨vs, s3, t, h1, h2, h3, h4, h5⟩ := block_moves (leBytes 4 0x7FC00000)
    ((List.range 32).map (fun e => if e = 0 then Fmt.f32.decode 0x7FC00000 else .fin false 0 (-149))) 0xFF (List.replicate 32 0) rfl (by decide +kernel)
    (by decide +kernel) (by decide +kernel) (by decide +kernel)
  exact ⟨vs, s3, t, h1, h2, h3, h4, by rw [h5]; decide +kernel⟩

/-- A block copied from e2m1 to e2m1: its scale byte may be read and written. -/
theorem witness_MovesBlocks_copied : ((blockBase 0x4E []).core 0).head (blockCmd 0x4E).op.queue = some (blockCmd 0x4E) ∧ (blockCmd 0x4E).op ≠ .sgth ∧
    (Dsc.parse (blockCmd 0x4E).db 0).et = .e2m1 ∧
    Usable ((blockBase 0x4E []).core 0) (blockCmd 0x4E) (Dsc.parse (blockCmd 0x4E).db 0) .srf
      (blockScaleAt (Dsc.parse (blockCmd 0x4E).db 0) (walk (Dsc.parse (blockCmd 0x4E).db 0) 0)) false ∧
    Usable ((blockBase 0x4E []).core 0) (blockCmd 0x4E) (Dsc.parse (blockCmd 0x4E).da 0) .srf
      (blockScaleAt (Dsc.parse (blockCmd 0x4E).da 0) (walk (Dsc.parse (blockCmd 0x4E).da 0) 0)) true :=
  ⟨by decide +kernel, by decide, by decide +kernel, usable_srf _ _ _ _ _ (by decide +kernel), usable_srf _ _ _ _ _ (by decide +kernel)⟩

/-- A place of the WB that a command may read, and write where no seated macro holds it. -/
theorem usable_wb (k : Core) (c : Cmd) (d : Dsc) (p : Spot) (write : Bool) (h : decide (0 ≤ p.lo) && decide (p.lo.toNat + p.len ≤ 0x200000) &&
    (List.range p.len).all (fun i => k.allocated .wb c.bent (p.lo.toNat + i)) && k.regions.isEmpty = true) : Usable k c d .wb p write := by
  simp only [Bool.and_eq_true, decide_eq_true_eq, List.all_eq_true, List.mem_range, List.isEmpty_iff] at h
  refine ⟨h.1.1.1, h.1.1.2, fun a h1 h2 => ?_, fun _ r hr => by rw [h.2] at hr; cases hr⟩
  have := h.1.2 (a - p.lo.toNat) (by omega)
  rwa [show p.lo.toNat + (a - p.lo.toNat) = a by omega] at this

/-- A copy of a region's codes from macro 1 to macro 0, with its scale rows. -/
def scaleCopy : Cmd := running .scpy (weights 0 0) (weights 1 0) 0

theorem witness_MovesScales_rows : ∃ s2 : State, Moving (elemBase scaleCopy) 0 scaleCopy ∧ scalesMove scaleCopy (Dsc.parse scaleCopy.da 0) (Dsc.parse scaleCopy.db 0) ∧
    SourceOf (elemBase scaleCopy) 0 scaleCopy (Dsc.parse scaleCopy.da 0) (Dsc.parse scaleCopy.db 0) (Dsc.parse scaleCopy.di 0) 0
      (walk (Dsc.parse scaleCopy.db 0) 0) (spotAt (Dsc.parse scaleCopy.db 0) (walk (Dsc.parse scaleCopy.db 0) 0)) (elemBase scaleCopy) ∧
    Claims.Fetched (elemBase scaleCopy) 0 scaleCopy (Dsc.parse scaleCopy.db 0) (spotAt (Dsc.parse scaleCopy.db 0) (walk (Dsc.parse scaleCopy.db 0) 0)) 0 (elemBase scaleCopy) ∧
    Written (elemBase scaleCopy) 0 scaleCopy (Dsc.parse scaleCopy.da 0) (spotAt (Dsc.parse scaleCopy.da 0) (walk (Dsc.parse scaleCopy.da 0) 0)) 0 s2 ∧
    (walk (Dsc.parse scaleCopy.da 0) 0).i1 = 0 := by
  have hs : (Dsc.parse scaleCopy.db 0).space = some .wb := by decide +kernel
  have hd : (Dsc.parse scaleCopy.da 0).space = some .wb := by decide +kernel
  obtain ⟨t, ht⟩ : ∃ t, Written (elemBase scaleCopy) 0 scaleCopy (Dsc.parse scaleCopy.da 0) (spotAt (Dsc.parse scaleCopy.da 0) (walk (Dsc.parse scaleCopy.da 0) 0)) 0 t := by
    unfold Written; rw [hd]
    exact ⟨_, usable_wb _ _ _ _ _ (by decide +kernel), rfl⟩
  refine ⟨t, moving_of _ _ (by decide +kernel) (by decide +kernel), ⟨by decide +kernel, by decide +kernel, by decide +kernel, by decide +kernel, by decide +kernel⟩, ⟨rfl, rfl, rfl⟩, ?_, ht, by decide +kernel⟩
  unfold Claims.Fetched; rw [hs]
  exact ⟨usable_wb _ _ _ _ _ (by decide +kernel), by decide +kernel, rfl, by decide +kernel⟩

/-- A load of a region's codes, with the scale array at 0x8000, and a store of them. -/
def scaleLoad : Cmd := running (.sld .plain false) (weights 0 0) (tensor 0x4000 (64 + 2 ^ 32 * 32 + 2 ^ 64) (32 + 2 ^ 48 * 0x400) 0x15 2 0x8000 0) 0

theorem witness_MovesScales_load : Moving (elemBase scaleLoad) 0 scaleLoad ∧ scalesMove scaleLoad (Dsc.parse scaleLoad.da 0) (Dsc.parse scaleLoad.db 0) ∧
    (∃ v t, Claims.Fetched (elemBase scaleLoad) 0 scaleLoad (Dsc.parse scaleLoad.db 0) (spotAt (Dsc.parse scaleLoad.db 0) (walk (Dsc.parse scaleLoad.db 0) 0)) v t) ∧
    ∃ v t, Claims.Fetched (elemBase scaleLoad) 0 scaleLoad (Dsc.parse scaleLoad.db 0) { row := (Dsc.parse scaleLoad.db 0).scale, bit := 0, width := 16 } v t :=
  ⟨moving_of _ _ (by decide +kernel) (by decide +kernel), ⟨by decide +kernel, by decide +kernel, by decide +kernel, (by decide +kernel : (Dsc.parse scaleLoad.da 0).seatShape = true)⟩, fetched_global _ _ _ _ (by decide +kernel) (by decide +kernel),
    fetched_global _ _ _ _ (by decide +kernel) (by decide +kernel)⟩

theorem witness_MovesScales_store : ∃ c : Cmd, c = running (.sst .none) (tensor 0x4000 (64 + 2 ^ 32 * 32 + 2 ^ 64) (32 + 2 ^ 48 * 0x400) 0x15 2 0x8000 0) (weights 1 0) 0 ∧
    Moving (elemBase c) 0 c ∧ scalesMove c (Dsc.parse c.da 0) (Dsc.parse c.db 0) ∧
    ∃ t, Written (elemBase c) 0 c (Dsc.parse c.da 0) { row := (Dsc.parse c.da 0).scale, bit := 0, width := 16 } 0x3F80 t :=
  ⟨_, rfl, moving_of _ _ (by decide +kernel) (by decide +kernel), ⟨by decide +kernel, by decide +kernel, by decide +kernel, (by decide +kernel : (Dsc.parse (weights 1 0) 0).seatShape = true)⟩,
    written_global _ _ _ _ _ (by decide +kernel) (by decide +kernel) (by decide +kernel)⟩

theorem witness_StopsAtElements_index : Moving (scatterBase (scatterCmd false) 2) 0 (scatterCmd false) ∧
    indexAt (scatterCmd false) (Dsc.parse (scatterCmd false).di 0) 0 (scatterBase (scatterCmd false) 2) 0 2 (scatterBase (scatterCmd false) 2) ∧
    ((Dsc.parse (scatterCmd false).da 0).count : Int) ≤ 2 :=
  ⟨moving_of _ _ (by decide +kernel) (by decide +kernel), scatter_index _ _ (.inr rfl), by decide +kernel⟩

/-- A gather of one element by an index of −1. -/
def gatherCmd : Cmd := running .sgth (row 0x100 1 0x4B) (row 0x4000 2 0x0B) (row 0x20000 1 0x43)

theorem witness_StopsAtElements_gather : Moving (scatterBase gatherCmd 0xFFFFFFFF) 0 gatherCmd ∧
    indexAt gatherCmd (Dsc.parse gatherCmd.di 0) 0 (scatterBase gatherCmd 0xFFFFFFFF) 0 (-1) (scatterBase gatherCmd 0xFFFFFFFF) :=
  ⟨moving_of _ _ (by decide +kernel) (by decide +kernel),
    _, fetched_srf _ _ _ _ (by decide +kernel) (usable_srf _ _ _ _ _ (by decide +kernel)) (by decide +kernel), by decide +kernel⟩

theorem witness_StopsAtElements_rows : Moving (elemBase (loadCmd .gather)) 0 (loadCmd .gather) ∧
    ∃ v t, Claims.Fetched (elemBase (loadCmd .gather)) 0 (loadCmd .gather) (Dsc.parse (loadCmd .gather).di 0) (spotAt (Dsc.parse (loadCmd .gather).di 0) ⟨0, 0, 0, 0⟩) v t :=
  ⟨moving_of _ _ (by decide +kernel) (by decide +kernel), fetched_global _ _ _ _ (by decide +kernel) (by decide +kernel)⟩

/-- A copy from the end of the SRF, one from the last bank, which holds another format from its second element on, one of poisoned data and one of a window of another bent. -/
theorem witness_StopsAtElements_local :
    (∃ c, c = running .scpy (row 0 1 0x4B) (row 0x200000 1 0x4B) 0 ∧ Moving (elemBase c) 0 c ∧
      0x200000 < (spotAt (Dsc.parse c.db 0) (walk (Dsc.parse c.db 0) 0)).lo.toNat + (spotAt (Dsc.parse c.db 0) (walk (Dsc.parse c.db 0) 0)).len) ∧
    (∃ c s, c = { running .scpy (row 0x20000 2 0x4B) (row 0x1FFFC 2 0x4B) 0 with progress := 1 } ∧ s = withMe (fun k => { k with srfFmt := [(1, 3)] }) (elemBase c) ∧ Moving s 0 c ∧
      (spotAt (Dsc.parse c.db 0) (walk (Dsc.parse c.db 0) 1)).lo = 0x20000 ∧ (s.core 0).fmtOf 1 ≠ (s.core 0).fmtOf 0) ∧
    (∃ c s, c = running .scpy (row 0 1 0x4B) (row 0x100 1 0x4B) 0 ∧ s = withMe (fun k => { k with srfPoison := [(0x20, ())] }) (elemBase c) ∧ Moving s 0 c ∧
      (s.core 0).bufPoisoned .srf 0x100 4 = true) ∧
    ∃ c s, c = running .scpy (row 0 1 0x4B) (row 0xBF000 1 0xCB) 0 ∧ s = withMe (fun k => { k with accOwn := [(0xBF, 0x80000002)] }) (elemBase c) ∧ Moving s 0 c ∧
      ((s.core 0).ownEntry 0xBF).getLsbD 31 = true ∧ ownedBy ((s.core 0).ownEntry 0xBF) c.bent = false :=
  ⟨⟨_, rfl, moving_of _ _ (by decide +kernel) (by decide +kernel), by decide +kernel⟩, ⟨_, _, rfl, rfl, moving_of _ _ (by decide +kernel) (by decide +kernel), by decide +kernel⟩,
    ⟨_, _, rfl, rfl, moving_of _ _ (by decide +kernel) (by decide +kernel), by decide +kernel⟩,
    ⟨_, _, rfl, rfl, moving_of _ _ (by decide +kernel) (by decide +kernel), by decide +kernel⟩⟩

theorem witness_StopsAtElements_seated : ∃ c, c = running .scpy (row 0x1FFFFF 1 0x80) (row 0x100 1 0x4B) 0 ∧ Moving (seatedBase c) 0 c ∧
    (Dsc.parse c.da 0).space = some .wb ∧ (spotAt (Dsc.parse c.da 0) (walk (Dsc.parse c.da 0) 0)).lo = 0x1FFFFF ∧
    ∃ r ∈ ((seatedBase c).core 0).regions, r.macro0 ≤ 0x1FFFFF / 0x10000 ∧ 0x1FFFFF / 0x10000 < r.macro0 + r.count :=
  ⟨_, rfl, moving_of _ _ (by decide +kernel) (by decide +kernel), by decide +kernel⟩

/-- The queue that stores for a command. -/
def someIssuer : Issuer := byQueue (someCmd (.sst .none)) 0

theorem witness_ReachesUnits : base.translate 0 1 0x4001 .read = .ok (loc 0x4001) ∧ base.translate 0 1 0x4001 .write = .ok (loc 0x4001) ∧ (0x4001 : Word).toNat % 8 + 7 ≤ 8 ∧
    base.lockedOut (loc 0x4001).pa 7 = false ∧ base.mergeOverlap someIssuer.ag (loc 0x4001).pa 7 = false ∧ base.pendingOverlap someIssuer.ag (loc 0x4001).pa 7 = false ∧
    base.answer (loc 0x4001).pa 7 = .here ∧ base.readPoisoned none 0 (loc 0x4001) 7 = false ∧ base.defer = false ∧
    base.translate 0 1 0x40000000 .read = .error 0x06 ∧ base.translate 0 1 0x40000000 .write = .error 0x06 := by decide +kernel

theorem witness_ReachesUnits_others : (∃ s : State, s.translate 0 1 0x1000 .read = .ok { loc 0 with pa := 0x20000001000 } ∧ s.answer 0x20000001000 8 = .refused) ∧
    (∃ s : State, s.answer (loc 0x4000).pa 8 = .here ∧ s.readPoisoned none 0 (loc 0x4000) 8 = true) ∧
    ∃ s : State, s.defer = true ∧ s.answer (loc 0x4000).pa 8 = .here ∧ s.remote? (loc 0x4000).pa = none :=
  ⟨⟨windowBase, by decide +kernel⟩, ⟨{ base with poison := [(0x8000800, ())] }, by decide +kernel⟩, { base with defer := true }, by decide +kernel⟩

/-! ### Collectives, timetables and completion -/

/-- A COLL of two members of this package, one element of i32: its operation, this member, and its progress; contributions 1 and 2 held where `full`. -/
def collCmd (op me progress flag : Nat) (full : Bool) : Cmd :=
  { running .coll 0 0 0 with
    block := leBytes 4 (op + 2 ^ 16 * 3) ++ leBytes 2 2 ++ leBytes 2 me ++ leBytes 8 1 ++ leBytes 8 0x4000 ++ leBytes 8 0x5000 ++ leBytes 8 0x6000 ++
      leBytes 4 7 ++ leBytes 12 0 ++ leBytes 8 flag ++ leBytes 64 0 ++ leBytes 4 0 ++ leBytes 4 0x100
    progress := progress
    got := if full then [(0, leBytes 4 1), (1, leBytes 4 2)] else [] }

/-- What StepsCollectives asks of every COLL. -/
def Collects (s : State) (c : Cmd) : Prop := AtElement s 0 c ∧ c.op = .coll ∧ c.coll.count ≠ 0 ∧ 2 ≤ c.coll.nmem ∧ c.coll.op ≤ 3 ∧ c.coll.rop ≤ 2 ∧ 0 < c.coll.et.bytes

theorem collects_of (s : State) (c : Cmd) (h : (s.core 0).head c.op.queue = some c ∧ s.mayRun 0 c = true ∧ c.st = .running ∧ c.ready = true ∧
    s.unperformed (.queue 0 c.op.queue) c.no = false) (h2 : c.op = .coll ∧ c.coll.count ≠ 0 ∧ 2 ≤ c.coll.nmem ∧ c.coll.op ≤ 3 ∧ c.coll.rop ≤ 2 ∧ 0 < c.coll.et.bytes) :
    Collects s c := ⟨h, h2⟩

theorem witness_StepsCollectives_aborted : ∃ s : State, s = { cmdBase [collCmd 0 0 0 0 false] with bays := [(0, { Bay.reset with aborted := [7] })] } ∧
    Collects s (collCmd 0 0 0 0 false) ∧ (collCmd 0 0 0 0 false).coll.round ∈ (s.bay 0).aborted :=
  ⟨_, rfl, collects_of _ _ (by decide +kernel) (by decide +kernel), by decide +kernel⟩

/-- A read of a queue that succeeds. -/
theorem reads_of (s : State) (bay : Nat) (w : Issuer) (need : Need) (va : Word) (n : Nat) (h : (match s.gReadAs bay w need va n with
      | .ok _ _ => true
      | _ => false) = true) : ∃ v data, s.gReadAs bay w need va n = .ok v data := by
  generalize s.gReadAs bay w need va n = g at h ⊢
  cases g with
  | ok v data => exact ⟨v, data, rfl⟩
  | _ => simp at h

/-- A write of a queue that succeeds. -/
theorem writes_of (s : State) (bay : Nat) (w : Issuer) (va : Word) (data : List Byte) (h : (match s.gWrite bay w va data with
      | .ok _ _ => true
      | _ => false) = true) : ∃ v x, s.gWrite bay w va data = .ok v x := by
  generalize s.gWrite bay w va data = g at h ⊢
  cases g with
  | ok v x => exact ⟨v, x, rfl⟩
  | _ => simp at h

theorem witness_StepsCollectives_sends : Collects (cmdBase [collCmd 0 0 0 0 false]) (collCmd 0 0 0 0 false) ∧
    (collCmd 0 0 0 0 false).coll.round ∉ ((cmdBase [collCmd 0 0 0 0 false]).bay 0).aborted ∧
    ∃ v data, ((cmdBase [collCmd 0 0 0 0 false]).takeHeld 0 (collCmd 0 0 0 0 false)).1.gRead 0 (byQueue (collCmd 0 0 0 0 false) 0) 0x4000 4 = .ok v data :=
  ⟨collects_of _ _ (by decide +kernel) (by decide +kernel), by decide +kernel, reads_of _ _ _ _ _ _ (by decide +kernel)⟩

theorem witness_StepsCollectives_listens : Collects (cmdBase [collCmd 3 1 0 0 false]) (collCmd 3 1 0 0 false) ∧ (collCmd 3 1 0 0 false).coll.op = 3 ∧
    (collCmd 3 1 0 0 false).coll.me ≠ 0 :=
  ⟨collects_of _ _ (by decide +kernel) (by decide +kernel), by decide +kernel⟩

/-- What a COLL of member 0 awaits: the part of member 1. -/
theorem witness_StepsCollectives_awaits : Collects (cmdBase [collCmd 0 0 1 0 false]) (collCmd 0 0 1 0 false) ∧
    AMap.has ((cmdBase [collCmd 0 0 1 0 false]).takeHeld 0 (collCmd 0 0 1 0 false)).2.got 1 = false ∧
    Collects (cmdBase [collCmd 0 0 1 0 true]) (collCmd 0 0 1 0 true) ∧
    AMap.has ((cmdBase [collCmd 0 0 1 0 true]).takeHeld 0 (collCmd 0 0 1 0 true)).2.got 1 = true :=
  ⟨collects_of _ _ (by decide +kernel) (by decide +kernel), by decide +kernel, collects_of _ _ (by decide +kernel) (by decide +kernel), by decide +kernel⟩

theorem witness_StepsCollectives_receives : ∃ (u : State) (c1 v : _) (x : List Byte),
    (cmdBase [collCmd 0 0 2 0 true]).takeHeld 0 (collCmd 0 0 2 0 true) = (u, c1) ∧ Collects (cmdBase [collCmd 0 0 2 0 true]) (collCmd 0 0 2 0 true) ∧
    (∀ i, i < 2 → (AMap.get c1.got i []).length = 4) ∧ (leNat (AMap.get c1.got 0 []) + leNat (AMap.get c1.got 1 [])) % 2 ^ 32 = 3 ∧ c1.stats = none ∧
    ({ u with free := u.free + 1 } : State).gWrite 0 (byQueue (collCmd 0 0 2 0 true) 0) 0x5000 (leBytes 4 3) = .ok v x := by
  obtain ⟨v, x, h⟩ := writes_of ({ ((cmdBase [collCmd 0 0 2 0 true]).takeHeld 0 (collCmd 0 0 2 0 true)).1 with
    free := ((cmdBase [collCmd 0 0 2 0 true]).takeHeld 0 (collCmd 0 0 2 0 true)).1.free + 1 } : State) 0 (byQueue (collCmd 0 0 2 0 true) 0) 0x5000 (leBytes 4 3) (by decide +kernel)
  exact ⟨_, _, v, x, rfl, collects_of _ _ (by decide +kernel) (by decide +kernel), by decide +kernel, by decide +kernel, by decide +kernel, h⟩

/-- A COLL.ABT of the same block, or of one whose second member is package 1's, at that member. -/
def abortCmd (memb progress : Nat) : Cmd :=
  { running .collAbt 0 0 0 with
    block := leBytes 4 (2 ^ 16 * 3) ++ leBytes 2 2 ++ leBytes 2 0 ++ leBytes 8 1 ++ leBytes 24 0 ++ leBytes 4 7 ++ leBytes 84 0 ++ leBytes 4 0 ++ leBytes 4 memb
    progress := progress }

theorem witness_AbortsRounds : AtElement (cmdBase [abortCmd 0x700 1]) 0 (abortCmd 0x700 1) ∧ (abortCmd 0x700 1).coll.members[1]? = some 0x700 ∧
    AtElement (cmdBase [abortCmd 1 1]) 0 (abortCmd 1 1) ∧ (abortCmd 1 1).coll.members[1]? = some 1 ∧ (1 : Nat) ≠ (cmdBase [abortCmd 1 1]).mgmt.config.pkg ∧
    (cmdBase [abortCmd 1 1]).reachable 1 1 = false ∧
    ({ cmdBase [abortCmd 1 1] with peers := [(1, ⟨4096, true, true, 0, 0, 0⟩)] } : State).reachable 1 1 = true :=
  ⟨atElement_of _ _ (by decide +kernel), by decide +kernel, atElement_of _ _ (by decide +kernel), by decide +kernel⟩

/-- A command on one channel. -/
def sillCmd (op : CmdOp) (ch : Nat) (start : Word) : Cmd := { running op 0 0 0 with xa := start, xb := BitVec.ofNat 64 (ch + 2 ^ 16), block := List.replicate 512 0 }

/-- Channel 383 in a state. -/
def channelBase (c : Cmd) (y : Sill) : State := { cmdBase [c] with sills := [(383, y)] }

theorem witness_LoadsChannels : AtElement (cmdBase [sillCmd .sillLoad 383 0]) 0 (sillCmd .sillLoad 383 0) ∧
    (sillCmd .sillLoad 383 0).progress < (sillCmd .sillLoad 383 0).xb.toNat / 2 ^ 16 % 512 ∧ (383 : Nat) < (cmdBase [sillCmd .sillLoad 383 0]).mgmt.chans ∧
    AtElement (cmdBase [sillCmd .sillLoad 384 0]) 0 (sillCmd .sillLoad 384 0) ∧
    AtElement (channelBase (sillCmd .sillLoad 383 0) { Sill.reset with st := .running, bent := 1 }) 0 (sillCmd .sillLoad 383 0) :=
  ⟨atElement_of _ _ (by decide +kernel), by decide +kernel, by decide +kernel, atElement_of _ _ (by decide +kernel), atElement_of _ _ (by decide +kernel)⟩

theorem witness_ArmsChannels : AtElement (channelBase (sillCmd .sillGo 383 5) { Sill.reset with st := .loaded, bent := 1 }) 0 (sillCmd .sillGo 383 5) ∧
    AtElement (channelBase (sillCmd .sillGo 383 0xFFFFFFFFFFFFFFFF) { Sill.reset with st := .holding, bent := 1 }) 0 (sillCmd .sillGo 383 0xFFFFFFFFFFFFFFFF) ∧
    AtElement (channelBase (sillCmd .sillGo 383 0xFFFFFFFFFFFFFFFF) { Sill.reset with st := .running, bent := 1 }) 0 (sillCmd .sillGo 383 0xFFFFFFFFFFFFFFFF) ∧
    AtElement (channelBase (sillCmd .sillGo 383 0xFFFFFFFFFFFFFFFF) { Sill.reset with st := .done, bent := 2 }) 0 (sillCmd .sillGo 383 0xFFFFFFFFFFFFFFFF) :=
  ⟨atElement_of _ _ (by decide +kernel), atElement_of _ _ (by decide +kernel), atElement_of _ _ (by decide +kernel), atElement_of _ _ (by decide +kernel)⟩

theorem atEnd_of (s : State) (c : Cmd) (h : (s.core 0).head c.op.queue = some c ∧ s.mayRun 0 c = true ∧ c.st = .running ∧ c.ready = true ∧ s.cmdTotal 0 c ≤ c.progress ∧
    s.unperformed (.queue 0 c.op.queue) c.no = false ∧ c.stats = none) : AtEnd s 0 c := h

/-- No bridge of the bent of `cmdBase` is used. -/
theorem unbridged_of (s : State) (c : Cmd) (h : s.bents.find? c.bent = some programBent) : Unbridged s c := by
  intro hn r hr b hb
  obtain rfl := Option.some.inj (h.symm.trans hr)
  simp only [programBent, Bent.fresh, List.mem_cons, List.not_mem_nil, or_false, or_self] at hb
  subst hb
  exact fun hx => hn hx.symm

/-- An SALLOC that has performed, signalling semaphore 254. -/
def endedCmd : Cmd := { allocCmd with st := .running, ready := true, progress := 1, ws := ⟨255, 0, 254, 1⟩ }

theorem witness_CompletesCommands : AtEnd (cmdBase [endedCmd]) 0 endedCmd ∧ Unbridged (cmdBase [endedCmd]) endedCmd ∧ endsAtOnce (cmdBase [endedCmd]) endedCmd ∧
    ((withMe (fun k => { k with sems := [(254, 65534)] }) (cmdBase [endedCmd])).core 0).sem 254 + endedCmd.ws.sinc.toNat = 65535 ∧
    ((withMe (fun k => { k with sems := [(254, 65535)] }) (cmdBase [endedCmd])).core 0).sem 254 + endedCmd.ws.sinc.toNat = 65536 :=
  ⟨atEnd_of _ _ (by decide +kernel), unbridged_of _ _ (by rfl), trivial, by decide +kernel⟩

/-- A quantised store that has performed its elements and writes its scale at 0x8000. -/
def scaledCmd : Cmd :=
  { running (.sst (.pow2 false)) (tensor 0x4000 1 0 0x00 0 0x8000 0) (tensor 0x100 1 0 0x4B 0 0 0x9000) 0 with scale := some 127, progress := 1 }

theorem witness_CompletesWithEffects_scale : AtEnd (cmdBase [scaledCmd]) 0 scaledCmd ∧ Unbridged (cmdBase [scaledCmd]) scaledCmd ∧ (Dsc.parse scaledCmd.da 0).scale = 0x8000 ∧
    scaledCmd.scaled = false ∧ ∃ u data, (cmdBase [scaledCmd]).gWrite 0 (byQueue scaledCmd 0) 0x8000 (leBytes 4 (Fmt.f32.deliver .rne false 0 (scaleVal false 127)).1) = .ok u data :=
  ⟨atEnd_of _ _ (by decide +kernel), unbridged_of _ _ (by rfl), by decide +kernel, rfl, writes_of _ _ _ _ _ (by decide +kernel)⟩

theorem witness_CompletesWithEffects_flag : AtEnd (cmdBase [collCmd 0 0 3 0x7000 true]) 0 (collCmd 0 0 3 0x7000 true) ∧
    Unbridged (cmdBase [collCmd 0 0 3 0x7000 true]) (collCmd 0 0 3 0x7000 true) ∧ (collCmd 0 0 3 0x7000 true).coll.flag = 0x7000 ∧
    (∀ m ∈ (cmdBase [collCmd 0 0 3 0x7000 true]).recordMerges, m.cmd = some (collCmd 0 0 3 0x7000 true).no → m.lost = true) ∧
    ∃ u data, (cmdBase [collCmd 0 0 3 0x7000 true]).gWrite 0 (byQueue (collCmd 0 0 3 0x7000 true) 0) 0x7000 (leBytes 8 0) = .ok u data :=
  ⟨atEnd_of _ _ (by decide +kernel), unbridged_of _ _ (by rfl), by decide +kernel, by decide +kernel, writes_of _ _ _ _ _ (by decide +kernel)⟩

theorem witness_CompletesWithEffects_abort : AtEnd (cmdBase [abortCmd 0x700 2, { collCmd 0 0 1 0 false with seq := 6, st := .stopped }]) 0 (abortCmd 0x700 2) ∧
    (abortCmd 0x700 2).ws.ssem = 255 := ⟨atEnd_of _ _ (by decide +kernel), by decide⟩

theorem witness_CompletesWithEffects_late : ∃ c, c = { sillCmd .sillGo 383 5 with progress := 1 } ∧
    AtEnd { channelBase c { Sill.reset with st := .armed, prior := .loaded, bent := 1, peg := 1, seq := 5 } with timestamp := 5 } 0 c ∧
    c.progress = c.xb.toNat / 2 ^ 16 % 512 ∧ c.xa.toNat ≤ 5 :=
  ⟨_, rfl, atEnd_of _ _ (by decide +kernel), by decide +kernel⟩

/-- A copy that has gathered the statistics of one element for the record at a virtual address. -/
def taggedCmd (rec : Nat) : Cmd :=
  { running .scpy (tensor 0 1 0 0x4B 0 0 rec) (row 0x100 1 0x4B) 0 with progress := 1, stats := some ⟨0, 11, -16, 1, 0, 0, 1, 0, List.replicate 24 0⟩ }

theorem witness_MergesStatistics : ((cmdBase [taggedCmd 0x8000]).core 0).head .reduce = some (taggedCmd 0x8000) ∧ (cmdBase [taggedCmd 0x8000]).mayRun 0 (taggedCmd 0x8000) = true ∧
    (cmdBase [taggedCmd 0x8000]).cmdTotal 0 (taggedCmd 0x8000) ≤ 1 ∧ (cmdBase [taggedCmd 0x8000]).unperformed (.queue 0 .reduce) (taggedCmd 0x8000).no = false ∧
    Unbridged (cmdBase [taggedCmd 0x8000]) (taggedCmd 0x8000) ∧ (Dsc.parse (taggedCmd 0x8000).da 0).scribe = 0x8000 ∧
    (cmdBase [taggedCmd 0x8000]).access 0 1 0x8000 128 .both = .ok (loc 0x8000) ∧ (cmdBase [taggedCmd 0x40000000]).access 0 1 0x40000000 128 .both = .error 0x06 :=
  ⟨by decide +kernel, by decide +kernel, by decide +kernel, by decide +kernel, unbridged_of _ _ (by rfl), by decide +kernel⟩

/-! ## Jig runs -/

/-- A tile run of f32 with no step, its reservation held. -/
def jigCmd (count : Word) : Cmd :=
  { someCmd .jigGo with st := .running, held := true, table := [(0, count), (3, count), (6, count), (9, count), (12, count), (15, count), (0x16, 0x40BB)] }

theorem witness_StartsRuns_starts : ((cmdBase [jigCmd 0]).core 0).head .matrix = some (jigCmd 0) ∧ isRun (jigCmd 0).op = true ∧ (jigCmd 0).ready = false ∧
    (cmdBase [jigCmd 0]).mayRun 0 (jigCmd 0) = true ∧ ((cmdBase [jigCmd 0]).jig 0 (jigCmd 0)).check ((cmdBase [jigCmd 0]).core 0) = none ∧
    ((cmdBase [jigCmd 0]).jig 0 (jigCmd 0)).empty = true := by
  decide +kernel

theorem witness_StartsRuns_refused : ((cmdBase [jigCmd 1]).core 0).head .matrix = some (jigCmd 1) ∧ (cmdBase [jigCmd 1]).mayRun 0 (jigCmd 1) = true ∧
    ((cmdBase [jigCmd 1]).jig 0 (jigCmd 1)).check ((cmdBase [jigCmd 1]).core 0) = some 0x09 := by
  decide +kernel

theorem witness_StepsRuns : ∃ (s : State) (c : Cmd), (s.core 0).head .matrix = some c ∧ isRun c.op = true ∧ c.st = .running ∧ c.held = true ∧ c.ready = true ∧
    s.mayRun 0 c = true ∧ c.progress < (s.jig 0 c).total ∧ (s.core 0).refuse = true :=
  ⟨withMe (fun k => { k with refuse := true }) (cmdBase [{ jigCmd 1 with ready := true }]), { jigCmd 1 with ready := true }, by decide +kernel⟩

/-- A tile run of one f32 step: A at SRF byte 0, B at 0x400, D at 0x20000, C at ACC byte 0; `cfg` its CFG, `rec` its record. -/
def tileCmd (cfg rec : Word) (ready : Bool) : Cmd :=
  { someCmd .jigGo with
    st := .running, held := true, ready := ready
    table := [(0, 1), (3, 1), (6, 1), (9, 1), (12, 1), (15, 1), (0x13, 0x400), (0x15, 0x20000), (0x16, cfg), (0x18, rec)] }

/-- `elemBase` of a run with finish words standing; SRF bank 1 holds i8 elements. -/
def runBase (c : Cmd) (cw scale : Word) : State := withMe (fun k => { k with finCw := cw, finScale := scale, srfFmt := [(1, 0)] }) (elemBase c)

theorem witness_StartsRuns_runs : ((runBase (tileCmd 0x40BB 0 false) 0 0).core 0).head .matrix = some (tileCmd 0x40BB 0 false) ∧
    (runBase (tileCmd 0x40BB 0 false) 0 0).mayRun 0 (tileCmd 0x40BB 0 false) = true ∧
    ((runBase (tileCmd 0x40BB 0 false) 0 0).jig 0 (tileCmd 0x40BB 0 false)).check ((runBase (tileCmd 0x40BB 0 false) 0 0).core 0) = none ∧
    ((runBase (tileCmd 0x40BB 0 false) 0 0).jig 0 (tileCmd 0x40BB 0 false)).empty = false ∧
    ((runBase (tileCmd 0x40BB 0 false) 0 0).jig 0 (tileCmd 0x40BB 0 false)).fin = false := by decide +kernel

/-- The run as it starts: with the finish words that stand. -/
def scaleRun (rec scale : Word) : Cmd := { tileCmd 0x60BB rec false with finCw := 0x300, finScale := scale }

theorem witness_StartsRuns_scales : ((runBase (tileCmd 0x60BB 0x8000 false) 0x300 0).core 0).head .matrix = some (tileCmd 0x60BB 0x8000 false) ∧
    ((runBase (tileCmd 0x60BB 0x8000 false) 0x300 0).jig 0 (scaleRun 0x8000 0)).check ((runBase (tileCmd 0x60BB 0x8000 false) 0x300 0).core 0) = none ∧
    ((runBase (tileCmd 0x60BB 0x8000 false) 0x300 0).jig 0 (scaleRun 0x8000 0)).empty = false ∧
    ((runBase (tileCmd 0x60BB 0x8000 false) 0x300 0).jig 0 (scaleRun 0x8000 0)).fin = true ∧ (scaleRun 0x8000 0).finCw.toNat / 2 ^ 8 % 4 = 3 ∧
    ((runBase (tileCmd 0x60BB 0x8000 false) 0x300 0).jig 0 (scaleRun 0x8000 0)).scrb % 128 = 0 ∧
    ((runBase (tileCmd 0x60BB 0x8004 false) 0x300 0).jig 0 (scaleRun 0x8004 0)).check ((runBase (tileCmd 0x60BB 0x8004 false) 0x300 0).core 0) = none ∧
    ((runBase (tileCmd 0x60BB 0x8004 false) 0x300 0).jig 0 (scaleRun 0x8004 0)).scrb % 128 ≠ 0 ∧
    staleEpoch 0 0 0 = false ∧ staleEpoch 1 0 0 = true := by decide +kernel

theorem witness_StartsRuns_record : ∃ u data, (runBase (tileCmd 0x60BB 0x8000 false) 0x300 0).gReadAs 0 (byQueue (scaleRun 0x8000 0) 0) .home (0x8000 + 4) 8 = .ok u data :=
  reads_of _ _ _ _ _ _ (by decide +kernel)

theorem atStep_of (s : State) (c : Cmd) (h : (s.core 0).head .matrix = some c ∧ isRun c.op = true ∧ c.st = .running ∧ c.held = true ∧ c.ready = true ∧
    s.mayRun 0 c = true ∧ c.progress < (s.jig 0 c).cnt.prod ∧ (s.core 0).refuse = false) : AtStep s 0 c := h

theorem witness_StepsTiles : AtStep (runBase (tileCmd 0x40BB 0 true) 0 0) 0 (tileCmd 0x40BB 0 true) ∧
    AtStep (runBase (tileCmd 0x41CC 0 true) 0 0) 0 (tileCmd 0x41CC 0 true) ∧
    ((runBase (tileCmd 0x40BB 0 true) 0 0).jig 0 (tileCmd 0x40BB 0 true)).tile = true ∧ ((runBase (tileCmd 0x40BB 0 true) 0 0).jig 0 (tileCmd 0x40BB 0 true)).eta = .f32 ∧
    ((runBase (tileCmd 0x40BB 0 true) 0 0).jig 0 (tileCmd 0x40BB 0 true)).etb = .f32 ∧ ((runBase (tileCmd 0x40BB 0 true) 0 0).jig 0 (tileCmd 0x40BB 0 true)).acc64 = false ∧
    ((runBase (tileCmd 0x40BB 0 true) 0 0).core 0).bufPoisoned .srf 0 1024 = false ∧ ((runBase (tileCmd 0x40BB 0 true) 0 0).core 0).bufPoisoned .srf 0x400 1024 = false ∧
    ((runBase (tileCmd 0x40BB 0 true) 0 0).core 0).bufPoisoned .acc 0 1024 = false ∧
    (((runBase (tileCmd 0x40BB 0 true) 0 0).core 0).ownEntry 0).getLsbD 31 = false ∧
    ((runBase (tileCmd 0x41CC 0 true) 0 0).jig 0 (tileCmd 0x41CC 0 true)).acc64 = true :=
  ⟨atStep_of _ _ (by decide +kernel), atStep_of _ _ (by decide +kernel), by decide +kernel⟩

/-- A forward CIM run of one step over the region of `seatedBase`, activations of e4m3 at SRF byte 0x20000. -/
def groupCmd : Cmd :=
  { someCmd .jigGo with
    st := .running, held := true, ready := true
    table := [(0, 1), (3, 1), (6, 1), (9, 1), (12, 1), (15, 1), (0x12, 0x20000), (0x13, 0x1F0000), (0x16, 0x57)] }

theorem witness_StepsGroups : ∃ r : Region, AtStep (seatedBase groupCmd) 0 groupCmd ∧ ((seatedBase groupCmd).jig 0 groupCmd).reg = some r ∧
    ((seatedBase groupCmd).jig 0 groupCmd).tile = false ∧ ((seatedBase groupCmd).jig 0 groupCmd).eta = .e4m3 ∧ ((seatedBase groupCmd).jig 0 groupCmd).acc64 = false ∧
    ((seatedBase groupCmd).jig 0 groupCmd).fin = false ∧ ((seatedBase groupCmd).jig 0 groupCmd).zm = false ∧ 0 < r.n ∧ r.gs = 1 ∧ 0 < r.k / 32 ∧
    r.n * (ET.ofCode r.et).bits % 8 = 0 ∧ ((seatedBase groupCmd).core 0).bufPoisoned .srf 0x20000 32 = false ∧
    ((seatedBase groupCmd).core 0).bufPoisoned .wb 0x1F0000 (32 * 32) = false ∧ ((seatedBase groupCmd).core 0).scalesPoisoned (8192 * 31) 128 = false ∧
    ((seatedBase groupCmd).core 0).bufPoisoned .acc 0 256 = false ∧ (((seatedBase groupCmd).core 0).ownEntry 0).getLsbD 31 = false :=
  ⟨_, atStep_of _ _ (by decide +kernel), rfl, by decide +kernel⟩

theorem witness_FinishesTiles : ∃ t : State, AtStep (runBase (tileCmd 0x60BB 0 true) 0 0) 0 (tileCmd 0x60BB 0 true) ∧
    exec (.jigStep 0 .ok) (runBase (tileCmd 0x60BB 0 true) 0 0) = .next t ∧
    (∀ e, (t.core 0).entry (tileCmd 0x60BB 0 true).seq = some e → e.st = .running) ∧
    ((runBase (tileCmd 0x60BB 0 true) 0 0).jig 0 (tileCmd 0x60BB 0 true)).fin = true ∧ (tileCmd 0x60BB 0 true).finCw = 0 := by
  have h : (match exec (.jigStep 0 .ok) (runBase (tileCmd 0x60BB 0 true) 0 0) with
    | .next t => (match (t.core 0).entry (tileCmd 0x60BB 0 true).seq with
      | some e => decide (e.st = .running)
      | none => true)
    | _ => false) = true := by decide +kernel
  generalize exec (.jigStep 0 .ok) (runBase (tileCmd 0x60BB 0 true) 0 0) = o at h ⊢
  cases o with
  | next t => exact ⟨t, atStep_of _ _ (by decide +kernel), rfl, fun e he => by dsimp only at h; rw [he] at h; exact of_decide_eq_true h, by decide +kernel⟩
  | _ => simp at h

/-! ## Kernel contexts -/

/-- `base` with its KRUN running and contexts of it on core 0; the first line of the image is in a frame. -/
def ctxBase (l : List Context) : State :=
  withMe (fun k => { k with ctxs := l, frames := [⟨1, 0, false, 0, base.keyOf 0⟩] })
    (cmdBase [{ someCmd .krun with st := .running, ready := true, held := true, ctx := some 9, block := List.replicate 320 0 }])

theorem witness_LaunchesContexts : ∃ (s : State) (c : Cmd) (r : Bent), (s.core 0).head .launcher = some c ∧ c.st = .running ∧ s.mayRun 0 c = true ∧
    s.bents.find? c.bent = some r ∧ s.ctxRoom c.bent = true ∧
    (s.core 0).findPlace (if c.launch.gk = 0xFF then rangeFrom 0 (8 / 2 ^ c.launch.gsz) else [c.launch.gk]) (2 ^ c.launch.gsz) c.launch.vwin = some (0, 0, 0) ∧
    ∀ o ∈ c.launch.outs, o.scrb = 0 :=
  ⟨cmdBase [{ someCmd .krun with st := .running, ready := true, held := true, block := List.replicate 320 0 }],
    { someCmd .krun with st := .running, ready := true, held := true, block := List.replicate 320 0 }, programBent, by decide +kernel, by decide +kernel, by decide +kernel, rfl,
    by decide +kernel⟩

theorem witness_HaltsContexts : ∃ (x : Context) (c : Cmd), ((ctxBase [{ someCtx with ended := true }]).core 0).ctx? 9 = some x ∧ x.ended = true ∧ x.frozen = false ∧
    x.srfx = [] ∧ ((ctxBase [{ someCtx with ended := true }]).core 0).entry x.seq = some c := ⟨_, _, rfl, by decide +kernel, by decide +kernel, by decide +kernel, rfl⟩

theorem witness_StallsContexts : ∃ x : Context, ((ctxBase [{ someCtx with compat := true, flight := [⟨0, .s 1, 7, 255, 0, 1⟩] }]).core 0).ctx? 9 = some x ∧
    (ctxBase [{ someCtx with compat := true, flight := [⟨0, .s 1, 7, 255, 0, 1⟩] }]).mayIssue 0 x = true ∧ x.mustStall = true :=
  ⟨{ someCtx with compat := true, flight := [⟨0, .s 1, 7, 255, 0, 1⟩] }, by decide +kernel⟩

theorem witness_FillsLines : ∃ x : Context, ((ctxBase [{ someCtx with pc := 0x1FC00 }]).core 0).ctx? 9 = some x ∧
    (ctxBase [{ someCtx with pc := 0x1FC00 }]).missingLine 0 x = some 127 :=
  ⟨{ someCtx with pc := 0x1FC00 }, by decide +kernel⟩

theorem witness_IssuesBundles_issues : ((ctxBase [someCtx]).core 0).ctx? 9 = some someCtx ∧ (ctxBase [someCtx]).mayIssue 0 someCtx = true ∧ someCtx.mustStall = false := by
  decide +kernel

theorem witness_IssuesBundles_deferred : ∃ (x : Context) (u : Trap), ((ctxBase [x]).core 0).ctx? 9 = some x ∧ (ctxBase [x]).mayIssue 0 x = true ∧ x.mustStall = false ∧
    x.deferred = [u] ∧ x.flight = [] ∧ u.code = 0x1C :=
  ⟨{ someCtx with deferred := [cmdTrap 1 0x1C 5 0 0x4000 0] }, cmdTrap 1 0x1C 5 0 0x4000 0, by decide +kernel, by decide +kernel, by decide +kernel, rfl, by decide +kernel⟩

theorem witness_IssuesBundles_outside : ∃ x : Context, ((ctxBase [x]).core 0).ctx? 9 = some x ∧ (ctxBase [x]).mayIssue 0 x = true ∧ x.mustStall = false ∧
    x.deferred = [] ∧ x.flight = [] ∧ 0x20000 ≤ x.pc :=
  ⟨{ someCtx with pc := 0x20000 }, by decide +kernel⟩

theorem witness_SetsWatchFlags_sem : ∃ x : Context, ((ctxBase [x]).core 0).ctx? 9 = some x ∧ x.semWatch.find? 15 = some (254, 0) ∧ 0 ≤ ((ctxBase [x]).core 0).sem 254 :=
  ⟨{ someCtx with semWatch := [(15, (254, 0))] }, by decide +kernel⟩

theorem witness_SetsWatchFlags_phase : ∃ x : Context, ((ctxBase [x]).core 0).ctx? 9 = some x ∧ x.phWatch.find? 0 = some (1023, 0x80000001) ∧
    phaseReached ((ctxBase [x]).phaser ((ctxBase [x]).bayOf 0) 1023) 0x80000001 = true :=
  ⟨{ someCtx with phWatch := [(0, (1023, 0x80000001))] }, by decide +kernel⟩

/-- A context with one access outstanding. -/
def accessCtx (kind : SrfxKind) (l : Loc) : Context :=
  { someCtx with srfx := [{ no := 0, kind := kind, cid := 0, cls := 0, flag := some 15, va := 0x4000, parts := [⟨0, l, 8⟩], got := [], size := 8, sent := 0 }] }

theorem witness_PerformsContextAccesses_store : ((ctxBase [accessCtx (.store [1, 2, 3, 4, 5, 6, 7, 8]) (loc 0x4000)]).core 0).ctx? 9 =
      some (accessCtx (.store [1, 2, 3, 4, 5, 6, 7, 8]) (loc 0x4000)) ∧
    (ctxBase [accessCtx (.store [1, 2, 3, 4, 5, 6, 7, 8]) (loc 0x4000)]).lockedOut (loc 0x4000).pa 8 = false ∧
    (ctxBase [accessCtx (.store [1, 2, 3, 4, 5, 6, 7, 8]) (loc 0x4000)]).answer (loc 0x4000).pa 8 = .here := by
  decide +kernel

theorem witness_PerformsContextAccesses_load : ((ctxBase [accessCtx (.gld 0x1FFFF8) (loc 0x4000)]).core 0).ctx? 9 = some (accessCtx (.gld 0x1FFFF8) (loc 0x4000)) ∧
    (ctxBase [accessCtx (.gld 0x1FFFF8) (loc 0x4000)]).answer (loc 0x4000).pa 8 = .here ∧
    (ctxBase [accessCtx (.gld 0x1FFFF8) (loc 0x4000)]).poisoned (loc 0x4000).pa 8 = false := by
  decide +kernel

theorem witness_PerformsContextAccesses_refused : ∃ (s : State) (l : Loc), (s.core 0).ctx? 9 = some (accessCtx (.gld 0) l) ∧
    s.lockedOut l.pa 8 = false ∧ s.answer l.pa 8 = .refused :=
  ⟨{ ctxBase [accessCtx (.gld 0) { loc 0 with pa := 0x20000001000 }] with peers := [(1, ⟨4096, true, true, 0, 0, 0⟩)] }, { loc 0 with pa := 0x20000001000 },
    by decide +kernel⟩

theorem witness_FillsLines_bent : (ctxBase [{ someCtx with pc := 0x1FC00 }]).bents.find? someCtx.bent = some programBent := by rfl

/-- A bundle that begins in the last word of the space. -/
theorem witness_IssuesBundles_across : ∃ (s : State) (x : Context), x = { someCtx with pc := 0x1FFFC } ∧
    s = withMe (fun k => { k with frames := [⟨1, 127, false, 0, base.keyOf 0⟩] }) (ctxBase [x]) ∧ (s.core 0).ctx? 9 = some x ∧ x.mustStall = false ∧ x.deferred = [] ∧
    x.flight = [] ∧ s.mayIssue 0 x = true ∧ (imageWord (s.imageOf 0 x.bent) x.pc).toNat < 2 ^ 31 ∧
    0x20000 < x.pc + bundleLen (imageWord (s.imageOf 0 x.bent) x.pc).toNat :=
  ⟨_, _, rfl, rfl, by decide +kernel⟩

theorem witness_PerformsContextAccesses_poison : ∃ s : State, s = { ctxBase [accessCtx (.gld 0) (loc 0x4000)] with poison := [(0x8000800, ())] } ∧
    (s.core 0).ctx? 9 = some (accessCtx (.gld 0) (loc 0x4000)) ∧ s.answer (loc 0x4000).pa 8 = .here ∧ s.poisoned (loc 0x4000).pa 8 = true ∧ (loc 0x4000).cp ≠ 2 ∧
    s.lockedOut (loc 0x4000).pa 8 = false ∧ s.accums = [] := ⟨_, rfl, by decide +kernel⟩

/-- A store of two units: bytes 0x4004 to 0x400B. -/
theorem witness_PerformsContextAccesses_halves : ∃ (s : State) (x : Context) (o : SrfxOp), s = { ctxBase [x] with defer := true } ∧
    x = { someCtx with srfx := [o] } ∧ (s.core 0).ctx? 9 = some x ∧ o.parts = [⟨0, loc 0x4004, 4⟩, ⟨4, loc 0x4008, 4⟩] ∧ o.kind = .store (List.replicate 8 7) ∧ o.flag = some 0 ∧
    s.answer (loc 0x4004).pa 4 = .here ∧ s.answer (loc 0x4008).pa 4 = .here ∧ s.lockedOut (loc 0x4004).pa 4 = false ∧ s.lockedOut (loc 0x4008).pa 4 = false :=
  ⟨_, _, { no := 0, kind := .store (List.replicate 8 7), cid := 0, cls := 0, flag := some 0, va := 0x4004, parts := [⟨0, loc 0x4004, 4⟩, ⟨4, loc 0x4008, 4⟩], got := [], size := 8, sent := 0 },
    rfl, rfl, by decide +kernel⟩

/-! ## The typed buffers -/

theorem witness_TypedBuffersAreKept : writesAnyBuffer .iflush = false ∧ writesSrf .iflush = false ∧ writesAcc .iflush = false ∧ clearsWindows .iflush = false ∧
    clearsWindows .exit = true ∧ writerCore (.commandElement 3 .load) = some 3 ∧ (∃ t, exec .iflush base = .next t) ∧ ∃ t, exec (.commandElement 3 .load) base = .next t :=
  ⟨rfl, rfl, rfl, rfl, rfl, rfl, ⟨_, rfl⟩, _, rfl⟩


/-! ## Kernel units -/

/-- An operation of a unit at 1024 bits. -/
def wideOp (u op : Nat) (t : ET) (sat : Bool) : KOp := { unitNo := u, op := op, et := t, rm := 0, sat := sat, w := 1024, lgb := 0 }

theorem witness_VectorIntegers : ∃ k m : KOp, k = wideOp 0 0 .i8 true ∧ Placed k ∧ k.et.isInt = true ∧ k.valuOk = true ∧ 127 < k.w / k.et.bits ∧
    (wideOp 1 0x0E .cf64 false).valuOk = true ∧ (wideOp 0 7 .f32 false).valuOk = true ∧ (wideOp 0 7 .f32 false).et.packed = false ∧
    m = { unitNo := 2, op := 9, et := .n8, rm := 0, sat := false, w := 64, lgb := 3 } ∧ Placed m ∧ m.vmacOk = true :=
  ⟨_, _, rfl, by unfold Placed; decide, by decide, by decide, by decide, by decide, by decide, by decide, rfl, by unfold Placed; decide, by decide⟩

theorem witness_VectorIntegers_element : intElement 0 8 127 false true 127 1 0 = some 127 ∧ intElement 0x0F 8 0 true false 1 2 255 = some 2 := by decide

theorem witness_VectorFloats : Placed (wideOp 0 0 .f32 true) ∧ (wideOp 0 0 .f32 true).valuOk = true ∧ (wideOp 0 0 .f32 true).et.isF = true ∧
    (wideOp 0 0 .f32 true).et.fmt? = some .f32 ∧ (wideOp 1 6 .cf64 false).valuOk = true ∧ (wideOp 1 6 .cf64 false).et.isC = true ∧
    (wideOp 1 6 .cf64 false).et.comp.fmt? = some .f64 := by unfold Placed; decide

theorem witness_VectorCompares : Placed (wideOp 0 0x13 .f64 false) ∧ (wideOp 0 0x13 .f64 false).valuOk = true ∧ (wideOp 0 0x33 .i64 false).valuOk = true ∧
    (wideOp 0 0x10 .cf32 false).valuOk = true := by unfold Placed; decide

theorem witness_MultiplyAccumulates : Placed (wideOp 2 0 .bf16 false) ∧ (wideOp 2 0 .bf16 false).vmacOk = true ∧ (wideOp 2 0 .bf16 false).et.fmt? = some .bf16 ∧
    (wideOp 2 2 .i16 true).vmacOk = true ∧ (wideOp 2 3 .cf32 true).vmacOk = true ∧ (wideOp 2 7 .cf64 true).et.comp.fmt? = some .f64 ∧
    (wideOp 2 8 .f16 false).vmacOk = true ∧ (wideOp 2 8 .f16 false).et.fmt? = some ⟨5, 10, 15, true⟩ := by unfold Placed; decide

/-- An environment whose T is a value in every lane of 32 bits. -/
def everyLane (v : Nat) : KEnv := { cid := 3, t := v * (2 ^ 1024 - 1) / (2 ^ 32 - 1), ports := [], rnd := 0, seed := 0, gens := [] }

theorem witness_SpecialFunctions : Placed (wideOp 3 2 .f32 true) ∧ (wideOp 3 2 .f32 true).vsfuOk 0 = true ∧ (everyLane 0x7FC00000).rnd = 0 ∧
    (wideOp 3 2 .f32 true).et.fmt? = some .f32 ∧ (wideOp 3 0x8B .f16 true).vsfuOk 0 = true ∧ (wideOp 3 2 .f32 true).rmode (everyLane 0) = .rne := by
  unfold Placed; decide

/-- An input of each kind: a NaN, a zero, an infinity, a negative and a positive number, a number far out, a power of two, a whole number. -/
theorem witness_SpecialFunctions_inputs : (Fmt.f32.decode 0x7FC00000).isNaN = true ∧ Fmt.f32.decode 0x80000000 = .fin true 0 (-149) ∧
    Fmt.f32.decode 0xFF800000 = .inf true ∧ Fmt.f32.decode 0xBF800000 = .fin true 0x800000 (-23) ∧ Fmt.f32.decode 0x40400000 = .fin false 0xC00000 (-22) ∧
    (FVal.fin false 1 16).lt (Fmt.f32.decode 0x50000000).abs = true ∧ (0x800000 : Nat) = 2 ^ Nat.log2 0x800000 ∧ 3 * 2 ^ 22 = (0xC00000 : Nat) := by
  decide

theorem witness_Permutes : Placed (wideOp 4 6 .cf64 false) ∧ (wideOp 4 6 .cf64 false).vprmOk = true ∧ (wideOp 4 7 .f16 false).vprmOk = true ∧
    (wideOp 4 9 .f32 false).vprmOk = true ∧ (wideOp 4 11 .q3 false).vprmOk = true := by unfold Placed; decide

theorem witness_Conversions : Placed (wideOp 5 0x0B .bf16 false) ∧ (wideOp 5 0x0B .bf16 false).cvtOk = true ∧ (wideOp 5 0x40 .i32 true).cvtOk = true ∧
    (wideOp 5 0xCB .e4m3 false).cvtOk = true ∧ (ET.ofCode (0xCB % 16)).fmt? = some .f32 := by unfold Placed; decide

theorem witness_Reductions : Placed (wideOp 6 0x10 .f32 false) ∧ (wideOp 6 0x10 .f32 false).redOk = true ∧ (wideOp 6 0x10 .f32 false).typeOk = true ∧
    (wideOp 6 1 .i64 false).redOk = true ∧ (wideOp 6 6 .bf16 false).redOk = true ∧ (wideOp 6 0 .cf64 false).typeOk = true ∧ (wideOp 6 0 .cf64 false).redOk = true := by
  unfold Placed; decide

/-- An operation of SALU. -/
def scalarOp (op : Nat) (t : ET) : KOp := { unitNo := 7, op := op, et := t, rm := 0, sat := false, w := 64, lgb := 3 }

theorem witness_ScalarResults : (scalarOp 0x19 .i32).saluOk = true ∧ scalarElement 0x19 32 0xFFFFFFFF 0 = some 32 ∧ (scalarOp 0x15 .i64).saluOk = true ∧
    (scalarOp 0x23 .f64).saluOk = true ∧ (scalarOp 0x28 .f32).saluOk = true ∧ (scalarOp 0x23 .f64).et.fmt? = some .f64 := by decide

theorem witness_Exchanges : ∃ ts : List (Option Nat), Placed (wideOp 11 2 .i8 false) ∧ (wideOp 11 2 .i8 false).op ≤ 2 ∧ ts ≠ [] ∧ ts[1]? = some none ∧ ts[0]? = some (some 7) :=
  ⟨[some 7, none], by unfold Placed; decide, by decide, by decide, rfl, rfl⟩

/-! ### Issues of one trigger -/

/-- A slot that moves a 12-bit immediate into the trigger port of a unit. -/
def trigger (u op et w imm : Nat) : Word := BitVec.ofNat 64 (et * 2 ^ 56 + op * 2 ^ 48 + w * 2 ^ 26 + 2 ^ 24 + imm * 2 ^ 12 + (0x708 + 16 * u))

/-- A bundle of one slot. -/
def bundleFor (w : Word) : Bundle := { len := 16, rest := false, sany := false, sync := 0, rpt := 0, slots := [(0, w)], imm := 0, bad := none }

/-- Its move. -/
def moveFor (w : Word) : Move := (Slot.parse w).move 0 0 ((Slot.parse w).indexAt 0) false

/-- What the kernel evaluates of a trigger alone in its bundle. -/
abbrev Alone (x : Context) (u : Nat) (w : Word) : Prop :=
  ((ctxBase [x]).core 0).ctx? x.uid = some x ∧ x.size = 1 ∧ (bundleFor w).moves x.rep x.holds = [moveFor w] ∧
  (bundleFor w).traps [moveFor w] x.vwin x.rnd (!x.delays.isEmpty) = [] ∧ (moveFor w).slot.dstPort = some (.t u) ∧ (moveFor w).slot.srcPort = none ∧
  x.on 0 (moveFor w).slot = true ∧ x.sourceBad 0 (moveFor w) = false ∧ x.operandsBad 0 ((moveFor w).slot.kop u) = false ∧ x.rep = 0 ∧ x.delays = []

theorem triggers_of (x : Context) (u : Nat) (w : Word) (h : Alone x u w) (hb : (ctxBase [x]).bents.find? x.bent = some programBent) :
    Triggers (ctxBase [x]) 0 x (bundleFor w) (moveFor w) u := by
  obtain ⟨h1, h2, h3, h4, h5, h6, h7, h8, h9, h10, h11⟩ := h
  exact ⟨h1, h2, h3, h4, h5, (fun i hi => by rw [h6] at hi; cases hi), h7, h8, h9, h10, h11, by rw [hb]; exact Option.some_ne_none _⟩

/-- Every trigger of a list of slots is alone at unit `u`. -/
theorem triggers_each (x : Context) (u : Nat) (ws : List Word) (h : ws.all (fun w => decide (Alone x u w)) = true)
    (hb : (ctxBase [x]).bents.find? x.bent = some programBent) : ∀ w ∈ ws, Triggers (ctxBase [x]) 0 x (bundleFor w) (moveFor w) u :=
  fun w hw => triggers_of x u w (of_decide_eq_true (List.all_eq_true.mp h w hw)) hb

theorem witness_UnitsDeliver_valu : Triggers (ctxBase [someCtx]) 0 someCtx (bundleFor (trigger 0 0 0 3 1)) (moveFor (trigger 0 0 0 3 1)) 0 :=
  triggers_of _ _ _ (by decide +kernel) rfl

theorem witness_UnitsDeliver_units : ∀ p ∈ [(2, trigger 2 0 11 3 1), (3, trigger 3 2 11 3 1), (4, trigger 4 0 11 3 1), (6, trigger 6 0 11 3 1),
    (7, trigger 7 0 4 0 1), (11, trigger 11 0 0 3 1)], Triggers (ctxBase [someCtx]) 0 someCtx (bundleFor p.2) (moveFor p.2) p.1 :=
  have h : [(2, trigger 2 0 11 3 1), (3, trigger 3 2 11 3 1), (4, trigger 4 0 11 3 1), (6, trigger 6 0 11 3 1),
    (7, trigger 7 0 4 0 1), (11, trigger 11 0 0 3 1)].all (fun p => decide (Alone someCtx p.1 p.2)) = true := by decide +kernel
  fun p hp => triggers_of _ _ _ (of_decide_eq_true (List.all_eq_true.mp h p hp)) rfl

/-- A quantising conversion of f32 to i8 whose scale, 2^127, makes one element overflow; the context's threshold is 0. -/
def overCtx (thr : Nat) : Context :=
  { someCtx with thr := thr, cl := [{ CtxCluster.fresh with o := [(23, { bits := 0, s := true, v := 254 }), (20, { bits := 0, s := false, v := 0 }), (21, { bits := 0, s := false, v := 0 }), (22, { bits := 0, s := false, v := 0 })] }] }

theorem witness_UnitsDeliver_overflow : Triggers (ctxBase [overCtx 0]) 0 (overCtx 0) (bundleFor (trigger 5 0xCB 0 3 0x7FF)) (moveFor (trigger 5 0xCB 0 3 0x7FF)) 5 ∧
    (overCtx 0).ovc < 2 ^ 32 :=
  ⟨triggers_of _ _ _ (by decide +kernel) rfl, by decide⟩

/-- The bent of `ctxBase` with a start bit at 0x40. -/
def branchBase (x : Context) : State := withBent (fun r => { r with starts := [(4, ())] }) (ctxBase [x])

theorem branch_triggers (x : Context) (w : Word) (h : Triggers (ctxBase [x]) 0 x (bundleFor w) (moveFor w) 8) (hb : (branchBase x).bents.find? x.bent ≠ none) :
    Triggers (branchBase x) 0 x (bundleFor w) (moveFor w) 8 := by
  obtain ⟨h1, h2, h3, h4, h5, h6, h7, h8, h9, h10, h11, -⟩ := h
  exact ⟨h1, h2, h3, h4, h5, h6, h7, h8, h9, h10, h11, hb⟩

/-- A jump 4 bundles of 16 bytes ahead, to the start bit; one to the next, which has none; a branch not taken; a loop; a halt and a rest. -/
theorem witness_BranchesAct : ∃ r : Bent, (branchBase someCtx).bents.find? someCtx.bent = some r ∧ r.starts.find? 4 ≠ none ∧ r.starts.find? 5 = none ∧ someCtx.pc = 0 ∧
    ∀ w ∈ [trigger 8 0 0 0 4, trigger 8 0 0 0 5, trigger 8 1 0 0 4, trigger 8 4 0 0 4, trigger 8 16 0 0 0, trigger 8 17 0 0 0],
      Triggers (branchBase someCtx) 0 someCtx (bundleFor w) (moveFor w) 8 :=
  ⟨_, rfl, by decide, by decide, by decide, fun w hw => branch_triggers _ _ (triggers_each someCtx 8 _ (by decide +kernel) rfl w hw) (by decide)⟩

theorem witness_DelaysRunOut : ∃ x : Context, x = { someCtx with delays := [(1, .goto 0x40)] } ∧ ((ctxBase [x]).core 0).ctx? x.uid = some x ∧
    ({ bundleFor 0 with slots := [] } : Bundle).moves x.rep x.holds = [] ∧ (bundleFor 0).bad = none ∧ x.rep = 0 :=
  ⟨_, rfl, by decide +kernel⟩

/-- A context with one accumulator window, an input of 256 bytes at SRF byte 0x100 and an output of 256 at 0x200, its first operand port of the exchange naming the output. -/
def portCtx (port : Nat) : Context :=
  { someCtx with
    accw := [3], ins := [{ base := 0x100, len := 0x100, scrb := 0, et := 11, pos := 0, stats := none }]
    outs := [{ base := 0x200, len := 0x100, scrb := 0, et := 11, pos := 0, stats := none }]
    cl := [{ CtxCluster.fresh with o := [(40, { bits := BitVec.ofNat 1024 port, s := false, v := 0 })] }] }

theorem witness_AccumulatorPort : (∀ w ∈ [trigger 9 0 11 0 2, trigger 9 0 11 0 1, trigger 9 0 11 0 1023, trigger 9 1 11 3 1, trigger 9 2 11 3 1],
      Triggers (ctxBase [portCtx 0]) 0 (portCtx 0) (bundleFor w) (moveFor w) 9) ∧
    Triggers (ctxBase [someCtx]) 0 someCtx (bundleFor (trigger 9 0 11 0 0)) (moveFor (trigger 9 0 11 0 0)) 9 ∧ someCtx.accw[0]? = none ∧
    (((ctxBase [portCtx 0]).core 0).ownEntry 3).getLsbD 31 = false ∧ ((ctxBase [portCtx 0]).core 0).bufPoisoned .acc (4096 * 3 + 8) 8 = false :=
  ⟨triggers_each (portCtx 0) 9 _ (by decide +kernel) rfl, triggers_of _ _ _ (by decide +kernel) rfl, by decide +kernel⟩

theorem witness_AccumulatorPort_other : ∃ s : State, s = withMe (fun k => { k with accOwn := [(3, 0x80000002)] }) (ctxBase [portCtx 0]) ∧
    ((s.core 0).ownEntry 3).getLsbD 31 = true ∧ ownedBy ((s.core 0).ownEntry 3) (portCtx 0).bent = false := ⟨_, rfl, by decide +kernel⟩

theorem witness_SrfExchange : (∀ w ∈ [trigger 10 0 11 0 0xF8, trigger 10 0 11 0 0xFC, trigger 10 0 0 0 0],
      Triggers (ctxBase [portCtx 0]) 0 (portCtx 0) (bundleFor w) (moveFor w) 10) ∧
    (∀ w ∈ [trigger 10 1 11 3 7, trigger 10 2 11 0 0x7F8],
      Triggers (ctxBase [portCtx (2 ^ 35)]) 0 (portCtx (2 ^ 35)) (bundleFor w) (moveFor w) 10) ∧
    Triggers (ctxBase [portCtx 0x4000]) 0 (portCtx 0x4000) (bundleFor (trigger 10 3 0 0 7)) (moveFor (trigger 10 3 0 0 7)) 10 ∧
    (portCtx 0).ins[0]? ≠ none ∧ (portCtx 0).outs[0]? ≠ none ∧ ((ctxBase [portCtx 0]).core 0).fmtOf 0 = 11 ∧
    ((ctxBase [portCtx 0]).core 0).bufPoisoned .srf 0x1F8 8 = false ∧ (ctxBase [portCtx 0]).translate 0 1 0x7F8 .read = .ok (loc 0x7F8) ∧
    (ctxBase [portCtx 0]).translate 0 1 0x4000 .write = .ok (loc 0x4000) ∧ (ctxBase [portCtx 0]).translate 0 1 0x40000000 .write = .error 0x06 :=
  ⟨triggers_each (portCtx 0) 10 _ (by decide +kernel) rfl, triggers_each (portCtx (2 ^ 35)) 10 _ (by decide +kernel) rfl,
    triggers_of _ _ _ (by decide +kernel) rfl, by decide +kernel⟩

theorem witness_Synchronises : (∀ w ∈ [trigger 12 0 0 0 3, trigger 12 3 0 0 0, trigger 12 4 0 0 1, trigger 12 4 0 0 0xFFF, trigger 12 5 0 0 1, trigger 12 6 0 0 0],
      Triggers (ctxBase [someCtx]) 0 someCtx (bundleFor w) (moveFor w) 12) ∧ (ctxBase [someCtx]).ownsPhaser someCtx.bent 0 = false :=
  ⟨triggers_each someCtx 12 _ (by decide +kernel) rfl, by decide +kernel⟩

/-- A context that is a member of phaser 5, which its bent owns. -/
def memberBase (mode : PhMode) : State := withPhaser 5 ⟨9, [(.context 9, mode, 9)]⟩ (ctxBase [someCtx])

theorem witness_Synchronises_phasers : (memberBase .sig).ownsPhaser someCtx.bent 5 = true ∧ ((memberBase .sig).phaser 0 5).member (.context someCtx.uid) = some (.sig, 9) ∧
    phaseReached { (memberBase .sig).phaser 0 5 with p := 9 } (9 + 1) = false ∧ ((memberBase .wait).phaser 0 5).member (.context someCtx.uid) = some (.wait, 9) ∧
    ((memberBase .sigwait).phaser 0 5).member (.context someCtx.uid) = some (.sigwait, 9) ∧
    ((withPhaser 5 ⟨9, []⟩ (ctxBase [someCtx])).phaser 0 5).member (.context someCtx.uid) = none := by decide +kernel

theorem witness_SpillsSlices : someCtx.redir = false ∧ ∀ w ∈ [trigger 13 0 0 0 8, trigger 13 0 0 0 4, trigger 13 0 0 0 0x7FC, trigger 13 1 0 3 1],
    Triggers (ctxBase [someCtx]) 0 someCtx (bundleFor w) (moveFor w) 13 :=
  ⟨rfl, triggers_each someCtx 13 _ (by decide +kernel) rfl⟩

end Sys2Proof.Tests
end

