-- ==== Sys2Proof/Tests/Events.lean ====
section
/-! SUPPORT. Witnesses for the statements about the machine's own events: memory, scheduling, sill units, the fabric, the host's attachment, the control
channel, power. -/

set_option Elab.async false

namespace Sys2Proof.Tests

open Sys2Proof Sys2Proof.Machine Sys2Proof.Claims

/-! ## The memory system's own events -/

theorem exists_of_any {α : Type} (o : Option α) (p : α → Bool) (h : o.any p = true) : ∃ a, o = some a ∧ p a = true := by
  cases o with
  | none => cases h
  | some a => exact ⟨a, rfl, h⟩

theorem malformed_of (e : BitVec 64) (sh : Nat) (h : e.toNat % 2 = 0) : Malformed e sh := .inl h

theorem witness_WalksTables_absent : base.absent (0xD000000000000 + 8 * (0 / 2 ^ 39 % 2 ^ 17)) = true ∧
    ({ base with poison := [(0x20000, ())] } : State).absent 0x100000 = false ∧
    ({ base with poison := [(0x20000, ())] } : State).poisoned (({ base with poison := [(0x20000, ())] } : State).home 0x100000) 8 = true := by
  decide +kernel

theorem witness_WalksTables_malformed : base.absent 0x100008 = false ∧ base.poisoned (base.home 0x100008) 8 = false ∧ Malformed (base.pte 0x100008) 39 :=
  ⟨by decide +kernel, by decide +kernel, malformed_of _ _ (by decide +kernel)⟩

/-- A pointer at the last level, a leaf at the top one, a leaf not aligned to its page, a contiguous one of 2 MiB, CP 3, a writable page with CP 2. -/
theorem witness_WalksTables_forms : Malformed 0x11 12 ∧ Malformed 0x1 39 ∧ Malformed 0x1001 21 ∧ Malformed 0x21 21 ∧ Malformed 0x301 12 ∧ Malformed 0x205 12 :=
  by refine ⟨?_, ?_, ?_, ?_, ?_, ?_⟩ <;> exact .inr (.inr (.inr (by decide)))

theorem witness_WalksTables_pointer : base.absent 0x100000 = false ∧ base.poisoned (base.home 0x100000) 8 = false ∧ ¬ Malformed (base.pte 0x100000) 39 ∧
    (base.pte 0x100000).toNat / 2 ^ 4 % 2 = 1 := by
  have h : base.pte 0x100000 = 0x200011 := by decide +kernel
  rw [h]; unfold Malformed
  decide +kernel

theorem witness_WalksTables_leaf : base.absent 0x200000 = false ∧ ¬ Malformed (base.pte 0x200000) 30 ∧ (base.pte 0x200000).toNat / 2 ^ 4 % 2 = 0 ∧
    base.absent ((base.pte 0x200000).toNat % 2 ^ 52 / 2 ^ 12 * 2 ^ 12) = false := by
  have h : base.pte 0x200000 = 0x4000080F := by decide +kernel
  rw [h]; unfold Malformed
  decide +kernel

/-- A leaf of 1 GiB past the HBM4. -/
theorem witness_WalksTables_hole : ¬ Malformed ((withLeaf 0xC00000080F).pte 0x200000) 30 ∧ ((withLeaf 0xC00000080F).pte 0x200000).toNat / 2 ^ 4 % 2 = 0 ∧
    (withLeaf 0xC00000080F).absent (((withLeaf 0xC00000080F).pte 0x200000).toNat % 2 ^ 52 / 2 ^ 12 * 2 ^ 12) = true := by
  have h : (withLeaf 0xC00000080F).pte 0x200000 = 0xC00000080F := by decide +kernel
  rw [h]; unfold Malformed
  decide +kernel

theorem witness_InstallsTranslations : (0x3FFFFFFF : Word).toNat < 2 ^ 56 ∧ base.bents.find? (base.root 1) = some programBent ∧
    (base.bay 0).walks = [] ∧ (base.bay 0).tlb = [] := by
  refine ⟨by decide, by decide +kernel, by decide +kernel, by decide⟩

/-- The translation of the GiB of `base`. -/
def pageOf : TlbEntry := { root := 1, base := 0, size := 2 ^ 30, leaf := BitVec.ofNat 64 (clearLeaf 0x40000000) }

/-- Bay 0 with one walk begun and translations held. -/
def walkBase (page : Nat) (r : WalkResult) (tlb : List TlbEntry) : State :=
  base.setBay 0 { Bay.reset with walks := [⟨1, page, r⟩], tlb := tlb }

theorem witness_InstallsTranslations_page : ((walkBase 0x3FFFF (.page pageOf) []).bay 0).walks = [] ++ ⟨1, 0x3FFFF, .page pageOf⟩ :: [] ∧
    (walkBase 0x3FFFF (.page pageOf) []).root 1 = 1 ∧ 0x3FFFF = (0x3FFFFFFF : Word).toNat / 4096 := by decide +kernel

theorem witness_InstallsTranslations_stop : ((walkBase 0x40000 (.stop 0x06 1) []).bay 0).walks = [⟨1, 0x40000, .stop 0x06 1⟩] := by decide +kernel

theorem witness_InstallsTranslations_held : ∃ t ∈ ((walkBase 0x40000 (.stop 0x06 1) [pageOf]).bay 0).tlb, t.root = (walkBase 0x40000 (.stop 0x06 1) [pageOf]).root 1 ∧
    t.base ≤ (0x3FFFFFFF : Word).toNat ∧ (0x3FFFFFFF : Word).toNat < t.base + t.size ∧ (0x40000 : Nat) ≠ (0x3FFFFFFF : Word).toNat / 4096 :=
  ⟨pageOf, by decide +kernel, by decide +kernel⟩

/-- `base` with one access pending. -/
def pendBase (a : Access) : State := { base with pending := [a] }

theorem witness_PerformsPendingAccesses_store : (pendBase someAccess).pending[0]? = some someAccess ∧ (pendBase someAccess).canPerform someAccess = true ∧
    (pendBase someAccess).answer someAccess.loc.pa someAccess.size = .here := by
  refine ⟨by decide, by decide +kernel⟩

theorem witness_PerformsPendingAccesses_load : ∃ a : Access, (pendBase a).pending[0]? = some a ∧ (pendBase a).canPerform a = true ∧ a.kind = .load (.f 31 4) ∧
    (pendBase a).answer a.loc.pa a.size = .here ∧ (pendBase a).poisoned a.loc.pa a.size = false ∧ a.loc.cp ≠ 2 ∧ a.lost = false :=
  ⟨{ someAccess with kind := .load (.f 31 4), size := 4 }, rfl, by decide +kernel, rfl, by decide +kernel, by decide +kernel, by decide, by decide⟩

theorem witness_PerformsPendingAccesses_amo : ∃ a : Access, (pendBase a).pending[0]? = some a ∧ (pendBase a).canPerform a = true ∧ a.kind = .amo .swap 5 (.x 31 8 false) ∧
    (pendBase a).answer a.loc.pa a.size = .here ∧ (pendBase a).poisoned a.loc.pa a.size = false ∧ a.lost = false :=
  ⟨{ someAccess with kind := .amo .swap 5 (.x 31 8 false) }, rfl, by decide +kernel, rfl, by decide +kernel, by decide +kernel, by decide⟩

theorem witness_PerformsPendingAccesses_cas : ∃ a : Access, (pendBase a).pending[0]? = some a ∧ (pendBase a).canPerform a = true ∧ a.kind = .cas 0 7 (.x 5 4 true) ∧
    (pendBase a).answer a.loc.pa a.size = .here ∧ (pendBase a).poisoned a.loc.pa a.size = false ∧ (pendBase a).accums = [] ∧
    leNat ((pendBase a).bytesAt a.loc.slot a.loc.pa a.size) = (0 : Word).toNat % 2 ^ (8 * a.size) :=
  ⟨{ someAccess with kind := .cas 0 7 (.x 5 4 true), size := 4 }, rfl, by decide +kernel, rfl, by decide +kernel⟩

theorem witness_PerformsPendingAccesses_poisoned : ∃ (s : State) (a : Access) (p : Peg), s.pending[0]? = some a ∧ s.canPerform a = true ∧
    s.answer a.loc.pa a.size = .here ∧ a.agent = .peg 1 ∧ s.pegs.find? 1 = some p ∧ s.poisoned a.loc.pa a.size = true ∧ a.kind.isWrite = false :=
  ⟨{ pendBase { someAccess with kind := .load .none } with poison := [(0x8000800, ())] }, { someAccess with kind := .load .none }, _, rfl, by decide +kernel,
    by decide +kernel, rfl, rfl, by decide +kernel, by decide⟩

/-- An access to the window of package 1. -/
def farAccess : Access := { someAccess with loc := { loc 0 with pa := 0x20000001000 } }

theorem witness_FailsPendingAccesses_refused : ∃ (s : State) (p : Peg), s.pending[0]? = some farAccess ∧ farAccess.agent = .peg 1 ∧ s.pegs.find? 1 = some p ∧
    farAccess.lost = false ∧ s.answer farAccess.loc.pa farAccess.size = .refused :=
  ⟨{ pendBase farAccess with peers := [(1, ⟨4096, true, true, 0, 0, 0⟩)] }, _, rfl, rfl, rfl, by decide, by decide +kernel⟩

theorem witness_FailsPendingAccesses_silent : ∃ (s : State) (p : Peg), s.pending[0]? = some farAccess ∧ s.pegs.find? 1 = some p ∧
    s.answer farAccess.loc.pa farAccess.size = .silent ∧ farAccess.sent + 100000 ≤ s.elapsed ∧ farAccess.kind.isRead = false :=
  ⟨{ pendBase farAccess with elapsed := 100000 }, _, rfl, rfl, by decide +kernel, by decide, by decide⟩

/-- A merge of 1 into an address. -/
def someMerge (op : MergeOp) (det : Bool) (l : Loc) : Merge :=
  { parties := [⟨0, .peg 1, 1, 1, none, 0, 0x4000⟩], op := op, loc := l, size := 8, operand := 1, det := det, release := false, sent := 0 }

theorem witness_PerformsMerges_plain : ∃ s : State, s.merges[0]? = some (someMerge .add false (loc 0x4000)) ∧ s.answer (loc 0x4000).pa 8 = .here ∧
    s.mergeWaits (someMerge .add false (loc 0x4000)) = false ∧ s.poisoned (loc 0x4000).pa 8 = false :=
  ⟨{ base with merges := [someMerge .add false (loc 0x4000)] }, rfl, by decide +kernel⟩

theorem witness_PerformsMerges_exact : ∃ s : State, s.merges[0]? = some (someMerge .fadd true (loc 0x4000)) ∧ s.answer (loc 0x4000).pa 8 = .here ∧
    s.mergeWaits (someMerge .fadd true (loc 0x4000)) = false ∧ s.poisoned (loc 0x4000).pa 8 = false :=
  ⟨{ base with merges := [someMerge .fadd true (loc 0x4000)] }, rfl, by decide +kernel⟩

theorem witness_PerformsMerges_added : ∃ (s : State) (a : Accum), s.merges[0]? = some (someMerge .fadd true (loc 0x4000)) ∧ s.answer (loc 0x4000).pa 8 = .here ∧
    s.mergeWaits (someMerge .fadd true (loc 0x4000)) = false ∧ s.poisoned (loc 0x4000).pa 8 = false ∧ s.accums = [a] ∧ a.pa = (loc 0x4000).pa ∧ a.size = 8 ∧
    a.two = false :=
  ⟨{ base with merges := [someMerge .fadd true (loc 0x4000)], accums := [⟨0x40004000, 8, false, none, .num true 1 0, .num false 0 0⟩] }, _, rfl, by decide +kernel,
    by decide +kernel, by decide +kernel, rfl, rfl, rfl, rfl⟩

theorem witness_PerformsMerges_combined : ∃ (s : State) (m : Merge), s.merges[0]? = some m ∧ s.merges[1]? = some m ∧ s.combinable m m = true :=
  ⟨{ base with merges := [someMerge .add false { loc 0 with pa := 0x20000001000, mw := true }, someMerge .add false { loc 0 with pa := 0x20000001000, mw := true }] },
    _, rfl, rfl, by decide +kernel⟩

theorem witness_ScrubsAndEvicts : base.region 0xBFFFFFFFFF = .hbm 0xBFFFFFFFFF ∧ base.poisoned 0xBFFFFFFFFF 1 = false ∧
    (∃ s : State, s.region 8 = .hbm 8 ∧ s.poisoned 8 1 = true) ∧ ∀ a, base.region 0xC000000000 ≠ .hbm a := by
  refine ⟨by decide +kernel, by decide, ⟨{ base with poison := [(1, ())] }, by decide +kernel, by decide⟩, fun a h => ?_⟩
  have e : base.region 0xC000000000 = .absent := by decide +kernel
  rw [e] at h
  nomatch h

theorem witness_ScrubsAndEvicts_buffers : (0 : Nat) < 0xC0000 ∧ 8 * 0x17FFF < 0xC0000 ∧ 8 * 0x3FFFF < 0x200000 ∧ (base.core 0).bufPoisoned .acc (8 * 0x17FFF) 8 = false ∧
    (base.core 0).bufPoisoned .srf (8 * 0x3FFFF) 8 = false ∧ (base.core 1023).bufPoisoned .wb 0 8 = false := by decide +kernel

/-- Statistics of an epoch and a type for the record at 0x4000. -/
def someRecordMerge (epoch et : Nat) : RecordMerge :=
  { no := 0, agent := .peg 1, peg := 1, bent := 1, cmd := none, cls := 0, va := 0x4000, loc := loc 0x4000, sent := 0, lost := false
    stats := { epoch := epoch, et := et, eLo := 0, count := 2, nan := 1, inf := 0, zero := 1, amax := 0x3F800000, bins := List.replicate 24 1 } }

theorem witness_PerformsScribeMerges : ∃ s : State, s.recordMerges[0]? = some (someRecordMerge 0 0) ∧ s.recordMerges[1]? = some (someRecordMerge 1 0) ∧
    s.recordMerges[2]? = some (someRecordMerge 0 7) ∧ s.answer (loc 0x4000).pa 128 = .here ∧ s.lockedOut (loc 0x4000).pa 128 = false ∧
    s.recordWaits (someRecordMerge 0 0) = false ∧ s.poisoned (loc 0x4000).pa 128 = false ∧ (someRecordMerge 0 0).stats.bins.length = 24 ∧ recordField s (loc 0x4000) 0 = 0 ∧ recordField s (loc 0x4000) 4 = 0 :=
  ⟨{ base with recordMerges := [someRecordMerge 0 0, someRecordMerge 1 0, someRecordMerge 0 7] }, rfl, rfl, rfl, by decide +kernel, by decide +kernel,
    by decide +kernel, by decide, by decide +kernel⟩

/-- A context that waits for a window. -/
def accCtx : Context := { someCtx with frozen := true, accWait := some 191 }

theorem witness_HandsWindowsOver_free : ∃ x : Context, ((ctxBase [accCtx]).core 0).ctx? 9 = some x ∧ x.accWait = some 191 ∧
    (((ctxBase [accCtx]).core 0).accOwn.get 191 0).getLsbD 31 = false := ⟨_, rfl, by decide +kernel⟩

/-- The window is bent 2's, which has none of it. -/
def spilledBase : State := withMe (fun k => { k with accOwn := [(191, 2 + 2 ^ 31 + 2 ^ 32)] }) (ctxBase [accCtx])

theorem witness_HandsWindowsOver_spilled : ∃ (x : Context) (r : Bent), (spilledBase.core 0).ctx? 9 = some x ∧ x.accWait = some 191 ∧
    ((spilledBase.core 0).accOwn.get 191 0).getLsbD 31 = true ∧ (((spilledBase.core 0).accOwn.get 191 0).extractLsb' 0 24).toNat ≠ x.bent ∧
    ((spilledBase.core 0).accOwn.get 191 0).getLsbD 32 = true ∧ spilledBase.bents.find? x.bent = some r ∧ r.spills.find? (256 * 0 + 191) = none :=
  ⟨accCtx, _, by decide +kernel, by decide +kernel, by decide +kernel, by decide +kernel, by decide +kernel, rfl, by decide⟩

theorem witness_HandsWindowsOver_command : ∃ (s : State) (c : Cmd) (u : Trap), (s.core 0).head .matrix = some c ∧ c.trap = some u ∧ c.st = .stopped ∧
    u.code = 0x0B ∧ u.addr.toNat = 5 ∧ c.held = true ∧ ((s.core 0).accOwn.get 5 0).getLsbD 31 = false :=
  ⟨cmdBase [{ jigCmd 1 with st := .stopped, trap := some (cmdTrap 3 0x0B 5 0 5 0) }], { jigCmd 1 with st := .stopped, trap := some (cmdTrap 3 0x0B 5 0 5 0) },
    cmdTrap 3 0x0B 5 0 5 0, by decide +kernel, rfl, rfl, by decide, by decide, by decide +kernel, by decide⟩

/-- `base` with a save area at 0x10000: one peg frame, one core frame, two slots, their bytes at 0x40000 and their tags at 0x60000. -/
def slotsBase (tag : Nat) (noted : Bool) : State :=
  withBent (fun r => { r with save := 0x10000, spills := if noted then [(191, 0)] else [] })
    (withBytes 0x10000 (leBytes 16 (1 + 2 ^ 32 + 2 * 2 ^ 64) ++ leBytes 8 0x1000 ++ leBytes 8 0x800000 ++ leBytes 8 0x30000 ++ leBytes 8 0x50000)
      (withBytes 0x50000 (leBytes 8 5) (withBytes 0x60000 (leBytes 8 tag) base)))

/-- Firmware's read of places at home, with no accumulator open, changes nothing. -/
theorem home_read_same (s : State) (b : Nat) (need : Need) (ha : s.accums = []) : ∀ (ls : List (Loc × Nat)) (va : Word), (∀ e ∈ ls, s.remote? e.1.pa = none) →
    s.touchParts homeBay b need va ls = s ∧ (s.readParts homeBay ls).1 = s := by
  intro ls
  induction ls with
  | nil => exact fun _ _ => ⟨rfl, rfl⟩
  | cons e t ih =>
    obtain ⟨l, n⟩ := e
    intro va h
    have h0 : s.remote? l.pa = none := h _ (.head _)
    obtain ⟨h1, h2⟩ := ih (va + BitVec.ofNat 64 n) (fun e he => h e (.tail _ he))
    have ht : s.touched homeBay b va l n need = s := by
      have hi : s.install homeBay b va = s := by simp [State.install]
      have hs : s.sent l.pa n = s := by unfold State.sent; rw [h0]
      have hc : s.cacheLines homeBay l n = s := by simp [State.cacheLines]
      unfold State.touched
      dsimp only
      rw [hi, hs, hc]
      exact ite_self _
    have hf : (s.fetchLoc none homeBay l n).1 = s := by
      have hst : s.isStale l = false := by unfold State.isStale; rw [h0]; exact Bool.and_false _
      unfold State.fetchLoc
      rw [hst]
      exact State.closeAccums_none s l.pa n (by rw [ha]; exact fun _ h => nomatch h)
    refine ⟨?_, ?_⟩
    · change (s.touched homeBay b va l n need).touchParts homeBay b need _ t = s
      rw [ht, h1]
    · change ((s.fetchLoc none homeBay l n).1.readParts homeBay t).1 = s
      rw [hf, h2]

/-- A header that can be read at home is read with no change. -/
theorem saveHeader_same (s : State) (b : Nat) (ha : s.accums = [])
    (h : (match s.bents.find? b with
      | none => false
      | some r => match s.gCheck homeBay b s.firmware (r.save + BitVec.ofNat 64 0) 0x30 .read with
        | .ok ls => ls.all (fun e => (s.remote? e.1.pa).isNone)
        | _ => false) = true) : ∃ h, s.saveHeader b = some (s, h) := by
  unfold State.saveHeader State.saveGet
  cases hb : s.bents.find? b with
  | none => rw [hb] at h; cases h
  | some r =>
    rw [hb] at h
    dsimp only at h ⊢
    unfold State.gRead State.gReadAs
    change (match s.gCheck homeBay b s.firmware (r.save + BitVec.ofNat 64 0) 0x30 .read with
      | .ok ls => ls.all (fun e => (s.remote? e.1.pa).isNone)
      | _ => false) = true at h
    cases hc : s.gCheck homeBay b s.firmware (r.save + BitVec.ofNat 64 0) 0x30 .read with
    | ok ls =>
      rw [hc] at h
      have hr : ∀ e ∈ ls, s.remote? e.1.pa = none := fun e he => Option.isNone_iff_eq_none.mp (List.all_eq_true.mp h e he)
      obtain ⟨h1, h2⟩ := home_read_same s b .read ha ls (r.save + BitVec.ofNat 64 0) hr
      simp only [Issuer.of, hc, h1, h2, Need.throughL2, if_true, Option.map_some]
      exact ⟨_, rfl⟩
    | _ => rw [hc] at h; cases h

/-- Zeros written in clear where nothing is listed change nothing. -/
theorem putBytes_zeros (s : State) (hk : s.unitKey = []) : ∀ (d : List Byte) (pa : Nat), (∀ b ∈ d, b = 0) →
    (∀ c ∈ s.mem, c.1 < pa ∨ pa + d.length ≤ c.1) → s.putBytes none pa d = s := by
  intro d
  induction d with
  | nil => exact fun _ _ _ => rfl
  | cons b t ih =>
    intro pa hz hm
    have hb : s.putByte none pa b = s := by
      have hs : s.sameKey none (pa / 32) = true := by simp [State.sameKey, hk]
      have he : AMap.erase s.mem pa = s.mem := by
        rw [AMap.erase_eq_filter]
        exact List.filter_eq_self.mpr (fun c hc => decide_eq_true (by have := hm c hc; simp only [List.length_cons] at this; omega))
      unfold State.putByte State.rekey ByteMap.wr
      dsimp only
      rw [if_pos hs, if_pos (hz b (.head _)), he]
    rw [State.putBytes, hb]
    exact ih (pa + 1) (fun b h => hz b (.tail _ h)) (fun c hc => by have := hm c hc; simp only [List.length_cons] at this; omega)

theorem writeLoc_zeros (s : State) (l : Loc) (d : List Byte) (ha : s.accums = []) (hk : s.unitKey = []) (hp : s.poison = []) (hb : s.bays = [])
    (hw : ∀ pa n, s.wake pa n = s) (hl : l.slot = none) (hz : ∀ b ∈ d, b = 0) (hm : ∀ c ∈ s.mem, c.1 < l.pa ∨ l.pa + d.length ≤ c.1) : s.writeLoc l d = s := by
  unfold State.writeLoc
  dsimp only
  rw [State.closeAccums_none s l.pa _ (by rw [ha]; exact fun _ h => nomatch h)]
  have hd : s.dropLines l.pa d.length = s := by simp [State.dropLines, hb]
  rw [hd, hl, putBytes_zeros s hk d l.pa hz hm]
  have hc : clearPoison s.poison l.pa d.length = s.poison := by rw [hp]; rfl
  rw [hc]
  exact hw _ _

theorem writeParts_zeros (s : State) (w : Issuer) (lo hi : Nat) (hd : s.defer = false) (ha : s.accums = []) (hk : s.unitKey = []) (hp : s.poison = [])
    (hb : s.bays = []) (hw : ∀ pa n, s.wake pa n = s) (hm : ∀ c ∈ s.mem, c.1 < lo ∨ hi ≤ c.1) : ∀ (ls : List (Loc × Nat)) (va : Word) (d : List Byte),
      (∀ e ∈ ls, e.1.slot = none ∧ lo ≤ e.1.pa ∧ e.1.pa + e.2 ≤ hi) → (∀ b ∈ d, b = 0) → s.writeParts w homeBay va ls d = s := by
  intro ls
  induction ls with
  | nil => exact fun _ _ _ _ => rfl
  | cons e t ih =>
    obtain ⟨l, n⟩ := e
    intro va d h hz
    have h0 := h (l, n) (.head _)
    have hl : (d.take n).length ≤ n := by rw [List.length_take]; exact Nat.min_le_left _ _
    have hp1 : s.writePart w homeBay va l (d.take n) = s := by
      have h1 := writeLoc_zeros s l (d.take n) ha hk hp hb hw h0.1 (fun b hb => hz b (List.mem_of_mem_take hb))
        (fun c hc => by have := hm c hc; have := h0.2; dsimp only at this; omega)
      unfold State.writePart
      rw [hd, h1, Bool.false_and, if_neg (by decide)]
      simp [State.cacheLines]
    rw [State.writeParts, hp1]
    exact ih _ _ (fun e he => h e (.tail _ he)) (fun b hb => hz b (List.mem_of_mem_drop hb))

theorem rdN_empty (n : Nat) : ∀ a, ∀ b ∈ ByteMap.rdN [] a n, b = 0 := by
  induction n with
  | zero => exact fun _ _ h => nomatch h
  | succ n ih =>
    intro a b h
    rw [ByteMap.rdN, List.mem_cons] at h
    exact h.elim (fun h => h.trans rfl) (ih _ b)

theorem witness_SpillsAndLoadsWindows_spill : ∃ h t, (slotsBase 0 false).saveHeader 1 = some (slotsBase 0 false, h) ∧ (slotsBase 0 false).spillWindow 0 191 1 = some t := by
  obtain ⟨h, e⟩ := saveHeader_same (slotsBase 0 false) 1 rfl (by decide +kernel)
  obtain ⟨a, ea, eh⟩ := exists_of_any ((slotsBase 0 false).saveHeader 1) (fun a => decide (a.2 = ⟨1, 1, 2, 0x1000, 0x800000, 0x30000, 0x50000⟩)) (by decide +kernel)
  rw [e] at ea
  obtain rfl := Option.some.inj ea
  have eh := of_decide_eq_true eh
  dsimp only at eh
  subst eh
  have hs : (slotsBase 0 false).findSlot 1 0x50000 (fun t => decide (t < 2 ^ 63)) 2 0 = some (some 0) := by decide +kernel
  obtain ⟨ls, hl, hr⟩ := exists_of_any ((slotsBase 0 false).areaParts 1 0x30000 4096 .write)
    (fun ls => ls.all (fun e => decide (e.1.slot = none) && decide (0x40040000 ≤ e.1.pa) && decide (e.1.pa + e.2 ≤ 0x40041000))) (by decide +kernel)
  have hp : ∀ e ∈ ls, e.1.slot = none ∧ 0x40040000 ≤ e.1.pa ∧ e.1.pa + e.2 ≤ 0x40041000 := fun e he => by
    have := List.all_eq_true.mp hr e he
    simp only [Bool.and_eq_true, decide_eq_true_eq] at this
    exact ⟨this.1.1, this.1.2, this.2⟩
  have hz := writeParts_zeros (slotsBase 0 false) (Issuer.of (slotsBase 0 false).firmware 1) 0x40040000 0x40041000 rfl rfl rfl rfl rfl (fun _ _ => rfl)
    (by decide +kernel) ls 0 (((slotsBase 0 false).core 0).readBuf .acc (4096 * 191) 4096) hp (rdN_empty 4096 _)
  obtain ⟨t, ht, -⟩ := exists_of_any ((slotsBase 0 false).savePut 1 0x50000 (leBytes 8 (spillTag 0 191))) (fun _ => true) (by decide +kernel)
  have hm : (slotsBase 0 false).saveMarked 1 0x30000 (((slotsBase 0 false).core 0).readBuf .acc (4096 * 191) 4096) (fun _ => false) = some (slotsBase 0 false) := by
    unfold State.saveMarked
    rw [show (((slotsBase 0 false).core 0).readBuf .acc (4096 * 191) 4096).length = 4096 from ByteMap.rdN_length _ _ _, hl, Option.map_some, hz]
    have hf : ∀ (l : List (Nat × Loc × Nat)) (m : AMap Unit), l.foldl (fun (p : AMap Unit) e => if (fun _ : Nat => false) e.1 then p.put (e.2.1.pa / 8) () else p) m = m := by
      intro l
      induction l with
      | nil => exact fun _ => rfl
      | cons e t ih => exact fun m => ih m
    dsimp only
    rw [hf]
  refine ⟨_, ?_, e, ?_⟩
  · exact t.modBent 1 (fun r => { r with spills := r.spills.put (256 * 0 + 191) 0 })
  · unfold State.spillWindow
    rw [e]
    dsimp only
    rw [hs]
    dsimp only
    have hb : (fun u => ((slotsBase 0 false).core 0).accPoison.has (1024 * 191 + 2 * u) || ((slotsBase 0 false).core 0).accPoison.has (1024 * 191 + 2 * u + 1)) =
        fun _ => false := by funext u; rfl
    rw [hb, hm, Option.bind_some, ht, Option.map_some]

theorem witness_SpillsAndLoadsWindows_load : ∃ h t, (slotsBase (spillTag 0 191) true).saveHeader 1 = some (slotsBase (spillTag 0 191) true, h) ∧
    (slotsBase (spillTag 0 191) true).loadWindow 0 0 191 1 = some t ∧ ∃ i g, (slotsBase (spillTag 0 191) true).taggedSlot 0 191 1 = .slot i g := by
  obtain ⟨h, e⟩ := saveHeader_same (slotsBase (spillTag 0 191) true) 1 rfl (by decide +kernel)
  obtain ⟨t, ht, -⟩ := exists_of_any ((slotsBase (spillTag 0 191) true).loadWindow 0 0 191 1) (fun _ => true) (by decide +kernel)
  refine ⟨h, t, e, ht, ?_⟩
  have h2 : (match (slotsBase (spillTag 0 191) true).taggedSlot 0 191 1 with
    | .none => false
    | .slot _ _ => true) = true := by decide +kernel
  revert h2
  cases (slotsBase (spillTag 0 191) true).taggedSlot 0 191 1 with
  | none => intro h; cases h
  | slot i g => exact fun _ => ⟨i, g, rfl⟩

/-! ## Scheduling -/

/-- `base` with core 0 idle and its peg ready, its record at 0x3000 in a state, with pc 0x5000. -/
def readyBase (state : Nat) : State :=
  withMe (fun k => { k with peg := none }) (withPeg (fun p => { p with st := .ready }) (withBytes 0x3000 (leBytes 8 0x5000 ++ leBytes 4 1 ++ leBytes 4 state) base))

/-- The peg of `readyBase`, as the Zevar keeps it and as its record has it. -/
def readyPeg (a : Word) : Peg := { Peg.fresh a 1 with st := .ready }

theorem witness_DispatchesPegs_dispatches : (readyBase 1).idle 0 = true ∧ (readyBase 1).mgmt.phase = .service ∧
    (readyBase 1).pegs.find? 1 = some (readyPeg 0x3000) ∧ (readyBase 1).viewed (readyPeg 0x3000) = readyPeg 0x3000 ∧
    best (readyBase 1).pegBefore ((readyBase 1).readyPegs.filter (fun e => (readyBase 1).eligible e.1 e.2 0)) = some (1, readyPeg 0x3000) ∧
    (readyBase 1).bents.find? 1 = some programBent ∧ (readyBase 1).recordHeld (readyPeg 0x3000) = false ∧
    (readyBase 1).recordLoc ((readyBase 1).bayOf 0) (readyPeg 0x3000) .both = .ok (loc 0x3000) ∧ (readyBase 1).accums = [] ∧
    (PegRecord.parse ((readyBase 1).bytesAt none (loc 0x3000).pa 64)).refused = false ∧ (PegRecord.parse ((readyBase 1).bytesAt none (loc 0x3000).pa 64)).st < 4 ∧
    (readyPeg 0x3000).psave = false := by decide +kernel

theorem witness_DispatchesPegs_refused : (readyBase 4).idle 0 = true ∧ 4 ≤ (PegRecord.parse ((readyBase 4).bytesAt none (loc 0x3000).pa 64)).st ∧
    (PegRecord.parse ((readyBase 0x41).bytesAt none (loc 0x3000).pa 64)).refused = true := by decide +kernel

theorem witness_DispatchesPegs_unreachable : ∃ s : State, s.idle 0 = true ∧ s.pegs.find? 1 = some (readyPeg 0x40000000) ∧
    s.viewed (readyPeg 0x40000000) = readyPeg 0x40000000 ∧ best s.pegBefore (s.readyPegs.filter (fun e => s.eligible e.1 e.2 0)) = some (1, readyPeg 0x40000000) ∧
    s.recordHeld (readyPeg 0x40000000) = false ∧ s.recordLoc (s.bayOf 0) (readyPeg 0x40000000) .both = .error 0x06 :=
  ⟨withPeg (fun p => { p with recAddr := 0x40000000 }) (readyBase 1), by decide +kernel⟩

/-- A saved peg, ready: its save area at 0x10000, its peg frame, when there is one, at 0x11000, its core frame at 0x13000, both of a stepping. -/
def savedPeg (frame : Option Nat) (core : Option CoreFrame) : Peg :=
  { readyPeg 0x3000 with psave := true, frameNo := frame, coreFrameNo := core.map (fun _ => 0), coreFrame := core }

def resumeBase (frame : Option Nat) (core : Option CoreFrame) (step : Nat) : State :=
  withPeg (fun _ => savedPeg frame core) (withBent (fun r => { r with save := 0x10000 }) (withBytes 0x10000 (leBytes 16 (1 + 2 ^ 32) ++ leBytes 8 0x1000 ++ leBytes 24 0x3000)
    (withBytes 0x11000 (leBytes 8 step) (withBytes 0x13000 (leBytes 8 step) (readyBase 33)))))

/-- What a core frame of an SRF range of 256 bytes holds. -/
def rangeFrame : CoreFrame := ({ Core.reset with allocs := [⟨.srf, 0, 256, 1, 1⟩] } : Core).saveFrame 0 1

/-- The peg is chosen, and its record is one to dispatch. -/
def Resumes (s : State) (p : Peg) : Prop :=
  s.idle 0 = true ∧ s.mgmt.phase = .service ∧ s.pegs.find? 1 = some p ∧ s.viewed p = p ∧
    best s.pegBefore (s.readyPegs.filter (fun e => s.eligible e.1 e.2 0)) = some (1, p) ∧ s.recordHeld p = false ∧
    s.recordLoc (s.bayOf 0) p .both = .ok (loc 0x3000) ∧ (PegRecord.parse (s.readLoc (loc 0x3000) 64).2).refused = false ∧
    (PegRecord.parse (s.readLoc (loc 0x3000) 64).2).st < 4 ∧ p.psave = true

theorem witness_ResumesPegs_none : Resumes (resumeBase none none 0xB1) (savedPeg none none) ∧
    ((resumeBase none none 0xB1).readLoc (loc 0x3000) 64).1.framesOf (savedPeg none none) = none := ⟨by unfold Resumes; decide +kernel, rfl⟩

theorem witness_ResumesPegs_stepping : Resumes (resumeBase (some 0) none 0xA0) (savedPeg (some 0) none) ∧
    ∃ e, ((resumeBase (some 0) none 0xA0).readLoc (loc 0x3000) 64).1.framesOf (savedPeg (some 0) none) = some e ∧ leNat (e.2.1.take 4) ≠ devStep.toNat := by
  refine ⟨by unfold Resumes; decide +kernel, ?_⟩
  obtain ⟨e, h, hp⟩ := exists_of_any (((resumeBase (some 0) none 0xA0).readLoc (loc 0x3000) 64).1.framesOf (savedPeg (some 0) none))
    (fun e => decide (leNat (e.2.1.take 4) ≠ devStep.toNat)) (by decide +kernel)
  exact ⟨e, h, of_decide_eq_true hp⟩

theorem witness_ResumesPegs_peg : Resumes (resumeBase (some 0) none 0xB1) (savedPeg (some 0) none) ∧
    ∃ e, ((resumeBase (some 0) none 0xB1).readLoc (loc 0x3000) 64).1.framesOf (savedPeg (some 0) none) = some e ∧ leNat (e.2.1.take 4) = devStep.toNat ∧
      e.2.2 = devStep.toNat := by
  refine ⟨by unfold Resumes; decide +kernel, ?_⟩
  obtain ⟨e, h, hp⟩ := exists_of_any (((resumeBase (some 0) none 0xB1).readLoc (loc 0x3000) 64).1.framesOf (savedPeg (some 0) none))
    (fun e => decide (leNat (e.2.1.take 4) = devStep.toNat ∧ e.2.2 = devStep.toNat)) (by decide +kernel)
  exact ⟨e, h, of_decide_eq_true hp⟩

theorem witness_ResumesPegs_core : Resumes (resumeBase (some 0) (some rangeFrame) 0xB1) (savedPeg (some 0) (some rangeFrame)) ∧ rangeFrame.spilled = [] ∧
    ∃ e, ((resumeBase (some 0) (some rangeFrame) 0xB1).readLoc (loc 0x3000) 64).1.framesOf (savedPeg (some 0) (some rangeFrame)) = some e ∧
      leNat (e.2.1.take 4) = devStep.toNat ∧ e.2.2 = devStep.toNat := by
  refine ⟨by unfold Resumes; decide +kernel, rfl, ?_⟩
  obtain ⟨e, h, hp⟩ := exists_of_any (((resumeBase (some 0) (some rangeFrame) 0xB1).readLoc (loc 0x3000) 64).1.framesOf (savedPeg (some 0) (some rangeFrame)))
    (fun e => decide (leNat (e.2.1.take 4) = devStep.toNat ∧ e.2.2 = devStep.toNat)) (by decide +kernel)
  exact ⟨e, h, of_decide_eq_true hp⟩

theorem witness_RanksPegs : ∃ (s : State) (a b : Nat × Peg) (x y : Bent), a.2.bent ≠ b.2.bent ∧ s.bents.find? a.2.bent = some x ∧ s.bents.find? b.2.bent = some y ∧
    best (fun a b : Nat × Peg => decide (a.1 < b.1)) [b, a] = some a :=
  ⟨{ base with bents := base.bents.put 2 programBent }, (1, Peg.fresh 0 1), (2, Peg.fresh 0 2), _, _, by decide, rfl, rfl, by decide +kernel⟩

theorem witness_AgesPriorities_rises : ∃ (s : State) (r : Bent), s.bents.find? 1 = some r ∧ r.drain = false ∧ r.parent = none ∧
    (∃ e ∈ s.pegs, e.2.bent = 1 ∧ e.2.st = .ready ∧ e.2.pool = some 0 ∧ e.2.held = false ∧ e.2.readySince = 0) ∧ (∀ e ∈ s.pegs, 0 ≤ e.2.readySince) ∧
    1000 * ((s.bay 0).age.toNat % 2 ^ 16) ≠ 0 ∧ max r.agedAt 0 + 1000 * ((s.bay 0).age.toNat % 2 ^ 16) ≤ s.elapsed :=
  ⟨{ readyBase 1 with elapsed := 100000 }, programBent, rfl, by decide, by decide, by decide +kernel, by decide +kernel, by decide, by decide⟩

theorem witness_AgesPriorities_child : ∃ (s : State) (r b : Bent), s.bents.find? 2 = some r ∧ r.parent = some 1 ∧ s.bents.find? 1 = some b ∧
    s.elapsed < max r.agedAt 0 + 1000 * ((s.bay 0).age.toNat % 2 ^ 16) :=
  ⟨{ base with bents := base.bents.put 2 { programBent with parent := some 1, level := 2 } }, _, _, rfl, by decide, rfl, by decide⟩

/-- One core only; bent 1, of priority 0, has a save area at 0x10000 with one peg frame and one core frame. -/
def savedBase : State :=
  { withBent (fun r => { r with save := 0x10000 }) (withBytes 0x10000 (leBytes 16 (1 + 2 ^ 32) ++ leBytes 8 0x1000 ++ leBytes 24 0x3000) base) with
    mgmt := { base.mgmt with bayCores := [1] } }

/-- Peg 2, of bent 2 and priority 1, is ready. -/
def preemptBase : State :=
  { savedBase with
    pegs := savedBase.pegs.put 2 (Peg.fresh 0x6000 2)
    bents := savedBase.bents.put 2 { programBent with effPrio := 1, prio := 1 }
    elapsed := 100000 }

theorem witness_RequestsPreemption : ∃ p : Peg, preemptBase.pegs.find? 2 = some p ∧ preemptBase.viewed p = p ∧ p.st = .ready ∧ p.pool.isSome = true ∧ p.held = false ∧
    (∀ e ∈ preemptBase.cores, e.2.preemptFor ≠ some 2) ∧
    (∀ c, c < preemptBase.coreCount → preemptBase.idle c = true → preemptBase.eligible 2 p c = false) ∧
    (∃ e ∈ preemptBase.cores, ∃ q, e.2.peg = some q ∧ preemptBase.yields 2 p e.1 q = true) ∧
    ∀ e ∈ preemptBase.cores, ∀ q v, e.2.peg = some q → preemptBase.yields 2 p e.1 q = true → preemptBase.pegs.find? q = some v →
      preemptBase.framesFree e.1 q v = true := by
  refine ⟨Peg.fresh 0x6000 2, by decide, by decide +kernel, by decide, by decide, by decide, by decide, by decide +kernel, ⟨_, .head _, 1, by decide, by decide +kernel⟩, ?_⟩
  intro e he q v hq _ hv
  have hc : preemptBase.cores = [(0, preemptBase.core 0)] := by decide +kernel
  rw [hc] at he
  obtain rfl := List.mem_singleton.mp he
  obtain rfl : 1 = q := Option.some.inj ((show (preemptBase.core 0).peg = some 1 from by decide +kernel).symm.trans hq)
  obtain rfl : { Peg.fresh 0x3000 1 with st := .running } = v := Option.some.inj ((show preemptBase.pegs.find? 1 = some _ from rfl).symm.trans hv)
  decide +kernel

theorem witness_RequestsPreemption_chosen : ∃ e ∈ (withMe (fun k => { k with preempt := some 0, preemptFor := some 2 }) preemptBase).cores, e.2.preemptFor = some 2 :=
  ⟨_, .head _, by decide⟩

/-- A context asked to stop at its next rest point, at clock 100. -/
def restBase (rest : Bool) : State :=
  { withMe (fun k => { k with preempt := some 0 }) (ctxBase [{ someCtx with restNow := rest }]) with clk := 0x10000 }

theorem witness_FreezesContexts_rest : ∃ x : Context, ((restBase true).core 0).ctx? 9 = some x ∧ (restBase true).mustRest 0 x = true ∧ x.frozen = false ∧
    x.ended = false ∧ (restBase true).bents.find? x.bent = some programBent ∧ (restBase true).missingLine 0 x = none ∧
    x.atRest ((restBase true).bundleOf 0 x) = true :=
  ⟨{ someCtx with restNow := true }, by decide +kernel, by decide +kernel, by decide +kernel, by decide +kernel, rfl, by decide +kernel⟩

theorem witness_FreezesContexts_escalated : ∃ x : Context, ((restBase false).core 0).ctx? 9 = some x ∧ (restBase false).mustRest 0 x = true ∧ x.frozen = false ∧
    x.ended = false ∧ (restBase false).restSince 0 x + ((restBase false).core 0).restWin.toNat % 2 ^ 32 ≤ (restBase false).clk :=
  ⟨someCtx, by decide +kernel⟩

theorem witness_FreezesContexts_draining : ∃ (x : Context) (r : Bent), ((withBent (fun r => { r with drain := true }) (restBase true)).core 0).ctx? 9 = some x ∧
    (withBent (fun r => { r with drain := true }) (restBase true)).mustRest 0 x = true ∧
    (withBent (fun r => { r with drain := true }) (restBase true)).bents.find? x.bent = some r ∧ r.drain = true :=
  ⟨{ someCtx with restNow := true }, _, by decide +kernel, by decide +kernel, rfl, by decide⟩

/-- A peg whose core has stopped for a pre-emption. -/
def stoppedBase (alloc : Bool) : State :=
  withMe (fun k => { k with preempt := some 0, halted := true, allocs := if alloc then [⟨.srf, 0, 256, 1, 1⟩] else [] })
    (savedBase.setBay 8 { Bay.reset with tlb := [pageOf] })

theorem witness_CompletesPreemption_saves (alloc : Bool) : ∃ (p : Peg) (r : Bent) (s1 s2 : State) (h : SaveHeader), (stoppedBase alloc).me.peg = some 1 ∧
    (stoppedBase alloc).pegs.find? 1 = some p ∧ (stoppedBase alloc).me.preempt.isSome = true ∧ (stoppedBase alloc).me.halted = true ∧
    (stoppedBase alloc).me.quiet 1 = true ∧ (stoppedBase alloc).bents.find? p.bent = some r ∧ r.drain = false ∧ (stoppedBase alloc).recordHeld p = false ∧
    (stoppedBase alloc).recordLoc (stoppedBase alloc).myBay p .both = .ok (loc 0x3000) ∧ (stoppedBase alloc).saveHeader p.bent = some (s1, h) ∧
    freeFrame (s1.framesUsed p.bent Bent.usedFrames) h.npf = some 0 ∧
    (if s1.me.holdsFor 1 then freeFrame (s1.framesUsed p.bent Bent.usedCoreFrames) h.ncf else some 0) = some 0 ∧
    (s1.savePut p.bent (h.pfo + 4096 * 0) (pegFrameBytes s1.me (if s1.me.holdsFor 1 then some 0 else none))).bind (fun u =>
      if s1.me.holdsFor 1 then u.saveCore p.bent (h.cfo + 0x800000 * 0) (s1.me.saveFrame s1.cur 1) else some u) = some s2 := by
  obtain ⟨a, ha, hp⟩ := exists_of_any ((stoppedBase alloc).saveHeader 1)
    (fun a => decide (freeFrame (a.1.framesUsed 1 Bent.usedFrames) a.2.npf = some 0) &&
      decide ((if a.1.me.holdsFor 1 then freeFrame (a.1.framesUsed 1 Bent.usedCoreFrames) a.2.ncf else some 0) = some 0) &&
      ((a.1.savePut 1 (a.2.pfo + 4096 * 0) (pegFrameBytes a.1.me (if a.1.me.holdsFor 1 then some 0 else none))).bind (fun u =>
        if a.1.me.holdsFor 1 then u.saveCore 1 (a.2.cfo + 0x800000 * 0) (a.1.me.saveFrame a.1.cur 1) else some u)).isSome)
    (by cases alloc <;> decide +kernel)
  simp only [Bool.and_eq_true, decide_eq_true_eq, Option.isSome_iff_exists] at hp
  obtain ⟨⟨h1, h2⟩, s2, h3⟩ := hp
  refine ⟨_, _, a.1, s2, a.2, ?_, rfl, ?_, ?_, ?_, rfl, by decide, ?_, ?_, ha, h1, h2, h3⟩ <;> cases alloc <;> decide +kernel

theorem witness_CompletesPreemption_noFrame : ∃ (s : State) (a : State × SaveHeader), s.saveHeader 1 = some a ∧
    freeFrame (a.1.framesUsed 1 Bent.usedFrames) a.2.npf = none := by
  obtain ⟨a, ha, hp⟩ := exists_of_any ((withBytes 0x10000 [0] (stoppedBase false)).saveHeader 1)
    (fun a => decide (freeFrame (a.1.framesUsed 1 Bent.usedFrames) a.2.npf = none)) (by decide +kernel)
  exact ⟨_, a, ha, of_decide_eq_true hp⟩

/-- A pinned peg that was saved on core 1, where another peg runs, with a core frame of allocations; core 0 is idle. -/
def migratePeg (l : List Alloc) : Peg :=
  { readyPeg 0x3000 with pin := true, psave := true, core := 1, coreFrame := some (({ Core.reset with allocs := l } : Core).saveFrame 1 1) }

def migrateBase (l : List Alloc) : State :=
  let s := readyBase 0x00010031
  { s.setCore 1 { s.core 1 with peg := some 2, accOwn := [(191, ownWord 1 none)] } with
    pegs := AMap.put (s.pegs.put 1 (migratePeg l)) 2 { Peg.fresh 0x6000 1 with st := .running }
    elapsed := 100000 }

/-- Every condition of a migration to core 0. -/
def Migratable (l : List Alloc) : Prop :=
  ∃ f : CoreFrame, (migrateBase l).pegs.find? 1 = some (migratePeg l) ∧ (migrateBase l).viewed (migratePeg l) = migratePeg l ∧ (migratePeg l).coreFrame = some f ∧
    (migratePeg l).pin = true ∧ (migratePeg l).psave = true ∧ 0 ≠ (migratePeg l).core ∧ (migrateBase l).idle 0 = true ∧ (migrateBase l).idle 1 = false ∧
    (migrateBase l).eligible 1 { migratePeg l with core := 0, coreFrame := some { f with fromCore := 0 } } 0 = true ∧ (migrateBase l).baysOf 1 (migratePeg l) = [] ∧
    (migrateBase l).recordHeld (migratePeg l) = false ∧ f.cmds = [] ∧
    (migratePeg l).readySince + (migrateBase l).ageOf ((migratePeg l).pool.getD 0) ≤ (migrateBase l).elapsed ∧
    (migrateBase l).recordLoc ((migrateBase l).bayOf 0) (migratePeg l) .both = .ok (loc 0x3000)

theorem witness_MigratesPegs : Migratable [] ∧ ((migrateBase []).core 1).ownedWindows 1 (({ Core.reset with allocs := [] } : Core).saveFrame 1 1) = [] ∧
    (migrateBase []).spillAll 1 1 [] = some (migrateBase []) ∧ (migrateBase []).accums = [] :=
  ⟨⟨_, rfl, by decide +kernel, rfl, by decide +kernel⟩, by decide +kernel, rfl, rfl⟩

/-- A window under its allocations, and a save area without slots. -/
theorem witness_MigratesPegs_noSlot : Migratable [⟨.acc, 191 * 4096, 4096, 1, 1⟩] ∧
    ((migrateBase [⟨.acc, 191 * 4096, 4096, 1, 1⟩]).core 1).ownedWindows 1 (({ Core.reset with allocs := [⟨.acc, 191 * 4096, 4096, 1, 1⟩] } : Core).saveFrame 1 1) = [191] ∧
    (migrateBase [⟨.acc, 191 * 4096, 4096, 1, 1⟩]).spillAll 1 1 [191] = none :=
  ⟨⟨_, rfl, by decide +kernel, rfl, by decide +kernel⟩, by decide +kernel, Option.isNone_iff_eq_none.mp (by decide +kernel)⟩

/-! ## Sill units -/

/-- A timetable of one entry on channel 0, running; its granule at 0x4000, and 0x4000 and 0x5000 held translated. -/
def sillUnit (e : Word) : Sill :=
  { Sill.reset with
    st := .running, entries := [e], header := List.replicate 256 0, granules := [(0x4000, 0x40004000)]
    locs := [(0, (loc 0x6000, 2 ^ 30)), (0x4000, (loc 0x4000, 2 ^ 30)), (0x5000, (loc 0x5000, 2 ^ 30))], peg := 1, seq := 5 }

def sillBase (u : Sill) : State := { base with sills := [(0, u)] }

theorem sillDue (kind : Nat) (e : Word) (h : e.toNat / 2 ^ 60 = kind) : SillDue (sillBase (sillUnit e)) 0 kind (sillUnit e) e :=
  ⟨rfl, rfl, rfl, Nat.zero_lt_succ 3899, Nat.le_refl 0, rfl, h⟩

theorem witness_SillWaitsAndRefreshes_wait : SillDue (sillBase (sillUnit 0xFFFFFFFF)) 0 0 (sillUnit 0xFFFFFFFF) 0xFFFFFFFF := sillDue _ _ (by decide)

theorem witness_SillWaitsAndRefreshes_ref : SillDue (sillBase (sillUnit 0x5000000000000001)) 0 5 (sillUnit 0x5000000000000001) 0x5000000000000001 ∧
    (sillUnit 0x5000000000000001).pass % 1 = 1 - 1 ∧ SillDue (sillBase (sillUnit 0x5000000000000002)) 0 5 (sillUnit 0x5000000000000002) 0x5000000000000002 ∧
    (sillUnit 0x5000000000000002).pass % 2 ≠ 2 - 1 := ⟨sillDue _ _ (by decide), by decide, sillDue _ _ (by decide), by decide⟩

theorem witness_SillWaitsAndRefreshes_insert : ∃ u : Sill, (sillBase u).sills.find? 0 = some u ∧ u.st = .running ∧ u.doneOwed = false ∧ u.lastRefresh + 3900 ≤ u.tick :=
  ⟨{ sillUnit 0 with tick := 3900 }, rfl, rfl, rfl, by decide⟩

theorem witness_SillMoves : SillDue (sillBase (sillUnit 0x1001000000008098)) 0 1 (sillUnit 0x1001000000008098) 0x1001000000008098 ∧
    (0x1001000000008098 : Word).getLsbD 48 = true ∧ (0x1001000000008098 : Word).getLsbD 49 = false ∧ (0x1001000000008098 : Word).toNat % 2 ^ 8 = 0x98 ∧
    (0x1001000000008098 : Word).toNat / 2 ^ 8 % 2 ^ 8 = 0x80 := ⟨sillDue _ _ (by decide), by decide, by decide, by decide, by decide⟩

theorem witness_SillResultsLand : ∃ u v : Sill, u.add.flight = [(4, 1)] ∧ u.tick = 4 ∧ v.rdFlight = [(24, true, 1)] ∧ v.tick = 23 :=
  ⟨{ Sill.reset with add := { SillUnit.reset with flight := [(4, 1)] }, tick := 4 }, { Sill.reset with rdFlight := [(24, true, 1)], tick := 23 }, rfl, rfl, rfl, rfl⟩

/-- What the unit holds translated can be used now. -/
theorem sillHolds (e va : Word) (off n : Nat) (h1 : (sillUnit e).locs.find? va.toNat = some (loc va.toNat, 2 ^ 30))
    (h2 : (sillBase (sillUnit e)).answer ({ loc va.toNat with pa := (loc va.toNat).pa + off } : Loc).pa n = .here) :
    SillHolds (sillBase (sillUnit e)) (sillUnit e) va.toNat off n { loc va.toNat with pa := (loc va.toNat).pa + off } :=
  ⟨rfl, ⟨_, _, h1, rfl⟩, h2, fun _ h => nomatch h⟩

theorem witness_SillAccesses_rd : SillDue (sillBase (sillUnit 0x200000000000000F)) 0 2 (sillUnit 0x200000000000000F) 0x200000000000000F ∧
    (sillUnit 0x200000000000000F).granules[(sillUnit 0x200000000000000F).pass]? = some (0x4000, 0x40004000) ∧
    SillHolds (sillBase (sillUnit 0x200000000000000F)) (sillUnit 0x200000000000000F) 0x4000 (64 * ((0x200000000000000F : Word).toNat % 4)) 64 (loc 0x40C0) ∧
    (sillBase (sillUnit 0x200000000000000F)).poisoned (loc 0x40C0).pa 64 = false :=
  ⟨sillDue _ _ (by decide), rfl, sillHolds _ 0x4000 192 64 rfl (by decide +kernel), by decide +kernel⟩

theorem witness_SillAccesses_wr : SillDue (sillBase (sillUnit 0x3000000000000004)) 0 3 (sillUnit 0x3000000000000004) 0x3000000000000004 ∧
    SillHolds (sillBase (sillUnit 0x3000000000000004)) (sillUnit 0x3000000000000004) 0x4000 (64 * ((0x3000000000000004 : Word).toNat % 4)) 64 (loc 0x4000) :=
  ⟨sillDue _ _ (by decide), sillHolds _ 0x4000 0 64 rfl (by decide +kernel)⟩

theorem witness_SillAccesses_lds : SillDue (sillBase (sillUnit 0x700000000000000F)) 0 7 (sillUnit 0x700000000000000F) 0x700000000000000F ∧
    headerField (sillUnit 0x700000000000000F) 0x80 8 = 0 ∧ SillHolds (sillBase (sillUnit 0x700000000000000F)) (sillUnit 0x700000000000000F) 0 0 4 (loc 0x6000) ∧
    (sillBase (sillUnit 0x700000000000000F)).lockedOut (loc 0x6000).pa 4 = false ∧ (sillBase (sillUnit 0x700000000000000F)).poisoned (loc 0x6000).pa 4 = false :=
  ⟨sillDue _ _ (by decide), by decide +kernel, ⟨rfl, ⟨loc 0x6000, 2 ^ 30, rfl, rfl⟩, by decide +kernel, fun _ h => nomatch h⟩, by decide +kernel⟩

theorem witness_SillGates_gate : SillDue (sillBase (sillUnit 0x6000000000000003)) 0 6 (sillUnit 0x6000000000000003) 0x6000000000000003 ∧
    SillHolds (sillBase (sillUnit 0x6000000000000003)) (sillUnit 0x6000000000000003) (headerField (sillUnit 0x6000000000000003) 0x58 8) 0 8 (loc 0x6000) ∧
    (sillBase (sillUnit 0x6000000000000003)).lockedOut (loc 0x6000).pa 8 = false ∧ (sillBase (sillUnit 0x6000000000000003)).poisoned (loc 0x6000).pa 8 = false ∧
    headerField (sillUnit 0x6000000000000003) 0x78 8 ≤ leNat ((sillBase (sillUnit 0x6000000000000003)).bytesAt none (loc 0x6000).pa 8) :=
  ⟨sillDue _ _ (by decide), ⟨by decide +kernel, ⟨loc 0x6000, 2 ^ 30, by decide +kernel, rfl⟩, by decide +kernel, fun _ h => nomatch h⟩, by decide +kernel⟩

/-- The gate's FVAL is 1, its flag 0. -/
def shutUnit (st : SillState) : Sill :=
  { sillUnit 0x6000000000000000 with header := List.replicate 0x60 0 ++ [1] ++ List.replicate 0x9F 0, st := st, gto := 1 }

theorem witness_SillGates_holds : SillDue (sillBase (shutUnit .running)) 0 6 (shutUnit .running) 0x6000000000000000 ∧
    leNat ((sillBase (shutUnit .running)).bytesAt none (loc 0x6000).pa 8) < headerField (shutUnit .running) 0x60 8 :=
  ⟨⟨rfl, rfl, rfl, by decide, by decide, rfl, by decide⟩, by decide +kernel⟩

theorem witness_SillGates_reread : (sillBase (shutUnit .holding)).sills.find? 0 = some (shutUnit .holding) ∧ (shutUnit .holding).st = .holding ∧
    (shutUnit .holding).entries[(shutUnit .holding).entry]? = some 0x6000000000000000 ∧
    SillHolds (sillBase (shutUnit .holding)) (shutUnit .holding) (headerField (shutUnit .holding) 0x40 8) 0 8 (loc 0x6000) ∧
    leNat ((sillBase (shutUnit .holding)).bytesAt none (loc 0x6000).pa 8) < headerField (shutUnit .holding) 0x60 8 ∧
    ∃ s : State, s.sills.find? 0 = some (shutUnit .holding) ∧ headerField (shutUnit .holding) 0x60 8 ≤ leNat (s.bytesAt none (loc 0x6000).pa 8) :=
  ⟨rfl, rfl, rfl, ⟨by decide +kernel, ⟨loc 0x6000, 2 ^ 30, by decide +kernel, rfl⟩, by decide +kernel, fun _ h => nomatch h⟩, by decide +kernel,
    withBytes 0x6000 [1] (sillBase (shutUnit .holding)), rfl, by decide +kernel⟩

theorem witness_SillGates_timeout : ∃ (s : State) (p : Peg), s.sills.find? 0 = some (shutUnit .holding) ∧ s.pegs.find? (shutUnit .holding).peg = some p ∧
    (shutUnit .holding).gto ≠ 0 ∧ (shutUnit .holding).holdSince + 1000 * (shutUnit .holding).gto < s.timestamp :=
  ⟨{ sillBase (shutUnit .holding) with timestamp := 1001 }, _, rfl, rfl, by decide, by decide⟩

theorem witness_SillRunsStart : ∃ u : Sill, (sillBase u).sills.find? 0 = some u ∧ u.st = .armed ∧ u.start ≤ (sillBase u).timestamp ∧
    (∀ c ∈ ((sillBase u).core u.core).journal, ¬ (c.seq = u.seq ∧ c.peg = u.peg)) ∧ headerField u 0x18 8 = 0 ∧ u.granules ≠ [] :=
  ⟨{ sillUnit 0 with st := .armed }, rfl, rfl, by decide, (fun c h => by cases h), by decide +kernel, by decide⟩

theorem witness_SillRunsStart_early : ∃ u : Sill, (sillBase u).sills.find? 0 = some u ∧ u.st = .armed ∧ (sillBase u).timestamp < u.start :=
  ⟨{ sillUnit 0 with st := .armed, start := 1 }, rfl, rfl, by decide⟩

/-- The one entry is behind the unit. -/
def endUnit (loop : Byte) (n : Nat) : Sill :=
  { sillUnit 0 with header := List.replicate 6 0 ++ [loop] ++ List.replicate 249 0, entry := 1, granules := List.replicate n (0x4000, 0x40004000) }

theorem witness_SillPassesEnd_next : (sillBase (endUnit 0 2)).sills.find? 0 = some (endUnit 0 2) ∧ (endUnit 0 2).st = .running ∧ (endUnit 0 2).doneOwed = false ∧
    (endUnit 0 2).entries.length ≤ (endUnit 0 2).entry ∧ (endUnit 0 2).start + (endUnit 0 2).tick ≤ (sillBase (endUnit 0 2)).timestamp ∧
    (endUnit 0 2).pass + 1 < (endUnit 0 2).granules.length ∧ (endUnit 0 2).stopReq = false := by
  refine ⟨rfl, rfl, rfl, ?_, ?_, ?_, rfl⟩ <;> decide

theorem witness_SillPassesEnd_ends : (endUnit 0 1).granules.length ≤ (endUnit 0 1).pass + 1 ∧ (endUnit 0 1).stats = none ∧ ¬ headerField (endUnit 0 1) 6 2 % 2 = 1 := by
  refine ⟨?_, rfl, ?_⟩ <;> decide +kernel

theorem witness_SillPassesEnd_loops : (endUnit 1 1).granules.length ≤ (endUnit 1 1).pass + 1 ∧ headerField (endUnit 1 1) 6 2 % 2 = 1 ∧
    (endUnit 1 1).stopReq = false ∧ headerField (endUnit 1 1) 0x18 8 = 0 ∧ (endUnit 1 1).granules ≠ [] := by
  refine ⟨?_, ?_, rfl, ?_, ?_⟩ <;> decide +kernel

theorem witness_SillPassesEnd_done : ∃ u : Sill, (sillBase u).sills.find? 0 = some u ∧ u.st = .running ∧ u.doneOwed = true ∧
    (∀ m ∈ (sillBase u).recordMerges, m.agent = .sill 0 → m.lost = true) ∧ headerField u 0x20 8 = 0 :=
  ⟨{ endUnit 0 1 with doneOwed := true }, rfl, rfl, rfl, (fun _ h => nomatch h), by decide +kernel⟩

/-- A DONE location at 0x4000. -/
def doneUnit : Sill := { endUnit 0 1 with header := List.replicate 33 0 ++ [0x40] ++ List.replicate 222 0, doneOwed := true }

theorem witness_SillPassesEnd_add : doneUnit.doneOwed = true ∧ headerField doneUnit 0x20 8 = 0x4000 ∧
    SillHolds (sillBase doneUnit) doneUnit 0x4000 0 8 (loc 0x4000) ∧ (sillBase doneUnit).lockedOut (loc 0x4000).pa 8 = false ∧
    (sillBase doneUnit).poisoned (loc 0x4000).pa 8 = false :=
  ⟨rfl, by decide +kernel, ⟨rfl, ⟨loc 0x4000, 2 ^ 30, rfl, rfl⟩, by decide +kernel, fun _ h => nomatch h⟩, by decide +kernel⟩

theorem witness_SillWaitsAndRefreshes_holding : ∃ s : State, s.sills.find? 0 = some (shutUnit .holding) ∧ (shutUnit .holding).st = .holding ∧
    (shutUnit .holding).lastRefresh + 3900 ≤ max (shutUnit .holding).tick (s.timestamp - (shutUnit .holding).start) :=
  ⟨{ sillBase (shutUnit .holding) with timestamp := 3900 }, rfl, rfl, by decide⟩

theorem witness_SillRunsStart_empty : ∃ u : Sill, (sillBase u).sills.find? 0 = some u ∧ u.st = .armed ∧ u.start ≤ (sillBase u).timestamp ∧ u.granules = [] :=
  ⟨{ sillUnit 0 with st := .armed, granules := [] }, rfl, rfl, by decide, rfl⟩

/-- A channel of bent 1 whose header names a record at 0x4000 or, past the mapped GiB, at 0x40000000. -/
def recordUnit (far : Bool) (loop : Byte) (st : SillState) (stats : Option Stats) : Sill :=
  { sillUnit 0 with
    header := List.replicate 6 0 ++ [loop] ++ List.replicate 18 0 ++ (if far then [0, 0, 0x40] else [0x40, 0, 0]) ++ List.replicate 228 0
    bent := 1, st := st, entry := if st = .armed then 0 else 1, stats := stats }

theorem exists_bound (s : State) (b : Nat) (ag : Agent) (va : Word)
    (h : (match s.bindRecord homeBay b ag va with
      | .ok _ _ => true
      | _ => false) = true) : ∃ s1 st, s.bindRecord homeBay b ag va = .ok s1 st := by
  revert h
  cases s.bindRecord homeBay b ag va with
  | ok s1 st => exact fun _ => ⟨s1, st, rfl⟩
  | _ => intro h; cases h

theorem witness_SillRunsStart_record : (recordUnit false 0 .armed none).st = .armed ∧ (recordUnit false 0 .armed none).granules ≠ [] ∧
    headerField (recordUnit false 0 .armed none) 0x18 8 = 0x4000 ∧
    ∃ s1 st, (sillBase (recordUnit false 0 .armed none)).bindRecord homeBay 1 (.sill 0) 0x4000 = .ok s1 st :=
  ⟨rfl, by decide +kernel, by decide +kernel, exists_bound _ _ _ _ (by decide +kernel)⟩

theorem witness_SillPassesEnd_stopped : ∃ u : Sill, (sillBase u).sills.find? 0 = some u ∧ u.st = .running ∧ u.doneOwed = false ∧
    u.entries.length ≤ u.entry ∧ u.pass + 1 < u.granules.length ∧ u.stopReq = true :=
  ⟨{ endUnit 0 2 with stopReq := true }, rfl, rfl, rfl, by decide, by decide, rfl⟩

theorem witness_SillPassesEnd_rebinds : (recordUnit false 1 .running none).granules.length ≤ (recordUnit false 1 .running none).pass + 1 ∧
    headerField (recordUnit false 1 .running none) 6 2 % 2 = 1 ∧ headerField (recordUnit false 1 .running none) 0x18 8 = 0x4000 ∧
    (recordUnit false 1 .running none).entries.length ≤ (recordUnit false 1 .running none).entry ∧
    ∃ s1 st, (channelNow (sillBase (recordUnit false 1 .running none)) 0 (recordUnit false 1 .running none)).bindRecord homeBay 1 (.sill 0) 0x4000 = .ok s1 st :=
  ⟨by decide +kernel, by decide +kernel, by decide +kernel, by decide +kernel, exists_bound _ _ _ _ (by decide +kernel)⟩

/-- Statistics of two elements. -/
def twoElements : Stats := { epoch := 0, et := 0, eLo := 0, count := 2, nan := 1, inf := 0, zero := 1, amax := 0x3F800000, bins := List.replicate 24 1 }

theorem witness_SillPassesEnd_merges : (recordUnit false 0 .running (some twoElements)).stats = some twoElements ∧ twoElements.count ≠ 0 ∧
    (recordUnit false 0 .running (some twoElements)).granules.length ≤ (recordUnit false 0 .running (some twoElements)).pass + 1 ∧
    (sillBase (recordUnit false 0 .running (some twoElements))).access homeBay 1 0x4000 128 .both = .ok (loc 0x4000) ∧
    ¬ headerField (recordUnit false 0 .running (some twoElements)) 6 2 % 2 = 1 :=
  ⟨rfl, by decide, by decide +kernel, by decide +kernel, by decide +kernel⟩

theorem witness_SillPassesEnd_unreachable : ∃ p : Peg, headerField (recordUnit true 0 .running (some twoElements)) 0x18 8 = 0x40000000 ∧
    (sillBase (recordUnit true 0 .running (some twoElements))).access homeBay 1 0x40000000 128 .both = .error 0x06 ∧
    (sillBase (recordUnit true 0 .running (some twoElements))).pegs.find? (recordUnit true 0 .running (some twoElements)).peg = some p :=
  ⟨_, by decide +kernel, by decide +kernel, rfl⟩

/-! ## The fabric and collectives -/

/-- `base` with a link to package 1, past it package 2, and a merge waiting at the router. -/
def linkBase (router : List FabricPacket) : State :=
  { base with
    peers := [(1, ⟨4096, true, true, 0, 0, 0⟩)], router := router, mgmt := { base.mgmt with config := { base.mgmt.config with routes := [(2, 1)] } } }

theorem linkBase_up (r : List FabricPacket) : Up (linkBase r) := ⟨by simp [linkBase, base, State.withProgram, State.setCore, State.reset, Module.reset], by simp [linkBase, base, State.withProgram, State.setCore, State.reset, Module.reset]⟩

theorem witness_AnswersPackets : Up (linkBase []) ∧ (1 : Nat) ≠ (linkBase []).mgmt.config.pkg ∧ LinkOpen (linkBase []) 1 ⟨4096, true, true, 0, 0, 0⟩ ∧
    (linkBase []).lockedOut 0x1000 256 = false ∧ (linkBase []).poisoned 0x1000 256 = false ∧ 0x1000 + 256 ≤ (linkBase []).capacity ∧
    (linkBase []).capacity < 0xBFFFFFFFFF + 2 ∧ ∃ s : State, Up s ∧ s.poisoned 8 8 = true :=
  ⟨linkBase_up _, by decide, ⟨by decide, rfl, by decide⟩, by decide +kernel, by decide +kernel, by decide +kernel, by decide +kernel,
    { linkBase [] with poison := [(1, ())] }, linkBase_up [], by decide⟩

/-- A fetch of 256 bytes from a multiple of 256 is one packet, of 2 from 255 past it none. -/
theorem witness_AnswersPackets_boundary : (0x1000 : Nat) % 256 + 256 ≤ 256 ∧ 256 < (0x10FF : Nat) % 256 + 2 ∧ (linkBase []).accums = [] := ⟨by decide, by decide, rfl⟩

theorem witness_AnswersPackets_combined : ∃ s : State, Up s ∧ LinkOpen s 1 ⟨4096, true, true, 0, 0, 0⟩ ∧ LinkOpen s 3 ⟨8192, true, true, 0, 0, 5⟩ ∧ s.hop 3 ≠ s.hop 1 ∧
    s.lockedOut 0x1000 8 = false ∧ s.poisoned 0x1000 8 = false ∧ 0x1000 + 8 ≤ s.capacity ∧ s.accums = [] :=
  ⟨{ linkBase [] with peers := [(1, ⟨4096, true, true, 0, 0, 0⟩), (3, ⟨8192, true, true, 0, 0, 5⟩)] }, linkBase_up [], ⟨by decide, rfl, by decide⟩,
    ⟨by decide, rfl, by decide⟩, by decide, by decide +kernel, by decide +kernel, by decide +kernel, rfl⟩

theorem witness_ForwardsPackets_on : Up (linkBase []) ∧ (2 : Nat) ≠ (linkBase []).mgmt.config.pkg ∧ LinkOpen (linkBase []) 2 ⟨4096, true, true, 0, 0, 0⟩ ∧
    (linkBase []).router = [] ∧ wholePacket ⟨1, [], 2, 7, .load 0x1000 256⟩ = true :=
  ⟨linkBase_up _, by decide, ⟨by decide, rfl, by decide⟩, rfl, by decide⟩

theorem witness_ForwardsPackets_combined : ∃ (s : State) (p r : FabricPacket), s.router = [r] ∧ p.dst ≠ s.mgmt.config.pkg ∧ p.src ≠ s.mgmt.config.pkg ∧
    r.body = .merge .add 0 8 1 false true false ∧ p.body = .merge .add 0 8 2 false true false ∧ r.dst = p.dst ∧ r.slot = p.slot ∧ (0 : Nat) % 256 + 8 ≤ 256 ∧ Up s ∧
    LinkOpen s p.dst ⟨4096, true, true, 0, 0, 0⟩ :=
  ⟨linkBase [⟨1, [], 2, 7, .merge .add 0 8 1 false true false⟩], ⟨1, [], 2, 7, .merge .add 0 8 2 false true false⟩, ⟨1, [], 2, 7, .merge .add 0 8 1 false true false⟩,
    rfl, by decide, by decide, rfl, rfl, rfl, rfl, by decide, linkBase_up _, ⟨by decide, rfl, by decide⟩⟩

theorem witness_LinksAreKeyed : Up (linkBase []) ∧ (254 : Nat) ≠ (linkBase []).mgmt.config.pkg ∧
    (linkBase []).peers.find? 1 = some ⟨4096, true, true, 0, 0, 0⟩ := ⟨linkBase_up _, by decide, by decide⟩

theorem witness_CollMessages : (0 : BitVec 32) ∉ (base.bay 0).aborted ∧ (∃ s : State, (7 : BitVec 32) ∈ (s.bay 0).aborted) ∧ (base.cores.map Prod.fst).Nodup ∧
    ∀ e ∈ base.cores, (e.2.journal.map Cmd.seq).Nodup := by
  refine ⟨by decide, ⟨{ base with bays := [(0, { Bay.reset with aborted := [7] })] }, by decide⟩, by decide, by decide⟩

/-- A collective of four members, running since the start, its patience 1 µs. -/
def collRun (op : CmdOp) : Cmd := { someCmd op with st := .running, ready := true, collTmo := 1, block := List.replicate 4 0 ++ [4] ++ List.replicate 139 0 }

theorem witness_CollTimeouts : ∃ s : State, (s.core 0).entry 5 = some (collRun .coll) ∧ (collRun .coll).ready = true ∧ (collRun .coll).collTmo ≠ 0 ∧
    (collRun .coll).started + 1000 * (collRun .coll).collTmo ≤ s.elapsed ∧ (collRun .coll).op = .coll ∧ (collRun .coll).st ≠ .stopped :=
  ⟨{ cmdBase [collRun .coll] with elapsed := 1000 }, by decide +kernel⟩

theorem witness_CollTimeouts_abort : ∃ s : State, (s.core 0).entry 5 = some (collRun .collAbt) ∧ (collRun .collAbt).started + 1000 * (collRun .collAbt).collTmo ≤ s.elapsed ∧
    (collRun .collAbt).op = .collAbt ∧ (collRun .collAbt).st = .running ∧ (collRun .collAbt).progress < (collRun .collAbt).coll.members.length :=
  ⟨{ cmdBase [collRun .collAbt] with elapsed := 1000 }, by decide +kernel⟩

/-! ## The host's attachment -/

theorem base_up : Up base := linkBase_up_of base rfl
  where linkBase_up_of (s : State) (h : s.mgmt.phase = .service) : Up s := ⟨by rw [h]; decide, by rw [h]; decide⟩

theorem witness_AnswersAddresses : Up base ∧ ([1, 2] : List Byte) ∉ base.mgmt.config.addresses ∧
    ∃ s : State, Up s ∧ ([1, 2] : List Byte) ∈ s.mgmt.config.addresses :=
  ⟨base_up, by decide, { base with mgmt := { base.mgmt with config := { base.mgmt.config with addresses := [[1, 2]] } } }, base_up, by decide⟩

theorem gcmCrypt_length (key : BitVec 256) (nonce : List Byte) (i : Nat) (d : List Byte) : (gcmCrypt key nonce i d).length = d.length := by
  induction d generalizing i with
  | nil => rfl
  | cons b t ih => simp [gcmCrypt, ih]

theorem gcmCrypt_twice (key : BitVec 256) (nonce : List Byte) (i : Nat) (d : List Byte) :
    gcmCrypt key nonce i (gcmCrypt key nonce i d) = d := by
  induction d generalizing i with
  | nil => rfl
  | cons b t ih => simp [gcmCrypt, ih]

/-- What a sender seals, the receiver opens. -/
theorem gcmOpen_sealed (key : BitVec 256) (nonce aad d : List Byte) :
    gcmOpen key nonce aad (gcmCrypt key nonce 0 d) (gcmTagBytes key nonce aad (gcmCrypt key nonce 0 d)) = some d := by
  simp [gcmOpen, gcmCrypt_twice]

theorem gcmTagBytes_length (key : BitVec 256) (nonce aad ct : List Byte) : (gcmTagBytes key nonce aad ct).length = 16 := xorBlock_length _ _

/-- The queue pair 7 of the bent of `base`, next to take packet `psn`, which has answered `sent`. -/
def someQp (psn : Nat) (sent : AMap (List Byte × List Byte)) : QueuePair :=
  { bent := 1, port := some 0, key := 9, psn := psn, packetsIn := 3, packetsOut := 0, msn := 0, writeAt := 0, writeLeft := 0, sent := sent }

/-- `base` with queue pair 7, a staging window of 0x1000 bytes at 0x4000, and the address 1.2.3.4. -/
def qpBase (q : QueuePair) : State :=
  { withBent (fun r => { r with stage := 0x4000, stagen := 0x1000 }) base with
    qps := [(7, q)], mgmt := { base.mgmt with config := { base.mgmt.config with addresses := [[1, 2, 3, 4]] } } }

/-- The header of a packet to queue pair 7. -/
def packetHeader (opcode : Byte) (psn : Nat) (rkey len : BitVec 32) : List Byte :=
  [opcode, 0, 0, 0, 0, 0, 0, 7, 0] ++ beBytes 3 psn ++ beBytes 8 0xFF8 ++ beBytes 4 rkey.toNat ++ beBytes 4 len.toNat

/-- A packet to queue pair 7, sealed by its sender. -/
def somePacket (rc : Bool) (opcode : Byte) (psn : Nat) (rkey len : BitVec 32) (d : List Byte) : RocePacket :=
  let h := packetHeader opcode psn rkey len
  { port := 0, dst := [1, 2, 3, 4], reliableConnected := rc, opcode := opcode, qpn := 7, psn := BitVec.ofNat 24 psn, rkey := rkey, va := 0xFF8, len := len
    payload := gcmCrypt 9 (roceNonce dirIn 7 psn) 0 d, tag := gcmTagBytes 9 (roceNonce dirIn 7 psn) h (gcmCrypt 9 (roceNonce dirIn 7 psn) 0 d), header := h
    ecn := false }

theorem somePacket_opens (q : QueuePair) (rc : Bool) (opcode : Byte) (psn : Nat) (rkey len : BitVec 32) (d : List Byte)
    (hq : q.port = some 0 ∧ q.key = 9 ∧ q.packetsIn = 3 ∧ q.packetsOut = 0) (hd : d.length ≤ 4080) (he : extPsn q.psn psn = some psn) (hp : psn < 2 ^ 24)
    (hh : packetHeaderOk (somePacket rc opcode psn rkey len d) = true) :
    (qpBase q).openRoce (somePacket rc opcode psn rkey len d) = some ({ q with packetsIn := 4 }, psn, d) := by
  obtain ⟨h1, h2, h3, h4⟩ := hq
  have ht : (qpBase q).takesFrame (packetFrame (somePacket rc opcode psn rkey len d)) = true := by
    have hl : (packetFrame (somePacket rc opcode psn rkey len d)).length ≤ maxFrame := by
      have : (packetFrame (somePacket rc opcode psn rkey len d)).length = 14 + 20 + 8 + 28 + d.length + 16 + 8 := by
        simp [packetFrame, somePacket, packetHeader, gcmCrypt_length, gcmTagBytes_length, beBytes]
      rw [this]; unfold maxFrame; omega
    unfold State.takesFrame
    rw [decide_eq_true hl]
    rfl
  have hf : (qpBase q).qps.find? (somePacket rc opcode psn rkey len d).qpn.toNat = some q := rfl
  have hx : (somePacket rc opcode psn rkey len d).psn.toNat = psn := Nat.mod_eq_of_lt hp
  have hport : (qpBase q).portTakes q (somePacket rc opcode psn rkey len d).port = true := by unfold State.portTakes; rw [h1]; rfl
  unfold State.openRoce
  rw [if_neg (by rw [ht, hh]; exact fun h => nomatch h), hf]
  dsimp only
  rw [if_neg (by rw [h3, h4, hport]; decide), hx, he]
  dsimp only
  rw [h2, h3]
  rw [show gcmOpen 9 (roceNonce dirIn (somePacket rc opcode psn rkey len d).qpn psn) (somePacket rc opcode psn rkey len d).header
    (somePacket rc opcode psn rkey len d).payload (somePacket rc opcode psn rkey len d).tag = some d from gcmOpen_sealed _ _ _ _, Option.map_some,
    show (somePacket rc opcode psn rkey len d).port = 0 from rfl, ← h1, ← h2]

/-- Eight bytes for the end of the staging window. -/
def eight : List Byte := [1, 2, 3, 4, 5, 6, 7, 8]

theorem witness_AnswersAddresses_opened : (qpBase (someQp 0 [])).openRoce (somePacket true 0x0A 0 1 8 eight) = some ({ someQp 0 [] with packetsIn := 4 }, 0, eight) :=
  somePacket_opens _ _ _ _ _ _ _ ⟨rfl, rfl, rfl, rfl⟩ (by decide) (by decide) (by decide) (by decide)

theorem witness_RespondsToRequests_write : ∃ b : Bent, (qpBase (someQp 0 [])).bents.find? 1 = some b ∧ (somePacket true 0x0A 0 1 8 eight).ecn = false ∧
    (somePacket true 0x0A 0 1 8 eight).rkey.toNat = 1 ∧ (somePacket true 0x0A 0 1 8 eight).va.toNat + 8 ≤ b.stagen ∧ eight.length = (8 : BitVec 32).toNat ∧
    eight.length ≤ 4080 :=
  ⟨_, rfl, rfl, by decide, by decide, by decide, by decide⟩

theorem witness_RespondsToRequests_outside : (qpBase (someQp 0 [])).openRoce (somePacket true 0x0A 0 2 8 eight) = some ({ someQp 0 [] with packetsIn := 4 }, 0, eight) ∧
    (somePacket true 0x0A 0 2 8 eight).rkey.toNat ≠ 1 :=
  ⟨somePacket_opens _ _ _ _ _ _ _ ⟨rfl, rfl, rfl, rfl⟩ (by decide) (by decide) (by decide) (by decide), by decide⟩

theorem witness_RespondsToRequests_ahead : (qpBase (someQp 0 [])).openRoce (somePacket true 0x0A 1 1 8 eight) = some ({ someQp 0 [] with packetsIn := 4 }, 1, eight) ∧
    (someQp 0 []).psn < 1 :=
  ⟨somePacket_opens _ _ _ _ _ _ _ ⟨rfl, rfl, rfl, rfl⟩ (by decide) (by decide) (by decide) (by decide), by decide⟩

theorem witness_RespondsToRequests_again : (qpBase (someQp 1 [(0, ([0x11], [7]))])).openRoce (somePacket true 0x0A 0 1 8 eight) =
      some ({ someQp 1 [(0, ([0x11], [7]))] with packetsIn := 4 }, 0, eight) ∧
    ({ someQp 1 [(0, ([0x11], [7]))] with packetsIn := 4 } : QueuePair).sent.find? 0 = some ([0x11], [7]) :=
  ⟨somePacket_opens _ _ _ _ _ _ _ ⟨rfl, rfl, rfl, rfl⟩ (by decide) (by decide) (by decide) (by decide), rfl⟩

theorem witness_RespondsToRequests_read : (qpBase (someQp 0 [])).openRoce (somePacket true 0x0C 0 1 8 []) = some ({ someQp 0 [] with packetsIn := 4 }, 0, []) ∧
    (qpBase (someQp 0 [])).openRoce (somePacket true 0x0C 0 1 9 []) = some ({ someQp 0 [] with packetsIn := 4 }, 0, []) ∧ ¬ 0xFF8 + 9 ≤ 0x1000 :=
  ⟨somePacket_opens _ _ _ _ _ _ _ ⟨rfl, rfl, rfl, rfl⟩ (by decide) (by decide) (by decide) (by decide),
    somePacket_opens _ _ _ _ _ _ _ ⟨rfl, rfl, rfl, rfl⟩ (by decide) (by decide) (by decide) (by decide), by decide⟩

theorem witness_RespondsToRequests_meets :
    (match (qpBase { someQp 0 [] with packetsIn := 4 }).gWrite homeBay (Issuer.of (.host 7) 1) (0x4000 + 0xFF8) eight with
      | .ok _ _ => true
      | _ => false) = true ∧
    (match (qpBase { someQp 0 [] with packetsIn := 4 }).gRead homeBay (Issuer.of (.host 7) 1) (0x4000 + 0xFF8) 8 with
      | .ok _ _ => true
      | _ => false) = true := by decide +kernel

theorem witness_RespondsToRequests_invalid : (somePacket false 0x0A 0 1 8 eight).reliableConnected = false ∧ roceSupported 0x0D = false ∧
    (qpBase (someQp 0 [])).openRoce (somePacket true 0x0D 0 1 0 []) = some ({ someQp 0 [] with packetsIn := 4 }, 0, []) ∧
    (qpBase (someQp 0 [])).openRoce (somePacket false 0x0A 0 1 8 eight) = some ({ someQp 0 [] with packetsIn := 4 }, 0, eight) :=
  ⟨rfl, by decide, somePacket_opens _ _ _ _ _ _ _ ⟨rfl, rfl, rfl, rfl⟩ (by decide) (by decide) (by decide) (by decide),
    somePacket_opens _ _ _ _ _ _ _ ⟨rfl, rfl, rfl, rfl⟩ (by decide) (by decide) (by decide) (by decide)⟩

theorem witness_ReceivesTime : Up base ∧ base.ptp.best = none ∧ ∃ s : State, Up s ∧ s.ptp.best = some ([1], 5, 0) ∧ s.ptp.syncAt = some (1, 10) ∧
    s.ptp.origin = some 20 ∧ s.ptp.delaySent = some (1, 10) ∧ s.ptp.locked = false ∧ (0 : Int) < -((((10 : Nat) : Int) - 20 - (((20 : Nat) : Int) - (10 : Nat))) / 2) :=
  ⟨base_up, rfl, { base with ptp := { base.ptp with best := some ([1], 5, 0), syncAt := some (1, 10), origin := some 20, delaySent := some (1, 10) } }, base_up,
    rfl, rfl, rfl, rfl, rfl, by decide⟩

theorem witness_ReceivesTime_locked : ∃ s : State, Up s ∧ s.ptp.best = some ([1], 5, 0) ∧ s.ptp.syncAt = some (1, 10) ∧ s.ptp.origin = some 20 ∧
    s.ptp.delaySent = some (1, 10) ∧ s.ptp.locked = true :=
  ⟨{ base with ptp := { base.ptp with best := some ([1], 5, 0), syncAt := some (1, 10), origin := some 20, delaySent := some (1, 10), locked := true } }, base_up,
    rfl, rfl, rfl, rfl, rfl⟩

/-! ## The control channel -/

/-- A session of owner 0. -/
def someSession : Session := { num := 1, owner := [], seqIn := 0, seqOut := 0, keyIn := 5, keyOut := 6 }

/-- A request of a type as the host seals it, with sequence number 1. -/
def sealedRequest (typ : Nat) (body : List Byte) : List Byte :=
  let h := ctlHeader typ 0 1 1 body.length
  h ++ (gcmCrypt 5 (ctlNonce 1 dirIn) 0 body ++ gcmTagBytes 5 (ctlNonce 1 dirIn) h (gcmCrypt 5 (ctlNonce 1 dirIn) 0 body))

theorem leNat_leBytes (n x : Nat) : leNat (leBytes n x) = x % 2 ^ (8 * n) := by
  induction n generalizing x with
  | zero => simp [leBytes, leNat, Nat.mod_one]
  | succ n ih =>
    simp only [leBytes, leNat, ih, BitVec.toNat_ofNat]
    rw [show 8 * (n + 1) = 8 + 8 * n from by ring, Nat.pow_add, Nat.mod_mul]

theorem ctlHeader_length (a b c d e : Nat) : (ctlHeader a b c d e).length = 32 := by simp [ctlHeader, leBytes_length]

/-- A field of a header in front of other bytes. -/
theorem fieldN_append (h t : List Byte) (off n : Nat) (hl : off + n ≤ h.length) : fieldN (h ++ t) off n = fieldN h off n := by
  unfold fieldN
  rw [List.drop_append_of_le_length (by omega), List.take_append_of_le_length (by simp; omega)]

theorem all_append (h t : List Byte) (off n : Nat) (p : Byte → Bool) (hl : off + n ≤ h.length) :
    (((h ++ t).drop off).take n).all p = ((h.drop off).take n).all p := by
  rw [List.drop_append_of_le_length (by omega), List.take_append_of_le_length (by simp; omega)]

/-- A datagram of a header, a body and a tag splits into them. -/
theorem parse_sealed (h c t : List Byte) (typ n session seq : Nat) (hl : h.length = 32) (h0 : fieldN h 0 1 = typ) (ht : typ ≠ 1) (hs : fieldN h 4 4 = session)
    (hq : fieldN h 8 8 = seq) (hn : fieldN h 0x10 4 = n) (hc : c.length = n) (hT : t.length = 16) (hb : n ≤ 65000)
    (hz : ((h.drop 1).take 3).all (· == 0) = true) (hz2 : ((h.drop 0x14).take 12).all (· == 0) = true) :
    Datagram.parse (h ++ (c ++ t)) = some { typ := typ, session := session, seq := seq, header := h, body := c, tag := t } := by
  unfold Datagram.parse
  simp only [fieldN_append h _ _ _ (show 0 + 1 ≤ h.length by omega), fieldN_append h _ _ _ (show 4 + 4 ≤ h.length by omega),
    fieldN_append h _ _ _ (show 8 + 8 ≤ h.length by omega), fieldN_append h _ _ _ (show 0x10 + 4 ≤ h.length by omega), h0, hs, hq, hn, if_neg ht,
    all_append h _ _ _ _ (show 1 + 3 ≤ h.length by omega), all_append h _ _ _ _ (show 0x14 + 12 ≤ h.length by omega), hz, hz2]
  have hlen : (h ++ (c ++ t)).length = 32 + n + 16 := by simp [hl, hc, hT]; omega
  simp only [hlen]
  rw [if_neg (by simp; omega), List.take_append_of_le_length (by omega), List.take_of_length_le (by omega),
    show List.drop 0x20 (h ++ (c ++ t)) = c ++ t from by rw [← hl]; simp, List.take_append_of_le_length (by omega), List.take_of_length_le (by omega),
    show List.drop (0x20 + n) (h ++ (c ++ t)) = t from by rw [← hc, ← hl, ← List.append_assoc, ← List.length_append]; simp]

/-- `base` with the session open. -/
def ctlBase : State := { base with sessions := [someSession] }

/-- The length in a header. -/
theorem ctlHeader_len (a b c d n : Nat) (h : n < 2 ^ 32) : fieldN (ctlHeader a b c d n) 0x10 4 = n := by
  have e : ctlHeader a b c d n = (leBytes 1 a ++ leBytes 1 b ++ leBytes 2 0 ++ leBytes 4 c ++ leBytes 8 d) ++ (leBytes 4 n ++ leBytes 12 0) := by
    simp [ctlHeader, List.append_assoc]
  unfold fieldN
  rw [e, List.drop_left' (by simp [leBytes_length]), List.take_left' (leBytes_length 4 n), leNat_leBytes]
  omega

theorem ctlHeader_type (a b c d n : Nat) (h : a < 256) : fieldN (ctlHeader a b c d n) 0 1 = a := by
  have e : ctlHeader a b c d n = leBytes 1 a ++ (leBytes 1 b ++ leBytes 2 0 ++ leBytes 4 c ++ leBytes 8 d ++ leBytes 4 n ++ leBytes 12 0) := by
    simp [ctlHeader, List.append_assoc]
  unfold fieldN
  rw [e, List.drop_zero, List.take_left' (leBytes_length 1 a), leNat_leBytes]
  omega

theorem ctlHeader_session (a b c d n : Nat) (h : c < 2 ^ 32) : fieldN (ctlHeader a b c d n) 4 4 = c := by
  have e : ctlHeader a b c d n = (leBytes 1 a ++ leBytes 1 b ++ leBytes 2 0) ++ (leBytes 4 c ++ (leBytes 8 d ++ leBytes 4 n ++ leBytes 12 0)) := by
    simp [ctlHeader, List.append_assoc]
  unfold fieldN
  rw [e, List.drop_left' (by simp [leBytes_length]), List.take_left' (leBytes_length 4 c), leNat_leBytes]
  omega

theorem ctlHeader_seq (a b c d n : Nat) (h : d < 2 ^ 64) : fieldN (ctlHeader a b c d n) 8 8 = d := by
  have e : ctlHeader a b c d n = (leBytes 1 a ++ leBytes 1 b ++ leBytes 2 0 ++ leBytes 4 c) ++ (leBytes 8 d ++ (leBytes 4 n ++ leBytes 12 0)) := by
    simp [ctlHeader, List.append_assoc]
  unfold fieldN
  rw [e, List.drop_left' (by simp [leBytes_length]), List.take_left' (leBytes_length 8 d), leNat_leBytes]
  omega

/-- What the host sealed splits into its parts. -/
theorem sealedRequest_parses (typ : Nat) (body : List Byte) (ht : 1 < typ) (ht2 : typ < 256) (hb : body.length ≤ 65000) :
    Datagram.parse (sealedRequest typ body) = some {
      typ := typ, session := 1, seq := 1, header := ctlHeader typ 0 1 1 body.length, body := gcmCrypt 5 (ctlNonce 1 dirIn) 0 body
      tag := gcmTagBytes 5 (ctlNonce 1 dirIn) (ctlHeader typ 0 1 1 body.length) (gcmCrypt 5 (ctlNonce 1 dirIn) 0 body) } := by
  generalize hn : body.length = n
  have hz : (((ctlHeader typ 0 1 1 n).drop 1).take 3).all (· == 0) = true := rfl
  have hz2 : (((ctlHeader typ 0 1 1 n).drop 0x14).take 12).all (· == 0) = true := rfl
  unfold sealedRequest
  rw [hn]
  exact parse_sealed _ _ _ typ n 1 1 (ctlHeader_length _ _ _ _ _) (ctlHeader_type _ _ _ _ _ ht2) (by omega) (ctlHeader_session _ _ _ _ _ (by decide))
    (ctlHeader_seq _ _ _ _ _ (by decide)) (ctlHeader_len _ _ _ _ _ (by omega))
    ((gcmCrypt_length _ _ _ _).trans hn) (gcmTagBytes_length _ _ _ _) (by omega) hz hz2

/-- A state with the session open and serving accepts what the host sealed. -/
theorem sealedRequest_opens (s : State) (typ : Nat) (body : List Byte) (h1 : s.sessions = [someSession]) (h2 : s.mgmt.phase.answers typ = true) (ht : 1 < typ)
    (ht2 : typ < 256) (hb : body.length ≤ 65000) : s.openDatagram typ (sealedRequest typ body) = some ({ someSession with seqIn := 1 }, body) := by
  have hs : s.session? 1 = some someSession := by unfold State.session?; rw [h1]; rfl
  unfold State.openDatagram
  rw [sealedRequest_parses typ body ht ht2 hb]
  simp only [h2, hs, ne_eq, not_true_eq_false, decide_false, Bool.not_true, Bool.or_self, Bool.false_eq_true, if_false]
  rw [if_neg (by decide)]
  exact congrArg (Option.map _) (gcmOpen_sealed 5 (ctlNonce 1 dirIn) _ body)

theorem witness_ChecksRequests_accepted : ctlBase.openDatagram 0x11 (sealedRequest 0x11 [1, 0, 0, 0]) = some ({ someSession with seqIn := 1 }, [1, 0, 0, 0]) ∧
    (0x11, Instr.killBent (sealedRequest 0x11 [1, 0, 0, 0])) ∈ requestOf (sealedRequest 0x11 [1, 0, 0, 0]) ∧ (0x11, 4) ∈ namesBent :=
  ⟨sealedRequest_opens _ _ _ rfl rfl (by decide) (by decide) (by decide), by simp [requestOf], by simp [namesBent]⟩

theorem witness_ChecksRequests_parsed : ∃ g : Datagram, Datagram.parse (sealedRequest 0x11 [1, 0, 0, 0]) = some g ∧ g.typ = 0x11 ∧ ctlBase.mgmt.phase.answers 0x11 = true ∧
    ctlBase.session? g.session = some someSession ∧ someSession.seqIn < g.seq ∧
    gcmOpen someSession.keyIn (leBytes 8 g.seq ++ [0x01, 0, 0, 0]) g.header g.body g.tag = some [1, 0, 0, 0] :=
  ⟨_, sealedRequest_parses 0x11 [1, 0, 0, 0] (by decide) (by decide) (by decide), rfl, rfl, rfl, by decide, gcmOpen_sealed _ _ _ _⟩

theorem witness_ChecksRequests_dropped : base.openDatagram 0x11 [] = none ∧ ∃ s : State, s.session? 1 = some { someSession with seqIn := 1 } := by
  refine ⟨by decide, { base with sessions := [{ someSession with seqIn := 1 }] }, by decide⟩

theorem witness_ChecksRequests_status : (∀ r, ctlBase.bents.find? (leNat (([9, 0, 0, 0] : List Byte).take 4)) = some r → r.owner ≠ someSession.owner) ∧
    ctlBase.openDatagram 0x11 (sealedRequest 0x11 [9, 0, 0, 0]) = some ({ someSession with seqIn := 1 }, [9, 0, 0, 0]) ∧
    ctlBase.openDatagram 0x11 (sealedRequest 0x11 [9]) = some ({ someSession with seqIn := 1 }, [9]) := by
  refine ⟨fun r h => ?_, sealedRequest_opens _ _ _ rfl rfl (by decide) (by decide) (by decide), sealedRequest_opens _ _ _ rfl rfl (by decide) (by decide) (by decide)⟩
  rw [show ctlBase.bents.find? (leNat (([9, 0, 0, 0] : List Byte).take 4)) = none from by decide] at h
  nomatch h

/-- An INIT in clear: a header and 9073 bytes. -/
def initDatagram : List Byte := ctlHeader 1 0 0 0 9073 ++ List.replicate 9073 0

theorem witness_OpensSessions : ∃ (s : State) (g : Datagram), Datagram.parse initDatagram = some g ∧ g.typ = 1 ∧ g.session = 0 ∧ g.body.length = 9073 ∧
    s.mgmt.phase.answers 1 = true ∧ s.mgmt.config.ownerKeys[leNat ((g.body.drop 1216).take 1)]? = some [3] ∧
    base.mgmt.config.ownerKeys[leNat ((g.body.drop 1216).take 1)]? = none := by
  obtain ⟨g, h, hp⟩ := exists_of_any (Datagram.parse initDatagram) (fun g => decide (g.typ = 1) && decide (g.session = 0) && decide (g.body.length = 9073) &&
    decide (leNat ((g.body.drop 1216).take 1) = 0)) (by decide +kernel)
  simp only [Bool.and_eq_true, decide_eq_true_eq] at hp
  obtain ⟨⟨⟨h1, h2⟩, h3⟩, h4⟩ := hp
  exact ⟨{ base with mgmt := { base.mgmt with config := { base.mgmt.config with ownerKeys := [[3]] } } }, g, h, h1, h2, h3, rfl, by rw [h4]; rfl, by rw [h4]; rfl⟩

/-- A template of key slot 3, a quota of 2 MiB, a base of 2 MiB and one queue pair. -/
def createBody (key : Byte) : List Byte :=
  List.replicate 10 0 ++ [key] ++ List.replicate 5 0 ++ leBytes 8 1 ++ List.replicate 40 0 ++ leBytes 8 256 ++ List.replicate 40 0 ++
    leBytes 32 (0xFF + 2 ^ 64 * 0xFF + 2 ^ 128 * 0xFF + 2 ^ 192 * 0xFF) ++ List.replicate 112 0 ++ leBytes 8 0x200000 ++ leBytes 8 0x200000 ++ leBytes 4 77

theorem witness_CreatesBents_key : ctlBase.openDatagram 0x10 (sealedRequest 0x10 (createBody 0)) = some ({ someSession with seqIn := 1 }, createBody 0) ∧
    (createBody 0).length = 276 ∧ (Bent.ofTemplate ((createBody 0).take 256)).key = 0 :=
  ⟨sealedRequest_opens _ _ _ rfl rfl (by decide) (by decide) (by decide +kernel), by decide +kernel⟩

/-- Two bent numbers, one of them in use. -/
def createBase : State := { ctlBase with mgmt := { ctlBase.mgmt with bentMax := 2 } }

theorem createBase_pickBent : createBase.pickBent = some 2 := by
  have h : createBase.pickBent = freeBent createBase.bents 2 2 ((Config.freeWord 0).toNat % 2) := rfl
  rw [h]
  obtain h | h : (Config.freeWord 0).toNat % 2 = 0 ∨ (Config.freeWord 0).toNat % 2 = 1 := by omega
  all_goals rw [h]; decide

theorem createBase_quotaPlace : ∃ pa, createBase.quotaPlace (tableArea 0x200000 + 0x200000) = some pa := by
  unfold State.quotaPlace
  split
  · exact ⟨_, rfl⟩
  · obtain ⟨a, h, -⟩ := exists_of_any (minNat (List.filter (fun a => createBase.roomAt a (tableArea 0x200000 + 0x200000))
      (0 :: ((createBase.mgmt.bentBase.toNat + 256 * (createBase.mgmt.bentMax + 1) + bigPage - 1) / bigPage * bigPage) ::
        createBase.bents.map (fun e => e.2.quotaAt + e.2.quotaLen)))) (fun _ => true) (by decide +kernel)
    exact ⟨a, h⟩

theorem witness_CreatesBents_creates : ∃ pa, createBase.openDatagram 0x10 (sealedRequest 0x10 (createBody 3)) = some ({ someSession with seqIn := 1 }, createBody 3) ∧
    (Bent.ofTemplate ((createBody 3).take 256)).key = 3 ∧ createBase.keyTaken [] 3 = false ∧ leNat (((createBody 3).drop 256).take 8) = 0x200000 ∧
    leNat (((createBody 3).drop 264).take 8) = 0x200000 ∧ templateReserved ((createBody 3).take 256) true = false ∧
    createBase.badBent { Bent.ofTemplate ((createBody 3).take 256) with owner := [], parent := none, level := 1 } 0 1024 = false ∧
    (∀ q ∈ qpnsOf 1 ((createBody 3).drop 272), q < 2 ^ 24 ∧ createBase.qps.find? q = none) ∧ createBase.qps.length + 1 ≤ 512 ∧ createBase.pickBent = some 2 ∧
    createBase.quotaPlace (tableArea 0x200000 + 0x200000) = some pa := by
  obtain ⟨pa, h⟩ := createBase_quotaPlace
  exact ⟨pa, sealedRequest_opens _ _ _ rfl rfl (by decide) (by decide) (by decide +kernel), by decide +kernel, by decide +kernel, by decide +kernel, by decide +kernel,
    by decide +kernel, by decide +kernel, by decide +kernel, by decide, createBase_pickBent, h⟩

theorem witness_ServesBents_kill : ctlBase.bents.find? (leNat (([1, 0, 0, 0] : List Byte).take 4)) = some programBent ∧ programBent.owner = someSession.owner ∧
    ctlBase.openDatagram 0x11 (sealedRequest 0x11 [1, 0, 0, 0]) = some ({ someSession with seqIn := 1 }, [1, 0, 0, 0]) :=
  ⟨by decide, rfl, sealedRequest_opens _ _ _ rfl rfl (by decide) (by decide) (by decide)⟩

/-- A staging window at 0x4000 that holds a record, ready, and an image. -/
def stageBase : State :=
  { withBent (fun r => { r with stage := 0x4000, stagen := 0x1000 }) (withBytes 0x4000 (leBytes 8 0x5000 ++ leBytes 8 (1 + 2 ^ 32)) ctlBase) with
    mgmt := { ctlBase.mgmt with bayCores := [1] } }

theorem exists_ok (s : State) (need : Need) (va : Word) (n : Nat) (p : State → List Byte → Bool)
    (h : (match s.gReadAs homeBay (Issuer.of s.firmware 1) need va n with
      | .ok u d => p u d
      | _ => false) = true) : ∃ u d, s.gReadAs homeBay (Issuer.of s.firmware 1) need va n = .ok u d ∧ p u d = true := by
  revert h
  cases s.gReadAs homeBay (Issuer.of s.firmware 1) need va n with
  | ok u d => exact fun h => ⟨u, d, rfl, h⟩
  | _ => intro h; cases h

theorem witness_ServesBents_enqueue : stageBase.openDatagram 0x12 (sealedRequest 0x12 (leBytes 12 1)) = some ({ someSession with seqIn := 1 }, leBytes 12 1) ∧
    (leBytes 12 1).length = 12 ∧ ∃ u d v, stageBase.gReadAs homeBay (Issuer.of stageBase.firmware 1) .read 0x4000 64 = .ok u d ∧ u.enqueue 1 u.emptiestBay 0x4000 d = .go v := by
  refine ⟨sealedRequest_opens _ _ _ rfl rfl (by decide) (by decide) (by decide), by decide, ?_⟩
  obtain ⟨u, d, h, hp⟩ := exists_ok stageBase .read 0x4000 64 (fun u d => match u.enqueue 1 u.emptiestBay 0x4000 d with
    | .go _ => true
    | _ => false) (by decide +kernel)
  revert hp
  cases hv : u.enqueue 1 u.emptiestBay 0x4000 d with
  | go v => exact fun _ => ⟨u, d, v, h, hv⟩
  | _ => intro h; cases h

theorem witness_ServesBents_enqueue_refused : ∃ u d n, stageBase.gReadAs homeBay (Issuer.of stageBase.firmware 1) .read 0x4100 64 = .ok u d ∧ u.enqueue 1 u.emptiestBay 0x4100 d = .status n := by
  obtain ⟨u, d, h, hp⟩ := exists_ok stageBase .read 0x4100 64 (fun u d => match u.enqueue 1 u.emptiestBay 0x4100 d with
    | .status _ => true
    | _ => false) (by decide +kernel)
  revert hp
  cases hv : u.enqueue 1 u.emptiestBay 0x4100 d with
  | status v => exact fun _ => ⟨u, d, v, h, hv⟩
  | _ => intro h; cases h

/-- A native image of one bundle word, of a stepping, as R377 lays it out. -/
def someImage (step : Nat) : List Byte := leBytes 4 0x4B494D47 ++ leBytes 4 step ++ leBytes 8 0 ++ leBytes 4 16 ++ leBytes 44 0 ++ leBytes 16 7 ++ leBytes 8 1

def loadBase (step : Nat) : State := withBytes 0x4000 (someImage step) stageBase

/-- A LOAD_IMAGE of bent 1, of 88 bytes at offset 0, with no output area. -/
def loadBody : List Byte := leBytes 12 1 ++ leBytes 8 88 ++ leBytes 16 0

theorem witness_ServesBents_load : (loadBase 0xB1).openDatagram 0x13 (sealedRequest 0x13 loadBody) = some ({ someSession with seqIn := 1 }, loadBody) ∧
    loadBody.length = 36 ∧ ∃ u d h c, (loadBase 0xB1).gReadAs homeBay (Issuer.of (loadBase 0xB1).firmware 1) .exec 0x4000 88 = .ok u d ∧ leNat (d.take 4) ≠ 0x565A4631 ∧
      ImageHeader.parse d = some h ∧ h.steps = true ∧ h.contents d = some c ∧ u.hasContexts 1 = false := by
  refine ⟨sealedRequest_opens _ _ _ rfl rfl (by decide) (by decide) (by decide), by decide, ?_⟩
  obtain ⟨u, d, h, hp⟩ := exists_ok (loadBase 0xB1) .exec 0x4000 88 (fun u d => match ImageHeader.parse d with
    | some h => h.steps && !h.isSealed && !u.hasContexts 1 && decide (leNat (d.take 4) ≠ 0x565A4631)
    | none => false) (by decide +kernel)
  revert hp
  cases hv : ImageHeader.parse d with
  | none => intro h; cases h
  | some i =>
    simp only [Bool.and_eq_true, decide_eq_true_eq, Bool.not_eq_true']
    rintro ⟨⟨⟨h1, h2⟩, h3⟩, h4⟩
    exact ⟨u, d, i, _, h, h4, hv, h1, by unfold ImageHeader.contents; rw [h2]; rfl, h3⟩

theorem witness_ServesBents_stepping : ∃ u d h, (loadBase 0xA2).gReadAs homeBay (Issuer.of (loadBase 0xA2).firmware 1) .exec 0x4000 88 = .ok u d ∧ ImageHeader.parse d = some h ∧ h.steps = false := by
  obtain ⟨u, d, h, hp⟩ := exists_ok (loadBase 0xA2) .exec 0x4000 88 (fun _ d => match ImageHeader.parse d with
    | some h => !h.steps
    | none => false) (by decide +kernel)
  revert hp
  cases hv : ImageHeader.parse d with
  | none => intro h; cases h
  | some i => exact fun hp => ⟨u, d, i, h, hv, by simpa using hp⟩

theorem witness_ServesBents_malformed : ∃ u d, ctlBase.gReadAs homeBay (Issuer.of ctlBase.firmware 1) .exec 0x4000 88 = .ok u d ∧ ImageHeader.parse d = none := by
  obtain ⟨u, d, h, hp⟩ := exists_ok ctlBase .exec 0x4000 88 (fun _ d => decide (ImageHeader.parse d = none)) (by decide +kernel)
  exact ⟨u, d, h, of_decide_eq_true hp⟩

/-- A Vuzen form of one record, a halt, with room for a bundle of 16 bytes; its LOAD_IMAGE with 0x100 bytes of output at offset 0x100. -/
def someForm : List Byte :=
  leBytes 4 0x565A4631 ++ leBytes 4 1 ++ leBytes 4 1 ++ leBytes 8 0 ++ leBytes 4 16 ++ leBytes 40 0 ++ leBytes 4 0x801108 ++ leBytes 24 0 ++ leBytes 4 0xFFFFFFFF

def formBody : List Byte := leBytes 12 1 ++ leBytes 8 96 ++ leBytes 8 0x100 ++ leBytes 8 0x100

def formBase (form : List Byte) : State := withBytes 0x4000 form stageBase

theorem witness_ServesBents_form : (formBase someForm).openDatagram 0x13 (sealedRequest 0x13 formBody) = some ({ someSession with seqIn := 1 }, formBody) ∧
    formBody.length = 36 ∧ ∃ u, (formBase someForm).gReadAs homeBay (Issuer.of (formBase someForm).firmware 1) .exec 0x4000 96 = .ok u someForm ∧
      leNat (someForm.take 4) = 0x565A4631 ∧ u.hasContexts 1 = false := by
  refine ⟨sealedRequest_opens _ _ _ rfl rfl (by decide) (by decide) (by decide), by decide, ?_⟩
  obtain ⟨u, d, h, hp⟩ := exists_ok (formBase someForm) .exec 0x4000 96 (fun u d => decide (d = someForm) && !u.hasContexts 1) (by decide +kernel)
  simp only [Bool.and_eq_true, decide_eq_true_eq, Bool.not_eq_true'] at hp
  obtain ⟨rfl, hp⟩ := hp
  exact ⟨u, h, by decide, hp⟩

/-- The form is one to bundle: which bundles it gives is Config's (log 18). -/
theorem witness_ServesBents_form_bundles (b m : List Byte) (h : Config.bundle someForm = some (b, m)) (hb : b.length = 16) (hm : m.length = startMapLen 16) :
    bundleForm someForm = some (b, m) := by
  unfold bundleForm
  have h1 : (vuzenHeaderBad someForm || (rangeFrom 0 (fieldN someForm 8 4)).any (vuzenRecordBad someForm (fieldN someForm 8 4) (fieldN someForm 0x0C 4))) = false := by
    decide +kernel
  dsimp only
  rw [h1, h]
  simp only [Bool.false_eq_true, if_false, hb, hm]
  rw [if_neg (by decide +kernel)]

theorem witness_ServesBents_form_refused : bundleForm (leBytes 4 0x565A4631 ++ leBytes 92 0) = none := by
  unfold bundleForm
  dsimp only
  rw [if_pos (by decide +kernel)]

theorem witness_InstallsKeys : ∃ (s : State) (r : Bent), s.bents.find? 1 = some r ∧ r.owner = someSession.owner ∧ r.drain = false ∧ r.key = 3 ∧
    s.keyTaken r.owner r.key = false ∧ s.openDatagram 0x14 (sealedRequest 0x14 (leBytes 72 1)) = some ({ someSession with seqIn := 1 }, leBytes 72 1) ∧
    leNat (((leBytes 72 1).drop 4).take 4) = 0 ∧
    s.openDatagram 0x14 (sealedRequest 0x14 (leBytes 44 (1 + 2 ^ 32 + 7 * 2 ^ 64))) = some ({ someSession with seqIn := 1 }, leBytes 44 (1 + 2 ^ 32 + 7 * 2 ^ 64)) ∧
    leNat (((leBytes 44 (1 + 2 ^ 32 + 7 * 2 ^ 64)).drop 4).take 4) = 1 ∧ s.qps.find? 7 = some (someQp 0 []) ∧ (someQp 0 []).bent = 1 :=
  ⟨{ withBent (fun r => { r with key := 3 }) ctlBase with qps := [(7, someQp 0 [])] }, _, rfl, rfl, rfl, rfl, by decide,
    sealedRequest_opens _ _ _ rfl rfl (by decide) (by decide) (by decide), by decide, sealedRequest_opens _ _ _ rfl rfl (by decide) (by decide) (by decide), by decide,
    rfl, rfl⟩

theorem witness_ReportsState : ctlBase.openDatagram 0x15 (sealedRequest 0x15 (leBytes 32 7)) = some ({ someSession with seqIn := 1 }, leBytes 32 7) ∧
    ctlBase.openDatagram 0x16 (sealedRequest 0x16 []) = some ({ someSession with seqIn := 1 }, []) ∧
    ctlBase.openDatagram 0x17 (sealedRequest 0x17 []) = some ({ someSession with seqIn := 1 }, []) ∧ ctlBase.mgmt.dump = none :=
  ⟨sealedRequest_opens _ _ _ rfl rfl (by decide) (by decide) (by decide), sealedRequest_opens _ _ _ rfl rfl (by decide) (by decide) (by decide),
    sealedRequest_opens _ _ _ rfl rfl (by decide) (by decide) (by decide), rfl⟩

theorem witness_ReportsState_dump : ∃ (s : State) (d : Dump), s.mgmt.dump = some d ∧ (∀ e ∈ d.sections, e.owner ≠ some someSession.owner) ∧
    s.openDatagram 0x17 (sealedRequest 0x17 []) = some ({ someSession with seqIn := 1 }, []) :=
  ⟨{ ctlBase with mgmt := { ctlBase.mgmt with dump := some ⟨1, 2, [⟨some [1], 0, 1, [3], []⟩]⟩ } }, _, rfl, by decide,
    sealedRequest_opens _ _ _ rfl rfl (by decide) (by decide) (by decide)⟩

theorem witness_UpdatesTheRecord : ∃ (s : State) (r q : ConfigRecord), s.mgmt.config.floor ≤ r.floor ∧ q.floor < s.mgmt.config.floor ∧
    0 < s.mgmt.config.ownerKeys.length ∧ r = { s.mgmt.config with floor := r.floor } :=
  ⟨{ base with mgmt := { base.mgmt with config := { ConfigRecord.reset with floor := 2, ownerKeys := [[3]] } } },
    { ConfigRecord.reset with floor := 3, ownerKeys := [[3]] }, ConfigRecord.reset, by decide, by decide, by decide, rfl⟩

/-! ## Power, heat and bring-up -/

theorem witness_FollowsPower : Managed base ∧ 3600 * [3601].length < [3601].sum ∧ [3399].sum < 3400 * [3399].length ∧
    (¬ ∃ e ∈ base.bays, e.2.hold = true) ∧ ∃ s : State, Managed s ∧ ∃ e ∈ s.bays, e.2.hold = true :=
  ⟨.inl rfl, by decide, by decide, by decide, { base with bays := [(0, { Bay.reset with hold := true })] }, .inl rfl, _, .head _, rfl⟩

theorem witness_FollowsPower_due : ∃ s t : State, Managed s ∧ s.mgmt.sampledAt = some 0 ∧ 0 + 100000 ≤ s.elapsed ∧ Managed t ∧ t.mgmt.sampledAt = some 0 ∧ t.elapsed < 0 + 100000 :=
  ⟨{ base with elapsed := 100000, mgmt := { base.mgmt with sampledAt := some 0 } }, { base with elapsed := 99999, mgmt := { base.mgmt with sampledAt := some 0 } },
    .inl rfl, rfl, by decide, .inl rfl, rfl, by decide⟩

theorem witness_FollowsPower_fatal : ∃ s : State, s.mgmt.phase = .fatal ∧ s.mgmt.sampledAt = none :=
  ⟨{ base with mgmt := { base.mgmt with phase := .fatal, sampledAt := none } }, rfl, rfl⟩

theorem witness_HoldsForHeat : Managed base ∧ (105 : Int) ≤ 105 ∧ (base.bay 0).hold = false ∧ (99 : Int) < 100 ∧
    ∃ s : State, Managed s ∧ (s.bay 0).hold = true := by
  refine ⟨.inl rfl, by decide, by decide, by decide, { base with bays := [(0, { Bay.reset with hold := true })] }, .inl rfl, by decide⟩

theorem witness_FatalErrors : Managed base ∧ (115 : Int) ≤ 115 := ⟨.inl rfl, by decide⟩

/-- A bring-up with the root secret and 248 cores of each bay. -/
def someBringUp (chans : Nat) : BringUp :=
  { root := Config.rootSecret, firmware := { image := [1], version := 0, build := 0, vendorKey := [2], signature := [3] }, chans := chans
    passed := List.replicate 8 (rangeFrom 0 248), flashListValid := true }

theorem witness_BringsUp : base.mgmt.phase ≠ .off ∧ (∃ s : State, s.mgmt.phase = .off) ∧ sha256 (someBringUp 372).root = sha256 Config.rootSecret ∧
    base.mgmt.config.floor ≤ (someBringUp 372).firmware.version.toNat ∧ 1984 ≤ (List.replicate 8 248).sum ∧ (∀ n ∈ List.replicate 8 248, 240 ≤ n) ∧
    372 ≤ (someBringUp 372).chans ∧ ¬ 372 ≤ (someBringUp 371).chans := by
  refine ⟨by decide, ⟨{ base with mgmt := { base.mgmt with phase := .off } }, rfl⟩, rfl, by decide, by decide, by decide, by decide, by decide⟩

/-- Firmware of a version below the floor is not accepted, whoever signed it. -/
theorem witness_BringsUp_floor : ∃ s : State, ¬ s.mgmt.config.floor ≤ (someBringUp 372).firmware.version.toNat :=
  ⟨{ base with mgmt := { base.mgmt with config := { ConfigRecord.reset with floor := 1 } } }, by decide⟩

/-! ## The pc -/

theorem witness_StepKeepsPcAligned : PcAligned State.reset ∧ ∃ t, step (State.reset.withFetchWord 32 0x08A63803) = .next t :=
  ⟨⟨fun c => by rw [show State.reset.core c = Core.reset from rfl]; decide, fun _ h => nomatch h⟩, _, rfl⟩

end Sys2Proof.Tests
end

