-- ==== Sys2Proof/Tests/Slice0.lean ====
section
/-! SUPPORT. Tests of the model on single words and single steps. Every expected result is written from a rule or a worked example of the
spec, which its docstring names. -/

namespace Sys2Proof.Tests

open Sys2Proof Sys2Proof.Machine

/-! ## Decoding -/

/-- Every word decodes to the instruction beside it. -/
def decodesAll (nbits : Nat) (l : List (Nat × Instr)) : Bool := l.all (fun p => decide (decodeTableWord nbits p.1 = some p.2))

/-- No word decodes. -/
def refusesAll (nbits : Nat) (l : List Nat) : Bool := l.all (fun w => decide (decodeTableWord nbits w = none))

/-- INT: OP 0x01, RR format, FN of R117. -/
theorem test_decode_int : decodesAll 32
    [(0b000001_00001_00010_11111_00000000000, .add 1 2 31),
     (0b000001_01000_00111_00010_00000000001, .sub 8 7 2),
     (0b000001_01111_01100_00101_00000000010, .and 15 12 5),
     (0b000001_10110_10001_01000_00000000011, .or 22 17 8),
     (0b000001_11101_10110_01011_00000000100, .xor 29 22 11),
     (0b000001_00100_11011_01110_00000000101, .sll 4 27 14),
     (0b000001_01011_00000_10001_00000000110, .srl 11 0 17),
     (0b000001_10010_00101_10100_00000000111, .sra 18 5 20),
     (0b000001_11001_01010_10111_00000001000, .slt 25 10 23),
     (0b000001_00000_01111_11010_00000001001, .sltN 0 15 26),
     (0b000001_00111_10100_11101_00000001010, .min 7 20 29),
     (0b000001_01110_11001_00000_00000001011, .max 14 25 0),
     (0b000001_10101_11110_00011_00000001100, .minN 21 30 3),
     (0b000001_11100_00011_00110_00000001101, .maxN 28 3 6),
     (0b000001_00011_01000_01001_00000001110, .ror 3 8 9),
     (0b000001_11111_01111_00000_00000001111, .clz 31 15),
     (0b000001_11111_10000_00000_00000010000, .ctz 31 16),
     (0b000001_11111_10001_00000_00000010001, .popc 31 17),
     (0b000001_01001_10010_11011_00000010010, .addW 9 18 27),
     (0b000001_11110_00001_10000_00000010011, .subW 30 1 16)] = true := by decide

/-- MULDIV: OP 0x02 (R117). -/
theorem test_decode_muldiv : decodesAll 32
    [(0b000010_11111_00001_00011_00000000000, .mul 31 1 3),
     (0b000010_11110_00010_00101_00000000001, .mulh 30 2 5),
     (0b000010_11101_00011_00111_00000000010, .mulhN 29 3 7),
     (0b000010_11100_00100_01001_00000000011, .div 28 4 9),
     (0b000010_11011_00101_01011_00000000100, .divN 27 5 11),
     (0b000010_11010_00110_01101_00000000101, .rem 26 6 13),
     (0b000010_11001_00111_01111_00000000110, .remN 25 7 15)] = true := by decide

/-- RI format (R118). -/
theorem test_decode_immediate : decodesAll 32
    [(0b000011_00001_11110_1000000000000001, .addi 1 30 0x8001),
     (0b000100_00010_11101_1000000100010010, .andi 2 29 0x8112),
     (0b000101_00011_11100_1000001000100011, .ori 3 28 0x8223),
     (0b000110_00100_11011_1000001100110100, .xori 4 27 0x8334),
     (0b000111_00101_11010_1000010001000101, .slti 5 26 0x8445),
     (0b001000_00110_11001_1000010101010110, .sltiN 6 25 0x8556),
     (0b001001_00100_10100_00000000_00_111111, .slli 4 20 63),
     (0b001001_00101_10101_00000000_01_000001, .srli 5 21 1),
     (0b001001_00110_10110_00000000_10_100000, .srai 6 22 32),
     (0b001001_00111_10111_00000000_11_101101, .rori 7 23 45),
     (0b001010_10001_00000_1111111111111110, .lui 17 0xFFFE),
     (0b001011_10010_00000_0111111111111111, .lpc 18 0x7FFF),
     (0b110000_00101_00001_1111111111111100, .jalr 5 1 0xFFFC)] = true := by decide

/-- FP64: OP 0x0C, RM in FN 10:9, operation in FN 3:0 (R119). -/
theorem test_decode_fp64 : decodesAll 32
    [(0b001100_00011_11111_00001_00_00000_0000, .faddF64 3 31 1 0),
     (0b001100_00100_11110_00011_01_00000_0001, .fsubF64 4 30 3 1),
     (0b001100_00101_11101_00101_11_00000_0010, .fmulF64 5 29 5 3),
     (0b001100_00110_11100_00111_00_00000_0011, .fdivF64 6 28 7 0),
     (0b001100_00111_11011_00000_01_00000_0100, .fsqrtF64 7 27 1),
     (0b001100_01000_11010_01011_00_00000_0101, .fminF64 8 26 11),
     (0b001100_01001_11001_01101_00_00000_0110, .fmaxF64 9 25 13),
     (0b001100_01010_11000_01111_01_00000_0111, .fmaF64 10 24 15 1),
     (0b001100_01011_10111_00000_00_00000_1000, .fabsF64 11 23),
     (0b001100_01100_10110_00000_00_00000_1001, .fnegF64 12 22),
     (0b001100_01101_10101_10101_00_00000_1010, .feqF64 13 21 21),
     (0b001100_01110_10100_10111_00_00000_1011, .fltF64 14 20 23),
     (0b001100_01111_10011_11001_00_00000_1100, .fleF64 15 19 25),
     (0b001100_10000_10010_00000_00_00000_1101, .fclassF64 16 18)] = true := by decide

/-- FP32: OP 0x0D, RM in FN 10:9, operation in FN 3:0 (R119). -/
theorem test_decode_fp32 : decodesAll 32
    [(0b001101_00011_11111_00001_00_00000_0000, .faddF32 3 31 1 0),
     (0b001101_00100_11110_00011_01_00000_0001, .fsubF32 4 30 3 1),
     (0b001101_00101_11101_00101_11_00000_0010, .fmulF32 5 29 5 3),
     (0b001101_00110_11100_00111_00_00000_0011, .fdivF32 6 28 7 0),
     (0b001101_00111_11011_00000_01_00000_0100, .fsqrtF32 7 27 1),
     (0b001101_01000_11010_01011_00_00000_0101, .fminF32 8 26 11),
     (0b001101_01001_11001_01101_00_00000_0110, .fmaxF32 9 25 13),
     (0b001101_01010_11000_01111_01_00000_0111, .fmaF32 10 24 15 1),
     (0b001101_01011_10111_00000_00_00000_1000, .fabsF32 11 23),
     (0b001101_01100_10110_00000_00_00000_1001, .fnegF32 12 22),
     (0b001101_01101_10101_10101_00_00000_1010, .feqF32 13 21 21),
     (0b001101_01110_10100_10111_00_00000_1011, .fltF32 14 20 23),
     (0b001101_01111_10011_11001_00_00000_1100, .fleF32 15 19 25),
     (0b001101_10000_10010_00000_00_00000_1101, .fclassF32 16 18)] = true := by decide

/-- FCVT: OP 0x0E (R119). -/
theorem test_decode_fcvt : decodesAll 32
    [(0b001110_00010_00111_00000_01_00000_0000, .cvtF64I64 2 7 1),
     (0b001110_00111_10010_00000_11_00000_0001, .cvtF64N64 7 18 3),
     (0b001110_01100_11101_00000_00_00000_0010, .cvtI64F64 12 29 0),
     (0b001110_10001_01000_00000_01_00000_0011, .cvtN64F64 17 8 1),
     (0b001110_10110_10011_00000_11_00000_0100, .cvtF32I64 22 19 3),
     (0b001110_11011_11110_00000_00_00000_0101, .cvtF32N64 27 30 0),
     (0b001110_00000_01001_00000_01_00000_0110, .cvtI64F32 0 9 1),
     (0b001110_00101_10100_00000_11_00000_0111, .cvtN64F32 5 20 3),
     (0b001110_01010_11111_00000_00_00000_1000, .cvtF64F32 10 31),
     (0b001110_01111_01010_00000_01_00000_1001, .cvtF32F64 15 10 1),
     (0b001110_10100_10101_00000_00_00000_1010, .fmvX 20 21),
     (0b001110_11001_00000_00000_00_00000_1011, .fmvF 25 0)] = true := by decide

/-- MEM format: OPs 0x10 to 0x1A and 0x1C to 0x23 (R116, R120), the last the word 0x4C852402 that the spec works out. -/
theorem test_decode_memory : decodesAll 32
    [(0b010000_00001_11111_0101_00_1000000000, .ldB 1 31 5 0 0x200),
     (0b010001_00010_11110_0110_01_1000000001, .ldH 2 30 6 1 0x201),
     (0b010010_00011_11101_0111_11_1000000010, .ldW 3 29 7 3 0x202),
     (0b010011_00100_11100_1000_00_1000000011, .ldD 4 28 8 0 0x203),
     (0b010100_00101_11011_1001_01_1000000100, .ldBn 5 27 9 1 0x204),
     (0b010101_00110_11010_1010_11_1000000101, .ldHn 6 26 10 3 0x205),
     (0b010110_00111_11001_1011_00_1000000110, .ldWn 7 25 11 0 0x206),
     (0b010111_01000_11000_1100_01_1000000111, .ldFw 8 24 12 1 0x207),
     (0b011000_01001_10111_1101_11_1000001000, .ldFd 9 23 13 3 0x208),
     (0b011001_00010_01001_0000_01_1111111111, .ldA16 1 9 0 1 0x3FF),
     (0b011010_11110_01000_1111_11_0000000001, .ldV16 15 8 15 3 1),
     (0b011100_01001_00000_0010_00_0101010101, .stB 9 0 2 0 0x155),
     (0b011101_01010_00001_0011_10_0101010101, .stH 10 1 3 2 0x155),
     (0b011110_01011_00010_0100_11_0101010101, .stW 11 2 4 3 0x155),
     (0b011111_01100_00011_0101_00_0101010101, .stD 12 3 5 0 0x155),
     (0b100000_01101_00100_0110_10_0101010101, .stFw 13 4 6 2 0x155),
     (0b100001_01110_00101_0111_11_0101010101, .stFd 14 5 7 3 0x155),
     (0b100010_00000_00011_0111_10_0000000010, .stA16 0 3 7 2 2),
     (0b100011_11110_00100_1000_00_1000000001, .stV16 15 4 8 0 0x201),
     (0b010011_00100_00101_0010_01_0000000010, .ldD 4 5 2 1 2)] = true := by decide

/-- AMO and CAS (R121). -/
theorem test_decode_atomic : decodesAll 32
    [(0b100100_00111_01000_01001_1100_0_11_1111, .amoW 7 8 9 0xC 0 3 15),
     (0b100100_00000_01000_01001_0010_1_10_0001, .amoW 0 8 9 2 1 2 1),
     (0b100101_11111_00001_11110_0001_0_01_1000, .amoD 31 1 30 1 0 1 8),
     (0b100110_00001_00010_00011_00000_01_0110, .casW 1 2 3 1 6),
     (0b100111_11110_11101_11100_00000_10_1001, .casD 30 29 28 2 9)] = true := by decide

/-- BR and J formats (R122). -/
theorem test_decode_branch : decodesAll 32
    [(0b101000_00001_11111_1111111111111100, .beq 1 31 0xFFFC),
     (0b101001_00010_11110_1111111111111101, .bne 2 30 0xFFFD),
     (0b101010_00011_11101_1111111111111110, .blt 3 29 0xFFFE),
     (0b101011_00100_11100_1111111111111111, .bge 4 28 0xFFFF),
     (0b101100_00101_11011_0111111111110100, .bltN 5 27 0x7FF4),
     (0b101101_00110_11010_0111111111110101, .bgeN 6 26 0x7FF5),
     (0b101110_10000000000000000000000001, .j 0x2000001),
     (0b101111_01111111111111111111111111, .jal 0x1FFFFFF)] = true := by decide

/-- FENCE (R124), the first the word 0xC5A00004 that the spec works out. -/
theorem test_decode_fence : decodesAll 32
    [(0b110001_011_01_00000_0000000000000100, .fence 3 1 4),
     (0b110001_100_11_00000_1111111111111111, .fence 4 3 0xFFFF),
     (0b110001_000_00_00000_0000000000000001, .fence 0 0 1),
     (0b110001_010_10_00000_1000000000000000, .fence 2 2 0x8000)] = true := by decide

/-- SYS.S and SYS.W: OPs 0x32 and 0x33 (R125). -/
theorem test_decode_state : decodesAll 32
    [(0b110010_01001_00000_000000101010_0000, .gets 9 0x2A),
     (0b110010_00000_01001_000001100001_0001, .puts 9 0x61),
     (0b110011_00011_00100_000000000000_0000, .mwait 3 4),
     (0b110011_00000_00000_011111111111_0001, .phreg 1 1023),
     (0b110011_00000_00000_110000000101_0001, .phreg 3 5),
     (0b110011_00000_00000_001000000000_0010, .phdrop 512),
     (0b110011_00000_00000_001000000001_0011, .phsig 513),
     (0b110011_11111_00000_000000000111_0100, .phwait 31 7),
     (0b110011_00000_10001_000011111110_0101, .semsig 17 254),
     (0b110011_00000_10010_000000000001_0110, .semwait 18 1),
     (0b110011_00000_10011_000000000000_0111, .semwaitS 19 0),
     (0b110011_10100_00000_000001100100_1000, .semrd 20 100)] = true := by decide

/-- SYS.P, SYS.C and SYS.E: OPs 0x34 to 0x36 (R125); the QSCALE word 0xD54B7943 is the spec's own (R168). -/
theorem test_decode_peg : decodesAll 32
    [(0b110100_00001_00010_000000000000_0000, .spawn 1 2),
     (0b110100_00000_00000_000000000000_0001, .join),
     (0b110100_00000_00000_000000000000_0010, .yield),
     (0b110100_00000_00000_000000000000_0011, .exit),
     (0b110100_11110_11111_000000000000_0100, .bentNew 30 31),
     (0b110100_00000_01100_000000000000_0101, .bentKill 12),
     (0b110100_01101_01110_000000000000_0110, .enq 13 14),
     (0b110101_00000_01011_000000001011_0000, .scrbInit 11 0xB),
     (0b110101_01010_01011_000000000000_0001, .scrbNext 10 11),
     (0b110101_01010_01011_000000011111_0010, .scrbRd 10 11 31),
     (0b110101_01010_01011_0111_1_00_1_01_00_0011, .qscaleExact 10 11 7 1 0 1),
     (0b110101_00110_00101_0101_0_11_0_00_00_0011, .qscalePow2 6 5 5 0 3),
     (0b110110_00100_00101_000100011011_0000, .est 4 5 0x11B),
     (0b110110_00110_00111_000000100111_0001, .eld 6 7 0x27)] = true := by decide

/-- SYS.M: OP 0x37 (R125); jdrop x5 is 0xDC050008 (R172). -/
theorem test_decode_system : decodesAll 32
    [(0b110111_00000_00000_101010111100_0000, .trap 0xABC),
     (0b110111_00000_00000_000000000000_0001, .tret),
     (0b110111_00000_00000_000000000010_0010, .ecall 2),
     (0b110111_00000_00110_000000000000_0011, .tlbi 6),
     (0b110111_00000_00000_000000000001_0011, .tlbiAll),
     (0b110111_01000_01001_000000000000_0100, .klock 8 9),
     (0b110111_00000_01010_000000000000_0101, .kunlock 10),
     (0b110111_00000_00000_000000000000_0110, .iflush),
     (0b110111_11111_00000_000000000000_0111, .tstamp 31),
     (0b110111_00000_00101_000000000000_1000, .jdrop 5)] = true := by decide

/-- Long format (R113, R123, R179), word 1 above word 0; the first is the spec's own: 0xFC121480, 0x03002041. -/
theorem test_decode_long : decodesAll 64
    [(0b00000011_000000000010_00000100_0001_111111_000001_00100_00101_0010_000000, .sld .plain false 2 4 5 ⟨3, 2, 4, 1⟩),
     (0b00000011_000000000001_00000100_0001_111111_000001_00010_00011_0001_001010, .sld .transpose true 1 2 3 ⟨3, 1, 4, 1⟩),
     (0b11111111_000000000000_11111111_0000_111111_000001_00001_01111_0000_000100, .sld .gather false 0 1 15 ⟨255, 0, 255, 0⟩),
     (0b00000000_111111111111_11111110_1111_111111_000010_00110_00111_1111_011011, .sst (.exact 2 true) 15 6 7 ⟨0, 4095, 254, 15⟩),
     (0b11111111_000000000000_11111111_0000_111111_000010_00110_00111_0000_000001, .sst (.pow2 false) 0 6 7 ⟨255, 0, 255, 0⟩),
     (0b11111111_000000000000_11111111_0000_111111_000011_01000_01001_0100_000000, .sgth 4 8 9 ⟨255, 0, 255, 0⟩),
     (0b11111111_000000000000_11111111_0000_111111_000100_01010_01011_0101_000001, .ssct true 5 10 11 ⟨255, 0, 255, 0⟩),
     (0b11111111_000000000000_11111111_0000_111111_000101_01100_01101_0110_000000, .sred 6 12 13 ⟨255, 0, 255, 0⟩),
     (0b00000011_000000000010_00000100_0001_111111_000110_01110_00000_0000_000000, .scpy 14 0 ⟨3, 2, 4, 1⟩),
     (0b11111111_000000000000_11111111_0000_111111_000111_11111_00000_0000_001111, .sbank 15 31 ⟨255, 0, 255, 0⟩),
     (0b11111111_000000000000_11111111_0000_111111_001000_11110_11101_0000_000010, .salloc .acc 30 29 ⟨255, 0, 255, 0⟩),
     (0b11111111_000000000000_11111111_0000_111111_001001_11100_11011_0000_000001, .sfree .wb 28 27 ⟨255, 0, 255, 0⟩),
     (0b11111111_000000000000_11111111_0000_111111_001010_00011_00000_0000_000001, .seat true 3 ⟨255, 0, 255, 0⟩),
     (0b11111111_000000000000_11111111_0000_111111_001011_00100_00000_0000_000000, .unseat 4 ⟨255, 0, 255, 0⟩)] = true := by decide

/-- The long format goes on (R179). -/
theorem test_decode_long_engines : decodesAll 64
    [(0b00000011_000000000010_00000100_0001_111111_001100_10001_00000_1001_000000, .krun 9 17 ⟨3, 2, 4, 1⟩),
     (0b00000011_000000000010_00000100_0001_111111_001101_00000_00000_0000_000000, .jigGo ⟨3, 2, 4, 1⟩),
     (0b11111111_000000000000_11111111_0000_111111_001110_00000_00000_0000_000000, .jigRev ⟨255, 0, 255, 0⟩),
     (0b11111111_000000000000_11111111_0000_111111_001111_00001_00010_0000_000000, .finSet 1 2 ⟨255, 0, 255, 0⟩),
     (0b11111111_000000000000_11111111_0000_111111_010000_10100_00000_0011_000000, .coll 3 20 ⟨255, 0, 255, 0⟩),
     (0b11111111_000000000000_11111111_0000_111111_010001_10101_00000_0100_000000, .collAbt 4 21 ⟨255, 0, 255, 0⟩),
     (0b11111111_000000000000_11111111_0000_111111_010010_10110_10111_0101_000000, .sillLoad 5 22 23 ⟨255, 0, 255, 0⟩),
     (0b11111111_000000000000_11111111_0000_111111_010011_11000_11001_0000_000000, .sillGo 24 25 ⟨255, 0, 255, 0⟩),
     (0b11111111_000000000000_11111111_0000_111111_010100_00111_11010_1011_000000, .descLd 11 7 26),
     (0b11111111_000000000000_11111111_0000_111111_010101_10000_10010_0000_000000, .jrnlRd 16 18)] = true := by decide

/-- Reserved and unassigned words are no instructions (R126). -/
theorem test_refused_short : refusesAll 32
    [0b00000000000000000000000000000000,  -- the whole-zero word (R116)
     0b001111_00000000000000000000000000,  -- OP 0x0F is unassigned
     0b111000_00000000000000000000000000,  -- OP 0x38 is unassigned
     0b000001_00001_00010_00011_00000010100,  -- INT with FN 0x014
     0b000010_00001_00010_00011_00000000111,  -- MULDIV with FN 7
     0b000001_00001_00010_00011_00000001111,  -- clz with XB not 0
     0b001001_00001_00010_00000001_00_000000,  -- SHI with IMM 15:8 not 0
     0b001010_00001_00001_0000000000000000,  -- lui with XA not 0
     0b001100_00001_00010_00011_10_00000_0000,  -- fadd with RM 0b10 (R119)
     0b001100_00001_00010_00011_01_00000_0101,  -- fmin with RM 0b01
     0b001101_00001_00010_00011_00_00001_0000,  -- FP32 with FN 8:4 not 0
     0b001110_00001_00010_00000_00_00000_1100,  -- FCVT operation 0xC
     0b010011_00001_00010_0000_10_0000000000,  -- a load that releases (R120)
     0b011111_00001_00010_0000_01_0000000000,  -- a store that acquires
     0b011001_00011_00010_0000_00_0000000000,  -- ld.a16 into an odd register
     0b011010_00000_00010_0000_00_0000000000,  -- ld.v16 into x0
     0b100100_00001_00010_00011_1101_0_00_0000,  -- AOP 0xD (R121)
     0b100101_00001_00010_00011_0010_0_00_0000,  -- amo.d bfadd2
     0b100101_00000_00010_00011_1100_1_00_0000,  -- a merging swap
     0b100101_00001_00010_00011_0000_1_00_0000,  -- a merge with a result
     0b100101_00000_00010_00011_0000_1_01_0000,  -- a merge that acquires
     0b100110_00001_00010_00011_00001_00_0000,  -- cas with FN 6 set
     0b110001_101_00_00000_0000000000000001,  -- fence scope 0b101 (R124)
     0b110001_011_00_00000_0000000000000000,  -- fence over no class
     0b110011_00000_00000_000000000101_0001,  -- phreg mode 0b00 (R125)
     0b110011_00000_00001_000011111111_0101,  -- semaphore 255
     0b110100_00001_00000_000000000000_0001,  -- join with XD
     0b110111_00000_00000_000000000010_0011,  -- tlbi IDX 2
     0b110111_00000_00000_000000000000_1001,  -- SYS.M FN 9
     0b110101_01010_01011_1001_1_00_0_00_00_0011,  -- qscale of bf16 (R168)
     0b110101_01010_01011_0111_1_00_0_01_00_0011,  -- qscale.pow2 with m
     0b110101_01010_01011_0111_1_01_0_00_00_0011  -- qscale with DW and w
    ] = true := by decide

/-- Reserved and unassigned long instructions (R115, R126, R179). -/
theorem test_refused_long : refusesAll 64
    [0b11111111_000000000001_11111111_0000_111111_001101_00000_00000_0000_000000,  -- WSEM 255 with WTHR (R115)
     0b11111111_000000000000_11111111_0001_111111_001101_00000_00000_0000_000000,  -- SSEM 255 with SINC
     0b11111111_000000000000_00000100_0000_111111_001101_00000_00000_0000_000000,  -- SSEM without SINC
     0b00000011_000000000000_11111111_0000_111111_010100_00111_11010_1011_000000,  -- DESC.LD that waits
     0b11111111_000000000000_11111111_0000_111111_010110_00000_00000_0000_000000,  -- CMD 0x16 (R123)
     0b11111111_000000000000_11111111_0000_111111_000001_10000_00000_0000_000000,  -- a d field above 15 (R179)
     0b11111111_000000000000_11111111_0000_111111_000001_00001_00010_0000_000011,  -- SLD FLG 0x3
     0b11111111_000000000000_11111111_0000_111111_000110_00001_00010_0001_000000,  -- SCPY with CLS
     0b11111111_000000000000_11111111_0000_111111_001000_00001_00010_0000_000011,  -- SALLOC of space 3
     0b11111111_000000000000_11111111_0000_111111_000010_00001_00010_0000_000010  -- SST EXACT without Q
    ] = true := by decide

/-- The words that the spec works out (R126's examples, R138, R168, R172, R179). -/
theorem test_decode_spec_words :
    decodesAll 32 [(0x08A63803, .div 5 6 7), (0x4C852402, .ldD 4 5 2 1 2), (0xC5A00004, .fence 3 1 4), (0xD54B7943, .qscaleExact 10 11 7 1 0 1),
      (0xDC050008, .jdrop 5)] = true ∧
    decodesAll 64 [(0x03002041_FC121480, .sld .plain false 2 4 5 ⟨3, 2, 4, 1⟩),
      (0x03001041_FC110C4A, .sld .transpose true 1 2 3 ⟨3, 1, 4, 1⟩)] = true := by decide

/-! ## Well-formedness -/

/-- Every term breaks a value rule. -/
def illFormed (l : List Instr) : Bool := l.all (fun i => !i.wf)

/-- RM = 0b10 (R55, R119). -/
theorem test_wf_rounding : illFormed
    [.faddF64 1 2 3 2, .fsubF64 1 2 3 2, .fmulF64 1 2 3 2, .fdivF64 1 2 3 2, .fmaF64 1 2 3 2, .fsqrtF64 1 2 2,
     .faddF32 1 2 3 2, .fsubF32 1 2 3 2, .fmulF32 1 2 3 2, .fdivF32 1 2 3 2, .fmaF32 1 2 3 2, .fsqrtF32 1 2 2,
     .cvtF64I64 1 2 2, .cvtF64N64 1 2 2, .cvtI64F64 1 2 2, .cvtN64F64 1 2 2, .cvtF32I64 1 2 2, .cvtF32N64 1 2 2, .cvtI64F32 1 2 2,
     .cvtN64F32 1 2 2, .cvtF32F64 1 2 2] = true := by decide

/-- Orders of loads and stores, register pairs (R120), and the rules of AMO (R121). -/
theorem test_wf_memory : illFormed
    [.ldB 1 2 0 2 0, .ldH 1 2 0 2 0, .ldW 1 2 0 2 0, .ldD 1 2 0 2 0, .ldBn 1 2 0 2 0, .ldHn 1 2 0 2 0, .ldWn 1 2 0 2 0, .ldFw 1 2 0 2 0,
     .ldFd 1 2 0 2 0, .ldA16 0 2 0 0 0, .ldA16 1 2 0 2 0, .ldV16 0 2 0 0 0, .ldV16 1 2 0 2 0,
     .stB 1 2 0 1 0, .stH 1 2 0 1 0, .stW 1 2 0 1 0, .stD 1 2 0 1 0, .stFw 1 2 0 1 0, .stFd 1 2 0 1 0, .stA16 1 2 0 1 0, .stV16 1 2 0 1 0,
     .amoW 1 2 3 0xD 0 0 0, .amoD 1 2 3 0x2 0 0 0, .amoW 1 2 3 0 1 0 0, .amoD 0 2 3 0xC 1 0 0, .amoW 0 2 3 0 1 1 0,
     .amoD 0 2 3 0 1 3 0] = true := by decide

/-- FENCE, PHREG, semaphore numbers and QSCALE (R124, R125, R168). -/
theorem test_wf_system : illFormed
    [.fence 5 0 1, .fence 3 0 0, .phreg 0 5, .semsig 1 255, .semwait 1 255, .semwaitS 1 255, .semrd 1 255,
     .qscalePow2 1 2 9 0 0, .qscalePow2 1 2 7 1 1, .qscaleExact 1 2 15 0 0 0, .qscaleExact 1 2 7 1 3 0] = true := by decide

/-- The waits and signals of every command (R115): WTHR without WSEM, SINC without SSEM, SSEM without SINC. -/
theorem test_wf_commands : illFormed
    [.sld .plain false 0 1 2 ⟨255, 1, 255, 0⟩, .sst .none 0 1 2 ⟨255, 0, 255, 1⟩, .sgth 0 1 2 ⟨255, 0, 4, 0⟩, .ssct false 0 1 2 ⟨255, 1, 255, 0⟩,
     .sred 0 1 2 ⟨255, 0, 255, 1⟩, .scpy 1 2 ⟨255, 0, 4, 0⟩, .sbank 1 2 ⟨255, 1, 255, 0⟩, .salloc .srf 1 2 ⟨255, 0, 255, 1⟩,
     .sfree .wb 1 2 ⟨255, 0, 4, 0⟩, .seat false 1 ⟨255, 1, 255, 0⟩, .unseat 1 ⟨255, 0, 255, 1⟩, .krun 0 1 ⟨255, 0, 4, 0⟩,
     .jigGo ⟨255, 1, 255, 0⟩, .jigRev ⟨255, 0, 255, 1⟩, .finSet 1 2 ⟨255, 0, 4, 0⟩, .coll 0 1 ⟨255, 1, 255, 0⟩, .collAbt 0 1 ⟨255, 0, 255, 1⟩,
     .sillLoad 0 1 2 ⟨255, 0, 4, 0⟩, .sillGo 1 2 ⟨255, 1, 255, 0⟩] = true := by decide

/-- A bring-up with trained channels and passing cores. -/
def bringUpOf (chans : Nat) (passed : List (List Nat)) : BringUp :=
  { root := [], firmware := { image := [], version := 0, build := 0, vendorKey := [], signature := [] }, chans := chans, passed := passed
    flashListValid := true }

/-- Events name cores, bays, channels and ports that a module can have (R16 to R18), flags and records of their ranges (R421, R428). -/
theorem test_wf_events : illFormed
    [.bundleIssue 2048 0, .stallStep 2048 0, .imemLineFill 2048 0, .contextLaunch 2048, .contextHalt 2048 0, .srfxFlagSet 2048 0 0,
     .semarmFlagSet 0 0 (2 ^ 32), .pharmFlagSet 2048 0 0, .commandStart 2048 .load, .commandElement 2048 .load, .commandComplete 2048 .load,
     .jigRunStart 2048, .jigStep 2048 .ok, .pegDispatch 2048, .mwaitSpinExpiry 2048, .contextRestFreeze 2048 0, .preemptionEscalated 2048 0,
     .preemptionComplete 2048, .pegMigration 1 2048, .watchdog 2048, .accFirstUse 2048 (.context 0), .collTimeout 2048 0,
     .collAbtMemberTimeout 2048 0, .priorityAgeing 8 1, .pageWalk 8 1 0, .collStepMessage 8 ⟨0, 0, [], false⟩, .lineEviction 8 ⟨0, none⟩, .lineEviction 0 ⟨0, some 2048⟩,
     .thermalHold 8 0, .thermalRelease 8 0, .thermalTrip 8 0, .sillRunStart 384, .sillWait 384, .sillMv 384, .sillRd 384, .sillWr 384,
     .sillRef 384, .sillGate 384, .sillLds 384, .sillPassEnd 384, .sillGateReread 384, .sillGateTimeout 384, .sillRefreshInsert 384,
     .arpRequest 2 [], .neighborDiscovery 2 [], .frameDrop ⟨2, 64, .ptp⟩,
     .powerUp (bringUpOf 384 [[0]]), .resetInput (bringUpOf 384 (List.replicate 8 [256])), .powerUp (bringUpOf 385 (List.replicate 8 [0])),
     .configurationRecordUpdate { ConfigRecord.reset with pkg := 255 } .vendor,
     .configurationRecordUpdate { ConfigRecord.reset with ownerKeys := [[], [], [], [], []] } .vendor] = true := by decide

/-- The terms that the smoke tests break are well-formed otherwise. -/
theorem test_wf_accepts : [Instr.faddF64 1 2 3 3, .ldA16 1 2 0 3 0, .stA16 0 2 0 2 0, .amoW 0 2 3 0x2 1 2 0, .fence 4 3 0xFFFF, .phreg 3 1023,
    .semsig 1 254, .qscaleExact 1 2 7 1 0 3, .qscalePow2 1 2 14 0 3, .jigGo ⟨255, 0, 255, 0⟩, .jigGo ⟨254, 4095, 254, 15⟩, .bundleIssue 2047 0,
    .pageWalk 7 1 0, .sillWait 383, .frameDrop ⟨1, 64, .ptp⟩, .powerUp (bringUpOf 384 (List.replicate 8 [0, 255]))].all Instr.wf = true := by decide

/-! ## Single steps -/

/-- Whether a step goes on to a state with a property. -/
def leads (o : Host.Outcome State Fault Refusal) (p : State → Bool) : Bool :=
  match o with
  | .next s => p s
  | _ => false

/-- A state with x and f registers set. -/
def withRegs (s : State) (xs fs : List (RegNo × Word)) : State :=
  fs.foldl (fun s e => s.putF e.1 e.2) (xs.foldl (fun s e => s.putX e.1 e.2) s)

/-- The step that runs an instruction as the first after reset, with x registers set: the peg of a privileged root bent runs at 0x1000, its
handler is at 0x2000, and its address 0 is physical 1 GiB. -/
def stepX (i : Instr) (xs : List (RegNo × Word)) (p : State → Bool) : Bool :=
  leads (step (withRegs (State.reset.withProgram (bytesOfWords (encode i))) xs [])) p

/-- The same with f registers set. -/
def stepF (i : Instr) (fs : List (RegNo × Word)) (p : State → Bool) : Bool :=
  leads (step (withRegs (State.reset.withProgram (bytesOfWords (encode i))) [] fs)) p

/-- The same with bytes placed at bent address `va`. -/
def stepM (i : Instr) (xs : List (RegNo × Word)) (va : Nat) (bytes : List Byte) (p : State → Bool) : Bool :=
  let s := withRegs (State.reset.withProgram (bytesOfWords (encode i))) xs []
  leads (step { s with mem := ByteMap.wrN s.mem (0x40000000 + va) bytes }) p

/-- Bytes at a bent address, as a number. -/
def memAt (s : State) (va n : Nat) : Nat := leNat (ByteMap.rdN s.mem (0x40000000 + va) n)

/-- In the handler, with a cause (R353, R356): HACT is bit 15. -/
def trapped (code : Nat) (s : State) : Bool :=
  s.pc == 0x2000 && s.me.regs.trapCause == BitVec.ofNat 64 (0x8000 + code) && s.me.regs.trapPc == 0x1000

-- INT and MULDIV: results modulo 2^64, the corners of R137 and R138.
theorem test_add_wraps : stepX (.add 3 1 2) [(1, 0xFFFFFFFFFFFFFFFF), (2, 2)] (fun s => s.getX 3 == 1 && s.pc == 0x1004) = true := by decide
theorem test_add_x0 : stepX (.add 0 1 1) [(1, 7)] (fun s => s.getX 0 == 0 && s.pc == 0x1004) = true := by decide
theorem test_subW_extends : stepX (.subW 3 0 1) [(1, 1)] (fun s => s.getX 3 == 0xFFFFFFFFFFFFFFFF) = true := by decide
theorem test_addW_wraps : stepX (.addW 3 1 1) [(1, 0x40000000)] (fun s => s.getX 3 == 0xFFFFFFFF80000000) = true := by decide
theorem test_sra_masks_count : stepX (.sra 3 1 2) [(1, 0x8000000000000000), (2, 0x44)] (fun s => s.getX 3 == 0xF800000000000000) = true := by
  decide
theorem test_ror : stepX (.ror 3 1 2) [(1, 1), (2, 4)] (fun s => s.getX 3 == 0x1000000000000000) = true := by decide
theorem test_slt_signed : stepX (.slt 3 1 0) [(1, 0xFFFFFFFFFFFFFFFF)] (fun s => s.getX 3 == 1) = true := by decide
theorem test_sltN_unsigned : stepX (.sltN 3 1 0) [(1, 0xFFFFFFFFFFFFFFFF)] (fun s => s.getX 3 == 0) = true := by decide
theorem test_maxN : stepX (.maxN 3 1 2) [(1, 0xFFFFFFFFFFFFFFFF), (2, 5)] (fun s => s.getX 3 == 0xFFFFFFFFFFFFFFFF) = true := by decide
theorem test_clz_zero : stepX (.clz 3 0) [] (fun s => s.getX 3 == 64) = true := by decide
theorem test_ctz : stepX (.ctz 3 1) [(1, 0x50)] (fun s => s.getX 3 == 4) = true := by decide
theorem test_popc : stepX (.popc 3 1) [(1, 0x8000000000000101)] (fun s => s.getX 3 == 3) = true := by decide
theorem test_mulhN : stepX (.mulhN 3 1 1) [(1, 0xFFFFFFFFFFFFFFFF)] (fun s => s.getX 3 == 0xFFFFFFFFFFFFFFFE) = true := by decide
theorem test_mulh : stepX (.mulh 3 1 2) [(1, 0xFFFFFFFFFFFFFFFF), (2, 1)] (fun s => s.getX 3 == 0xFFFFFFFFFFFFFFFF) = true := by decide
theorem test_div_by_zero : stepX (.div 3 1 0) [(1, 5)] (fun s => s.getX 3 == 0xFFFFFFFFFFFFFFFF) = true := by decide
theorem test_div_overflow : stepX (.div 3 1 2) [(1, 0x8000000000000000), (2, 0xFFFFFFFFFFFFFFFF)] (fun s => s.getX 3 == 0x8000000000000000) = true := by
  decide
theorem test_rem_sign : stepX (.rem 3 1 2) [(1, 0xFFFFFFFFFFFFFFF9), (2, 2)] (fun s => s.getX 3 == 0xFFFFFFFFFFFFFFFF) = true := by decide

-- Immediates and transfers: R139, R140.
theorem test_addi_extends : stepX (.addi 3 0 0xFFFF) [] (fun s => s.getX 3 == 0xFFFFFFFFFFFFFFFF) = true := by decide
theorem test_ori_zero_extends : stepX (.ori 3 0 0xFFFF) [] (fun s => s.getX 3 == 0xFFFF) = true := by decide
theorem test_lui : stepX (.lui 3 0x8000) [] (fun s => s.getX 3 == 0xFFFFFFFF80000000) = true := by decide
theorem test_lpc : stepX (.lpc 3 1) [] (fun s => s.getX 3 == 0x11000) = true := by decide
theorem test_bltN_not_taken : stepX (.bltN 1 2 0x10) [(1, 0xFFFFFFFFFFFFFFFF)] (fun s => s.pc == 0x1004) = true := by decide
theorem test_blt_taken_back : stepX (.blt 1 2 0xFFFF) [(1, 0xFFFFFFFFFFFFFFFF)] (fun s => s.pc == 0xFFC) = true := by decide
theorem test_jal_links : stepX (.jal 2) [] (fun s => s.pc == 0x1008 && s.getX 31 == 0x1004) = true := by decide
theorem test_jalr_same_register : stepX (.jalr 1 1 4) [(1, 0x5000)] (fun s => s.pc == 0x5004 && s.getX 1 == 0x1004) = true := by decide
theorem test_jalr_misaligned : stepX (.jalr 1 1 2) [(1, 0x5000)] (fun s => trapped 0x05 s && s.getX 1 == 0x5000) = true := by decide

-- Floating point: R110, R142 to R144.
theorem test_fadd_inexact : stepF (.faddF64 3 1 2 0) [(1, 0x3FF0000000000000), (2, 0x3C30000000000000)]
    (fun s => s.getF 3 == 0x3FF0000000000000 && s.me.regs.fpCsr == 1) = true := by decide +kernel
theorem test_fdiv_by_zero : stepF (.fdivF64 3 1 2 0) [(1, 0xBFF0000000000000)]
    (fun s => s.getF 3 == 0xFFF0000000000000 && s.me.regs.fpCsr == 8) = true := by decide
theorem test_fmin_zeros : stepF (.fminF64 3 1 2) [(1, 0), (2, 0x8000000000000000)]
    (fun s => s.getF 3 == 0x8000000000000000 && s.me.regs.fpCsr == 0) = true := by decide
theorem test_fclass_negative_infinity : stepF (.fclassF64 3 1) [(1, 0xFFF0000000000000)] (fun s => s.getX 3 == 7) = true := by decide
theorem test_fclass_quiet_nan : stepF (.fclassF32 3 1) [(1, 0x7FC00000)] (fun s => s.getX 3 == 8) = true := by decide
theorem test_cvt_nan_to_zero : stepF (.cvtI64F64 3 1 0) [(1, 0x7FF8000000000000)] (fun s => s.getX 3 == 0 && s.me.regs.fpCsr == 16) = true := by
  decide
theorem test_cvt_negative_to_n64 : stepF (.cvtN64F64 3 1 1) [(1, 0xBFE0000000000000)] (fun s => s.getX 3 == 0 && s.me.regs.fpCsr == 1) = true := by
  decide
theorem test_fabs_keeps_signalling : stepF (.fabsF32 3 1) [(1, 0xFFA00000)] (fun s => s.getF 3 == 0x7FA00000 && s.me.regs.fpCsr == 0) = true := by
  decide

-- Loads, stores and atomics: R145, R147, R148; alignment R135.
theorem test_ldB_signed : stepM (.ldB 3 1 0 0 0) [(1, 0x4000)] 0x4000 [0x80] (fun s => s.getX 3 == 0xFFFFFFFFFFFFFF80) = true := by decide
theorem test_ldHn_offset : stepM (.ldHn 3 1 0 0 0x3FF) [(1, 0x4000)] 0x3FFE [0x34, 0xF2] (fun s => s.getX 3 == 0xF234) = true := by decide
theorem test_ldV16_pair : stepM (.ldV16 2 1 0 0 0) [(1, 0x4000)] 0x4000 [1, 0, 0, 0, 0, 0, 0, 0, 2]
    (fun s => s.getX 4 == 1 && s.getX 5 == 2) = true := by decide
theorem test_ldW_misaligned : stepM (.ldW 3 1 0 0 0) [(1, 0x4002)] 0x4000 [1, 1, 1, 1, 1, 1]
    (fun s => trapped 0x05 s && s.me.regs.trapAddr == 0x4002 && s.getX 3 == 0) = true := by decide
theorem test_stH : stepM (.stH 2 1 0 0 1) [(1, 0x4000), (2, 0x12345678)] 0x4000 [9, 9, 9, 9, 9]
    (fun s => memAt s 0x4000 5 == 0x0956780909) = true := by decide
theorem test_amo_min_signed : stepM (.amoW 3 1 2 3 0 0 0) [(1, 0x4000), (2, 0xFFFFFFFF)] 0x4000 [5]
    (fun s => s.getX 3 == 5 && memAt s 0x4000 8 == 0xFFFFFFFF) = true := by decide
theorem test_cas_fails : stepM (.casD 3 1 2 0 0) [(1, 0x4000), (2, 7), (3, 4)] 0x4000 [5]
    (fun s => s.getX 3 == 5 && memAt s 0x4000 8 == 5) = true := by decide
theorem test_access_past_bit_55 : stepX (.stB 2 1 0 0 0) [(1, 0x0100000000000000)]
    (fun s => trapped 0x06 s && s.me.regs.trapAddr == 0x0100000000000000) = true := by decide

-- State registers: R1, R109, R111, R170.
theorem test_gets_step : stepX (.gets 3 0) [] (fun s => s.getX 3 == 0xB1) = true := by decide
theorem test_gets_unassigned : stepX (.gets 3 0x100) [] (trapped 0x01) = true := by decide
theorem test_puts_read_only : stepX (.puts 1 0x040) [(1, 0xFFFF)] (fun s => s.me.regs.trapCause == 0 && s.pc == 0x1004) = true := by decide
theorem test_puts_reserved_scope : stepX (.puts 1 0x023) [(1, 5)] (fun s => s.me.regs.ordScope == 3) = true := by decide

-- Traps and returns: R126, R171, R358.
theorem test_trap : stepX (.trap 0xABC) [] (fun s => trapped 0x1A s && s.me.regs.trapInfo == 0xABC) = true := by decide
theorem test_tret_outside : stepX .tret [] (trapped 0x01) = true := by decide
theorem test_illegal_word : leads (step (State.reset.withFetchWord 32 0)) (trapped 0x01) = true := by decide

-- Semaphores, fences and phasers: R149, R153, R157.
theorem test_semsig_below_zero : stepX (.semsig 1 4) [(1, 0xFFFF)] (fun s => trapped 0x13 s && s.me.sem 4 == 0) = true := by decide
theorem test_semsig : stepX (.semsig 1 4) [(1, 0x17FFF)] (fun s => s.me.sem 4 == 0x7FFF && s.pc == 0x1004) = true := by decide
theorem test_semwait_stalls : stepX (.semwait 1 4) [(1, 1)] (fun s => s.pc == 0x1000) = true := by decide
theorem test_fence_passes : stepX (.fence 4 3 0xFFFF) [] (fun s => s.pc == 0x1004) = true := by decide
theorem test_phsig_no_member : stepX (.phsig 0) [] (trapped 0x14) = true := by decide

-- QSCALE: the worked example of R168, amax = 3.0 and e4m3.
theorem test_qscale_pow2 : stepM (.qscalePow2 10 11 7 0 0) [(11, 0x4000)] 0x4008 [0, 0, 0x40, 0x40] (fun s => s.getX 10 == 0x86) = true := by decide
theorem test_qscale_exact : stepM (.qscaleExact 10 11 7 0 0 1) [(11, 0x4000)] 0x4008 [0, 0, 0x40, 0x40]
    (fun s => s.getX 10 == 0x42955555) = true := by decide

-- Services, engine registers and commands: R173, R177, R180, R208.
theorem test_ecall_unknown : stepX (.ecall 9) [] (fun s => s.getX 10 == 0xFFFFFFFFFFFFFFFF && s.getX 11 == 0) = true := by decide
theorem test_est_width : stepX (.est 2 1 0x14) [(1, 0x100), (2, 0xFFFFFFFFFFFFFFFF)] (fun s => s.me.jigShadow.get 0x14 0 == 0xFFFFF) = true := by decide
theorem test_sld_journalled : stepX (.sld .plain false 2 4 5 ⟨3, 2, 4, 1⟩) []
    (fun s => s.pc == 0x1008 && s.me.jnext == 1 && s.me.journal.length == 1) = true := by decide

end Sys2Proof.Tests
end

section
/-! SUPPORT for O57. The pcs of a machine (the pc and TRAP.PC of each core, the handlers of the bents), and the changes of a state that leave them
alone. -/

namespace Sys2Proof.Machine
open Sys2Proof Sys2Proof.Claims

/-- The pc and the saved pc of a core. -/
def Core.pcs (k : Core) : Word × Word := (k.pc, k.regs.trapPc)

/-- The pcs a machine holds: of each core the pc and TRAP.PC, and the handlers of the bents. -/
structure Pcs where
  core : Nat → Word × Word
  handlers : Set Word

/-- The pcs that a table of cores and a table of bents hold. -/
def Pcs.of (cores : AMap Core) (bents : AMap Bent) : Pcs :=
  { core := fun c => (cores.get c Core.reset).pcs, handlers := {w | ∃ e ∈ bents, e.2.hpc = w} }

/-- The pcs of a machine. -/
def State.pcs (s : State) : Pcs := Pcs.of s.cores s.bents

@[simp] theorem Pcs.of_fields (s : State) : Pcs.of s.cores s.bents = s.pcs := by
  simp only [State.pcs]

@[simp] theorem State.pcs_mk (sched turns cur defer free stamp timestamp elapsed clk cores bays pegs bents mem poison unitKey accums
    pending fences merges recordMerges keys sills peers router sessions nextSession qps outbox ptp mgmt) :
    State.pcs ⟨sched, turns, cur, defer, free, stamp, timestamp, elapsed, clk, cores, bays, pegs, bents, mem, poison, unitKey, accums, pending,
      fences, merges, recordMerges, keys, sills, peers, router, sessions, nextSession, qps, outbox, ptp, mgmt⟩ = Pcs.of cores bents := by
  simp only [State.pcs]

@[simp] theorem Core.pcs_mk (x f d pc regs peg dispatched hactTime hactFrom spin asked fetchAsked preempt preemptFor halted icache dcache
    ageLimit restWin spillMode accOwn sems jnext journal comp srf srfPoison srfFmt wb wbPoison scaleRows scalePoison regions acc accPoison allocs
    finCw finScale jigActive jigShadow jigIdx jigSteps retired refuse ctxs spill frames) :
    Core.pcs ⟨x, f, d, pc, regs, peg, dispatched, hactTime, hactFrom, spin, asked, fetchAsked, preempt, preemptFor, halted, icache, dcache,
    ageLimit, restWin, spillMode, accOwn, sems, jnext, journal, comp, srf, srfPoison, srfFmt, wb, wbPoison, scaleRows, scalePoison,
    regions, acc, accPoison, allocs, finCw, finScale, jigActive, jigShadow, jigIdx, jigSteps, retired, refuse, ctxs, spill, frames⟩ =
      (pc, regs.trapPc) := by
  simp only [Core.pcs]

@[simp] theorem Core.pcs_eta (k : Core) : (k.pc, k.regs.trapPc) = k.pcs := by
  simp only [Core.pcs]

@[simp] theorem State.core_pcs (s : State) (c : Nat) : (s.core c).pcs = s.pcs.core c := by
  simp only [State.core, State.pcs, Pcs.of]

@[simp] theorem State.get_pcs (s : State) (c : Nat) : (s.cores.get c Core.reset).pcs = s.pcs.core c := by
  simp only [State.pcs, Pcs.of]

@[simp] theorem State.me_pcs (s : State) : s.me.pcs = s.pcs.core s.cur := by
  simp only [State.me, State.core_pcs]

@[simp] theorem Pcs.of_put {cores : AMap Core} {c : Nat} {k : Core} (b : AMap Bent) (h : k.pcs = (cores.get c Core.reset).pcs) :
    Pcs.of (cores.put c k) b = Pcs.of cores b := by
  unfold Pcs.of
  congr 1
  funext j
  by_cases hj : j = c
  · subst hj; simpa using h
  · simp [hj]

/-- A change of every core that leaves pcs alone. -/
theorem Pcs.of_mapCores {cores : AMap Core} {g : Nat × Core → Nat × Core} (b : AMap Bent)
    (h : ∀ e, (g e).1 = e.1 ∧ (g e).2.pcs = e.2.pcs) : Pcs.of (cores.map g) b = Pcs.of cores b := by
  unfold Pcs.of
  congr 1
  funext j
  induction cores with
  | nil => rfl
  | cons e t ih =>
    obtain ⟨k, v⟩ := e
    have hk := h (k, v)
    simp only [AMap.get, List.map_cons] at ih ⊢
    rw [show g (k, v) = (k, (g (k, v)).2) from Prod.ext hk.1 rfl, AMap.find?_cons, AMap.find?_cons]
    split
    · exact hk.2
    · exact ih

theorem AMap.find?_mem {α : Type} {m : AMap α} {n : Nat} {v : α} (h : m.find? n = some v) : (n, v) ∈ m := by
  induction m with
  | nil => cases h
  | cons a t ih =>
    obtain ⟨k, x⟩ := a
    rw [AMap.find?_cons] at h
    split at h
    · next e => cases h; exact e ▸ List.mem_cons_self
    · exact List.mem_cons_of_mem _ (ih h)

theorem AMap.mem_put_same {α : Type} (m : AMap α) (n : Nat) (x : α) : (n, x) ∈ m.put n x := AMap.find?_mem (by simp)

/-- A put leaves the entries of other keys, and of its own key those that a read does not find. -/
theorem AMap.mem_put_of_mem {α : Type} {m : AMap α} {n : Nat} {v : α} (x : α) {e : Nat × α} (h : e ∈ m) (hv : m.find? n = some v) :
    e = (n, v) ∨ e ∈ m.put n x := by
  induction m with
  | nil => cases h
  | cons a t ih =>
    obtain ⟨k, y⟩ := a
    rw [AMap.find?_cons] at hv
    simp only [AMap.put]
    split
    · exact .inr (List.mem_cons_of_mem _ h)
    · split
      · next hk =>
        rw [if_pos hk] at hv
        cases hv
        rcases List.mem_cons.mp h with h | h
        · exact .inl (hk ▸ h)
        · exact .inr (List.mem_cons_of_mem _ h)
      · next hk =>
        rw [if_neg hk] at hv
        rcases List.mem_cons.mp h with h | h
        · exact .inr (h ▸ List.mem_cons_self)
        · exact (ih h hv).imp_right (List.mem_cons_of_mem _)

/-- A change of a bent that leaves its handler alone. -/
@[simp] theorem Pcs.of_modify {cores : AMap Core} {bents : AMap Bent} {b : Nat} {f : Bent → Bent} (h : ∀ r, (f r).hpc = r.hpc) :
    Pcs.of cores (bents.modify b f) = Pcs.of cores bents := by
  unfold AMap.modify
  split
  · next v hv =>
    unfold Pcs.of
    congr 1
    ext w
    constructor
    · rintro ⟨e, he, rfl⟩
      rcases AMap.mem_put he with rfl | he
      · exact ⟨_, AMap.find?_mem hv, (h v).symm⟩
      · exact ⟨e, he, rfl⟩
    · rintro ⟨e, he, rfl⟩
      rcases AMap.mem_put_of_mem (f v) he hv with rfl | he
      · exact ⟨_, AMap.mem_put_same bents b (f v), h v⟩
      · exact ⟨e, he, rfl⟩
  · rfl

theorem Pcs.of_mapBents {cores : AMap Core} {bents : AMap Bent} {g : Nat × Bent → Nat × Bent} (h : ∀ e, (g e).2.hpc = e.2.hpc) :
    Pcs.of cores (bents.map g) = Pcs.of cores bents := by
  unfold Pcs.of
  congr 1
  ext w
  constructor
  · rintro ⟨e, he, rfl⟩
    obtain ⟨a, ha, rfl⟩ := List.mem_map.mp he
    exact ⟨a, ha, (h a).symm⟩
  · rintro ⟨e, he, rfl⟩
    exact ⟨g e, List.mem_map_of_mem he, h e⟩

@[simp] theorem State.pcs_setCore {s : State} {c : Nat} {k : Core} (h : k.pcs = s.pcs.core c) : (s.setCore c k).pcs = s.pcs :=
  Pcs.of_put _ h

@[simp] theorem State.pcs_setMe {s : State} {k : Core} (h : k.pcs = s.pcs.core s.cur) : (s.setMe k).pcs = s.pcs :=
  Pcs.of_put _ h

@[simp] theorem State.pcs_modBent {s : State} {b : Nat} {f : Bent → Bent} (h : ∀ r, (f r).hpc = r.hpc) : (s.modBent b f).pcs = s.pcs :=
  Pcs.of_modify h

/-- A change of every core of a machine that leaves pcs alone. -/
theorem State.pcs_mapCores {s : State} {g : Nat × Core → Nat × Core} (h : ∀ e, (g e).1 = e.1 ∧ (g e).2.pcs = e.2.pcs) :
    State.pcs { s with cores := s.cores.map g } = s.pcs := Pcs.of_mapCores _ h

/-- A run of steps that each leave the pcs alone. -/
theorem State.pcs_foldl {α : Type} {f : State → α → State} (h : ∀ s a, (f s a).pcs = s.pcs) (l : List α) (s : State) :
    (l.foldl f s).pcs = s.pcs := by
  induction l generalizing s with
  | nil => rfl
  | cons a t ih => rw [List.foldl_cons, ih, h]

/-- The same of a core. -/
theorem Core.pcs_foldl {α : Type} {f : Core → α → Core} (h : ∀ k a, (f k a).pcs = k.pcs) (l : List α) (k : Core) :
    (l.foldl f k).pcs = k.pcs := by
  induction l generalizing k with
  | nil => rfl
  | cons a t ih => rw [List.foldl_cons, ih, h]

end Sys2Proof.Machine
end

section
/-! SUPPORT for O57. Memory, accesses, pegs, phasers and the clock leave the pcs alone. -/

namespace Sys2Proof.Machine
open Sys2Proof Sys2Proof.Claims

@[simp] theorem State.pcs_setBay (s : State) (b : Nat) (y : Bay) : (s.setBay b y).pcs = s.pcs := by
  simp [State.setBay]

@[simp] theorem State.pcs_setSill (s : State) (ch : Nat) (u : Sill) : (s.setSill ch u).pcs = s.pcs := by
  simp [State.setSill]

@[simp] theorem State.pcs_countPackets (s : State) (p n : Nat) : (s.countPackets p n).pcs = s.pcs := by
  simp [State.countPackets]

@[simp] theorem State.pcs_sent (s : State) (pa n : Nat) : (s.sent pa n).pcs = s.pcs := by
  unfold State.sent
  (repeat' split) <;> rfl

@[simp] theorem State.pcs_rekey (s : State) (slot : Option Nat) (u : Nat) : (s.rekey slot u).pcs = s.pcs := by
  unfold State.rekey
  split <;> simp

@[simp] theorem State.pcs_putByte (s : State) (slot : Option Nat) (pa : Nat) (b : Byte) : (s.putByte slot pa b).pcs = s.pcs := by
  simp [State.putByte]

@[simp] theorem State.pcs_putBytes (s : State) (slot : Option Nat) (pa : Nat) (d : List Byte) : (s.putBytes slot pa d).pcs = s.pcs := by
  induction d generalizing s pa with
  | nil => rfl
  | cons b t ih => rw [State.putBytes, ih, State.pcs_putByte]

@[simp] theorem State.pcs_closeAccums (s : State) (pa n : Nat) : (s.closeAccums pa n).pcs = s.pcs := by
  unfold State.closeAccums
  dsimp only
  split
  · rfl
  · exact State.pcs_foldl (fun _ _ => by simp) _ _

@[simp] theorem State.pcs_wake (s : State) (pa n : Nat) : (s.wake pa n).pcs = s.pcs := by
  unfold State.wake
  exact Pcs.of_mapCores _ fun e => by (repeat' split) <;> simp

@[simp] theorem State.pcs_dropLines (s : State) (pa n : Nat) : (s.dropLines pa n).pcs = s.pcs := by
  unfold State.dropLines
  split <;> simp

@[simp] theorem State.pcs_readLoc (s : State) (l : Loc) (n : Nat) : (s.readLoc l n).1.pcs = s.pcs := by
  simp [State.readLoc]

@[simp] theorem State.pcs_writeLoc (s : State) (l : Loc) (data : List Byte) : (s.writeLoc l data).pcs = s.pcs := by
  simp [State.writeLoc]

@[simp] theorem State.pcs_accumulate (s : State) (l : Loc) (op : MergeOp) (size : Nat) (operand : Nat) :
    (s.accumulate l op size operand).pcs = s.pcs := by
  unfold State.accumulate
  dsimp only
  split <;> simp

@[simp] theorem State.pcs_mergeAtHome (s : State) (l : Loc) (op : MergeOp) (size : Nat) (operand : Nat) (det : Bool) :
    (s.mergeAtHome l op size operand det).pcs = s.pcs := by
  unfold State.mergeAtHome
  (repeat' split) <;> simp

@[simp] theorem State.pcs_dropStale (s : State) (bay : Nat) (ts : List TlbEntry) : (s.dropStale bay ts).pcs = s.pcs := by
  unfold State.dropStale
  dsimp only
  split <;> exact (Pcs.of_mapCores _ fun e => by split <;> simp).trans rfl

@[simp] theorem State.pcs_enterTlb (s : State) (bay : Nat) (t : TlbEntry) : (s.enterTlb bay t).pcs = s.pcs := by
  unfold State.enterTlb
  dsimp only
  split <;> simp

@[simp] theorem State.pcs_install (s : State) (bay b : Nat) (va : Word) : (s.install bay b va).pcs = s.pcs := by
  unfold State.install
  dsimp only
  (repeat' split) <;> simp

@[simp] theorem State.pcs_cacheLines (s : State) (bay : Nat) (l : Loc) (n : Nat) : (s.cacheLines bay l n).pcs = s.pcs := by
  unfold State.cacheLines
  dsimp only
  (repeat' split) <;> rfl

@[simp] theorem State.pcs_touched (s : State) (bay b : Nat) (va : Word) (l : Loc) (n : Nat) (need : Need) :
    (s.touched bay b va l n need).pcs = s.pcs := by
  unfold State.touched
  dsimp only
  split <;> simp

@[simp] theorem State.pcs_tlbInvalidate (s : State) (root : Nat) (va : Option Nat) : (s.tlbInvalidate root va).pcs = s.pcs := by
  unfold State.tlbInvalidate
  refine State.pcs_foldl (fun s e => ?_) _ _
  dsimp only
  rw [State.pcs_setBay]
  split
  · exact State.pcs_dropStale ..
  · exact Pcs.of_mapCores _ fun e => by split <;> simp

@[simp] theorem Core.pcs_putX (k : Core) (r : RegNo) (v : Word) : (k.putX r v).pcs = k.pcs := by
  unfold Core.putX
  split <;> simp

@[simp] theorem Core.pcs_putF (k : Core) (r : RegNo) (v : Word) : (k.putF r v).pcs = k.pcs := by
  simp [Core.putF]

@[simp] theorem Core.pcs_putD (k : Core) (r : BitVec 4) (v : Desc) : (k.putD r v).pcs = k.pcs := by
  simp [Core.putD]

@[simp] theorem State.pcs_putX (s : State) (r : RegNo) (v : Word) : (s.putX r v).pcs = s.pcs := by
  simp [State.putX]

@[simp] theorem State.pcs_putF (s : State) (r : RegNo) (v : Word) : (s.putF r v).pcs = s.pcs := by
  simp [State.putF]

@[simp] theorem State.pcs_setPeg (s : State) (id : Nat) (p : Peg) : (s.setPeg id p).pcs = s.pcs := by
  simp [State.setPeg]

@[simp] theorem State.pcs_modPeg (s : State) (id : Nat) (f : Peg → Peg) : (s.modPeg id f).pcs = s.pcs := by
  simp [State.modPeg]

@[simp] theorem State.pcs_note (s : State) (kind unitNo bent : Nat) : (s.note kind unitNo bent).pcs = s.pcs := by
  simp [State.note]

@[simp] theorem State.pcs_saveWrite (s : State) (b : Nat) (off : Nat) (data : List Byte) : (s.saveWrite b off data).pcs = s.pcs := by
  unfold State.saveWrite
  (repeat' split) <;> simp

@[simp] theorem State.pcs_recordLast (s : State) (b cause kind : Nat) : (s.recordLast b cause kind).pcs = s.pcs := by
  unfold State.recordLast
  (repeat' split) <;> simp

@[simp] theorem State.pcs_drain (s : State) (b : Nat) : (s.drain b).pcs = s.pcs := by
  unfold State.drain
  exact Pcs.of_mapBents fun e => by split <;> rfl

@[simp] theorem State.pcs_killBent (s : State) (b cause kind : Nat) : (s.killBent b cause kind).pcs = s.pcs := by
  simp [State.killBent]

@[simp] theorem State.pcs_pend (s : State) (id : Nat) (t : Trap) : (s.pend id t).pcs = s.pcs := by
  simp [State.pend]

@[simp] theorem Core.pcs_putLoad (k : Core) (d : LoadDest) (v : Nat) : (k.putLoad d v).pcs = k.pcs := by
  unfold Core.putLoad
  split <;> simp

@[simp] theorem State.pcs_fetchedLine (s : State) (core : Option Nat) (bay : Nat) (slot : Option Nat) (line : Nat) :
    (s.fetchedLine core bay slot line).pcs = s.pcs := by
  unfold State.fetchedLine
  dsimp only
  (repeat' split) <;> simp

@[simp] theorem State.pcs_keepLine (s : State) (core : Option Nat) (bay line : Nat) (c : CacheLine) : (s.keepLine core bay line c).pcs = s.pcs := by
  unfold State.keepLine
  dsimp only
  (repeat' split) <;> simp

@[simp] theorem State.pcs_fetchLoc (s : State) (core : Option Nat) (bay : Nat) (l : Loc) (n : Nat) : (s.fetchLoc core bay l n).1.pcs = s.pcs := by
  unfold State.fetchLoc
  split
  · exact (State.pcs_foldl (fun _ _ => by simp) _ _).trans (by simp)
  · simp

@[simp] theorem State.pcs_deferTrap (s : State) (a : Access) (code : Nat) : (s.deferTrap a code).pcs = s.pcs := by
  unfold State.deferTrap
  (repeat' split) <;> rfl

@[simp] theorem State.pcs_performHere (s : State) (a : Access) : (s.performHere a).pcs = s.pcs := by
  unfold State.performHere
  dsimp only
  (repeat' split) <;> simp

@[simp] theorem State.pcs_perform (s : State) (a : Access) : (s.perform a).pcs = s.pcs := by
  unfold State.perform
  (repeat' split) <;> simp

@[simp] theorem State.pcs_issue (s : State) (a : Access) : (s.issue a).pcs = s.pcs := by
  unfold State.issue
  split <;> simp

@[simp] theorem State.pcs_loseMerges (s : State) (id : Nat) (va : Word) : (s.loseMerges id va).pcs = s.pcs := by
  simp [State.loseMerges]

@[simp] theorem State.pcs_fence (s : State) (ord : Nat) (mask : BitVec 16) : (s.fence ord mask).pcs = s.pcs := by
  unfold State.fence
  dsimp only
  split <;> rfl

@[simp] theorem State.pcs_heard (s : State) : (s.heard).pcs = s.pcs := by
  simp [State.heard]

@[simp] theorem State.pcs_accessAll (s : State) (cls : BitVec 4) (o : BitVec 2) (us : Units) (va : Word) (l : Loc) :
    (s.accessAll cls o us va l).pcs = s.pcs := by
  unfold State.accessAll
  simp [State.pcs_foldl]

@[simp] theorem State.pcs_failMerges (s : State) (id : Nat) : (s.failMerges id).pcs = s.pcs := by
  unfold State.failMerges
  split <;> simp

@[simp] theorem State.pcs_fetched (s : State) : (s.fetched).pcs = s.pcs := by
  unfold State.fetched
  split <;> simp

@[simp] theorem State.pcs_passTime (s : State) (dt dclk : Nat) : (s.passTime dt dclk).pcs = s.pcs := by
  simp [State.passTime]

@[simp] theorem State.pcs_askDelay (s : State) (port seqId origin : Nat) : (s.askDelay port seqId origin).pcs = s.pcs := by
  simp [State.askDelay]

@[simp] theorem State.pcs_correct (s : State) (err : Int) : (s.correct err).pcs = s.pcs := by
  unfold State.correct
  split <;> simp

@[simp] theorem State.pcs_acceptMerge (s : State) (op : MergeOp) (va : Word) (l : Loc) (size : Nat) (cls : Nat) (operand : Word) (release : Bool) :
    (s.acceptMerge op va l size cls operand release).pcs = s.pcs := by
  simp [State.acceptMerge]

@[simp] theorem State.pcs_setPhaser (s : State) (bay n : Nat) (p : Phaser) : (s.setPhaser bay n p).pcs = s.pcs := by
  simp [State.setPhaser]

@[simp] theorem State.pcs_dropEverywhere (s : State) (m : Member) : (s.dropEverywhere m).pcs = s.pcs := by
  simp [State.dropEverywhere]

@[simp] theorem State.pcs_setSem (s : State) (c n v : Nat) : (s.setSem c n v).pcs = s.pcs := by
  unfold State.setSem
  exact State.pcs_setCore (by simp)

theorem State.pcs_addSem {s t : State} {c n : Nat} {d : Int} (h : s.addSem c n d = some t) : t.pcs = s.pcs := by
  unfold State.addSem at h
  dsimp only at h
  split at h
  · cases h
  · cases h
    simp

@[simp] theorem State.pcs_writeRecord (s : State) (l : Loc) (w : Nat) (pc : Word) : (s.writeRecord l w pc).pcs = s.pcs := by
  simp [State.writeRecord]

@[simp] theorem State.pcs_ovqPut (s : State) (b : Nat) (r : Bent) (n : BitVec 32) (recAddr : Word) : (s.ovqPut b r n recAddr).pcs = s.pcs := by
  unfold State.ovqPut
  split <;> simp

@[simp] theorem State.pcs_ovqWrite (s : State) (b : Nat) (recAddr : Word) : (s.ovqWrite b recAddr).pcs = s.pcs := by
  unfold State.ovqWrite
  split <;> simp

@[simp] theorem State.pcs_ovqFill (s : State) (b : Nat) (r : Bent) (n : BitVec 32) (l : List Nat) : (s.ovqFill b r n l).pcs = s.pcs := by
  induction l generalizing s n with
  | nil => rfl
  | cons i t ih =>
    rw [State.ovqFill, ih]
    split <;> simp

@[simp] theorem State.pcs_leaveQueue (s : State) (b id : Nat) : (s.leaveQueue b id).pcs = s.pcs := by
  unfold State.leaveQueue
  split
  · rfl
  · split <;> simp

@[simp] theorem State.pcs_addPeg (s : State) (p : Peg) (pl : Place) : (s.addPeg p pl).1.pcs = s.pcs := by
  unfold State.addPeg
  split <;> simp

theorem State.pcs_moveOne {s t : State} {bay : Nat} (h : s.moveOne bay = some t) : t.pcs = s.pcs := by
  unfold State.moveOne at h
  split at h
  · cases h
  · obtain ⟨i, -, rfl⟩ := Option.map_eq_some_iff.mp h
    simp

@[simp] theorem pcs_moveIn (n bay : Nat) (s : State) : (moveIn n bay s).pcs = s.pcs := by
  induction n generalizing s with
  | zero => rfl
  | succ n ih =>
    unfold moveIn
    split
    · next t h => rw [ih, State.pcs_moveOne h]
    · rfl

@[simp] theorem State.pcs_markSlots (s : State) (b : Nat) (addr : Word) (used : Bool) : (s.markSlots b addr used).pcs = s.pcs := by
  unfold State.markSlots
  exact Pcs.of_mapBents fun e => by (repeat' split) <;> rfl

@[simp] theorem State.pcs_removePeg (s : State) (id : Nat) : (s.removePeg id).pcs = s.pcs := by
  unfold State.removePeg
  split
  · rfl
  · dsimp only
    split <;> simp

@[simp] theorem State.pcs_lowerJoin (s : State) (id : Option Nat) : (s.lowerJoin id).pcs = s.pcs := by
  unfold State.lowerJoin
  split <;> simp

@[simp] theorem State.pcs_vacate (s : State) : (s.vacate).pcs = s.pcs := by
  unfold State.vacate
  dsimp only
  split <;> simp

@[simp] theorem State.pcs_suspend (s : State) (l : Loc) (pc : Word) (st : PegState) (w : Option Wait) : (s.suspend l pc st w).pcs = s.pcs := by
  unfold State.suspend
  split <;> simp

@[simp] theorem State.pcs_makeReady (s : State) (id : Nat) : (s.makeReady id).pcs = s.pcs := by
  simp [State.makeReady]

@[simp] theorem Core.pcs_clearWindow (k : Core) (w : Nat) : (k.clearWindow w).pcs = k.pcs := by
  simp [Core.clearWindow]

@[simp] theorem Core.pcs_clearOwned (k : Core) (b : Nat) (l : List Nat) : (k.clearOwned b l).pcs = k.pcs := by
  induction l generalizing k with
  | nil => rfl
  | cons w t ih =>
    rw [Core.clearOwned, ih]
    split <;> simp

@[simp] theorem Core.pcs_freeAlloc (k : Core) (a : Alloc) : (k.freeAlloc a).pcs = k.pcs := by
  unfold Core.freeAlloc
  dsimp only
  split <;> simp

@[simp] theorem Core.pcs_freeAllocs (k : Core) (sel : Alloc → Bool) : (k.freeAllocs sel).pcs = k.pcs := by
  unfold Core.freeAllocs
  exact Core.pcs_foldl (fun _ _ => by simp) _ _

@[simp] theorem State.pcs_freePegAllocs (s : State) (id : Nat) : (s.freePegAllocs id).pcs = s.pcs := by
  unfold State.freePegAllocs
  exact Pcs.of_mapCores _ fun e => by simp

@[simp] theorem State.pcs_writeSt (s : State) (l : Loc) (st : Nat) : (s.writeSt l st).pcs = s.pcs := by
  simp [State.writeSt]

@[simp] theorem State.pcs_writeExit (s : State) (l : Loc) : (s.writeExit l).pcs = s.pcs := by
  simp [State.writeExit]

theorem State.pcs_enqueue {s t : State} {caller bay : Nat} {addr : Word} {d : List Byte} (h : s.enqueue caller bay addr d = .go t) :
    t.pcs = s.pcs := by
  unfold State.enqueue at h
  dsimp only at h
  (repeat' split at h) <;> cases h <;> simp

@[simp] theorem State.pcs_endWait (s : State) (id : Nat) (p : Peg) (must : Bool) (f : List Byte → List Byte) :
    (s.endWait id p must f).pcs = s.pcs := by
  unfold State.endWait
  dsimp only
  (repeat' split) <;> simp

@[simp] theorem State.pcs_abandonWait (s : State) (id : Nat) (p : Peg) : (s.abandonWait id p).pcs = s.pcs := by
  unfold State.abandonWait
  dsimp only
  (repeat' split) <;> simp

@[simp] theorem State.pcs_wakePeg (s : State) (id : Nat) (suspended : Nat → Nat → Bool) (spinning : Spin → Core → Bool) :
    (s.wakePeg id suspended spinning).pcs = s.pcs := by
  unfold State.wakePeg
  exact Pcs.of_mapCores _ fun e => by (repeat' split) <;> simp

end Sys2Proof.Machine
end

section
/-! SUPPORT for O57. The ends of pegs, kernel memory and the elements of commands leave the pcs alone. -/

namespace Sys2Proof.Machine
open Sys2Proof Sys2Proof.Claims

@[simp] theorem Core.pcs_setEntry (k : Core) (c : Cmd) : (k.setEntry c).pcs = k.pcs := by
  simp [Core.setEntry]

@[simp] theorem Core.pcs_dropEntry (k : Core) (n : BitVec 32) : (k.dropEntry n).pcs = k.pcs := by
  simp [Core.dropEntry]

@[simp] theorem State.pcs_bridgeCount (s : State) (core bent j : Nat) (b : Word) : (s.bridgeCount core bent j b).pcs = s.pcs := by
  unfold State.bridgeCount
  dsimp only
  (repeat' split) <;> simp

@[simp] theorem State.pcs_signal (s : State) (core : Nat) (c : Cmd) : (s.signal core c).pcs = s.pcs := by
  unfold State.signal
  split
  · rfl
  · dsimp only
    cases h : s.addSem core c.ws.ssem.toNat c.ws.sinc.toNat with
    | none =>
      dsimp only
      split
      · simp
      · exact (State.pcs_foldl (fun _ _ => by split <;> simp) _ _).trans (by simp)
    | some t =>
      dsimp only
      split
      · exact State.pcs_addSem h
      · exact (State.pcs_foldl (fun _ _ => by split <;> simp) _ _).trans (State.pcs_addSem h)

@[simp] theorem State.pcs_complete (s : State) (core : Nat) (c : Cmd) (sig : Bool) : (s.complete core c sig).pcs = s.pcs := by
  unfold State.complete
  split <;> simp

@[simp] theorem State.pcs_stopCmd (s : State) (core : Nat) (c : Cmd) (code elem : Nat) (addr : Word) :
    (s.stopCmd core c code elem addr).pcs = s.pcs := by
  simp [State.stopCmd]

@[simp] theorem State.pcs_firstUseCmd (s : State) (core : Nat) (c : Cmd) (w : Nat) : (s.firstUseCmd core c w).pcs = s.pcs := by
  simp [State.firstUseCmd]

@[simp] theorem State.pcs_putBentRecord (s : State) (b : Nat) (r : Bent) : (s.putBentRecord b r).pcs = s.pcs := by
  unfold State.putBentRecord
  dsimp only
  split <;> simp

@[simp] theorem State.pcs_writeBackBent (s : State) (b : Nat) (r : Bent) : (s.writeBackBent b r).pcs = s.pcs := by
  unfold State.writeBackBent
  dsimp only
  split <;> simp

@[simp] theorem State.pcs_dropContext (s : State) (core uid : Nat) : (s.dropContext core uid).pcs = s.pcs := by
  simp [State.dropContext]

@[simp] theorem State.pcs_dropCommands (s : State) (id : Nat) : (s.dropCommands id).pcs = s.pcs := by
  unfold State.dropCommands
  exact Pcs.of_mapCores _ fun e => by simp

@[simp] theorem State.pcs_dropSpills (s : State) (b : Nat) (r : Bent) : (s.dropSpills b r).pcs = s.pcs := by
  unfold State.dropSpills
  split <;> simp [State.pcs_foldl]

@[simp] theorem State.pcs_dropSaved (s : State) (p : Peg) : (s.dropSaved p).pcs = s.pcs := by
  unfold State.dropSaved
  split <;> simp [State.pcs_foldl]

@[simp] theorem State.pcs_endPeg (s : State) (id : Nat) (p : Peg) : (s.endPeg id p).pcs = s.pcs := by
  unfold State.endPeg
  cases s.recordLoc (p.pool.getD homeBay) p .both
  all_goals
    dsimp only
    rw [State.pcs_removePeg]
    refine (State.pcs_mapCores fun e => by split <;> exact ⟨rfl, rfl⟩).trans ?_
    rw [State.pcs_dropSaved, apply_ite State.pcs, State.pcs_lowerJoin, ite_self]
    simp

@[simp] theorem State.pcs_putRecord (s : State) (l : Loc) (d : List Byte) : (s.putRecord l d).pcs = s.pcs := by
  simp [State.putRecord]

@[simp] theorem State.pcs_mergeStats (s : State) (l : Loc) (st : Stats) : (s.mergeStats l st).pcs = s.pcs := by
  unfold State.mergeStats
  split <;> simp

theorem State.pcs_bindRecord {s t : State} {bay b : Nat} {ag : Agent} {va : Word} {st : Stats} (h : s.bindRecord bay b ag va = .ok t st) :
    t.pcs = s.pcs := by
  unfold State.bindRecord at h
  (repeat' split at h) <;> cases h
  simp

theorem State.pcs_issueMerge {s t : State} {bay b : Nat} {ag : Agent} {peg : Nat} {cmd : Option Nat} {cls : Nat} {va : Word} {st : Stats}
    (h : s.issueMerge bay b ag peg cmd cls va st = .ok t) : t.pcs = s.pcs := by
  unfold State.issueMerge at h
  (repeat' split at h) <;> cases h <;> simp

@[simp] theorem Core.pcs_writeBuf (k : Core) (sp : LocalSpace) (off : Nat) (d : List Byte) : (k.writeBuf sp off d).pcs = k.pcs := by
  unfold Core.writeBuf
  split <;> simp

theorem Core.pcs_touch {k q : Core} {w b : Nat} (h : k.touch w b = .ok q) : q.pcs = k.pcs := by
  unfold Core.touch at h
  dsimp only at h
  (repeat' split at h) <;> cases h <;> simp

@[simp] theorem State.pcs_sendLate (s : State) (w : Issuer) (late : List (Loc × List Byte)) : (s.sendLate w late).pcs = s.pcs := by
  unfold State.sendLate
  exact State.pcs_foldl (fun _ _ => by simp) _ _

@[simp] theorem State.pcs_readParts (s : State) (bay : Nat) (l : List (Loc × Nat)) : (s.readParts bay l).1.pcs = s.pcs := by
  induction l generalizing s with
  | nil => rfl
  | cons e t ih => simp [State.readParts, ih]

@[simp] theorem State.pcs_writePart (s : State) (w : Issuer) (bay : Nat) (va : Word) (l : Loc) (d : List Byte) :
    (s.writePart w bay va l d).pcs = s.pcs := by
  unfold State.writePart
  split <;> simp

@[simp] theorem State.pcs_writeParts (s : State) (w : Issuer) (bay : Nat) (va : Word) (l : List (Loc × Nat)) (d : List Byte) :
    (s.writeParts w bay va l d).pcs = s.pcs := by
  induction l generalizing s va d with
  | nil => rfl
  | cons e t ih => simp [State.writeParts, ih]

@[simp] theorem State.pcs_touchParts (s : State) (bay b : Nat) (need : Need) (va : Word) (l : List (Loc × Nat)) :
    (s.touchParts bay b need va l).pcs = s.pcs := by
  induction l generalizing s va with
  | nil => rfl
  | cons e t ih => simp [State.touchParts, ih]

theorem State.pcs_gReadAs {s t : State} {bay : Nat} {w : Issuer} {need : Need} {va : Word} {n : Nat} {d : List Byte}
    (h : s.gReadAs bay w need va n = .ok t d) : t.pcs = s.pcs := by
  unfold State.gReadAs at h
  dsimp only at h
  split at h <;> cases h
  split <;> simp

theorem State.pcs_gRead {s t : State} {bay : Nat} {w : Issuer} {va : Word} {n : Nat} {d : List Byte} (h : s.gRead bay w va n = .ok t d) :
    t.pcs = s.pcs := State.pcs_gReadAs h

theorem State.pcs_gWrite {s t : State} {bay : Nat} {w : Issuer} {va : Word} {d r : List Byte} (h : s.gWrite bay w va d = .ok t r) :
    t.pcs = s.pcs := by
  unfold State.gWrite at h
  split at h <;> cases h
  simp

theorem State.pcs_gPatch {s t : State} {bay : Nat} {w : Issuer} {p : Spot} {v : Nat} {r : List Byte} (h : s.gPatch bay w p v = .ok t r) :
    t.pcs = s.pcs := by
  unfold State.gPatch at h
  dsimp only at h
  split at h <;> cases h
  exact (State.pcs_foldl (fun _ _ => by simp) _ _).trans (by simp)

/-- What an element comes to satisfies a predicate where it is a value. -/
def Elem.Holds {α : Type} (p : α → Prop) : Elem α → Prop
  | .ok a => p a
  | _ => True

@[simp] theorem Elem.holds_ok {α : Type} (p : α → Prop) (a : α) : (Elem.ok a).Holds p ↔ p a := Iff.rfl
@[simp] theorem Elem.holds_fault {α : Type} (p : α → Prop) (c : Nat) (w : Word) : (Elem.fault c w : Elem α).Holds p := trivial
@[simp] theorem Elem.holds_stall {α : Type} (p : α → Prop) : (Elem.stall : Elem α).Holds p := trivial
/-- A part and what goes on with its value. -/
theorem Elem.Holds.bind {α β : Type} {p : α → Prop} {q : β → Prop} {e : Elem α} {k : α → Elem β} (h : e.Holds p)
    (hk : ∀ a, p a → (k a).Holds q) : (e.bind k).Holds q := by
  cases e with
  | ok a => exact hk a h
  | _ => trivial

theorem GOut.holds_elem {o : GOut} {p : State × List Byte → Prop} (h : ∀ t d, o = .ok t d → p (t, d)) : o.elem.Holds p := by
  cases o with
  | ok t d => exact h t d rfl
  | _ => trivial

theorem State.holds_gRead (s : State) (bay : Nat) (w : Issuer) (va : Word) (n : Nat) :
    (s.gRead bay w va n).elem.Holds (fun r => r.1.pcs = s.pcs) := GOut.holds_elem fun _ _ => State.pcs_gRead

theorem State.holds_gWrite (s : State) (bay : Nat) (w : Issuer) (va : Word) (d : List Byte) :
    (s.gWrite bay w va d).elem.Holds (fun r => r.1.pcs = s.pcs) := GOut.holds_elem fun _ _ => State.pcs_gWrite

theorem State.holds_gPatch (s : State) (bay : Nat) (w : Issuer) (p : Spot) (v : Nat) :
    (s.gPatch bay w p v).elem.Holds (fun r => r.1.pcs = s.pcs) := GOut.holds_elem fun _ _ => State.pcs_gPatch

theorem State.holds_localSpot (s : State) (core bent : Nat) (sp : LocalSpace) (f0 : Word) (p : Spot) (write : Bool) :
    (s.localSpot core bent sp f0 p write).Holds (fun r => r.1.pcs = s.pcs) := by
  unfold State.localSpot
  dsimp only
  split
  · trivial
  · split
    · trivial
    · split
      · split <;> simp
      · split <;> simp
      · split
        · next h => exact State.pcs_setCore (Core.pcs_touch h)
        · trivial

theorem State.holds_readSpot (s : State) (j : Job) (d : Dsc) (f0 : Word) (p : Spot) :
    (s.readSpot j d f0 p).Holds (fun r => r.1.pcs = s.pcs) := by
  unfold State.readSpot
  split
  · exact (s.holds_gRead ..).bind fun r hr => hr
  · refine (s.holds_localSpot ..).bind fun r hr => ?_
    dsimp only
    split <;> simp [hr]

theorem State.holds_writeSpot (s : State) (j : Job) (d : Dsc) (f0 : Word) (p : Spot) (v : Nat) :
    (s.writeSpot j d f0 p v).Holds (fun t => t.pcs = s.pcs) := by
  unfold State.writeSpot
  split
  · split
    · exact (s.holds_gWrite ..).bind fun r hr => hr
    · exact (s.holds_gPatch ..).bind fun r hr => hr
  · exact (s.holds_localSpot ..).bind fun r hr => by simp [hr]

theorem State.holds_readElem (s : State) (j : Job) (e : Nat) (p : Spot) : (s.readElem j e p).Holds (fun r => r.1.pcs = s.pcs) := by
  unfold State.readElem
  split
  · exact s.holds_readSpot ..
  · exact (s.holds_gRead ..).bind fun r hr => hr

theorem State.holds_readSource (s : State) (j : Job) (e : Nat) (i : Idx) (p : Spot) :
    (s.readSource j e i p).Holds (fun r => r.1.pcs = s.pcs) := by
  unfold State.readSource
  refine (s.holds_readElem ..).bind fun r hr => ?_
  dsimp only
  split
  · exact (r.1.holds_readSpot ..).bind fun q hq => hq.trans hr
  · split
    · exact (r.1.holds_readSpot ..).bind fun q hq => hq.trans hr
    · exact hr

theorem State.holds_sourceSpot (s : State) (j : Job) (e : Nat) : (s.sourceSpot j e).Holds (fun r => r.1.pcs = s.pcs) := by
  unfold State.sourceSpot
  split
  · rfl
  · rfl
  · refine (s.holds_readSpot ..).bind fun r hr => ?_
    dsimp only
    split <;> simp [hr]
  · refine (s.holds_readSpot ..).bind fun r hr => ?_
    dsimp only
    split <;> simp [hr]
  · rfl

theorem State.holds_destSpot (s : State) (j : Job) (e : Nat) : (s.destSpot j e).Holds (fun r => r.1.pcs = s.pcs) := by
  unfold State.destSpot
  split
  · refine (s.holds_readSpot ..).bind fun r hr => ?_
    dsimp only
    split <;> simp [hr]
  · rfl

theorem State.holds_moveScale (s : State) (j : Job) (e : Nat) (si di : Idx) : (s.moveScale j e si di).Holds (fun t => t.pcs = s.pcs) := by
  unfold State.moveScale
  split
  · rfl
  · cases j.c.op with
    | sst q =>
      dsimp only
      split
      · rfl
      · split
        · trivial
        · exact s.holds_writeSpot ..
    | sld mode cj =>
      dsimp only
      split
      · rfl
      · exact (s.holds_readSpot ..).bind fun r hr => by simp [hr]
    | _ =>
      dsimp only
      split
      · rfl
      · split <;> simp

theorem State.holds_mergeElem (s : State) (j : Job) (p : Spot) (bits : Nat) : (s.mergeElem j p bits).Holds (fun t => t.pcs = s.pcs) := by
  unfold State.mergeElem
  dsimp only
  split <;> simp

theorem State.holds_oneElem (s : State) (j : Job) (e : Nat) : (s.oneElem j e).Holds (fun r => r.1.pcs = s.pcs) := by
  unfold State.oneElem
  refine (s.holds_sourceSpot ..).bind fun (s1, si, sp) h1 => ?_
  refine (s1.holds_destSpot ..).bind fun (s2, di, dp) h2 => ?_
  refine (s2.holds_readSource ..).bind fun (s3, raw, v) h3 => ?_
  replace h3 : s3.pcs = s.pcs := h3.trans (h2.trans h1)
  have put {w : Elem State} (hw : w.Holds (fun t => t.pcs = s3.pcs)) (c : Cmd) : (w.bind (fun s => (s.moveScale j e si di).bind (fun s =>
      (.ok (s, c, e + 1) : Elem Done)))).Holds (fun r => r.1.pcs = s.pcs) :=
    hw.bind fun t ht => (t.holds_moveScale ..).bind fun u hu => (hu.trans ht).trans h3
  dsimp only
  repeat' split
  any_goals exact Elem.holds_fault ..
  any_goals exact put (s3.holds_mergeElem ..) _
  all_goals exact put (s3.holds_writeSpot ..) _

theorem State.holds_blockVals (s : State) (j : Job) (n e : Nat) : (s.blockVals j n e).Holds (fun r => r.1.pcs = s.pcs) := by
  induction n generalizing s e with
  | zero => rfl
  | succ n ih =>
    refine (s.holds_sourceSpot ..).bind fun (s1, si, sp) h1 => ?_
    refine (s1.holds_readSource ..).bind fun (s2, raw, v) h2 => ?_
    exact (ih s2 (e + 1)).bind fun r hr => hr.trans (h2.trans h1)

theorem State.holds_putCodes (s : State) (j : Job) (e : Nat) (l : List Nat) : (s.putCodes j e l).Holds (fun t => t.pcs = s.pcs) := by
  induction l generalizing s e with
  | nil => rfl
  | cons q t ih =>
    refine (s.holds_writeSpot ..).bind fun u hu => ?_
    exact hu ▸ ih u (e + 1)

theorem State.holds_blockElem (s : State) (j : Job) (e : Nat) : (s.blockElem j e).Holds (fun r => r.1.pcs = s.pcs) := by
  unfold State.blockElem
  refine (s.holds_blockVals ..).bind fun (s1, vs) h1 => ?_
  dsimp only
  split
  · refine (s1.holds_sourceSpot ..).bind fun (s2, si, sp) h2 => ?_
    refine (s2.holds_readSpot ..).bind fun (s3, x) h3 => ?_
    refine (s3.holds_writeSpot ..).bind fun s4 h4 => ?_
    exact (s4.holds_putCodes ..).bind fun s5 h5 => h5.trans (h4.trans (h3.trans (h2.trans h1)))
  · refine (s1.holds_writeSpot ..).bind fun s2 h2 => ?_
    exact (s2.holds_putCodes ..).bind fun s3 h3 => h3.trans (h2.trans h1)

@[simp] theorem State.pcs_readAhead (s : State) (core : Nat) (c : Cmd) (k unit : Nat) : (s.readAhead core c k unit).1.pcs = s.pcs := by
  unfold State.readAhead
  dsimp only
  split
  · rfl
  · split
    · next t i p ht =>
      have h := s.holds_sourceSpot (s.job core c) (c.progress + k)
      rw [ht] at h
      split
      · rfl
      · split
        · next hg => exact (State.pcs_gRead hg).trans h
        · rfl
    · rfl

theorem State.holds_dataElem (s : State) (core : Nat) (c : Cmd) : (s.dataElem core c).Holds (fun r => r.1.pcs = s.pcs) := by
  unfold State.dataElem
  dsimp only
  split
  · exact s.holds_blockElem ..
  · exact s.holds_oneElem ..

theorem State.holds_scaleOut (s : State) (core : Nat) (c : Cmd) : (s.scaleOut core c).Holds (fun t => t.pcs = s.pcs) := by
  have put (q : Bool) (w : Word) (d : List Byte) : (if q then Elem.ok s else
      ((s.gWrite (s.job core c).bay (s.job core c).issuer w d).elem.bind (fun r => .ok r.1))).Holds (fun t => t.pcs = s.pcs) := by
    split
    · rfl
    · exact (s.holds_gWrite ..).bind fun r hr => hr
  unfold State.scaleOut
  dsimp only
  split
  · exact put ..
  · exact put ..
  · rfl

/-- The start of an entry leaves the pcs at `v`, where it goes on. -/
def Started.Keeps (v : Pcs) : Started → Prop
  | .go t _ => t.pcs = v
  | _ => True

@[simp] theorem Started.keeps_go (v : Pcs) (t : State) (c : Cmd) : (Started.go t c).Keeps v ↔ t.pcs = v := Iff.rfl
@[simp] theorem Started.keeps_fault (v : Pcs) (code : Nat) (w : Word) (c : Cmd) : (Started.fault code w c).Keeps v := trivial
theorem State.keeps_quantScale {s : State} {core : Nat} {c : Cmd} {k : State → Cmd → Started}
    (hk : ∀ t d, t.pcs = s.pcs → (k t d).Keeps s.pcs) : (s.quantScale core c k).Keeps s.pcs := by
  unfold State.quantScale
  dsimp only
  (repeat' split) <;> try trivial
  all_goals first
    | exact hk _ _ rfl
    | exact hk _ _ (State.pcs_gReadAs ‹_›)

theorem State.keeps_bindCmd {s : State} {core : Nat} {c : Cmd} {record : Nat} {k : State → Cmd → Started} {v : Pcs} (hs : s.pcs = v)
    (hk : ∀ t d, t.pcs = v → (k t d).Keeps v) : (s.bindCmd core c record k).Keeps v := by
  unfold State.bindCmd
  split
  · exact hk _ _ hs
  · dsimp only
    split
    · trivial
    · trivial
    · trivial
    · next h => exact hk _ _ ((State.pcs_bindRecord h).trans hs)

theorem State.keeps_startData (s : State) (core : Nat) (c : Cmd) : (s.startData core c).Keeps s.pcs := by
  unfold State.startData
  dsimp only
  split
  · trivial
  · split
    · rfl
    · exact State.keeps_quantScale fun t d ht => State.keeps_bindCmd ht fun u e hu => hu

end Sys2Proof.Machine
end

section
/-! SUPPORT for O57. Collectives and system instructions leave the pcs alone. -/

namespace Sys2Proof.Machine
open Sys2Proof Sys2Proof.Claims

@[simp] theorem State.pcs_abortRound (s : State) (bay : Nat) (r : BitVec 32) : (s.abortRound bay r).pcs = s.pcs := by
  unfold State.abortRound
  dsimp only
  split <;> simp [State.pcs_foldl]

@[simp] theorem State.pcs_holdMessage (s : State) (bay : Nat) (m : CollMsg) : (s.holdMessage bay m).pcs = s.pcs := by
  unfold State.holdMessage
  dsimp only
  split <;> rfl

theorem State.keeps_readColl {s : State} {core : Nat} {c : Cmd} {k : State → List Byte → Started}
    (hk : ∀ t d, t.pcs = s.pcs → (k t d).Keeps s.pcs) : (s.readColl core c k).Keeps s.pcs := by
  unfold State.readColl
  dsimp only
  split
  · trivial
  · split
    · trivial
    · trivial
    · trivial
    · next t d h1 =>
      split
      · trivial
      · split
        · trivial
        · split
          · exact hk _ _ (State.pcs_gRead h1)
          · split
            · trivial
            · trivial
            · trivial
            · next h2 =>
              split
              · trivial
              · exact hk _ _ ((State.pcs_gRead h2).trans (State.pcs_gRead h1))

theorem State.keeps_startColl (s : State) (core : Nat) (c : Cmd) : (s.startColl core c).Keeps s.pcs := by
  refine State.keeps_readColl fun t d ht => ?_
  dsimp only
  split
  · trivial
  · split
    · exact ht
    · exact State.keeps_bindCmd ht fun u e hu => hu

theorem State.keeps_startAbort (s : State) (core : Nat) (c : Cmd) : (s.startAbort core c).Keeps s.pcs :=
  State.keeps_readColl fun _ _ ht => ht

@[simp] theorem State.pcs_sendStep (s : State) (memb : Nat) (m : CollMsg) : (s.sendStep memb m).pcs = s.pcs := by
  unfold State.sendStep
  dsimp only
  (repeat' split) <;> simp

@[simp] theorem State.pcs_takeHeld (s : State) (bay : Nat) (c : Cmd) : (s.takeHeld bay c).1.pcs = s.pcs := by
  simp [State.takeHeld]

theorem State.holds_collElemStep (s : State) (core : Nat) (c : Cmd) : (s.collElemStep core c).Holds (fun r => r.1.pcs = s.pcs) := by
  unfold State.collElemStep
  have h := s.pcs_takeHeld (s.bayOf core) c
  dsimp only
  split
  · trivial
  · split
    · split
      · exact h
      · refine (State.holds_gRead ..).bind fun r hr => ?_
        exact (State.pcs_foldl (fun _ _ => by split <;> simp) _ _).trans (hr.trans h)
    · split
      · split
        · trivial
        · exact h
      · exact (State.holds_gWrite ..).bind fun r hr => hr.trans h

theorem State.holds_collFlag (s : State) (core : Nat) (c : Cmd) : (s.collFlag core c).Holds (fun t => t.pcs = s.pcs) := by
  unfold State.collFlag
  dsimp only
  split
  · rfl
  · split
    · split <;> trivial
    · exact (s.holds_gWrite ..).bind fun r hr => hr

theorem State.holds_abortElem (s : State) (c : Cmd) : (s.abortElem c).Holds (fun r => r.1.pcs = s.pcs) := by
  unfold State.abortElem
  dsimp only
  split
  · rfl
  · split
    · simp
    · split <;> simp

@[simp] theorem State.pcs_abortDone (s : State) (core : Nat) (c : Cmd) : (s.abortDone core c).pcs = s.pcs := by
  unfold State.abortDone
  simp [State.pcs_foldl]

@[simp] theorem State.pcs_dropSillPages (s : State) (root : Nat) (va : Option Nat) : (s.dropSillPages root va).pcs = s.pcs := by
  unfold State.dropSillPages
  exact Pcs.of_mapCores _ fun e => by split <;> simp

@[simp] theorem Core.pcs_unlock (k : Core) (b line : Nat) : (k.unlock b line).pcs = k.pcs := by
  simp [Core.unlock]

@[simp] theorem Core.pcs_frameFor (k : Core) (b line : Nat) (locked : Bool) (stamp : Nat) (key : BitVec 512) :
    (k.frameFor b line locked stamp key).pcs = k.pcs := by
  simp [Core.frameFor]

@[simp] theorem pcs_klockLoop (b : Nat) (l : List Nat) (a : State × Nat × Nat × Nat) : (klockLoop b l a).1.pcs = a.1.pcs := by
  induction l generalizing a with
  | nil => rfl
  | cons w t ih =>
    obtain ⟨s, n, e, sh⟩ := a
    unfold klockLoop
    split
    · exact ih _
    · split
      · rw [ih]; simp
      · split
        · exact ih _
        · next v hv =>
          have hu : ((s.setMe (s.me.unlock v.bent v.line)).modBent v.bent (fun r => { r with lockLost := true })).pcs = s.pcs := by simp
          dsimp only
          generalize (s.setMe (s.me.unlock v.bent v.line)).modBent v.bent (fun r => { r with lockLost := true }) = u at hu ⊢
          rw [ih, ← hu]
          simp

end Sys2Proof.Machine
end

section
/-! SUPPORT for O57. Kernel contexts and their bundles leave the pcs alone. -/

namespace Sys2Proof.Machine
open Sys2Proof Sys2Proof.Claims

@[simp] theorem pcs_pushBytes (k : Core) (x : Context) (idx a n v : Nat) : (pushBytes k x idx a n v).1.pcs = k.pcs := by
  simp [pushBytes]

@[simp] theorem pcs_landOne (k : Core) (x : Context) (f : Flight) : (landOne k x f).1.pcs = k.pcs := by
  unfold landOne
  dsimp only
  split <;> simp

@[simp] theorem pcs_landAll (k : Core) (x : Context) (fs : List Flight) : (landAll k x fs).1.pcs = k.pcs := by
  unfold landAll
  induction fs generalizing k x with
  | nil => rfl
  | cons f t ih => rw [List.foldl_cons, ih, pcs_landOne]

@[simp] theorem pcs_landDue (k : Core) (x : Context) : (landDue k x).1.pcs = k.pcs := pcs_landAll ..

@[simp] theorem Issue.pcs_trap (i : Issue) (m : Move) (c code : Nat) (addr : Word) : (i.trap m c code addr).s.pcs = i.s.pcs := rfl

@[simp] theorem Issue.pcs_trapIf (p : Prop) [Decidable p] (i : Issue) (m : Move) (c code : Nat) (addr : Word) :
    (if p then i.trap m c code addr else i).s.pcs = i.s.pcs := by
  split <;> rfl

@[simp] theorem Issue.core_pcs (i : Issue) (b : Before) : (i.core b).pcs = i.s.pcs.core b.core := by
  simp only [Issue.core, State.core_pcs]

@[simp] theorem Issue.pcs_setCore {i : Issue} {b : Before} {k : Core} (h : k.pcs = i.s.pcs.core b.core) : (i.setCore b k).s.pcs = i.s.pcs :=
  State.pcs_setCore h

@[simp] theorem Issue.pcs_fly (i : Issue) (b1 a2 c : Nat) (d : LandDest) (v : Nat) (mask : BitVec 128) :
    (i.fly b1 a2 c d v mask).s.pcs = i.s.pcs := rfl

@[simp] theorem Issue.pcs_result (i : Issue) (c : Nat) (k : KOp) (w v : Nat) : (i.result c k w v).s.pcs = i.s.pcs := rfl

@[simp] theorem Issue.pcs_take (i : Issue) (m : Move) (c u : Nat) (r : KRes) : (i.take m c u r).s.pcs = i.s.pcs := rfl

/-- A run of steps of an issue that each leave the pcs alone. -/
theorem Issue.pcs_foldl {α : Type} {f : Issue → α → Issue} (h : ∀ i a, (f i a).s.pcs = i.s.pcs) (l : List α) (i : Issue) :
    (l.foldl f i).s.pcs = i.s.pcs := by
  induction l generalizing i with
  | nil => rfl
  | cons a t ih => rw [List.foldl_cons, ih, h]

@[simp] theorem Issue.pcs_pop (i : Issue) (b : Before) (m : Move) (c idx : Nat) : (i.pop b m c idx).1.s.pcs = i.s.pcs := by
  unfold Issue.pop
  dsimp only
  split
  · rfl
  · dsimp only
    split <;> rfl

@[simp] theorem Issue.pcs_push (i : Issue) (b : Before) (m : Move) (c idx v : Nat) (popped : Bool) :
    (i.push b m c idx v popped).s.pcs = i.s.pcs := by
  unfold Issue.push
  dsimp only
  split
  · rfl
  · split
    · rfl
    · split
      · rfl
      · exact Issue.pcs_setCore (pcs_pushBytes ..)

@[simp] theorem Issue.pcs_deliver (i : Issue) (b : Before) (m : Move) (c v : Nat) (popped : Bool) :
    (i.deliver b m c v popped).s.pcs = i.s.pcs := by
  unfold Issue.deliver
  dsimp only
  split
  · exact Issue.pcs_foldl (fun _ _ => by simp) _ _
  · split <;> rfl
  · split <;> rfl
  · split <;> rfl
  · split <;> simp
  · rfl

@[simp] theorem Issue.pcs_readMove (b : Before) (m : Move) (r : Issue × AMap Nat) (c : Nat) :
    (Issue.readMove b m r c).1.s.pcs = r.1.s.pcs := by
  have hi := Issue.pcs_trapIf (b.x.sourceBad c m = true) r.1 m c 0x1B 0
  unfold Issue.readMove
  dsimp only
  generalize (if b.x.sourceBad c m then r.1.trap m c 0x1B 0 else r.1) = i at hi ⊢
  split
  · next idx hsrc =>
    split
    · rfl
    · have hp := i.pcs_pop b m c idx
      split
      · next h => rw [h] at hp; exact hp.trans hi
      · next h => rw [h] at hp; rw [Issue.pcs_deliver]; exact hp.trans hi
  · rw [Issue.pcs_deliver]; exact hi

@[simp] theorem Issue.pcs_readAll (i : Issue) (b : Before) (ms : List Move) : (i.readAll b ms).1.s.pcs = i.s.pcs := by
  unfold Issue.readAll
  refine List.foldlRecOn (motive := fun r : Issue × AMap Nat => r.1.s.pcs = i.s.pcs) ms _ rfl fun r hr m _ => ?_
  exact List.foldlRecOn (motive := fun q : Issue × AMap Nat => q.1.s.pcs = i.s.pcs) b.x.cids _ hr fun q hq c _ =>
    (Issue.pcs_readMove b m q c).trans hq

@[simp] theorem Issue.pcs_operands (i : Issue) (b : Before) (ms : List Move) (vals : AMap Nat) : (i.operands b ms vals).s.pcs = i.s.pcs := by
  refine Issue.pcs_foldl (fun i m => ?_) _ _
  split
  · refine Issue.pcs_foldl (fun i c => ?_) _ _
    split
    · split <;> rfl
    · rfl
  · rfl

@[simp] theorem Issue.pcs_bru (i : Issue) (b : Before) (m : Move) (k : KOp) (e : KEnv) : (i.bru b m k e).s.pcs = i.s.pcs := by
  unfold Issue.bru
  dsimp only
  split
  · rfl
  · split
    · rfl
    · generalize hi : (if (decide (4 ≤ k.op) && decide (k.op ≤ 7) && (b.x.lc.get (k.op - 4) 0).toNat != 0) = true then
          i.fly 1 1 0 (.lc (k.op - 4)) ((b.x.lc.get (k.op - 4) 0).toNat - 1) (BitVec.allOnes 128) else i) = j
      have hj : j.s.pcs = i.s.pcs := by rw [← hi]; split <;> rfl
      rw [← hj]
      (repeat' split) <;> rfl

@[simp] theorem pcs_accAdd (k : Core) (t : ET) (rm : RMode) (sat : Bool) (off : Nat) (ds : List (Nat × Word32)) :
    (accAdd k t rm sat off ds).pcs = k.pcs := Core.pcs_foldl (fun _ _ => by simp) _ _

theorem Issue.pcs_setCore_touch {i : Issue} {b : Before} {w n : Nat} {k : Core} (h : (i.core b).touch w n = .ok k) :
    (i.setCore b k).s.pcs = i.s.pcs := Issue.pcs_setCore (Core.pcs_touch h)

@[simp] theorem Issue.pcs_accp (i : Issue) (b : Before) (m : Move) (k : KOp) (e : KEnv) : (i.accp b m k e).s.pcs = i.s.pcs := by
  unfold Issue.accp
  dsimp only
  repeat' split
  any_goals rfl
  all_goals simp [Issue.pcs_setCore_touch ‹_›]

@[simp] theorem Issue.pcs_global (i : Issue) (b : Before) (m : Move) (c : Nat) (need : Need) (kind : SrfxKind) (va : Word) (n cls : Nat)
    (flag : Option Nat) : (i.global b m c need kind va n cls flag).s.pcs = i.s.pcs := by
  unfold Issue.global
  dsimp only
  split
  · rfl
  · split <;> simp

@[simp] theorem Issue.pcs_srfx (i : Issue) (b : Before) (m : Move) (k : KOp) (e : KEnv) : (i.srfx b m k e).s.pcs = i.s.pcs := by
  unfold Issue.srfx
  dsimp only
  split
  · split
    · rfl
    · split <;> rfl
  · split <;> simp
  · split <;> simp
  · simp

@[simp] theorem Issue.pcs_spl (i : Issue) (b : Before) (m : Move) (k : KOp) (e : KEnv) : (i.spl b m k e).s.pcs = i.s.pcs := by
  unfold Issue.spl
  dsimp only
  split
  · rfl
  · split
    · rfl
    · exact Issue.pcs_setCore (by simp)
  · (repeat' split) <;> simp
  · split <;> simp

@[simp] theorem Issue.pcs_syn (i : Issue) (b : Before) (m : Move) (k : KOp) (e : KEnv) : (i.syn b m k e).s.pcs = i.s.pcs := by
  unfold Issue.syn
  dsimp only
  split
  · rfl
  · rfl
  · exact Issue.pcs_foldl (fun _ _ => by simp) _ _
  · exact Issue.pcs_foldl (fun _ _ => by simp) _ _
  · split
    · rfl
    · split
      · rfl
      · next h => exact State.pcs_addSem h
  · split <;> rfl
  · split
    · rfl
    · split
      · rfl
      · split <;> simp

@[simp] theorem Issue.pcs_triggerIn (b : Before) (m : Move) (k : KOp) (ts : List (Option Nat)) (i : Issue) (c t : Nat) :
    (Issue.triggerIn b m k ts i c t).s.pcs = i.s.pcs := by
  unfold Issue.triggerIn
  dsimp only
  split <;> simp

@[simp] theorem Issue.pcs_triggers (i : Issue) (b : Before) (ms : List Move) (vals : AMap Nat) : (i.triggers b ms vals).s.pcs = i.s.pcs := by
  refine Issue.pcs_foldl (fun i m => ?_) _ _
  split
  · next u hu =>
    dsimp only
    split
    · split
      · next t l hts =>
        split <;> simp
      · rfl
    · have hi (ts : List (Option Nat)) : ((indexed 0 ts).foldl (fun (i : Issue) (e : Nat × Option Nat) => match e.2 with
          | some t => Issue.triggerIn b m (m.slot.kop u) (b.x.cids.map fun c => if b.x.on c m.slot then vals.find? (8 * m.pos + c) else none) i e.1 t
          | none => i) i).s.pcs = i.s.pcs := Issue.pcs_foldl (fun i e => by split <;> simp) _ _
      split
      · exact hi _
      · exact hi _
  · rfl

@[simp] theorem Core.pcs_setCtx (k : Core) (x : Context) : (k.setCtx x).pcs = k.pcs := by
  simp [Core.setCtx]

@[simp] theorem State.pcs_setCtx (s : State) (core : Nat) (x : Context) : (s.setCtx core x).pcs = s.pcs := by
  simp [State.setCtx]

@[simp] theorem State.pcs_freezeTrap (s : State) (core : Nat) (x : Context) (t : KTrap) : (s.freezeTrap core x t).pcs = s.pcs := by
  unfold State.freezeTrap
  dsimp only
  (repeat' split) <;> simp

@[simp] theorem State.pcs_issueBundle (s : State) (core : Nat) (x : Context) (bd : Bundle) : (s.issueBundle core x bd).pcs = s.pcs := by
  unfold State.issueBundle
  dsimp only
  split
  · exact State.pcs_freezeTrap ..
  · rw [State.pcs_setCtx]
    split
    · rfl
    · simp

theorem State.keeps_readLaunch (s : State) (core : Nat) (c : Cmd) : (s.readLaunch core c).Keeps s.pcs := by
  unfold State.readLaunch
  split
  · rfl
  · split
    · trivial
    · split
      · trivial
      · trivial
      · trivial
      · next h => exact State.pcs_gRead h

theorem State.keeps_bindOuts {s : State} {bay bent uid : Nat} {outs : List Binding} {k : State → List Binding → Started} {c : Cmd} {v : Pcs}
    (hs : s.pcs = v) (hk : ∀ t l, t.pcs = v → (k t l).Keeps v) : (s.bindOuts bay bent uid outs k c).Keeps v := by
  induction outs generalizing s k with
  | nil => exact hk _ _ hs
  | cons o t ih =>
    unfold State.bindOuts
    dsimp only
    split
    · exact ih hs fun u l hu => hk _ _ hu
    · split
      · trivial
      · trivial
      · trivial
      · next h => exact ih ((State.pcs_bindRecord h).trans hs) fun u l hu => hk _ _ hu

@[simp] theorem State.pcs_ageContexts (s : State) (dclk : Nat) : (s.ageContexts dclk).pcs = s.pcs := by
  unfold State.ageContexts
  exact Pcs.of_mapCores _ fun e => by split <;> simp

@[simp] theorem State.pcs_srfxUnit (s : State) (core : Nat) (o : SrfxOp) (p : SrfxPart) : (s.srfxUnit core o p).1.pcs = s.pcs := by
  unfold State.srfxUnit
  split <;> simp

@[simp] theorem State.pcs_srfxPerform (s : State) (core : Nat) (x : Context) (n : Nat) (o : SrfxOp) :
    (s.srfxPerform core x n o).pcs = s.pcs := by
  have hr (l : List SrfxPart) : (l.foldl (fun (r : State × SrfxOp) p => r.1.srfxUnit core r.2 p) ({ s with free := s.free + 1 }, o)).1.pcs = s.pcs :=
    List.foldlRecOn (motive := fun r : State × SrfxOp => r.1.pcs = s.pcs) l _ rfl fun r hr p _ => (r.1.pcs_srfxUnit core r.2 p).trans hr
  unfold State.srfxPerform
  dsimp only
  split
  · rw [State.pcs_setCtx, hr]
  · split <;> rw [State.pcs_setCtx, hr]

@[simp] theorem State.pcs_stopCtx (s : State) (core : Nat) (x : Context) : (s.stopCtx core x).pcs = s.pcs := by
  unfold State.stopCtx
  (repeat' split) <;> simp

end Sys2Proof.Machine
end

section
/-! SUPPORT for O57. The jig and the sills leave the pcs alone. -/

namespace Sys2Proof.Machine
open Sys2Proof Sys2Proof.Claims

@[simp] theorem State.pcs_setSession (s : State) (x : Session) : (s.setSession x).pcs = s.pcs := by
  simp [State.setSession]

@[simp] theorem State.pcs_sendOn (s : State) (x : Session) (typ status : Nat) (body : List Byte) : (s.sendOn x typ status body).pcs = s.pcs := by
  simp [State.sendOn]

@[simp] theorem State.pcs_reportMismatch (s : State) (b : Nat) (recAddr : Word) : (s.reportMismatch b recAddr).pcs = s.pcs := by
  unfold State.reportMismatch
  split <;> simp [State.pcs_foldl]

theorem Core.pcs_seatCmd {k q : Core} {c : Cmd} {bwd : Bool} (h : k.seatCmd c bwd = .ok q) : q.pcs = k.pcs := by
  unfold Core.seatCmd at h
  dsimp only at h
  (repeat' split at h) <;> cases h
  simp

theorem Core.pcs_unseatCmd {k q : Core} {c : Cmd} (h : k.unseatCmd c = .ok q) : q.pcs = k.pcs := by
  unfold Core.unseatCmd at h
  dsimp only at h
  split at h <;> cases h
  simp

theorem Core.pcs_finSetCmd {k q : Core} {c : Cmd} (h : k.finSetCmd c = .ok q) : q.pcs = k.pcs := by
  unfold Core.finSetCmd at h
  split at h <;> cases h
  simp

theorem State.keeps_jigScale {s : State} {j : Jig} {c : Cmd} {k : State → Cmd → Started}
    (hk : ∀ t d, t.pcs = s.pcs → (k t d).Keeps s.pcs) : (s.jigScale j c k).Keeps s.pcs := by
  unfold State.jigScale
  dsimp only
  split
  · exact hk _ _ rfl
  · split
    · trivial
    · split
      · trivial
      · trivial
      · trivial
      · next h =>
        repeat' split
        any_goals exact Started.keeps_fault ..
        all_goals exact hk _ _ (State.pcs_gReadAs h)

theorem State.keeps_startJig (s : State) (core : Nat) (c : Cmd) : (s.startJig core c).Keeps s.pcs := by
  unfold State.startJig
  dsimp only
  split
  · trivial
  · split
    · rfl
    · exact State.keeps_jigScale fun t d ht => State.keeps_bindCmd ht fun u e hu => hu

@[simp] theorem Core.pcs_showRun (k : Core) (j : Jig) (step : Nat) : (k.showRun j step).pcs = k.pcs := by
  simp [Core.showRun]

@[simp] theorem State.pcs_retireColumn (s : State) (core u bent : Nat) : (s.retireColumn core u bent).pcs = s.pcs := by
  simp [State.retireColumn]

@[simp] theorem State.pcs_residueLost (s : State) (core : Nat) (c : Cmd) : (s.residueLost core c).pcs = s.pcs := by
  simp [State.residueLost]

@[simp] theorem State.pcs_stopRun (s : State) (core : Nat) (j : Jig) (code step : Nat) (addr : Word) :
    (s.stopRun core j code step addr).pcs = s.pcs := by
  simp [State.stopRun]

@[simp] theorem State.pcs_commitStep (s : State) (core : Nat) (j : Jig) (p : StepAt) (es : List CElem) (c : Cmd) (outs : List
    (Nat × Bool)) (ov : Nat) : (s.commitStep core j p es c outs ov).pcs = s.pcs := by
  unfold State.commitStep
  refine State.pcs_setCore ?_
  rw [Core.pcs_showRun, Core.pcs_setEntry, Core.pcs_foldl (fun k o => by simp), Core.pcs_foldl (fun k e => by split <;> simp), State.core_pcs]

@[simp] theorem State.pcs_jigStep (s : State) (core : Nat) (c : Cmd) (res : ResidueCheck) : (s.jigStep core c res).pcs = s.pcs := by
  unfold State.jigStep
  dsimp only
  split
  · simp
  · split
    · simp
    · next k hk =>
      have hs : (s.setCore core k).pcs = s.pcs := by
        refine State.pcs_setCore ?_
        split at hk
        · exact Core.pcs_touch hk
        · cases hk; rfl
      generalize s.setCore core k = t at hs ⊢
      (repeat' split) <;> simp [hs]

theorem State.keeps_startSillLoad (s : State) (core : Nat) (c : Cmd) : (s.startSillLoad core c).Keeps s.pcs := by
  unfold State.startSillLoad
  dsimp only
  split
  · rfl
  · split
    · trivial
    · split
      · trivial
      · trivial
      · trivial
      · split
        · trivial
        · split
          · trivial
          · trivial
          · trivial
          · split
            · trivial
            · split
              · trivial
              · split
                · trivial
                · simp

theorem State.holds_sillLoadElem (s : State) (c : Cmd) : (s.sillLoadElem c).Holds (fun r => r.1.pcs = s.pcs) := by
  unfold State.sillLoadElem
  dsimp only
  split
  · trivial
  · rfl

theorem State.keeps_startSillGo (s : State) (core : Nat) (c : Cmd) : (s.startSillGo core c).Keeps s.pcs := by
  unfold State.startSillGo
  split
  · trivial
  · rfl

theorem State.holds_sillGoElem (s : State) (core : Nat) (c : Cmd) : (s.sillGoElem core c).Holds (fun r => r.1.pcs = s.pcs) := by
  unfold State.sillGoElem
  dsimp only
  split
  · trivial
  · split
    · split <;> rfl
    · rfl

@[simp] theorem State.pcs_disarm (s : State) (c : Cmd) : (s.disarm c).pcs = s.pcs := by
  unfold State.disarm
  simp [State.pcs_foldl]

@[simp] theorem State.pcs_stopSill (s : State) (ch code : Nat) (addr : Word) : (s.stopSill ch code addr).pcs = s.pcs := by
  unfold State.stopSill
  dsimp only
  split <;> simp

theorem State.pcs_sillLoc {s t : State} {ch va : Nat} {need : Need} {l : Loc} (h : s.sillLoc ch va need = .ok (t, l)) : t.pcs = s.pcs := by
  unfold State.sillLoc at h
  dsimp only at h
  split at h
  · cases h; rfl
  · split at h <;> cases h
    rfl

/-- The state that an access of a channel leaves. -/
def SillAcc.state : SillAcc → State
  | .ok t _ => t
  | .stop t => t
  | .wait t => t

@[simp] theorem State.pcs_sillAccess (s : State) (ch va off n : Nat) (need : Need) (own : Bool) :
    (s.sillAccess ch va off n need own).state.pcs = s.pcs := by
  unfold State.sillAccess
  dsimp only
  split
  · simp [SillAcc.state]
  · next t l h =>
    have ht := State.pcs_sillLoc h
    (repeat' split) <;> simp [SillAcc.state, ht]

theorem State.pcs_sweepMerge {s t : State} {ch : Nat} {u : Sill} (h : s.sweepMerge ch u = .ok t) : t.pcs = s.pcs := by
  unfold State.sweepMerge at h
  split at h
  · cases h; rfl
  · exact State.pcs_issueMerge h

end Sys2Proof.Machine
end

section
/-! SUPPORT for O57. The command engine, the save area and images leave the pcs alone. -/

namespace Sys2Proof.Machine
open Sys2Proof Sys2Proof.Claims

theorem Core.pcs_sallocCmd {k q : Core} {c : Cmd} {sp : LocalSpace} (h : k.sallocCmd c sp = .ok q) : q.pcs = k.pcs := by
  unfold Core.sallocCmd at h
  dsimp only at h
  split at h <;> cases h
  simp

theorem Core.pcs_sfreeCmd {k q : Core} {c : Cmd} {sp : LocalSpace} (h : k.sfreeCmd c sp = .ok q) : q.pcs = k.pcs := by
  unfold Core.sfreeCmd at h
  dsimp only at h
  (repeat' split at h) <;> cases h
  simp

theorem Core.pcs_sbankCmd {k q : Core} {c : Cmd} {b : Nat} (h : k.sbankCmd c b = .ok q) : q.pcs = k.pcs := by
  unfold Core.sbankCmd at h
  dsimp only at h
  split at h <;> cases h
  simp

theorem Core.pcs_adminCmd {k q : Core} {c : Cmd} (h : k.adminCmd c = .ok q) : q.pcs = k.pcs := by
  unfold Core.adminCmd at h
  split at h
  · exact Core.pcs_sallocCmd h
  · exact Core.pcs_sfreeCmd h
  · exact Core.pcs_sbankCmd h
  · exact Core.pcs_seatCmd h
  · exact Core.pcs_unseatCmd h
  · exact Core.pcs_finSetCmd h
  · cases h; rfl

@[simp] theorem State.pcs_putCmd (s : State) (core : Nat) (c : Cmd) : (s.putCmd core c).pcs = s.pcs := by
  simp [State.putCmd]

theorem State.keeps_cmdChecks (s : State) (core : Nat) (c : Cmd) : (s.cmdChecks core c).Keeps s.pcs := by
  unfold State.cmdChecks
  split
  · split
    · trivial
    · rfl
  · exact s.keeps_startColl core c
  · exact s.keeps_startAbort core c
  · exact s.keeps_startSillLoad core c
  · exact s.keeps_startSillGo core c
  · split
    · exact s.keeps_startData core c
    · rfl

theorem State.holds_cmdElem (s : State) (core : Nat) (c : Cmd) : (s.cmdElem core c).Holds (fun r => r.1.pcs = s.pcs) := by
  unfold State.cmdElem
  split
  · exact s.holds_collElemStep core c
  · exact s.holds_abortElem c
  · exact s.holds_sillLoadElem c
  · exact s.holds_sillGoElem core c
  · split
    · exact s.holds_dataElem core c
    · split
      · trivial
      · next h => exact State.pcs_setCore ((Core.pcs_adminCmd h).trans (by simp))

theorem State.pcs_saveGet {s : State} {b off n : Nat} {r : State × List Byte} (h : s.saveGet b off n = some r) : r.1.pcs = s.pcs := by
  unfold State.saveGet at h
  split at h
  · cases h
  · split at h <;> cases h
    next h => exact State.pcs_gRead h

theorem State.pcs_savePut {s t : State} {b off : Nat} {d : List Byte} (h : s.savePut b off d = some t) : t.pcs = s.pcs := by
  unfold State.savePut at h
  split at h
  · cases h
  · split at h <;> cases h
    next h => exact State.pcs_gWrite h

theorem State.pcs_saveHeader {s : State} {b : Nat} {r : State × SaveHeader} (h : s.saveHeader b = some r) : r.1.pcs = s.pcs := by
  unfold State.saveHeader at h
  obtain ⟨q, hq, rfl⟩ := Option.map_eq_some_iff.mp h
  exact State.pcs_saveGet hq

theorem State.pcs_saveMarked {s t : State} {b off : Nat} {d : List Byte} {bad : Nat → Bool} (h : s.saveMarked b off d bad = some t) :
    t.pcs = s.pcs := by
  unfold State.saveMarked at h
  obtain ⟨ls, -, rfl⟩ := Option.map_eq_some_iff.mp h
  simp

theorem State.pcs_spillWindow {s t : State} {core w owner : Nat} (h : s.spillWindow core w owner = some t) : t.pcs = s.pcs := by
  unfold State.spillWindow at h
  split at h
  · cases h
  · next s1 hd h1 =>
    split at h
    · obtain ⟨s3, h3, rfl⟩ := Option.map_eq_some_iff.mp h
      obtain ⟨s2, h2, h3⟩ := Option.bind_eq_some_iff.mp h3
      have h3 := (State.pcs_savePut h3).trans ((State.pcs_saveMarked h2).trans (State.pcs_saveHeader h1))
      exact Eq.trans (State.pcs_modBent fun _ => by rfl) h3
    · cases h

theorem State.pcs_spillAll {s t : State} {core b : Nat} {l : List Nat} (h : s.spillAll core b l = some t) : t.pcs = s.pcs := by
  induction l generalizing s with
  | nil => cases h; rfl
  | cons w l ih =>
    obtain ⟨u, hu, h⟩ := Option.bind_eq_some_iff.mp h
    rw [ih h, State.pcs_spillWindow hu]

theorem State.pcs_loadWindow {s t : State} {core old w b : Nat} (h : s.loadWindow core old w b = some t) : t.pcs = s.pcs := by
  unfold State.loadWindow at h
  dsimp only at h
  split at h
  · cases h; simp
  · split at h
    · cases h
    · split at h <;> cases h
      next h =>
      have hs := State.pcs_savePut h
      simp only [State.pcs_modBent, State.pcs_readParts, implies_true] at hs
      simp [hs]

@[simp] theorem State.pcs_handOver (s : State) (core w b : Nat) : (s.handOver core w b).1.pcs = s.pcs := by
  have spilled (q : Bool) (n : Nat) : (if q = true then s else match s.spillWindow core w n with
      | some t => t
      | none => s.killBent n 0x0B 0).pcs = s.pcs := by
    split
    · rfl
    · split
      · next h => exact State.pcs_spillWindow h
      · simp
  unfold State.handOver
  dsimp only
  split
  · simp
  · split
    · next h => exact (State.pcs_loadWindow h).trans (spilled _ _)
    · exact (State.pcs_killBent ..).trans (spilled _ _)

@[simp] theorem Core.pcs_freeFrame (k : Core) (id : Nat) (f : CoreFrame) : (k.freeFrame id f).pcs = k.pcs := by
  simp [Core.freeFrame]

theorem Core.pcs_putCtxs {k q : Core} {f : CoreFrame} {l : List Context} (h : k.putCtxs f l = some q) : q.pcs = k.pcs := by
  induction l generalizing k with
  | nil => cases h; rfl
  | cons x t ih =>
    unfold Core.putCtxs at h
    split at h
    · cases h
    · exact (ih h).trans (by simp)

@[simp] theorem Core.pcs_putFrame (k : Core) (f : CoreFrame) : (k.putFrame f).pcs = k.pcs := by
  have placed (k : Core) (l : List Context) : ((k.putCtxs f l).getD k).pcs = k.pcs := by
    cases h : k.putCtxs f l with
    | none => rfl
    | some q => exact Core.pcs_putCtxs h
  unfold Core.putFrame
  dsimp only
  refine Eq.trans (placed ..) ?_
  split <;> simp

@[simp] theorem State.pcs_putWindows (s : State) (core b : Nat) (l : List (Nat × Nat)) : (s.putWindows core b l).pcs = s.pcs := by
  induction l generalizing s with
  | nil => rfl
  | cons e t ih =>
    unfold State.putWindows
    dsimp only
    split
    · simp
    · split
      · next h => rw [ih, State.pcs_loadWindow h, State.pcs_handOver]
      · simp

theorem State.pcs_saveCore {s t : State} {b off : Nat} {f : CoreFrame} (h : s.saveCore b off f = some t) : t.pcs = s.pcs :=
  (State.pcs_saveMarked h).trans (by simp)

@[simp] theorem State.pcs_loadInto (s : State) (b off : Nat) (compat : Bool) (bundles map : List Byte) :
    (s.loadInto b off compat bundles map).pcs = s.pcs := by
  unfold State.loadInto
  refine (State.pcs_mapCores fun _ => ?_).trans (State.pcs_modBent fun _ => ?_)
  · exact ⟨rfl, rfl⟩
  · rfl

@[simp] theorem State.pcs_loadNative (s : State) (b : Nat) (d : List Byte) : (s.loadNative b d).s.pcs = s.pcs := by
  unfold State.loadNative
  (repeat' split) <;> simp

theorem State.pcs_loadForm {s : State} {b : Nat} {d : List Byte} {out : Word} {n : Nat} {l : Loaded} (h : s.loadForm b d out n = some l) :
    l.s.pcs = s.pcs := by
  unfold State.loadForm at h
  dsimp only at h
  repeat' split at h
  all_goals cases h
  any_goals rfl
  · next h => simp [State.pcs_gWrite h]
  · simp

@[simp] theorem State.pcs_clearUnder (s : State) (slot pa n : Nat) : (s.clearUnder slot pa n).pcs = s.pcs := by
  simp [State.clearUnder]

@[simp] theorem State.pcs_mapQuota (s : State) (at_ base quota key : Nat) : (s.mapQuota at_ base quota key).pcs = s.pcs := by
  unfold State.mapQuota
  simp [State.pcs_foldl]

@[simp] theorem State.pcs_flushICaches (s : State) : (s.flushICaches).pcs = s.pcs := by
  unfold State.flushICaches
  exact Pcs.of_mapCores _ fun e => by simp

@[simp] theorem State.pcs_poisonUnit (s : State) (pa : Nat) : (s.poisonUnit pa).pcs = s.pcs := by
  unfold State.poisonUnit
  split <;> simp

@[simp] theorem State.pcs_countPoison (s : State) : (s.countPoison).pcs = s.pcs := by
  simp [State.countPoison]

@[simp] theorem State.pcs_poisonCluster (s : State) (core uid cid : Nat) (f : CtxCluster → CtxCluster) :
    (s.poisonCluster core uid cid f).pcs = s.pcs := by
  unfold State.poisonCluster
  dsimp only
  (repeat' split) <;> simp

@[simp] theorem State.pcs_storageError (s : State) (u : StorageUnit) : (s.storageError u).pcs = s.pcs := by
  unfold State.storageError
  cases u with
  | buffer core sp u => cases sp <;> dsimp only <;> (repeat' split) <;> simp
  | scaleRows core u => dsimp only; split <;> simp
  | l2 bay line u => dsimp only; (repeat' split) <;> simp
  | _ => simp

@[simp] theorem State.pcs_ecc (s : State) (pa : Nat) (e : EccCheck) : (s.ecc pa e).pcs = s.pcs := by
  unfold State.ecc
  split <;> simp

end Sys2Proof.Machine
end

section
/-! SUPPORT for O57. The fabric, host frames, bring-up and a turn leave the pcs alone, but for the blank state. -/

namespace Sys2Proof.Machine
open Sys2Proof Sys2Proof.Claims

theorem State.pcs_sendFabric {s t : State} {p : FabricPacket} (h : s.sendFabric p = some t) : t.pcs = s.pcs := by
  unfold State.sendFabric at h
  split at h <;> cases h
  simp

/-- What the home of a packet comes to leaves the pcs at `v`, where it is done. -/
def Homed.Keeps (v : Pcs) : Homed → Prop
  | .done t _ => t.pcs = v
  | _ => True

theorem State.keeps_atHome {s : State} {p : FabricPacket} {pa n : Nat} {reads : Bool} {k : Loc → State × FabricBody}
    (hk : ∀ l, (k l).1.pcs = s.pcs) : (s.atHome p pa n reads k).Keeps s.pcs := by
  unfold State.atHome
  dsimp only
  split
  · rfl
  · split
    · trivial
    · split
      · rfl
      · exact hk _

theorem State.keeps_performPacket (s : State) (p : FabricPacket) : (s.performPacket p).Keeps s.pcs := by
  unfold State.performPacket
  split
  case h_4 => exact State.keeps_atHome fun l => by dsimp only; split <;> simp
  case h_10 => exact State.pcs_holdMessage ..
  all_goals first
    | rfl
    | exact State.keeps_atHome fun l => by simp

theorem pcs_sendAll {s t : State} {l : List FabricPacket} (h : sendAll s l = some t) : t.pcs = s.pcs := by
  induction l generalizing s with
  | nil => cases h; rfl
  | cons p l ih =>
    obtain ⟨u, hu, h⟩ := Option.bind_eq_some_iff.mp h
    rw [ih h, State.pcs_sendFabric hu]

theorem State.pcs_forward {s t : State} {p : FabricPacket} (h : s.forward p = some t) : t.pcs = s.pcs := by
  unfold State.forward at h
  obtain ⟨u, hu, h⟩ := Option.bind_eq_some_iff.mp h
  replace hu : u.pcs = s.pcs := (pcs_sendAll hu).trans (by simp)
  split at h
  · cases h
    exact hu
  · exact (State.pcs_sendFabric h).trans hu

@[simp] theorem State.pcs_putRoce (s : State) (port : Nat) (qpn : BitVec 24) (q : QueuePair) (header sealedData : List Byte) :
    (s.putRoce port qpn q header sealedData).pcs = s.pcs := by
  unfold State.putRoce
  split <;> simp

@[simp] theorem State.pcs_sendRoce (s : State) (port : Nat) (qpn : BitVec 24) (ext : Nat) (header data : List Byte) :
    (s.sendRoce port qpn ext header data).pcs = s.pcs := by
  unfold State.sendRoce
  split <;> simp

@[simp] theorem State.pcs_cnp (s : State) (p : RocePacket) (ext : Nat) : (s.cnp p ext).pcs = s.pcs := by
  unfold State.cnp
  (repeat' split) <;> simp

@[simp] theorem State.pcs_readAnswers (s : State) (p : RocePacket) (ext msn n f : Nat) (d : List Byte) :
    (s.readAnswers p ext msn n f d).pcs = s.pcs := by
  induction f generalizing s d with
  | zero => rfl
  | succ f ih => simp [State.readAnswers, ih]

@[simp] theorem State.pcs_measureTemps (s : State) (temps : List Int) : (s.measureTemps temps).pcs = s.pcs := by
  unfold State.measureTemps
  simp [State.pcs_foldl]

@[simp] theorem State.pcs_fatal (s : State) (cause : Nat) : (s.fatal cause).pcs = s.pcs := by
  unfold State.fatal
  simp [State.pcs_foldl]

@[simp] theorem State.pcs_bringUp (s : State) (b : BringUp) (dump : Option Dump) : (s.bringUp b dump).pcs = s.blank.pcs := by
  simp only [State.bringUp, State.pcs_mk, Pcs.of_fields]

@[simp] theorem State.pcs_blank (s : State) : s.blank.pcs = State.reset.pcs := by
  simp only [State.blank, State.pcs_mk, Pcs.of_fields]

@[simp] theorem State.pcs_countDispatch (s : State) (b : Nat) : (s.countDispatch b).pcs = s.pcs := by
  simp [State.countDispatch]

theorem State.pcs_framesOf {s : State} {p : Peg} {r : State × List Byte × Nat} (h : s.framesOf p = some r) : r.1.pcs = s.pcs := by
  unfold State.framesOf at h
  split at h
  · next s1 hd _ h1 =>
    obtain ⟨q, hq, h⟩ := Option.bind_eq_some_iff.mp h
    replace hq : q.1.pcs = s.pcs := (State.pcs_saveGet hq).trans (State.pcs_saveHeader h1)
    split at h
    · cases h
      exact hq
    · obtain ⟨u, hu, rfl⟩ := Option.map_eq_some_iff.mp h
      exact (State.pcs_saveGet hu).trans hq
  · cases h

@[simp] theorem Core.pcs_resumeCtx (k : Core) (n : BitVec 32) (thr : Option Nat) : (k.resumeCtx n thr).pcs = k.pcs := by
  unfold Core.resumeCtx
  dsimp only
  (repeat' split) <;> rfl

@[simp] theorem Core.pcs_resumeCmd (k : Core) (n : BitVec 32) (thr : Option Nat) : (k.resumeCmd n thr).pcs = k.pcs := by
  unfold Core.resumeCmd
  (repeat' split) <;> rfl

@[simp] theorem State.pcs_dropEntry (s : State) (c : Cmd) (sig : Bool) : (s.dropEntry c sig).pcs = s.pcs := by
  unfold State.dropEntry
  (repeat' split) <;> simp

@[simp] theorem State.pcs_beginTurn (s : State) (t : Turn) : (s.beginTurn t).pcs = s.pcs := by
  simp [State.beginTurn]

end Sys2Proof.Machine
end

section
/-! O57. Aligned pcs, and the answers that keep them: the pc goes on, branches, jumps, traps and returns. -/

namespace Sys2Proof.Machine
open Sys2Proof Sys2Proof.Claims

/-! ## Aligned pcs -/

/-- Every pc, saved pc and handler is a multiple of 4. -/
def Pcs.Aligned (v : Pcs) : Prop :=
  (∀ c, (v.core c).1.toNat % 4 = 0 ∧ (v.core c).2.toNat % 4 = 0) ∧ ∀ w ∈ v.handlers, w.toNat % 4 = 0

theorem pcAligned_iff (s : State) : PcAligned s ↔ s.pcs.Aligned := by
  constructor
  · rintro ⟨hc, hb⟩
    exact ⟨hc, by rintro w ⟨e, he, rfl⟩; exact hb e he⟩
  · rintro ⟨hc, hb⟩
    exact ⟨hc, fun e he => hb _ ⟨e, he, rfl⟩⟩

theorem Pcs.Aligned.pc {s : State} (h : s.pcs.Aligned) (c : Nat) : (s.core c).pc.toNat % 4 = 0 := ((pcAligned_iff s).mpr h).1 c |>.1

theorem Pcs.Aligned.trapPc {s : State} (h : s.pcs.Aligned) (c : Nat) : (s.core c).regs.trapPc.toNat % 4 = 0 :=
  ((pcAligned_iff s).mpr h).1 c |>.2

theorem Pcs.Aligned.handler {s : State} (h : s.pcs.Aligned) {b : Nat} {r : Bent} (hb : s.bents.find? b = some r) : r.hpc.toNat % 4 = 0 :=
  ((pcAligned_iff s).mpr h).2 _ (AMap.find?_mem hb)

theorem Pcs.Aligned.of_eq {v w : Pcs} (h : v.Aligned) (e : w = v) : w.Aligned := e ▸ h

/-- The sum of two multiples of 4. -/
theorem add_aligned {a b : Word} (ha : a.toNat % 4 = 0) (hb : b.toNat % 4 = 0) : (a + b).toNat % 4 = 0 := by
  rw [BitVec.toNat_add]; omega

theorem four_mul_aligned (a : Word) : (4 * a).toNat % 4 = 0 := by
  rw [BitVec.toNat_mul, show (4 : Word).toNat = 4 from rfl]; omega

/-- A word whose two low bits are clear. -/
theorem aligned_of_low {a : Word} (h : a.extractLsb' 0 2 = 0) : a.toNat % 4 = 0 := by
  have := congrArg BitVec.toNat h
  simpa using this

/-- A word under a mask whose two low bits are clear. -/
theorem and_mask_aligned (a : Word) {m : Word} (h : m.extractLsb' 0 2 = 0) : (a &&& m).toNat % 4 = 0 :=
  aligned_of_low (by rw [BitVec.extractLsb'_and, h]; exact BitVec.and_zero)

/-! ## The operations that move pcs and handlers -/

/-- A core that takes an aligned pc and saved pc. -/
theorem Pcs.Aligned.setCore {s : State} (h : s.pcs.Aligned) {c : Nat} {k : Core} (hp : k.pc.toNat % 4 = 0) (ht : k.regs.trapPc.toNat % 4 = 0) :
    (s.setCore c k).pcs.Aligned := by
  refine ⟨fun j => ?_, h.2⟩
  rw [← State.core_pcs]
  by_cases hj : j = c
  · subst hj; simpa using ⟨hp, ht⟩
  · simpa [hj] using h.1 j

theorem Pcs.Aligned.setMe {s : State} (h : s.pcs.Aligned) {k : Core} (hp : k.pc.toNat % 4 = 0) (ht : k.regs.trapPc.toNat % 4 = 0) :
    (s.setMe k).pcs.Aligned := h.setCore hp ht

@[simp] theorem Pcs.Aligned.setPc {s : State} (h : s.pcs.Aligned) {w : Word} (hw : w.toNat % 4 = 0) : (s.setPc w).pcs.Aligned :=
  h.setMe hw (h.trapPc _)

@[simp] theorem Pcs.Aligned.skip {s : State} (h : s.pcs.Aligned) : s.skip.pcs.Aligned :=
  h.setPc (add_aligned (h.pc _) rfl)

@[simp] theorem Pcs.Aligned.returnFromTrap {s : State} (h : s.pcs.Aligned) : s.returnFromTrap.pcs.Aligned :=
  h.setMe (h.trapPc _) (h.trapPc _)

theorem Pcs.Aligned.deliver {s : State} (h : s.pcs.Aligned) (t : Trap) {w : Word} (hw : w.toNat % 4 = 0) :
    (s.deliver t w).pcs.Aligned := by
  unfold State.deliver
  rw [State.pcs_modBent fun _ => by rfl]
  refine h.setMe ?_ hw
  split
  · next hb => exact h.handler hb
  · rfl

@[simp] theorem Pcs.Aligned.takeTrap {s : State} (h : s.pcs.Aligned) (t : Trap) {w : Word} (hw : w.toNat % 4 = 0) :
    (s.takeTrap t w).pcs.Aligned := by
  unfold State.takeTrap
  split
  · exact h.deliver t hw
  · simpa using h

/-! ## What an answer keeps aligned -/

/-- Where the answer is a state, its pcs are aligned. -/
def KeepsAligned : Result → Prop
  | .next t => t.pcs.Aligned
  | _ => True

@[simp] theorem keepsAligned_next (t : State) : KeepsAligned (.next t) ↔ t.pcs.Aligned := by
  simp only [KeepsAligned]

section
variable {s : State} (h : s.pcs.Aligned)
include h

@[simp] theorem Pcs.Aligned.stay : KeepsAligned s.stay := (keepsAligned_next s).mpr h

@[simp] theorem Pcs.Aligned.retX (r : RegNo) (v : Word) : KeepsAligned (s.retX r v) := by
  simp [State.retX, h]

@[simp] theorem Pcs.Aligned.retF (r : RegNo) (v : Word) : KeepsAligned (s.retF r v) := by
  simp [State.retF, h]

@[simp] theorem Pcs.Aligned.trapWith (code : Nat) (addr info : Word) : KeepsAligned (s.trapWith code addr info) := by
  unfold State.trapWith
  split
  · simpa using h
  · exact (keepsAligned_next _).mpr (h.takeTrap _ (h.pc _))

@[simp] theorem Pcs.Aligned.trap (code : Nat) : KeepsAligned (s.trap code) := h.trapWith ..

@[simp] theorem Pcs.Aligned.trapAt (code : Nat) (va : Word) : KeepsAligned (s.trapAt code va) := h.trapWith ..

@[simp] theorem Pcs.Aligned.awaitAcks (scope : Nat) (mask : BitVec 16) : KeepsAligned (s.awaitAcks scope mask) := by
  unfold State.awaitAcks
  split <;> simp [h]

@[simp] theorem Pcs.Aligned.release {scope : Nat} {mask : BitVec 16} {k : State → Result} (hk : KeepsAligned (k s)) :
    KeepsAligned (s.release scope mask k) := by
  unfold State.release
  split
  · exact h.awaitAcks ..
  · exact hk

@[simp] theorem Pcs.Aligned.ackThen {scope : Nat} {mask : BitVec 16} {k : State → Result} (hk : KeepsAligned (k s)) :
    KeepsAligned (s.ackThen scope mask k) := by
  unfold State.ackThen
  split
  · exact h.awaitAcks ..
  · exact hk

theorem Pcs.Aligned.probe {l : Loc} {n cls : Nat} {need : Need} {reads : Bool} {t : State} (hp : s.probe l n cls need reads = .stall t) :
    t.pcs.Aligned := by
  unfold State.probe at hp
  dsimp only at hp
  (repeat' split at hp) <;> cases hp <;> simp [h]

theorem Pcs.Aligned.withLoc {va : Word} {size align cls : Nat} {need : Need} {reads : Bool} {k : State → Loc → Result}
    (hk : ∀ t l, t.pcs.Aligned → KeepsAligned (k t l)) : KeepsAligned (s.withLoc va size align cls need reads k) := by
  unfold State.withLoc
  split
  · exact h.trapAt ..
  · split
    · exact h.trapAt ..
    · split
      · next hp => exact (h.probe hp).stay
      · exact Pcs.Aligned.trapAt (by simpa using h) ..
      · exact hk _ _ (by simpa using h)

theorem Pcs.Aligned.withRecord {k : State → Loc → Result} (hk : ∀ t l, t.pcs.Aligned → KeepsAligned (k t l)) :
    KeepsAligned (s.withRecord k) := by
  unfold State.withRecord
  split
  · exact h.stay
  · exact h.withLoc hk

@[simp] theorem Pcs.Aligned.suspendAt (l : Loc) (st : PegState) (w : Option Wait) : KeepsAligned (s.suspendAt l st w) :=
  h.release (by simpa using h)

theorem Pcs.Aligned.withScribe {va : Word} {need : Need} {off n : Nat} {k : State → Loc → Result}
    (hk : ∀ t l, t.pcs.Aligned → KeepsAligned (k t l)) : KeepsAligned (s.withScribe va need off n k) :=
  h.withLoc fun t l ht => by
    split
    · exact ht.trapAt ..
    · exact hk t l ht

/-! ## Loads, stores and atomics -/

@[simp] theorem Pcs.Aligned.dataUnits (va : Word) (size : Nat) (need : Need) (cls : BitVec 4) (o : BitVec 2) (us : Units) :
    KeepsAligned (s.dataUnits va size need cls o us) := by
  unfold State.dataUnits
  split
  · exact h.trapAt ..
  · dsimp only
    split
    · exact h.ackThen (by simp [h])
    · simp [h]

@[simp] theorem Pcs.Aligned.dataAccess (va : Word) (size : Nat) (need : Need) (cls : BitVec 4) (o : BitVec 2) (kind : AccessKind) :
    KeepsAligned (s.dataAccess va size need cls o kind) := h.dataUnits ..

@[simp] theorem Pcs.Aligned.load (va : Word) (size : Nat) (cls : BitVec 4) (o : BitVec 2) (d : LoadDest) :
    KeepsAligned (s.load va size cls o d) := h.dataAccess ..

@[simp] theorem Pcs.Aligned.store (va : Word) (size : Nat) (cls : BitVec 4) (o : BitVec 2) (v : Nat) :
    KeepsAligned (s.store va size cls o v) := h.dataAccess ..

theorem Pcs.Aligned.mergeAtomic (op : MergeOp) (va : Word) (size : Nat) (cls : BitVec 4) (o : BitVec 2) (operand : Word) :
    KeepsAligned (s.mergeAtomic op va size cls o operand) := by
  unfold State.mergeAtomic
  split <;> simp [h]

theorem Pcs.Aligned.amo (d a b : RegNo) (p : BitVec 4) (m : BitVec 1) (o : BitVec 2) (c : BitVec 4) (size : Nat) :
    KeepsAligned (s.amo d a b p m o c size) := by
  unfold State.amo
  dsimp only
  split
  · exact h.mergeAtomic ..
  · exact h.dataAccess ..

theorem Pcs.Aligned.compareSwap (d a b : RegNo) (o : BitVec 2) (c : BitVec 4) (size : Nat) :
    KeepsAligned (s.compareSwap d a b o c size) := h.dataAccess ..

/-! ## Branches and jumps -/

theorem Pcs.Aligned.branch (taken : Bool) (o : BitVec 16) : KeepsAligned (s.branch taken o) := by
  refine (keepsAligned_next _).mpr (h.setPc ?_)
  split
  · exact add_aligned (h.pc _) (four_mul_aligned _)
  · exact add_aligned (h.pc _) rfl

theorem Pcs.Aligned.execJ (o : BitVec 26) : KeepsAligned (execJ o s) :=
  (keepsAligned_next _).mpr (h.setPc (add_aligned (h.pc _) (four_mul_aligned _)))

theorem Pcs.Aligned.execJal (o : BitVec 26) : KeepsAligned (execJal o s) :=
  (keepsAligned_next _).mpr (Pcs.Aligned.setPc (by simpa using h) (add_aligned (h.pc _) (four_mul_aligned _)))

theorem Pcs.Aligned.execJalr (d a : RegNo) (i : BitVec 16) : KeepsAligned (execJalr d a i s) := by
  unfold Sys2Proof.Machine.execJalr
  dsimp only
  split
  · exact h.trap _
  · next ht => exact (keepsAligned_next _).mpr (Pcs.Aligned.setPc (by simpa using h) (aligned_of_low (not_not.mp ht)))

end

end Sys2Proof.Machine
end

section
/-! O57. Pegs, the journal and bents keep the pcs aligned. -/

namespace Sys2Proof.Machine
open Sys2Proof Sys2Proof.Claims

/-! ## Pegs -/

/-- A record with a bad handler is refused (R8). -/
theorem hpc_aligned_of_badBent {s : State} {c : Bent} {lo n : Nat} (hb : ¬ s.badBent c lo n = true) : c.hpc.toNat % 4 = 0 := by
  refine aligned_of_low ?_
  simp only [State.badBent, Bool.or_eq_true, not_or, bne_iff_ne, not_not] at hb
  obtain ⟨⟨⟨⟨-, hlow⟩, -⟩, -⟩, -⟩ := hb
  exact hlow

section
variable {s : State} (h : s.pcs.Aligned)
include h

theorem Pcs.Aligned.execJoin : KeepsAligned (execJoin s) :=
  h.withRecord fun _ _ ht => by
    (repeat' split) <;> simp [ht]

theorem Pcs.Aligned.execYield : KeepsAligned (execYield s) := h.withRecord fun _ _ ht => ht.suspendAt ..

theorem Pcs.Aligned.execExit : KeepsAligned (execExit s) :=
  h.withRecord fun _ _ ht => by
    (repeat' split) <;> simp [ht]

theorem Pcs.Aligned.execSpawn (d a : RegNo) : KeepsAligned (execSpawn d a s) :=
  h.withLoc fun t l ht => by
    have hf : (t.fetchLoc (some t.cur) t.myBay l 64).1.pcs.Aligned := by simpa using ht
    dsimp only
    repeat' split
    any_goals exact hf.trap _
    all_goals
      refine hf.release ?_
      repeat' split
      · exact hf.trapAt ..
      · exact hf.stay
      · exact Pcs.Aligned.retX (by simpa using ht) ..

/-- What a peg that a record asks for comes to. -/
theorem Pcs.Aligned.enqueue {caller bay : Nat} {addr : Word} {d : List Byte} {t : State} (he : s.enqueue caller bay addr d = .go t) :
    t.pcs.Aligned := by
  rw [State.pcs_enqueue he]
  exact h

theorem Pcs.Aligned.execEnq (d a : RegNo) : KeepsAligned (execEnq d a s) := by
  unfold Sys2Proof.Machine.execEnq
  dsimp only
  split
  · exact h.trap _
  · refine h.withLoc fun t l ht => ?_
    have hf : (t.fetchLoc (some t.cur) t.myBay l 64).1.pcs.Aligned := by simpa using ht
    split
    · exact hf.retX ..
    · exact hf.trapAt ..
    · refine hf.release ?_
      split
      · next he => exact (hf.enqueue he).retX ..
      · exact hf.retX ..
      · exact hf.trapAt ..

theorem Pcs.Aligned.execWaitingPegReady (id : Nat) : KeepsAligned (execWaitingPegReady id s) := by
  unfold Sys2Proof.Machine.execWaitingPegReady
  dsimp only
  (repeat' split) <;> simp [h]

theorem Pcs.Aligned.execMwaitTimeout (id : Nat) : KeepsAligned (execMwaitTimeout id s) := by
  simp [Sys2Proof.Machine.execMwaitTimeout, h]

theorem Pcs.Aligned.execMonitorLoss (id : Nat) : KeepsAligned (execMonitorLoss id s) := by
  simp [Sys2Proof.Machine.execMonitorLoss, h]

/-! ## The journal -/

theorem Pcs.Aligned.execJrnlRd (a b : RegNo) : KeepsAligned (execJrnlRd a b s) :=
  (keepsAligned_next _).mpr (Pcs.Aligned.setPc (by simpa using h) (add_aligned (h.pc _) rfl))

theorem Pcs.Aligned.journalCmd (c : Cmd) : KeepsAligned (s.journalCmd c) := by
  unfold State.journalCmd
  split
  · exact h.stay
  · exact (keepsAligned_next _).mpr (Pcs.Aligned.setMe (by simpa using h) (add_aligned (h.pc _) rfl) (h.trapPc _))

theorem Pcs.Aligned.execDescLd (c a : BitVec 4) (b : RegNo) : KeepsAligned (execDescLd c a b s) :=
  h.withLoc fun t l ht => (keepsAligned_next _).mpr (Pcs.Aligned.setPc (by simpa using ht) (add_aligned (ht.pc _) rfl))

/-! ## Bents -/

/-- A table of bents whose handlers are aligned. -/
theorem Pcs.Aligned.of_bents {bents : AMap Bent} (hb : ∀ e ∈ bents, e.2.hpc.toNat % 4 = 0) : (Pcs.of s.cores bents).Aligned :=
  ⟨h.1, by rintro w ⟨e, he, rfl⟩; exact hb e he⟩

theorem Pcs.Aligned.addBent (b : Nat) {r : Bent} (hr : r.hpc.toNat % 4 = 0) : (s.addBent b r).pcs.Aligned := by
  unfold State.addBent
  dsimp only
  rw [State.pcs_putBentRecord, State.pcs_foldl fun _ _ => State.pcs_foldl (fun _ _ => by simp) _ _, State.pcs_mk]
  refine h.of_bents fun e he => ?_
  rcases AMap.mem_put he with rfl | he
  · exact hr
  · exact ((pcAligned_iff s).mpr h).2 e he

theorem Pcs.Aligned.endBent (b : Nat) (r : Bent) : (s.endBent b r).pcs.Aligned := by
  have ht : (((s.recordLast b 0x10 0).dropSpills b r).writeBackBent b r).pcs.Aligned := by simpa using h
  unfold State.endBent
  generalize ((s.recordLast b 0x10 0).dropSpills b r).writeBackBent b r = t at ht ⊢
  have hu : (Pcs.of t.cores (t.bents.erase b)).Aligned := by
    refine ht.of_bents fun e he => ?_
    rw [AMap.erase_eq_filter] at he
    exact ((pcAligned_iff t).mpr ht).2 e (List.mem_of_mem_filter he)
  have hc : (Pcs.of (t.cores.map fun e => (e.1, { e.2.clearOwned b (rangeFrom 0 192) with
      frames := e.2.frames.filter (fun f => !(decide (f.bent = b))) })) (t.bents.erase b)).Aligned := by
    refine (congrArg Pcs.Aligned (Pcs.of_mapCores _ fun e => ?_)).mpr hu
    exact ⟨rfl, by simp⟩
  have hd {u : State} (hu : u.pcs.Aligned) : ((rangeFrom 0 4).foldl (fun s j => s.dropEverywhere (.bridge b j)) u).pcs.Aligned := by
    rw [State.pcs_foldl fun _ _ => by simp]
    exact hu
  dsimp only
  generalize hv : (rangeFrom 0 4).foldl _ _ = v
  have hv : v.pcs.Aligned := hv ▸ hd hc
  (repeat' split) <;> simp [hv]

theorem Pcs.Aligned.reapN (n : Nat) : (reapN n s).pcs.Aligned := by
  induction n generalizing s with
  | zero => exact h
  | succ n ih =>
    unfold Sys2Proof.Machine.reapN
    split
    · exact ih (h.endBent ..)
    · exact h

@[simp] theorem Pcs.Aligned.reap : s.reap.pcs.Aligned := h.reapN _

theorem Pcs.Aligned.execBentNew (d a : RegNo) : KeepsAligned (execBentNew d a s) := by
  unfold Sys2Proof.Machine.execBentNew
  split
  · exact h.trap _
  · refine h.withLoc fun t l ht => ?_
    have hf : (t.fetchLoc (some t.cur) t.myBay l 256).1.pcs.Aligned := by simpa using ht
    dsimp only
    split
    · exact hf.stay
    · split
      · exact hf.stay
      · split
        · exact hf.trap _
        · split
          · exact hf.trap _
          · next hb =>
            split
            · exact hf.retX ..
            · split
              · exact hf.retX ..
              · refine Pcs.Aligned.retX (hf.addBent _ ?_) ..
                dsimp only
                exact hpc_aligned_of_badBent hb

theorem Pcs.Aligned.execBentKill (a : RegNo) : KeepsAligned (execBentKill a s) := by
  unfold Sys2Proof.Machine.execBentKill
  dsimp only
  (repeat' split) <;> simp [h]

theorem Pcs.Aligned.execKill (id : Nat) : KeepsAligned (execKill id s) := by
  unfold Sys2Proof.Machine.execKill
  (repeat' split) <;> simp [h]

theorem Pcs.Aligned.execBentRecordWriteback (b : Nat) : KeepsAligned (execBentRecordWriteback b s) := by
  unfold Sys2Proof.Machine.execBentRecordWriteback
  (repeat' split) <;> simp [h]

end

end Sys2Proof.Machine
end

section
/-! O57. Scribe and system instructions, contexts, the jig, the sills and commands keep the pcs aligned. -/

namespace Sys2Proof.Machine
open Sys2Proof Sys2Proof.Claims

/-- A write of a state register keeps TRAP.PC aligned (R109). -/
theorem PegRegs.trapPc_write {r q : PegRegs} {i : Nat} {v : Word} (h : r.write i v = some q) (hr : r.trapPc.toNat % 4 = 0) :
    q.trapPc.toNat % 4 = 0 := by
  unfold PegRegs.write at h
  split at h
  case h_1 | h_4 => cases h; split <;> exact hr
  case h_10 => cases h; exact and_mask_aligned _ rfl
  case h_11 => cases h
  all_goals cases h; exact hr

section
variable {s : State} (h : s.pcs.Aligned)
include h

/-! ## Scribe instructions -/

theorem Pcs.Aligned.execScrbInit (a : RegNo) (t : BitVec 4) : KeepsAligned (execScrbInit a t s) :=
  h.withScribe fun _ _ hu => hu.release (by simp [hu])

theorem Pcs.Aligned.execScrbNext (d a : RegNo) : KeepsAligned (execScrbNext d a s) :=
  h.withScribe fun _ _ hu => hu.release (by simp [hu])

theorem Pcs.Aligned.execScrbRd (d a : RegNo) (w : BitVec 5) : KeepsAligned (execScrbRd d a w s) :=
  h.withScribe fun _ _ hu => by simp [hu]

theorem Pcs.Aligned.qscale (d a : RegNo) (t : BitVec 4) (v : BitVec 1) (w : BitVec 2) (exact : Bool) (m : Nat) :
    KeepsAligned (s.qscale d a t v w exact m) :=
  h.withScribe fun _ _ hu => by
    dsimp only
    split <;> simp [hu]

theorem Pcs.Aligned.execScribeMerge (i : Nat) : KeepsAligned (execScribeMerge i s) := by
  unfold Sys2Proof.Machine.execScribeMerge
  (repeat' split) <;> simp [h]

/-! ## System instructions -/

theorem Pcs.Aligned.execFence (sc : BitVec 3) (o : BitVec 2) (m : BitVec 16) : KeepsAligned (execFence sc o m s) := by
  unfold Sys2Proof.Machine.execFence
  dsimp only
  split <;> simp [h]

theorem Pcs.Aligned.execGets (d : RegNo) (i : BitVec 12) : KeepsAligned (execGets d i s) := by
  unfold Sys2Proof.Machine.execGets
  split <;> simp [h]

theorem Pcs.Aligned.execPuts (a : RegNo) (i : BitVec 12) : KeepsAligned (execPuts a i s) := by
  unfold Sys2Proof.Machine.execPuts
  dsimp only
  split
  · simp [h]
  · cases hw : s.me.regs.write i.toNat (s.getX a) with
    | none => dsimp only; (repeat' split) <;> simp [h]
    | some r =>
      have hr : r.trapPc.toNat % 4 = 0 := PegRegs.trapPc_write hw (h.trapPc _)
      exact (keepsAligned_next _).mpr (Pcs.Aligned.skip (h.setMe (h.pc _) hr))

theorem Pcs.Aligned.execEst (d a : RegNo) (i : BitVec 12) : KeepsAligned (execEst d a i s) := by
  unfold Sys2Proof.Machine.execEst
  dsimp only
  split <;> simp [h]

theorem Pcs.Aligned.execEcall (i : BitVec 12) : KeepsAligned (execEcall i s) := by
  simp [Sys2Proof.Machine.execEcall, h]

theorem Pcs.Aligned.tlbi (va : Option Nat) : KeepsAligned (s.tlbi va) := by
  unfold State.tlbi
  dsimp only
  split <;> simp [h]

theorem Pcs.Aligned.execTlbi (a : RegNo) : KeepsAligned (execTlbi a s) := by
  unfold Sys2Proof.Machine.execTlbi
  dsimp only
  split
  · exact h.trap _
  · split
    · simp [h]
    · exact h.tlbi _

theorem Pcs.Aligned.execTlbiAll : KeepsAligned (execTlbiAll s) := by
  unfold Sys2Proof.Machine.execTlbiAll
  split
  · exact h.tlbi _
  · exact h.trap _

theorem Pcs.Aligned.execIflush : KeepsAligned (execIflush s) := by
  unfold Sys2Proof.Machine.execIflush
  split
  · exact h.stay
  · refine (keepsAligned_next _).mpr (Pcs.Aligned.skip (h.of_eq (State.pcs_mapCores fun _ => ?_)))
    exact ⟨rfl, rfl⟩

theorem Pcs.Aligned.execKlock (d a : RegNo) : KeepsAligned (execKlock d a s) := by
  unfold Sys2Proof.Machine.execKlock
  dsimp only
  refine Pcs.Aligned.retX (h.of_eq ?_) ..
  simp

theorem Pcs.Aligned.execKunlock (a : RegNo) : KeepsAligned (execKunlock a s) := by
  refine (keepsAligned_next _).mpr (Pcs.Aligned.skip (h.of_eq (State.pcs_setMe ?_)))
  rw [Core.pcs_foldl fun _ _ => by simp, State.me_pcs]

/-! ## Collectives -/

theorem Pcs.Aligned.execCollTimeout (core : Nat) (n : BitVec 32) : KeepsAligned (execCollTimeout core n s) := by
  unfold Sys2Proof.Machine.execCollTimeout
  (repeat' split) <;> simp [h]

theorem Pcs.Aligned.execCollAbtMemberTimeout (core : Nat) (n : BitVec 32) : KeepsAligned (execCollAbtMemberTimeout core n s) := by
  unfold Sys2Proof.Machine.execCollAbtMemberTimeout
  (repeat' split) <;> simp [h]

/-! ## Kernel contexts -/

/-- An entry that starts and leaves the pcs alone. -/
theorem Pcs.Aligned.of_keeps {t : State} {c : Cmd} {r : Started} (hr : r.Keeps s.pcs) (e : r = .go t c) : t.pcs.Aligned := by
  subst e
  exact hr ▸ h

theorem Pcs.Aligned.execContextLaunch (core : Nat) : KeepsAligned (execContextLaunch core s) := by
  unfold Sys2Proof.Machine.execContextLaunch
  dsimp only
  split
  · exact h.stay
  · split
    · exact h.stay
    · split
      · split
        · exact h.stay
        · split
          · exact h.stay
          · (repeat' split) <;> simp [h]
          · simp [h]
          · next e =>
            have := h.of_keeps (State.keeps_bindOuts rfl fun t l ht => by simp [ht]) e
            simp [this]
      · exact h.stay

theorem Pcs.Aligned.execBundleIssue (core uid : Nat) : KeepsAligned (execBundleIssue core uid s) := by
  unfold Sys2Proof.Machine.execBundleIssue
  dsimp only
  (repeat' split) <;> simp [h]

theorem Pcs.Aligned.execStallStep (core uid : Nat) : KeepsAligned (execStallStep core uid s) := by
  unfold Sys2Proof.Machine.execStallStep
  (repeat' split) <;> simp [h]

theorem Pcs.Aligned.execImemLineFill (core uid : Nat) : KeepsAligned (execImemLineFill core uid s) := by
  unfold Sys2Proof.Machine.execImemLineFill
  (repeat' split) <;> simp [h]

theorem Pcs.Aligned.execSrfxFlagSet (core uid n : Nat) : KeepsAligned (execSrfxFlagSet core uid n s) := by
  unfold Sys2Proof.Machine.execSrfxFlagSet
  dsimp only
  (repeat' split) <;> simp [h]

theorem Pcs.Aligned.execSemarmFlagSet (core uid f : Nat) : KeepsAligned (execSemarmFlagSet core uid f s) := by
  unfold Sys2Proof.Machine.execSemarmFlagSet
  (repeat' split) <;> simp [h]

theorem Pcs.Aligned.execPharmFlagSet (core uid f : Nat) : KeepsAligned (execPharmFlagSet core uid f s) := by
  unfold Sys2Proof.Machine.execPharmFlagSet
  (repeat' split) <;> simp [h]

theorem Pcs.Aligned.execContextHalt (core uid : Nat) : KeepsAligned (execContextHalt core uid s) := by
  unfold Sys2Proof.Machine.execContextHalt
  dsimp only
  (repeat' split) <;> simp [h]

theorem Pcs.Aligned.execContextRestFreeze (core uid : Nat) : KeepsAligned (execContextRestFreeze core uid s) := by
  unfold Sys2Proof.Machine.execContextRestFreeze
  (repeat' split) <;> simp [h]

theorem Pcs.Aligned.execPreemptionEscalated (core uid : Nat) : KeepsAligned (execPreemptionEscalated core uid s) := by
  unfold Sys2Proof.Machine.execPreemptionEscalated
  (repeat' split) <;> simp [h]

/-! ## The jig -/

theorem Pcs.Aligned.execJigRunStart (core : Nat) : KeepsAligned (execJigRunStart core s) := by
  unfold Sys2Proof.Machine.execJigRunStart
  split
  · exact h.stay
  · dsimp only
    split
    · exact h.stay
    · next c _ _ =>
      have hu : (s.setCore core ((s.core core).showRun (s.jig core c) 0)).pcs.Aligned := by simpa using h
      split
      · exact hu.stay
      · (repeat' split) <;> simp [h]
      · simp [h]
      · next e =>
        have := hu.of_keeps (State.keeps_startJig ..) e
        simp [this]

theorem Pcs.Aligned.execJigStep (core : Nat) (res : ResidueCheck) : KeepsAligned (execJigStep core res s) := by
  unfold Sys2Proof.Machine.execJigStep
  (repeat' split) <;> simp [h]

/-! ## The sills -/

theorem Pcs.Aligned.sillAccess {ch va off n : Nat} {need : Need} {own : Bool} {a : SillAcc} (ha : s.sillAccess ch va off n need own = a) :
    a.state.pcs.Aligned := by
  rw [← ha, State.pcs_sillAccess]
  exact h

theorem Pcs.Aligned.execSillRd (ch : Nat) : KeepsAligned (execSillRd ch s) := by
  unfold Sys2Proof.Machine.execSillRd
  split
  · exact h.stay
  · split
    · exact h.stay
    · split
      · next ha => exact (keepsAligned_next _).mpr (h.sillAccess ha)
      · next ha => exact (keepsAligned_next _).mpr (h.sillAccess ha)
      · next ha =>
        have ht := h.sillAccess ha
        dsimp only [SillAcc.state] at ht
        simp [ht]

theorem Pcs.Aligned.execSillWr (ch : Nat) : KeepsAligned (execSillWr ch s) := by
  unfold Sys2Proof.Machine.execSillWr
  split
  · exact h.stay
  · split
    · exact h.stay
    · split
      · next ha => exact (keepsAligned_next _).mpr (h.sillAccess ha)
      · next ha => exact (keepsAligned_next _).mpr (h.sillAccess ha)
      · next ha =>
        have ht := h.sillAccess ha
        dsimp only [SillAcc.state] at ht
        simp [ht]

theorem Pcs.Aligned.execSillLds (ch : Nat) : KeepsAligned (execSillLds ch s) := by
  unfold Sys2Proof.Machine.execSillLds
  split
  · exact h.stay
  · split
    · next ha => exact (keepsAligned_next _).mpr (h.sillAccess ha)
    · next ha => exact (keepsAligned_next _).mpr (h.sillAccess ha)
    · next ha =>
      have ht := h.sillAccess ha
      dsimp only [SillAcc.state] at ht
      simp [ht]

theorem Pcs.Aligned.sillGate (ch : Nat) (u : Sill) (e : Word) : KeepsAligned (s.sillGate ch u e) := by
  unfold State.sillGate
  dsimp only
  split
  · next ha => exact (keepsAligned_next _).mpr (h.sillAccess ha)
  · next ha => exact (keepsAligned_next _).mpr (h.sillAccess ha)
  · next ha =>
    have ht := h.sillAccess ha
    dsimp only [SillAcc.state] at ht
    split <;> simp [ht]

theorem Pcs.Aligned.execSillGate (ch : Nat) : KeepsAligned (execSillGate ch s) := by
  unfold Sys2Proof.Machine.execSillGate
  split
  · exact h.stay
  · split
    · simp [h]
    · exact h.sillGate ..

theorem Pcs.Aligned.execSillGateReread (ch : Nat) : KeepsAligned (execSillGateReread ch s) := by
  unfold Sys2Proof.Machine.execSillGateReread
  split
  · exact h.stay
  · split
    · exact h.stay
    · split
      · exact h.sillGate ..
      · exact h.stay

theorem Pcs.Aligned.execSillGateTimeout (ch : Nat) : KeepsAligned (execSillGateTimeout ch s) := by
  unfold Sys2Proof.Machine.execSillGateTimeout
  (repeat' split) <;> simp [h]

theorem Pcs.Aligned.execSillWait (ch : Nat) : KeepsAligned (execSillWait ch s) := by
  unfold Sys2Proof.Machine.execSillWait
  split <;> simp [h]

theorem Pcs.Aligned.execSillMv (ch : Nat) : KeepsAligned (execSillMv ch s) := by
  unfold Sys2Proof.Machine.execSillMv
  split <;> simp [h]

theorem Pcs.Aligned.execSillRef (ch : Nat) : KeepsAligned (execSillRef ch s) := by
  unfold Sys2Proof.Machine.execSillRef
  dsimp only
  (repeat' split) <;> simp [h]

theorem Pcs.Aligned.execSillRefreshInsert (ch : Nat) : KeepsAligned (execSillRefreshInsert ch s) := by
  unfold Sys2Proof.Machine.execSillRefreshInsert
  (repeat' split) <;> simp [h]

theorem Pcs.Aligned.beginSweep (ch : Nat) (u : Sill) : KeepsAligned (s.beginSweep ch u) := by
  unfold State.beginSweep
  dsimp only
  split
  · simp [h]
  · split
    · simp [h]
    · split
      · simp [h]
      · exact h.stay
      · (repeat' split) <;> simp [h]
      · next hb => simp [State.pcs_bindRecord hb, h]

theorem Pcs.Aligned.execSillRunStart (ch : Nat) : KeepsAligned (execSillRunStart ch s) := by
  unfold Sys2Proof.Machine.execSillRunStart
  split
  · exact h.stay
  · dsimp only
    split
    · exact h.stay
    · exact h.beginSweep ..

theorem Pcs.Aligned.sillDone (ch : Nat) (u : Sill) : KeepsAligned (s.sillDone ch u) := by
  unfold State.sillDone
  dsimp only
  split
  · exact h.stay
  · split
    · simp [h]
    · split
      · next ha => exact (keepsAligned_next _).mpr (h.sillAccess ha)
      · next ha => exact (keepsAligned_next _).mpr (h.sillAccess ha)
      · next ha =>
        have ht := h.sillAccess ha
        dsimp only [SillAcc.state] at ht
        simp [ht]

theorem Pcs.Aligned.execSillPassEnd (ch : Nat) : KeepsAligned (execSillPassEnd ch s) := by
  unfold Sys2Proof.Machine.execSillPassEnd
  split
  · exact h.stay
  · split
    · exact h.stay
    · split
      · exact h.sillDone ..
      · split
        · exact h.stay
        · split
          · split <;> simp [h]
          · split
            · simp [h]
            · next hm =>
              have ht := h.of_eq (State.pcs_sweepMerge hm)
              dsimp only
              split
              · exact Pcs.Aligned.beginSweep (by simpa using ht) ..
              · simp [ht]

/-! ## Commands -/

theorem Pcs.Aligned.cmdSilent (core : Nat) (c : Cmd) (va : Word) (elem : Nat) (late : List (Loc × List Byte)) :
    KeepsAligned (s.cmdSilent core c va elem late) := by
  unfold State.cmdSilent
  (repeat' split) <;> simp [h]

theorem Pcs.Aligned.finish {r : Started} (hr : r.Keeps s.pcs) (core : Nat) (c : Cmd) : KeepsAligned (r.finish s core c) := by
  cases r with
  | stall => exact h.stay
  | silent va => exact h.cmdSilent ..
  | fault code addr c => simp [Started.finish, h]
  | go t c => simp [Started.finish, h.of_keeps hr rfl]

theorem Pcs.Aligned.runCmd (core : Nat) (c : Cmd) : KeepsAligned (s.runCmd core c) := by
  unfold State.runCmd
  split
  · simp [h]
  · exact Pcs.Aligned.finish (by simpa using h) (by simpa using s.keeps_cmdChecks core c) ..

theorem Pcs.Aligned.reserve (core : Nat) (c : Cmd) : KeepsAligned (s.reserve core c) := by
  unfold State.reserve
  dsimp only
  split
  · exact h.runCmd ..
  · split
    · exact h.runCmd ..
    · simp [h]

theorem Pcs.Aligned.execCommandStart (core : Nat) (q : Queue) : KeepsAligned (execCommandStart core q s) := by
  unfold Sys2Proof.Machine.execCommandStart
  dsimp only
  split
  · exact h.stay
  · split
    · exact h.stay
    · split
      · exact h.stay
      · split
        · exact h.stay
        · split
          · exact h.runCmd ..
          · split
            · exact h.stay
            · split
              · split
                · exact h.stay
                · exact h.cmdSilent ..
                · simp [h]
                · next e =>
                  have ht := h.of_keeps (s.keeps_readLaunch ..) e
                  split
                  · simp [ht]
                  · exact ht.reserve ..
              · exact h.reserve ..

/-- The element of a command that is a value. -/
theorem Pcs.Aligned.of_holds {α : Type} (f : α → State) {e : Elem α} {a : α} (hr : e.Holds fun a => (f a).pcs = s.pcs) (he : e = .ok a) :
    (f a).pcs.Aligned := by
  subst he
  exact h.of_eq hr

theorem Pcs.Aligned.execCommandElement (core : Nat) (q : Queue) : KeepsAligned (execCommandElement core q s) := by
  unfold Sys2Proof.Machine.execCommandElement
  split
  · exact h.stay
  · split
    · exact h.stay
    · split
      · simp [h]
      · split
        · next e => simp [h.of_holds Prod.fst (s.holds_cmdElem ..) e]
        · split <;> simp [h]
        · simp [h]
        · exact h.stay
        · exact h.cmdSilent ..

theorem Pcs.Aligned.mergeCmd {core : Nat} {c : Cmd} {k : State → Cmd → Result} (hk : ∀ t d, t.pcs.Aligned → KeepsAligned (k t d)) :
    KeepsAligned (s.mergeCmd core c k) := by
  unfold State.mergeCmd
  split
  · exact hk _ _ h
  · split
    · simp [h]
    · next hm => exact hk _ _ (h.of_eq (by simpa using State.pcs_issueMerge hm))

theorem Pcs.Aligned.mergeOwed (core : Nat) (c : Cmd) (l : List (Nat × Stats)) : KeepsAligned (s.mergeOwed core c l) := by
  induction l generalizing s with
  | nil => simp [State.mergeOwed, h]
  | cons e t ih =>
    unfold State.mergeOwed
    dsimp only
    split
    · simp [h]
    · next hm => exact ih (h.of_eq (State.pcs_issueMerge hm))

theorem Pcs.Aligned.close {r : Elem State} (hr : r.Holds fun t => t.pcs.Aligned) (core : Nat) (c : Cmd) : KeepsAligned (r.close s core c) := by
  cases r with
  | ok t => simpa [Elem.close] using hr
  | fault code addr => simp [Elem.close, h]
  | firstUse w => exact h.stay
  | stall => exact h.stay
  | silent va late => exact h.cmdSilent ..

theorem Pcs.Aligned.closeColl (core : Nat) (c : Cmd) : KeepsAligned (s.closeColl core c) := by
  have hr : (s.collFlag core c).Holds fun t => t.pcs.Aligned := by
    have := s.holds_collFlag core c
    cases e : s.collFlag core c with
    | ok t => exact h.of_eq (by rw [e] at this; exact this)
    | _ => trivial
  unfold State.closeColl
  dsimp only
  split
  · exact Pcs.Aligned.close (by simpa using h) hr ..
  · exact h.close hr ..

theorem Pcs.Aligned.finishCmd (core : Nat) (c : Cmd) : KeepsAligned (s.finishCmd core c) := by
  have merged {t : State} (ht : t.pcs.Aligned) (d : Cmd) : KeepsAligned (t.mergeCmd core d fun s c => .next (s.complete core c true)) :=
    ht.mergeCmd fun u _ hu => by simpa using hu
  unfold State.finishCmd
  split
  · have hs := s.holds_scaleOut core c
    cases e : s.scaleOut core c with
    | ok t => exact merged (h.of_eq (by rw [e] at hs; exact hs)) _
    | _ => exact h.close (by trivial) ..
  · split
    · exact h.closeColl ..
    · exact h.mergeCmd fun u _ hu => hu.closeColl ..
  · simp [h]
  · (repeat' split) <;> simp [h]
  · exact merged h _

theorem Pcs.Aligned.execCommandComplete (core : Nat) (q : Queue) : KeepsAligned (execCommandComplete core q s) := by
  unfold Sys2Proof.Machine.execCommandComplete
  dsimp only
  repeat' split
  any_goals exact h.stay
  · exact h.mergeOwed ..
  · exact h.finishCmd ..

end

end Sys2Proof.Machine
end

section
/-! O57. Requests, the fabric, arithmetic, host frames and power keep the pcs aligned. -/

namespace Sys2Proof.Machine
open Sys2Proof Sys2Proof.Claims

/-! ## Requests of a manager -/

/-- The state that a request is answered from has aligned pcs. -/
def Reply.Aligned : Reply → Prop
  | .wait => True
  | .answer t _ _ => t.pcs.Aligned

@[simp] theorem Reply.aligned_answer (t : State) (status : Nat) (b : List Byte) : (Reply.answer t status b).Aligned ↔ t.pcs.Aligned := Iff.rfl

section
variable {s : State} (h : s.pcs.Aligned)
include h

@[simp] theorem Pcs.Aligned.refuse (status : Nat) : (s.refuse status).Aligned := h

theorem Pcs.Aligned.request {typ : Nat} {dg : List Byte} {k : State → Session → List Byte → Reply} (hk : ∀ x b, (k s x b).Aligned) :
    KeepsAligned (s.request typ dg k) := by
  unfold State.request
  split
  · exact h.stay
  · next x b _ =>
    have hr := hk x b
    split
    · exact h.stay
    · next e =>
      rw [e] at hr
      simpa using hr

theorem Pcs.Aligned.killBentMsg (x : Session) (b : List Byte) : (s.killBentMsg x b).Aligned := by
  unfold State.killBentMsg
  (repeat' split) <;> simp [h]

theorem Pcs.Aligned.createBentMsg (x : Session) (b : List Byte) : (s.createBentMsg x b).Aligned := by
  unfold State.createBentMsg
  dsimp only
  split
  · exact h.refuse _
  · split
    · exact h.refuse _
    · split
      · exact h.refuse _
      · next hb =>
        split
        · split
          · exact h.refuse _
          · rw [Reply.aligned_answer, State.pcs_mk, Pcs.of_fields]
            refine Pcs.Aligned.addBent (by simpa using h) _ ?_
            simp only [Bool.or_eq_true, not_or] at hb
            obtain ⟨⟨-, hb⟩, -⟩ := hb
            have hc := hpc_aligned_of_badBent hb
            dsimp only at hc ⊢
            exact hc
        · exact h.refuse _

theorem Pcs.Aligned.enqueuePegMsg (x : Session) (b : List Byte) : (s.enqueuePegMsg x b).Aligned := by
  unfold State.enqueuePegMsg
  dsimp only
  split
  · exact h.refuse _
  · split
    · exact h.refuse _
    · split
      · exact h.refuse _
      · split
        · simp [h]
        · split
          · trivial
          · next hg =>
            have ht := h.of_eq (State.pcs_gRead hg)
            split
            · next he => simp [ht.enqueue he]
            · simp [ht]
            · simp [ht]
          · simp [h]

theorem Pcs.Aligned.loadImageMsg (x : Session) (b : List Byte) : (s.loadImageMsg x b).Aligned := by
  unfold State.loadImageMsg
  dsimp only
  split
  · exact h.refuse _
  · split
    · exact h.refuse _
    · split
      · exact h.refuse _
      · split
        · trivial
        · next hg =>
          have ht := h.of_eq (State.pcs_gReadAs hg)
          split
          · split
            · next hl => simp [State.pcs_loadForm hl, ht]
            · trivial
          · split
            · exact ht.refuse _
            · simp [ht]
        · exact h.refuse _

theorem Pcs.Aligned.keyInstallMsg (x : Session) (b : List Byte) : (s.keyInstallMsg x b).Aligned := by
  unfold State.keyInstallMsg
  dsimp only
  split
  · exact h.refuse _
  · (repeat' split) <;> simp [h]

theorem Pcs.Aligned.attestationMsg (x : Session) (b : List Byte) : (s.attestationMsg x b).Aligned := by
  unfold State.attestationMsg
  split <;> simp [h]

theorem Pcs.Aligned.telemetryMsg (x : Session) (b : List Byte) : (s.telemetryMsg x b).Aligned := by
  unfold State.telemetryMsg
  split <;> simp [h]

theorem Pcs.Aligned.dumpMsg (x : Session) (b : List Byte) : (s.dumpMsg x b).Aligned := by
  unfold State.dumpMsg
  (repeat' split) <;> simp [h]

theorem Pcs.Aligned.execInit (dg : List Byte) : KeepsAligned (execInit dg s) := by
  unfold Sys2Proof.Machine.execInit
  dsimp only
  (repeat' split) <;> simp [h]

theorem Pcs.Aligned.execConfigurationRecordUpdate (r : ConfigRecord) (signer : RecordSigner) :
    KeepsAligned (execConfigurationRecordUpdate r signer s) := by
  unfold Sys2Proof.Machine.execConfigurationRecordUpdate
  (repeat' split) <;> simp [h]

/-! ## Memory, its home and the fabric -/

theorem Pcs.Aligned.execPageWalk (bay b : Nat) (va : Word) : KeepsAligned (execPageWalk bay b va s) := by
  unfold Sys2Proof.Machine.execPageWalk
  dsimp only
  (repeat' split) <;> simp [h]

theorem Pcs.Aligned.execScrub (pa : Nat) (e : EccCheck) : KeepsAligned (execScrub pa e s) := by
  unfold Sys2Proof.Machine.execScrub
  split
  · simp [h]
  · trivial

theorem Pcs.Aligned.execLineEviction (bay : Nat) (l : CachedAt) : KeepsAligned (execLineEviction bay l s) := by
  unfold Sys2Proof.Machine.execLineEviction
  (repeat' split) <;> simp [h]

theorem Pcs.Aligned.execHomeAccess (i : Nat) (e : EccCheck) : KeepsAligned (execHomeAccess i e s) := by
  unfold Sys2Proof.Machine.execHomeAccess
  (repeat' split) <;> simp [h]

theorem Pcs.Aligned.execFabricTimeout (i : Nat) : KeepsAligned (execFabricTimeout i s) := by
  unfold Sys2Proof.Machine.execFabricTimeout
  (repeat' split) <;> simp [h]

theorem Pcs.Aligned.execFabricErrorAnswer (i : Nat) : KeepsAligned (execFabricErrorAnswer i s) := by
  unfold Sys2Proof.Machine.execFabricErrorAnswer
  (repeat' split) <;> simp [h]

theorem Pcs.Aligned.execMergeAtHome (i : Nat) (other : Option Nat) : KeepsAligned (execMergeAtHome i other s) := by
  unfold Sys2Proof.Machine.execMergeAtHome
  (repeat' split) <;> simp [h]

theorem Pcs.Aligned.execLinkBringUp (peer : Nat) (authentic : Bool) : KeepsAligned (execLinkBringUp peer authentic s) := by
  unfold Sys2Proof.Machine.execLinkBringUp
  (repeat' split) <;> simp [h]

theorem Pcs.Aligned.execLinkKeyRenewal (peer : Nat) : KeepsAligned (execLinkKeyRenewal peer s) := by
  unfold Sys2Proof.Machine.execLinkKeyRenewal
  (repeat' split) <;> simp [h]

theorem Pcs.Aligned.execFabricPacket (p : FabricPacket) : KeepsAligned (execFabricPacket p s) := by
  unfold Sys2Proof.Machine.execFabricPacket
  split
  · exact h.stay
  · split
    · split
      · next hf => exact (keepsAligned_next _).mpr (h.of_eq (State.pcs_forward hf))
      · exact h.stay
    · split
      · exact h.stay
      · have hp := s.keeps_performPacket p
        split
        · exact h.stay
        · next e =>
          rw [e] at hp
          split
          · next ha => exact (keepsAligned_next _).mpr (h.of_eq ((pcs_sendAll ha).trans hp))
          · exact h.stay

/-! ## Arithmetic -/

theorem Pcs.Aligned.intOp (d a b : RegNo) (op : Word → Word → Word) : KeepsAligned (s.intOp d a b op) := h.retX ..

theorem Pcs.Aligned.immOp (d a : RegNo) (i : Word) (op : Word → Word → Word) : KeepsAligned (s.immOp d a i op) := h.retX ..

theorem Pcs.Aligned.fpFlags {g : FFlags} {k : State → Result} (hk : ∀ t, t.pcs.Aligned → KeepsAligned (k t)) :
    KeepsAligned (s.fpFlags g k) := by
  unfold State.fpFlags
  dsimp only
  split
  · simp [h]
  · exact hk _ (by simpa using h)

theorem Pcs.Aligned.fpResult (f : Fmt) (m : BitVec 2) (d : RegNo) (g : FFlags) (v : FVal) : KeepsAligned (s.fpResult f m d g v) :=
  h.fpFlags fun _ ht => ht.retF ..

theorem Pcs.Aligned.fpArith (f : Fmt) (d a b : RegNo) (m : BitVec 2) (op : FVal → FVal → FVal) : KeepsAligned (s.fpArith f d a b m op) :=
  h.fpResult ..

theorem Pcs.Aligned.fpMinMax (f : Fmt) (d a b : RegNo) (op : FVal → FVal → FVal) : KeepsAligned (s.fpMinMax f d a b op) :=
  h.fpFlags fun _ ht => ht.retF ..

theorem Pcs.Aligned.fpEq (f : Fmt) (d a b : RegNo) : KeepsAligned (s.fpEq f d a b) := h.fpFlags fun _ ht => ht.retX ..

theorem Pcs.Aligned.fpCmp (f : Fmt) (d a b : RegNo) (op : FVal → FVal → Bool) : KeepsAligned (s.fpCmp f d a b op) :=
  h.fpFlags fun _ ht => ht.retX ..

theorem Pcs.Aligned.toInt (f : Fmt) (d a : RegNo) (m : BitVec 2) (uns : Bool) : KeepsAligned (s.toInt f d a m uns) :=
  h.fpFlags fun _ ht => ht.retX ..

/-! ## Host frames -/

theorem Pcs.Aligned.execPtpMessage (m : PtpMessage) : KeepsAligned (execPtpMessage m s) := by
  unfold Sys2Proof.Machine.execPtpMessage
  dsimp only
  split
  · exact h.stay
  · (repeat' split) <;> simp [h]

theorem Pcs.Aligned.execArpRequest (port : Nat) (addr : List Byte) : KeepsAligned (execArpRequest port addr s) := by
  unfold Sys2Proof.Machine.execArpRequest
  split <;> simp [h]

theorem Pcs.Aligned.execNeighborDiscovery (port : Nat) (addr : List Byte) : KeepsAligned (execNeighborDiscovery port addr s) := by
  unfold Sys2Proof.Machine.execNeighborDiscovery
  split <;> simp [h]

theorem Pcs.Aligned.execFrameDrop (f : EthFrame) : KeepsAligned (execFrameDrop f s) := by
  unfold Sys2Proof.Machine.execFrameDrop
  split
  · exact h.stay
  · split
    · exact h.execArpRequest ..
    · exact h.execNeighborDiscovery ..
    · exact h.stay
    · exact h.stay
    · exact h.stay

theorem Pcs.Aligned.resendRoce (p : RocePacket) (q : QueuePair) (ext n : Nat) : KeepsAligned (s.resendRoce p q ext n) := by
  refine (keepsAligned_next _).mpr (h.of_eq ((State.pcs_foldl (fun t i => ?_) _ _).trans (by simp)))
  split
  · rfl
  · split
    · rfl
    · simp

@[simp] theorem Pcs.Aligned.ackRoce (p : RocePacket) (q : QueuePair) (ext syndrome : Nat) : KeepsAligned (s.ackRoce p q ext syndrome) := by
  simp [State.ackRoce, h]

theorem Pcs.Aligned.withRoce {p : RocePacket} {n : Nat} {k : State → QueuePair → Nat → List Byte → Result}
    (hk : ∀ t q e d, t.pcs.Aligned → KeepsAligned (k t q e d)) : KeepsAligned (s.withRoce p n k) := by
  unfold State.withRoce
  split
  · exact h.stay
  · next q ext d _ =>
    have ht : (State.cnp { s with qps := s.qps.put p.qpn.toNat q } p ext).pcs.Aligned := by simpa using h
    dsimp only
    split
    · exact ht.stay
    · split
      · exact ht.resendRoce ..
      · split
        · exact ht.ackRoce ..
        · exact hk _ _ _ _ ht

theorem Pcs.Aligned.writeRoce (p : RocePacket) (q : QueuePair) (ext : Nat) (d : List Byte) : KeepsAligned (s.writeRoce p q ext d) := by
  unfold State.writeRoce
  extract_lets q more next refused
  generalize (if more = true then d.length != roceData || decide (q.writeLeft ≤ roceData)
    else d.length != q.writeLeft || decide (roceData < d.length)) = bad
  split
  · exact h.ackRoce ..
  · split
    · exact h.ackRoce ..
    · split
      · exact h.ackRoce ..
      · split
        · next hg => exact Pcs.Aligned.ackRoce (h.of_eq (State.pcs_gWrite hg)) ..
        · exact h.ackRoce ..
        · simp [h]
        · exact h.stay

theorem Pcs.Aligned.execRdmaWrite (p : RocePacket) : KeepsAligned (execRdmaWrite p s) := by
  unfold Sys2Proof.Machine.execRdmaWrite
  split
  · exact h.stay
  · refine h.withRoce fun t q e d ht => ?_
    split
    · exact ht.ackRoce ..
    · exact ht.writeRoce ..

theorem Pcs.Aligned.execRdmaRead (p : RocePacket) : KeepsAligned (execRdmaRead p s) := by
  unfold Sys2Proof.Machine.execRdmaRead
  split
  · exact h.stay
  · refine h.withRoce fun t q e d ht => ?_
    dsimp only
    split
    · exact ht.ackRoce ..
    · split
      · exact ht.ackRoce ..
      · split
        · next hg => simp [State.pcs_gRead hg, ht]
        · exact ht.stay
        · exact ht.ackRoce ..

theorem Pcs.Aligned.execRoceInvalidRequest (p : RocePacket) : KeepsAligned (execRoceInvalidRequest p s) := by
  unfold Sys2Proof.Machine.execRoceInvalidRequest
  split
  · exact h.stay
  · exact h.withRoce fun _ _ _ _ ht => ht.ackRoce ..

/-! ## Power, heat and bring-up -/

theorem Pcs.Aligned.execPowerSample (p : PowerReading) : KeepsAligned (execPowerSample p s) := by
  unfold Sys2Proof.Machine.execPowerSample
  dsimp only
  split
  · exact h.stay
  · rw [keepsAligned_next]
    split <;> simp [h]

theorem Pcs.Aligned.execThermalHold (bay : Nat) (temp : Int) : KeepsAligned (execThermalHold bay temp s) := by
  unfold Sys2Proof.Machine.execThermalHold
  dsimp only
  split
  · exact h.stay
  · rw [keepsAligned_next]
    split <;> simp [h]

theorem Pcs.Aligned.execThermalRelease (bay : Nat) (temp : Int) : KeepsAligned (execThermalRelease bay temp s) := by
  unfold Sys2Proof.Machine.execThermalRelease
  dsimp only
  (repeat' split) <;> simp [h]

theorem Pcs.Aligned.execThermalTrip (bay : Nat) (temp : Int) : KeepsAligned (execThermalTrip bay temp s) := by
  unfold Sys2Proof.Machine.execThermalTrip
  split <;> simp [h]

theorem Pcs.Aligned.execFirmwareStateError : KeepsAligned (execFirmwareStateError s) := by
  unfold Sys2Proof.Machine.execFirmwareStateError
  (repeat' split) <;> simp [h]

theorem Pcs.Aligned.execInputPowerFault : KeepsAligned (execInputPowerFault s) := by
  unfold Sys2Proof.Machine.execInputPowerFault
  (repeat' split) <;> simp [h]

end

end Sys2Proof.Machine
end

section
/-! O57. Dispatch, pre-emption, semaphores, phasers and traps keep the pcs aligned. -/

namespace Sys2Proof.Machine
open Sys2Proof Sys2Proof.Claims

/-! ## Dispatch, pre-emption and migration -/

/-- A record that R8 does not refuse has an aligned pc. -/
theorem PegRecord.pc_aligned {r : PegRecord} (h : ¬ r.refused = true) : r.pc.toNat % 4 = 0 := by
  refine aligned_of_low ?_
  simp only [PegRecord.refused, Bool.or_eq_true, not_or, bne_iff_ne, not_not] at h
  obtain ⟨⟨-, hlow⟩, -⟩ := h
  exact hlow

/-- The control core of a fresh peg: the pc of its record, and no saved pc. -/
theorem Core.pcs_fresh (k : Core) (p : Peg) (r : PegRecord) : (k.fresh p r).pcs = (r.pc, 0) := by
  simp [Core.fresh, PegRegs.reset]

/-- The trap registers of a frame, read back, have an aligned TRAP.PC (R366). -/
theorem frameRegs_trapPc (d : List Byte) : (frameRegs d).trapPc.toNat % 4 = 0 := by
  have write {r : PegRegs} (i : Nat) (v : Word) (hr : r.trapPc.toNat % 4 = 0) : ((r.write i v).getD r).trapPc.toNat % 4 = 0 := by
    cases h : r.write i v with
    | none => exact hr
    | some q => exact PegRegs.trapPc_write h hr
  exact write _ _ (List.foldlRecOn (motive := fun r : PegRegs => r.trapPc.toNat % 4 = 0) _ _ rfl fun r hr i _ => write _ _ hr)

@[simp] theorem State.pcs_savePeg (s : State) (id : Nat) (p : Peg) : (s.savePeg id p).pcs = s.pcs := by
  unfold State.savePeg
  split
  · simp
  · simp
  · next s1 hd _ hh =>
    have h1 := State.pcs_saveHeader hh
    dsimp only
    split
    · split
      · simpa using h1
      · next t hb =>
        have ht : t.pcs = s.pcs := by
          obtain ⟨u, hu, hc⟩ := Option.bind_eq_some_iff.mp hb
          replace hu := (State.pcs_savePut hu).trans h1
          split at hc
          · exact (State.pcs_saveCore hc).trans hu
          · cases hc
            exact hu
        simp [ht]
    · simp [h1]

section
variable {s : State} (h : s.pcs.Aligned)
include h

/-- A peg that runs on a core brings its pcs. -/
theorem Pcs.Aligned.startPeg (core id : Nat) (p : Peg) (l : Loc) (rec : List Byte) {k : Core} (hp : k.pc.toNat % 4 = 0)
    (ht : k.regs.trapPc.toNat % 4 = 0) : (s.startPeg core id p l rec k).pcs.Aligned := by
  unfold State.startPeg
  dsimp only
  rw [State.pcs_countDispatch, State.pcs_modBent fun _ => by rfl, State.pcs_modPeg]
  exact Pcs.Aligned.setCore (by simpa using h) hp ht

theorem Pcs.Aligned.resumePeg (core id : Nat) (p : Peg) (l : Loc) (rec : List Byte) : (s.resumePeg core id p l rec).pcs.Aligned := by
  unfold State.resumePeg
  split
  · simpa using h
  · next t d step hf =>
    have ht := h.of_eq (State.pcs_framesOf hf)
    have hp : ((t.core core).ofFrame d).pc.toNat % 4 = 0 := and_mask_aligned _ rfl
    have hr : ((t.core core).ofFrame d).regs.trapPc.toNat % 4 = 0 := frameRegs_trapPc d
    split
    · simpa using ht
    · dsimp only
      split
      · exact ht.startPeg core id p l rec hp hr
      · next f _ =>
        rw [State.pcs_putWindows]
        have hk := Core.pcs_putFrame ((t.core core).ofFrame d) f
        obtain ⟨hpc, hregs⟩ := Prod.mk.inj hk
        exact ht.startPeg core id p l rec (hpc ▸ hp) (hregs ▸ hr)

theorem Pcs.Aligned.execPegDispatch (core : Nat) : KeepsAligned (execPegDispatch core s) := by
  unfold Sys2Proof.Machine.execPegDispatch
  split
  · exact h.stay
  · split
    · exact h.stay
    · split
      · exact h.stay
      · split
        · simp [h]
        · next l _ =>
          have ht : (s.readLoc l 64).1.pcs.Aligned := by simpa using h
          dsimp only
          split
          · simp [h]
          · next hr =>
            rw [Bool.or_eq_true, not_or] at hr
            split
            · exact (keepsAligned_next _).mpr (ht.resumePeg ..)
            · have hc := Core.pcs_fresh
              refine (keepsAligned_next _).mpr (Pcs.Aligned.startPeg (by simpa using ht) _ _ _ _ _ ?_ ?_)
              · rw [(Prod.mk.inj (hc _ _ _)).1]
                exact PegRecord.pc_aligned hr.1
              · rw [(Prod.mk.inj (hc _ _ _)).2]
                rfl

theorem Pcs.Aligned.execPriorityAgeing (bay bent : Nat) : KeepsAligned (execPriorityAgeing bay bent s) := by
  unfold Sys2Proof.Machine.execPriorityAgeing
  dsimp only
  (repeat' split) <;> simp [h]

theorem Pcs.Aligned.execPreemptionRequest (id : Nat) : KeepsAligned (execPreemptionRequest id s) := by
  unfold Sys2Proof.Machine.execPreemptionRequest
  dsimp only
  (repeat' split) <;> simp [h]

theorem Pcs.Aligned.execPreemptionComplete (core : Nat) : KeepsAligned (execPreemptionComplete core s) := by
  unfold Sys2Proof.Machine.execPreemptionComplete
  dsimp only
  (repeat' split) <;> simp [h]

theorem Pcs.Aligned.execPegMigration (id core : Nat) : KeepsAligned (execPegMigration id core s) := by
  unfold Sys2Proof.Machine.execPegMigration
  dsimp only
  split
  · exact h.stay
  · split
    · exact h.stay
    · split
      · exact h.stay
      · split
        · simp [h]
        · split
          · simp [h]
          · next hs =>
            have ht := h.of_eq (State.pcs_spillAll hs)
            refine (keepsAligned_next _).mpr (ht.of_eq ?_)
            simp [Core.pcs_foldl]

/-! ## Semaphores, phasers and MWAIT -/

theorem Pcs.Aligned.execSemsig (a : RegNo) (n : BitVec 8) : KeepsAligned (execSemsig a n s) :=
  h.release (by
    split
    · exact h.trap _
    · next hs => exact (keepsAligned_next _).mpr (h.of_eq (State.pcs_addSem hs)).skip)

theorem Pcs.Aligned.execSemwait (a : RegNo) (n : BitVec 8) : KeepsAligned (execSemwait a n s) := by
  unfold Sys2Proof.Machine.execSemwait
  split <;> simp [h]

theorem Pcs.Aligned.execSemwaitS (a : RegNo) (n : BitVec 8) : KeepsAligned (execSemwaitS a n s) :=
  h.withRecord fun _ _ ht => by
    (repeat' split) <;> simp [ht]

theorem Pcs.Aligned.withPhaser {n : BitVec 10} {k : Phaser → Result} (hk : ∀ ph, KeepsAligned (k ph)) : KeepsAligned (s.withPhaser n k) := by
  unfold State.withPhaser
  split
  · exact hk _
  · exact h.trap _

theorem Pcs.Aligned.execPhreg (m : BitVec 2) (n : BitVec 10) : KeepsAligned (execPhreg m n s) :=
  h.withPhaser fun _ => by
    split <;> simp [h]

theorem Pcs.Aligned.execPhdrop (n : BitVec 10) : KeepsAligned (execPhdrop n s) :=
  h.withPhaser fun _ => by
    (repeat' split) <;> simp [h]

theorem Pcs.Aligned.execPhsig (n : BitVec 10) : KeepsAligned (execPhsig n s) :=
  h.withPhaser fun _ => by
    (repeat' split) <;> simp [h]

theorem Pcs.Aligned.phaseWait (rec : Loc) (d : RegNo) (n : Nat) (l : BitVec 32) (raised : Bool) :
    KeepsAligned (s.phaseWait rec d n l raised) := by
  have marked (p : Prop) [Decidable p] (ph : Phaser) : (if p then s.setPhaser s.myBay n ph else s).pcs.Aligned := by
    split <;> simp [h]
  unfold State.phaseWait
  dsimp only
  split
  · exact (marked _ _).retX ..
  · exact h.release (by simpa using marked _ _)

theorem Pcs.Aligned.execPhwait (d : RegNo) (n : BitVec 10) : KeepsAligned (execPhwait d n s) :=
  h.withRecord fun _ _ ht => ht.withPhaser fun _ => by
    split
    · exact ht.trap _
    · exact ht.trap _
    · exact ht.phaseWait ..
    · exact ht.phaseWait ..

theorem Pcs.Aligned.execMwait (d a : RegNo) : KeepsAligned (execMwait d a s) :=
  h.withRecord fun _ _ ht => ht.withLoc fun _ _ hu => by
    dsimp only
    (repeat' split) <;> simp [hu]

theorem Pcs.Aligned.execMwaitSpinExpiry (c : Nat) : KeepsAligned (execMwaitSpinExpiry c s) := by
  unfold Sys2Proof.Machine.execMwaitSpinExpiry
  dsimp only
  (repeat' split) <;> simp [h]

/-! ## Traps and the ends of the machine's own -/

theorem Pcs.Aligned.takePending (sel : Trap → Bool) : KeepsAligned (s.takePending sel) := by
  unfold State.takePending
  split
  · split
    · exact h.stay
    · split
      · exact h.stay
      · split
        · exact h.stay
        · exact (keepsAligned_next _).mpr (Pcs.Aligned.takeTrap (by simpa using h) _ (Pcs.Aligned.pc (by simpa using h) _))
  · exact h.stay

theorem Pcs.Aligned.execWatchdog (core : Nat) : KeepsAligned (execWatchdog core s) := by
  unfold Sys2Proof.Machine.execWatchdog
  dsimp only
  (repeat' split) <;> simp [h]

theorem Pcs.Aligned.execTret : KeepsAligned (execTret s) := by
  unfold Sys2Proof.Machine.execTret
  dsimp only
  split
  · exact h.trap _
  · refine (keepsAligned_next _).mpr (Pcs.Aligned.returnFromTrap ?_)
    split <;> simp [h]

theorem Pcs.Aligned.execJdrop (a : RegNo) : KeepsAligned (execJdrop a s) := by
  unfold Sys2Proof.Machine.execJdrop
  dsimp only
  split
  · exact h.trap _
  · (repeat' split) <;> simp [h]

theorem Pcs.Aligned.execAccFirstUse (core : Nat) (w : AccWork) : KeepsAligned (execAccFirstUse core w s) := by
  unfold Sys2Proof.Machine.execAccFirstUse
  dsimp only
  (repeat' split) <;> simp [h]

end

end Sys2Proof.Machine
end

section
/-! O57. Every step keeps the pcs aligned. -/

namespace Sys2Proof.Machine
open Sys2Proof Sys2Proof.Claims

/-! ## The boundary -/

/-- The state that a boundary leaves. -/
def Boundary.state : Boundary → State
  | .idle s => s
  | .run s _ => s

theorem State.pcs_fetchWord {s t : State} {va : Word} {w : Word32} (hw : s.fetchWord va = .word t w) : t.pcs = s.pcs := by
  unfold State.fetchWord at hw
  dsimp only at hw
  (repeat' split at hw) <;> cases hw <;> simp

/-- What an instruction fetched leaves of the pcs. -/
def Fetched.Keeps (v : Pcs) : Fetched → Prop
  | .instr t _ => t.pcs = v
  | .illegal t => t.pcs = v
  | _ => True

theorem Fetched.keeps_ofDecode {s : State} {v : Pcs} (h : s.pcs = v) (d : Except Reject Instr) : (Fetched.ofDecode s d).Keeps v := by
  cases d <;> exact h

theorem State.keeps_fetch (s : State) : s.fetch.Keeps s.pcs := by
  unfold State.fetch
  split
  · trivial
  · trivial
  · next h0 =>
    split
    · split
      · trivial
      · trivial
      · next h1 => exact Fetched.keeps_ofDecode ((State.pcs_fetchWord h1).trans (State.pcs_fetchWord h0)) _
    · exact Fetched.keeps_ofDecode (State.pcs_fetchWord h0) _

theorem State.pcs_boundary (s : State) : s.boundary.state.pcs = s.pcs := by
  have hf := s.keeps_fetch
  unfold State.boundary
  split
  · split
    · rfl
    · split
      · rfl
      · split
        · split <;> simp [Boundary.state]
        · split
          · split
            · split <;> rfl
            · rfl
          · split
            · rfl
            · next e => rw [e] at hf; exact hf
            · dsimp only [Boundary.state]
              split <;> simp
            · next e =>
              rw [e] at hf
              replace hf : _ = s.pcs := hf
              split <;> simpa [Boundary.state] using hf
  · rfl

theorem Pcs.Aligned.execInstructionFetchFault {s : State} (h : s.pcs.Aligned) : KeepsAligned (execInstructionFetchFault s) := by
  unfold Sys2Proof.Machine.execInstructionFetchFault
  split <;> simp [h]

/-! ## Every instruction and event -/

theorem State.reset_aligned : State.reset.pcs.Aligned :=
  (pcAligned_iff _).mp ⟨fun _ => ⟨rfl, rfl⟩, fun e he => by cases he⟩

theorem Pcs.Aligned.bringUp (s : State) (b : BringUp) (dump : Option Dump) : (s.bringUp b dump).pcs.Aligned := by
  rw [State.pcs_bringUp, State.pcs_blank]
  exact State.reset_aligned

theorem Pcs.Aligned.execPowerUp {s : State} (h : s.pcs.Aligned) (b : BringUp) : KeepsAligned (execPowerUp b s) := by
  unfold Sys2Proof.Machine.execPowerUp
  split
  · exact Pcs.Aligned.bringUp ..
  · exact h.stay

theorem Pcs.Aligned.execResetInput {s : State} (h : s.pcs.Aligned) (b : BringUp) : KeepsAligned (execResetInput b s) := by
  unfold Sys2Proof.Machine.execResetInput
  split
  · exact h.stay
  · exact Pcs.Aligned.bringUp ..

theorem keepsAligned_execPowerRemoval (s : State) : KeepsAligned (execPowerRemoval s) := by
  rw [Sys2Proof.Machine.execPowerRemoval, keepsAligned_next, State.pcs_mk, Pcs.of_fields, State.pcs_blank]
  exact State.reset_aligned

theorem Pcs.Aligned.exec {s : State} (h : s.pcs.Aligned) (i : Instr) : KeepsAligned (exec i s) := by
  unfold Sys2Proof.Machine.exec
  cases i with
  | add | sub | and | or | xor | sll | srl | sra | slt | sltN | min | max | minN | maxN | ror | addW | subW | mul | mulh | mulhN
  | div | divN | rem | remN => exact h.intOp ..
  | clz | ctz | popc | lui | lpc | fmvX | tstamp | eld | semrd | fclassF64 | fclassF32 => exact h.retX ..
  | addi | andi | ori | xori | slti | sltiN | slli | srli | srai | rori => exact h.immOp ..
  | faddF64 | fsubF64 | fmulF64 | faddF32 | fsubF32 | fmulF32 => exact h.fpArith ..
  | fdivF64 | fsqrtF64 | fmaF64 | fdivF32 | fsqrtF32 | fmaF32 | cvtF64I64 | cvtF64N64 | cvtF32I64 | cvtF32N64 | cvtF64F32
  | cvtF32F64 => exact h.fpResult ..
  | fminF64 | fmaxF64 | fminF32 | fmaxF32 => exact h.fpMinMax ..
  | fabsF64 | fnegF64 | fabsF32 | fnegF32 | fmvF => exact h.retF ..
  | feqF64 | feqF32 => exact h.fpEq ..
  | fltF64 | fleF64 | fltF32 | fleF32 => exact h.fpCmp ..
  | cvtI64F64 | cvtN64F64 | cvtI64F32 | cvtN64F32 => exact h.toInt ..
  | ldB | ldH | ldW | ldD | ldBn | ldHn | ldWn | ldFw | ldFd | ldA16 => exact h.load ..
  | ldV16 | stV16 => exact h.dataUnits ..
  | stB | stH | stW | stD | stFw | stFd | stA16 => exact h.store ..
  | amoW | amoD => exact h.amo ..
  | casW | casD => exact h.compareSwap ..
  | beq | bne | blt | bge | bltN | bgeN => exact h.branch ..
  | qscalePow2 | qscaleExact => exact h.qscale ..
  | trap => exact h.trapWith ..
  | illegalInstruction => exact h.trap ..
  | instructionFetchFault => exact h.execInstructionFetchFault
  | sld | sst | sgth | ssct | sred | scpy | sbank | salloc | sfree | seat | unseat | krun | jigGo | jigRev | finSet | coll | collAbt
  | sillLoad | sillGo => exact h.journalCmd ..
  | trapDelivery | deferredDataTrap => exact h.takePending ..
  | killBent => exact h.request fun _ _ => h.killBentMsg ..
  | createBent => exact h.request fun _ _ => h.createBentMsg ..
  | enqueuePeg => exact h.request fun _ _ => h.enqueuePegMsg ..
  | loadImage => exact h.request fun _ _ => h.loadImageMsg ..
  | keyInstall => exact h.request fun _ _ => h.keyInstallMsg ..
  | attestation => exact h.request fun _ _ => h.attestationMsg ..
  | telemetry => exact h.request fun _ _ => h.telemetryMsg ..
  | dumpRetrieval => exact h.request fun _ _ => h.dumpMsg ..
  | jal => exact h.execJal ..
  | j => exact h.execJ ..
  | jalr => exact h.execJalr ..
  | fence => exact h.execFence ..
  | gets => exact h.execGets ..
  | puts => exact h.execPuts ..
  | mwait => exact h.execMwait ..
  | phreg => exact h.execPhreg ..
  | phdrop => exact h.execPhdrop ..
  | phsig => exact h.execPhsig ..
  | phwait => exact h.execPhwait ..
  | semsig => exact h.execSemsig ..
  | semwait => exact h.execSemwait ..
  | semwaitS => exact h.execSemwaitS ..
  | spawn => exact h.execSpawn ..
  | join => exact h.execJoin
  | yield => exact h.execYield
  | exit => exact h.execExit
  | bentNew => exact h.execBentNew ..
  | bentKill => exact h.execBentKill ..
  | enq => exact h.execEnq ..
  | scrbInit => exact h.execScrbInit ..
  | scrbNext => exact h.execScrbNext ..
  | scrbRd => exact h.execScrbRd ..
  | est => exact h.execEst ..
  | tret => exact h.execTret
  | ecall => exact h.execEcall ..
  | tlbi => exact h.execTlbi ..
  | tlbiAll => exact h.execTlbiAll
  | klock => exact h.execKlock ..
  | kunlock => exact h.execKunlock ..
  | iflush => exact h.execIflush
  | jdrop => exact h.execJdrop ..
  | descLd => exact h.execDescLd ..
  | jrnlRd => exact h.execJrnlRd ..
  | bundleIssue => exact h.execBundleIssue ..
  | stallStep => exact h.execStallStep ..
  | imemLineFill => exact h.execImemLineFill ..
  | contextLaunch => exact h.execContextLaunch ..
  | contextHalt => exact h.execContextHalt ..
  | srfxFlagSet => exact h.execSrfxFlagSet ..
  | semarmFlagSet => exact h.execSemarmFlagSet ..
  | pharmFlagSet => exact h.execPharmFlagSet ..
  | commandStart => exact h.execCommandStart ..
  | commandElement => exact h.execCommandElement ..
  | commandComplete => exact h.execCommandComplete ..
  | jigRunStart => exact h.execJigRunStart ..
  | jigStep => exact h.execJigStep ..
  | scribeMerge => exact h.execScribeMerge ..
  | pegDispatch => exact h.execPegDispatch ..
  | waitingPegReady => exact h.execWaitingPegReady ..
  | mwaitSpinExpiry => exact h.execMwaitSpinExpiry ..
  | mwaitTimeout => exact h.execMwaitTimeout ..
  | monitorLoss => exact h.execMonitorLoss ..
  | priorityAgeing => exact h.execPriorityAgeing ..
  | preemptionRequest => exact h.execPreemptionRequest ..
  | contextRestFreeze => exact h.execContextRestFreeze ..
  | preemptionEscalated => exact h.execPreemptionEscalated ..
  | preemptionComplete => exact h.execPreemptionComplete ..
  | pegMigration => exact h.execPegMigration ..
  | kill => exact h.execKill ..
  | watchdog => exact h.execWatchdog ..
  | accFirstUse => exact h.execAccFirstUse ..
  | bentRecordWriteback => exact h.execBentRecordWriteback ..
  | pageWalk => exact h.execPageWalk ..
  | homeAccess => exact h.execHomeAccess ..
  | mergeAtHome => exact h.execMergeAtHome ..
  | scrub => exact h.execScrub ..
  | sillRunStart => exact h.execSillRunStart ..
  | sillWait => exact h.execSillWait ..
  | sillMv => exact h.execSillMv ..
  | sillRd => exact h.execSillRd ..
  | sillWr => exact h.execSillWr ..
  | sillRef => exact h.execSillRef ..
  | sillGate => exact h.execSillGate ..
  | sillLds => exact h.execSillLds ..
  | sillPassEnd => exact h.execSillPassEnd ..
  | sillGateReread => exact h.execSillGateReread ..
  | sillGateTimeout => exact h.execSillGateTimeout ..
  | sillRefreshInsert => exact h.execSillRefreshInsert ..
  | fabricPacket => exact h.execFabricPacket ..
  | fabricTimeout => exact h.execFabricTimeout ..
  | fabricErrorAnswer => exact h.execFabricErrorAnswer ..
  | linkBringUp => exact h.execLinkBringUp ..
  | linkKeyRenewal => exact h.execLinkKeyRenewal ..
  | collTimeout => exact h.execCollTimeout ..
  | collAbtMemberTimeout => exact h.execCollAbtMemberTimeout ..
  | rdmaWrite => exact h.execRdmaWrite ..
  | rdmaRead => exact h.execRdmaRead ..
  | roceInvalidRequest => exact h.execRoceInvalidRequest ..
  | arpRequest => exact h.execArpRequest ..
  | neighborDiscovery => exact h.execNeighborDiscovery ..
  | frameDrop => exact h.execFrameDrop ..
  | ptpMessage => exact h.execPtpMessage ..
  | init => exact h.execInit ..
  | powerSample => exact h.execPowerSample ..
  | thermalHold => exact h.execThermalHold ..
  | thermalRelease => exact h.execThermalRelease ..
  | thermalTrip => exact h.execThermalTrip ..
  | inputPowerFault => exact h.execInputPowerFault
  | lineEviction => exact h.execLineEviction ..
  | configurationRecordUpdate => exact h.execConfigurationRecordUpdate ..
  | firmwareStateError => exact h.execFirmwareStateError
  | powerUp => exact h.execPowerUp ..
  | resetInput => exact h.execResetInput ..
  | powerRemoval => exact keepsAligned_execPowerRemoval s
  | collStepMessage => exact (keepsAligned_next _).mpr (by simpa using h)
  | collAbtMessage => exact (keepsAligned_next _).mpr (by simpa using h)
  | datagramDrop => exact h.stay

/-- Every step of the machine keeps its pcs aligned. -/
theorem Pcs.Aligned.step {s : State} (h : s.pcs.Aligned) : KeepsAligned (step s) := by
  have ht : (s.beginTurn s.turn).pcs.Aligned := by simpa using h
  have hb := ht.of_eq (State.pcs_boundary _)
  unfold Sys2Proof.Machine.step
  dsimp only
  split
  · split
    · next e => rw [e] at hb; exact hb
    · next e => rw [e] at hb; exact hb.exec _
  · split
    · exact ht.exec _
    · exact ht

/-- Settles O57: the pcs of a machine are aligned, and every step keeps them so. -/
theorem stepKeepsPcAligned : Obligations.StepKeepsPcAligned := by
  intro s t hs ht
  have h := ((pcAligned_iff s).mp hs).step
  rw [ht] at h
  exact (pcAligned_iff t).mpr h

end Sys2Proof.Machine
end

section
/-! SUPPORT for O33. What reaching an instruction's own data leaves alone: all but caches, TLBs, link counters and the core's wait. -/

namespace Sys2Proof.Machine
open Sys2Proof Sys2Proof.Claims

/-- `t` is `s` but for what caches, TLBs and link counters hold, and for the wait of a core for its own data. -/
structure Served (s t : State) : Prop where
  frame : ∃ (cores : AMap Core) (bays : AMap Bay) (peers : AMap Peer), t = { s with cores := cores, bays := bays, peers := peers }
  core : ∀ c, ∃ dc asked, t.core c = { s.core c with dcache := dc, asked := asked }
  journals : ∀ e ∈ s.cores, ∃ e' ∈ t.cores, e'.2.journal = e.2.journal

theorem Served.refl (s : State) : Served s s :=
  ⟨⟨_, _, _, rfl⟩, fun _ => ⟨_, _, rfl⟩, fun e he => ⟨e, he, rfl⟩⟩

theorem Served.trans {s t u : State} (h : Served s t) (q : Served t u) : Served s u where
  frame := by
    obtain ⟨cs, bs, ps, rfl⟩ := h.frame
    obtain ⟨cs', bs', ps', rfl⟩ := q.frame
    exact ⟨cs', bs', ps', rfl⟩
  core c := by
    obtain ⟨dc, a, e⟩ := h.core c
    obtain ⟨dc', a', e'⟩ := q.core c
    exact ⟨dc', a', by rw [e', e]⟩
  journals e he := by
    obtain ⟨e1, he1, h1⟩ := h.journals e he
    obtain ⟨e2, he2, h2⟩ := q.journals e1 he1
    exact ⟨e2, he2, h2.trans h1⟩

/-! ## Maps that change every entry in place -/

/-- A change of every entry that keeps its key is seen by a read. -/
theorem AMap.find?_map {α : Type} {g : Nat × α → Nat × α} (hg : ∀ e, (g e).1 = e.1) (m : AMap α) (n : Nat) :
    AMap.find? (m.map g) n = (m.find? n).map (fun v => (g (n, v)).2) := by
  induction m with
  | nil => rfl
  | cons e t ih =>
    obtain ⟨k, v⟩ := e
    rw [List.map_cons, show g (k, v) = (k, (g (k, v)).2) from Prod.ext (hg _) rfl, AMap.find?_cons, AMap.find?_cons, ih]
    split
    · next h => rw [h, Option.map_some]
    · rfl

/-- A put of a new key leaves every entry. -/
theorem AMap.mem_put_of_none {α : Type} {m : AMap α} {n : Nat} (x : α) {e : Nat × α} (h : e ∈ m) (hn : m.find? n = none) :
    e ∈ m.put n x := by
  induction m with
  | nil => cases h
  | cons a t ih =>
    obtain ⟨k, y⟩ := a
    have hk : ¬ k = n := fun hk => by simp [AMap.find?_cons, hk] at hn
    rw [AMap.find?_cons, if_neg hk] at hn
    simp only [AMap.put, if_neg hk]
    split
    · exact List.mem_cons_of_mem _ h
    · rcases List.mem_cons.mp h with h | h
      · exact h ▸ List.mem_cons_self
      · exact List.mem_cons_of_mem _ (ih h hn)

/-! ## The steps that reach data -/

theorem Served.setBay (s : State) (b : Nat) (y : Bay) : Served s (s.setBay b y) :=
  ⟨⟨_, _, _, rfl⟩, fun _ => ⟨_, _, rfl⟩, fun e he => ⟨e, he, rfl⟩⟩

theorem Served.countPackets (s : State) (p n : Nat) : Served s (s.countPackets p n) :=
  ⟨⟨_, _, _, rfl⟩, fun _ => ⟨_, _, rfl⟩, fun e he => ⟨e, he, rfl⟩⟩

/-- The end of a wait of the acting core. -/
theorem Served.heard (s : State) : Served s s.heard where
  frame := ⟨_, _, _, rfl⟩
  core c := by
    by_cases hc : c = s.cur
    · subst hc
      exact ⟨_, none, s.me_setMe _⟩
    · exact ⟨_, _, s.core_setMe_other c _ hc⟩
  journals e he := by
    cases hf : s.cores.find? s.cur with
    | none => exact ⟨e, AMap.mem_put_of_none _ he hf, rfl⟩
    | some k =>
      rcases AMap.mem_put_of_mem _ he hf with rfl | h
      · exact ⟨_, AMap.mem_put_same _ _ _, by simp [State.me, State.core, AMap.get, hf]⟩
      · exact ⟨e, h, rfl⟩

/-- Lines of data caches that go. -/
theorem Served.mapCores {s : State} {g : Nat × Core → Nat × Core} (hk : ∀ e, (g e).1 = e.1)
    (hg : ∀ e, ∃ dc, (g e).2 = { e.2 with dcache := dc }) (hr : ∀ c, (g (c, Core.reset)).2 = Core.reset) :
    Served s { s with cores := s.cores.map g } where
  frame := ⟨_, _, _, rfl⟩
  core c := by
    have h : ({ s with cores := s.cores.map g } : State).core c = (g (c, s.core c)).2 := by
      simp only [State.core, AMap.get, AMap.find?_map hk]
      cases s.cores.find? c with
      | none => exact (hr c).symm
      | some k => rfl
    obtain ⟨dc, e⟩ := hg (c, s.core c)
    exact ⟨dc, _, h.trans e⟩
  journals e he := by
    obtain ⟨dc, q⟩ := hg e
    exact ⟨g e, List.mem_map_of_mem he, by rw [q]⟩

theorem Served.dropStale (s : State) (bay : Nat) (ts : List TlbEntry) : Served s (s.dropStale bay ts) := by
  unfold State.dropStale
  extract_lets y u
  have hu : Served s u := by
    unfold u
    split
    · exact Served.setBay s bay _
    · exact Served.refl s
  refine hu.trans (Served.mapCores (fun e => by split <;> rfl) (fun e => ?_) (fun c => ?_))
  · split
    · exact ⟨_, rfl⟩
    · exact ⟨_, rfl⟩
  · simp [Core.reset]

theorem Served.enterTlb (s : State) (bay : Nat) (t : TlbEntry) : Served s (s.enterTlb bay t) := by
  unfold State.enterTlb
  extract_lets old gone u y
  have hu : Served s u := by
    unfold u
    split
    · exact Served.refl s
    · exact Served.dropStale s bay gone
  exact hu.trans (Served.setBay u bay _)

theorem Served.install (s : State) (bay b : Nat) (va : Word) : Served s (s.install bay b va) := by
  unfold State.install
  extract_lets root
  split
  · exact Served.refl s
  · split
    · exact Served.enterTlb s bay _
    · exact Served.refl s

theorem Served.sent (s : State) (pa n : Nat) : Served s (s.sent pa n) := by
  unfold State.sent
  split
  · exact Served.refl s
  · split
    · exact Served.countPackets s _ _
    · exact Served.refl s

theorem Served.cacheLines (s : State) (bay : Nat) (l : Loc) (n : Nat) : Served s (s.cacheLines bay l n) := by
  unfold State.cacheLines
  dsimp only
  split
  · exact Served.refl s
  · split
    · exact Served.refl s
    · exact Served.setBay s bay _

/-- What an access touches on its way (R76, R94, R104). -/
theorem Served.touched (s : State) (bay b : Nat) (va : Word) (l : Loc) (n : Nat) (need : Need) : Served s (s.touched bay b va l n need) := by
  unfold State.touched
  dsimp only
  split
  · exact (Served.install s bay b va).trans (Served.cacheLines _ bay l n)
  · exact (Served.install s bay b va).trans (Served.sent _ l.pa n)

/-- The machine once an instruction's own data has been reached. -/
theorem Served.reached (s : State) (va : Word) (n : Nat) (need : Need) (l : Loc) : Served s (Claims.reached s va n need l) :=
  (Served.heard s).trans (Served.touched _ _ _ va l n need)

end Sys2Proof.Machine
end

section
/-! SUPPORT for O33. What a state in which an instruction's own data has been reached shares with the one before. -/

namespace Sys2Proof.Machine
open Sys2Proof Sys2Proof.Claims

section
variable {s t : State} (h : Served s t)
include h

theorem Served.cur : t.cur = s.cur := by obtain ⟨_, _, _, rfl⟩ := h.frame; rfl
theorem Served.pegs : t.pegs = s.pegs := by obtain ⟨_, _, _, rfl⟩ := h.frame; rfl
theorem Served.bents : t.bents = s.bents := by obtain ⟨_, _, _, rfl⟩ := h.frame; rfl
theorem Served.mem : t.mem = s.mem := by obtain ⟨_, _, _, rfl⟩ := h.frame; rfl
theorem Served.unitKey : t.unitKey = s.unitKey := by obtain ⟨_, _, _, rfl⟩ := h.frame; rfl
theorem Served.keys : t.keys = s.keys := by obtain ⟨_, _, _, rfl⟩ := h.frame; rfl
theorem Served.mgmt : t.mgmt = s.mgmt := by obtain ⟨_, _, _, rfl⟩ := h.frame; rfl
theorem Served.accums : t.accums = s.accums := by obtain ⟨_, _, _, rfl⟩ := h.frame; rfl
theorem Served.stamp : t.stamp = s.stamp := by obtain ⟨_, _, _, rfl⟩ := h.frame; rfl
theorem Served.lockedOut (pa n : Nat) : t.lockedOut pa n = s.lockedOut pa n := by obtain ⟨_, _, _, rfl⟩ := h.frame; rfl
theorem Served.under (b a : Nat) : t.under b a = s.under b a := by obtain ⟨_, _, _, rfl⟩ := h.frame; rfl
theorem Served.root (b : Nat) : t.root b = s.root b := by obtain ⟨_, _, _, rfl⟩ := h.frame; rfl
theorem Served.pickSlot (r : Bent) : t.pickSlot r = s.pickSlot r := by obtain ⟨_, _, _, rfl⟩ := h.frame; rfl
theorem Served.place (bay b : Nat) (awaited : Bool) : t.place bay b awaited = s.place bay b awaited := by
  obtain ⟨_, _, _, rfl⟩ := h.frame; rfl
theorem Served.pegAt (root : Nat) (addr : Word) : t.pegAt root addr = s.pegAt root addr := by obtain ⟨_, _, _, rfl⟩ := h.frame; rfl
theorem Served.myBay : t.myBay = s.myBay := by obtain ⟨_, _, _, rfl⟩ := h.frame; rfl

theorem Served.byteAt (slot : Option Nat) (pa : Nat) : t.byteAt slot pa = s.byteAt slot pa :=
  State.byteAt_congr h.mem h.unitKey h.keys h.mgmt slot pa

/-- The acting core is the same but for its data cache and its wait. -/
theorem Served.me : ∃ dc asked, t.me = { s.me with dcache := dc, asked := asked } := by
  unfold State.me
  rw [h.cur]
  exact h.core s.cur

theorem Served.pegId : t.pegId = s.pegId := by
  obtain ⟨dc, a, e⟩ := h.me
  unfold State.pegId
  rw [e]

theorem Served.peg? : t.peg? = s.peg? := by
  have hp : t.me.peg = s.me.peg := h.pegId
  unfold State.peg?
  rw [hp, h.pegs]

theorem Served.myBent : t.myBent = s.myBent := by
  unfold State.myBent
  rw [h.peg?]

theorem Served.getX (r : RegNo) : t.getX r = s.getX r := by
  obtain ⟨dc, a, e⟩ := h.me
  unfold State.getX
  rw [e]
  rfl

theorem Served.canTrap (hc : CanTrap s) : CanTrap t := by
  obtain ⟨dc, a, e⟩ := h.me
  unfold CanTrap
  rw [h.bents, h.myBent, e]
  exact hc

/-- A command that no core may have completed before has not completed now. -/
theorem Served.incomplete {n : Nat} (hn : s.incomplete n = true) : t.incomplete n = true := by
  unfold State.incomplete at hn ⊢
  rw [h.pegs]
  rw [Bool.or_eq_true, List.any_eq_true] at hn ⊢
  refine hn.imp_left fun ⟨e, he, hj⟩ => ?_
  obtain ⟨e', he', q⟩ := h.journals e he
  exact ⟨e', he', q ▸ hj⟩

end

/-! ## Traps -/

theorem hasHandler_of_canTrap {s : State} (h : CanTrap s) : s.hasHandler = true := by
  obtain ⟨⟨r, hr, hpc⟩, -⟩ := h
  simpa [State.hasHandler, hr] using hpc

/-- A delivery leaves the machine in its handler (R353, R356). -/
theorem deliver_eq_inHandler (s : State) (code : Nat) (addr info : Word) (hc : code < 256) :
    s.deliver ⟨0, code, info, addr, none, 0, false⟩ s.pc = inHandler s code addr info := by
  have hw : causeWord 0 code = BitVec.ofNat 64 (0x8000 + code) := by
    simp [causeWord, Nat.mod_eq_of_lt hc]
  have hb (k : Core) : (s.setMe k).bents = s.bents := rfl
  simp only [State.deliver, inHandler, hw, State.modBent, AMap.modify, hb]
  cases s.bents.find? s.myBent <;> rfl

theorem trapWith_eq_inHandler {s : State} (h : CanTrap s) {code : Nat} (hc : code < 256) (addr info : Word) :
    s.trapWith code addr info = .next (inHandler s code addr info) := by
  have hact0 : hact s.me.regs.trapCause = false := h.2
  simp only [State.trapWith, State.takeTrap, hact0, hasHandler_of_canTrap h, deliver_eq_inHandler s code addr info hc]
  rfl

theorem trap_eq_inHandler {s : State} (h : CanTrap s) {code : Nat} (hc : code < 256) : s.trap code = .next (inHandler s code 0 0) :=
  trapWith_eq_inHandler h hc 0 0

/-! ## Results -/

theorem skip_putX (s : State) (d : RegNo) (v : Word) : (s.putX d v).skip = wroteX s d v := by
  simp only [State.skip, State.setPc, State.putX, State.setMe_setMe, State.me_setMe, State.pc, wroteX, Core.putX]
  by_cases hd : d = 0
  · simp only [if_pos hd]
    rfl
  · simp only [if_neg hd]
    rfl

theorem retX_eq_wroteX (s : State) (d : RegNo) (v : Word) : s.retX d v = .next (wroteX s d v) := by
  rw [State.retX_eq, skip_putX]

/-! ## Releases -/

/-- A merge's command, if it is one, counts as completed for the wait only when no journal holds it any more. -/
theorem completed_spec {s : State} {q : Option Nat} (h : s.completed q = true) : ∀ n, q = some n →
    (∀ e ∈ s.cores, ∀ c ∈ e.2.journal, c.no ≠ n) ∧ (∀ e ∈ s.pegs, ∀ f, e.2.coreFrame = some f → ∀ c ∈ f.cmds, c.no ≠ n) := by
  rintro n rfl
  simp only [State.completed, State.incomplete, Bool.not_eq_true', Bool.or_eq_false_iff, List.any_eq_false] at h
  obtain ⟨h1, h2⟩ := h
  refine ⟨fun e he c hc => ?_, fun e he f hf c hc => ?_⟩
  · have := h1 e he
    simp at this
    exact this c hc
  · have := h2 e he
    rw [hf] at this
    simp at this
    exact this c hc

theorem Served.completed {s t : State} (h : Served s t) {q : Option Nat} (ht : t.completed q = true) : s.completed q = true := by
  cases q with
  | none => rfl
  | some n =>
    simp only [State.completed, Bool.not_eq_true'] at ht ⊢
    cases hs : s.incomplete n with
    | false => rfl
    | true => exact absurd (h.incomplete hs) (by simp [ht])

/-- A release that has nothing to wait for before an access has nothing to wait for once its data has been reached (R288, R289). -/
theorem Served.releaseWaits {s t : State} (h : Served s t) {scope : Nat} {mask : BitVec 16} (hw : ¬ Waits s scope mask) :
    t.releaseWaits scope mask = false := by
  obtain ⟨hp, hm⟩ := not_or.mp hw
  have hpend : t.pending = s.pending := by obtain ⟨_, _, _, rfl⟩ := h.frame; rfl
  have hmerges : t.merges = s.merges := by obtain ⟨_, _, _, rfl⟩ := h.frame; rfl
  have hrecs : t.recordMerges = s.recordMerges := by obtain ⟨_, _, _, rfl⟩ := h.frame; rfl
  have hag : t.myAgent = s.myAgent := by simp only [State.myAgent, h.pegId, h.mgmt]
  rw [State.releaseWaits, Bool.or_eq_false_iff]
  constructor
  · rw [State.owes, hpend, hag, List.any_eq_false]
    intro a ha hc
    simp only [inMask, Bool.and_true, Bool.and_eq_true, decide_eq_true_eq, Bool.not_eq_true'] at hc
    obtain ⟨⟨hagent, hlost⟩, hmask⟩ := hc
    exact hp ⟨a, ha, hagent, hlost, hmask⟩
  · by_contra hc
    rw [Bool.not_eq_false, State.ackWaits, h.pegId] at hc
    simp only [scopeAcks, Bool.and_eq_true, decide_eq_true_eq] at hc
    obtain ⟨hsc, hc⟩ := hc
    cases hid : s.pegId with
    | none => simp [hid] at hc
    | some id =>
      simp only [hid, State.mergesOwed, Bool.or_eq_true, hmerges, hrecs] at hc
      refine hm ⟨hsc, id, hid, hc.imp (fun hc => ?_) (fun hc => ?_)⟩
      · obtain ⟨m, hmem, hc⟩ := List.any_eq_true.mp hc
        obtain ⟨q, hq, hc⟩ := List.any_eq_true.mp hc
        simp only [inMask, Bool.and_eq_true, decide_eq_true_eq] at hc
        obtain ⟨⟨hpeg, hmask⟩, hdone⟩ := hc
        exact ⟨m, hmem, q, hq, hpeg, hmask, completed_spec (h.completed hdone)⟩
      · obtain ⟨m, hmem, hc⟩ := List.any_eq_true.mp hc
        simp only [inMask, Bool.and_eq_true, decide_eq_true_eq, Bool.not_eq_true'] at hc
        obtain ⟨⟨⟨⟨hpeg, hsill⟩, hlost⟩, hmask⟩, hdone⟩ := hc
        exact ⟨m, hmem, hpeg, hsill, hlost, hmask, completed_spec (h.completed hdone)⟩

/-- Such a release goes on at once. -/
theorem Served.release {s t : State} (h : Served s t) {scope : Nat} {mask : BitVec 16} (hw : ¬ Waits s scope mask) (k : State → Result) :
    t.release scope mask k = k t := by
  rw [State.release, h.releaseWaits hw]
  rfl

/-! ## The data -/

/-- An instruction whose own data can be used goes on once it has been reached (R135, R434). -/
theorem withLoc_of_reaches {s : State} {va : Word} {n cls : Nat} {need : Need} {reads : Bool} {l : Loc} (h : Reaches s va n cls need reads l)
    (k : State → Loc → Result) : s.withLoc va n n cls need reads k = k (Claims.reached s va n need l) l := by
  obtain ⟨hacc, hprobe, -, -⟩ := h
  unfold State.access at hacc
  split at hacc
  · cases hacc
  · next ha =>
    rw [State.withLoc, if_neg ha, hacc]
    simp only [hprobe]
    rfl

theorem range_eq_rangeFrom (lo n : Nat) : rangeFrom lo n = (List.range n).map (lo + ·) := by
  induction n generalizing lo with
  | zero => rfl
  | succ n ih =>
    rw [rangeFrom, ih, List.range_succ_eq_map, List.map_cons, List.map_map]
    simp [Nat.add_comm, Nat.add_left_comm]

theorem bytesAt_eq_map (s : State) (slot : Option Nat) (pa n : Nat) : s.bytesAt slot pa n = (List.range n).map (fun k => s.byteAt slot (pa + k)) := by
  refine List.ext_getElem (by simp) fun i h1 h2 => ?_
  rw [State.bytesAt_getElem, List.getElem_map, List.getElem_range]

/-- A read under a slot of its own, or through a bay whose L2 holds nothing, sees every byte under the access's slot (R96). -/
theorem seenSlot_eq_slot {s : State} {bay : Nat} {l : Loc} (h : (l.slot.isSome || (s.bay bay).l2.isEmpty) = true) (pa : Nat) :
    s.seenSlot bay l pa = l.slot := by
  unfold State.seenSlot
  rcases Bool.or_eq_true _ _ ▸ h with hs | hl
  · obtain ⟨k, hk⟩ := Option.isSome_iff_exists.mp hs
    rw [hk]
  · rw [List.isEmpty_iff.mp hl, AMap.find?_nil]
    cases l.slot <;> rfl

/-- A read of its own data by an instruction receives the bytes that meet its core's bay (R96). -/
theorem fetchLoc_of_reaches {s : State} {va : Word} {n cls : Nat} {need : Need} {reads : Bool} {l : Loc} (h : Reaches s va n cls need reads l)
    {t : State} (ht : Served s t) (core : Option Nat) (bay : Nat) : t.fetchLoc core bay l n = (t, meetsBytes t bay l n) := by
  obtain ⟨-, -, hcp, hacc⟩ := h
  have hst : t.isStale l = false := by
    rw [State.isStale, State.remote?_congr ht.mgmt]
    rcases hcp with hcp | hr
    · simp [hcp]
    · simp [hr]
  have hcl : t.closeAccums l.pa n = t := State.closeAccums_none t l.pa n (ht.accums ▸ hacc)
  rw [State.fetchLoc, hst]
  simp only [hcl, meetsBytes, Bool.false_eq_true, if_false]
  split
  · next hs => simp only [seenSlot_eq_slot hs, bytesAt_eq_map]
  · rw [range_eq_rangeFrom, List.map_map]
    rfl

end Sys2Proof.Machine
end

section
/-! SUPPORT for O33. The registers that an instruction with one x destination leaves. -/

namespace Sys2Proof.Machine
open Sys2Proof Sys2Proof.Claims

theorem me_wroteX (s : State) (d : RegNo) (v : Word) : (wroteX s d v).me = { s.me with
    x := if d = 0 then s.me.x else s.me.x.set d.toNat v d.isLt, pc := s.me.pc + 4 } := s.me_setMe _

theorem getX_wroteX (s : State) (d r : RegNo) (v : Word) : (wroteX s d v).getX r = if r = d ∧ d ≠ 0 then v else s.getX r := by
  rw [← skip_putX, State.getX_skip, State.getX_putX]

/-- A core that is another but for its data cache, its wait and its spin. -/
def SameRegs (k q : Core) : Prop := ∃ dc asked spin, q = { k with dcache := dc, asked := asked, spin := spin }

theorem SameRegs.trans {k q w : Core} (h : SameRegs k q) (h' : SameRegs q w) : SameRegs k w := by
  obtain ⟨_, _, _, rfl⟩ := h
  obtain ⟨dc, asked, spin, rfl⟩ := h'
  exact ⟨dc, asked, spin, rfl⟩

theorem Served.sameRegs {s t : State} (h : Served s t) : SameRegs s.me t.me := by
  obtain ⟨dc, a, e⟩ := h.me
  exact ⟨dc, a, _, e⟩

/-- An instruction whose other effects leave the core's registers alone writes its destination only. -/
theorem onlyX_wroteX {s u : State} (hc : u.cur = s.cur) (hm : SameRegs s.me u.me) (d : RegNo) (v : Word) : OnlyX s (wroteX u d v) d v := by
  obtain ⟨dc, asked, spin, e⟩ := hm
  have hx (r : RegNo) : u.getX r = s.getX r := by
    unfold State.getX
    rw [e]
    rfl
  refine ⟨hc, ?_, ?_, fun r hr => ?_, ?_, ?_, ?_, ?_, ?_⟩
  case refine_2 =>
    rw [getX_wroteX]
    by_cases hd : d = 0
    · rw [if_neg fun h => h.2 hd, if_pos hd, hd, State.getX_zero]
    · rw [if_pos ⟨rfl, hd⟩, if_neg hd]
  case refine_3 => rw [getX_wroteX, if_neg fun h => hr h.1, hx]
  all_goals rw [me_wroteX, e]

end Sys2Proof.Machine
end

section
/-! SUPPORT for O33. ENQ (R164). -/

namespace Sys2Proof.Machine
open Sys2Proof Sys2Proof.Claims

/-! ## What an enqueue comes to, case by case -/

/-- The peg that an enqueue makes of a record at an address (R164): ready, with the record's PIN, core and LINK, and not saved. -/
def enqueuedPeg (s : State) (caller : Nat) (addr : Word) (t : PegRecord) : Peg :=
  { Peg.fresh addr t.bent with
    pin := t.pin, core := if t.pin then t.core else 0, link := t.link
    parent := if t.link = 0 then none else s.pegAt (s.root caller) t.link }

section
variable {s : State} {caller bay : Nat} {addr : Word} {data : List Byte} {tb : Bent}

theorem enqueue_refused (h : (PegRecord.parse data).refused = true) : s.enqueue caller bay addr data = .status 3 := by
  simp only [State.enqueue, h, if_true]

variable (h : (PegRecord.parse data).refused = false)
include h

theorem enqueue_absent (hb : s.bents.find? (PegRecord.parse data).bent = none) : s.enqueue caller bay addr data = .status 2 := by
  simp only [State.enqueue, h, hb, Bool.false_eq_true, if_false]

variable (hb : s.bents.find? (PegRecord.parse data).bent = some tb)
include hb

theorem enqueue_foreign (hf : tb.drain = true ∨ s.root (PegRecord.parse data).bent ≠ s.root caller) :
    s.enqueue caller bay addr data = .status 2 := by
  have hc : (tb.drain || decide (s.root (PegRecord.parse data).bent ≠ s.root caller)) = true := by simpa using hf
  simp only [State.enqueue, h, hb, hc, Bool.false_eq_true, if_false, if_true]

variable (hd : tb.drain = false) (hr : s.root (PegRecord.parse data).bent = s.root caller)
include hd hr

theorem enqueue_unready (hu : (PegRecord.parse data).st ≠ 1 ∨ (PegRecord.parse data).psave = true ∨ (s.pegAt (s.root caller) addr).isSome = true) :
    s.enqueue caller bay addr data = .status 3 := by
  have hc : (decide (¬(PegRecord.parse data).st = 1) || (PegRecord.parse data).psave || (s.pegAt (s.root caller) addr).isSome) = true := by
    simpa [or_assoc] using hu
  simp only [State.enqueue, h, hb, hd, hr, ne_eq, not_true_eq_false, decide_false, Bool.or_false, Bool.false_eq_true, if_false]
  exact if_pos hc

variable {rl : Loc} (hst : (PegRecord.parse data).st = 1) (hps : (PegRecord.parse data).psave = false)
  (hfree : (s.pegAt (s.root caller) addr).isSome = false) (hrl : s.recordLoc bay (Peg.fresh addr (PegRecord.parse data).bent) .both = .ok rl)
include hst hps hfree hrl

theorem enqueue_noRoom (hp : s.place bay (PegRecord.parse data).bent ((PegRecord.parse data).link != 0) = .noRoom) :
    s.enqueue caller bay addr data = .status 1 := by
  simp only [State.enqueue, h, hb, hd, hr, hst, hps, hfree, hrl, hp, ne_eq, not_true_eq_false, decide_false, Bool.or_false, Bool.false_eq_true,
    if_false]

theorem enqueue_pool {n : Nat} (hp : s.place bay (PegRecord.parse data).bent ((PegRecord.parse data).link != 0) = .pool n) :
    s.enqueue caller bay addr data =
      .go ((s.markSlots (PegRecord.parse data).bent addr true).addPeg (enqueuedPeg s caller addr (PegRecord.parse data)) (.pool n)).1 := by
  simp only [State.enqueue, h, hb, hd, hr, hst, hps, hfree, hrl, hp, ne_eq, not_true_eq_false, decide_false, Bool.or_false, Bool.false_eq_true,
    if_false]
  rfl

end

/-! ## ENQ -/

section
variable {s : State} {d a : RegNo} {l : Loc} (hp : s.privileged = true) (h : Reaches s (s.getX a) 64 0 .read true l)
include hp h

/-- ENQ answers what its enqueue comes to. -/
theorem exec_enq_status {n : Nat}
    (he : (Claims.reached s (s.getX a) 64 .read l).enqueue s.myBent s.myBay (s.getX a) (ownBytes s (s.getX a) 64 l) = .status n) :
    exec (.enq d a) s = .next (wroteX (Claims.reached s (s.getX a) 64 .read l) d (BitVec.ofNat 64 n)) := by
  have hr := Served.reached s (s.getX a) 64 .read l
  change execEnq d a s = _
  simp only [execEnq, hp, Bool.not_true, Bool.false_eq_true, if_false]
  rw [withLoc_of_reaches h]
  simp only [hr.myBay, hr.myBent, fetchLoc_of_reaches h hr]
  unfold ownBytes at he
  rw [he]
  exact retX_eq_wroteX _ d _

/-- ENQ enters its peg once the release has nothing to wait for. -/
theorem exec_enq_go {u : State} (hw : ¬ Waits s 3 allClasses)
    (he : (Claims.reached s (s.getX a) 64 .read l).enqueue s.myBent s.myBay (s.getX a) (ownBytes s (s.getX a) 64 l) = .go u) :
    exec (.enq d a) s = .next (wroteX u d 0) := by
  have hr := Served.reached s (s.getX a) 64 .read l
  change execEnq d a s = _
  simp only [execEnq, hp, Bool.not_true, Bool.false_eq_true, if_false]
  rw [withLoc_of_reaches h]
  simp only [hr.myBay, hr.myBent, fetchLoc_of_reaches h hr]
  unfold ownBytes at he
  rw [he]
  dsimp only
  rw [hr.release hw]
  simp only [hr.myBay, hr.myBent, he]
  exact retX_eq_wroteX u d 0

end

end Sys2Proof.Machine
end

section
/-! SUPPORT for O33. ENQ's answers (R164). -/

namespace Sys2Proof.Machine
open Sys2Proof Sys2Proof.Claims

/-- A peg that enters a bay's pool is found under the stamp it takes (R343). -/
theorem find?_pegs_addPeg_pool (s : State) (p : Peg) (n : Nat) :
    (s.addPeg p (.pool n)).1.pegs.find? s.stamp = some { p with pool := some n, age := s.stamp, readySince := s.elapsed } :=
  AMap.find?_put_same s.pegs s.stamp _

@[simp] theorem State.me_addPeg_pool (s : State) (p : Peg) (n : Nat) : (s.addPeg p (.pool n)).1.me = s.me := rfl
@[simp] theorem State.cur_addPeg_pool (s : State) (p : Peg) (n : Nat) : (s.addPeg p (.pool n)).1.cur = s.cur := rfl
@[simp] theorem State.mem_addPeg_pool (s : State) (p : Peg) (n : Nat) : (s.addPeg p (.pool n)).1.mem = s.mem := rfl
@[simp] theorem State.me_markSlots (s : State) (b : Nat) (addr : Word) (used : Bool) : (s.markSlots b addr used).me = s.me := rfl
@[simp] theorem State.cur_markSlots (s : State) (b : Nat) (addr : Word) (used : Bool) : (s.markSlots b addr used).cur = s.cur := rfl
@[simp] theorem State.mem_markSlots (s : State) (b : Nat) (addr : Word) (used : Bool) : (s.markSlots b addr used).mem = s.mem := rfl
@[simp] theorem mem_wroteX (s : State) (d : RegNo) (v : Word) : (wroteX s d v).mem = s.mem := rfl

/-- R164: ENQ of a privileged peg. -/
theorem enqueueAnswers : EnqueueAnswers := by
  intro s d a l hp h t r answers
  have hr : Served s r := Served.reached s (s.getX a) 64 .read l
  refine ⟨fun href => exec_enq_status hp h (enqueue_refused href), fun href => ⟨fun hb => ?_, fun tb hb => ?_⟩⟩
  · exact exec_enq_status hp h (enqueue_absent href (hr.bents ▸ hb))
  have hb' : r.bents.find? t.bent = some tb := hr.bents ▸ hb
  refine ⟨fun hf => exec_enq_status hp h (enqueue_foreign href hb' ?_), fun hd hroot => ?_⟩
  · rwa [hr.root, hr.root]
  have hroot' : r.root t.bent = r.root s.myBent := by rw [hr.root, hr.root, hroot]
  refine ⟨fun hu => exec_enq_status hp h (enqueue_unready href hb' hd hroot' ?_), fun hst hps hfree rl hrl => ?_⟩
  · rwa [hr.root, hr.pegAt]
  have hfree' : (r.pegAt (r.root s.myBent) (s.getX a)).isSome = false := by rw [hr.root, hr.pegAt, hfree]
  refine ⟨fun hpl => exec_enq_status hp h (enqueue_noRoom href hb' hd hroot' hst hps hfree' hrl ?_), fun hpl hw => ?_⟩
  · exact (hr.place _ _ _).trans hpl
  rw [← hr.place] at hpl
  have he := exec_enq_go (d := d) hp h hw (enqueue_pool href hb' hd hroot' hst hps hfree' hrl hpl)
  have hfind := hr.stamp ▸ find?_pegs_addPeg_pool (r.markSlots t.bent (s.getX a) true) (enqueuedPeg r s.myBent (s.getX a) t) s.myBay
  refine ⟨_, _, he, onlyX_wroteX ?_ ?_ d 0, ?_, hfind, rfl, rfl, rfl, rfl, rfl, rfl, rfl⟩
  · simpa using hr.cur
  · simpa using hr.sameRegs
  · simpa using hr.mem

end Sys2Proof.Machine
end

section
/-! SUPPORT for O33. The fields of a block of bytes, and what a patch of it leaves (R28). -/

namespace Sys2Proof.Machine
open Sys2Proof Sys2Proof.Claims

theorem leNat_append (a b : List Byte) : leNat (a ++ b) = leNat a + 256 ^ a.length * leNat b := by
  induction a with
  | nil => simp [leNat]
  | cons x t ih =>
    simp only [List.cons_append, leNat, ih, List.length_cons, pow_succ]
    ring

theorem fieldN_lt (d : List Byte) (off n : Nat) : fieldN d off n < 256 ^ n :=
  (leNat_lt _).trans_le (Nat.pow_le_pow_right (by decide) (by simp))

theorem field64_toNat (d : List Byte) (off : Nat) : (field64 d off).toNat = fieldN d off 8 := by
  have h := fieldN_lt d off 8
  rw [field64, BitVec.toNat_ofNat]
  exact Nat.mod_eq_of_lt h

/-- A field is its low bytes and, above them, its high ones. -/
theorem fieldN_add (d : List Byte) (off m n : Nat) (h : off + m ≤ d.length) :
    fieldN d off (m + n) = fieldN d off m + 256 ^ m * fieldN d (off + m) n := by
  have hl : ((d.drop off).take m).length = m := by simp; omega
  simp only [fieldN, List.take_add, leNat_append, hl, List.drop_drop]

section
variable {d new : List Byte} {o : Nat} (ho : o + new.length ≤ d.length)
include ho

theorem patch_length : (patch d o new).length = d.length := by
  simp only [patch, List.length_append, List.length_take, List.length_drop]
  omega

theorem fieldN_patch_same : fieldN (patch d o new) o new.length = leNat new := by
  have hl : (d.take o).length = o := by simp; omega
  simp only [fieldN, patch, List.append_assoc]
  rw [List.drop_left' hl, List.take_left]

theorem fieldN_patch_below {off n : Nat} (h : off + n ≤ o) : fieldN (patch d o new) off n = fieldN d off n := by
  have hl : off + n ≤ (d.take o).length := by simp; omega
  rw [fieldN, patch, List.append_assoc, List.drop_append_of_le_length (by omega), List.take_append_of_le_length (by simp; omega),
    List.drop_take, List.take_take, min_eq_left (by omega), fieldN]

theorem fieldN_patch_above {off n : Nat} (h : o + new.length ≤ off) : fieldN (patch d o new) off n = fieldN d off n := by
  have hl : (d.take o ++ new).length = o + new.length := by simp; omega
  have hoff : off = (o + new.length) + (off - (o + new.length)) := by omega
  simp only [fieldN, patch]
  rw [hoff, ← List.drop_drop, List.drop_left' hl, List.drop_drop]

end

/-- The bytes at a place within a block that stands in memory. -/
theorem bytesAt_add (s : State) (slot : Option Nat) (pa off k n : Nat) (h : off + k ≤ n) :
    s.bytesAt slot (pa + off) k = ((s.bytesAt slot pa n).drop off).take k := by
  refine List.ext_getElem (by simp; omega) fun i h1 h2 => ?_
  simp only [State.bytesAt_getElem, List.getElem_take, List.getElem_drop, Nat.add_assoc]

end Sys2Proof.Machine
end

section
/-! SUPPORT for O33. What a write at home leaves of the cores and the pegs. -/

namespace Sys2Proof.Machine
open Sys2Proof Sys2Proof.Claims

/-! ## A write at home -/

/-- A write changes no peg but whether its wait has been met, no core but whether its spin has been woken. -/
structure Woken (s t : State) : Prop where
  cur : t.cur = s.cur
  stamp : t.stamp = s.stamp
  core : ∀ c, ∃ spin, t.core c = { s.core c with spin := spin }
  peg : ∀ id p, s.pegs.find? id = some p → ∃ met, t.pegs.find? id = some { p with met := met }

theorem Woken.wake (s : State) (pa n : Nat) : Woken s (s.wake pa n) where
  cur := rfl
  stamp := rfl
  core c := by
    unfold State.wake
    simp only [State.core, AMap.get]
    rw [AMap.find?_map fun e => by split <;> [(split <;> rfl); rfl]]
    cases s.cores.find? c with
    | none => exact ⟨_, rfl⟩
    | some k =>
      simp only [Option.map_some, Option.getD_some]
      split
      · split
        · exact ⟨_, rfl⟩
        · exact ⟨_, rfl⟩
      · exact ⟨_, rfl⟩
  peg id p hp := by
    unfold State.wake
    dsimp only
    rw [AMap.find?_map fun e => by split <;> [(split <;> rfl); rfl], hp]
    simp only [Option.map_some]
    split
    · split
      · exact ⟨_, rfl⟩
      · exact ⟨_, rfl⟩
    · exact ⟨_, rfl⟩

/-- Invalidating copies changes the bays' L2 slices only (R94). -/
theorem State.dropLines_eq (s : State) (pa n : Nat) : ∃ bays, s.dropLines pa n = { s with bays := bays } := by
  unfold State.dropLines
  split
  · exact ⟨_, rfl⟩
  · exact ⟨_, rfl⟩

/-- A write at home (R85, R282). -/
theorem Woken.writeLoc (s : State) (l : Loc) (data : List Byte) : Woken s (s.writeLoc l data) := by
  obtain ⟨m, k, hc⟩ := State.closeAccums_eq s l.pa data.length
  obtain ⟨bays, hd⟩ := State.dropLines_eq (s.closeAccums l.pa data.length) l.pa data.length
  obtain ⟨m', k', hp⟩ := State.putBytes_eq ((s.closeAccums l.pa data.length).dropLines l.pa data.length) l.slot l.pa data
  have h := Woken.wake { ((s.closeAccums l.pa data.length).dropLines l.pa data.length).putBytes l.slot l.pa data with
    poison := clearPoison (((s.closeAccums l.pa data.length).dropLines l.pa data.length).putBytes l.slot l.pa data).poison l.pa data.length } l.pa
    data.length
  change Woken _ (s.writeLoc l data) at h
  rw [hp, hd, hc] at h
  exact ⟨h.cur, h.stamp, h.core, h.peg⟩

end Sys2Proof.Machine
end

section
/-! SUPPORT for O33. What SPAWN makes of the machine (R159). -/

namespace Sys2Proof.Machine
open Sys2Proof Sys2Proof.Claims

/-- The record of a new peg (R159): the template with ST ready, PIN, PSAVE and CORE 0, and its LINK. -/
def spawnRecord (d : List Byte) (link : Word) : List Byte := patch (patch d 12 (leBytes 4 1)) 0x38 (leBytes 8 link.toNat)

/-- The LINK of a new peg (R159): its parent's record, when its template asks for a parent. -/
def spawnLink (t : PegRecord) (me : Peg) : Word := if t.link = 0 then 0 else me.recAddr

/-- The peg that SPAWN makes of a template (R159): a ready one, whose parent is the issuing peg when the template asks for one. -/
def spawnedPeg (addr : Word) (t : PegRecord) (id : Nat) (me : Peg) : Peg :=
  { Peg.fresh addr t.bent with link := spawnLink t me, parent := if t.link = 0 then none else some id }

/-- The parent of a new peg counts it (R159). -/
def State.countChild (s : State) (p : Peg) : State :=
  match p.parent with
  | some id => s.modPeg id (fun q => { q with joins := q.joins + 1 })
  | none => s

/-- The machine with a new peg: its record written, its slot taken, its parent's JoinCount raised, its entry in a bay's pool (R159). -/
def spawned (s : State) (p : Peg) (bay : Nat) (rl : Loc) (data : List Byte) : State :=
  let w := { s with free := s.free + 1 }.writeLoc rl data
  let w := (w.markSlots p.bent p.recAddr true).modBent p.bent (fun b => { b with spawns := b.spawns + 1 })
  ((w.countChild p).addPeg p (.pool bay)).1

/-! ## The new record -/

section
variable {d : List Byte} (hd : d.length = 64) (link : Word)
include hd

theorem spawnRecord_length : (spawnRecord d link).length = 64 := by
  have h : (patch d 12 (leBytes 4 1)).length = 64 := (patch_length (by simp [hd])).trans hd
  exact (patch_length (by simp [h])).trans h

theorem fieldN_spawnRecord_below {off : Nat} (n : Nat) (h : off + n ≤ 12) : fieldN (spawnRecord d link) off n = fieldN d off n := by
  have hl : (patch d 12 (leBytes 4 1)).length = 64 := (patch_length (by simp [hd])).trans hd
  rw [spawnRecord, fieldN_patch_below (by simp [hl]) (by omega), fieldN_patch_below (by simp [hd]) h]

theorem fieldN_spawnRecord_between {off : Nat} (n : Nat) (h : 16 ≤ off) (h' : off + n ≤ 56) :
    fieldN (spawnRecord d link) off n = fieldN d off n := by
  have hl : (patch d 12 (leBytes 4 1)).length = 64 := (patch_length (by simp [hd])).trans hd
  rw [spawnRecord, fieldN_patch_below (by simp [hl]) (by omega), fieldN_patch_above (by simp [hd]) (by simpa using h)]

/-- The STATE word of a new record is ready, with PIN, PSAVE and CORE 0. -/
theorem fieldN_spawnRecord_state : fieldN (spawnRecord d link) 12 4 = 1 := by
  have hl : (patch d 12 (leBytes 4 1)).length = 64 := (patch_length (by simp [hd])).trans hd
  have h := fieldN_patch_same (d := d) (new := leBytes 4 1) (o := 12) (by simp [hd])
  rw [leBytes_length, leNat_leBytes] at h
  rw [spawnRecord, fieldN_patch_below (by simp [hl]) (by omega), h]
  rfl

theorem fieldN_spawnRecord_link : fieldN (spawnRecord d link) 0x38 8 = link.toNat := by
  have hl : (patch d 12 (leBytes 4 1)).length = 64 := (patch_length (by simp [hd])).trans hd
  have h := fieldN_patch_same (d := patch d 12 (leBytes 4 1)) (new := leBytes 8 link.toNat) (o := 0x38) (by simp [hl])
  rw [leBytes_length, leNat_leBytes] at h
  exact h.trans (Nat.mod_eq_of_lt link.isLt)

/-- The second word of a new record holds its bent and its STATE. -/
theorem fieldN_spawnRecord_bent (hres : (PegRecord.parse d).bentRes = 0) :
    fieldN (spawnRecord d link) 8 8 = (PegRecord.parse d).bent + 2 ^ 32 := by
  have hs := spawnRecord_length hd link
  have h3 : fieldN (spawnRecord d link) 8 3 = (PegRecord.parse d).bent := fieldN_spawnRecord_below hd link 3 (by decide)
  have h1 : fieldN (spawnRecord d link) 11 1 = 0 := (fieldN_spawnRecord_below hd link 1 (by decide)).trans hres
  have h4 := fieldN_spawnRecord_state hd link
  rw [fieldN_add _ 8 4 4 (by omega), fieldN_add _ 8 3 1 (by omega), h3, h1, h4]
  norm_num

end

/-! ## The machine with the new peg -/

section
variable (s : State) (p : Peg)

/-- Counting a child changes pegs only. -/
theorem State.countChild_eq : ∃ pegs, s.countChild p = { s with pegs := pegs } := by
  unfold State.countChild
  split
  · exact ⟨_, rfl⟩
  · exact ⟨_, rfl⟩

theorem State.stamp_countChild : (s.countChild p).stamp = s.stamp := by
  obtain ⟨pegs, e⟩ := State.countChild_eq s p
  rw [e]

theorem State.find?_countChild (id : Nat) (q : Peg) (h : s.pegs.find? id = some q) :
    (s.countChild p).pegs.find? id = some { q with joins := q.joins + if p.parent = some id then 1 else 0 } := by
  unfold State.countChild
  split
  · next par hpar =>
    change (s.pegs.modify par _).find? id = _
    rw [AMap.find?_modify, hpar]
    by_cases hid : id = par
    · subst hid
      rw [if_pos rfl, h]
      simp
    · rw [if_neg hid, h]
      simp [Ne.symm hid]
  · next hpar => simp [h, hpar]

end

section
variable {s : State} {p : Peg} {bay : Nat} {rl : Loc} {data : List Byte}

/-- All but the pegs and the bents is as the write of the record left it. -/
theorem spawned_eq (s : State) (p : Peg) (bay : Nat) (rl : Loc) (data : List Byte) : ∃ pegs bents stamp,
    spawned s p bay rl data = { { s with free := s.free + 1 }.writeLoc rl data with pegs := pegs, bents := bents, stamp := stamp } := by
  unfold spawned
  extract_lets w0 w
  obtain ⟨pegs, e⟩ := State.countChild_eq w p
  rw [e]
  exact ⟨_, _, _, rfl⟩

theorem spawned_cur : (spawned s p bay rl data).cur = s.cur := by
  obtain ⟨_, _, _, e⟩ := spawned_eq s p bay rl data
  rw [e]
  exact (Woken.writeLoc _ rl data).cur

theorem spawned_sameRegs : SameRegs s.me (spawned s p bay rl data).me := by
  obtain ⟨_, _, _, e⟩ := spawned_eq s p bay rl data
  obtain ⟨spin, hs⟩ := (Woken.writeLoc { s with free := s.free + 1 } rl data).core s.cur
  refine ⟨_, _, spin, Eq.trans ?_ hs⟩
  unfold State.me
  rw [spawned_cur, e]
  rfl

/-- Its bytes are those that the write of the record left. -/
theorem spawned_byteAt (slot : Option Nat) (pa : Nat) :
    (spawned s p bay rl data).byteAt slot pa = ({ s with free := s.free + 1 }.writeLoc rl data).byteAt slot pa := by
  obtain ⟨_, _, _, e⟩ := spawned_eq s p bay rl data
  rw [e]
  exact State.byteAt_congr rfl rfl rfl rfl slot pa

/-- The new record stands where it was written. -/
theorem spawned_bytesAt : (spawned s p bay rl data).bytesAt rl.slot rl.pa data.length = data := by
  refine Eq.trans ?_ (State.bytesAt_putBytes ((({ s with free := s.free + 1 } : State).closeAccums rl.pa data.length).dropLines rl.pa data.length)
    rl.slot rl.pa data)
  exact State.bytesAt_congr _ _ _ fun i _ => (spawned_byteAt _ _).trans (State.writeLoc_byteAt _ _ _ _ _)

/-- A word of the new record. -/
theorem spawned_word {off n : Nat} (h : off + n ≤ data.length) :
    leNat ((spawned s p bay rl data).bytesAt rl.slot (rl.pa + off) n) = fieldN data off n := by
  rw [bytesAt_add _ _ _ _ _ _ h, spawned_bytesAt, fieldN]

/-- Nothing but the new record is written. -/
theorem spawned_onlyWrites (hacc : ∀ x ∈ s.accums, x.meets rl.pa data.length = false) :
    OnlyWrites s (spawned s p bay rl data) rl data.length := by
  have hcl : ({ s with free := s.free + 1 } : State).closeAccums rl.pa data.length = { s with free := s.free + 1 } :=
    State.closeAccums_none _ _ _ hacc
  have hb (slot : Option Nat) (pa : Nat) : ({ s with free := s.free + 1 } : State).byteAt slot pa = s.byteAt slot pa :=
    State.byteAt_congr rfl rfl rfl rfl slot pa
  refine ⟨fun pa h => ?_, fun slot pa h => ?_⟩
  · rw [spawned_byteAt, State.byteAt_writeLoc_outside _ _ _ _ h, hcl, hb]
  · rw [spawned_byteAt, State.byteAt_writeLoc_unit _ _ _ _ _ h, hcl, hb]

/-- The new peg has entered the bay's pool under the stamp it takes (R343). -/
theorem spawned_find?_new : ∃ since, (spawned s p bay rl data).pegs.find? s.stamp =
    some { p with pool := some bay, age := s.stamp, readySince := since } := by
  unfold spawned
  extract_lets w0 w
  have hs : (w.countChild p).stamp = s.stamp := (State.stamp_countChild w p).trans (Woken.writeLoc _ rl data).stamp
  exact ⟨_, hs ▸ find?_pegs_addPeg_pool (w.countChild p) p bay⟩

/-- A peg that was there has one child more if it is the new peg's parent. -/
theorem spawned_find?_old {id : Nat} {q : Peg} (hid : id ≠ s.stamp) (h : s.pegs.find? id = some q) :
    ∃ q', (spawned s p bay rl data).pegs.find? id = some q' ∧ q'.joins = q.joins + if p.parent = some id then 1 else 0 := by
  unfold spawned
  extract_lets w0 w
  have hw0 : Woken { s with free := s.free + 1 } w0 := Woken.writeLoc _ rl data
  obtain ⟨met, hq⟩ := hw0.peg id q h
  have hc := State.find?_countChild w p id { q with met := met } hq
  have hs : (w.countChild p).stamp = s.stamp := (State.stamp_countChild w p).trans hw0.stamp
  refine ⟨_, Eq.trans ?_ hc, rfl⟩
  exact AMap.find?_put_other _ _ _ _ (hs ▸ hid)

end

end Sys2Proof.Machine
end

section
/-! SUPPORT for O33. SPAWN (R159). -/

namespace Sys2Proof.Machine
open Sys2Proof Sys2Proof.Claims

section
variable {s : State} {d a : RegNo} {id : Nat} {me : Peg} {l : Loc} (hid : s.pegId = some id) (hme : s.peg? = some me)
  (h : Reaches s (s.getX a) 64 0 .read true l)
include h

/-- R8: SPAWN refuses a template that breaks a reserved bit or a PC rule, or whose STATE is not 0. -/
theorem exec_spawn_refused (hc : CanTrap s) (ht : (template s (s.getX a) l).refused = true ∨ (template s (s.getX a) l).state ≠ 0) :
    exec (.spawn d a) s = .next (inHandler (Claims.reached s (s.getX a) 64 .read l) 0x09 0 0) := by
  have hr := Served.reached s (s.getX a) 64 .read l
  change execSpawn d a s = _
  rw [execSpawn, withLoc_of_reaches h]
  simp only [hr.myBay, fetchLoc_of_reaches h hr]
  rw [if_pos (by simpa [template, ownBytes] using ht), trap_eq_inHandler (hr.canTrap hc) (by decide)]

include hid hme
variable {tb : Bent} (hrf : (template s (s.getX a) l).refused = false) (hst : (template s (s.getX a) l).state = 0)
  (hb : s.bents.find? (template s (s.getX a) l).bent = some tb)
include hrf hst hb

theorem exec_spawn_foreign (hc : CanTrap s) (hu : s.under (template s (s.getX a) l).bent s.myBent = false ∨ tb.drain = true) :
    exec (.spawn d a) s = .next (inHandler (Claims.reached s (s.getX a) 64 .read l) 0x07 0 0) := by
  have hr := Served.reached s (s.getX a) 64 .read l
  unfold template ownBytes at hrf hst hb hu
  change execSpawn d a s = _
  rw [execSpawn, withLoc_of_reaches h]
  simp only [hr.myBay, fetchLoc_of_reaches h hr, hr.bents, hr.pegId, hr.peg?, hr.myBent, hr.under, hrf, hst, hb, hid, hme, ne_eq,
    not_true_eq_false, decide_false, Bool.or_false, Bool.false_eq_true, if_false]
  rw [if_pos (by simpa using hu), trap_eq_inHandler (hr.canTrap hc) (by decide)]

variable (hu : s.under (template s (s.getX a) l).bent s.myBent = true) (hd : tb.drain = false)
include hu hd

theorem exec_spawn_full (hc : CanTrap s)
    (hf : s.pickSlot tb = none ∨ s.place s.myBay (template s (s.getX a) l).bent ((template s (s.getX a) l).link != 0) = .noRoom ∨
      ((template s (s.getX a) l).link ≠ 0 ∧ 65535 ≤ me.joins)) :
    exec (.spawn d a) s = .next (inHandler (Claims.reached s (s.getX a) 64 .read l) 0x15 0 0) := by
  have hr := Served.reached s (s.getX a) 64 .read l
  have htrap := trap_eq_inHandler (hr.canTrap hc) (code := 0x15) (by decide)
  unfold template ownBytes at hrf hst hb hu hf
  change execSpawn d a s = _
  rw [execSpawn, withLoc_of_reaches h]
  simp only [hr.myBay, fetchLoc_of_reaches h hr, hr.bents, hr.pegId, hr.peg?, hr.myBent, hr.under, hr.pickSlot, hr.place, hrf, hst, hb, hid, hme,
    hu, hd, ne_eq, not_true_eq_false, decide_false, Bool.or_false, Bool.not_true, Bool.false_eq_true, if_false]
  obtain hf | hf | hf := hf
  · rw [hf]
    exact htrap
  · rw [hf]
    cases s.pickSlot tb <;> exact htrap
  · split
    · exact htrap
    · exact htrap
    · rw [if_pos hf, htrap]

/-- SPAWN makes its peg once the release has nothing to wait for. -/
theorem exec_spawn_spawns {i : Nat} {rl : Loc} (hi : s.pickSlot tb = some i)
    (hp : s.place s.myBay (template s (s.getX a) l).bent ((template s (s.getX a) l).link != 0) = .pool s.myBay)
    (hj : (template s (s.getX a) l).link = 0 ∨ me.joins < 65535)
    (hrl : (Claims.reached s (s.getX a) 64 .read l).recordLoc s.myBay
      (Peg.fresh (tb.recBase + BitVec.ofNat 64 (64 * i)) (template s (s.getX a) l).bent) .both = .ok rl)
    (hlock : s.lockedOut rl.pa 64 = false) (hw : ¬ Waits s 3 allClasses) :
    exec (.spawn d a) s = .next (wroteX
      (spawned (Claims.reached s (s.getX a) 64 .read l)
        (spawnedPeg (tb.recBase + BitVec.ofNat 64 (64 * i)) (template s (s.getX a) l) id me) s.myBay rl
        (spawnRecord (ownBytes s (s.getX a) 64 l) (spawnLink (template s (s.getX a) l) me)))
      d (tb.recBase + BitVec.ofNat 64 (64 * i))) := by
  have hr := Served.reached s (s.getX a) 64 .read l
  unfold template ownBytes at *
  generalize hdata : meetsBytes (Claims.reached s (s.getX a) 64 .read l) s.myBay l 64 = data at *
  generalize hta : PegRecord.parse data = t at *
  change execSpawn d a s = _
  rw [execSpawn, withLoc_of_reaches h]
  simp only [hr.myBay, fetchLoc_of_reaches h hr, hdata, hta, hr.bents, hr.pegId, hr.peg?, hr.myBent, hr.under, hr.pickSlot, hr.place, hrf, hst, hb,
    hid, hme, hu, hd, hi, hp, ne_eq, not_true_eq_false, decide_false, Bool.or_false, Bool.not_true, Bool.false_eq_true, if_false]
  rw [if_neg fun hn => hj.elim hn.1 fun hlt => absurd hn.2 (by omega), hr.release hw]
  simp only [hr.myBay, hrl, hr.lockedOut, hlock, Bool.false_eq_true, if_false]
  rw [retX_eq_wroteX]
  by_cases hlink : t.link = 0
  · simp only [spawned, spawnedPeg, spawnRecord, spawnLink, State.countChild, Peg.fresh, hlink, if_true]
  · simp only [spawned, spawnedPeg, spawnRecord, spawnLink, State.countChild, Peg.fresh, hlink, if_false]

end

/-! ## What SPAWN's peg is -/

theorem ownBytes_length (s : State) (va : Word) (n : Nat) (l : Loc) : (ownBytes s va n l).length = n := by
  simp [ownBytes, meetsBytes]

theorem bentRes_eq_zero {t : PegRecord} (h : t.refused = false) : t.bentRes = 0 := by
  simp only [PegRecord.refused, Bool.or_eq_false_iff, decide_eq_false_iff_not, not_not] at h
  obtain ⟨⟨⟨⟨hres, -⟩, -⟩, -⟩, -⟩ := h
  exact hres

theorem byteAt_wroteX (s : State) (d : RegNo) (v : Word) (slot : Option Nat) (pa : Nat) : (wroteX s d v).byteAt slot pa = s.byteAt slot pa :=
  State.byteAt_congr rfl rfl rfl rfl slot pa

theorem bytesAt_wroteX (s : State) (d : RegNo) (v : Word) (slot : Option Nat) (pa n : Nat) : (wroteX s d v).bytesAt slot pa n = s.bytesAt slot pa n :=
  State.bytesAt_congr _ _ _ fun _ _ => byteAt_wroteX s d v slot _

section
variable {s r : State} (hr : Served s r) (p : Peg) (bay : Nat) (rl : Loc) (data : List Byte) (d : RegNo) (v : Word)
include hr

/-- The core is left as by an instruction with one destination. -/
theorem onlyX_spawned : OnlyX s (wroteX (spawned r p bay rl data) d v) d v :=
  onlyX_wroteX (spawned_cur.trans hr.cur) (hr.sameRegs.trans spawned_sameRegs) d v

/-- Memory is left as but for the record. -/
theorem onlyWrites_spawned (hacc : ∀ x ∈ s.accums, x.meets rl.pa data.length = false) :
    OnlyWrites s (wroteX (spawned r p bay rl data) d v) rl data.length := by
  obtain ⟨hout, hunit⟩ := spawned_onlyWrites (p := p) (bay := bay) (hr.accums.symm ▸ hacc)
  refine ⟨fun pa h => ?_, fun slot pa h => ?_⟩
  · rw [byteAt_wroteX, hout pa h, hr.byteAt]
  · rw [byteAt_wroteX, hunit slot pa h, hr.byteAt]

/-- The new peg is found under the stamp it takes. -/
theorem find?_new_spawned : ∃ since, (wroteX (spawned r p bay rl data) d v).pegs.find? s.stamp =
    some { p with pool := some bay, age := s.stamp, readySince := since } := by
  rw [← hr.stamp]
  exact spawned_find?_new

/-- The JoinCount of the new peg's parent counts it, and no other's. -/
theorem find?_old_spawned {id : Nat} {q : Peg} (hnew : s.pegs.find? s.stamp = none) (h : s.pegs.find? id = some q) :
    ∃ q', (wroteX (spawned r p bay rl data) d v).pegs.find? id = some q' ∧ q'.joins = q.joins + if p.parent = some id then 1 else 0 := by
  have hne : id ≠ r.stamp := fun e => by simp [e, hr.stamp, hnew] at h
  exact spawned_find?_old hne (hr.pegs.symm ▸ h)

end

/-- The words of the record that SPAWN writes (R28, R159). -/
theorem words_spawned (r : State) (p : Peg) (bay : Nat) (rl : Loc) {data : List Byte} (hl : data.length = 64)
    (hrf : (PegRecord.parse data).refused = false) (link : Word) (d : RegNo) (v : Word) :
    let t := PegRecord.parse data
    let word (off : Nat) : Nat := leNat ((wroteX (spawned r p bay rl (spawnRecord data link)) d v).bytesAt rl.slot (rl.pa + off) 8)
    word 0 = t.pc.toNat ∧ word 8 = t.bent + 2 ^ 32 ∧ word 0x10 = t.fp.toNat ∧ word 0x18 = t.a0.toNat ∧ word 0x20 = t.a1.toNat ∧
      word 0x28 = t.a2.toNat ∧ word 0x30 = t.a3.toNat ∧ word 0x38 = link.toNat := by
  intro t word
  have hword {off : Nat} (h : off + 8 ≤ 64) : word off = fieldN (spawnRecord data link) off 8 :=
    (congrArg leNat (bytesAt_wroteX _ d v _ _ _)).trans (spawned_word (h.trans_eq (spawnRecord_length hl link).symm))
  have hmid {off : Nat} (h : 16 ≤ off) (h' : off + 8 ≤ 56) : word off = (field64 data off).toNat := by
    rw [hword (by omega), fieldN_spawnRecord_between hl link 8 h h', field64_toNat]
  refine ⟨?_, ?_, hmid (by decide) (by decide), hmid (by decide) (by decide), hmid (by decide) (by decide), hmid (by decide) (by decide),
    hmid (by decide) (by decide), ?_⟩
  · rw [hword (by decide), fieldN_spawnRecord_below hl link 8 (by decide), ← field64_toNat]
    rfl
  · rw [hword (by decide), fieldN_spawnRecord_bent hl link (bentRes_eq_zero hrf)]
  · rw [hword (by decide), fieldN_spawnRecord_link hl link]

/-- The parent of a new peg is the issuing peg exactly when the template asks for one (R159). -/
theorem spawnedPeg_parent (addr : Word) (t : PegRecord) (id : Nat) (me : Peg) :
    (if (spawnedPeg addr t id me).parent = some id then 1 else 0) = if t.link = 0 then 0 else 1 := by
  unfold spawnedPeg
  by_cases h : t.link = 0
  · simp only [h, if_true, reduceCtorEq, if_false]
  · simp only [h, if_false, if_true]

theorem spawnLink_toNat (t : PegRecord) (me : Peg) : (spawnLink t me).toNat = if t.link = 0 then 0 else me.recAddr.toNat :=
  apply_ite BitVec.toNat _ _ _

theorem find?_of_peg? {s : State} {id : Nat} {p : Peg} (hid : s.pegId = some id) (h : s.peg? = some p) : s.pegs.find? id = some p := by
  have hp : s.me.peg = some id := hid
  rwa [State.peg?, hp] at h

/-- R159: SPAWN. -/
theorem spawnCreatesPegs : SpawnCreatesPegs := by
  intro s d a id me l hid hme h t r
  have hr : Served s r := Served.reached s (s.getX a) 64 .read l
  refine ⟨fun ht hc => exec_spawn_refused h hc ht, fun hrf hst tb hb => ⟨fun hu hc => exec_spawn_foreign hid hme h hrf hst hb hc hu, fun hu hd => ?_⟩⟩
  refine ⟨fun hf hc => exec_spawn_full hid hme h hrf hst hb hu hd hc hf, ?_⟩
  intro i rl hi hp hj addr hrl hlock hw hacc hstamp
  have hx := exec_spawn_spawns (d := d) hid hme h hrf hst hb hu hd hi hp hj hrl hlock hw
  have hl : (ownBytes s (s.getX a) 64 l).length = 64 := ownBytes_length s _ 64 l
  have ht : PegRecord.parse (ownBytes s (s.getX a) 64 l) = t := rfl
  change exec (.spawn d a) s = .next (wroteX (spawned r (spawnedPeg addr t id me) s.myBay rl
    (spawnRecord (ownBytes s (s.getX a) 64 l) (spawnLink t me))) d addr) at hx
  -- from here on only what the lemmas say of the reached state and of the template matters
  generalize ownBytes s (s.getX a) 64 l = data at hx hl ht
  clear_value r t addr
  have hdata : (spawnRecord data (spawnLink t me)).length = 64 := spawnRecord_length hl _
  have hwords := words_spawned r (spawnedPeg addr t id me) s.myBay rl hl (ht.symm ▸ hrf) (spawnLink t me) d addr
  rw [ht, spawnLink_toNat] at hwords
  obtain ⟨since, hnew⟩ := find?_new_spawned hr (spawnedPeg addr t id me) s.myBay rl (spawnRecord data (spawnLink t me)) d addr
  obtain ⟨me', hme', hjoins⟩ := find?_old_spawned hr (spawnedPeg addr t id me) s.myBay rl (spawnRecord data (spawnLink t me)) d addr hstamp
    (find?_of_peg? hid hme)
  rw [spawnedPeg_parent] at hjoins
  have honly := onlyWrites_spawned hr (spawnedPeg addr t id me) s.myBay rl (spawnRecord data (spawnLink t me)) d addr (hdata.symm ▸ hacc)
  exact ⟨_, _, hx, onlyX_spawned hr _ _ _ _ d addr, hnew, rfl, rfl, rfl, rfl, rfl, rfl, rfl, rfl, rfl, rfl, ⟨me', hme', hjoins⟩, hwords,
    hdata ▸ honly⟩

/-- Settles O33, SPAWN and ENQ apart: each is run up to the data it reads, then through its checks in order. -/
theorem pegsAreCreated : Obligations.PegsAreCreated := ⟨spawnCreatesPegs, enqueueAnswers⟩

end Sys2Proof.Machine
end

section
/-! SUPPORT for O34, O48, O49 and O56. What firmware's accesses to memory leave alone: all but memory, caches, wakes, link counters and pending
writes. -/

namespace Sys2Proof.Machine
open Sys2Proof Sys2Proof.Claims

/-! ## States that agree but for memory and what watches it -/

/-- A peg with its wait met or not. -/
def Peg.withMet (met : Bool) (p : Peg) : Peg := { p with met := met }

/-- `t` is `s` but for memory, bents, caches and TLBs, what watches memory, and the queues of accesses. -/
structure Mild (s t : State) : Prop where
  cur : t.cur = s.cur
  stamp : t.stamp = s.stamp
  timestamp : t.timestamp = s.timestamp
  elapsed : t.elapsed = s.elapsed
  mgmt : t.mgmt = s.mgmt
  core : ∀ c, SameRegs (s.core c) (t.core c)
  peg : ∀ id, ∃ met, t.pegs.find? id = (s.pegs.find? id).map (Peg.withMet met)

/-- `t` is `s` but for memory, caches and TLBs, what watches memory, and the queues of accesses. -/
structure Stored (s t : State) : Prop extends Mild s t where
  bents : t.bents = s.bents

theorem SameRegs.refl (k : Core) : SameRegs k k := ⟨_, _, _, rfl⟩

theorem Peg.map_withMet (o : Option Peg) : ∃ met, o = o.map (Peg.withMet met) := by
  cases o with
  | none => exact ⟨true, rfl⟩
  | some p => exact ⟨p.met, rfl⟩

theorem Mild.refl (s : State) : Mild s s := ⟨rfl, rfl, rfl, rfl, rfl, fun _ => SameRegs.refl _, fun _ => Peg.map_withMet _⟩

theorem Mild.trans {s t u : State} (h : Mild s t) (q : Mild t u) : Mild s u where
  cur := q.cur.trans h.cur
  stamp := q.stamp.trans h.stamp
  timestamp := q.timestamp.trans h.timestamp
  elapsed := q.elapsed.trans h.elapsed
  mgmt := q.mgmt.trans h.mgmt
  core c := (h.core c).trans (q.core c)
  peg id := by
    obtain ⟨m, hm⟩ := h.peg id
    obtain ⟨m', hm'⟩ := q.peg id
    exact ⟨m', by rw [hm', hm, Option.map_map]; rfl⟩

theorem Stored.refl (s : State) : Stored s s := ⟨Mild.refl s, rfl⟩

theorem Stored.trans {s t u : State} (h : Stored s t) (q : Stored t u) : Stored s u :=
  ⟨h.toMild.trans q.toMild, q.bents.trans h.bents⟩

/-- No register of any core changes. -/
theorem Mild.registersKept {s t : State} (h : Mild s t) : RegistersKept s t := fun c => by
  obtain ⟨dc, asked, spin, e⟩ := h.core c
  rw [e]
  exact ⟨rfl, rfl, rfl, rfl, rfl⟩

/-- A peg stays, but for whether its wait has been met. -/
theorem Mild.find?_peg {s t : State} (h : Mild s t) {id : Nat} {p : Peg} (hp : s.pegs.find? id = some p) :
    ∃ met, t.pegs.find? id = some (p.withMet met) := by
  obtain ⟨m, hm⟩ := h.peg id
  exact ⟨m, by rw [hm, hp]; rfl⟩

theorem Mild.find?_peg_none {s t : State} (h : Mild s t) {id : Nat} (hp : s.pegs.find? id = none) : t.pegs.find? id = none := by
  obtain ⟨m, hm⟩ := h.peg id
  rw [hm, hp]
  rfl

theorem Served.stored {s t : State} (h : Served s t) : Stored s t := by
  refine ⟨⟨h.cur, h.stamp, ?_, ?_, h.mgmt, fun c => ?_, fun id => ?_⟩, h.bents⟩
  · obtain ⟨_, _, _, rfl⟩ := h.frame; rfl
  · obtain ⟨_, _, _, rfl⟩ := h.frame; rfl
  · obtain ⟨dc, asked, e⟩ := h.core c
    exact ⟨dc, asked, _, e⟩
  · rw [h.pegs]
    exact Peg.map_withMet _

/-! ## One change at a time -/

/-- A change of memory, poison, accumulators, pending writes, free values, bays and links alone. -/
theorem Stored.of_fields {s t : State} (h1 : t.cur = s.cur) (h2 : t.stamp = s.stamp) (h3 : t.timestamp = s.timestamp)
    (h4 : t.elapsed = s.elapsed) (h5 : t.mgmt = s.mgmt) (h6 : t.cores = s.cores) (h7 : t.pegs = s.pegs) (h8 : t.bents = s.bents) : Stored s t := by
  refine ⟨⟨h1, h2, h3, h4, h5, fun c => ?_, fun id => ?_⟩, h8⟩
  · unfold State.core
    rw [h6]
    exact SameRegs.refl _
  · rw [h7]
    exact Peg.map_withMet _

/-- A change of one core's data cache, wait or spin. -/
theorem Stored.setCore {s : State} {c : Nat} {k : Core} (h : SameRegs (s.core c) k) : Stored s (s.setCore c k) := by
  refine ⟨⟨rfl, rfl, rfl, rfl, rfl, fun j => ?_, fun id => Peg.map_withMet _⟩, rfl⟩
  by_cases hj : j = c
  · subst hj
    rwa [State.core_setCore_same]
  · rw [State.core_setCore_other _ _ _ _ hj]
    exact SameRegs.refl _

theorem Stored.closeAccums (s : State) (pa n : Nat) : Stored s (s.closeAccums pa n) := by
  obtain ⟨m, k, e⟩ := State.closeAccums_eq s pa n
  rw [e]
  exact Stored.of_fields rfl rfl rfl rfl rfl rfl rfl rfl

theorem Stored.wake (s : State) (pa n : Nat) : Stored s (s.wake pa n) := by
  refine ⟨⟨rfl, rfl, rfl, rfl, rfl, fun c => ?_, fun id => ?_⟩, rfl⟩
  · obtain ⟨spin, e⟩ := (Woken.wake s pa n).core c
    exact ⟨_, _, spin, e⟩
  · cases h : s.pegs.find? id with
    | some p => exact (Woken.wake s pa n).peg id p h
    | none =>
      refine ⟨true, ?_⟩
      unfold State.wake
      dsimp only
      rw [AMap.find?_map fun e => by split <;> [(split <;> rfl); rfl], h]
      rfl

theorem Stored.writeLoc (s : State) (l : Loc) (data : List Byte) : Stored s (s.writeLoc l data) := by
  have hc := Stored.closeAccums s l.pa data.length
  obtain ⟨bays, hd⟩ := State.dropLines_eq (s.closeAccums l.pa data.length) l.pa data.length
  obtain ⟨m, k, hp⟩ := State.putBytes_eq ((s.closeAccums l.pa data.length).dropLines l.pa data.length) l.slot l.pa data
  refine hc.trans (Stored.trans ?_ (Stored.wake { ((s.closeAccums l.pa data.length).dropLines l.pa data.length).putBytes l.slot l.pa data with
    poison := clearPoison (((s.closeAccums l.pa data.length).dropLines l.pa data.length).putBytes l.slot l.pa data).poison l.pa data.length } l.pa
    data.length))
  rw [hp, hd]
  exact Stored.of_fields rfl rfl rfl rfl rfl rfl rfl rfl

/-- Folding changes that each leave a state alone. -/
theorem Stored.foldl {α : Type} {f : State → α → State} (h : ∀ s a, Stored s (f s a)) (l : List α) (s : State) : Stored s (l.foldl f s) := by
  induction l generalizing s with
  | nil => exact Stored.refl s
  | cons a t ih => exact (h s a).trans (ih _)

theorem Mild.foldl {α : Type} {f : State → α → State} (h : ∀ s a, Mild s (f s a)) (l : List α) (s : State) : Mild s (l.foldl f s) := by
  induction l generalizing s with
  | nil => exact Mild.refl s
  | cons a t ih => exact (h s a).trans (ih _)

/-! ## Reads through the caches -/

theorem Stored.fetchedLine (s : State) (core : Option Nat) (bay : Nat) (slot : Option Nat) (line : Nat) :
    Stored s (s.fetchedLine core bay slot line) := by
  unfold State.fetchedLine
  extract_lets inL1
  split
  · exact Stored.refl s
  · exact (Served.sent s _ _).stored

theorem Stored.keepLine (s : State) (core : Option Nat) (bay line : Nat) (c : CacheLine) : Stored s (s.keepLine core bay line c) := by
  unfold State.keepLine
  extract_lets y u
  have hu : Stored s u := by
    unfold u
    split
    · exact Stored.of_fields rfl rfl rfl rfl rfl rfl rfl rfl
    · exact Stored.refl s
  split
  · split
    · exact hu.trans (Stored.setCore ⟨_, _, _, rfl⟩)
    · exact hu
  · exact hu

theorem Stored.fetchLoc (s : State) (core : Option Nat) (bay : Nat) (l : Loc) (n : Nat) : Stored s (s.fetchLoc core bay l n).1 := by
  unfold State.fetchLoc
  split
  · refine (Stored.closeAccums s l.pa n).trans (Stored.foldl (fun u e => ?_) _ _)
    exact (Stored.fetchedLine u core bay l.slot e.1).trans (Stored.keepLine _ core bay e.1 e.2)
  · exact Stored.closeAccums s l.pa n

/-! ## Accesses of engines and firmware -/

theorem Stored.touchParts (s : State) (bay b : Nat) (need : Need) (va : Word) (ls : List (Loc × Nat)) : Stored s (s.touchParts bay b need va ls) := by
  induction ls generalizing s va with
  | nil => exact Stored.refl s
  | cons e t ih => exact (Served.touched s bay b va e.1 e.2 need).stored.trans (ih _ _)

theorem Stored.readParts (s : State) (bay : Nat) (ls : List (Loc × Nat)) : Stored s (s.readParts bay ls).1 := by
  induction ls generalizing s with
  | nil => exact Stored.refl s
  | cons e t ih => exact (Stored.fetchLoc s none bay e.1 e.2).trans (ih _)

theorem Stored.writePart (s : State) (w : Issuer) (bay : Nat) (va : Word) (l : Loc) (d : List Byte) : Stored s (s.writePart w bay va l d) := by
  unfold State.writePart
  split
  · exact Stored.of_fields rfl rfl rfl rfl rfl rfl rfl rfl
  · exact (Stored.writeLoc s l d).trans (Served.cacheLines _ bay l d.length).stored

theorem Stored.writeParts (s : State) (w : Issuer) (bay : Nat) (va : Word) (ls : List (Loc × Nat)) (d : List Byte) :
    Stored s (s.writeParts w bay va ls d) := by
  induction ls generalizing s va d with
  | nil => exact Stored.refl s
  | cons e t ih => exact (Stored.writePart s w bay va e.1 _).trans (ih _ _ _)

theorem Stored.of_gRead {s t : State} {bay : Nat} {w : Issuer} {va : Word} {n : Nat} {d : List Byte} (h : s.gRead bay w va n = .ok t d) :
    Stored s t := by
  unfold State.gRead State.gReadAs at h
  split at h <;> cases h
  next ls _ => exact (Stored.touchParts s bay w.bent .read va ls).trans (Stored.readParts _ bay ls)

theorem Stored.of_gWrite {s t : State} {bay : Nat} {w : Issuer} {va : Word} {d r : List Byte} (h : s.gWrite bay w va d = .ok t r) :
    Stored s t := by
  unfold State.gWrite at h
  split at h <;> cases h
  exact (Stored.touchParts s bay _ _ va _).trans (Stored.writeParts _ w bay va _ d)

/-! ## The save area -/

theorem Stored.of_saveGet {s : State} {b off n : Nat} {r : State × List Byte} (h : s.saveGet b off n = some r) : Stored s r.1 := by
  unfold State.saveGet at h
  split at h
  · cases h
  · split at h <;> cases h
    next h => exact Stored.of_gRead h

theorem Stored.of_savePut {s t : State} {b off : Nat} {d : List Byte} (h : s.savePut b off d = some t) : Stored s t := by
  unfold State.savePut at h
  split at h
  · cases h
  · split at h <;> cases h
    next h => exact Stored.of_gWrite h

theorem Stored.of_saveHeader {s : State} {b : Nat} {r : State × SaveHeader} (h : s.saveHeader b = some r) : Stored s r.1 := by
  unfold State.saveHeader at h
  obtain ⟨q, hq, rfl⟩ := Option.map_eq_some_iff.mp h
  exact Stored.of_saveGet hq

theorem Stored.of_saveMarked {s t : State} {b off : Nat} {d : List Byte} {bad : Nat → Bool} (h : s.saveMarked b off d bad = some t) :
    Stored s t := by
  unfold State.saveMarked at h
  obtain ⟨ls, -, rfl⟩ := Option.map_eq_some_iff.mp h
  exact (Stored.writeParts s _ _ _ ls d).trans (Stored.of_fields rfl rfl rfl rfl rfl rfl rfl rfl)

theorem Stored.of_saveCore {s t : State} {b off : Nat} {f : CoreFrame} (h : s.saveCore b off f = some t) : Stored s t := by
  have hf : Stored s { s with free := s.free + 512 * f.ctxs.length + 128 * f.cmds.length } := Stored.of_fields rfl rfl rfl rfl rfl rfl rfl rfl
  exact hf.trans (Stored.of_saveMarked h)

theorem Stored.saveWrite (s : State) (b off : Nat) (data : List Byte) : Stored s (s.saveWrite b off data) := by
  unfold State.saveWrite
  split
  · exact Stored.refl s
  · split
    · exact Stored.refl s
    · exact Stored.writeLoc s _ data

theorem Mild.modBent (s : State) (b : Nat) (f : Bent → Bent) : Mild s (s.modBent b f) :=
  ⟨rfl, rfl, rfl, rfl, rfl, fun _ => SameRegs.refl _, fun _ => Peg.map_withMet _⟩

theorem Mild.of_spillWindow {s t : State} {core w owner : Nat} (h : s.spillWindow core w owner = some t) : Mild s t := by
  unfold State.spillWindow at h
  split at h
  · cases h
  · next s1 hd h1 =>
    split at h
    · obtain ⟨s3, h3, rfl⟩ := Option.map_eq_some_iff.mp h
      obtain ⟨s2, h2, h3⟩ := Option.bind_eq_some_iff.mp h3
      have h3 := (Stored.of_saveHeader h1).trans ((Stored.of_saveMarked h2).trans (Stored.of_savePut h3))
      exact h3.toMild.trans (Mild.modBent s3 owner _)
    · cases h

theorem Mild.of_spillAll {s t : State} {core b : Nat} {l : List Nat} (h : s.spillAll core b l = some t) : Mild s t := by
  induction l generalizing s with
  | nil => cases h; exact Mild.refl _
  | cons w l ih =>
    obtain ⟨u, hu, h⟩ := Option.bind_eq_some_iff.mp h
    exact (Mild.of_spillWindow hu).trans (ih h)

/-! ## The end of a bent -/

theorem Mild.recordLast (s : State) (b cause kind : Nat) : Mild s (s.recordLast b cause kind) := by
  unfold State.recordLast
  split
  · exact Mild.refl s
  · split
    · exact Mild.refl s
    · exact (Stored.saveWrite s b _ _).toMild.trans (Mild.modBent _ b _)

theorem Mild.drain (s : State) (b : Nat) : Mild s (s.drain b) :=
  ⟨rfl, rfl, rfl, rfl, rfl, fun _ => SameRegs.refl _, fun _ => Peg.map_withMet _⟩

theorem Mild.killBent (s : State) (b cause kind : Nat) : Mild s (s.killBent b cause kind) :=
  (Mild.recordLast s b cause kind).trans (Mild.drain _ b)

end Sys2Proof.Machine
end

section
/-! SUPPORT for O48, O49 and O56. Bents that a change leaves in their place of the tree, and the drain of one (R373). -/

namespace Sys2Proof.Machine
open Sys2Proof Sys2Proof.Claims

/-- A bent goes on as another: the same parent and owner, draining where the other drains. -/
structure Bent.GoesOn (r q : Bent) : Prop where
  parent : q.parent = r.parent
  owner : q.owner = r.owner
  drain : r.drain = true → q.drain = true

/-- The bents of `t` are those of `s`, each going on. -/
def TreeKept (s t : State) : Prop := ∀ b, Option.Rel Bent.GoesOn (s.bents.find? b) (t.bents.find? b)

theorem Bent.GoesOn.refl (r : Bent) : Bent.GoesOn r r := ⟨rfl, rfl, id⟩

theorem Bent.GoesOn.trans {p q r : Bent} (h : Bent.GoesOn p q) (h' : Bent.GoesOn q r) : Bent.GoesOn p r :=
  ⟨h'.parent.trans h.parent, h'.owner.trans h.owner, fun hd => h'.drain (h.drain hd)⟩

/-- A bent that each entry of a table goes on as. -/
theorem TreeKept.of_map {s t : State} {f : Nat → Bent → Bent} (hf : ∀ b r, Bent.GoesOn r (f b r))
    (h : ∀ b, t.bents.find? b = (s.bents.find? b).map (f b)) : TreeKept s t := fun b => by
  rw [h b]
  cases s.bents.find? b with
  | none => exact .none
  | some r => exact .some (hf b r)

theorem TreeKept.of_bents {s t : State} (h : t.bents = s.bents) : TreeKept s t :=
  TreeKept.of_map (f := fun _ r => r) (fun _ r => Bent.GoesOn.refl r) fun b => by rw [h, Option.map_id']

theorem TreeKept.find?_some {s t : State} (h : TreeKept s t) {b : Nat} {r : Bent} (hr : s.bents.find? b = some r) :
    ∃ q, t.bents.find? b = some q ∧ Bent.GoesOn r q := by
  have hb := h b
  rw [hr] at hb
  cases hq : t.bents.find? b with
  | none => rw [hq] at hb; cases hb
  | some q => rw [hq] at hb; cases hb with | some hg => exact ⟨q, rfl, hg⟩

theorem TreeKept.of_find?_some {s t : State} (h : TreeKept s t) {b : Nat} {q : Bent} (hq : t.bents.find? b = some q) :
    ∃ r, s.bents.find? b = some r ∧ Bent.GoesOn r q := by
  have hb := h b
  rw [hq] at hb
  cases hr : s.bents.find? b with
  | none => rw [hr] at hb; cases hb
  | some r => rw [hr] at hb; cases hb with | some hg => exact ⟨r, rfl, hg⟩

theorem TreeKept.refl (s : State) : TreeKept s s := TreeKept.of_bents rfl

theorem TreeKept.trans {s t u : State} (h : TreeKept s t) (h' : TreeKept t u) : TreeKept s u := fun b => by
  cases hr : s.bents.find? b with
  | some r =>
    obtain ⟨q, hq, hg⟩ := h.find?_some hr
    obtain ⟨w, hw, hg'⟩ := h'.find?_some hq
    exact hw ▸ .some (hg.trans hg')
  | none =>
    cases hw : u.bents.find? b with
    | none => exact .none
    | some w =>
      obtain ⟨q, hq, -⟩ := h'.of_find?_some hw
      obtain ⟨r, hr', -⟩ := h.of_find?_some hq
      simp [hr] at hr'

/-- Descent depends on the parents of the bents alone. -/
theorem TreeKept.isUnder {s t : State} (h : TreeKept s t) (n b a : Nat) : Machine.isUnder t.bents n b a = Machine.isUnder s.bents n b a := by
  induction n generalizing b with
  | zero => rfl
  | succ n ih =>
    unfold Machine.isUnder
    cases hr : s.bents.find? b with
    | some r =>
      obtain ⟨q, hq, hg⟩ := h.find?_some hr
      rw [hq]
      dsimp only
      rw [hg.parent]
      cases r.parent with
      | none => rfl
      | some p => dsimp only; rw [ih]
    | none =>
      cases hq : t.bents.find? b with
      | none => rfl
      | some q =>
        obtain ⟨r, hr', -⟩ := h.of_find?_some hq
        simp [hr] at hr'

theorem TreeKept.under {s t : State} (h : TreeKept s t) (b a : Nat) : t.under b a = s.under b a := h.isUnder 8 b a

theorem State.under_self (s : State) (b : Nat) : s.under b b = true := by
  simp [State.under, Machine.isUnder]

/-! ## The kill of a bent -/

theorem TreeKept.modBent (s : State) (b : Nat) {f : Bent → Bent} (hf : ∀ r, Bent.GoesOn r (f r)) : TreeKept s (s.modBent b f) :=
  TreeKept.of_map (f := fun c r => if c = b then f r else r)
    (fun c r => by
      split
      · exact hf r
      · exact Bent.GoesOn.refl r)
    fun c => by
      change (s.bents.modify b f).find? c = _
      rw [AMap.find?_modify]
      by_cases hc : c = b
      · subst hc
        simp
      · simp [hc]

theorem TreeKept.recordLast (s : State) (b cause kind : Nat) : TreeKept s (s.recordLast b cause kind) := by
  unfold State.recordLast
  split
  · exact TreeKept.refl s
  · split
    · exact TreeKept.refl s
    · exact (TreeKept.of_bents (Stored.saveWrite s b _ _).bents).trans (TreeKept.modBent _ b fun _ => ⟨rfl, rfl, id⟩)

/-- A bent as the drain of another leaves it. -/
def State.drained (s : State) (b c : Nat) (r : Bent) : Bent := if s.under c b && !r.drain then { r with drain := true, drainAt := s.clk } else r

theorem State.find?_bents_drain (s : State) (b c : Nat) : (s.drain b).bents.find? c = (s.bents.find? c).map (s.drained b c) := by
  unfold State.drain
  dsimp only
  rw [AMap.find?_map fun e => by split <;> rfl]
  refine congrArg (fun f => (s.bents.find? c).map f) (funext fun r => ?_)
  unfold State.drained
  split <;> rfl

theorem State.drained_goesOn (s : State) (b c : Nat) (r : Bent) : Bent.GoesOn r (s.drained b c r) := by
  unfold State.drained
  split
  · exact ⟨rfl, rfl, fun _ => rfl⟩
  · exact Bent.GoesOn.refl r

theorem State.drained_drain {s : State} {b c : Nat} (h : s.under c b = true) (r : Bent) : (s.drained b c r).drain = true := by
  unfold State.drained
  rw [h, Bool.true_and]
  split
  · rfl
  · next hd => simpa using hd

theorem TreeKept.killBent (s : State) (b cause kind : Nat) : TreeKept s (s.killBent b cause kind) :=
  (TreeKept.recordLast s b cause kind).trans
    (TreeKept.of_map (State.drained_goesOn _ b) (State.find?_bents_drain _ b))

/-- A killed bent drains, and so does everything below it (R373). -/
theorem drained_killBent (s : State) (b cause kind : Nat) : Drained s (s.killBent b cause kind) b := fun c r hr hu => by
  change ((s.recordLast b cause kind).drain b).bents.find? c = some r at hr
  rw [State.find?_bents_drain] at hr
  obtain ⟨q, -, rfl⟩ := Option.map_eq_some_iff.mp hr
  exact State.drained_drain (((TreeKept.recordLast s b cause kind).under c b).trans hu) q

/-- What a kill leaves of a state that memory and caches set apart from another. -/
theorem Mild.killed {s u : State} (h : Mild s u) (hb : u.bents = s.bents) (b cause kind : Nat) :
    Drained s (u.killBent b cause kind) b ∧ RegistersKept s (u.killBent b cause kind) := by
  refine ⟨fun c r hr hu => drained_killBent u b cause kind c r hr ?_, (h.trans (Mild.killBent u b cause kind)).registersKept⟩
  exact ((TreeKept.of_bents hb).under c b).trans hu

end Sys2Proof.Machine
end

section
/-! O56. Power and heat (R422, R423, R427). -/

namespace Sys2Proof.Machine
open Sys2Proof Sys2Proof.Claims

theorem managed_iff {s : State} : Managed s ↔ s.mgmt.phase.managed = true := by
  unfold Managed
  cases s.mgmt.phase <;> simp [Phase.managed]

theorem powered_of_managed {s : State} (h : Managed s ∨ s.mgmt.phase = .fatal) : s.mgmt.phase.powered = true := by
  obtain (h | h) | h := h <;> rw [h] <;> rfl

/-! ## A measurement -/

/-- A test of every entry of a table, after a put that gives it the same answer. -/
theorem AMap.any_put {α : Type} {m : AMap α} {n : Nat} {x : α} {f : Nat × α → Bool} (h : f (n, x) = (m.find? n).any fun y => f (n, y)) :
    (m.put n x).any f = m.any f := by
  induction m with
  | nil => simpa [AMap.put] using h
  | cons e t ih =>
    obtain ⟨k, v⟩ := e
    rw [AMap.find?_cons] at h
    by_cases hk : k = n
    · subst hk
      simp only [if_true, Option.any_some] at h
      simp [AMap.put, h]
    · rw [if_neg hk] at h
      simp only [AMap.put, if_neg hk]
      split
      · -- a key put before an entry that it already has
        have ht : f (n, x) = true → t.any f = true := fun hx => by
          cases hy : AMap.find? t n with
          | none => simp [hy, hx] at h
          | some y => exact List.any_eq_true.mpr ⟨_, AMap.find?_mem hy, by simpa [hy, hx] using h⟩
        cases hx : f (n, x) with
        | false => simp [hx]
        | true => simp [ht hx]
      · simp [ih h]

/-- A die's temperature as a measurement finds it. -/
def State.takeTemp (s : State) (e : Nat × Int) : State := s.setBay e.1 { s.bay e.1 with temp := e.2 }

theorem measureTemps_eq_foldl (s : State) (temps : List Int) : s.measureTemps temps = (indexed 0 (temps.take 8)).foldl State.takeTemp s := rfl

theorem dieHold_takeTemp (s : State) (e : Nat × Int) : (s.takeTemp e).dieHold = s.dieHold := by
  refine AMap.any_put ?_
  simp only [State.bay, AMap.get]
  cases s.bays.find? e.1 <;> rfl

/-- Temperatures change bays alone. -/
theorem foldl_takeTemp_eq (l : List (Nat × Int)) (s : State) : ∃ bays, l.foldl State.takeTemp s = { s with bays := bays } := by
  induction l generalizing s with
  | nil => exact ⟨_, rfl⟩
  | cons e t ih => exact ih (s.takeTemp e)

theorem dieHold_foldl_takeTemp (l : List (Nat × Int)) (s : State) : (l.foldl State.takeTemp s).dieHold = s.dieHold := by
  induction l generalizing s with
  | nil => rfl
  | cons e t ih => exact (ih _).trans (dieHold_takeTemp s e)

theorem bay_takeTemps_below {i j : Nat} (h : j < i) (l : List Int) (s : State) : ((indexed i l).foldl State.takeTemp s).bay j = s.bay j := by
  induction l generalizing s i with
  | nil => rfl
  | cons v t ih => exact (ih (by omega) _).trans (State.bay_setBay_other s i j _ (by omega))

theorem temp_takeTemps (l : List Int) (i j : Nat) (v : Int) (h : l[j]? = some v) (s : State) :
    (((indexed i l).foldl State.takeTemp s).bay (i + j)).temp = v := by
  induction l generalizing s i j with
  | nil => cases h
  | cons w t ih =>
    cases j with
    | zero =>
      obtain rfl : w = v := by simpa using h
      change (((indexed (i + 1) t).foldl State.takeTemp (s.takeTemp (i, w))).bay i).temp = w
      rw [bay_takeTemps_below (by omega)]
      exact congrArg Bay.temp (State.bay_setBay_same s i _)
    | succ j => exact Nat.add_right_comm i j 1 ▸ ih (i + 1) j h (s.takeTemp (i, w))

theorem measureTemps_eq (s : State) (temps : List Int) : ∃ bays, s.measureTemps temps = { s with bays := bays } :=
  foldl_takeTemp_eq _ s

theorem dieHold_measureTemps (s : State) (temps : List Int) : (s.measureTemps temps).dieHold = s.dieHold := dieHold_foldl_takeTemp _ s

theorem temp_measureTemps (s : State) {temps : List Int} {i : Nat} {v : Int} (hi : i < 8) (h : temps[i]? = some v) :
    ((s.measureTemps temps).bay i).temp = v := by
  have ht : (temps.take 8)[i]? = some v := by rw [List.getElem?_take_of_lt hi, h]
  exact Nat.zero_add i ▸ temp_takeTemps (temps.take 8) 0 i v ht s

/-! ## The clock -/

/-- The readings that a measurement averages: the last ten. -/
def State.readings (s : State) (p : PowerReading) : List Nat := (p.watts :: s.mgmt.samples).take 10

/-- The clock after a measurement (R422, R423). -/
def State.clockAfter (s : State) (p : PowerReading) : Nat :=
  let l := s.readings p
  if 3600 * l.length < l.sum then max 1000 (s.mgmt.clockMHz - 50)
  else if l.sum < 3400 * l.length ∧ s.dieHold = false then min 3300 (s.mgmt.clockMHz + 50) else s.mgmt.clockMHz

/-- A measurement that is due takes the temperatures, the average and the clock, and may record an event; it changes nothing else. -/
theorem exec_powerSample_due {s : State} (p : PowerReading) (hp : s.mgmt.phase.powered = true) (hd : s.sampleDue = true) :
    ∃ bays m, exec (.powerSample p) s = .next { s with bays := bays, mgmt := m } ∧
      (∀ i v, i < 8 → p.temps[i]? = some v → (({ s with bays := bays, mgmt := m } : State).bay i).temp = v) ∧ m.samples = s.readings p ∧
      m.avgPower = (s.readings p).sum / (s.readings p).length ∧ m.sampledAt = some s.elapsed ∧ m.clockMHz = s.clockAfter p := by
  obtain ⟨bays, hb⟩ := measureTemps_eq s p.temps
  have hsum (l : List Nat) : l.foldl (· + ·) 0 = l.sum := List.sum_eq_foldl.symm
  have htemp (i : Nat) (v : Int) (hi : i < 8) (h : p.temps[i]? = some v) := hb ▸ temp_measureTemps s hi h
  have hhold : ({ s with bays := bays } : State).dieHold = s.dieHold := hb ▸ dieHold_measureTemps s p.temps
  have hclock : s.clockAfter p = if decide (3600 * (s.readings p).length < (s.readings p).sum) then max clockFloor (s.mgmt.clockMHz - clockStep)
      else if decide ((s.readings p).sum < 3400 * (s.readings p).length) && !s.dieHold then min clockTop (s.mgmt.clockMHz + clockStep)
      else s.mgmt.clockMHz := by
    simp only [State.clockAfter, clockFloor, clockStep, clockTop, decide_eq_true_eq, Bool.and_eq_true, Bool.not_eq_true']
  change ∃ bays m, execPowerSample p s = _ ∧ _
  simp only [execPowerSample, hp, hd, Bool.not_true, Bool.or_self, Bool.false_eq_true, if_false, hb, hhold, hsum]
  generalize hc : (_ && _ : Bool) = c
  cases c
  · exact ⟨bays, _, rfl, htemp, rfl, rfl, rfl, hclock.symm⟩
  · exact ⟨bays, _, rfl, htemp, rfl, rfl, rfl, hclock.symm⟩

/-- R422, R427: the power sample. -/
theorem followsPower : FollowsPower := by
  intro s p hm l held
  have hp := powered_of_managed hm
  have hheld : s.dieHold = false ↔ ¬ held := by
    rw [← Bool.not_eq_true, State.dieHold, List.any_eq_true]
  refine ⟨fun a ha hlt => ?_, fun hdue => ?_⟩
  · have hd : s.sampleDue = false := by simpa [State.sampleDue, ha] using hlt
    change execPowerSample p s = _
    simp only [execPowerSample, hd, Bool.not_false, Bool.or_true, if_true, State.stay]
  · have hd : s.sampleDue = true := by
      unfold State.sampleDue
      split
      · rfl
      · next a ha => exact decide_eq_true (hdue a ha)
    obtain ⟨bays, m, hx, htemp, hsamples, havg, hat, hclock⟩ := exec_powerSample_due p hp hd
    change m.samples = l at hsamples
    change m.avgPower = l.sum / l.length at havg
    refine ⟨_, hx, hsamples, havg, hat, rfl, rfl, htemp, fun habove => ?_, fun hunder hn => ?_, fun h1 h2 => ?_, fun hunder hh => ?_⟩
    all_goals refine hclock.trans ?_
    all_goals simp only [State.clockAfter, hheld, show s.readings p = l from rfl]
    · rw [if_pos habove]
    · rw [if_neg (by omega), if_pos ⟨hunder, hn⟩]
    · rw [if_neg (by omega), if_neg (by omega)]
    · rw [if_neg (by omega), if_neg (fun h => h.2 hh)]

/-! ## Heat -/

/-- R423: the thermal hold and its release. -/
theorem holdsForHeat : HoldsForHeat := by
  intro s bay temp
  refine ⟨fun hm ht => ?_, fun ht hh => ?_, fun ht => ?_⟩
  · have hc : (decide (temp < 105) || !s.mgmt.phase.managed) = false := by simpa [managed_iff.mp hm] using ht
    change ∃ t, execThermalHold bay temp s = .next t ∧ _
    simp only [execThermalHold, hc, Bool.false_eq_true, if_false]
    cases hh : (s.bay bay).hold with
    | true => exact ⟨_, rfl, rfl, rfl, rfl, rfl, fun _ => rfl, nofun⟩
    | false => exact ⟨_, rfl, rfl, rfl, rfl, rfl, nofun, fun _ => ⟨_, rfl, rfl, rfl, rfl⟩⟩
  · have hc : (decide (100 ≤ temp) || !(s.bay bay).hold) = false := by simpa [hh] using ht
    change execThermalRelease bay temp s = _
    simp only [execThermalRelease, hc, Bool.false_eq_true, if_false]
    rfl
  · have hc : (decide (100 ≤ temp) || !(s.bay bay).hold) = true := by simp [ht]
    change execThermalRelease bay temp s = _
    simp only [execThermalRelease, hc, if_true, State.stay]

end Sys2Proof.Machine
end

section
/-! O56. Fatal errors (R423, R429, R430). -/

namespace Sys2Proof.Machine
open Sys2Proof Sys2Proof.Claims

/-- The machine with the bents of a list killed under cause 0x10 (R429). -/
def State.killAll (s : State) (l : List Nat) : State := l.foldl (fun (s : State) b => s.killBent b 0x10 0) s

theorem Mild.killAll (s : State) (l : List Nat) : Mild s (s.killAll l) := Mild.foldl (fun s b => Mild.killBent s b 0x10 0) l s

theorem TreeKept.killAll (l : List Nat) (s : State) : TreeKept s (s.killAll l) := by
  induction l generalizing s with
  | nil => exact TreeKept.refl s
  | cons b t ih => exact (TreeKept.killBent s b 0x10 0).trans (ih _)

/-- Every bent of the list drains. -/
theorem drain_killAll {l : List Nat} {s : State} {b : Nat} (hb : b ∈ l) {r : Bent} (hr : (s.killAll l).bents.find? b = some r) : r.drain = true := by
  induction l generalizing s with
  | nil => cases hb
  | cons a t ih =>
    rcases List.mem_cons.mp hb with rfl | hb
    · obtain ⟨q, hq, hg⟩ := (TreeKept.killAll t (s.killBent b 0x10 0)).of_find?_some hr
      exact hg.drain (drained_killBent s b 0x10 0 b q hq (s.under_self b))
    · exact ih hb hr

theorem fatal_eq (s : State) (cause : Nat) : ∃ d m, s.fatal cause = { s.killAll (AMap.keys s.bents) with mgmt := m } ∧ m.phase = .fatal ∧
    m.dump = some d ∧ d.ts = s.timestamp ∧ d.cause = cause ∧
    d.sections = (s.killAll (AMap.keys s.bents)).bents.map (s.killAll (AMap.keys s.bents)).dumpSection :=
  ⟨_, _, rfl, rfl, rfl, rfl, rfl, rfl⟩

/-- R429, R430: what a fatal error leaves. -/
theorem fatal_fatal (s : State) (cause : Nat) : Fatal s (s.fatal cause) cause := by
  obtain ⟨d, m, e, hphase, hdump, hts, hcause, hsec⟩ := fatal_eq s cause
  rw [e]
  have htree := TreeKept.killAll (AMap.keys s.bents) s
  refine ⟨hphase, fun b r hr => ?_, (Mild.killAll s _).registersKept, d, hdump, hts, hcause, fun b r hr => ?_⟩
  · obtain ⟨q, hq, -⟩ := htree.of_find?_some hr
    exact drain_killAll (List.mem_map_of_mem (f := Prod.fst) (AMap.find?_mem hq)) hr
  · obtain ⟨q, hq, hg⟩ := htree.find?_some hr
    exact ⟨_, hsec ▸ List.mem_map_of_mem (AMap.find?_mem hq), congrArg some hg.owner, rfl⟩

/-- R423, R429: the fatal errors. -/
theorem fatalErrors : FatalErrors := by
  intro s hm
  have hm := managed_iff.mp hm
  refine ⟨fun bay temp ht => ?_, ⟨s.fatal 2, ?_, fatal_fatal s 2⟩, ⟨s.fatal 3, ?_, fatal_fatal s 3⟩⟩
  · have hc : (decide (temp < 115) || !s.mgmt.phase.managed) = false := by simpa [hm] using ht
    refine ⟨_, ?_, fatal_fatal (s.setBay bay { s.bay bay with temp := temp }) 1⟩
    change execThermalTrip bay temp s = _
    simp only [execThermalTrip, hc, Bool.false_eq_true, if_false]
  · exact if_pos hm
  · exact if_pos hm

end Sys2Proof.Machine
end

section
/-! O56. Bring-up (R40, R41, R418 to R420, R428, R429). -/

namespace Sys2Proof.Machine
open Sys2Proof Sys2Proof.Claims

/-! ## The enabled cores -/

theorem mem_rangeFrom {lo n p : Nat} : p ∈ rangeFrom lo n ↔ lo ≤ p ∧ p < lo + n := by
  rw [range_eq_rangeFrom, List.mem_map]
  constructor
  · rintro ⟨i, hi, rfl⟩
    have := List.mem_range.mp hi
    omega
  · exact fun h => ⟨p - lo, List.mem_range.mpr (by omega), by omega⟩

theorem getElem?_indexed {α : Type} (l : List α) (i j : Nat) : (indexed i l)[j]? = l[j]?.map (fun a => (i + j, a)) := by
  induction l generalizing i j with
  | nil => simp [indexed]
  | cons a t ih =>
    cases j with
    | zero => rfl
    | succ j => rw [indexed, List.getElem?_cons_succ, List.getElem?_cons_succ, ih, Nat.add_assoc, Nat.add_comm 1 j]

theorem length_indexed {α : Type} (l : List α) (i : Nat) : (indexed i l).length = l.length := by
  induction l generalizing i with
  | nil => rfl
  | cons a t ih => simp [indexed, ih]

/-- Which cores bring-up enables in each bay (R428). -/
theorem mem_enabledCores {b : BringUp} {list : List Nat} {j : Nat} {c : List Nat} (hc : (enabledCores b list)[j]? = some c) (p : Nat) :
    p ∈ c ↔ b.flashListValid = true ∧ p ∉ list ∧ p / 256 = j ∧ ∃ l, b.passed[j]? = some l ∧ p % 256 ∈ l := by
  rw [enabledCores, List.getElem?_map, getElem?_indexed, Option.map_map] at hc
  obtain ⟨l, hl, rfl⟩ := Option.map_eq_some_iff.mp hc
  simp only [Function.comp_apply, Nat.zero_add, hl]
  cases b.flashListValid with
  | false => simp
  | true =>
    have hin : (l.contains (p - 256 * j) && !list.contains p) = true ↔ p - 256 * j ∈ l ∧ p ∉ list := by simp
    simp only [if_true, List.mem_filter, mem_rangeFrom, hin, Option.some.injEq, exists_eq_left', true_and]
    have hj : (256 * j ≤ p ∧ p < 256 * j + 256) ↔ p / 256 = j := by omega
    rw [hj]
    constructor
    · rintro ⟨hp, hm, hn⟩
      exact ⟨hn, hp, by rwa [show p % 256 = p - 256 * j by omega]⟩
    · rintro ⟨hn, hp, hm⟩
      exact ⟨hp, by rwa [show p - 256 * j = p % 256 by omega], hn⟩

theorem length_enabledCores (b : BringUp) (list : List Nat) : (enabledCores b list).length = b.passed.length := by
  simp [enabledCores, length_indexed]

/-- The cores enabled, of all bays. -/
theorem mem_flatten_enabledCores (b : BringUp) (list : List Nat) (p : Nat) :
    p ∈ (enabledCores b list).flatten ↔ b.flashListValid = true ∧ p ∉ list ∧ ∃ l, b.passed[p / 256]? = some l ∧ p % 256 ∈ l := by
  rw [List.mem_flatten]
  constructor
  · rintro ⟨c, hc, hp⟩
    obtain ⟨j, hj⟩ := List.getElem?_of_mem hc
    obtain ⟨hv, hn, rfl, hl⟩ := (mem_enabledCores hj p).mp hp
    exact ⟨hv, hn, hl⟩
  · rintro ⟨hv, hn, l, hl, hp⟩
    have hlt : p / 256 < (enabledCores b list).length := by
      rw [length_enabledCores]
      exact (List.getElem?_eq_some_iff.mp hl).1
    have hj := List.getElem?_eq_getElem hlt
    exact ⟨_, List.mem_of_getElem? hj, (mem_enabledCores hj p).mpr ⟨hv, hn, rfl, l, hl, hp⟩⟩

/-- Numbers filed by a test of their own are counted by it. -/
theorem length_filter_flatten {f : Nat → Nat} {i : Nat} {c : List Nat} (L : List (List Nat)) (k : Nat)
    (h : ∀ j d, L[j]? = some d → ∀ p ∈ d, f p = k + j) (hc : L[i]? = some c) :
    (L.flatten.filter (fun p => decide (f p = k + i))).length = c.length := by
  induction L generalizing k i with
  | nil => cases hc
  | cons a t ih =>
    have ha (p : Nat) (hp : p ∈ a) : f p = k := h 0 a rfl p hp
    have ht (j : Nat) (d : List Nat) (hd : t[j]? = some d) (p : Nat) (hp : p ∈ d) : f p = k + 1 + j := by
      rw [h (j + 1) d hd p hp]
      omega
    rw [List.flatten_cons, List.filter_append, List.length_append]
    cases i with
    | zero =>
      obtain rfl : a = c := by simpa using hc
      have h1 : a.filter (fun p => decide (f p = k + 0)) = a := List.filter_eq_self.mpr fun p hp => by simp [ha p hp]
      have h2 : t.flatten.filter (fun p => decide (f p = k + 0)) = [] := List.filter_eq_nil_iff.mpr fun p hp => by
        obtain ⟨d, hd, hpd⟩ := List.mem_flatten.mp hp
        obtain ⟨j, hj⟩ := List.getElem?_of_mem hd
        simp [ht j d hj p hpd]
        omega
      rw [h1, h2]
      rfl
    | succ i =>
      have h1 : a.filter (fun p => decide (f p = k + (i + 1))) = [] := List.filter_eq_nil_iff.mpr fun p hp => by simp [ha p hp]
      rw [h1, ← ih (k + 1) ht hc, List.length_nil, Nat.zero_add, Nat.add_assoc, Nat.add_comm 1 i]

/-! ## The phase -/

theorem meetsCounts_iff (bays : List Nat) (chans : Nat) : meetsCounts bays chans = true ↔
    1984 ≤ bays.sum ∧ (∀ n ∈ bays, 240 ≤ n) ∧ 372 ≤ chans := by
  rw [meetsCounts, ← List.sum_eq_foldl]
  simp [and_assoc]

theorem firmwareOk_iff (floor : Nat) (f : Firmware) : firmwareOk floor f = true ↔ sha256 f.vendorKey = Config.vendorKeyDigest ∧
    Config.slhVerify f.vendorKey (leBytes 8 f.version.toNat ++ f.image) f.signature = true ∧ floor ≤ f.version.toNat := by
  simp [firmwareOk, and_assoc]

theorem bringUpPhase_stopped {floor : Nat} {b : BringUp} {bays : List Nat} (h : ¬ (rootOk b.root = true ∧ firmwareOk floor b.firmware = true)) :
    bringUpPhase floor b bays = .stopped := by
  rw [bringUpPhase, if_pos]
  rwa [← Bool.not_and, Bool.not_eq_true', ← Bool.not_eq_true, Bool.and_eq_true]

theorem bringUpPhase_up {floor : Nat} {b : BringUp} {bays : List Nat} (hr : rootOk b.root = true) (hf : firmwareOk floor b.firmware = true) :
    bringUpPhase floor b bays = if meetsCounts bays b.chans then .service else .belowCounts := by
  rw [bringUpPhase, hr, hf]
  rfl

/-! ## Bring-up -/

/-- A table made of a list of keys has each of them. -/
theorem find?_map_keys {α : Type} (f : Nat → α) {l : List Nat} {i : Nat} (h : i ∈ l) : AMap.find? (l.map (fun j => (j, f j))) i = some (f i) := by
  induction l with
  | nil => cases h
  | cons a t ih =>
    rw [List.map_cons, AMap.find?_cons]
    split
    · next e => rw [e]
    · next e => exact ih ((List.mem_cons.mp h).resolve_left (Ne.symm e))

/-- R40, R41, R311, R418 to R420, R428, R429: bring-up and the loss of power. -/
theorem bringsUp : BringsUp := by
  intro s b list secret signed up
  have hup (dump : Option Dump) : up (s.bringUp b dump) dump := by
    have hroot : rootOk b.root = true ↔ secret := decide_eq_true_iff
    have hfw : firmwareOk s.mgmt.config.floor b.firmware = true ↔ signed := firmwareOk_iff _ _
    refine ⟨rfl, rfl, rfl, rfl, rfl, rfl, rfl, rfl, rfl, rfl, rfl, rfl, rfl, rfl, rfl, mem_flatten_enabledCores b list, ?_, fun i n hn => ?_,
      fun i hi => ?_, fun h => bringUpPhase_stopped fun hn => h ⟨hroot.mp hn.1, hfw.mp hn.2⟩, fun hr hf => ⟨fun hm => ?_, fun hm => ?_⟩⟩
    · exact (List.length_map _).trans (length_enabledCores b list)
    · change ((enabledCores b list).map List.length)[i]? = some n at hn
      rw [List.getElem?_map] at hn
      obtain ⟨c, hc, rfl⟩ := Option.map_eq_some_iff.mp hn
      have h := length_filter_flatten (f := (· / 256)) (enabledCores b list) 0
        (fun j d hd p hp => by rw [((mem_enabledCores hd p).mp hp).2.2.1, Nat.zero_add]) hc
      rw [Nat.zero_add] at h
      exact h.symm
    · exact ⟨_, find?_map_keys (fun i => Config.drbgKey i (s.mgmt.draws + 1)) (mem_rangeFrom.mpr ⟨Nat.zero_le i, by omega⟩)⟩
    · exact (bringUpPhase_up (hroot.mpr hr) (hfw.mpr hf)).trans (if_pos ((meetsCounts_iff _ _).mpr hm))
    · exact (bringUpPhase_up (hroot.mpr hr) (hfw.mpr hf)).trans (if_neg fun h => hm ((meetsCounts_iff _ _).mp h))
  refine ⟨fun h => ⟨_, if_pos h, hup none⟩, fun h => ⟨_, if_neg h, hup s.mgmt.dump⟩, fun h => if_pos h, fun h => if_neg h, _, rfl, ?_⟩
  exact ⟨rfl, rfl, rfl, rfl, rfl, rfl, rfl, rfl, rfl⟩

/-- Settles O56: power and heat by the clock after one measurement, fatal errors by the kill of every bent, bring-up by the cores that it enables. -/
theorem powerAndBringUp : Obligations.PowerAndBringUp := ⟨followsPower, holdsForHeat, fatalErrors, bringsUp⟩

end Sys2Proof.Machine
end

section
/-! SUPPORT for O34, O43 and O49. Register files, entries of lists, and phasers that a member leaves. -/

namespace Sys2Proof.Machine
open Sys2Proof Sys2Proof.Claims

/-! ## Register files -/

/-- The registers of a core that no event changes. -/
def Core.file (k : Core) : Vector Word 32 × Vector Word 32 × Vector Desc 16 × PegRegs × Word := (k.x, k.f, k.d, k.regs, k.pc)

theorem registersKept_iff {s t : State} : RegistersKept s t ↔ ∀ c, (t.core c).file = (s.core c).file := by
  simp only [RegistersKept, Core.file, Prod.mk.injEq]

theorem RegistersKept.refl (s : State) : RegistersKept s s := fun _ => ⟨rfl, rfl, rfl, rfl, rfl⟩

theorem RegistersKept.trans {s t u : State} (h : RegistersKept s t) (h' : RegistersKept t u) : RegistersKept s u :=
  registersKept_iff.mpr fun c => (registersKept_iff.mp h' c).trans (registersKept_iff.mp h c)

/-- A change of one core that leaves its registers alone. -/
theorem RegistersKept.setCore (s : State) {c : Nat} {k : Core} (h : k.file = (s.core c).file) : RegistersKept s (s.setCore c k) :=
  registersKept_iff.mpr fun j => by
    by_cases hj : j = c
    · rw [hj, State.core_setCore_same, h]
    · rw [State.core_setCore_other _ _ _ _ hj]

/-- A change of every core that leaves its registers alone. -/
theorem RegistersKept.mapCores (s : State) {g : Nat × Core → Nat × Core} (hk : ∀ e, (g e).1 = e.1) (hg : ∀ e, (g e).2.file = e.2.file) :
    RegistersKept s { s with cores := s.cores.map g } :=
  registersKept_iff.mpr fun c => by
    simp only [State.core, AMap.get, AMap.find?_map hk]
    cases s.cores.find? c with
    | none => rfl
    | some k => exact hg (c, k)

/-! ## Entries of lists -/

/-- An element that replaces those with its key is found under it. -/
theorem find?_map_replace {α β : Type} [DecidableEq β] (key : α → β) {l : List α} {x y : α} {b : β} (hx : key x = b)
    (h : l.find? (fun z => decide (key z = b)) = some y) :
    (l.map (fun z => if key z = key x then x else z)).find? (fun z => decide (key z = b)) = some x := by
  subst hx
  induction l with
  | nil => cases h
  | cons z t ih =>
    rw [List.map_cons]
    by_cases hz : key z = key x
    · rw [if_pos hz]
      exact List.find?_cons_of_pos (decide_eq_true rfl)
    · rw [if_neg hz]
      rw [List.find?_cons_of_neg (by simpa using hz)] at h
      rw [List.find?_cons_of_neg (by simpa using hz)]
      exact ih h

theorem uid_of_ctx? {k : Core} {uid : Nat} {x : Context} (h : k.ctx? uid = some x) : x.uid = uid :=
  of_decide_eq_true (List.find?_some (p := fun x : Context => decide (x.uid = uid)) h)

theorem seq_of_entry {k : Core} {n : BitVec 32} {c : Cmd} (h : k.entry n = some c) : c.seq = n :=
  of_decide_eq_true (List.find?_some (p := fun c : Cmd => decide (c.seq = n)) h)

/-- The context that replaces one is found in its place. -/
theorem Core.ctx?_setCtx {k : Core} {uid : Nat} {x y : Context} (h : k.ctx? uid = some y) (hx : x.uid = uid) : (k.setCtx x).ctx? uid = some x :=
  find?_map_replace Context.uid hx h

/-- The entry that replaces one is found in its place. -/
theorem Core.entry_setEntry {k : Core} {n : BitVec 32} {c d : Cmd} (h : k.entry n = some d) (hc : c.seq = n) : (k.setEntry c).entry n = some c :=
  find?_map_replace Cmd.seq hc h

/-- A core without the contexts of a number has none of it. -/
theorem Core.ctx?_filter (k : Core) (uid : Nat) : ({ k with ctxs := k.ctxs.filter (fun y => !(decide (y.uid = uid))) } : Core).ctx? uid = none := by
  simp [Core.ctx?]

theorem RegistersKept.setCtx (s : State) (core : Nat) (x : Context) : RegistersKept s (s.setCtx core x) := RegistersKept.setCore s rfl

theorem State.ctx?_setCtx {s : State} {core uid : Nat} {x y : Context} (h : (s.core core).ctx? uid = some y) (hx : x.uid = uid) :
    ((s.setCtx core x).core core).ctx? uid = some x := by
  rw [State.setCtx, State.core_setCore_same]
  exact Core.ctx?_setCtx h hx

/-! ## Phasers -/

theorem Phaser.advance_members (ph : Phaser) : ph.advance.members = ph.members := by
  unfold Phaser.advance
  split <;> rfl

theorem findMember_filter (m : Member) (l : List (Member × PhMode × BitVec 32)) : findMember m (l.filter (fun e => !(decide (e.1 = m)))) = none := by
  induction l with
  | nil => rfl
  | cons e t ih =>
    obtain ⟨k, v⟩ := e
    by_cases h : k = m
    · simpa [List.filter_cons, h] using ih
    · simpa [List.filter_cons, h, findMember] using ih

/-- A member that drops out is none any more (R157). -/
theorem Phaser.member_dropMember (ph : Phaser) (m : Member) : (ph.dropMember m).member m = none := by
  unfold Phaser.dropMember Phaser.member
  dsimp only
  rw [Phaser.advance_members]
  exact findMember_filter m _

/-- A member that is dropped everywhere is a member of no phaser. -/
theorem State.member_dropEverywhere (s : State) (m : Member) (bay n : Nat) : ((s.dropEverywhere m).phaser bay n).member m = none := by
  have hn (ps : AMap Phaser) : ((AMap.find? (ps.map fun q => if (q.2.member m).isSome then (q.1, q.2.dropMember m) else q) n).getD
      Phaser.reset).member m = none := by
    rw [AMap.find?_map fun e => by split <;> rfl]
    cases ps.find? n with
    | none => rfl
    | some ph =>
      simp only [Option.map_some, Option.getD_some]
      split
      · exact ph.member_dropMember m
      · next h => simpa using h
  unfold State.dropEverywhere State.phaser State.bay AMap.get
  dsimp only
  rw [AMap.find?_map (g := fun e : Nat × Bay =>
    (e.1, { e.2 with phasers := e.2.phasers.map fun q => if (q.2.member m).isSome then (q.1, q.2.dropMember m) else q })) fun _ => rfl]
  cases s.bays.find? bay with
  | none => rfl
  | some y => exact hn y.phasers

/-- Dropping a member changes bays alone. -/
theorem State.dropEverywhere_eq (s : State) (m : Member) : ∃ bays, s.dropEverywhere m = { s with bays := bays } := ⟨_, rfl⟩

end Sys2Proof.Machine
end

section
/-! O43. Kernel contexts launch, stall, fetch lines and halt (R33, R201, R202, R263, R376, R380). -/

namespace Sys2Proof.Machine
open Sys2Proof Sys2Proof.Claims

/-! ## CONTEXT_LAUNCH -/

/-- Untagged outputs bind no record. -/
theorem bindOuts_untagged {outs : List Binding} (h : ∀ o ∈ outs, o.scrb = 0) (s : State) (bay bent uid : Nat)
    (k : State → List Binding → Started) (c : Cmd) : s.bindOuts bay bent uid outs k c = k s outs := by
  induction outs generalizing k with
  | nil => rfl
  | cons o t ih =>
    rw [State.bindOuts, if_pos (h o List.mem_cons_self)]
    exact ih (fun o ho => h o (List.mem_cons_of_mem _ ho)) _

/-- An argument goes into its scalar register, which reads 0 without one (R202). -/
def putArg (m : AMap Word) (e : Nat × Word) : AMap Word := if e.2 = 0 then m else AMap.put m e.1 e.2

theorem get_putArg (m : AMap Word) (i j : Nat) (v : Word) (h : m.get i 0 = 0) : (putArg m (i, v)).get j 0 = if j = i then v else m.get j 0 := by
  unfold putArg
  by_cases hj : j = i
  · subst hj
    by_cases hv : v = 0
    · rw [if_pos hv, if_pos rfl, h, hv]
    · rw [if_neg hv, if_pos rfl, AMap.get_put_same]
  · by_cases hv : v = 0
    · rw [if_pos hv, if_neg hj]
    · rw [if_neg hv, if_neg hj, AMap.get_put_other _ _ _ _ _ hj]

theorem get_putArgs_below (args : List Word) {i j : Nat} (hj : j < i) (m : AMap Word) (h : ∀ n, i ≤ n → m.get n 0 = 0) :
    ((indexed i args).foldl putArg m).get j 0 = m.get j 0 := by
  induction args generalizing i m with
  | nil => rfl
  | cons v t ih =>
    have hp (n : Nat) := get_putArg m i n v (h i le_rfl)
    refine (ih (by omega) _ fun n hn => ?_).trans ?_
    · rw [hp, if_neg (by omega), h n (by omega)]
    · rw [hp, if_neg (by omega)]

/-- The arguments stand in the registers from `i` up. -/
theorem get_putArgs (args : List Word) (i j : Nat) (m : AMap Word) (h : ∀ n, i ≤ n → m.get n 0 = 0) :
    ((indexed i args).foldl putArg m).get (i + j) 0 = (args[j]?).getD 0 := by
  induction args generalizing i j m with
  | nil => exact h (i + j) (by omega)
  | cons v t ih =>
    have hp (n : Nat) := get_putArg m i n v (h i le_rfl)
    have hz (n : Nat) (hn : i + 1 ≤ n) : (putArg m (i, v)).get n 0 = 0 := by rw [hp, if_neg (by omega), h n (by omega)]
    cases j with
    | zero => exact (get_putArgs_below t (by omega) _ hz).trans (by rw [hp, if_pos (Nat.add_zero i)]; rfl)
    | succ j => exact (show i + (j + 1) = i + 1 + j by omega) ▸ ih (i + 1) j (putArg m (i, v)) hz

/-- The machine with a context started by its KRUN (R202). -/
def launched (s : State) (core : Nat) (c : Cmd) (x : Context) : State :=
  let u := { s with stamp := s.stamp + 1 }.setCore core { s.core core with ctxs := (s.core core).ctxs ++ [x] }
  u.setCore core ((u.core core).setEntry { c with ctx := some x.uid, progress := 1, asked := none })

theorem core_launched (s : State) (core : Nat) (c : Cmd) (x : Context) : (launched s core c x).core core =
    { (s.core core).setEntry { c with ctx := some x.uid, progress := 1, asked := none } with ctxs := (s.core core).ctxs ++ [x] } := by
  unfold launched
  dsimp only
  rw [State.core_setCore_same, State.core_setCore_same]
  rfl

theorem registersKept_launched (s : State) (core : Nat) (c : Cmd) (x : Context) : RegistersKept s (launched s core c x) := by
  have h1 : RegistersKept s ({ s with stamp := s.stamp + 1 }.setCore core { s.core core with ctxs := (s.core core).ctxs ++ [x] }) :=
    RegistersKept.setCore { s with stamp := s.stamp + 1 } rfl
  exact RegistersKept.trans h1 (RegistersKept.setCore _ rfl)

/-- The head of a queue stands in the journal. -/
theorem entry_of_head {k : Core} {q : Queue} {c : Cmd} (h : k.head q = some c) : ∃ d, k.entry c.seq = some d := by
  refine Option.isSome_iff_exists.mp (List.find?_isSome.mpr ⟨c, List.mem_of_find?_eq_some h, decide_eq_true rfl⟩)

/-- R33, R201, R202: the launch of a context. -/
theorem launchesContexts : LaunchesContexts := by
  intro s core c r first slot base hhead hst hrun hb hroom hplace houts
  have hgo : (decide (c.st ≠ .running) || !s.mayRun core c) = false := by rw [hst, hrun]; rfl
  have hx : exec (.contextLaunch core) s =
      .next (launched s core c (Context.start c c.launch s.stamp first slot base c.launch.outs
        (r.compatAt c.launch.entry) (s.core core).spillMode)) := by
    change execContextLaunch core s = _
    simp only [execContextLaunch, hhead, hgo, hb, hplace, hroom, bindOuts_untagged houts, Bool.false_eq_true, if_false]
    rfl
  refine ⟨_, _, hx, congrArg Core.ctxs (core_launched s core c _), registersKept_launched s core c _, rfl, rfl, rfl, rfl, rfl, rfl, rfl, rfl, rfl,
    rfl, rfl, rfl, rfl, rfl, rfl, rfl, rfl, rfl, rfl, rfl, ?_, ?_⟩
  · intro e he j hj
    obtain rfl := List.eq_of_mem_replicate he
    have h := get_putArgs c.launch.args 1 (j - 1) [] fun _ _ => rfl
    rwa [Nat.add_sub_cancel' hj] at h
  · obtain ⟨d, hd⟩ := entry_of_head hhead
    unfold entryIs
    rw [core_launched]
    exact Core.entry_setEntry hd rfl

/-! ## CONTEXT_HALT -/

/-- A result that lands changes no more of a core than its SRF. -/
theorem landOne_core (k : Core) (x : Context) (f : Flight) : ∃ srf bad, (landOne k x f).1 = { k with srf := srf, srfPoison := bad } := by
  unfold landOne
  dsimp only
  split
  case h_6 => exact ⟨_, _, rfl⟩
  all_goals exact ⟨_, _, rfl⟩

theorem landAll_core (k : Core) (x : Context) (fs : List Flight) : ∃ srf bad, (landAll k x fs).1 = { k with srf := srf, srfPoison := bad } := by
  induction fs generalizing k x with
  | nil => exact ⟨_, _, rfl⟩
  | cons f t ih =>
    obtain ⟨srf, bad, e⟩ := landOne_core k x f
    obtain ⟨srf', bad', e'⟩ := ih (landOne k x f).1 (landOne k x f).2
    exact ⟨srf', bad', e'.trans (by rw [e])⟩

theorem mem_indexed {α : Type} {l : List α} {i : Nat} {e : Nat × α} (h : e ∈ indexed i l) : e.2 ∈ l := by
  induction l generalizing i with
  | nil => cases h
  | cons a t ih =>
    rcases List.mem_cons.mp h with rfl | h
    · exact List.mem_cons_self
    · exact List.mem_cons_of_mem _ (ih h)

/-- An output without a record gathers nothing. -/
theorem gatherPush_untagged {o : Binding} (h : o.stats = none) (k : Core) (a n : Nat) : o.gatherPush k a n = o := by
  unfold Binding.gatherPush
  rw [h]

/-- Untagged outputs stay untagged as results land. -/
theorem landOne_untagged {x : Context} (h : ∀ o ∈ x.outs, o.stats = none) (k : Core) (f : Flight) :
    ∀ o ∈ (landOne k x f).2.outs, o.stats = none := by
  unfold landOne
  dsimp only
  split
  case h_6 i a n _ =>
    intro o ho
    obtain ⟨e, he, rfl⟩ := List.mem_map.mp ho
    have hs := h e.2 (mem_indexed he)
    split
    · rwa [gatherPush_untagged hs]
    · exact hs
  all_goals exact h

theorem landAll_untagged {x : Context} (h : ∀ o ∈ x.outs, o.stats = none) (k : Core) (fs : List Flight) :
    ∀ o ∈ (landAll k x fs).2.outs, o.stats = none := by
  induction fs generalizing k x with
  | nil => exact h
  | cons f t ih => exact ih (landOne_untagged h k f) _

/-- The results in flight of a context, in the order in which they land as it halts (R263). -/
def Context.inOrder (x : Context) : List Flight := ((rangeFrom 0 8).map (fun r => x.flight.filter (fun f => f.rem = r))).flatten

theorem inOrder_nil {x : Context} (h : x.flight = []) : x.inOrder = [] := by
  simp [Context.inOrder, h]

/-- The statistics that a context owes once its results have landed (R263). -/
def Context.owes (x : Context) (k : Core) : List (Nat × Stats) :=
  let r := landAll k x x.inOrder
  r.2.outs.filterMap (fun o => (o.closing r.1).map (fun st => (o.scrb, st)))

theorem owes_untagged {x : Context} (h : ∀ o ∈ x.outs, o.stats = none) (k : Core) : x.owes k = [] := by
  refine List.filterMap_eq_nil_iff.mpr fun o ho => ?_
  rw [Binding.closing, landAll_untagged h k _ o ho]
  rfl

theorem owes_landed {x : Context} (h : x.flight = []) (he : ∀ o ∈ x.outs, ET.ofCode o.et ≠ .e2m1) (k : Core) :
    x.owes k = x.outs.filterMap (fun o => o.stats.map (fun st => (o.scrb, st))) := by
  unfold Context.owes
  rw [inOrder_nil h]
  refine List.filterMap_congr fun o ho => ?_
  simp only [Binding.closing, if_neg (he o ho), Option.map_id', landAll, List.foldl_nil]

/-- A KRUN whose context has halted, with the statistics that it owes (R263). -/
def Cmd.afterHalt (c : Cmd) (owed : List (Nat × Stats)) : Cmd := { c with halted := true, held := false, owed := owed }

/-- A core once a context has halted: its results landed, it gone, and its KRUN `c` halted (R263). -/
def Core.afterHalt (k : Core) (x : Context) (c : Cmd) : Core :=
  let q := (landAll k x x.inOrder).1
  { q with ctxs := q.ctxs.filter (fun y => !(decide (y.uid = x.uid))) }.setEntry (c.afterHalt (x.owes k))

/-- Landing results moves no entry, no register and no context of a core. -/
theorem landAll_frame (k : Core) (x : Context) (fs : List Flight) : (landAll k x fs).1.journal = k.journal ∧ (landAll k x fs).1.file = k.file := by
  obtain ⟨srf, bad, e⟩ := landAll_core k x fs
  rw [e]
  exact ⟨rfl, rfl⟩

section
variable {s : State} {core uid : Nat} {x : Context} {c : Cmd} (hx : (s.core core).ctx? uid = some x) (hc : (s.core core).entry x.seq = some c)
include hx hc

theorem exec_contextHalt (hended : x.ended = true) (hfrozen : x.frozen = false) (hsrfx : x.srfx = []) :
    exec (.contextHalt core uid) s = .next ((s.setCore core ((s.core core).afterHalt x c)).dropEverywhere (.context uid)) := by
  have hentry : (landAll (s.core core) x x.inOrder).1.entry x.seq = some c := by
    rw [Core.entry, (landAll_frame _ x _).1]
    exact hc
  obtain rfl := uid_of_ctx? hx
  change execContextHalt core x.uid s = _
  unfold execContextHalt
  simp only [hx, hended, hfrozen, hsrfx, List.isEmpty_nil, Bool.not_true, Bool.or_self, Bool.false_eq_true, if_false]
  rw [← Context.inOrder]
  split
  · next d hd =>
    obtain rfl : c = d := Option.some.inj (hentry.symm.trans hd)
    rfl
  · next hd => exact absurd (hentry.symm.trans hd) (Option.some_ne_none c)

end

/-- R263: the halt of a context. -/
theorem haltsContexts : HaltsContexts := by
  intro s core uid x c hx hended hfrozen hsrfx hc
  have hexec := exec_contextHalt hx hc hended hfrozen hsrfx
  have hfile : ((s.core core).afterHalt x c).file = (s.core core).file := (landAll_frame (s.core core) x x.inOrder).2
  have hctx : ((s.core core).afterHalt x c).ctx? uid = none := uid_of_ctx? hx ▸ Core.ctx?_filter _ x.uid
  have hentry : ((s.core core).afterHalt x c).entry x.seq = some (c.afterHalt (x.owes (s.core core))) := by
    refine Core.entry_setEntry (d := c) ?_ (show c.seq = x.seq from seq_of_entry hc)
    rw [Core.entry, (landAll_frame _ x _).1]
    exact hc
  generalize (s.core core).afterHalt x c = k at hexec hfile hctx hentry
  have hcore : ((s.setCore core k).dropEverywhere (.context uid)).core core = k := State.core_setCore_same s core k
  exact ⟨_, c.afterHalt (x.owes (s.core core)), hexec, (congrArg (fun q => Core.ctx? q uid) hcore).trans hctx, RegistersKept.setCore s hfile, rfl,
    State.member_dropEverywhere _ _, (congrArg (fun q => Core.entry q x.seq) hcore).trans hentry, rfl, rfl, rfl, rfl, fun h => owes_untagged h _,
    fun h he => owes_landed h he _⟩

/-! ## STALL_STEP and IMEM_LINE_FILL -/

/-- R380: the stall step of a context. -/
theorem stallsContexts : StallsContexts := by
  intro s core uid x hx hmay hmust
  refine ⟨_, ?_, RegistersKept.setCtx s core _, rfl, rfl, State.ctx?_setCtx hx (show x.uid = uid from uid_of_ctx? hx)⟩
  change execStallStep core uid s = _
  simp only [execStallStep, hx, hmay, hmust, Bool.not_true, Bool.or_self, Bool.false_eq_true, if_false]

/-- The line that is put into a frame stands in it. -/
theorem mem_frameFor (k : Core) (b line : Nat) (locked : Bool) (stamp : Nat) (key : BitVec 512) :
    { bent := b, line := line, locked := locked, stamp := stamp, key := key } ∈ (k.frameFor b line locked stamp key).frames :=
  List.mem_append_right _ List.mem_cons_self

/-- A locked frame stays when a line that it does not hold is put into one (R376, R385). -/
theorem locked_mem_frameFor {k : Core} {f : Frame} (hf : f ∈ k.frames) (hl : f.locked = true) {b line : Nat} (hne : ¬ (f.bent = b ∧ f.line = line))
    (hn : (k.frames.map (fun g => (g.bent, g.line))).Nodup) (locked : Bool) (stamp : Nat) (key : BitVec 512) :
    f ∈ (k.frameFor b line locked stamp key).frames := by
  have hrest : f ∈ k.frames.filter (fun g => !(decide (g.bent = b) && decide (g.line = line))) :=
    List.mem_filter.mpr ⟨hf, by simpa using not_and_or.mp hne⟩
  refine List.mem_append_left _ ?_
  split
  · exact hrest
  · split
    · next v hv =>
      refine List.mem_filter.mpr ⟨hrest, ?_⟩
      have hvl : v.locked = false := by simpa using List.find?_some hv
      have hvm : v ∈ k.frames := (List.mem_filter.mp (List.mem_of_find?_eq_some hv)).1
      -- the evicted frame is not locked, so it is another
      have hfv : f ≠ v := fun e => by simp [← e, hl] at hvl
      have hpair : ¬ (f.bent = v.bent ∧ f.line = v.line) := fun e => hfv (List.inj_on_of_nodup_map hn hf hvm (Prod.ext e.1 e.2))
      simpa using not_and_or.mp hpair
    · exact hrest

/-- R375, R376: the fill of a line. -/
theorem fillsLines : FillsLines := by
  intro s core uid line x r hx hb hmiss
  have hexec : exec (.imemLineFill core uid) s = .next ({ s with stamp := s.stamp + 1 }.setCore core
      ((s.core core).frameFor x.bent line false s.stamp (s.lineKey x.bent))) := by
    change execImemLineFill core uid s = _
    simp only [execImemLineFill, hx, hmiss]
  have hkey : s.lineKey x.bent = s.keyOf r.key := by simp only [State.lineKey, hb]
  refine ⟨_, hexec, RegistersKept.setCore { s with stamp := s.stamp + 1 } rfl, rfl, ?_, ?_, fun f hf hl hne hn => ?_⟩
  all_goals rw [State.core_setCore_same]
  · rfl
  · exact ⟨_, mem_frameFor _ _ _ _ _ _, rfl, rfl, hkey⟩
  · exact locked_mem_frameFor hf hl hne hn _ _ _

/-- Settles O43: the four events of a context, each run through its checks to the core that it leaves. -/
theorem contextsLiveAndEnd : Obligations.ContextsLiveAndEnd := ⟨launchesContexts, haltsContexts, stallsContexts, fillsLines⟩

end Sys2Proof.Machine
end

section
/-! SUPPORT for O34, O48 and O49. What the write of a record leaves in memory. -/

namespace Sys2Proof.Machine
open Sys2Proof Sys2Proof.Claims

/-- Every byte of memory reads as before. -/
def SameBytes (s t : State) : Prop := ∀ slot pa, t.byteAt slot pa = s.byteAt slot pa

theorem SameBytes.refl (s : State) : SameBytes s s := fun _ _ => rfl

theorem SameBytes.trans {s t u : State} (h : SameBytes s t) (h' : SameBytes t u) : SameBytes s u := fun slot pa =>
  (h' slot pa).trans (h slot pa)

theorem SameBytes.of_fields {s t : State} (h1 : t.mem = s.mem) (h2 : t.unitKey = s.unitKey) (h3 : t.keys = s.keys) (h4 : t.mgmt = s.mgmt) :
    SameBytes s t := State.byteAt_congr h1 h2 h3 h4

theorem Served.sameBytes {s t : State} (h : Served s t) : SameBytes s t := h.byteAt

theorem SameBytes.bytesAt {s t : State} (h : SameBytes s t) (slot : Option Nat) (pa n : Nat) : t.bytesAt slot pa n = s.bytesAt slot pa n :=
  State.bytesAt_congr slot pa n fun _ _ => h slot _

/-- Only the bytes of the states count. -/
theorem SameBytes.onlyWrites {s s' t t' : State} (hs : SameBytes s s') (ht : SameBytes t t') {l : Loc} {n : Nat} (h : OnlyWrites s' t l n) :
    OnlyWrites s t' l n := by
  obtain ⟨hout, hunit⟩ := h
  exact ⟨fun pa hpa => by rw [ht, hout pa hpa, hs], fun slot pa hpa => by rw [ht, hunit slot pa hpa, hs]⟩

theorem bytesAt_writeLoc (s : State) (l : Loc) (data : List Byte) : (s.writeLoc l data).bytesAt l.slot l.pa data.length = data := by
  refine Eq.trans ?_ (State.bytesAt_putBytes ((s.closeAccums l.pa data.length).dropLines l.pa data.length) l.slot l.pa data)
  exact State.bytesAt_congr _ _ _ fun i _ => State.writeLoc_byteAt _ _ _ _ _

/-- A field of a record that has been written. -/
theorem word_writeLoc (s : State) (l : Loc) {data : List Byte} {off n : Nat} (h : off + n ≤ data.length) :
    leNat ((s.writeLoc l data).bytesAt l.slot (l.pa + off) n) = fieldN data off n := by
  rw [bytesAt_add _ _ _ _ _ _ h, bytesAt_writeLoc, fieldN]

/-- Nothing but the record is written. -/
theorem onlyWrites_writeLoc {s : State} {l : Loc} {data : List Byte} (hacc : ∀ x ∈ s.accums, x.meets l.pa data.length = false) :
    OnlyWrites s (s.writeLoc l data) l data.length := by
  have hcl : s.closeAccums l.pa data.length = s := State.closeAccums_none _ _ _ hacc
  refine ⟨fun pa h => ?_, fun slot pa h => ?_⟩
  · rw [State.byteAt_writeLoc_outside _ _ _ _ h, hcl]
  · rw [State.byteAt_writeLoc_unit _ _ _ _ _ h, hcl]

/-- A field of a record that a patch of it leaves alone. -/
theorem fieldN_bytesAt (s : State) (slot : Option Nat) (pa : Nat) {off n len : Nat} (h : off + n ≤ len) :
    fieldN (s.bytesAt slot pa len) off n = leNat (s.bytesAt slot (pa + off) n) := by
  rw [bytesAt_add _ _ _ _ _ _ h, fieldN]

/-- A number patched into a record as bytes. -/
theorem fieldN_patch_leBytes {d : List Byte} {o n v : Nat} (h : o + n ≤ d.length) : fieldN (patch d o (leBytes n v)) o n = v % 256 ^ n := by
  have hp := fieldN_patch_same (d := d) (new := leBytes n v) (o := o) (by rwa [leBytes_length])
  rwa [leBytes_length, Machine.leNat_leBytes] at hp

end Sys2Proof.Machine
end

section
/-! SUPPORT for O34 and O49. Allocations that are given back (R161, R193, R200, R370). -/

namespace Sys2Proof.Machine
open Sys2Proof Sys2Proof.Claims

/-- `q` is `k` with some of its allocations, and with other regions and accumulator windows. -/
structure GivesBack (k q : Core) (left : List Alloc) : Prop where
  frame : ∃ regions acc accPoison accOwn,
    q = { k with allocs := left, regions := regions, acc := acc, accPoison := accPoison, accOwn := accOwn }

theorem GivesBack.refl (k : Core) : GivesBack k k k.allocs := ⟨_, _, _, _, rfl⟩

theorem GivesBack.trans {k q w : Core} {l m : List Alloc} (h : GivesBack k q l) (h' : GivesBack q w m) : GivesBack k w m := by
  obtain ⟨_, _, _, _, rfl⟩ := h.frame
  obtain ⟨_, _, _, _, rfl⟩ := h'.frame
  exact ⟨_, _, _, _, rfl⟩

theorem GivesBack.allocs {k q : Core} {l : List Alloc} (h : GivesBack k q l) : q.allocs = l := by
  obtain ⟨_, _, _, _, rfl⟩ := h.frame
  rfl

theorem GivesBack.file {k q : Core} {l : List Alloc} (h : GivesBack k q l) : q.file = k.file := by
  obtain ⟨_, _, _, _, rfl⟩ := h.frame
  rfl

theorem GivesBack.clearOwned (k : Core) (b : Nat) (ws : List Nat) : GivesBack k (k.clearOwned b ws) k.allocs := by
  induction ws generalizing k with
  | nil => exact GivesBack.refl k
  | cons w t ih =>
    unfold Core.clearOwned
    split
    · exact GivesBack.trans (l := k.allocs) ⟨_, _, _, _, rfl⟩ (ih (k.clearWindow w))
    · exact ih k

/-- One allocation is given back. -/
theorem GivesBack.freeAlloc (k : Core) (a : Alloc) : GivesBack k (k.freeAlloc a) (k.allocs.filter (fun e => !(decide (e = a)))) := by
  unfold Core.freeAlloc
  extract_lets q
  have hq : GivesBack k q (k.allocs.filter (fun e => !(decide (e = a)))) := ⟨_, _, _, _, rfl⟩
  split
  · exact hq
  · exact hq.trans ⟨_, _, _, _, rfl⟩
  · exact hq.trans (GivesBack.clearOwned q _ _)

theorem GivesBack.foldl (l : List Alloc) (k : Core) : GivesBack k (l.foldl Core.freeAlloc k) (k.allocs.filter (fun e => !(decide (e ∈ l)))) := by
  induction l generalizing k with
  | nil => simpa using GivesBack.refl k
  | cons a t ih =>
    have h := GivesBack.freeAlloc k a
    have h' := h.trans (ih (k.freeAlloc a))
    rw [h.allocs, List.filter_filter] at h'
    refine (List.filter_congr fun e _ => ?_ : k.allocs.filter _ = k.allocs.filter _) ▸ h'
    simp [Bool.and_comm]

/-- The allocations that a test selects are given back, and no other. -/
theorem GivesBack.freeAllocs (k : Core) (sel : Alloc → Bool) : GivesBack k (k.freeAllocs sel) (k.allocs.filter (fun e => !sel e)) := by
  have h := GivesBack.foldl (k.allocs.filter sel) k
  refine (List.filter_congr fun e he => ?_ : k.allocs.filter _ = k.allocs.filter _) ▸ h
  simp [List.mem_filter, he]

end Sys2Proof.Machine
end

section
/-! O34. EXIT (R30, R161). -/

namespace Sys2Proof.Machine
open Sys2Proof Sys2Proof.Claims

/-! ## The peg's work, once its record has been reached -/

/-- Whether a core holds a command or a context of a peg (R161). -/
def Core.worksFor (k : Core) (id : Nat) : Bool := k.journal.any (fun c => decide (c.peg = id)) || k.ctxs.any (fun c => decide (c.peg = id))

theorem hasWork_eq (s : State) (id : Nat) : s.hasWork id = s.cores.any (fun e => e.2.worksFor id) := rfl

theorem hasWork_heard (s : State) (id : Nat) : s.heard.hasWork id = s.hasWork id := by
  refine AMap.any_put (f := fun e : Nat × Core => e.2.worksFor id) ?_
  simp only [State.me, State.core, AMap.get]
  cases s.cores.find? s.cur <;> rfl

theorem hasWork_dropStale (s : State) (bay : Nat) (ts : List TlbEntry) (id : Nat) : (s.dropStale bay ts).hasWork id = s.hasWork id := by
  unfold State.dropStale
  extract_lets y u
  have hu : u.cores = s.cores := by
    unfold u
    split <;> rfl
  rw [hasWork_eq, hasWork_eq, List.any_map, hu]
  refine congrArg (fun f => s.cores.any f) (funext fun e => ?_)
  simp only [Function.comp_apply]
  split <;> rfl

theorem hasWork_install (s : State) (bay b : Nat) (va : Word) (id : Nat) : (s.install bay b va).hasWork id = s.hasWork id := by
  unfold State.install
  extract_lets root
  split
  · rfl
  · split
    · unfold State.enterTlb
      extract_lets old gone u y
      change u.hasWork id = _
      unfold u
      split
      · rfl
      · exact hasWork_dropStale s bay gone id
    · rfl

theorem hasWork_touched (s : State) (bay b : Nat) (va : Word) (l : Loc) (n : Nat) (need : Need) (id : Nat) :
    (s.touched bay b va l n need).hasWork id = s.hasWork id := by
  rw [← hasWork_install s bay b va id]
  unfold State.touched State.cacheLines State.sent
  dsimp only
  split
  · split
    · rfl
    · split <;> rfl
  · split
    · rfl
    · split <;> rfl

theorem hasWork_reached (s : State) (va : Word) (n : Nat) (need : Need) (l : Loc) (id : Nat) :
    (Claims.reached s va n need l).hasWork id = s.hasWork id :=
  (hasWork_touched _ _ _ va l n need id).trans (hasWork_heard s id)

/-! ## States that agree but for where pegs are placed -/

/-- A peg whose wait may have been met, and that may have another place. -/
def Peg.placed (met : Bool) (pool : Option Nat) (p : Peg) : Peg := { p with met := met, pool := pool }

/-- `t` is `s` but for memory, bents, caches, what watches memory, and the places of pegs. -/
structure Moved (s t : State) : Prop where
  cur : t.cur = s.cur
  core : ∀ c, SameRegs (s.core c) (t.core c)
  peg : ∀ id, ∃ met pool, t.pegs.find? id = (s.pegs.find? id).map (Peg.placed met pool)
  phaser : ∀ bay n, t.phaser bay n = s.phaser bay n

theorem Moved.refl (s : State) : Moved s s := by
  refine ⟨rfl, fun _ => SameRegs.refl _, fun id => ?_, fun _ _ => rfl⟩
  cases s.pegs.find? id with
  | none => exact ⟨true, none, rfl⟩
  | some p => exact ⟨p.met, p.pool, rfl⟩

theorem Moved.trans {s t u : State} (h : Moved s t) (h' : Moved t u) : Moved s u where
  cur := h'.cur.trans h.cur
  core c := (h.core c).trans (h'.core c)
  peg id := by
    obtain ⟨m, pool, hm⟩ := h.peg id
    obtain ⟨m', pool', hm'⟩ := h'.peg id
    exact ⟨m', pool', by rw [hm', hm, Option.map_map]; rfl⟩
  phaser bay n := (h'.phaser bay n).trans (h.phaser bay n)

theorem Stored.moved {s t : State} (h : Stored s t) (hph : ∀ bay n, t.phaser bay n = s.phaser bay n) : Moved s t := by
  refine ⟨h.cur, h.core, fun id => ?_, hph⟩
  obtain ⟨met, hm⟩ := h.peg id
  rw [hm]
  cases s.pegs.find? id with
  | none => exact ⟨true, none, rfl⟩
  | some p => exact ⟨met, p.pool, rfl⟩

/-- Invalidating copies leaves the phasers. -/
theorem phaser_dropLines (s : State) (pa n bay i : Nat) : (s.dropLines pa n).phaser bay i = s.phaser bay i := by
  unfold State.dropLines
  split
  · unfold State.phaser State.bay AMap.get
    dsimp only
    rw [AMap.find?_map (g := fun e : Nat × Bay => (e.1, { e.2 with l2 := (linesOf pa n).foldl dropLine e.2.l2 })) fun _ => rfl]
    cases s.bays.find? bay <;> rfl
  · rfl

theorem phaser_writeLoc (s : State) (l : Loc) (data : List Byte) (bay i : Nat) : (s.writeLoc l data).phaser bay i = s.phaser bay i := by
  obtain ⟨m, k, hp⟩ := State.putBytes_eq ((s.closeAccums l.pa data.length).dropLines l.pa data.length) l.slot l.pa data
  obtain ⟨m', k', hc⟩ := State.closeAccums_eq s l.pa data.length
  have h1 : (s.writeLoc l data).bays = ((s.closeAccums l.pa data.length).dropLines l.pa data.length).bays := by
    unfold State.writeLoc State.wake
    dsimp only
    rw [hp]
  have h2 := phaser_dropLines (s.closeAccums l.pa data.length) l.pa data.length bay i
  have h3 : (s.closeAccums l.pa data.length).bays = s.bays := by rw [hc]
  unfold State.phaser State.bay at h2 ⊢
  rw [h1, h2, h3]

theorem Moved.writeLoc (s : State) (l : Loc) (data : List Byte) : Moved s (s.writeLoc l data) :=
  (Stored.writeLoc s l data).moved (phaser_writeLoc s l data)

/-- A change of bents and of a peg's place alone. -/
theorem Moved.modBent (s : State) (b : Nat) (f : Bent → Bent) : Moved s (s.modBent b f) :=
  ⟨rfl, fun _ => SameRegs.refl _, (Moved.refl s).peg, fun _ _ => rfl⟩

theorem Moved.setPool (s : State) (i : Nat) (pool : Option Nat) : Moved s (s.modPeg i (fun p => { p with pool := pool })) := by
  refine ⟨rfl, fun _ => SameRegs.refl _, fun id => ?_, fun _ _ => rfl⟩
  change ∃ met pl, (s.pegs.modify i _).find? id = _
  rw [AMap.find?_modify]
  split
  · next hid =>
    subst hid
    cases s.pegs.find? id with
    | none => exact ⟨true, none, rfl⟩
    | some p => exact ⟨p.met, pool, rfl⟩
  · exact (Moved.refl s).peg id

/-! ## A queue that a peg leaves, and the pegs that follow it -/

theorem Moved.ovqPut (s : State) (b : Nat) (r : Bent) (n : BitVec 32) (addr : Word) : Moved s (s.ovqPut b r n addr) := by
  unfold State.ovqPut
  split
  · exact Moved.writeLoc s _ _
  · exact Moved.refl s

theorem Moved.ovqFill (s : State) (b : Nat) (r : Bent) (n : BitVec 32) (ids : List Nat) : Moved s (s.ovqFill b r n ids) := by
  induction ids generalizing s n with
  | nil => exact Moved.refl s
  | cons i t ih =>
    refine Moved.trans ?_ (ih _ (n + 1))
    split
    · exact Moved.ovqPut s b r n _
    · exact Moved.refl s

theorem Moved.leaveQueue (s : State) (b id : Nat) : Moved s (s.leaveQueue b id) := by
  unfold State.leaveQueue
  split
  · exact Moved.refl s
  · split
    · exact Moved.refl s
    · exact (Moved.ovqFill s b _ _ _).trans (Moved.modBent _ b _)

theorem Moved.of_moveOne {s t : State} {bay : Nat} (h : s.moveOne bay = some t) : Moved s t := by
  unfold State.moveOne at h
  split at h
  · cases h
  · obtain ⟨i, -, rfl⟩ := Option.map_eq_some_iff.mp h
    exact (Moved.setPool s i (some bay)).trans (Moved.leaveQueue _ _ i)

theorem Moved.moveIn (n bay : Nat) (s : State) : Moved s (moveIn n bay s) := by
  induction n generalizing s with
  | zero => exact Moved.refl s
  | succ n ih =>
    unfold Machine.moveIn
    split
    · next t ht => exact (Moved.of_moveOne ht).trans (ih t)
    · exact Moved.refl s

/-! ## Empty overflow queues -/

/-- No overflow queue holds a peg. -/
def QueuesEmpty (s : State) : Prop := ∀ b r, s.bents.find? b = some r → r.overflow = []

theorem leaveQueue_of_empty {s : State} (h : QueuesEmpty s) (b id : Nat) : s.leaveQueue b id = s := by
  unfold State.leaveQueue
  cases hr : s.bents.find? b with
  | none => rfl
  | some r => simp [h b r hr]

theorem overflowHead_of_empty {s : State} (h : QueuesEmpty s) (bay b : Nat) : s.overflowHead bay b = none := by
  unfold State.overflowHead
  cases hr : s.bents.find? b with
  | none => rfl
  | some r => simp [h b r hr, best]

theorem moveIn_of_empty {s : State} (h : QueuesEmpty s) (n bay : Nat) : moveIn n bay s = s := by
  have hone : s.moveOne bay = none := by
    simp [State.moveOne, overflowHead_of_empty h, best]
  cases n with
  | zero => rfl
  | succ n => rw [moveIn, hone]

/-- A change of bents that leaves their queues. -/
theorem QueuesEmpty.of_map {s t : State} (h : QueuesEmpty s) {f : Nat → Bent → Bent} (hf : ∀ b r, (f b r).overflow = r.overflow)
    (ht : ∀ b, t.bents.find? b = (s.bents.find? b).map (f b)) : QueuesEmpty t := fun b r hr => by
  rw [ht b] at hr
  obtain ⟨q, hq, rfl⟩ := Option.map_eq_some_iff.mp hr
  rw [hf, h b q hq]

theorem QueuesEmpty.markSlots {s : State} (h : QueuesEmpty s) (b : Nat) (addr : Word) (used : Bool) : QueuesEmpty (s.markSlots b addr used) := by
  intro c r hr
  unfold State.markSlots at hr
  dsimp only at hr
  rw [AMap.find?_map fun e => by split <;> [(split <;> rfl); rfl]] at hr
  obtain ⟨q, hq, rfl⟩ := Option.map_eq_some_iff.mp hr
  split
  · split
    · exact h c q hq
    · exact h c q hq
  · exact h c q hq

theorem QueuesEmpty.modBent {s : State} (h : QueuesEmpty s) (b : Nat) {f : Bent → Bent} (hf : ∀ r, (f r).overflow = r.overflow) :
    QueuesEmpty (s.modBent b f) := by
  intro c r hr
  change (s.bents.modify b f).find? c = _ at hr
  rw [AMap.find?_modify] at hr
  split at hr
  · next hc =>
    obtain ⟨q, hq, rfl⟩ := Option.map_eq_some_iff.mp hr
    rw [hf]
    exact h b q (hc ▸ hq)
  · exact h c r hr

/-! ## The peg leaves the machine -/

/-- The machine without a peg, before freed entries take pegs in (R161). -/
def State.withoutEntry (s : State) (id : Nat) (p : Peg) : State :=
  let u := ((s.dropEverywhere (.peg id)).markSlots p.bent p.recAddr false).leaveQueue p.bent id
  { u with pegs := u.pegs.erase id }

theorem removePeg_eq {s : State} {id : Nat} {p : Peg} (h : s.pegs.find? id = some p) : ∃ f : Bent → Bent, (∀ r, (f r).overflow = r.overflow) ∧
    (s.removePeg id = (s.withoutEntry id p).modBent p.bent f ∨
      ∃ n bay, s.removePeg id = moveIn n bay ((s.withoutEntry id p).modBent p.bent f)) := by
  unfold State.removePeg
  rw [h]
  dsimp only
  refine ⟨fun r => { r with
      usedFrames := match p.frameNo with
        | some n => r.usedFrames.erase n
        | none => r.usedFrames
      usedCoreFrames := match p.coreFrameNo with
        | some n => r.usedCoreFrames.erase n
        | none => r.usedCoreFrames }, fun _ => rfl, ?_⟩
  cases p.pool with
  | none => exact Or.inl rfl
  | some bay => exact Or.inr ⟨_, bay, rfl⟩

/-- What remains once a peg has left: all but the bents, the places of pegs and memory. -/
theorem moved_removePeg {s : State} {id : Nat} {p : Peg} (h : s.pegs.find? id = some p) :
    ∃ u, Moved (s.dropEverywhere (.peg id)) u ∧ Moved { u with pegs := u.pegs.erase id } (s.removePeg id) := by
  let m := (s.dropEverywhere (.peg id)).markSlots p.bent p.recAddr false
  have hm : Moved (s.dropEverywhere (.peg id)) m := ⟨rfl, fun _ => SameRegs.refl _, (Moved.refl _).peg, fun _ _ => rfl⟩
  refine ⟨m.leaveQueue p.bent id, hm.trans (Moved.leaveQueue m _ _), ?_⟩
  obtain ⟨f, -, e | ⟨n, bay, e⟩⟩ := removePeg_eq h
  · rw [e]
    exact Moved.modBent _ _ f
  · rw [e]
    exact (Moved.modBent _ _ f).trans (Moved.moveIn n bay _)

/-- With empty queues a peg leaves without a write. -/
theorem sameBytes_removePeg {s : State} {id : Nat} {p : Peg} (h : s.pegs.find? id = some p) (hq : QueuesEmpty s) : SameBytes s (s.removePeg id) := by
  have hm : QueuesEmpty ((s.dropEverywhere (.peg id)).markSlots p.bent p.recAddr false) :=
    QueuesEmpty.markSlots (s := s.dropEverywhere (.peg id)) hq _ _ _
  obtain ⟨f, hf, e⟩ := removePeg_eq h
  have hu : QueuesEmpty (s.withoutEntry id p) := by
    unfold State.withoutEntry
    rw [leaveQueue_of_empty hm]
    exact hm
  have hmem : SameBytes s ((s.withoutEntry id p).modBent p.bent f) := by
    unfold State.withoutEntry
    rw [leaveQueue_of_empty hm]
    exact SameBytes.of_fields rfl rfl rfl rfl
  obtain e | ⟨n, bay, e⟩ := e
  · rwa [e]
  · rwa [e, moveIn_of_empty (hu.modBent _ hf)]

end Sys2Proof.Machine
end

section
/-! O34. EXIT: its checks and its end (R30, R161). -/

namespace Sys2Proof.Machine
open Sys2Proof Sys2Proof.Claims

/-! ## The machine that EXIT leaves -/

/-- The machine after EXIT's write of its record, its allocations on every core given back (R30, R161). -/
def State.exitWritten (s : State) (id : Nat) (l : Loc) : State := (s.freePegAllocs id).writeExit l

/-- The machine that EXIT leaves (R161). -/
def exited (s : State) (id : Nat) (p : Peg) (l : Loc) : State := (((s.exitWritten id l).lowerJoin p.parent).vacate).removePeg id

theorem core_freePegAllocs (s : State) (id c : Nat) :
    (s.freePegAllocs id).core c = (s.core c).freeAllocs (fun a => decide (a.peg = id)) := by
  simp only [State.freePegAllocs, State.core, AMap.get]
  rw [AMap.find?_map (g := fun e : Nat × Core => (e.1, e.2.freeAllocs (fun a => decide (a.peg = id)))) fun _ => rfl]
  cases s.cores.find? c <;> rfl

theorem allocs_freePegAllocs (s : State) (id c : Nat) : ∀ a ∈ ((s.freePegAllocs id).core c).allocs, a.peg ≠ id := by
  intro a ha
  rw [core_freePegAllocs, (GivesBack.freeAllocs _ _).allocs] at ha
  simpa using (List.mem_filter.mp ha).2

theorem registersKept_freePegAllocs (s : State) (id : Nat) : RegistersKept s (s.freePegAllocs id) :=
  registersKept_iff.mpr fun c => by rw [core_freePegAllocs, (GivesBack.freeAllocs _ _).file]

section
variable {s : State} {l : Loc}

/-- The write of EXIT clears ST and PIN (R30), with nothing gathered at the record. -/
theorem writeExit_eq (h : ∀ a ∈ s.accums, a.meets l.pa 64 = false) : s.writeExit l = s.writeLoc l (patch (s.bytesAt l.slot l.pa 64) 12
    (leBytes 4 (fieldN (s.bytesAt l.slot l.pa 64) 12 4 - fieldN (s.bytesAt l.slot l.pa 64) 12 4 % 32))) := by
  unfold State.writeExit
  rw [State.readLoc_none s l 64 h]

variable (h : ∀ a ∈ s.accums, a.meets l.pa 64 = false)
include h

theorem state_writeExit : leNat ((s.writeExit l).bytesAt l.slot (l.pa + 12) 4) = leNat (s.bytesAt l.slot (l.pa + 12) 4) / 32 * 32 := by
  have hlt := fieldN_lt (s.bytesAt l.slot l.pa 64) 12 4
  have hf := fieldN_bytesAt s l.slot l.pa (off := 12) (n := 4) (len := 64) (by decide)
  rw [writeExit_eq h, word_writeLoc _ _ (by simp [patch_length]), fieldN_patch_leBytes (by simp), ← hf]
  omega

theorem onlyWrites_writeExit : OnlyWrites s (s.writeExit l) l 64 := by
  have hlen (d : List Byte) (hd : d.length = 64) (v : Nat) : (patch d 12 (leBytes 4 v)).length = 64 := (patch_length (by simp [hd])).trans hd
  rw [writeExit_eq h]
  have hw := hlen (s.bytesAt l.slot l.pa 64) (by simp) (fieldN (s.bytesAt l.slot l.pa 64) 12 4 - fieldN (s.bytesAt l.slot l.pa 64) 12 4 % 32)
  exact hw ▸ onlyWrites_writeLoc (by rwa [hw])

end

theorem stored_exitWritten (s : State) (id : Nat) (l : Loc) : Stored (s.freePegAllocs id) (s.exitWritten id l) :=
  (Stored.closeAccums _ _ _).trans (Stored.writeLoc _ l _)

/-- A parent that is not the peg itself has one child less; every other peg keeps its count. -/
theorem joins_lowerJoin {s : State} {par : Option Nat} {q : Nat} {pp : Peg} (hpar : par = some q) (h : s.pegs.find? q = some pp) :
    (s.lowerJoin par).pegs.find? q = some { pp with joins := pp.joins - 1 } := by
  subst hpar
  change (s.pegs.modify q _).find? q = _
  rw [AMap.find?_modify_same, h]
  rfl

theorem find?_lowerJoin {s : State} {par : Option Nat} {id : Nat} {p : Peg} (h : s.pegs.find? id = some p) :
    ∃ p', (s.lowerJoin par).pegs.find? id = some p' := by
  cases par with
  | none => exact ⟨p, h⟩
  | some q =>
    change ∃ p', (s.pegs.modify q _).find? id = some p'
    rw [AMap.find?_modify, h]
    split
    · next e => exact ⟨_, by rw [← e, h]; rfl⟩
    · exact ⟨p, rfl⟩

theorem lowerJoin_eq (s : State) (par : Option Nat) : ∃ pegs, s.lowerJoin par = { s with pegs := pegs } := by
  cases par with
  | none => exact ⟨_, rfl⟩
  | some q => exact ⟨_, rfl⟩

/-! ## The core that the peg leaves -/

theorem cur_vacate (s : State) : s.vacate.cur = s.cur := by
  unfold State.vacate
  dsimp only
  split <;> rfl

theorem bents_vacate (s : State) : s.vacate.bents = s.bents := by
  unfold State.vacate
  dsimp only
  split <;> rfl

theorem sameBytes_vacate (s : State) : SameBytes s s.vacate := by
  unfold State.vacate
  dsimp only
  split
  · exact SameBytes.of_fields rfl rfl rfl rfl
  · exact SameBytes.of_fields rfl rfl rfl rfl

/-- The core that its peg leaves. -/
def Core.vacated (k : Core) : Core :=
  { k with peg := none, spin := none, asked := none, fetchAsked := none, preempt := none, preemptFor := none, halted := false }

theorem me_vacate (s : State) : s.vacate.me = s.me.vacated := by
  unfold State.vacate
  extract_lets k u
  rw [State.me_setMe]
  rfl

theorem core_vacate_other (s : State) {c : Nat} (h : c ≠ s.cur) : s.vacate.core c = s.core c := by
  unfold State.vacate
  extract_lets k u
  have hu : u.cur = s.cur ∧ u.cores = s.cores := by
    unfold u
    split
    · exact ⟨rfl, rfl⟩
    · exact ⟨rfl, rfl⟩
  rw [State.core_setMe_other _ _ _ (hu.1 ▸ h), State.core, hu.2, State.core]

/-- A core keeps its registers and its allocations as its peg leaves. -/
theorem core_vacate (s : State) (c : Nat) : (s.vacate.core c).file = (s.core c).file ∧ (s.vacate.core c).allocs = (s.core c).allocs := by
  by_cases hc : c = s.cur
  · have h := me_vacate s
    rw [State.me, cur_vacate] at h
    rw [hc, h]
    exact ⟨rfl, rfl⟩
  · rw [core_vacate_other s hc]
    exact ⟨rfl, rfl⟩

theorem pegs_vacate {s : State} {id : Nat} (hid : s.me.peg = some id) : s.vacate.pegs = s.pegs.modify id (fun p => { p with
    cause := s.me.regs.trapCause, info := s.me.regs.trapInfo, addr := s.me.regs.trapAddr, hactTime := s.handlerTime s.me }) := by
  unfold State.vacate
  simp only [hid]
  rfl

/-! ## EXIT -/

section
variable {s : State} {id : Nat} {p : Peg} {l : Loc} (hid : s.pegId = some id) (hp : s.peg? = some p) (h : Reaches s p.recAddr 64 0 .both true l)
include hid hp h

theorem exec_exit_children (hj : p.joins ≠ 0) (hc : CanTrap s) :
    exec .exit s = .next (inHandler (Claims.reached s p.recAddr 64 .both l) 0x14 0 0) := by
  have hr := Served.reached s p.recAddr 64 .both l
  change execExit s = _
  simp only [execExit, State.withRecord, hp]
  rw [withLoc_of_reaches h]
  simp only [hr.pegId, hr.peg?, hid, hp]
  rw [if_pos hj, trap_eq_inHandler (hr.canTrap hc) (by decide)]

variable (hj : p.joins = 0)
include hj

theorem exec_exit_waits (hw : s.hasWork id = true) : exec .exit s = .next (Claims.reached s p.recAddr 64 .both l) := by
  have hr := Served.reached s p.recAddr 64 .both l
  change execExit s = _
  simp only [execExit, State.withRecord, hp]
  rw [withLoc_of_reaches h]
  simp only [hr.pegId, hr.peg?, hid, hp]
  rw [if_neg (not_not.mpr hj), hasWork_reached, hw]
  rfl

theorem exec_exit_ends (hw : s.hasWork id = false) (hrel : ¬ Waits s 3 allClasses) :
    exec .exit s = .next (exited (Claims.reached s p.recAddr 64 .both l) id p l) := by
  have hr := Served.reached s p.recAddr 64 .both l
  change execExit s = _
  simp only [execExit, State.withRecord, hp]
  rw [withLoc_of_reaches h]
  simp only [hr.pegId, hr.peg?, hid, hp]
  rw [if_neg (not_not.mpr hj), hasWork_reached, hw, hr.release hrel]
  rfl

end

/-! ## What EXIT leaves -/

theorem peg_exitWritten {s : State} {id : Nat} (l : Loc) (h : s.me.peg = some id) : (s.exitWritten id l).me.peg = some id := by
  have hw := stored_exitWritten s id l
  obtain ⟨_, _, _, hk⟩ := hw.core s.cur
  obtain ⟨_, _, _, _, hf⟩ := (GivesBack.freeAllocs (s.core s.cur) (fun a => decide (a.peg = id))).frame
  have hcur : (s.exitWritten id l).cur = s.cur := hw.cur
  rw [State.me, hcur, hk, core_freePegAllocs, hf]
  exact h

/-- The pegs once the core is free of the one that exits. -/
theorem pegs_vacate_exitWritten {s : State} {id : Nat} (p : Peg) (l : Loc) (h : s.me.peg = some id) : ∃ f : Peg → Peg,
    ((s.exitWritten id l).lowerJoin p.parent).vacate.pegs = ((s.exitWritten id l).lowerJoin p.parent).pegs.modify id f := by
  have hme : ((s.exitWritten id l).lowerJoin p.parent).me.peg = some id := by
    obtain ⟨pegs, e⟩ := lowerJoin_eq (s.exitWritten id l) p.parent
    have hw := peg_exitWritten l h
    generalize s.exitWritten id l = w at e hw
    rw [e]
    exact hw
  exact ⟨_, pegs_vacate hme⟩

section
variable {s : State} {id : Nat} {p : Peg} (l : Loc) (hid : s.me.peg = some id) (hp : s.pegs.find? id = some p)
include hid hp

/-- The peg just before it leaves the machine. -/
theorem find?_vacate_exitWritten : ∃ p', ((s.exitWritten id l).lowerJoin p.parent).vacate.pegs.find? id = some p' := by
  obtain ⟨met, h1⟩ := (stored_exitWritten s id l).find?_peg hp
  obtain ⟨p2, h2⟩ := find?_lowerJoin (par := p.parent) h1
  obtain ⟨f, e⟩ := pegs_vacate_exitWritten p l hid
  exact ⟨f p2, by rw [e, AMap.find?_modify_same, h2]; rfl⟩

/-- The cores and phasers that the exit leaves. -/
theorem exited_cores : RegistersKept s (exited s id p l) ∧ (exited s id p l).me.peg = none ∧
    (∀ c, ∀ a ∈ ((exited s id p l).core c).allocs, a.peg ≠ id) ∧ (∀ bay n, ((exited s id p l).phaser bay n).member (.peg id) = none) := by
  obtain ⟨p', hp'⟩ := find?_vacate_exitWritten l hid hp
  obtain ⟨u, hu, ht⟩ := moved_removePeg hp'
  change Moved _ (exited s id p l) at ht
  have hw := stored_exitWritten s id l
  obtain ⟨pegs, hlow⟩ := lowerJoin_eq (s.exitWritten id l) p.parent
  rw [hlow] at hu
  -- from here on only what the lemmas say of the machine that is written, vacated and left
  generalize exited s id p l = t at ht ⊢
  generalize s.exitWritten id l = w at hu hw
  have hvac (c : Nat) := core_vacate { w with pegs := pegs } c
  have hvme := me_vacate { w with pegs := pegs }
  generalize State.vacate { w with pegs := pegs } = v at hu hvac hvme
  have hcore (c : Nat) : SameRegs (v.core c) (t.core c) := (hu.core c).trans (ht.core c)
  have hcur : t.cur = v.cur := ht.cur.trans hu.cur
  refine ⟨registersKept_iff.mpr fun c => ?_, ?_, fun c a ha => ?_, fun bay n => ?_⟩
  · obtain ⟨_, _, _, e⟩ := hcore c
    rw [e]
    refine (hvac c).1.trans ?_
    exact registersKept_iff.mp (RegistersKept.trans (registersKept_freePegAllocs s id) hw.registersKept) c
  · obtain ⟨_, _, _, e⟩ := hcore v.cur
    rw [State.me, hcur, e]
    exact (congrArg Core.peg hvme : v.me.peg = none)
  · obtain ⟨_, _, _, e⟩ := hcore c
    obtain ⟨_, _, _, e'⟩ := hw.core c
    rw [e] at ha
    have hal : (v.core c).allocs = (w.core c).allocs := (hvac c).2
    rw [e'] at hal
    exact allocs_freePegAllocs s id c a (hal ▸ ha)
  · rw [ht.phaser]
    refine Eq.trans ?_ (State.member_dropEverywhere v (.peg id) bay n)
    exact congrArg (fun ph => ph.member (.peg id)) (hu.phaser bay n)

/-- The peg is gone, and its parent has one live child less (R161). -/
theorem exited_pegs : (exited s id p l).pegs.find? id = none ∧ ∀ q pp, p.parent = some q → q ≠ id → s.pegs.find? q = some pp →
    ∃ qq, (exited s id p l).pegs.find? q = some qq ∧ qq.joins = pp.joins - 1 := by
  obtain ⟨p', hp'⟩ := find?_vacate_exitWritten l hid hp
  obtain ⟨u, hu, ht⟩ := moved_removePeg hp'
  change Moved _ (exited s id p l) at ht
  refine ⟨?_, fun q pp hq hne hpp => ?_⟩
  · obtain ⟨_, _, e⟩ := ht.peg id
    rw [e, AMap.find?_erase_same]
    rfl
  · obtain ⟨met, h1⟩ := (stored_exitWritten s id l).find?_peg hpp
    have h2 := joins_lowerJoin hq h1
    obtain ⟨f, e⟩ := pegs_vacate_exitWritten p l hid
    obtain ⟨_, _, e1⟩ := hu.peg q
    obtain ⟨_, _, e2⟩ := ht.peg q
    have hv := (congrArg (fun m => AMap.find? m q) e).trans ((AMap.find?_modify_other _ _ _ _ hne).trans h2)
    have hu' := e1.trans (congrArg (Option.map _) hv)
    exact ⟨_, e2.trans (congrArg (Option.map _) ((AMap.find?_erase_other _ _ _ hne).trans hu')), rfl⟩

variable (hacc : ∀ a ∈ s.accums, a.meets l.pa 64 = false) (hq : QueuesEmpty s)
include hacc hq

/-- The record has ST and PIN 0, and nothing else in memory changes, where no freed place takes a peg in (R30). -/
theorem exited_record : leNat ((exited s id p l).bytesAt l.slot (l.pa + 0x0C) 4) = leNat (s.bytesAt l.slot (l.pa + 0x0C) 4) / 32 * 32 ∧
    OnlyWrites s (exited s id p l) l 64 := by
  obtain ⟨p', hp'⟩ := find?_vacate_exitWritten l hid hp
  obtain ⟨pegs, hlow⟩ := lowerJoin_eq (s.exitWritten id l) p.parent
  have hb : ((s.exitWritten id l).lowerJoin p.parent).vacate.bents = s.bents := by
    have hw : (s.exitWritten id l).bents = s.bents := (stored_exitWritten s id l).bents
    rw [bents_vacate, hlow]
    generalize s.exitWritten id l = w at hw
    exact hw
  have hlast : SameBytes (s.exitWritten id l) (exited s id p l) := by
    refine SameBytes.trans ?_ (sameBytes_removePeg hp' fun b r hr => hq b r (hb ▸ hr))
    refine SameBytes.trans ?_ (sameBytes_vacate _)
    rw [hlow]
    generalize s.exitWritten id l = w
    exact SameBytes.of_fields rfl rfl rfl rfl
  have hfirst : SameBytes s (s.freePegAllocs id) := SameBytes.of_fields rfl rfl rfl rfl
  have hacc' : ∀ a ∈ (s.freePegAllocs id).accums, a.meets l.pa 64 = false := hacc
  refine ⟨?_, hfirst.onlyWrites hlast (onlyWrites_writeExit hacc')⟩
  exact (congrArg leNat (hlast.bytesAt _ _ _)).trans (state_writeExit hacc')

end

/-- Settles O34: EXIT is run through its checks; what it leaves is followed from the write of the record to the peg's last trace. -/
theorem exitEndsThePeg : Obligations.ExitEndsThePeg := by
  intro s id p l ⟨hid, hp, h, hrel⟩ u
  have hr : Served s u := Served.reached s p.recAddr 64 .both l
  refine ⟨exec_exit_children hid hp h, exec_exit_waits hid hp h, fun hj hw => ⟨_, exec_exit_ends hid hp h hj hw hrel, ?_⟩⟩
  have hid' : u.me.peg = some id := hr.pegId.trans hid
  have hp' : u.pegs.find? id = some p := hr.pegs ▸ find?_of_peg? hid hp
  have hacc : ∀ a ∈ u.accums, a.meets l.pa 64 = false := hr.accums ▸ h.2.2.2
  obtain ⟨hregs, hfree, hallocs, hphasers⟩ := exited_cores l hid' hp'
  obtain ⟨hgone, hparent⟩ := exited_pegs l hid' hp'
  refine ⟨hgone, hfree, fun hq => ?_, RegistersKept.trans hr.stored.registersKept hregs, hallocs, hphasers, fun q pp hq hne hpp => ?_⟩
  · obtain ⟨hst, honly⟩ := exited_record l hid' hp' hacc fun b r hb => hq b r (hr.bents ▸ hb)
    exact ⟨hst.trans (by rw [hr.sameBytes.bytesAt]), hr.sameBytes.onlyWrites (SameBytes.refl _) honly⟩
  · exact hparent q pp hq hne (hr.pegs ▸ hpp)

end Sys2Proof.Machine
end

section
/-! O48. The order of the choice, and ageing (R340, R341). -/

namespace Sys2Proof.Machine
open Sys2Proof Sys2Proof.Claims

/-! ## The order of the choice -/

/-- Only an empty list has no best element. -/
theorem best_eq_none {α : Type} {before : α → α → Bool} {l : List α} (h : best before l = none) : l = [] := by
  cases l with
  | nil => rfl
  | cons a t =>
    unfold best at h
    split at h <;> cases h

/-- The best element under a total preorder is one of the list, and no other is before it. -/
theorem best_spec {α : Type} {before : α → α → Bool} (htotal : ∀ a b, before a b = false ∨ before b a = false)
    (htrans : ∀ a b c, before b a = false → before c b = false → before c a = false) {l : List α} {e : α} (h : best before l = some e) :
    e ∈ l ∧ ∀ d ∈ l, before d e = false := by
  have hirr (a : α) : before a a = false := (htotal a a).elim id id
  induction l generalizing e with
  | nil => cases h
  | cons a t ih =>
    unfold best at h
    cases hb : best before t with
    | none =>
      rw [hb] at h
      obtain rfl : a = e := Option.some.inj h
      obtain rfl := best_eq_none hb
      exact ⟨List.mem_cons_self, fun d hd => by rw [List.mem_singleton.mp hd]; exact hirr a⟩
    | some b =>
      rw [hb] at h
      obtain ⟨hmem, hmin⟩ := ih hb
      cases hba : before b a with
      | true =>
        simp only [hba, if_true, Option.some.injEq] at h
        subst h
        refine ⟨List.mem_cons_of_mem _ hmem, fun d hd => ?_⟩
        rcases List.mem_cons.mp hd with rfl | hd
        · exact (htotal d b).resolve_right (by simp [hba])
        · exact hmin d hd
      | false =>
        simp only [hba, Bool.false_eq_true, if_false, Option.some.injEq] at h
        subst h
        refine ⟨List.mem_cons_self, fun d hd => ?_⟩
        rcases List.mem_cons.mp hd with rfl | hd
        · exact hirr d
        · exact htrans a b d hba (hmin d hd)

/-- R340: the order of pegs. -/
theorem ranksPegs : RanksPegs := by
  refine ⟨fun s a b => ⟨fun h => ?_, fun x y hne hx hy => ?_⟩, fun key l e h => ?_⟩
  · simp [State.pegBefore, h]
  · rw [State.pegBefore, if_neg hne, State.bentBefore, hx, hy]
    dsimp only
    by_cases hp : x.effPrio = y.effPrio
    · by_cases hd : x.lastDispatch = y.lastDispatch
      · simp [hp, hd]
      · simp [hp, hd]
    · simp [hp]
  · obtain ⟨hmem, hmin⟩ := best_spec (before := fun a b => decide (key a < key b)) (fun a b => by simp; omega) (fun a b c => by simp; omega) h
    exact ⟨hmem, fun d hd => by simpa using hmin d hd⟩

/-! ## Ageing -/

theorem minNat_eq_best (l : List Nat) : minNat l = best (fun a b => decide (a < b)) l := by
  induction l with
  | nil => rfl
  | cons a t ih =>
    rw [minNat, best, ih]
    cases best (fun a b => decide (a < b)) t with
    | none => rfl
    | some b =>
      by_cases hab : a ≤ b
      · simp [hab]
      · simp [hab, Nat.lt_of_not_le hab]

theorem minNat_eq {l : List Nat} {t : Nat} (ht : t ∈ l) (hmin : ∀ x ∈ l, t ≤ x) : minNat l = some t := by
  rw [minNat_eq_best]
  cases h : best (fun a b => decide (a < b)) l with
  | none => rw [best_eq_none h] at ht; cases ht
  | some m =>
    obtain ⟨hm, hle⟩ := best_spec (fun a b => by simp; omega) (fun a b c => by simp; omega) h
    exact congrArg some (Nat.le_antisymm (by simpa using hle t ht) (hmin m hm))

theorem ageOf_eq (s : State) (bay : Nat) : s.ageOf bay = 1000 * ((s.bay bay).age.toNat % 2 ^ 16) := by
  simp [State.ageOf]

theorem modBent_eq {s : State} {b : Nat} {r : Bent} (h : s.bents.find? b = some r) (f : Bent → Bent) :
    s.modBent b f = { s with bents := s.bents.put b (f r) } := by
  rw [State.modBent, AMap.modify, h]

/-- The ready pegs of a bent that wait in a bay's pool (R341). -/
def State.waitingIn (s : State) (bay bent : Nat) : List (Nat × Peg) :=
  s.pegs.filter (fun e => decide (e.2.bent = bent) && e.2.st = .ready && decide (e.2.pool = some bay) && !e.2.held)

/-- The event of R341 once its longest wait and its cap are known. -/
theorem exec_priorityAgeing {s : State} {bay bent : Nat} {r : Bent} {cap t : Nat} (hr : s.bents.find? bent = some r) (hd : r.drain = false)
    (hmin : minNat ((s.waitingIn bay bent).map (fun e => e.2.readySince)) = some t)
    (hcap : r.parent = none ∧ cap = 15 ∨ ∃ q b, r.parent = some q ∧ s.bents.find? q = some b ∧ cap = b.prio) :
    exec (.priorityAgeing bay bent) s = if s.ageOf bay = 0 ∨ s.elapsed < max r.agedAt t + s.ageOf bay then .next s else
      .next { s with bents := s.bents.put bent { r with
        effPrio := if r.effPrio < cap then r.effPrio + 1 else r.effPrio, agedAt := max r.agedAt t + s.ageOf bay } } := by
  unfold State.waitingIn at hmin
  change execPriorityAgeing bay bent s = _
  rcases hcap with ⟨hp, rfl⟩ | ⟨q, b, hp, hb, rfl⟩
  · simp only [execPriorityAgeing, hr, hmin, hd, hp, modBent_eq hr, Bool.false_or, Bool.or_eq_true, decide_eq_true_eq, State.stay_eq]
  · simp only [execPriorityAgeing, hr, hmin, hd, hp, hb, modBent_eq hr, Bool.false_or, Bool.or_eq_true, decide_eq_true_eq, State.stay_eq]

/-- R341: ageing. -/
theorem agesPriorities : AgesPriorities := by
  intro s bay bent r cap t hr hd age waits hcap ⟨e, he, hw, hsince⟩ hfirst
  have hage : s.ageOf bay = age := ageOf_eq s bay
  -- the longest wait
  have hmem (d : Nat × Peg) : d ∈ s.waitingIn bay bent ↔ d ∈ s.pegs ∧ waits d := by
    simp [State.waitingIn, waits, and_assoc]
  have hmin : minNat ((s.waitingIn bay bent).map (fun e => e.2.readySince)) = some t := by
    refine minNat_eq (List.mem_map.mpr ⟨e, (hmem e).mpr ⟨he, hw⟩, hsince⟩) fun x hx => ?_
    obtain ⟨d, hdm, rfl⟩ := List.mem_map.mp hx
    obtain ⟨hds, hdw⟩ := (hmem d).mp hdm
    exact hfirst d hds hdw
  rw [exec_priorityAgeing hr hd hmin hcap, hage]
  exact ⟨fun h0 hle => if_neg (by omega), fun h => if_pos h⟩

end Sys2Proof.Machine
end

section
/-! SUPPORT for O48 and O49. A peg as its record has it, and the start of one on a core (R28, R29, R338 to R341). -/

namespace Sys2Proof.Machine
open Sys2Proof Sys2Proof.Claims

/-- The record of a peg tells no more of it than PIN, CORE and PSAVE (R28). -/
theorem viewed_eq (s : State) (p : Peg) : ∃ pin core psave, s.viewed p = { p with pin := pin, core := core, psave := psave } := by
  unfold State.viewed
  split
  · exact ⟨_, _, _, rfl⟩
  · dsimp only
    split
    · exact ⟨_, _, _, rfl⟩
    · exact ⟨_, _, _, rfl⟩

theorem pending_viewed (s : State) (p : Peg) : (s.viewed p).pending = p.pending := by
  obtain ⟨_, _, _, e⟩ := viewed_eq s p
  rw [e]

theorem st_viewed (s : State) (p : Peg) : (s.viewed p).st = p.st := by
  obtain ⟨_, _, _, e⟩ := viewed_eq s p
  rw [e]

/-- A record whose STATE word says that its peg runs, saved no more (R29, R339). -/
def runningRecord (rec : List Byte) (pin : Bool) : List Byte :=
  patch rec 12 (leBytes 4 (fieldN rec 12 4 - fieldN rec 12 4 % 64 + (if pin then 2 ^ 4 else 0) + 2))

theorem length_runningRecord {rec : List Byte} (h : rec.length = 64) (pin : Bool) : (runningRecord rec pin).length = 64 :=
  (patch_length (by simp [h])).trans h

theorem state_runningRecord {rec : List Byte} (h : rec.length = 64) (pin : Bool) :
    fieldN (runningRecord rec pin) 12 4 % 64 = 2 + if pin then 16 else 0 := by
  rw [runningRecord, fieldN_patch_leBytes (by simp [h])]
  cases pin
  · simp
    omega
  · simp
    omega

/-- A core on which a peg starts. -/
def Core.started (k : Core) (id elapsed timestamp hactTime : Nat) : Core :=
  { k with
    peg := some id, dispatched := elapsed, hactTime := hactTime, hactFrom := timestamp, spin := none, asked := none
    fetchAsked := none, preempt := none, preemptFor := none, halted := false }

/-- A peg that starts, with PIN and CORE as its record has them. -/
def Peg.started (q p : Peg) : Peg :=
  { q with
    st := .running, pin := p.pin, core := p.core, psave := false, frameNo := none, coreFrameNo := none, coreFrame := none, wait := none, met := false }

/-- The frames of a bent, without those of one of its pegs. -/
def Bent.withoutFrames (r : Bent) (p : Peg) : Bent :=
  { r with
    usedFrames := match p.frameNo with
      | some n => r.usedFrames.erase n
      | none => r.usedFrames
    usedCoreFrames := match p.coreFrameNo with
      | some n => r.usedCoreFrames.erase n
      | none => r.usedCoreFrames }

/-- A peg runs on a core, its record written: the core is bound to it, its frames are free, and its bent is charged (R29, R338). -/
def State.runs (w : State) (core id : Nat) (p : Peg) (k : Core) : State :=
  ((((w.setCore core (k.started id w.elapsed w.timestamp p.hactTime)).modPeg id (fun q => q.started p)).modBent p.bent
    (fun r => r.withoutFrames p)).countDispatch p.bent)

theorem startPeg_eq (s : State) (core id : Nat) (p : Peg) (l : Loc) (rec : List Byte) (k : Core) :
    s.startPeg core id p l rec k = (s.writeLoc l (runningRecord rec p.pin)).runs core id p k := rfl

section
variable (w : State) (core id : Nat) (p : Peg) (k : Core)

theorem core_runs : (w.runs core id p k).core core = k.started id w.elapsed w.timestamp p.hactTime := State.core_setCore_same w core _

theorem core_runs_other {c : Nat} (hc : c ≠ core) : (w.runs core id p k).core c = w.core c := State.core_setCore_other w core c _ hc

theorem sameBytes_runs : SameBytes w (w.runs core id p k) := SameBytes.of_fields rfl rfl rfl rfl

theorem find?_peg_runs {q : Peg} (h : w.pegs.find? id = some q) : (w.runs core id p k).pegs.find? id = some (q.started p) := by
  change (w.pegs.modify id _).find? id = _
  rw [AMap.find?_modify_same, h]
  rfl

/-- The bent of a peg that starts is charged (R338, R340, R341). -/
theorem find?_bent_runs {r : Bent} (h : w.bents.find? p.bent = some r) : ∃ b, (w.runs core id p k).bents.find? p.bent = some b ∧
    b.dispatches = r.dispatches + 1 ∧ b.effPrio = r.prio ∧ b.lastDispatch = w.stamp + 1 := by
  have hb : (w.runs core id p k).bents.find? p.bent = some { r.withoutFrames p with
      dispatches := r.dispatches + 1, lastDispatch := w.stamp + 1, effPrio := r.prio, agedAt := w.elapsed } := by
    change ((w.bents.modify p.bent _).modify p.bent _).find? p.bent = _
    rw [AMap.find?_modify_same, AMap.find?_modify_same, h]
    rfl
  exact ⟨_, hb, rfl, rfl, rfl⟩

end

/-- What `Dispatched` asks of a peg's start, from a state that firmware's accesses to memory led to. -/
theorem dispatched_startPeg {s v : State} (hv : Stored s v) {core id : Nat} {p0 p : Peg} {r : Bent} {l : Loc} {rec : List Byte} {k : Core}
    (hp0 : s.pegs.find? id = some p0) (hp : p.pending = p0.pending) (hr : s.bents.find? p.bent = some r) (hrec : rec.length = 64)
    (hk : k.sems = (s.core core).sems) : Dispatched s (v.startPeg core id p l rec k) core id p r l := by
  have hw := hv.trans (Stored.writeLoc v l (runningRecord rec p.pin))
  have hword : leNat ((v.writeLoc l (runningRecord rec p.pin)).bytesAt l.slot (l.pa + 0x0C) 4) % 64 = 2 + if p.pin then 16 else 0 := by
    have hl := length_runningRecord hrec p.pin
    rw [word_writeLoc _ _ (by omega), state_runningRecord hrec]
  rw [startPeg_eq]
  -- from here on only what the lemmas say of the state that holds the record matters
  generalize v.writeLoc l (runningRecord rec p.pin) = w at hw hword
  obtain ⟨met, hq⟩ := hw.find?_peg hp0
  obtain ⟨b, hb, hdisp, hprio, hlast⟩ := find?_bent_runs w core id p k (hw.bents ▸ hr)
  have hc := core_runs w core id p k
  refine ⟨_, b, ?_, ?_, ?_, ?_, ?_, fun c hne => ?_, find?_peg_runs w core id p k hq, rfl, rfl, rfl, rfl, rfl, rfl, rfl, hp.symm, ?_, hb,
    hdisp, hprio, hlast.trans (by rw [hw.stamp])⟩
  case refine_6 =>
    obtain ⟨_, _, _, e⟩ := hw.core c
    rw [core_runs_other w core id p k hne, e]
    exact ⟨rfl, rfl, rfl⟩
  case refine_7 => rwa [(sameBytes_runs w core id p k).bytesAt]
  all_goals rw [hc]
  · rfl
  · rfl
  · rfl
  · rfl
  · exact hk

/-- Nothing but the record is written as a peg starts. -/
theorem onlyWrites_startPeg {s v : State} (hb : SameBytes s v) {l : Loc} (hacc : ∀ a ∈ v.accums, a.meets l.pa 64 = false) (core id : Nat) (p : Peg)
    {rec : List Byte} (hrec : rec.length = 64) (k : Core) : OnlyWrites s (v.startPeg core id p l rec k) l 64 := by
  have hw : OnlyWrites v (v.writeLoc l (runningRecord rec p.pin)) l 64 := by
    have hl := length_runningRecord hrec p.pin
    have h := onlyWrites_writeLoc (s := v) (l := l) (data := runningRecord rec p.pin) (by rwa [hl])
    rwa [hl] at h
  rw [startPeg_eq]
  generalize v.writeLoc l (runningRecord rec p.pin) = w at hw
  exact hb.onlyWrites (sameBytes_runs w core id p k) hw

end Sys2Proof.Machine
end

section
/-! O48. PEG_DISPATCH of a peg that is not saved (R28, R108, R109, R338 to R341, R433). -/

namespace Sys2Proof.Machine
open Sys2Proof Sys2Proof.Claims

/-- A register of a core whose x registers are all 0. -/
theorem getX_replicate {k : Core} (h : k.x = Vector.replicate 32 0) (n : RegNo) : k.getX n = 0 := by
  unfold Core.getX
  rw [h]
  split
  · rfl
  · exact Vector.getElem_replicate _

/-- A fresh core holds its record's PC, FP and A0 to A3, its own trap registers, and every other register at its dispatch value (R28, R108, R109). -/
theorem regs_fresh (k : Core) (p : Peg) (t : PegRecord) (id e ts h : Nat) : let q := (k.fresh p t).started id e ts h
    q.pc = t.pc ∧ q.getX 3 = t.fp ∧ q.getX 10 = t.a0 ∧ q.getX 11 = t.a1 ∧ q.getX 12 = t.a2 ∧ q.getX 13 = t.a3 ∧
      (∀ n, n ≠ 3 → n < 10 ∨ 13 < n → q.getX n = 0) ∧ (∀ n, q.getF n = 0) ∧ (∀ n, q.getD n = 0) ∧
      q.regs = { PegRegs.reset with trapCause := p.cause, trapInfo := p.info, trapAddr := p.addr } ∧
      q.journal = k.journal ∧ q.allocs = k.allocs := by
  intro q
  have hx (n : RegNo) : q.getX n = if n = 13 then t.a3 else if n = 12 then t.a2 else if n = 11 then t.a1 else if n = 10 then t.a0 else
      if n = 3 then t.fp else 0 := by
    change (k.fresh p t).getX n = _
    simp only [Core.fresh, Core.getX_putX, getX_replicate]
    simp
  refine ⟨rfl, (hx 3).trans rfl, (hx 10).trans rfl, (hx 11).trans rfl, (hx 12).trans rfl, (hx 13).trans rfl, fun n h3 hn => ?_,
    fun n => ?_, fun n => ?_,
    rfl, rfl, rfl⟩
  · have hne {m : RegNo} (h : 10 ≤ m) (h' : m ≤ 13) : n ≠ m := by
      rintro rfl
      bv_omega
    rw [hx, if_neg (hne (by decide) (by decide)), if_neg (hne (by decide) (by decide)), if_neg (hne (by decide) (by decide)),
      if_neg (hne (by decide) (by decide)), if_neg h3]
  · exact Vector.getElem_replicate _
  · exact Vector.getElem_replicate _

theorem sems_fresh (k : Core) (p : Peg) (t : PegRecord) : (k.fresh p t).sems = k.sems := rfl

/-- A saved context's registrations go without a change of anything but bays. -/
theorem dropSaved_eq (s : State) (p : Peg) : ∃ bays, s.dropSaved p = { s with bays := bays } := by
  have hf (l : List Context) (s : State) :
      ∃ bays, l.foldl (fun (s : State) x => s.dropEverywhere (.context x.uid)) s = { s with bays := bays } := by
    induction l generalizing s with
    | nil => exact ⟨_, rfl⟩
    | cons x t ih =>
      obtain ⟨bays, e⟩ := ih (s.dropEverywhere (.context x.uid))
      exact ⟨bays, e⟩
  unfold State.dropSaved
  split
  · exact hf _ s
  · exact ⟨_, rfl⟩

section
variable {s : State} {core id : Nat} {p : Peg} (hidle : s.idle core = true) (hph : s.mgmt.phase = .service)
  (hbest : best s.pegBefore (s.readyPegs.filter (fun e => s.eligible e.1 e.2 core)) = some (id, p)) (hheld : s.recordHeld p = false)
include hidle hph hbest hheld

theorem exec_pegDispatch_unreachable {c : Nat} (h : s.recordLoc (s.bayOf core) p .both = .error c) :
    exec (.pegDispatch core) s = .next (s.killBent p.bent c 0) := by
  change execPegDispatch core s = _
  rw [execPegDispatch, if_neg (by simp [hidle, hph]), hbest]
  dsimp only
  rw [if_neg (by simp [hheld]), h]

variable {l : Loc} (hl : s.recordLoc (s.bayOf core) p .both = .ok l)
include hl

/-- The record is read first (R28, R433). -/
theorem exec_pegDispatch_record : exec (.pegDispatch core) s =
    (let r := s.readLoc l 64
     let t := PegRecord.parse r.2
     if t.refused || decide (4 ≤ t.st) then .next (r.1.killBent p.bent 0x09 0)
     else if p.psave then .next (r.1.resumePeg core id p l r.2)
     else .next ((r.1.dropSaved p).startPeg core id p l r.2 ((r.1.core core).fresh p t))) := by
  change execPegDispatch core s = _
  rw [execPegDispatch, if_neg (by simp [hidle, hph]), hbest]
  dsimp only
  rw [if_neg (by simp [hheld]), hl]

/-- A record that R8 or R339 refuses ends the bent. -/
theorem exec_pegDispatch_refused (h : (PegRecord.parse (s.readLoc l 64).2).refused = true ∨ 4 ≤ (PegRecord.parse (s.readLoc l 64).2).st) :
    exec (.pegDispatch core) s = .next ((s.readLoc l 64).1.killBent p.bent 0x09 0) := by
  rw [exec_pegDispatch_record hidle hph hbest hheld hl]
  exact if_pos (by simpa using h)

variable (href : (PegRecord.parse (s.readLoc l 64).2).refused = false) (hst : (PegRecord.parse (s.readLoc l 64).2).st < 4)
include href hst

theorem exec_pegDispatch_fresh (hps : p.psave = false) : exec (.pegDispatch core) s = .next (((s.readLoc l 64).1.dropSaved p).startPeg core id p l
    (s.readLoc l 64).2 (((s.readLoc l 64).1.core core).fresh p (PegRecord.parse (s.readLoc l 64).2))) := by
  rw [exec_pegDispatch_record hidle hph hbest hheld hl]
  dsimp only
  rw [if_neg (by simpa [href] using hst), if_neg (by simp [hps])]

theorem exec_pegDispatch_saved (hps : p.psave = true) :
    exec (.pegDispatch core) s = .next ((s.readLoc l 64).1.resumePeg core id p l (s.readLoc l 64).2) := by
  rw [exec_pegDispatch_record hidle hph hbest hheld hl]
  dsimp only
  rw [if_neg (by simpa [href] using hst), if_pos hps]

end

/-- R28, R338 to R341: the dispatch of a peg that is not saved. -/
theorem dispatchesPegs : DispatchesPegs := by
  intro s core id p0 r hidle hph hp0 p hbest hr hheld
  refine ⟨fun c hc => ⟨_, exec_pegDispatch_unreachable hidle hph hbest hheld hc, (Mild.refl s).killed rfl _ _ _⟩, fun l hl hacc => ?_⟩
  intro t
  have hread : s.readLoc l 64 = (s, s.bytesAt l.slot l.pa 64) := State.readLoc_none s l 64 hacc
  refine ⟨fun h => ⟨_, exec_pegDispatch_refused hidle hph hbest hheld hl (hread ▸ h), ?_⟩, fun href hst hps => ?_⟩
  · rw [hread]
    exact (Mild.refl s).killed rfl _ _ _
  · have hx := exec_pegDispatch_fresh hidle hph hbest hheld hl (hread ▸ href) (hread ▸ hst) hps
    rw [hread] at hx
    have hlen : (s.bytesAt l.slot l.pa 64).length = 64 := by simp
    change exec (.pegDispatch core) s = .next ((s.dropSaved p).startPeg core id p l (s.bytesAt l.slot l.pa 64) ((s.core core).fresh p t)) at hx
    obtain ⟨bays, hd⟩ := dropSaved_eq s p
    have hv : Stored s (s.dropSaved p) := hd ▸ Stored.of_fields rfl rfl rfl rfl rfl rfl rfl rfl
    have hb : SameBytes s (s.dropSaved p) := hd ▸ SameBytes.of_fields rfl rfl rfl rfl
    have ha : ∀ a ∈ (s.dropSaved p).accums, a.meets l.pa 64 = false := hd ▸ hacc
    generalize s.dropSaved p = v at hx hv hb ha
    refine ⟨_, hx, dispatched_startPeg hv hp0 (pending_viewed s p0) hr hlen (sems_fresh _ p t), onlyWrites_startPeg hb ha core id p hlen _, ?_⟩
    rw [startPeg_eq, core_runs]
    exact regs_fresh _ p t id _ _ _

end Sys2Proof.Machine
end

section
/-! O48. PEG_DISPATCH of a peg that pre-emption saved (R29, R371, R372). -/

namespace Sys2Proof.Machine
open Sys2Proof Sys2Proof.Claims

/-! ## The frames of a saved peg -/

/-- Frames are read through firmware's accesses alone. -/
theorem Stored.of_framesOf {s s1 : State} {p : Peg} {d : List Byte} {step : Nat} (h : s.framesOf p = some (s1, d, step)) : Stored s s1 := by
  unfold State.framesOf at h
  split at h
  · next n t hd _ hh =>
    obtain ⟨r, hr, h⟩ := Option.bind_eq_some_iff.mp h
    have hs := (Stored.of_saveHeader hh).trans (Stored.of_saveGet hr)
    split at h
    · cases h
      exact hs
    · obtain ⟨q, hq, h⟩ := Option.map_eq_some_iff.mp h
      cases h
      exact hs.trans (Stored.of_saveGet hq)
  · cases h

/-- A report goes to sessions alone. -/
theorem reportMismatch_eq (s : State) (b : Nat) (addr : Word) :
    ∃ sessions outbox, s.reportMismatch b addr = { s with sessions := sessions, outbox := outbox } := by
  have hf (l : List Session) (f : Session → List Byte) (s : State) : ∃ sessions outbox,
      l.foldl (fun (s : State) x => s.sendOn x 0x20 0 (f x)) s = { s with sessions := sessions, outbox := outbox } := by
    induction l generalizing s with
    | nil => exact ⟨_, _, rfl⟩
    | cons x t ih =>
      obtain ⟨_, _, e⟩ := ih (s.sendOn x 0x20 0 (f x))
      exact ⟨_, _, e⟩
  exact hf _ (fun _ => leBytes 4 b ++ leBytes 8 addr.toNat) s

theorem pegs_reportMismatch (s : State) (b : Nat) (addr : Word) : (s.reportMismatch b addr).pegs = s.pegs := by
  obtain ⟨_, _, e⟩ := reportMismatch_eq s b addr
  rw [e]

theorem core_reportMismatch (s : State) (b : Nat) (addr : Word) (c : Nat) : (s.reportMismatch b addr).core c = s.core c := by
  obtain ⟨_, _, e⟩ := reportMismatch_eq s b addr
  rw [e]
  rfl

section
variable {s : State} {core id : Nat} {p : Peg} {l : Loc} {rec : List Byte}

theorem resumePeg_unreadable (h : s.framesOf p = none) : s.resumePeg core id p l rec = s.killBent p.bent 0x07 0 := by
  rw [State.resumePeg, h]

variable {s1 : State} {d : List Byte} {step : Nat} (h : s.framesOf p = some (s1, d, step))
include h

theorem resumePeg_mismatch (hs : leNat (d.take 4) ≠ devStep.toNat ∨ step ≠ devStep.toNat) :
    s.resumePeg core id p l rec = (s1.modPeg id (fun p => { p with held := true })).reportMismatch p.bent p.recAddr := by
  rw [State.resumePeg, h]
  exact if_pos (by simpa [fieldN] using hs)

variable (hd : leNat (d.take 4) = devStep.toNat) (hstep : step = devStep.toNat)
include hd hstep

theorem resumePeg_bare (hf : p.coreFrame = none) : s.resumePeg core id p l rec = s1.startPeg core id p l rec ((s1.core core).ofFrame d) := by
  rw [State.resumePeg, h]
  dsimp only
  rw [if_neg (by simp [fieldN, hd, hstep]), hf]

theorem resumePeg_framed {f : CoreFrame} (hf : p.coreFrame = some f) (hsp : f.spilled = []) :
    s.resumePeg core id p l rec = s1.startPeg core id p l rec (((s1.core core).ofFrame d).putFrame f) := by
  rw [State.resumePeg, h]
  dsimp only
  rw [if_neg (by simp [fieldN, hd, hstep]), hf]
  dsimp only
  rw [hsp]
  rfl

end

/-! ## What the frames give back -/

theorem mem_journalIn {next : BitVec 32} {c x : Cmd} {j : List Cmd} : x ∈ journalIn next c j ↔ x = c ∨ x ∈ j := by
  induction j with
  | nil => simp [journalIn]
  | cons e t ih =>
    unfold journalIn
    split
    · exact List.mem_cons
    · simp only [List.mem_cons, ih]
      exact or_left_comm

/-- The entries of a frame stand in the journal, and so do those that stood there. -/
theorem mem_restored {next : BitVec 32} (cmds : List Cmd) {j : List Cmd} {x : Cmd} :
    x ∈ cmds.foldl (fun j c => journalIn next c.restore j) j ↔ x ∈ j ∨ ∃ c ∈ cmds, x = c.restore := by
  induction cmds generalizing j with
  | nil => simp
  | cons c t ih =>
    rw [List.foldl_cons, ih, mem_journalIn]
    simp only [List.mem_cons, exists_eq_or_imp]
    rw [or_comm (a := x = c.restore), or_assoc]

/-- Contexts that come back change the contexts and their spill slices. -/
theorem putCtxs_eq {k q : Core} {f : CoreFrame} {l : List Context} (h : k.putCtxs f l = some q) :
    ∃ ctxs spill, q = { k with ctxs := ctxs, spill := spill } := by
  induction l generalizing k with
  | nil =>
    cases h
    exact ⟨_, _, rfl⟩
  | cons x t ih =>
    unfold Core.putCtxs at h
    split at h
    · cases h
    · obtain ⟨_, _, e⟩ := ih h
      exact ⟨_, _, e⟩

theorem getD_putCtxs_eq (k : Core) (f : CoreFrame) (l : List Context) :
    ∃ ctxs spill, (k.putCtxs f l).getD k = { k with ctxs := ctxs, spill := spill } := by
  cases h : k.putCtxs f l with
  | none => exact ⟨_, _, rfl⟩
  | some q => exact putCtxs_eq h

/-- A core with a frame put back (R365, R371). -/
structure FramePut (k q : Core) (f : CoreFrame) : Prop where
  file : q.file = k.file
  sems : q.sems = k.sems
  allocs : q.allocs = k.allocs ++ f.allocs
  regions : q.regions = k.regions ++ f.regions
  srf : q.srf = putRanges k.srf f.srf (allocRanges f.allocs .srf)
  wb : q.wb = putRanges k.wb f.wb (allocRanges f.allocs .wb)
  srfFmt : q.srfFmt = putRanges k.srfFmt f.srfFmt (coarser 0x20000 (allocRanges f.allocs .srf))
  scaleRows : q.scaleRows = putRanges k.scaleRows f.scaleRows (scaleRanges f.allocs)
  finCw : q.finCw = f.finCw
  finScale : q.finScale = f.finScale
  restored : ∀ c ∈ f.cmds, c.restore ∈ q.journal
  journal : ∀ c ∈ k.journal, c ∈ q.journal

theorem framePut_putFrame (k : Core) (f : CoreFrame) : FramePut k (k.putFrame f) f := by
  unfold Core.putFrame
  extract_lets srf wb k1 k2 k3
  obtain ⟨a, b, c, h2⟩ : ∃ a b c, k2 = { k1 with jigActive := a, jigIdx := b, jigSteps := c } := by
    unfold k2
    split
    · exact ⟨_, _, _, rfl⟩
    · exact ⟨_, _, _, rfl⟩
  obtain ⟨ctxs, spill, h3⟩ : ∃ ctxs spill, k3 = { k2 with ctxs := ctxs, spill := spill } := getD_putCtxs_eq k2 f f.ctxs
  rw [h2] at h3
  rw [h3]
  refine ⟨rfl, rfl, rfl, rfl, rfl, rfl, rfl, rfl, rfl, rfl, fun c hc => ?_, fun c hc => ?_⟩
  · exact (mem_restored f.cmds).mpr (Or.inr ⟨c, hc, rfl⟩)
  · exact (mem_restored f.cmds).mpr (Or.inl hc)

/-- A peg frame gives back registers alone (R366). -/
theorem rest_ofFrame (k : Core) (d : List Byte) : (k.ofFrame d).sems = k.sems ∧ (k.ofFrame d).allocs = k.allocs ∧
    (k.ofFrame d).journal = k.journal ∧ (k.ofFrame d).regions = k.regions ∧ (k.ofFrame d).srf = k.srf ∧ (k.ofFrame d).wb = k.wb ∧
    (k.ofFrame d).srfFmt = k.srfFmt ∧ (k.ofFrame d).scaleRows = k.scaleRows := by
  unfold Core.ofFrame
  exact ⟨rfl, rfl, rfl, rfl, rfl, rfl, rfl, rfl⟩

theorem file_started (k : Core) (id e ts h : Nat) : (k.started id e ts h).file = k.file := rfl

/-- The registers that a peg frame gives back (R366). -/
theorem regs_ofFrame {k q : Core} {d : List Byte} (h : q.file = (k.ofFrame d).file) :
    q.pc = field64 d 0x670 &&& 0x00FFFFFFFFFFFFFC ∧ q.getX 0 = 0 ∧ (∀ n : RegNo, n ≠ 0 → q.getX n = field64 d (8 * n.toNat)) ∧
      (∀ n : RegNo, q.getF n = field64 d (0x100 + 8 * n.toNat)) ∧
      (∀ n : BitVec 4, (q.getD n).toNat = leNat ((d.drop (0x200 + 64 * n.toNat)).take 64)) ∧ q.regs = frameRegs d := by
  simp only [Core.file, Prod.mk.injEq] at h
  obtain ⟨hx, hf, hd, hregs, hpc⟩ := h
  refine ⟨hpc, Core.getX_zero q, fun n hn => ?_, fun n => ?_, fun n => ?_, hregs⟩
  · rw [Core.getX, if_neg hn, hx]
    refine (Vector.getElem_ofFn _).trans (if_neg fun h0 => hn (BitVec.eq_of_toNat_eq h0))
  · rw [Core.getF, hf]
    exact Vector.getElem_ofFn _
  · rw [Core.getD, hd]
    refine (congrArg BitVec.toNat (Vector.getElem_ofFn _)).trans ?_
    have h := fieldN_lt d (0x200 + 64 * n.toNat) 64
    rw [show (256 : Nat) = 2 ^ 8 from rfl, ← pow_mul, show 8 * 64 = 512 from rfl] at h
    exact (BitVec.toNat_ofNat _ _).trans (Nat.mod_eq_of_lt h)

/-- R29, R371, R372: the dispatch of a saved peg. -/
theorem resumesPegs : ResumesPegs := by
  intro s core id p0 r l hidle hph hp0 p hbest hr hheld hl href hst hps
  have hx := exec_pegDispatch_saved hidle hph hbest hheld hl href hst hps
  have hread : Stored s (s.readLoc l 64).1 := Stored.closeAccums s l.pa 64
  have hlen : (s.readLoc l 64).2.length = 64 := State.bytesAt_length _ _ _ _
  generalize s.readLoc l 64 = rd at hx hread hlen href hst ⊢
  refine ⟨fun h => ⟨_, hx.trans (by rw [resumePeg_unreadable h]), hread.toMild.killed hread.bents _ _ _⟩, fun s1 d step h => ?_⟩
  have hs1 := hread.trans (Stored.of_framesOf h)
  refine ⟨fun hne => ?_, fun hd hstep hsp => ?_⟩
  · -- a frame of another stepping
    rw [resumePeg_mismatch h hne] at hx
    obtain ⟨met, hq⟩ := hs1.find?_peg hp0
    have hfind : (s1.modPeg id (fun p => { p with held := true })).pegs.find? id = some { p0.withMet met with held := true } :=
      (AMap.find?_modify_same _ _ _).trans (congrArg _ hq)
    have hidle' : (s.core core).peg = none := by
      simp only [State.idle, Bool.and_eq_true, Option.isNone_iff_eq_none] at hidle
      exact hidle.2
    obtain ⟨_, _, _, ec⟩ := hs1.core core
    refine ⟨_, _, hx, (congrArg (fun m => AMap.find? m id) (pegs_reportMismatch _ _ _)).trans hfind, rfl, (st_viewed s p0).symm, ?_,
      registersKept_iff.mpr fun c => ?_⟩
    · rw [core_reportMismatch, State.core_modPeg, ec]
      exact hidle'
    · rw [core_reportMismatch, State.core_modPeg]
      exact registersKept_iff.mp hs1.registersKept c
  · obtain ⟨hsems, hal, hj, hrg, hsrf, hwb, hfmt, hrow⟩ := rest_ofFrame (s1.core core) d
    have hregs (q : Core) := regs_ofFrame (k := s1.core core) (q := q) (d := d)
    have hbare := resumePeg_bare (core := core) (id := id) (l := l) (rec := rd.2) h hd hstep
    have hframed := fun f => resumePeg_framed (core := core) (id := id) (l := l) (rec := rd.2) (f := f) h hd hstep
    generalize Core.ofFrame (s1.core core) d = k0 at hsems hal hj hrg hsrf hwb hfmt hrow hregs hbare hframed
    have hsems' : k0.sems = (s.core core).sems := by
      obtain ⟨_, _, _, ec⟩ := hs1.core core
      rw [hsems, ec]
    cases hf : p.coreFrame with
    | none =>
      rw [hbare hf] at hx
      refine ⟨_, hx, dispatched_startPeg hs1 hp0 (pending_viewed s p0) hr hlen hsems', ?_⟩
      rw [startPeg_eq, core_runs]
      generalize s1.writeLoc l (runningRecord rd.2 p.pin) = w
      obtain ⟨h1, h2, h3, h4, h5, h6⟩ := hregs (k0.started id w.elapsed w.timestamp p.hactTime) (file_started _ _ _ _ _)
      exact ⟨h1, h2, h3, h4, h5, h6, fun _ => ⟨hal, hj, hsrf⟩, fun f hf => nomatch hf⟩
    | some f =>
      rw [hframed f hf (hsp f hf)] at hx
      have hput := framePut_putFrame k0 f
      generalize Core.putFrame k0 f = k at hx hput
      refine ⟨_, hx, dispatched_startPeg hs1 hp0 (pending_viewed s p0) hr hlen (hput.sems.trans hsems'), ?_⟩
      rw [startPeg_eq, core_runs]
      generalize s1.writeLoc l (runningRecord rd.2 p.pin) = w
      obtain ⟨h1, h2, h3, h4, h5, h6⟩ := hregs (k.started id w.elapsed w.timestamp p.hactTime) ((file_started _ _ _ _ _).trans hput.file)
      refine ⟨h1, h2, h3, h4, h5, h6, (nomatch ·), fun g hg => ?_⟩
      obtain rfl : f = g := Option.some.inj hg
      rw [← hal, ← hrg, ← hsrf, ← hwb, ← hfmt, ← hrow, ← hj]
      exact ⟨hput.allocs, hput.regions, hput.srf, hput.wb, hput.srfFmt, hput.scaleRows, hput.finCw, hput.finScale, hput.restored, hput.journal⟩

/-- Settles O48: dispatch through the record's checks to the core on which the peg starts; the best of a list by induction; ageing by
its longest wait. -/
theorem pegsAreScheduled : Obligations.PegsAreScheduled := ⟨dispatchesPegs, resumesPegs, ranksPegs, agesPriorities⟩

end Sys2Proof.Machine
end

section
/-! O49. The request of a pre-emption, and the contexts that freeze (R342, R364, R373). -/

namespace Sys2Proof.Machine
open Sys2Proof Sys2Proof.Claims

/-! ## PREEMPTION_REQUEST -/

/-- The cores whose pegs yield to a ready peg, with those pegs (R342). -/
def State.yielding (s : State) (id : Nat) (p : Peg) : List (Nat × Nat) :=
  s.cores.filterMap (fun e => match e.2.peg with
    | some q => if s.yields id p e.1 q then some (e.1, q) else none
    | none => none)

theorem mem_yielding {s : State} {id : Nat} {p : Peg} {a : Nat × Nat} :
    a ∈ s.yielding id p ↔ ∃ e ∈ s.cores, e.1 = a.1 ∧ e.2.peg = some a.2 ∧ s.yields id p a.1 a.2 = true := by
  obtain ⟨c, q⟩ := a
  refine List.mem_filterMap.trans (exists_congr fun e => and_congr_right fun _ => ?_)
  cases hq : e.2.peg with
  | none => simp
  | some q' =>
    simp only [Option.ite_none_right_eq_some, Option.some.injEq, Prod.mk.injEq]
    constructor
    · rintro ⟨hy, rfl, rfl⟩
      exact ⟨rfl, rfl, hy⟩
    · rintro ⟨rfl, rfl, hy⟩
      exact ⟨hy, rfl, rfl⟩

/-- The effective priority that a core's peg runs with. -/
def State.victimPrio (s : State) (a : Nat × Nat) : Nat := s.prioOf ((s.pegs.find? a.2).map Peg.bent |>.getD 0)

/-- The choice among pegs that yield: the lower priority, then the one dispatched longer ago. -/
def State.yieldsBefore (s : State) (a b : Nat × Nat) : Bool :=
  if s.victimPrio a ≠ s.victimPrio b then decide (s.victimPrio a < s.victimPrio b)
  else decide ((s.core a.1).dispatched < (s.core b.1).dispatched)

theorem yieldsBefore_eq_false {s : State} {a b : Nat × Nat} : s.yieldsBefore a b = false ↔ s.victimPrio b < s.victimPrio a ∨
    s.victimPrio a = s.victimPrio b ∧ (s.core b.1).dispatched ≤ (s.core a.1).dispatched := by
  unfold State.yieldsBefore
  split
  · next h =>
    simp only [decide_eq_false_iff_not]
    omega
  · next h =>
    simp only [decide_eq_false_iff_not]
    omega

/-- The chosen peg yields, and has the lowest priority of those that do. -/
theorem best_yielding {s : State} {id : Nat} {p : Peg} {a : Nat × Nat} (h : best s.yieldsBefore (s.yielding id p) = some a) :
    a ∈ s.yielding id p ∧ ∀ b ∈ s.yielding id p, s.victimPrio a ≤ s.victimPrio b := by
  obtain ⟨hmem, hmin⟩ := best_spec (before := s.yieldsBefore) (fun a b => by simp only [yieldsBefore_eq_false]; omega)
    (fun a b c => by simp only [yieldsBefore_eq_false]; omega) h
  refine ⟨hmem, fun b hb => ?_⟩
  have := yieldsBefore_eq_false.mp (hmin b hb)
  omega

/-- Whether a ready peg asks no peg to stop (R342). -/
def State.asksNone (s : State) (id : Nat) (p : Peg) : Bool :=
  p.st != .ready || p.pool.isNone || p.held || s.cores.any (fun e => decide (e.2.preemptFor = some id)) ||
    (rangeFrom 0 s.coreCount).any (fun c => s.idle c && s.eligible id p c)

section
variable {s : State} {id : Nat} {p : Peg} (hp : s.pegs.find? id = some p)
include hp

theorem exec_preemptionRequest_none (h : s.asksNone id (s.viewed p) = true) : exec (.preemptionRequest id) s = .next s := by
  change execPreemptionRequest id s = _
  rw [execPreemptionRequest, hp]
  exact if_pos h

theorem exec_preemptionRequest_asks (h : s.asksNone id (s.viewed p) = false) {core q : Nat} {v : Peg}
    (hbest : best s.yieldsBefore (s.yielding id (s.viewed p)) = some (core, q)) (hv : s.pegs.find? q = some v) (hf : s.framesFree core q v = true) :
    exec (.preemptionRequest id) s = .next (s.setCore core { s.core core with preempt := some s.clk, preemptFor := some id }) := by
  change execPreemptionRequest id s = _
  rw [execPreemptionRequest, hp]
  refine (if_neg (by rw [← State.asksNone, h]; exact Bool.false_ne_true)).trans ?_
  change (match best s.yieldsBefore (s.yielding id (s.viewed p)) with
    | none => _
    | some (core, q) => _) = _
  rw [hbest]
  dsimp only
  rw [hv]
  dsimp only
  rw [if_neg (by simp [hf])]

end

theorem find?_of_yields {s : State} {id : Nat} {p : Peg} {core q : Nat} (h : s.yields id p core q = true) : ∃ v, s.pegs.find? q = some v := by
  unfold State.yields at h
  split at h
  · cases h
  · exact ⟨_, ‹_›⟩

/-- R342, R364: the request of a pre-emption. -/
theorem requestsPreemption : RequestsPreemption := by
  intro s id p0 hp0 p
  refine ⟨fun ⟨e, he, hfor⟩ => ?_, fun hst hpool hheld hfor hidle hy hfree => ?_⟩
  · refine exec_preemptionRequest_none hp0 ?_
    have : s.cores.any (fun e => decide (e.2.preemptFor = some id)) = true := List.any_eq_true.mpr ⟨e, he, decide_eq_true hfor⟩
    simp [State.asksNone, this]
  · have hasks : s.asksNone id p = false := by
      have h1 : s.cores.any (fun e => decide (e.2.preemptFor = some id)) = false := by simpa using fun a k hk => hfor (a, k) hk
      have h2 : (rangeFrom 0 s.coreCount).any (fun c => s.idle c && s.eligible id p c) = false := by
        refine List.any_eq_false.mpr fun c hc => ?_
        have hlt : c < s.coreCount := by simpa using (mem_rangeFrom.mp hc).2
        simpa using hidle c hlt
      have hnone : p.pool.isNone = false := by simpa using hpool
      simp [State.asksNone, hst, hnone, hheld, h1, h2]
    have mem {e : Nat × Core} {q : Nat} (he : e ∈ s.cores) (hq : e.2.peg = some q) (hyq : s.yields id p e.1 q = true) :
        (e.1, q) ∈ s.yielding id p :=
      mem_yielding.mpr ⟨e, he, rfl, hq, hyq⟩
    obtain ⟨e, he, q, hq, hyq⟩ := hy
    cases hbest : best s.yieldsBefore (s.yielding id p) with
    | none =>
      have := mem he hq hyq
      rw [best_eq_none hbest] at this
      cases this
    | some a =>
      obtain ⟨hmem, hmin⟩ := best_yielding hbest
      obtain ⟨d, hd, hd1, hdq, hdy⟩ := mem_yielding.mp hmem
      obtain ⟨v, hv⟩ := find?_of_yields hdy
      have hrank {b : Nat × Nat} {w : Peg} (hw : s.pegs.find? b.2 = some w) : s.victimPrio b = s.prioOf w.bent := by
        unfold State.victimPrio
        rw [hw]
        rfl
      refine ⟨d, hd, a.2, v, hdq, hd1 ▸ hdy, hv, ?_, fun e' he' q' v' hq' hy' hv' => ?_⟩
      · rw [hd1]
        exact exec_preemptionRequest_asks hp0 hasks hbest hv (hd1 ▸ hfree d hd a.2 v hdq (hd1 ▸ hdy) hv)
      · rw [← hrank hv, ← hrank (b := (e'.1, q')) hv']
        exact hmin _ (mem he' hq' hy')

/-! ## CONTEXT_REST_FREEZE and PREEMPTION_ESCALATED -/

theorem Core.ctx?_dropContext (s : State) (core uid : Nat) : ((s.dropContext core uid).core core).ctx? uid = none := by
  change ((s.setCore core { s.core core with ctxs := (s.core core).ctxs.filter (fun c => !(decide (c.uid = uid))) }).core core).ctx? uid = none
  rw [State.core_setCore_same]
  exact Core.ctx?_filter (s.core core) uid

section
variable {s : State} {core uid : Nat} {x : Context} (hx : (s.core core).ctx? uid = some x) (hrest : s.mustRest core x = true)
  (hfrozen : x.frozen = false) (hended : x.ended = false)
include hx hrest hfrozen hended

theorem exec_contextRestFreeze (hline : s.missingLine core x = none) (hat : x.atRest (s.bundleOf core x) = true) :
    exec (.contextRestFreeze core uid) s = .next (s.stopCtx core x) := by
  change execContextRestFreeze core uid s = _
  simp only [execContextRestFreeze, hx, hrest, hfrozen, hended, hline, hat, Option.isNone_none, Bool.not_true, Bool.or_self, Bool.and_self,
    Bool.false_eq_true, if_false, if_true]

theorem exec_preemptionEscalated (hwin : s.restSince core x + (s.core core).restWin.toNat % 2 ^ 32 ≤ s.clk) :
    exec (.preemptionEscalated core uid) s = .next (s.stopCtx core x) := by
  have hw : ((s.core core).restWin.extractLsb' 0 32).toNat = (s.core core).restWin.toNat % 2 ^ 32 := by simp
  change execPreemptionEscalated core uid s = _
  simp only [execPreemptionEscalated, hx, hrest, hfrozen, hended, Bool.not_true, Bool.or_self, Bool.false_eq_true, if_false, hw]
  exact if_neg (by omega)

end

/-- R364, R373: contexts freeze. -/
theorem freezesContexts : FreezesContexts := by
  intro s core uid x r hx hrest hfrozen hended hr stops
  have huid := uid_of_ctx? hx
  have hstops (i : Instr) (hi : exec i s = .next (s.stopCtx core x)) : stops i := by
    unfold State.stopCtx at hi
    rw [hr] at hi
    dsimp only at hi
    cases hd : r.drain with
    | false =>
      rw [hd, if_neg Bool.false_ne_true] at hi
      refine ⟨_, hi, RegistersKept.setCtx s core _, rfl, rfl, fun _ => ⟨State.ctx?_setCtx hx huid, rfl⟩, fun h => ?_⟩
      simp [hd] at h
    | true =>
      rw [hd, if_pos rfl, huid] at hi
      refine ⟨_, hi, RegistersKept.setCore s rfl, rfl, rfl, fun h => ?_, fun _ => ⟨Core.ctx?_dropContext s core uid, fun bay n => ?_⟩⟩
      · simp [hd] at h
      · exact State.member_dropEverywhere _ _ bay n
  exact ⟨fun hline hat => hstops _ (exec_contextRestFreeze hx hrest hfrozen hended hline hat),
    fun hwin => hstops _ (exec_preemptionEscalated hx hrest hfrozen hended hwin)⟩

end Sys2Proof.Machine
end

section
/-! O49. The frames and the record of a pre-empted peg (R29, R364 to R366). -/

namespace Sys2Proof.Machine
open Sys2Proof Sys2Proof.Claims

/-! ## The record -/

/-- The registers that a suspension writes (R152). -/
def Core.savedRegs (k : Core) : List Word := [k.getX 3, k.getX 10, k.getX 11, k.getX 12, k.getX 13]

/-- A record after a suspension's write (R152). -/
def savedRecord (d : List Byte) (w : Nat) (pc : Word) (k : Core) : List Byte :=
  patch (patch (patch d 0 (leBytes 8 pc.toNat)) 0x0C (leBytes 4 w)) 0x10 ((k.savedRegs.map (fun v => leBytes 8 v.toNat)).flatten)

theorem writeRecord_eq (s : State) (l : Loc) (w : Nat) (pc : Word) :
    s.writeRecord l w pc = (s.readLoc l 64).1.writeLoc l (savedRecord (s.readLoc l 64).2 w pc s.me) := rfl

theorem Stored.writeRecord (s : State) (l : Loc) (w : Nat) (pc : Word) : Stored s (s.writeRecord l w pc) :=
  (Stored.closeAccums s l.pa 64).trans (Stored.writeLoc _ l _)

section
variable {d : List Byte} (hd : d.length = 64) (w : Nat) (pc : Word) (k : Core)
include hd

theorem length_savedRecord : (savedRecord d w pc k).length = 64 := by
  have h1 : (patch d 0 (leBytes 8 pc.toNat)).length = 64 := (patch_length (by simp [hd])).trans hd
  have h2 : (patch (patch d 0 (leBytes 8 pc.toNat)) 0x0C (leBytes 4 w)).length = 64 := (patch_length (by simp [h1])).trans h1
  exact (patch_length (by simp [h2, Core.savedRegs])).trans h2

theorem pc_savedRecord : fieldN (savedRecord d w pc k) 0 8 = pc.toNat := by
  have h1 : (patch d 0 (leBytes 8 pc.toNat)).length = 64 := (patch_length (by simp [hd])).trans hd
  have h2 : (patch (patch d 0 (leBytes 8 pc.toNat)) 0x0C (leBytes 4 w)).length = 64 := (patch_length (by simp [h1])).trans h1
  rw [savedRecord, fieldN_patch_below (by simp [h2, Core.savedRegs]) (by decide), fieldN_patch_below (by simp [h1]) (by decide),
    fieldN_patch_leBytes (by simp [hd])]
  exact Nat.mod_eq_of_lt pc.isLt

theorem state_savedRecord : fieldN (savedRecord d w pc k) 0x0C 4 = w % 2 ^ 32 := by
  have h1 : (patch d 0 (leBytes 8 pc.toNat)).length = 64 := (patch_length (by simp [hd])).trans hd
  have h2 : (patch (patch d 0 (leBytes 8 pc.toNat)) 0x0C (leBytes 4 w)).length = 64 := (patch_length (by simp [h1])).trans h1
  rw [savedRecord, fieldN_patch_below (by simp [h2, Core.savedRegs]) (by decide), fieldN_patch_leBytes (by simp [h1])]
  rfl

end

/-- What a suspension's write leaves of PC and STATE. -/
theorem fields_writeRecord (s : State) (l : Loc) (w : Nat) (pc : Word) :
    leNat ((s.writeRecord l w pc).bytesAt l.slot l.pa 8) = pc.toNat ∧
      leNat ((s.writeRecord l w pc).bytesAt l.slot (l.pa + 0x0C) 4) = w % 2 ^ 32 := by
  have hd : (s.readLoc l 64).2.length = 64 := State.bytesAt_length _ _ _ _
  have hl := length_savedRecord hd w pc s.me
  rw [writeRecord_eq]
  refine ⟨(word_writeLoc _ l (off := 0) (by omega)).trans (pc_savedRecord hd w pc s.me), (word_writeLoc _ l (by omega)).trans
    (state_savedRecord hd w pc s.me)⟩

/-- A suspension's write stays in the units of its record, with nothing gathered there. -/
theorem byteAt_writeRecord_unit {s : State} {l : Loc} (hacc : ∀ a ∈ s.accums, a.meets l.pa 64 = false) (w : Nat) (pc : Word) {slot : Option Nat}
    {pa : Nat} (h : pa / 32 < l.pa / 32 ∨ (l.pa + 63) / 32 < pa / 32) : (s.writeRecord l w pc).byteAt slot pa = s.byteAt slot pa := by
  have hl := length_savedRecord (State.bytesAt_length s l.slot l.pa 64) w pc s.me
  rw [writeRecord_eq, State.readLoc_none s l 64 hacc]
  exact (onlyWrites_writeLoc (by rwa [hl])).2 slot pa (by rwa [hl])

/-- The STATE word of a saved peg. -/
theorem stateWord_saved (holds : Bool) (c : Nat) :
    stateWord 1 holds true (if holds then c else 0) % 2 ^ 32 = 33 + if holds then 16 + c % 2 ^ 16 * 2 ^ 16 else 0 := by
  cases holds
  · simp [stateWord]
  · simp only [stateWord, if_true]
    omega

/-! ## The machine once the frames are saved -/

/-- A peg whose frames are saved (R29, R365): ready, with PSAVE, pinned to its core where it holds state there. -/
def Peg.saved (q : Peg) (holds : Bool) (core stamp elapsed n m : Nat) (f : CoreFrame) : Peg :=
  { q with
    st := .ready, psave := true, pin := holds, core := if holds then core else 0, age := stamp, readySince := elapsed
    frameNo := some n, coreFrameNo := if holds then some m else none, coreFrame := if holds then some f else none }

/-- The bent of a peg whose frames are saved. -/
def Bent.saved (r : Bent) (holds : Bool) (n m : Nat) : Bent :=
  { r with
    preempts := r.preempts + 1, usedFrames := r.usedFrames.put n ()
    usedCoreFrames := if holds then r.usedCoreFrames.put m () else r.usedCoreFrames }

/-- The machine that a saved peg leaves, its record written (R365). -/
def State.leftBy (a : State) (id b : Nat) (holds : Bool) (n m : Nat) (f : CoreFrame) : State :=
  let c := (a.modPeg id (fun q => q.saved holds a.cur a.stamp a.elapsed n m f)).modBent b (fun r => r.saved holds n m)
  let d := { c with stamp := c.stamp + 1 }.vacate
  d.setMe (d.me.freeFrame id f)

section
variable (a : State) (id b : Nat) (holds : Bool) (n m : Nat) (f : CoreFrame)

theorem me_leftBy : (a.leftBy id b holds n m f).core a.cur = a.me.vacated.freeFrame id f := by
  unfold State.leftBy
  extract_lets c d
  have hc : d.cur = a.cur := cur_vacate _
  have hd : d.me = a.me.vacated := me_vacate { c with stamp := c.stamp + 1 }
  rw [← hc, ← State.setMe_cur d (d.me.freeFrame id f), ← State.me, State.me_setMe, hd]

theorem core_leftBy_other {i : Nat} (h : i ≠ a.cur) : (a.leftBy id b holds n m f).core i = a.core i := by
  unfold State.leftBy
  extract_lets c d
  have hc : d.cur = a.cur := cur_vacate _
  rw [State.core_setMe_other _ _ _ (hc ▸ h)]
  exact core_vacate_other { c with stamp := c.stamp + 1 } h

theorem registersKept_leftBy : RegistersKept a (a.leftBy id b holds n m f) :=
  registersKept_iff.mpr fun i => by
    by_cases h : i = a.cur
    · rw [h, me_leftBy]
      rfl
    · rw [core_leftBy_other _ _ _ _ _ _ _ h]

theorem sameBytes_leftBy : SameBytes a (a.leftBy id b holds n m f) := by
  unfold State.leftBy
  extract_lets c d
  have h1 : SameBytes a { c with stamp := c.stamp + 1 } := SameBytes.of_fields rfl rfl rfl rfl
  exact (h1.trans (sameBytes_vacate _)).trans (SameBytes.of_fields rfl rfl rfl rfl)

theorem find?_peg_leftBy {q : Peg} (hme : a.me.peg = some id) (hq : a.pegs.find? id = some q) : ∃ since,
    (a.leftBy id b holds n m f).pegs.find? id = some { q.saved holds a.cur a.stamp a.elapsed n m f with
      cause := a.me.regs.trapCause, info := a.me.regs.trapInfo, addr := a.me.regs.trapAddr, hactTime := since } := by
  unfold State.leftBy
  extract_lets c d
  have hd := pegs_vacate (s := { c with stamp := c.stamp + 1 }) hme
  have hc : c.pegs.find? id = some (q.saved holds a.cur a.stamp a.elapsed n m f) :=
    (AMap.find?_modify_same a.pegs id _).trans (congrArg _ hq)
  refine ⟨_, (congrArg (fun u => AMap.find? u id) hd).trans ((AMap.find?_modify_same _ _ _).trans (congrArg _ hc))⟩

theorem find?_bent_leftBy {r : Bent} (hr : a.bents.find? b = some r) : (a.leftBy id b holds n m f).bents.find? b = some (r.saved holds n m) := by
  unfold State.leftBy
  extract_lets c d
  have hd : d.bents = c.bents := bents_vacate _
  have hc : c.bents.find? b = some (r.saved holds n m) := (AMap.find?_modify_same a.bents b _).trans (congrArg _ hr)
  exact (congrArg (fun u => AMap.find? u b) hd).trans hc

end

/-! ## The save -/

/-- A core whose peg goes on for want of a frame (R364). -/
def Core.goesOn (k : Core) (id : Nat) : Core :=
  { k with
    preempt := none, preemptFor := none, halted := false
    ctxs := k.ctxs.map (fun x => if x.peg = id && x.trap.isNone && x.accWait.isNone then { x with frozen := false } else x) }

/-- The core frame that a save needs (R365): none where the peg holds nothing on the core. -/
def State.coreFrameFor (s : State) (id b ncf : Nat) : Option Nat :=
  if s.me.holdsFor id then freeFrame (s.framesUsed b Bent.usedCoreFrames) ncf else some 0

section
variable {s s1 : State} {id : Nat} {p : Peg} {l : Loc} {h : SaveHeader} (hl : s.recordLoc s.myBay p .both = .ok l)
  (hh : s.saveHeader p.bent = some (s1, h))
include hl hh

theorem savePeg_lacking (hn : freeFrame (s1.framesUsed p.bent Bent.usedFrames) h.npf = none ∨ s1.coreFrameFor id p.bent h.ncf = none) :
    s.savePeg id p = s1.setMe (s1.me.goesOn id) := by
  unfold State.coreFrameFor at hn
  rw [State.savePeg, hl, hh]
  dsimp only
  split
  · next n m h1 h2 =>
    rw [h1, h2] at hn
    rcases hn with hn | hn <;> cases hn
  · rfl

theorem savePeg_saved {n m : Nat} {s2 : State} (hn : freeFrame (s1.framesUsed p.bent Bent.usedFrames) h.npf = some n)
    (hm : s1.coreFrameFor id p.bent h.ncf = some m)
    (h2 : (s1.savePut p.bent (h.pfo + 4096 * n) (pegFrameBytes s1.me (if s1.me.holdsFor id then some m else none))).bind (fun u =>
      if s1.me.holdsFor id then u.saveCore p.bent (h.cfo + 0x800000 * m) (s1.me.saveFrame s1.cur id) else some u) = some s2) :
    s.savePeg id p = (s2.writeRecord l (stateWord 1 (s1.me.holdsFor id) true (if s1.me.holdsFor id then s2.cur else 0)) s1.me.pc).leftBy id p.bent
      (s1.me.holdsFor id) n m (s1.me.saveFrame s1.cur id) := by
  unfold State.coreFrameFor at hm
  rw [State.savePeg, hl, hh]
  dsimp only
  rw [hn, hm]
  dsimp only
  rw [show (0x800000 : Nat) = coreFrameSize from rfl] at h2
  rw [h2]
  rfl

end

end Sys2Proof.Machine
end

section
/-! O49. PREEMPTION_COMPLETE (R29, R364 to R366). -/

namespace Sys2Proof.Machine
open Sys2Proof Sys2Proof.Claims

theorem exec_preemptionComplete {s : State} {core id : Nat} {p : Peg} {r : Bent} (hpeg : (s.core core).peg = some id)
    (hp : s.pegs.find? id = some p) (hpre : (s.core core).preempt.isSome = true) (hhalt : (s.core core).halted = true)
    (hquiet : (s.core core).quiet id = true) (hr : s.bents.find? p.bent = some r) (hd : r.drain = false) (hheld : s.recordHeld p = false) :
    exec (.preemptionComplete core) s = .next ({ s with cur := core }.savePeg id p) := by
  have hnone : (s.core core).preempt.isNone = false := by simpa using hpre
  change execPreemptionComplete core s = _
  simp only [execPreemptionComplete, hpeg, hp, hnone, hhalt, hquiet, hr, hd, hheld, Bool.not_true, Bool.or_self, Bool.false_eq_true, if_false]

/-- The frames are written through firmware's accesses alone (R365, R366). -/
theorem stored_frames {s1 s2 : State} {b off off' : Nat} {d : List Byte} {holds : Bool} {f : CoreFrame}
    (h : (s1.savePut b off d).bind (fun u => if holds then u.saveCore b off' f else some u) = some s2) : Stored s1 s2 := by
  obtain ⟨u, hu, h⟩ := Option.bind_eq_some_iff.mp h
  refine (Stored.of_savePut hu).trans ?_
  split at h
  · exact Stored.of_saveCore h
  · cases h
    exact Stored.refl _

/-- The contexts that a request froze go on when their peg does (R364). -/
theorem thawed_goesOn (k : Core) (id : Nat) :
    ∀ x ∈ (k.goesOn id).ctxs, x.peg = id → x.trap = none → x.accWait = none → x.frozen = false := by
  intro x hx hid htrap hacc
  obtain ⟨y, -, rfl⟩ := List.mem_map.mp hx
  split
  · rfl
  · next hy =>
    rw [if_neg hy] at hid htrap hacc
    exact absurd (by simp [hid, htrap, hacc]) hy

/-- What leaves a core with a saved peg (R365). -/
theorem gone_freeFrame (k : Core) (id : Nat) (f : CoreFrame) : (∀ a ∈ (k.freeFrame id f).allocs, a.peg ≠ id) ∧
    (∀ x ∈ (k.freeFrame id f).ctxs, x.peg ≠ id) ∧ ∀ c ∈ (k.freeFrame id f).journal, c.peg ≠ id := by
  refine ⟨fun a ha => ?_, fun x hx => ?_, fun c hc => ?_⟩
  · simpa using (List.mem_filter.mp ha).2
  · simpa using (List.mem_filter.mp hx).2
  · simpa using (List.mem_filter.mp hc).2

theorem has_put_same {α : Type} (m : AMap α) (n : Nat) (x : α) : (m.put n x).has n = true := by
  rw [AMap.has, AMap.find?_put_same]
  rfl

theorem Mild.sameRegs_me {s t : State} (h : Mild s t) : SameRegs s.me t.me := by
  have := h.core s.cur
  rw [State.me, State.me, h.cur]
  exact this

theorem SameRegs.peg {k q : Core} (h : SameRegs k q) : q.peg = k.peg := by
  obtain ⟨_, _, _, rfl⟩ := h
  rfl

theorem SameRegs.regs {k q : Core} (h : SameRegs k q) : q.regs = k.regs := by
  obtain ⟨_, _, _, rfl⟩ := h
  rfl

theorem SameRegs.pc {k q : Core} (h : SameRegs k q) : q.pc = k.pc := by
  obtain ⟨_, _, _, rfl⟩ := h
  rfl

/-- For want of a frame the peg keeps running, and its contexts go on (R364). -/
theorem preemption_lacks {s s1 t : State} {id : Nat} (hs1 : Stored s s1) (hme : s.me.peg = some id) (ht : t = s1.setMe (s1.me.goesOn id)) :
    (t.core s.cur).preempt = none ∧ (t.core s.cur).preemptFor = none ∧ (t.core s.cur).halted = false ∧ (t.core s.cur).peg = some id ∧
      RegistersKept s t ∧ ∀ x ∈ (t.core s.cur).ctxs, x.peg = id → x.trap = none → x.accWait = none → x.frozen = false := by
  have hcore : t.core s.cur = s1.me.goesOn id := by
    rw [ht, ← hs1.cur]
    exact s1.me_setMe _
  rw [hcore]
  refine ⟨rfl, rfl, rfl, hs1.sameRegs_me.peg.trans hme, RegistersKept.trans hs1.registersKept ?_, thawed_goesOn s1.me id⟩
  rw [ht]
  exact RegistersKept.setCore s1 rfl

section
variable {s s2 t : State} {id b : Nat} {p : Peg} {r : Bent} {l : Loc} {holds : Bool} {n m : Nat} {f : CoreFrame} {pc : Word} (h02 : Stored s s2)
  (ht : t = (s2.writeRecord l (stateWord 1 holds true (if holds then s2.cur else 0)) pc).leftBy id b holds n m f)
include h02 ht

/-- The core that a saved peg leaves. -/
theorem core_saved : RegistersKept s t ∧ (t.core s.cur).peg = none ∧ (t.core s.cur).preempt = none ∧ (t.core s.cur).halted = false ∧
    (∀ a ∈ (t.core s.cur).allocs, a.peg ≠ id) ∧ (∀ x ∈ (t.core s.cur).ctxs, x.peg ≠ id) ∧
      ∀ c ∈ (t.core s.cur).journal, c.peg ≠ id := by
  have ha := h02.trans (Stored.writeRecord s2 l (stateWord 1 holds true (if holds then s2.cur else 0)) pc)
  generalize s2.writeRecord l (stateWord 1 holds true (if holds then s2.cur else 0)) pc = a at ht ha
  have hcore : t.core s.cur = a.me.vacated.freeFrame id f := by
    rw [ht, ← ha.cur, me_leftBy]
  rw [hcore]
  refine ⟨RegistersKept.trans ha.registersKept (ht ▸ registersKept_leftBy a id b holds n m f), rfl, rfl, rfl, gone_freeFrame _ id f⟩

/-- The record of a saved peg, and what lies outside it. -/
theorem record_saved : leNat (t.bytesAt l.slot l.pa 8) = pc.toNat ∧
    leNat (t.bytesAt l.slot (l.pa + 0x0C) 4) = 33 + (if holds then 16 + s.cur % 2 ^ 16 * 2 ^ 16 else 0) ∧
    ∀ slot pa, pa / 32 < l.pa / 32 ∨ (l.pa + 63) / 32 < pa / 32 → (∀ a ∈ s2.accums, a.meets l.pa 64 = false) →
      t.byteAt slot pa = s2.byteAt slot pa := by
  have hfields := fields_writeRecord s2 l (stateWord 1 holds true (if holds then s2.cur else 0)) pc
  have hunit {slot : Option Nat} {pa : Nat} (hpa : pa / 32 < l.pa / 32 ∨ (l.pa + 63) / 32 < pa / 32)
      (hacc : ∀ a ∈ s2.accums, a.meets l.pa 64 = false) :=
    byteAt_writeRecord_unit hacc (stateWord 1 holds true (if holds then s2.cur else 0)) pc (slot := slot) hpa
  rw [stateWord_saved] at hfields
  generalize s2.writeRecord l (stateWord 1 holds true (if holds then s2.cur else 0)) pc = a at ht hfields hunit
  have hbytes : SameBytes a t := ht ▸ sameBytes_leftBy a id b holds n m f
  obtain ⟨hpc, hst⟩ := hfields
  exact ⟨by rw [hbytes.bytesAt, hpc], by rw [hbytes.bytesAt, hst, h02.cur], fun slot pa hpa hacc => (hbytes slot pa).trans (hunit hpa hacc)⟩

/-- A saved peg, and its bent. -/
theorem peg_saved (hme : s.me.peg = some id) (hp : s.pegs.find? id = some p) (hr : s.bents.find? b = some r) :
    ∃ q c, t.pegs.find? id = some q ∧ q.st = .ready ∧
    q.psave = true ∧ q.pin = holds ∧ q.frameNo = some n ∧ q.coreFrameNo = (if holds then some m else none) ∧
    q.coreFrame = (if holds then some f else none) ∧ q.pending = p.pending ∧ q.cause = s.me.regs.trapCause ∧
    t.bents.find? b = some c ∧ c.preempts = r.preempts + 1 ∧ c.usedFrames.has n = true ∧ (holds = true → c.usedCoreFrames.has m = true) := by
  have ha := h02.trans (Stored.writeRecord s2 l (stateWord 1 holds true (if holds then s2.cur else 0)) pc)
  generalize s2.writeRecord l (stateWord 1 holds true (if holds then s2.cur else 0)) pc = a at ht ha
  obtain ⟨met, hq⟩ := ha.find?_peg hp
  obtain ⟨since, hpeg⟩ := find?_peg_leftBy a id b holds n m f (ha.sameRegs_me.peg.trans hme) hq
  have hbent := find?_bent_leftBy a id b holds n m f (ha.bents ▸ hr)
  rw [← ht] at hpeg hbent
  refine ⟨_, _, hpeg, rfl, rfl, rfl, rfl, rfl, rfl, rfl, congrArg PegRegs.trapCause ha.sameRegs_me.regs, hbent, rfl,
    has_put_same _ _ _, fun hh => ?_⟩
  rw [Bent.saved, hh]
  exact has_put_same _ _ _

end

/-- R29, R364 to R366: the end of a pre-emption. -/
theorem completesPreemption : CompletesPreemption := by
  intro s0 core id p r l s1 h s hme hp hpre hhalt hquiet hr hd hheld hl hh holds pegFrame coreFrame
  have hx : exec (.preemptionComplete core) s0 = .next (s.savePeg id p) := exec_preemptionComplete hme hp hpre hhalt hquiet hr hd hheld
  have hs1 : Stored s s1 := Stored.of_saveHeader hh
  refine ⟨fun hlack => ?_, fun n m s2 hn hm h2 => ?_⟩
  · exact ⟨_, hx, preemption_lacks hs1 hme (savePeg_lacking hl hh hlack)⟩
  · have h02 := hs1.trans (stored_frames h2)
    have ht := savePeg_saved hl hh hn hm h2
    obtain ⟨hregs, hcore⟩ := core_saved h02 ht
    obtain ⟨hpc, hst, hunit⟩ := record_saved h02 ht
    obtain ⟨q, b, hq, h1, h2, h3, h4, h5, h6, h7, h8, hb⟩ := peg_saved h02 ht hme hp hr
    obtain ⟨hc1, hc2, hc3, hc4, hc5, hc6⟩ := hcore
    exact ⟨_, q, b, hx, hregs, hunit, hc1, hc2, hc3, hc4, hc5, hc6, hq, h1, h2, h3, h4, h5, h6, h7, h8,
      hpc.trans (congrArg BitVec.toNat hs1.sameRegs_me.pc), hst, hb⟩

end Sys2Proof.Machine
end

section
/-! O49. PEG_MIGRATION (R371). -/

namespace Sys2Proof.Machine
open Sys2Proof Sys2Proof.Claims

/-! ## The record -/

/-- A record whose CORE names another core (R371). -/
def migratedRecord (d : List Byte) (core : Nat) : List Byte := patch d 12 (leBytes 4 (fieldN d 12 4 % 2 ^ 16 + core * 2 ^ 16))

section
variable {d : List Byte} (hd : d.length = 64) {core : Nat}
include hd

theorem length_migratedRecord : (migratedRecord d core).length = 64 := (patch_length (by simp [hd])).trans hd

variable (hc : core < 2 ^ 16)
include hc

/-- The halves of a migrated record's STATE word: the low one as it was, the high one the new core. -/
theorem halves_migratedRecord : fieldN (migratedRecord d core) 12 2 = fieldN d 12 2 ∧ fieldN (migratedRecord d core) 14 2 = core := by
  have hl := length_migratedRecord hd (core := core)
  have h4 : fieldN (migratedRecord d core) 12 4 = (fieldN d 12 4 % 2 ^ 16 + core * 2 ^ 16) % 256 ^ 4 := fieldN_patch_leBytes (by simp [hd])
  have hnew := fieldN_add (migratedRecord d core) 12 2 2 (by omega)
  have hold := fieldN_add d 12 2 2 (by omega)
  have hlt := fieldN_lt (migratedRecord d core) 12 2
  have hlt' := fieldN_lt d 12 2
  norm_num at hnew hold h4 hlt hlt' hc
  omega

/-- Every byte of a migrated record but those of CORE stands as it did. -/
theorem byte_migratedRecord {off : Nat} (h : off < 0x0E ∨ (0x10 ≤ off ∧ off < 64)) : fieldN (migratedRecord d core) off 1 = fieldN d off 1 := by
  have hl := length_migratedRecord hd (core := core)
  by_cases hlow : off + 1 ≤ 12
  · exact fieldN_patch_below (by simp [hd]) hlow
  by_cases hhigh : 16 ≤ off
  · exact fieldN_patch_above (by simp [hd]) (by simpa using hhigh)
  obtain ⟨h2, -⟩ := halves_migratedRecord hd hc
  have hnew := fieldN_add (migratedRecord d core) 12 1 1 (by omega)
  have hold := fieldN_add d 12 1 1 (by omega)
  have h1 := fieldN_lt (migratedRecord d core) 12 1
  have h1' := fieldN_lt d 12 1
  norm_num at hnew hold h1 h1'
  obtain rfl | rfl : off = 12 ∨ off = 13 := by omega
  · omega
  · omega

end

/-- A byte is the number that it holds. -/
theorem byteAt_of_leNat {s t : State} {slot : Option Nat} {pa : Nat} (h : leNat (t.bytesAt slot pa 1) = leNat (s.bytesAt slot pa 1)) :
    t.byteAt slot pa = s.byteAt slot pa := by
  have hb (u : State) : leNat (u.bytesAt slot pa 1) = (u.byteAt slot pa).toNat := by
    rw [bytesAt_eq_map]
    simp [leNat]
  rw [hb, hb] at h
  exact BitVec.eq_of_toNat_eq h

theorem onlyWrites_migrated {s : State} {l : Loc} (core : Nat) (hacc : ∀ a ∈ s.accums, a.meets l.pa 64 = false) :
    OnlyWrites s (s.writeLoc l (migratedRecord (s.bytesAt l.slot l.pa 64) core)) l 64 := by
  have hl := length_migratedRecord (State.bytesAt_length s l.slot l.pa 64) (core := core)
  have h := onlyWrites_writeLoc (s := s) (l := l) (data := migratedRecord (s.bytesAt l.slot l.pa 64) core) (by rwa [hl])
  rwa [hl] at h

/-- The bytes of a record that a migration has written. -/
theorem record_migrated (s : State) (l : Loc) {core : Nat} (hc : core < 2 ^ 16) :
    leNat ((s.writeLoc l (migratedRecord (s.bytesAt l.slot l.pa 64) core)).bytesAt l.slot (l.pa + 0x0E) 2) = core ∧
      ∀ off, off < 0x0E ∨ (0x10 ≤ off ∧ off < 64) →
        (s.writeLoc l (migratedRecord (s.bytesAt l.slot l.pa 64) core)).byteAt l.slot (l.pa + off) = s.byteAt l.slot (l.pa + off) := by
  have hd := State.bytesAt_length s l.slot l.pa 64
  have hl := length_migratedRecord hd (core := core)
  refine ⟨(word_writeLoc _ _ (by omega)).trans (halves_migratedRecord hd hc).2, fun off hoff => byteAt_of_leNat ?_⟩
  rw [word_writeLoc _ _ (by omega), byte_migratedRecord hd hc hoff, fieldN_bytesAt _ _ _ (by omega)]

/-! ## The windows that are spilled -/

theorem file_clearWindows (ws : List Nat) (k : Core) : (ws.foldl Core.clearWindow k).file = k.file := by
  induction ws generalizing k with
  | nil => rfl
  | cons w t ih => exact ih (k.clearWindow w)

/-- A window once cleared has no owner, whatever is cleared after it. -/
theorem accOwn_clearWindows {ws : List Nat} {k : Core} {w : Nat} (h : w ∈ ws ∨ k.accOwn.find? w = none) :
    (ws.foldl Core.clearWindow k).accOwn.find? w = none := by
  induction ws generalizing k with
  | nil => exact h.resolve_left (by simp)
  | cons v t ih =>
    refine ih ?_
    change w ∈ t ∨ (k.accOwn.erase v).find? w = none
    by_cases hv : w = v
    · exact Or.inr (hv ▸ AMap.find?_erase_same _ _)
    · rw [AMap.find?_erase_other _ _ _ hv]
      exact h.imp_left fun hm => (List.mem_cons.mp hm).resolve_left hv

/-! ## The event -/

/-- A core frame that has moved to a core, with the windows that its old core spilled (R371). -/
def CoreFrame.movedTo (f : CoreFrame) (old core : Nat) (ws : List Nat) : CoreFrame :=
  { f with spilled := f.spilled ++ ws.map (fun w => (old, w)), fromCore := core }

/-- Whether a migration must wait (R371). -/
def State.cannotMigrate (s : State) (id core : Nat) (p : Peg) (f : CoreFrame) : Bool :=
  !p.pin || !p.psave || core = p.core || !s.idle core || (s.idle p.core && s.eligible id p p.core) ||
    !s.eligible id { p with core := core, coreFrame := some { f with fromCore := core } } core ||
    !((s.baysOf id p).isEmpty || s.bayOf core = s.bayOf p.core) || s.recordHeld p ||
    f.cmds.any (fun c => c.ws.wsem != 255 && !c.wok) || s.elapsed < p.readySince + s.ageOf (p.pool.getD 0)

/-- The machine once a migration has written its record. -/
def State.migrateTo (s2 : State) (id core old : Nat) (l : Loc) (f : CoreFrame) (ws : List Nat) : State :=
  let a := s2.setCore old (ws.foldl Core.clearWindow (s2.core old))
  let r := a.readLoc l 64
  (r.1.writeLoc l (migratedRecord r.2 core)).modPeg id (fun p => { p with core := core, coreFrame := some (f.movedTo old core ws) })

section
variable {s : State} {id core : Nat} {p0 : Peg} {f : CoreFrame} {l : Loc} (hp0 : s.pegs.find? id = some p0)
  (hf : (s.viewed p0).coreFrame = some f) (hgo : s.cannotMigrate id core (s.viewed p0) f = false)
  (hl : s.recordLoc (s.bayOf core) (s.viewed p0) .both = .ok l)
include hp0 hf hgo hl

theorem exec_pegMigration_slotless
    (h : s.spillAll (s.viewed p0).core (s.viewed p0).bent ((s.core (s.viewed p0).core).ownedWindows (s.viewed p0).bent f) = none) :
    exec (.pegMigration id core) s = .next (s.killBent (s.viewed p0).bent 0x0B 0) := by
  change execPegMigration id core s = _
  rw [execPegMigration, hp0]
  dsimp only
  rw [hf]
  refine (if_neg (by rw [← State.cannotMigrate, hgo]; exact Bool.false_ne_true)).trans ?_
  rw [hl]
  dsimp only
  rw [h]

theorem exec_pegMigration_moves {s2 : State}
    (h : s.spillAll (s.viewed p0).core (s.viewed p0).bent ((s.core (s.viewed p0).core).ownedWindows (s.viewed p0).bent f) = some s2) :
    exec (.pegMigration id core) s = .next (s2.migrateTo id core (s.viewed p0).core l f
      ((s.core (s.viewed p0).core).ownedWindows (s.viewed p0).bent f)) := by
  change execPegMigration id core s = _
  rw [execPegMigration, hp0]
  dsimp only
  rw [hf]
  refine (if_neg (by rw [← State.cannotMigrate, hgo]; exact Bool.false_ne_true)).trans ?_
  rw [hl]
  dsimp only
  rw [h]
  rfl

end

/-- What a migration leaves, its windows spilled. -/
theorem migrated {s s2 t : State} (h : Mild s s2) {id core old : Nat} {p0 : Peg} {f : CoreFrame} {l : Loc} {ws : List Nat}
    (hacc : ∀ a ∈ s2.accums, a.meets l.pa 64 = false) (hp0 : s.pegs.find? id = some p0) (hc : core < 2 ^ 16)
    (ht : t = s2.migrateTo id core old l f ws) : RegistersKept s t ∧ OnlyWrites s2 t l 64 ∧
      (∃ met, t.pegs.find? id = some { p0.withMet met with core := core, coreFrame := some (f.movedTo old core ws) }) ∧
      (∀ w ∈ ws, (t.core old).accOwn.find? w = none) ∧ leNat (t.bytesAt l.slot (l.pa + 0x0E) 2) = core ∧
      ∀ off, off < 0x0E ∨ (0x10 ≤ off ∧ off < 64) → t.byteAt l.slot (l.pa + off) = s2.byteAt l.slot (l.pa + off) := by
  subst ht
  unfold State.migrateTo
  extract_lets a r
  have hr : r = (a, a.bytesAt l.slot l.pa 64) := State.readLoc_none a l 64 hacc
  rw [hr]
  have hb : SameBytes s2 a := SameBytes.of_fields rfl rfl rfl rfl
  have hk : RegistersKept s2 a := RegistersKept.setCore s2 (file_clearWindows ws _)
  have hown (w : Nat) (hw : w ∈ ws) : (a.core old).accOwn.find? w = none := by
    rw [State.core_setCore_same]
    exact accOwn_clearWindows (Or.inl hw)
  have honly := onlyWrites_migrated (s := a) core hacc
  have hrec := record_migrated a l hc
  have hw := Stored.writeLoc a l (migratedRecord (a.bytesAt l.slot l.pa 64) core)
  have hp : a.pegs = s2.pegs := rfl
  dsimp only
  generalize a.writeLoc l (migratedRecord (a.bytesAt l.slot l.pa 64) core) = u at honly hrec hw
  clear_value a
  obtain ⟨met, hq⟩ := h.find?_peg hp0
  obtain ⟨met', hq'⟩ := hw.find?_peg (hp ▸ hq)
  obtain ⟨hcore, hbyte⟩ := hrec
  have hu : SameBytes u (u.modPeg id (fun p => { p with core := core, coreFrame := some (f.movedTo old core ws) })) :=
    SameBytes.of_fields rfl rfl rfl rfl
  refine ⟨RegistersKept.trans h.registersKept (RegistersKept.trans hk hw.registersKept), hb.onlyWrites hu honly, ⟨met', ?_⟩, fun w hm => ?_, ?_,
    fun off hoff => ?_⟩
  · exact (AMap.find?_modify_same _ _ _).trans (congrArg _ hq')
  · obtain ⟨_, _, _, e⟩ := hw.core old
    rw [State.core_modPeg, e]
    exact hown w hm
  · rw [hu.bytesAt, hcore]
  · rw [hu, hbyte off hoff, hb]

/-- R371: migration. -/
theorem migratesPegs : MigratesPegs := by
  intro s id core p0 f l hp0 p hf hpin hps hne hlt hidle hold hnew hbay hheld hcmds hage hl ws
  have hgo : s.cannotMigrate id core p f = false := by
    have h1 : (s.idle p.core && s.eligible id p p.core) = false := by
      cases h : s.idle p.core with
      | false => rfl
      | true => rw [hold h]; rfl
    have h2 : ((s.baysOf id p).isEmpty || decide (s.bayOf core = s.bayOf p.core)) = true := by
      rcases hbay with h | h
      · rw [h]; rfl
      · rw [decide_eq_true h, Bool.or_true]
    have h3 : f.cmds.any (fun c => c.ws.wsem != 255 && !c.wok) = false := by
      refine List.any_eq_false.mpr fun c hc => ?_
      rcases hcmds c hc with h | h
      · simp [h]
      · simp [h]
    have h4 : decide (s.elapsed < p.readySince + s.ageOf (p.pool.getD 0)) = false := decide_eq_false (by omega)
    rw [State.cannotMigrate, hnew]
    simp only [hpin, hps, decide_eq_false hne, hidle, h1, h2, hheld, h3, h4, Bool.not_true, Bool.or_self]
  refine ⟨fun h => ⟨_, exec_pegMigration_slotless hp0 hf hgo hl h, (Mild.refl s).killed rfl _ _ _⟩, fun s2 h hacc => ?_⟩
  have hx := exec_pegMigration_moves hp0 hf hgo hl h
  obtain ⟨hregs, honly, ⟨met, hq⟩, hown, hcore, hbyte⟩ := migrated (Mild.of_spillAll h) (old := p.core) (f := f) (ws := ws) hacc hp0 hlt rfl
  exact ⟨_, _, _, hx, hregs, honly, hq, rfl, rfl, rfl, rfl, rfl, rfl, rfl, rfl, rfl, rfl, hown, hcore, hbyte⟩

/-- Settles O49: the request by the best of those that yield; the freeze by what stops a context; the save and the migration by what each leaves of the
record, the core, the peg and the bent. -/
theorem pegsArePreempted : Obligations.PegsArePreempted := ⟨requestsPreemption, freezesContexts, completesPreemption, migratesPegs⟩

end Sys2Proof.Machine
end

section
/-! O15. A location reads as it was written (R70, R84, R85, R282). -/

namespace Sys2Proof.Machine
open Sys2Proof Sys2Proof.Claims

/-- Settles O15, by the laws of a write at home: what was written, the bytes outside it under its key, and the units outside it under any key. -/
theorem writeThenRead : Obligations.WriteThenRead := fun s l data =>
  ⟨State.readLoc_writeLoc s l data, State.byteAt_writeLoc_outside s l data, State.byteAt_writeLoc_unit s l data⟩

end Sys2Proof.Machine
end

section
/-! O46. One level of a walk (R73 to R76). -/

namespace Sys2Proof.Machine
open Sys2Proof Sys2Proof.Claims

/-! ## The fields of an entry as parts of its number -/

theorem pteBit_eq (e : BitVec 64) (i : Nat) : pteBit e i = decide (e.toNat / 2 ^ i % 2 = 1) := by
  rw [pteBit, BitVec.getLsbD, Nat.testBit_eq_decide_div_mod_eq]

theorem toNat_field (e : BitVec 64) (lo w : Nat) : (e.extractLsb' lo w).toNat = e.toNat / 2 ^ lo % 2 ^ w := by
  rw [BitVec.extractLsb'_toNat, Nat.shiftRight_eq_div_pow]

theorem ptePa_eq (e : BitVec 64) : ptePa e = e.toNat % 2 ^ 52 / 2 ^ 12 * 2 ^ 12 := by
  rw [ptePa, toNat_field]
  omega

theorem pteKey_eq (e : BitVec 64) : pteKey e = e.toNat / 2 ^ 52 % 2 ^ 8 := toNat_field e 52 8

theorem pteCp_eq (e : BitVec 64) : pteCp e = e.toNat / 2 ^ 8 % 4 := toNat_field e 8 2

/-- A field of an entry is set when its number is not 0. -/
theorem field_ne_zero (e : BitVec 64) (lo w : Nat) : (e.extractLsb' lo w != 0) = decide (e.toNat / 2 ^ lo % 2 ^ w ≠ 0) := by
  rw [← toNat_field, Bool.eq_iff_iff, bne_iff_ne, decide_eq_true_eq, ne_eq, ne_eq, ← BitVec.toNat_inj]
  rfl

/-- The walker refuses the malformed entries (R74, R75). -/
theorem badEntry_iff (e : BitVec 64) (sh : Nat) : badEntry e sh = true ↔ Malformed e sh := by
  have hn := e.isLt
  have hv : ¬ e.toNat / 2 ^ 0 % 2 = 1 ↔ e.toNat % 2 = 0 := by omega
  have hr : e.toNat / 2 ^ 60 % 2 ^ 4 ≠ 0 ↔ 2 ^ 60 ≤ e.toNat := by omega
  unfold badEntry Malformed
  simp only [pteBit_eq, field_ne_zero, ptePa_eq, pteKey_eq, pteCp_eq, Bool.or_eq_true, Bool.not_eq_true', decide_eq_false_iff_not,
    decide_eq_true_eq, hv, hr, or_assoc]
  by_cases hp : e.toNat / 2 ^ 4 % 2 = 1
  · simp only [hp, if_true, Bool.or_eq_true, decide_eq_true_eq, bne_iff_ne, or_assoc]
  · simp only [hp, if_false, Bool.or_eq_true, Bool.and_eq_true, decide_eq_true_eq, or_assoc]

/-- What a walk does at one of its levels (R73, R75). -/
theorem walkFrom_cons (s : State) (root va sh w table : Nat) (rest : List (Nat × Nat)) :
    s.walkFrom root va ((sh, w) :: rest) table =
      let at_ := table + 8 * (va / 2 ^ sh % 2 ^ w)
      if s.absent at_ then .stop 0x06 (3 - rest.length)
      else if s.poisoned (s.home at_) 8 then .stop 0x1B (3 - rest.length)
      else if badEntry (s.pte at_) sh then .stop 0x06 (3 - rest.length)
      else if pteBit (s.pte at_) 4 then s.walkFrom root va rest (ptePa (s.pte at_))
      else if s.absent (ptePa (s.pte at_)) then .stop 0x06 (3 - rest.length)
      else .page (tlbOf root va (s.pte at_) sh) := rfl

theorem walksTables : WalksTables := by
  intro s root va sh w table rest at_ e n pa walk level size
  have hw : walk = _ := walkFrom_cons s root va sh w table rest
  have hpa : ptePa e = pa := ptePa_eq e
  have hptr : pteBit e 4 = decide (n / 2 ^ 4 % 2 = 1) := pteBit_eq e 4
  have hgroup : pteBit e 5 = decide (n / 2 ^ 5 % 2 = 1) := pteBit_eq e 5
  change walk = if s.absent at_ then _ else if s.poisoned (s.home at_) 8 then _ else if badEntry e sh then _ else
    if pteBit e 4 then s.walkFrom root va rest (ptePa e) else if s.absent (ptePa e) then _ else .page (tlbOf root va e sh) at hw
  rw [hpa, hptr] at hw
  have hleaf (h4 : n / 2 ^ 4 % 2 = 0) : ¬ decide (n / 2 ^ 4 % 2 = 1) = true := by rw [decide_eq_true_eq, h4]; decide
  have good (h : ¬ Malformed e sh) : ¬ badEntry e sh = true := fun h' => h ((badEntry_iff e sh).mp h')
  refine ⟨fun ha => ?_, fun ha hp => ?_, fun ha hp => ⟨fun hm => ?_, fun hm h4 => ?_, fun hm h4 hx => ?_, fun hm h4 hx => ?_⟩⟩
  · rw [hw, if_pos ha]
  · rw [hw, if_neg (by simp [ha]), if_pos hp]
  all_goals rw [hw, if_neg (by simp [ha]), if_neg (by simp [hp])]
  · rw [if_pos ((badEntry_iff e sh).mpr hm)]
  · rw [if_neg (good hm), if_pos (decide_eq_true h4)]
  · rw [if_neg (good hm), if_neg (hleaf h4), if_pos hx]
  · rw [if_neg (good hm), if_neg (hleaf h4), if_neg (by simp [hx]), tlbOf, hgroup]
    simp only [decide_eq_true_eq]
    rfl

end Sys2Proof.Machine
end

section
/-! O46. PAGE_WALK: walks that begin, and the translations that they install (R73, R104, R105). -/

namespace Sys2Proof.Machine
open Sys2Proof Sys2Proof.Claims

/-! ## A translation that enters a TLB -/

/-- Window lines that leave a bay change nothing of it but its L2 slice. -/
theorem bay_dropStale (s : State) (bay : Nat) (ts : List TlbEntry) :
    (∃ l2, (s.dropStale bay ts).bay bay = { s.bay bay with l2 := l2 }) ∧ ∀ c, c ≠ bay → (s.dropStale bay ts).bay c = s.bay c := by
  unfold State.dropStale
  extract_lets y u
  change (∃ l2, u.bay bay = _) ∧ ∀ c, c ≠ bay → u.bay c = s.bay c
  unfold u
  split
  · exact ⟨⟨_, State.bay_setBay_same s bay _⟩, fun c hc => State.bay_setBay_other s bay c _ hc⟩
  · exact ⟨⟨_, rfl⟩, fun _ _ => rfl⟩

/-- A translation that enters a bay's TLB comes first in it; the oldest ones make room (R104). -/
theorem bay_enterTlb (s : State) (bay : Nat) (t : TlbEntry) :
    (∃ l2, (s.enterTlb bay t).bay bay = { s.bay bay with l2 := l2, tlb := (t :: (s.bay bay).tlb).take 4096 }) ∧
      ∀ c, c ≠ bay → (s.enterTlb bay t).bay c = s.bay c := by
  unfold State.enterTlb
  extract_lets old gone u y
  have hu : (∃ l2, y = { s.bay bay with l2 := l2 }) ∧ ∀ c, c ≠ bay → u.bay c = s.bay c := by
    unfold y u
    split
    · exact ⟨⟨_, rfl⟩, fun _ _ => rfl⟩
    · exact bay_dropStale s bay gone
  obtain ⟨⟨l2, hy⟩, ho⟩ := hu
  refine ⟨⟨l2, ?_⟩, fun c hc => (State.bay_setBay_other u bay c _ hc).trans (ho c hc)⟩
  rw [State.bay_setBay_same, hy]
  rfl

/-! ## The walk of a page -/

/-- Whether a walk is that of a page of a tree. -/
def Walk.isOf (root va : Nat) (w : Walk) : Bool := decide (w.root = root) && decide (w.page = va / 4096)

theorem Walk.isOf_iff {root va : Nat} {w : Walk} : w.isOf root va = true ↔ w.root = root ∧ w.page = va / 4096 := by
  simp [Walk.isOf]

theorem any_covers_iff {ts : List TlbEntry} {root va : Nat} :
    ts.any (fun t => t.covers root va) = true ↔ ¬ ∀ t ∈ ts, ¬ (t.root = root ∧ t.base ≤ va ∧ va < t.base + t.size) := by
  simp [TlbEntry.covers, and_assoc]

/-- An address below 2⁵⁶ passes the walker's check of its upper bits. -/
theorem high_bits_zero {va : Word} (h : va.toNat < 2 ^ 56) : ¬ va.extractLsb' 56 8 ≠ 0 := by
  rw [not_not, ← BitVec.toNat_inj, toNat_field]
  change va.toNat / 2 ^ 56 % 2 ^ 8 = 0
  omega

/-- What PAGE_WALK comes to for an address below 2⁵⁶ (R104, R105). -/
theorem exec_pageWalk (s : State) (bay b : Nat) {va : Word} (h : va.toNat < 2 ^ 56) :
    exec (.pageWalk bay b va) s =
      match (s.bay bay).walks.find? (Walk.isOf (s.root b) va.toNat) with
      | some w =>
        let u := s.setBay bay { s.bay bay with walks := (s.bay bay).walks.filter (fun v => !v.isOf (s.root b) va.toNat) }
        (match w.result with
        | .page t => if (s.bay bay).tlb.any (fun t => t.covers (s.root b) va.toNat) then .next u else .next (u.enterTlb bay t)
        | .stop _ _ => .next u)
      | none =>
        if walkers ≤ (s.bay bay).walks.length || (s.bay bay).tlb.any (fun t => t.covers (s.root b) va.toNat) then .next s
        else .next (s.setBay bay { s.bay bay with
          walks := (s.bay bay).walks ++ [⟨s.root b, va.toNat / 4096, s.walk (s.root b) va.toNat⟩] }) := by
  change (if va.extractLsb' 56 8 ≠ 0 then s.stay else _) = _
  rw [if_neg (high_bits_zero h)]
  rfl

/-- The walk that ends is the one of its page, and the others stay. -/
theorem find?_and_filter_of_split {α : Type} {p : α → Bool} {pre post : List α} {w : α} (hw : p w = true)
    (ho : ∀ v ∈ pre ++ post, p v = false) :
    (pre ++ w :: post).find? p = some w ∧ (pre ++ w :: post).filter (fun v => !p v) = pre ++ post := by
  have hpre : ∀ v ∈ pre, p v = false := fun v hv => ho v (List.mem_append_left _ hv)
  have hkeep {l : List α} (h : ∀ v ∈ l, p v = false) : l.filter (fun v => !p v) = l := List.filter_eq_self.mpr fun v hv => by simp [h v hv]
  constructor
  · rw [List.find?_append, List.find?_eq_none.mpr fun v hv => by simp [hpre v hv], Option.none_or, List.find?_cons_of_pos hw]
  · rw [List.filter_append, List.filter_cons_of_neg (by simp [hw]), hkeep hpre, hkeep fun v hv => ho v (List.mem_append_right _ hv)]

/-- The end of a walk that has found a translation or none, in a bay whose other walks go on. -/
theorem exec_pageWalk_ends {s : State} {bay b : Nat} {va : Word} (h : va.toNat < 2 ^ 56) {pre post : List Walk} {w : Walk}
    (hy : (s.bay bay).walks = pre ++ w :: post) (hw : w.isOf (s.root b) va.toNat = true)
    (ho : ∀ v ∈ pre ++ post, v.isOf (s.root b) va.toNat = false) :
    exec (.pageWalk bay b va) s =
      let u := s.setBay bay { s.bay bay with walks := pre ++ post }
      match w.result with
      | .page t => if (s.bay bay).tlb.any (fun t => t.covers (s.root b) va.toNat) then .next u else .next (u.enterTlb bay t)
      | .stop _ _ => .next u := by
  obtain ⟨hf, hk⟩ := find?_and_filter_of_split hw ho
  rw [← hy] at hf hk
  rw [exec_pageWalk s bay b h, hf]
  dsimp only
  rw [hk]

theorem installsTranslations : InstallsTranslations := by
  intro s bay b va hva y root mine missed
  have isOf_false {v : Walk} (h : ¬ mine v) : v.isOf root va.toNat = false := Bool.eq_false_iff.mpr fun h' => h (Walk.isOf_iff.mp h')
  have none_mine (h : ∀ w ∈ y.walks, ¬ mine w) : y.walks.find? (Walk.isOf root va.toNat) = none :=
    List.find?_eq_none.mpr fun w hw => by simp [isOf_false (h w hw)]
  have hcov : y.tlb.any (fun t => t.covers root va.toNat) = true ↔ ¬ missed := any_covers_iff
  refine ⟨fun r hr hm hmiss hlen => ?_, fun hm hbusy => ?_, fun pre w post hy hw ho => ?_⟩
  · rw [exec_pageWalk s bay b hva, none_mine hm]
    have hfree : ¬ (decide (walkers ≤ y.walks.length) || y.tlb.any (fun t => t.covers root va.toNat)) = true := by
      rw [Bool.or_eq_true, decide_eq_true_eq, hcov]
      exact fun h => h.elim (Nat.not_le.mpr hlen) (· hmiss)
    have hwalk : s.walk root va.toNat = s.walkFrom root va.toNat walkLevels r.ptroot := by rw [State.walk, hr]
    dsimp only
    rw [if_neg hfree, hwalk]
    rfl
  · rw [exec_pageWalk s bay b hva, none_mine hm]
    refine if_pos ?_
    rw [Bool.or_eq_true, decide_eq_true_eq, hcov]
    exact hbusy
  · have hx := exec_pageWalk_ends hva hy (Walk.isOf_iff.mpr hw) (fun v hv => isOf_false (ho v hv))
    have hb : (s.setBay bay { y with walks := pre ++ post }).bay bay = { y with walks := pre ++ post } := State.bay_setBay_same s bay _
    have hbo (c : Nat) (hc : c ≠ bay) : (s.setBay bay { y with walks := pre ++ post }).bay c = s.bay c := State.bay_setBay_other s bay c _ hc
    cases hr : w.result with
    | stop c l =>
      rw [hr] at hx
      exact ⟨_, hx, RegistersKept.refl s, rfl, hbo, by rw [hb], by rintro _ ⟨⟩, fun _ _ _ => hb⟩
    | page t =>
      rw [hr] at hx
      dsimp only at hx
      by_cases hh : y.tlb.any (fun t => t.covers root va.toNat) = true
      · rw [if_pos hh] at hx
        exact ⟨_, hx, RegistersKept.refl s, rfl, hbo, by rw [hb], fun _ _ hmiss => absurd hmiss (hcov.mp hh), by rintro _ _ ⟨⟩⟩
      · rw [if_neg hh] at hx
        obtain ⟨⟨l2, he⟩, heo⟩ := bay_enterTlb (s.setBay bay { y with walks := pre ++ post }) bay t
        rw [hb] at he
        have hserved := (Served.setBay s bay { y with walks := pre ++ post }).trans (Served.enterTlb _ bay t)
        refine ⟨_, hx, hserved.stored.registersKept, hserved.mem, fun c hc => (heo c hc).trans (hbo c hc), by rw [he], ?_, by rintro _ _ ⟨⟩⟩
        rintro e ⟨⟩ -
        rw [he]

end Sys2Proof.Machine
end

section
/-! SUPPORT for O46. Places of a list, deferred traps, and what a write at home leaves of the queues of accesses. -/

namespace Sys2Proof.Machine
open Sys2Proof Sys2Proof.Claims

theorem dropNth_eq_eraseIdx {α : Type} (l : List α) (i : Nat) : dropNth l i = l.eraseIdx i := by
  induction l generalizing i with
  | nil => rfl
  | cons a t ih => cases i with
    | zero => rfl
    | succ i => exact congrArg (a :: ·) (ih i)

theorem setNth_eq_set {α : Type} (l : List α) (i : Nat) (x : α) : setNth l i x = l.set i x := by
  induction l generalizing i with
  | nil => rfl
  | cons a t ih => cases i with
    | zero => rfl
    | succ i => exact congrArg (a :: ·) (ih i)

/-- The machine with another list of pending accesses. -/
def State.withPending (s : State) (q : List Access) : State := { s with pending := q }

/-- The machine with another list of accepted merges. -/
def State.withMerges (s : State) (q : List Merge) : State := { s with merges := q }

theorem SameBytes.withPending (s : State) (q : List Access) : SameBytes s (s.withPending q) := SameBytes.of_fields rfl rfl rfl rfl

theorem SameBytes.withMerges (s : State) (q : List Merge) : SameBytes s (s.withMerges q) := SameBytes.of_fields rfl rfl rfl rfl

/-- The first deferred trap of an access of a peg becomes pending (R434). -/
theorem deferTrap_withPending {s : State} {a : Access} {id : Nat} {p : Peg} (hag : a.agent = .peg id) (hp : s.pegs.find? id = some p)
    (hnew : ∀ u ∈ p.pending, ¬ (u.deferred = true ∧ u.rank = a.no)) (q : List Access) (code : Nat) :
    (s.withPending q).deferTrap a code = { s with pending := q, pegs := pegsWith s id p (dataTrap a code) } := by
  have hp' : (s.withPending q).pegs.find? id = some p := hp
  have hn : p.pending.any (fun t => t.deferred && decide (t.rank = a.no)) = false :=
    List.any_eq_false.mpr fun u hu => by simpa using hnew u hu
  simp only [State.deferTrap, hag, hp', hn, Bool.false_eq_true, if_false, State.pend, State.modPeg, AMap.modify]
  rfl

/-- A write at home leaves the queues of accesses and merges alone. -/
theorem writeLoc_queues (s : State) (l : Loc) (data : List Byte) :
    (s.writeLoc l data).pending = s.pending ∧ (s.writeLoc l data).merges = s.merges := by
  obtain ⟨m, k, hc⟩ := State.closeAccums_eq s l.pa data.length
  obtain ⟨bays, hd⟩ := State.dropLines_eq (s.closeAccums l.pa data.length) l.pa data.length
  obtain ⟨m', k', hp⟩ := State.putBytes_eq ((s.closeAccums l.pa data.length).dropLines l.pa data.length) l.slot l.pa data
  change (((s.closeAccums l.pa data.length).dropLines l.pa data.length).putBytes l.slot l.pa data).pending = _ ∧
    (((s.closeAccums l.pa data.length).dropLines l.pa data.length).putBytes l.slot l.pa data).merges = _
  rw [hp, hd, hc]
  exact ⟨rfl, rfl⟩

/-- The number that bytes of a length hold, once written. -/
theorem leNat_writeLoc (s : State) (l : Loc) (n v : Nat) :
    leNat ((s.writeLoc l (leBytes n v)).bytesAt l.slot l.pa n) = v % 2 ^ (8 * n) := by
  have h := bytesAt_writeLoc s l (leBytes n v)
  rw [leBytes_length] at h
  rw [h, Machine.leNat_leBytes, Nat.pow_mul]

theorem onlyWrites_writeLoc_leBytes {s : State} {l : Loc} {n : Nat} (v : Nat) (hacc : ∀ x ∈ s.accums, x.meets l.pa n = false) :
    OnlyWrites s (s.writeLoc l (leBytes n v)) l n := by
  have h := onlyWrites_writeLoc (s := s) (l := l) (data := leBytes n v) (by rwa [leBytes_length])
  rwa [leBytes_length] at h

theorem OnlyWrites.of_sameBytes {s t : State} (h : SameBytes s t) (l : Loc) (n : Nat) : OnlyWrites s t l n :=
  ⟨fun pa _ => h l.slot pa, fun slot pa _ => h slot pa⟩

end Sys2Proof.Machine
end

section
/-! O46. FABRIC_ERROR_ANSWER and FABRIC_TIMEOUT (R403, R434). -/

namespace Sys2Proof.Machine
open Sys2Proof Sys2Proof.Claims

/-- A refused access of a peg that still waits for its answer takes its trap. -/
theorem exec_fabricErrorAnswer {s : State} {i : Nat} {a : Access} (hi : s.pending[i]? = some a)
    (hr : s.answer a.loc.pa a.size = .refused) (hlost : a.lost = false) :
    exec (.fabricErrorAnswer i) s = .next ((s.withPending (s.pending.eraseIdx i)).deferTrap a 0x1C) := by
  change execFabricErrorAnswer i s = _
  simp only [execFabricErrorAnswer, nth?_eq_getElem?, hi, hr, hlost, dropNth_eq_eraseIdx]
  rfl

/-- An access that has had no answer for 100 µs takes its trap. -/
theorem exec_fabricTimeout {s : State} {i : Nat} {a : Access} (hi : s.pending[i]? = some a)
    (hsilent : s.answer a.loc.pa a.size = .silent) (hlong : a.sent + 100000 ≤ s.elapsed) (hlost : a.lost = false) :
    exec (.fabricTimeout i) s = .next ((s.withPending
      (if a.kind.isRead then s.pending.eraseIdx i else s.pending.set i { a with lost := true })).deferTrap a 0x1C) := by
  have hlate : decide (s.elapsed < a.sent + 100000) = false := decide_eq_false (by omega)
  change execFabricTimeout i s = _
  simp only [execFabricTimeout, nth?_eq_getElem?, hi, hsilent, hlost, hlate, dropNth_eq_eraseIdx, setNth_eq_set]
  rfl

theorem failsPendingAccesses : FailsPendingAccesses := by
  intro s i id a p hi hag hp hlost hnew
  refine ⟨fun hr => ?_, fun hsilent hlong => ?_⟩
  · rw [exec_fabricErrorAnswer hi hr hlost, deferTrap_withPending hag hp hnew]
  · rw [exec_fabricTimeout hi hsilent hlong hlost, deferTrap_withPending hag hp hnew]

end Sys2Proof.Machine
end

section
/-! O46. HOME_ACCESS (R281, R282, R426, R434). -/

namespace Sys2Proof.Machine
open Sys2Proof Sys2Proof.Claims

/-- A pending access that can meet its home leaves the list and performs. -/
theorem exec_homeAccess {s : State} {i : Nat} {a : Access} (hi : s.pending[i]? = some a) (hc : s.canPerform a = true)
    (hhere : s.answer a.loc.pa a.size = .here) :
    exec (.homeAccess i .ok) s = .next ((s.withPending (s.pending.eraseIdx i)).performHere a) := by
  have hu : ({ s with pending := s.pending.eraseIdx i } : State).answer a.loc.pa a.size = .here := hhere
  change execHomeAccess i .ok s = _
  simp only [execHomeAccess, nth?_eq_getElem?, hi, hc, hhere, dropNth_eq_eraseIdx, State.ecc, State.perform, hu]
  rfl

section
variable {u : State} {a : Access}

/-! ## Stores and loads -/

/-- What a store leaves at home. -/
theorem performHere_store {data : List Byte} (hk : a.kind = .store data) (hlen : data.length = a.size)
    (hacc : ∀ x ∈ u.accums, x.meets a.loc.pa a.size = false) :
    (u.performHere a).pending = u.pending ∧ (u.performHere a).bytesAt a.loc.slot a.loc.pa a.size = data ∧
      OnlyWrites u (u.performHere a) a.loc a.size ∧ RegistersKept u (u.performHere a) := by
  have hserved := Served.cacheLines (u.writeLoc a.loc data) (u.bayOf a.core) a.loc a.size
  have hp : u.performHere a = (u.writeLoc a.loc data).cacheLines (u.bayOf a.core) a.loc a.size := by rw [State.performHere, hk]
  rw [hp]
  refine ⟨?_, ?_, ?_, ((Stored.writeLoc u a.loc data).trans hserved.stored).registersKept⟩
  · refine Eq.trans ?_ (writeLoc_queues u a.loc data).1
    obtain ⟨_, _, _, h⟩ := hserved.frame
    rw [h]
  · rw [hserved.sameBytes.bytesAt, ← hlen, bytesAt_writeLoc]
  · refine SameBytes.onlyWrites (SameBytes.refl u) hserved.sameBytes ?_
    rw [← hlen] at hacc ⊢
    exact onlyWrites_writeLoc hacc

/-- A location that no window line serves is read at its home. -/
theorem isStale_eq_false (hplain : a.loc.cp ≠ 2 ∨ u.remote? a.loc.pa = none) : u.isStale a.loc = false := by
  unfold State.isStale
  rcases hplain with h | h
  · simp [h]
  · simp [h]

/-- A read through a bay, of a location that no window line serves and no accumulator holds, receives the bytes that meet the bay (R96). -/
theorem fetchLoc_eq_meetsBytes (core : Option Nat) (bay : Nat) (hplain : a.loc.cp ≠ 2 ∨ u.remote? a.loc.pa = none)
    (hacc : ∀ x ∈ u.accums, x.meets a.loc.pa a.size = false) :
    u.fetchLoc core bay a.loc a.size = (u, meetsBytes u bay a.loc a.size) := by
  rw [State.fetchLoc, isStale_eq_false hplain]
  simp only [State.closeAccums_none u _ _ hacc, meetsBytes, Bool.false_eq_true, if_false]
  split
  · next hs => simp only [seenSlot_eq_slot hs, bytesAt_eq_map]
  · rw [range_eq_rangeFrom, List.map_map]
    rfl

theorem readPoisoned_eq_poisoned (core : Option Nat) (bay : Nat) (hplain : a.loc.cp ≠ 2 ∨ u.remote? a.loc.pa = none) :
    u.readPoisoned core bay a.loc a.size = u.poisoned a.loc.pa a.size := by
  rw [State.readPoisoned, isStale_eq_false hplain]
  rfl

/-- What a load gives its core. -/
theorem performHere_load {d : LoadDest} (hk : a.kind = .load d) (hbad : u.poisoned a.loc.pa a.size = false)
    (hplain : a.loc.cp ≠ 2 ∨ u.remote? a.loc.pa = none) (hlost : a.lost = false)
    (hacc : ∀ x ∈ u.accums, x.meets a.loc.pa a.size = false) :
    u.performHere a = u.setCore a.core ((u.core a.core).putLoad d (leNat (meetsBytes u (u.bayOf a.core) a.loc a.size))) := by
  rw [State.performHere, hk]
  simp only [readPoisoned_eq_poisoned _ _ hplain, hbad, fetchLoc_eq_meetsBytes _ _ hplain hacc, hlost]
  rfl

/-! ## Atomics -/

/-- What a load or an atomic writes depends on the registers alone. -/
theorem SameRegs.putLoad {k q : Core} (h : SameRegs k q) (d : LoadDest) (n : Nat) :
    (q.putLoad d n).x = (k.putLoad d n).x ∧ (q.putLoad d n).f = (k.putLoad d n).f := by
  obtain ⟨dc, asked, spin, rfl⟩ := h
  have hput (k : Core) (r : RegNo) (v : Word) :
      (k.putX r v).x = (if r = 0 then k.x else k.x.set r.toNat v r.isLt) ∧ (k.putX r v).f = k.f := by
    unfold Core.putX
    split <;> exact ⟨rfl, rfl⟩
  cases d with
  | none => exact ⟨rfl, rfl⟩
  | x r w sg => simp [Core.putLoad, hput]
  | f r w => simp [Core.putLoad, Core.putF]
  | pair r => simp [Core.putLoad, hput]

/-- What an atomic leaves that gives its core the old value once it has left `v` at home. -/
theorem atomic_leaves {v : State} (hv : Stored u v) (hp : v.pending = u.pending) {l : Loc} {n : Nat} (hw : OnlyWrites u v l n) (c : Nat)
    (d : LoadDest) (old : Nat) :
    let t := v.setCore c ((v.core c).putLoad d old)
    t.pending = u.pending ∧ t.bytesAt l.slot l.pa n = v.bytesAt l.slot l.pa n ∧ OnlyWrites u t l n ∧
      (t.core c).x = ((u.core c).putLoad d old).x ∧ (t.core c).f = ((u.core c).putLoad d old).f := by
  have hb : SameBytes v (v.setCore c ((v.core c).putLoad d old)) := SameBytes.of_fields rfl rfl rfl rfl
  refine ⟨hp, hb.bytesAt _ _ _, SameBytes.onlyWrites (SameBytes.refl u) hb hw, ?_⟩
  rw [State.core_setCore_same]
  exact (hv.core c).putLoad d old

/-- An atomic at home: its old value with the operand's in memory, the old one in its core (R147). -/
theorem performHere_amo {op : MergeOp} {b : Word} {d : LoadDest} (hk : a.kind = .amo op b d) (hbad : u.poisoned a.loc.pa a.size = false)
    (hlost : a.lost = false) (hacc : ∀ x ∈ u.accums, x.meets a.loc.pa a.size = false) :
    let old := leNat (u.bytesAt a.loc.slot a.loc.pa a.size)
    let v := u.writeLoc a.loc (leBytes a.size (aop op a.size old b.toNat))
    u.performHere a = v.setCore a.core ((v.core a.core).putLoad d old) := by
  rw [State.performHere, hk]
  simp only [hbad, State.readLoc_none u _ _ hacc, hlost]
  rfl

/-- What a compare-and-swap leaves at home before its core has the old value (R148). -/
def State.swapped (u : State) (a : Access) (e n : Word) : State :=
  if leNat (u.bytesAt a.loc.slot a.loc.pa a.size) = e.toNat % 2 ^ (8 * a.size) then u.writeLoc a.loc (leBytes a.size n.toNat)
  else u.dropLines a.loc.pa a.size

theorem performHere_cas {e n : Word} {d : LoadDest} (hk : a.kind = .cas e n d) (hbad : u.poisoned a.loc.pa a.size = false)
    (hlost : a.lost = false) (hacc : ∀ x ∈ u.accums, x.meets a.loc.pa a.size = false) :
    u.performHere a = (u.swapped a e n).setCore a.core
      (((u.swapped a e n).core a.core).putLoad d (leNat (u.bytesAt a.loc.slot a.loc.pa a.size))) := by
  rw [State.performHere, hk]
  simp only [hbad, State.readLoc_none u _ _ hacc, hlost]
  rfl

theorem Stored.dropLines (s : State) (pa n : Nat) : Stored s (s.dropLines pa n) := by
  obtain ⟨bays, h⟩ := State.dropLines_eq s pa n
  rw [h]
  exact Stored.of_fields rfl rfl rfl rfl rfl rfl rfl rfl

/-- A compare-and-swap writes only where the old value is the expected one. -/
theorem swapped_leaves (e n : Word) (hacc : ∀ x ∈ u.accums, x.meets a.loc.pa a.size = false) :
    Stored u (u.swapped a e n) ∧ (u.swapped a e n).pending = u.pending ∧ OnlyWrites u (u.swapped a e n) a.loc a.size ∧
      leNat ((u.swapped a e n).bytesAt a.loc.slot a.loc.pa a.size) =
        if leNat (u.bytesAt a.loc.slot a.loc.pa a.size) = e.toNat % 2 ^ (8 * a.size) then n.toNat % 2 ^ (8 * a.size)
        else leNat (u.bytesAt a.loc.slot a.loc.pa a.size) := by
  unfold State.swapped
  split
  · exact ⟨Stored.writeLoc u _ _, (writeLoc_queues u _ _).1, onlyWrites_writeLoc_leBytes _ hacc, leNat_writeLoc u _ _ _⟩
  · have hb : SameBytes u (u.dropLines a.loc.pa a.size) := State.dropLines_byteAt u _ _
    refine ⟨Stored.dropLines u _ _, ?_, OnlyWrites.of_sameBytes hb _ _, by rw [hb.bytesAt]⟩
    obtain ⟨bays, h⟩ := State.dropLines_eq u a.loc.pa a.size
    rw [h]

/-! ## Poison -/

/-- An access that reads a poisoned unit becomes a deferred trap (R426, R434). -/
theorem performHere_poisoned (hbad : u.poisoned a.loc.pa a.size = true) (hplain : a.loc.cp ≠ 2 ∨ u.remote? a.loc.pa = none)
    (hw : a.kind.isWrite = false) (hlost : a.lost = false) : u.performHere a = u.deferTrap a 0x1B := by
  unfold State.performHere
  cases hk : a.kind with
  | load d =>
    simp only [readPoisoned_eq_poisoned _ _ hplain, hbad]
    rfl
  | store data =>
    rw [hk] at hw
    cases hw
  | amo op b d =>
    simp only [hbad, hlost]
    rfl
  | cas e n d =>
    simp only [hbad, hlost]
    rfl

end

theorem performsPendingAccesses : PerformsPendingAccesses := by
  intro s i a hi hc hhere hacc rest old bad plain loaded
  have hx : exec (.homeAccess i .ok) s = .next ((s.withPending rest).performHere a) := exec_homeAccess hi hc hhere
  have hs := SameBytes.withPending s rest
  have hold : leNat ((s.withPending rest).bytesAt a.loc.slot a.loc.pa a.size) = old := congrArg leNat (hs.bytesAt _ _ _)
  have honly {t : State} (h : OnlyWrites (s.withPending rest) t a.loc a.size) : OnlyWrites s t a.loc a.size :=
    hs.onlyWrites (SameBytes.refl t) h
  refine ⟨fun data hk hlen => ?_, fun d hk hbad hplain hlost => ?_, fun op b d hk hbad hlost => ?_, fun e n d hk hbad hlost => ?_,
    fun id p hag hp hbad hplain hw hlost hnew => ?_⟩
  · obtain ⟨hpend, hbytes, hw, hregs⟩ := performHere_store (u := s.withPending rest) hk hlen hacc
    exact ⟨_, hx, hpend, hbytes, honly hw, hregs⟩
  · rw [hx, performHere_load (u := s.withPending rest) hk hbad hplain hlost hacc]
    rfl
  · rw [performHere_amo (u := s.withPending rest) hk hbad hlost hacc] at hx
    obtain ⟨hpend, hbytes, hw, hload⟩ := atomic_leaves (Stored.writeLoc (s.withPending rest) a.loc _) (writeLoc_queues _ _ _).1
      (onlyWrites_writeLoc_leBytes (aop op a.size (leNat ((s.withPending rest).bytesAt a.loc.slot a.loc.pa a.size)) b.toNat) hacc)
      a.core d (leNat ((s.withPending rest).bytesAt a.loc.slot a.loc.pa a.size))
    refine ⟨_, hx, hpend, ?_, honly hw, ?_⟩
    · rw [hbytes, leNat_writeLoc, hold]
    · rw [hold] at hload ⊢
      exact hload
  · rw [performHere_cas (u := s.withPending rest) hk hbad hlost hacc] at hx
    obtain ⟨hstored, hpend, hw, hval⟩ := swapped_leaves (u := s.withPending rest) e n hacc
    obtain ⟨hpend, hbytes, hw, hload⟩ := atomic_leaves hstored hpend hw a.core d
      (leNat ((s.withPending rest).bytesAt a.loc.slot a.loc.pa a.size))
    refine ⟨_, hx, hpend, ?_, honly hw, ?_⟩
    · rw [hbytes, hval, hold]
    · rw [hold] at hload ⊢
      exact hload
  · rw [hx, performHere_poisoned (u := s.withPending rest) hbad hplain hw hlost, deferTrap_withPending hag hp hnew]

end Sys2Proof.Machine
end

section
/-! O46. MERGE_AT_HOME (R70, R147, R289, R405). -/

namespace Sys2Proof.Machine
open Sys2Proof Sys2Proof.Claims

/-- An accepted merge leaves the list and performs. -/
theorem exec_mergeAtHome {s : State} {i : Nat} {m : Merge} (hi : s.merges[i]? = some m) (hhere : s.answer m.loc.pa m.size = .here)
    (hw : s.mergeWaits m = false) : exec (.mergeAtHome i none) s =
      .next ((s.withMerges (s.merges.eraseIdx i)).mergeAtHome m.loc m.op m.size m.operand.toNat m.det) := by
  change execMergeAtHome i none s = _
  simp only [execMergeAtHome, nth?_eq_getElem?, hi, hhere, hw, dropNth_eq_eraseIdx]
  rfl

/-- A router combines two merges of one operation on one location. -/
theorem exec_mergeAtHome_combines {s : State} {i j : Nat} {m n : Merge} (hi : s.merges[i]? = some m) (hj : s.merges[j]? = some n)
    (hij : i ≠ j) (hc : s.combinable m n = true) :
    exec (.mergeAtHome i (some j)) s = .next { s with merges := (s.merges.set i (m.combine n)).eraseIdx j } := by
  change execMergeAtHome i (some j) s = _
  simp only [execMergeAtHome, nth?_eq_getElem?, hi, hj, hij, hc, dropNth_eq_eraseIdx, setNth_eq_set]
  rfl

section
variable {u : State} {l : Loc} {op : MergeOp} {size operand : Nat} {det : Bool}

/-! ## Merges that memory performs -/

/-- A merge that is not exact is AOp on its location. -/
theorem mergeAtHome_writes (hbad : u.poisoned l.pa size = false) (hop : (det && isFaddOp op) = false)
    (hacc : ∀ x ∈ u.accums, x.meets l.pa size = false) :
    u.mergeAtHome l op size operand det = u.writeLoc l (leBytes size (aop op size (leNat (u.bytesAt l.slot l.pa size)) operand)) := by
  simp only [State.mergeAtHome, hbad, hop, State.readLoc_none u _ _ hacc, Bool.false_eq_true, if_false]

/-! ## Merges that an accumulator takes -/

/-- An exact merge waits in an accumulator. -/
theorem mergeAtHome_accumulates (hbad : u.poisoned l.pa size = false) (hop : (det && isFaddOp op) = true) :
    u.mergeAtHome l op size operand det = ((u.dropLines l.pa size).accumulate l op size operand).wake l.pa size := by
  simp only [State.mergeAtHome, hbad, hop, Bool.false_eq_true, if_false, if_true]

/-- An accumulator is opened or added to, and memory waits, where no accumulator is closed by it (R70). -/
theorem accumulate_waits (hsize : size ≠ 0) (hacc : ∀ x ∈ u.accums, x.meets l.pa size = false) :
    ∃ b, u.accumulate l op size operand = { u with accums := b :: u.accums } ∧ b.pa = l.pa ∧ b.size = size ∧ b.slot = l.slot := by
  unfold State.accumulate
  dsimp only
  split
  · next a ha =>
    have hmeets := hacc a (List.mem_of_find?_eq_some ha)
    have hsame := List.find?_some ha
    simp only [Bool.and_eq_true, decide_eq_true_eq] at hsame
    simp only [Accum.meets, Bool.and_eq_false_iff, decide_eq_false_iff_not] at hmeets
    omega
  · rw [State.closeAccums_none u _ _ hacc]
    exact ⟨_, rfl, rfl, rfl, rfl⟩

/-- The one open accumulator takes an addition of its own kind (R70). -/
theorem accumulate_adds {a : Accum} (ha : u.accums = [a]) (hpa : a.pa = l.pa) (hsz : a.size = size) (htwo : a.two = false) :
    ∃ upper, u.accumulate l .fadd size operand =
      { u with accums := [{ a with lo := a.lo.add ((mergeFmt .fadd size).decode (operand % 2 ^ (8 * size))), hi := upper }] } := by
  unfold State.accumulate
  simp [ha, hpa, hsz, htwo]

end

/-- What an accumulator's opening or addition leaves alone. -/
theorem accumulated_keeps (u : State) (pa n : Nat) (accums : List Accum) :
    let t := State.wake { u.dropLines pa n with accums := accums } pa n
    t.merges = u.merges ∧ RegistersKept u t ∧ t.mem = u.mem ∧ t.accums = accums := by
  obtain ⟨bays, h⟩ := State.dropLines_eq u pa n
  rw [h]
  exact ⟨rfl, (Stored.wake _ pa n).registersKept, rfl, rfl⟩

theorem isFaddOp_iff {op : MergeOp} : isFaddOp op = true ↔ op = .fadd ∨ op = .bfadd2 := by
  cases op <;> simp [isFaddOp]

theorem performsMerges : PerformsMerges := by
  intro s i m hi isExact ready
  have hkind : (m.det && isFaddOp m.op) = true ↔ isExact := by rw [Bool.and_eq_true, isFaddOp_iff]
  have hs := SameBytes.withMerges s (s.merges.eraseIdx i)
  refine ⟨fun hready hacc => ?_, fun a hready he hop ha hpa hsz htwo => ?_, fun j n hj hij hc => ?_⟩
  · obtain ⟨hhere, hsize, hwaits, hbad⟩ := hready
    have hx := exec_mergeAtHome hi hhere hwaits
    by_cases he : isExact
    · rw [mergeAtHome_accumulates (u := s.withMerges (s.merges.eraseIdx i)) hbad (hkind.mpr he)] at hx
      obtain ⟨b, hb, hpa, hsz, hslot⟩ := accumulate_waits (u := (s.withMerges (s.merges.eraseIdx i)).dropLines m.loc.pa m.size) (l := m.loc)
        (op := m.op) (operand := m.operand.toNat) hsize (by rw [State.dropLines_accums]; exact hacc)
      rw [hb] at hx
      obtain ⟨hmerges, hregs, hmem, haccums⟩ := accumulated_keeps (s.withMerges (s.merges.eraseIdx i)) m.loc.pa m.size (b :: _)
      exact ⟨_, hx, hmerges, hregs, fun h => absurd he h, fun _ => ⟨hmem, b, haccums ▸ List.mem_cons_self, hpa, hsz, hslot⟩⟩
    · rw [mergeAtHome_writes (u := s.withMerges (s.merges.eraseIdx i)) hbad (Bool.eq_false_iff.mpr fun h => he (hkind.mp h)) hacc] at hx
      refine ⟨_, hx, (writeLoc_queues _ _ _).2, (Stored.writeLoc _ _ _).registersKept, fun _ => ⟨?_, ?_⟩, fun h => absurd h he⟩
      · exact hs.onlyWrites (SameBytes.refl _) (onlyWrites_writeLoc_leBytes _ hacc)
      · rw [leNat_writeLoc, hs.bytesAt]
  · obtain ⟨hhere, hsize, hwaits, hbad⟩ := hready
    have hx := exec_mergeAtHome hi hhere hwaits
    obtain ⟨upper, hb⟩ := accumulate_adds (u := (s.withMerges (s.merges.eraseIdx i)).dropLines m.loc.pa m.size) (l := m.loc)
      (operand := m.operand.toNat) (by rw [State.dropLines_accums]; exact ha) hpa hsz htwo
    rw [mergeAtHome_accumulates (u := s.withMerges (s.merges.eraseIdx i)) hbad (hkind.mpr he), hop, hb] at hx
    obtain ⟨hmerges, hregs, hmem, haccums⟩ := accumulated_keeps (s.withMerges (s.merges.eraseIdx i)) m.loc.pa m.size [_]
    exact ⟨_, hx, hmerges, hregs, hmem, _, haccums, rfl, rfl, rfl, rfl⟩
  · exact ⟨_, exec_mergeAtHome_combines hi hj hij hc, rfl, rfl, rfl, rfl, rfl⟩

end Sys2Proof.Machine
end

section
/-! O46. SCRUB and LINE_EVICTION (R99, R424, R425). -/

namespace Sys2Proof.Machine
open Sys2Proof Sys2Proof.Claims

/-! ## What an error of storage leaves alone -/

/-- The bytes of a core's typed buffers. -/
def Core.buffers (k : Core) : ByteMap × ByteMap × ByteMap × ByteMap := (k.srf, k.wb, k.acc, k.scaleRows)

/-- No register, byte of memory, byte of a buffer, peg or pending access has changed. -/
structure DataKept (s t : State) : Prop where
  registers : RegistersKept s t
  mem : t.mem = s.mem
  pegs : t.pegs = s.pegs
  pending : t.pending = s.pending
  buffers : ∀ c, (t.core c).buffers = (s.core c).buffers

theorem DataKept.of_cores {s t : State} (h1 : t.cores = s.cores) (h2 : t.mem = s.mem) (h3 : t.pegs = s.pegs) (h4 : t.pending = s.pending) :
    DataKept s t := by
  have hc (c : Nat) : t.core c = s.core c := by rw [State.core, State.core, h1]
  exact ⟨registersKept_iff.mpr fun c => by rw [hc], h2, h3, h4, fun c => by rw [hc]⟩

/-- A core whose marks, contexts or data cache change. -/
theorem DataKept.setCore (s : State) {c : Nat} {k : Core} (hf : k.file = (s.core c).file) (hb : k.buffers = (s.core c).buffers) :
    DataKept s (s.setCore c k) := by
  refine ⟨RegistersKept.setCore s hf, rfl, rfl, rfl, fun j => ?_⟩
  by_cases hj : j = c
  · rw [hj, State.core_setCore_same, hb]
  · rw [State.core_setCore_other _ _ _ _ hj]

theorem DataKept.refl (s : State) : DataKept s s := DataKept.of_cores rfl rfl rfl rfl

theorem DataKept.countPoison {s t : State} (h : DataKept s t) : DataKept s t.countPoison := ⟨h.registers, h.mem, h.pegs, h.pending, h.buffers⟩

theorem DataKept.poisonUnit (s : State) (pa : Nat) : DataKept s (s.poisonUnit pa) := by
  unfold State.poisonUnit
  split
  · exact DataKept.refl s
  · exact DataKept.of_cores rfl rfl rfl rfl

theorem DataKept.poisonCluster (s : State) (core uid cid : Nat) (f : CtxCluster → CtxCluster) : DataKept s (s.poisonCluster core uid cid f) := by
  unfold State.poisonCluster
  extract_lets k
  split
  · exact DataKept.refl s
  · split
    · exact DataKept.refl s
    · split
      · exact DataKept.refl s
      · exact DataKept.countPoison (DataKept.setCore s rfl rfl)

/-- The marks of a space in place of those of a core. -/
def Core.withMarks (k : Core) (sp : LocalSpace) (m : AMap Unit) : Core :=
  match sp with
  | .srf => { k with srfPoison := m }
  | .wb => { k with wbPoison := m }
  | .acc => { k with accPoison := m }

theorem Core.withMarks_keeps (k : Core) (sp : LocalSpace) (m : AMap Unit) :
    (k.withMarks sp m).file = k.file ∧ (k.withMarks sp m).buffers = k.buffers ∧ (k.withMarks sp m).poisonOf sp = m := by
  cases sp <;> exact ⟨rfl, rfl, rfl⟩

/-- The marks of an 8-byte unit of a space: an accumulator has one for each 4 bytes (R424). -/
def marksOf (sp : LocalSpace) (u : Nat) : List Nat := if sp = .acc then [2 * u, 2 * u + 1] else [u]

/-- Marks that are put. -/
def putMarks (m : AMap Unit) (l : List Nat) : AMap Unit := l.foldl (fun (m : AMap Unit) i => m.put i ()) m

/-- What an error in a typed buffer comes to. -/
theorem storageError_buffer (s : State) (core : Nat) (sp : LocalSpace) (u : Nat) :
    s.storageError (.buffer core sp u) =
      if spaceSize sp ≤ 8 * u || (marksOf sp u).all (fun i => ((s.core core).poisonOf sp).has i) then s
      else (s.setCore core ((s.core core).withMarks sp (putMarks ((s.core core).poisonOf sp) (marksOf sp u)))).countPoison := by
  cases sp <;> rfl

/-- An error in storage marks and counts, and changes no data (R424). -/
theorem DataKept.storageError (s : State) (u : StorageUnit) : DataKept s (s.storageError u) := by
  cases u with
  | buffer core sp n =>
    rw [storageError_buffer]
    split
    · exact DataKept.refl s
    · obtain ⟨hf, hb, -⟩ := (s.core core).withMarks_keeps sp (putMarks ((s.core core).poisonOf sp) (marksOf sp n))
      exact (DataKept.setCore s hf hb).countPoison
  | scaleRows core n =>
    simp only [State.storageError]
    split
    · exact DataKept.refl s
    · exact DataKept.countPoison (DataKept.setCore s rfl rfl)
  | vector core uid cid r n => exact DataKept.poisonCluster s core uid cid _
  | scalar core uid cid r => exact DataKept.poisonCluster s core uid cid _
  | operand core uid cid port n => exact DataKept.poisonCluster s core uid cid _
  | l2 bay line n =>
    simp only [State.storageError]
    split
    · exact DataKept.refl s
    · split
      · exact DataKept.poisonUnit s _
      · split
        · exact DataKept.refl s
        · exact DataKept.of_cores rfl rfl rfl rfl
  | l1 core line => exact DataKept.setCore s rfl rfl

/-! ## The marks of a buffer -/

/-- A unit of a typed buffer is poisoned where one of its marks is set. -/
theorem bufPoisoned_unit (k : Core) (sp : LocalSpace) (u : Nat) :
    k.bufPoisoned sp (8 * u) 8 = (marksOf sp u).any (fun i => (k.poisonOf sp).has i) := by
  have hwide : rangeFrom (8 * u / 8) ((8 * u + 8 - 1) / 8 - 8 * u / 8 + 1) = [u] := by
    rw [show 8 * u / 8 = u by omega, show (8 * u + 8 - 1) / 8 - u + 1 = 1 by omega]
    rfl
  have hacc : rangeFrom (8 * u / 4) ((8 * u + 8 - 1) / 4 - 8 * u / 4 + 1) = [2 * u, 2 * u + 1] := by
    rw [show 8 * u / 4 = 2 * u by omega, show (8 * u + 8 - 1) / 4 - 2 * u + 1 = 2 by omega]
    rfl
  cases sp with
  | srf => simp only [Core.bufPoisoned, poisonUnit, hwide]; rfl
  | wb => simp only [Core.bufPoisoned, poisonUnit, hwide]; rfl
  | acc => simp only [Core.bufPoisoned, poisonUnit, hacc]; rfl

/-- Marks that are put are set, and the others are as they were. -/
theorem has_putMarks (l : List Nat) (m : AMap Unit) (i : Nat) :
    (putMarks m l).has i = (decide (i ∈ l) || m.has i) := by
  induction l generalizing m with
  | nil => simp [putMarks]
  | cons a t ih =>
    have hput : (m.put a ()).has i = (decide (i = a) || m.has i) := by
      simp only [AMap.has, AMap.find?_put]
      by_cases h : i = a <;> simp [h]
    rw [putMarks, List.foldl_cons, ← putMarks, ih, hput]
    by_cases h : i = a <;> simp [h]

/-- Two units have no mark in common. -/
theorem marksOf_disjoint {sp : LocalSpace} {u v i : Nat} (h : v ≠ u) (hi : i ∈ marksOf sp v) : i ∉ marksOf sp u := by
  unfold marksOf at hi ⊢
  split
  · next hsp =>
    simp only [hsp, if_true, List.mem_cons, List.not_mem_nil, or_false] at hi ⊢
    omega
  · next hsp =>
    simp only [hsp, if_false, List.mem_singleton] at hi ⊢
    exact hi ▸ h

/-- The marks of a core in which more are put. -/
theorem Core.withMarks_put (k : Core) (sp : LocalSpace) (l : List Nat) (j : Nat) :
    ((k.withMarks sp (putMarks (k.poisonOf sp) l)).poisonOf sp).has j =
      (decide (j ∈ l) || (k.poisonOf sp).has j) := by
  obtain ⟨-, -, hm⟩ := k.withMarks_keeps sp (putMarks (k.poisonOf sp) l)
  rw [hm, has_putMarks]

/-- An error in a unit of a typed buffer that is not poisoned yet poisons that unit alone, counted once (R424, R427). -/
theorem storageError_poisons_buffer {s : State} {core u : Nat} {sp : LocalSpace} (hu : 8 * u < spaceSize sp)
    (hclean : (s.core core).bufPoisoned sp (8 * u) 8 = false) :
    let t := s.storageError (.buffer core sp u)
    (t.core core).bufPoisoned sp (8 * u) 8 = true ∧ t.mgmt.poisonings = s.mgmt.poisonings + 1 ∧
      ∀ j, j ≠ u → (t.core core).bufPoisoned sp (8 * j) 8 = (s.core core).bufPoisoned sp (8 * j) 8 := by
  rw [bufPoisoned_unit] at hclean
  have hfirst : ∃ i, i ∈ marksOf sp u := by cases sp <;> exact ⟨_, List.mem_cons_self⟩
  obtain ⟨i, hi⟩ := hfirst
  have hnot : ¬ (decide (spaceSize sp ≤ 8 * u) || (marksOf sp u).all (fun i => ((s.core core).poisonOf sp).has i)) = true := by
    rw [Bool.or_eq_true, decide_eq_true_eq, List.all_eq_true]
    rintro (h | h)
    · omega
    · exact List.any_eq_false.mp hclean i hi (h i hi)
  rw [storageError_buffer, if_neg hnot]
  have hcore (k : Core) : (s.setCore core k).countPoison.core core = k := State.core_setCore_same s core k
  refine ⟨?_, rfl, fun j hj => ?_⟩
  · rw [hcore, bufPoisoned_unit, List.any_eq_true]
    exact ⟨i, hi, by rw [Core.withMarks_put, decide_eq_true hi, Bool.true_or]⟩
  · rw [hcore, bufPoisoned_unit, bufPoisoned_unit]
    rw [Bool.eq_iff_iff, List.any_eq_true, List.any_eq_true]
    exact exists_congr fun x => and_congr_right fun hx => by rw [Core.withMarks_put, decide_eq_false (marksOf_disjoint hj hx), Bool.false_or]

/-! ## SCRUB -/

theorem exec_scrub {s : State} {pa a : Nat} (h : s.region pa = .hbm a) (e : EccCheck) : exec (.scrub pa e) s = .next (s.ecc a e) := by
  change execScrub pa e s = _
  rw [execScrub, h]

/-- A byte is poisoned where its 8-byte unit is. -/
theorem poisoned_byte (s : State) (a : Nat) : s.poisoned a 1 = AMap.has s.poison (a / 8) := by
  have h : rangeFrom (a / 8) ((a + 1 - 1) / 8 - a / 8 + 1) = [a / 8] := by
    rw [show (a + 1 - 1) / 8 - a / 8 + 1 = 1 by omega]
    rfl
  rw [State.poisoned, h]
  simp

theorem scrubsAndEvicts : ScrubsAndEvicts := by
  refine ⟨?_, fun s pa e h => ?_, fun s bay line => ⟨rfl, fun c => rfl⟩⟩
  · intro s pa a h m
    refine ⟨exec_scrub h .ok, exec_scrub h .corrected, fun hc => ?_, fun hp => ?_, fun u => ?_, fun core sp n hn hc => ?_⟩
    · rw [poisoned_byte] at hc
      rw [exec_scrub h, State.ecc, State.poisonUnit, hc]
      rfl
    · rw [poisoned_byte] at hp
      rw [exec_scrub h, State.ecc, State.poisonUnit, if_pos hp]
    · obtain ⟨hregs, hmem, hpegs, hpend, hbuf⟩ := DataKept.storageError s u
      refine ⟨_, exec_scrub h (.storage u), hregs, hmem, hpegs, hpend, fun c => ?_⟩
      simpa only [Core.buffers, Prod.mk.injEq, State.ecc] using hbuf c
    · exact ⟨_, exec_scrub h _, storageError_poisons_buffer (by cases sp <;> exact hn) hc⟩
  · change execScrub pa e s = _
    unfold execScrub
    cases hr : s.region pa with
    | hbm a => exact absurd hr (h a)
    | _ => rfl

end Sys2Proof.Machine
end

section
/-! O46. The memory system's own events. -/

namespace Sys2Proof.Machine
open Sys2Proof Sys2Proof.Claims

/-- Settles O46: the level of a walk by the fields of its entry, PAGE_WALK by the walk that it begins or ends, accesses and merges by what a write at home
leaves, failed answers by the trap that they defer, SCRUB by the marks that an error sets. -/
theorem memoryEvents : Obligations.MemoryEvents :=
  ⟨walksTables, installsTranslations, performsPendingAccesses, failsPendingAccesses, performsMerges, scrubsAndEvicts⟩

end Sys2Proof.Machine
end

section
/-! O16. The checks of an access, in their order (R77, R96, R135). -/

namespace Sys2Proof.Machine
open Sys2Proof Sys2Proof.Claims

/-- Bits 63:56 of an address are clear exactly below 2^56. -/
theorem extractLsb'_56_8_eq_zero (va : Word) : va.extractLsb' 56 8 = 0 ↔ va.toNat < 2 ^ 56 := by
  have := va.isLt
  rw [← BitVec.toNat_inj, BitVec.extractLsb'_toNat, Nat.shiftRight_eq_div_pow, show (0 : BitVec 8).toNat = 0 from rfl]
  omega

section
variable {s : State} {bay b size : Nat} {va : Word} {need : Need}

theorem State.access_misaligned (h : va.toNat % size ≠ 0) : s.access bay b va size need = .error 0x05 := if_pos h

theorem State.access_aligned (h : va.toNat % size = 0) : s.access bay b va size need = s.translate bay b va need := if_neg (not_not.mpr h)

theorem State.translate_high (h : 2 ^ 56 ≤ va.toNat) : s.translate bay b va need = .error 0x06 :=
  if_pos fun hz => absurd ((extractLsb'_56_8_eq_zero va).mp hz) (by omega)

theorem State.translate_stopped {c : Nat} (h : va.toNat < 2 ^ 56) (hl : s.lookup bay (s.root b) va.toNat = .error c) :
    s.translate bay b va need = .error c := by
  simp [State.translate, (extractLsb'_56_8_eq_zero va).mpr h, hl]

/-- The key slot of a bent (R83). -/
def State.keySlot (s : State) (b : Nat) : Nat :=
  match s.bents.find? b with
  | some r => r.key
  | none => 0

/-- The location that a leaf gives an address, under the key slot of the accessing bent (R76, R78, R79). -/
def TlbEntry.loc (t : TlbEntry) (s : State) (key : Nat) (va : Nat) : Loc :=
  { pa := s.home (t.pa va), slot := if pteBit t.leaf 11 then none else some key
    det := pteBit t.leaf 7, mw := pteBit t.leaf 6, cp := pteCp t.leaf }

/-- Below 2^56, with a translation, the leaf's permission and the management pages come first, then the key, then the slot of the line in L2. -/
theorem State.translate_found {t : TlbEntry} (h : va.toNat < 2 ^ 56) (hl : s.lookup bay (s.root b) va.toNat = .ok t) :
    s.translate bay b va need =
      if s.isManagement (t.pa va.toNat) || !permits t.leaf need then .error 0x07
      else if !pteBit t.leaf 11 && (s.keySlot b = 0 || pteKey t.leaf != s.keySlot b) then .error 0x08
      else if need.throughL2 && s.tagClash bay (t.loc s (s.keySlot b) va.toNat) then .error 0x08
      else .ok (t.loc s (s.keySlot b) va.toNat) := by
  simp only [State.translate, (extractLsb'_56_8_eq_zero va).mpr h, ne_eq, not_true, if_false, hl]
  rfl

end

/-- A clash of a leaf's location with the slot that the L2 holds its line under (R78, R96); a shared-clear leaf has none. -/
theorem State.tagClash_loc (s : State) (bay key va : Nat) (t : TlbEntry) :
    s.tagClash bay (t.loc s key va) =
      (!t.leaf.getLsbD 11 &&
        (if (s.remote? (s.home (t.pa va))).isSome then decide ((t.leaf.extractLsb' 8 2).toNat = 2)
          else decide ((t.leaf.extractLsb' 8 2).toNat ≠ 1)) &&
        (match (s.bay bay).l2.find? (s.home (t.pa va) / 64) with
          | some c => decide (c.slot ≠ some key)
          | none => false)) := by
  unfold State.tagClash State.cached TlbEntry.loc pteBit pteCp
  cases t.leaf.getLsbD 11 with
  | true => rfl
  | false =>
    cases (s.bay bay).l2.find? (s.home (t.pa va) / 64) with
    | none => simp
    | some c => cases s.remote? (s.home (t.pa va)) <;> rfl

theorem Need.throughL2_eq (n : Need) : n.throughL2 = decide (n = .read ∨ n = .write ∨ n = .exec) := by
  cases n <;> rfl

/-- Settles O16: each check comes after the ones before it have passed. -/
theorem accessChecksInOrder : Obligations.AccessChecksInOrder := by
  intro s bay b size va need key
  refine ⟨State.access_misaligned, fun ha hv => (State.access_aligned ha).trans (State.translate_high hv), fun ha hv => ⟨fun c hl =>
    (State.access_aligned ha).trans (State.translate_stopped hv hl), fun t hl => ?_⟩⟩
  intro pa sc own allowed clash
  have hp : permits t.leaf need = allowed := by cases need <;> rfl
  have hk : (!pteBit t.leaf 11 && (s.keySlot b = 0 || pteKey t.leaf != s.keySlot b)) = (!sc && !own) := by
    show (!sc && (decide (key = 0) || pteKey t.leaf != key)) = (!sc && !decide (key ≠ 0 ∧ pteKey t.leaf = key))
    by_cases h0 : key = 0 <;> by_cases h1 : pteKey t.leaf = key <;> simp [h0, h1]
  have hc : (need.throughL2 && s.tagClash bay (t.loc s (s.keySlot b) va.toNat)) = clash := by
    rw [Need.throughL2_eq, State.tagClash_loc, ← Bool.and_assoc, ← Bool.and_assoc]
    rfl
  have he := (State.access_aligned (s := s) (bay := bay) (b := b) (need := need) ha).trans (State.translate_found hv hl)
  rw [hp, hk, hc] at he
  change s.access bay b va size need = if s.isManagement pa || !allowed then _ else _ at he
  rw [he]
  refine ⟨fun h => ?_, fun hm ha hs ho => ?_, fun hm ha hso hcl => ?_, fun hm ha hso hcl => ?_⟩
  · rcases h with h | h <;> simp [h]
  · simp [hm, ha, hs, ho]
  · rcases hso with h | h <;> simp [hm, ha, h, hcl]
  · exact ⟨_, by rcases hso with h | h <;> simp [hm, ha, h, hcl] <;> rfl, rfl, rfl⟩

end Sys2Proof.Machine
end

section
/-! SUPPORT for O14 and O45. What memory and the typed buffers hold, the rights by which an event may change the buffers of a core, and the changes
of a state that keep all else. -/

namespace Sys2Proof.Machine
open Sys2Proof Sys2Proof.Claims

/-! ## The typed buffers of a core -/

/-- The typed buffers of a core, the formats of its banks and the owners of its windows (R89 to R93, R367). -/
structure Buffers where
  srf : ByteMap
  wb : ByteMap
  scaleRows : ByteMap
  srfFmt : AMap Word
  acc : ByteMap
  own : AMap Word

def Core.typed (k : Core) : Buffers :=
  { srf := k.srf, wb := k.wb, scaleRows := k.scaleRows, srfFmt := k.srfFmt, acc := k.acc, own := k.accOwn }

/-- What an event may do to the buffers of a core: write the SRF, write accumulators, clear windows, write the rest. -/
structure Rights where
  srf : Bool
  acc : Bool
  clear : Bool
  rest : Bool

/-- No right to change a buffer. -/
def Rights.none : Rights := ⟨false, false, false, false⟩

/-- Every right. -/
def Rights.all : Rights := ⟨true, true, true, true⟩

/-- Window of an accumulator byte without an owner reads +0 where it does not read as before (R370). -/
def Buffers.Cleared (k m : Buffers) : Prop :=
  (∀ a, ByteMap.rd m.acc a = ByteMap.rd k.acc a ∨ (ByteMap.rd m.acc a = 0 ∧ m.own.get (a / 4096) 0 = 0)) ∧
  ∀ w, m.own.get w 0 = k.own.get w 0 ∨ m.own.get w 0 = 0

/-- Buffers `m` hold what buffers `k` did, but for what the rights allow. -/
structure Buffers.Keeps (r : Rights) (k m : Buffers) : Prop where
  srf : r.srf = false → m.srf = k.srf
  acc : r.acc = false → r.clear = false → m.acc = k.acc
  cleared : r.acc = false → k.Cleared m
  rest : r.rest = false → m.wb = k.wb ∧ m.scaleRows = k.scaleRows ∧ m.srfFmt = k.srfFmt

theorem Buffers.Cleared.refl (k : Buffers) : k.Cleared k := ⟨fun _ => .inl rfl, fun _ => .inl rfl⟩

theorem Buffers.Cleared.trans {k m n : Buffers} (h : k.Cleared m) (h' : m.Cleared n) : k.Cleared n := by
  constructor
  · intro a
    rcases h'.1 a with e | e
    · rcases h.1 a with e1 | ⟨e1, o⟩
      · exact .inl (e.trans e1)
      · refine .inr ⟨e.trans e1, ?_⟩
        rcases h'.2 (a / 4096) with o1 | o1
        · exact o1.trans o
        · exact o1
    · exact .inr e
  · intro w
    rcases h'.2 w with e | e
    · exact (h.2 w).imp e.trans e.trans
    · exact .inr e

@[refl, simp] theorem Buffers.Keeps.refl (r : Rights) (k : Buffers) : k.Keeps r k :=
  ⟨fun _ => rfl, fun _ _ => rfl, fun _ => .refl k, fun _ => ⟨rfl, rfl, rfl⟩⟩

theorem Buffers.Keeps.trans {r : Rights} {k m n : Buffers} (h : k.Keeps r m) (h' : m.Keeps r n) : k.Keeps r n where
  srf hs := (h'.srf hs).trans (h.srf hs)
  acc ha hc := (h'.acc ha hc).trans (h.acc ha hc)
  cleared ha := (h.cleared ha).trans (h'.cleared ha)
  rest hr := by
    obtain ⟨hw, hs, hf⟩ := h.rest hr
    obtain ⟨hw', hs', hf'⟩ := h'.rest hr
    exact ⟨hw'.trans hw, hs'.trans hs, hf'.trans hf⟩

/-- With every right, nothing is kept. -/
theorem Buffers.keeps_all (k m : Buffers) : k.Keeps .all m := by
  constructor <;> intro h <;> cases h

@[simp] theorem Core.typed_mk (x f d pc regs peg dispatched hactTime hactFrom spin asked fetchAsked preempt preemptFor halted icache dcache
    ageLimit restWin spillMode accOwn sems jnext journal comp srf srfPoison srfFmt wb wbPoison scaleRows scalePoison regions acc accPoison allocs
    finCw finScale jigActive jigShadow jigIdx jigSteps retired refuse ctxs spill frames) :
    Core.typed ⟨x, f, d, pc, regs, peg, dispatched, hactTime, hactFrom, spin, asked, fetchAsked, preempt, preemptFor, halted, icache, dcache,
    ageLimit, restWin, spillMode, accOwn, sems, jnext, journal, comp, srf, srfPoison, srfFmt, wb, wbPoison, scaleRows, scalePoison,
    regions, acc, accPoison, allocs, finCw, finScale, jigActive, jigShadow, jigIdx, jigSteps, retired, refuse, ctxs, spill, frames⟩ =
      ⟨srf, wb, scaleRows, srfFmt, acc, accOwn⟩ := by
  simp only [Core.typed]

@[simp] theorem Core.typed_eta (k : Core) : (⟨k.srf, k.wb, k.scaleRows, k.srfFmt, k.acc, k.accOwn⟩ : Buffers) = k.typed := by
  simp only [Core.typed]

/-! ## Storage -/

/-- What memory and the typed buffers of every core hold. -/
structure Storage where
  mem : ByteMap
  core : Nat → Buffers

def Storage.of (mem : ByteMap) (cores : AMap Core) : Storage := { mem := mem, core := fun c => (cores.get c Core.reset).typed }

def State.storage (s : State) : Storage := Storage.of s.mem s.cores

/-- Memory stays canonical, and each core's buffers hold what they did but for what its rights allow. -/
structure Storage.Keeps (P : Nat → Rights) (v w : Storage) : Prop where
  mem : ByteMap.wf v.mem = true → ByteMap.wf w.mem = true
  core : ∀ c, (v.core c).Keeps (P c) (w.core c)

@[refl, simp] theorem Storage.Keeps.refl (P : Nat → Rights) (v : Storage) : v.Keeps P v := ⟨id, fun _ => .refl _ _⟩

theorem Storage.Keeps.trans {P : Nat → Rights} {v w u : Storage} (h : v.Keeps P w) (h' : w.Keeps P u) : v.Keeps P u :=
  ⟨h'.mem ∘ h.mem, fun c => (h.core c).trans (h'.core c)⟩

theorem Storage.Keeps.of_eq {P : Nat → Rights} {v w u : Storage} (h : v.Keeps P w) (e : u = w) : v.Keeps P u := e ▸ h

@[simp] theorem Storage.of_fields (s : State) : Storage.of s.mem s.cores = s.storage := by
  simp only [State.storage]

@[simp] theorem State.storage_mk (sched turns cur defer free stamp timestamp elapsed clk cores bays pegs bents mem poison unitKey accums
    pending fences merges recordMerges keys sills peers router sessions nextSession qps outbox ptp mgmt) :
    State.storage ⟨sched, turns, cur, defer, free, stamp, timestamp, elapsed, clk, cores, bays, pegs, bents, mem, poison, unitKey, accums, pending,
      fences, merges, recordMerges, keys, sills, peers, router, sessions, nextSession, qps, outbox, ptp, mgmt⟩ = Storage.of mem cores := by
  simp only [State.storage]

@[simp] theorem State.core_typed (s : State) (c : Nat) : (s.core c).typed = s.storage.core c := by
  simp only [State.core, State.storage, Storage.of]

@[simp] theorem State.get_typed (s : State) (c : Nat) : (s.cores.get c Core.reset).typed = s.storage.core c := by
  simp only [State.storage, Storage.of]

@[simp] theorem State.me_typed (s : State) : s.me.typed = s.storage.core s.cur := by
  simp only [State.me, State.core_typed]

/-- A core in a table of cores: its own buffers are the new ones, every other core's stay. -/
theorem Storage.of_put_core (m : ByteMap) (cores : AMap Core) (c : Nat) (k : Core) (j : Nat) :
    (Storage.of m (cores.put c k)).core j = if j = c then k.typed else (cores.get j Core.reset).typed := by
  simp only [Storage.of]
  by_cases hj : j = c
  · subst hj; simp
  · simp [hj]

@[simp] theorem Storage.of_put {m : ByteMap} {cores : AMap Core} {c : Nat} {k : Core} (h : k.typed = (cores.get c Core.reset).typed) :
    Storage.of m (cores.put c k) = Storage.of m cores := by
  refine congrArg (Storage.mk m) (funext fun j => ?_)
  refine (Storage.of_put_core m cores c k j).trans ?_
  split
  · next e => rw [e, h]
  · rfl

/-- A change of every core in its place, as a read of one core sees it. -/
theorem AMap.get_mapCores {cores : AMap Core} {g : Nat × Core → Nat × Core} (hk : ∀ e, (g e).1 = e.1) (c : Nat) :
    AMap.get (cores.map g) c Core.reset = cores.get c Core.reset ∨
      ∃ k, AMap.get cores c Core.reset = k ∧ AMap.get (cores.map g) c Core.reset = (g (c, k)).2 := by
  induction cores with
  | nil => exact .inl rfl
  | cons e t ih =>
    obtain ⟨j, v⟩ := e
    simp only [AMap.get, List.map_cons] at ih ⊢
    rw [show g (j, v) = (j, (g (j, v)).2) from Prod.ext (hk _) rfl, AMap.find?_cons, AMap.find?_cons]
    split
    · next e => exact .inr ⟨v, rfl, by rw [← e]; rfl⟩
    · exact ih

/-- A change of every core that leaves the buffers alone. -/
theorem Storage.of_mapCores (m : ByteMap) {cores : AMap Core} {g : Nat × Core → Nat × Core}
    (h : ∀ e, (g e).1 = e.1 ∧ (g e).2.typed = e.2.typed) : Storage.of m (cores.map g) = Storage.of m cores := by
  refine congrArg (Storage.mk m) (funext fun c => ?_)
  rcases AMap.get_mapCores (cores := cores) (fun e => (h e).1) c with e | ⟨k, hk, e⟩
  · exact congrArg Core.typed e
  · exact (congrArg Core.typed e).trans ((h (c, k)).2.trans (congrArg Core.typed hk.symm))

@[simp] theorem State.storage_setCore {s : State} {c : Nat} {k : Core} (h : k.typed = s.storage.core c) : (s.setCore c k).storage = s.storage :=
  Storage.of_put h

@[simp] theorem State.storage_setMe {s : State} {k : Core} (h : k.typed = s.storage.core s.cur) : (s.setMe k).storage = s.storage :=
  Storage.of_put h

@[simp] theorem State.storage_modBent (s : State) (b : Nat) (f : Bent → Bent) : (s.modBent b f).storage = s.storage := rfl

/-- A change of every core of a machine that leaves the buffers alone. -/
theorem State.storage_mapCores {s : State} {g : Nat × Core → Nat × Core} (h : ∀ e, (g e).1 = e.1 ∧ (g e).2.typed = e.2.typed) :
    State.storage { s with cores := s.cores.map g } = s.storage := Storage.of_mapCores _ h

/-- A run of steps that each leave storage alone. -/
theorem State.storage_foldl {α : Type} {f : State → α → State} (h : ∀ s a, (f s a).storage = s.storage) (l : List α) (s : State) :
    (l.foldl f s).storage = s.storage := by
  induction l generalizing s with
  | nil => rfl
  | cons a t ih => rw [List.foldl_cons, ih, h]

/-- The same of a core. -/
theorem Core.typed_foldl {α : Type} {f : Core → α → Core} (h : ∀ k a, (f k a).typed = k.typed) (l : List α) (k : Core) :
    (l.foldl f k).typed = k.typed := by
  induction l generalizing k with
  | nil => rfl
  | cons a t ih => rw [List.foldl_cons, ih, h]

section
variable {P : Nat → Rights} {v : Storage} {s : State}

/-- A run of steps that each keep storage. -/
theorem Storage.Keeps.foldl {α : Type} {f : State → α → State} (hf : ∀ s a, v.Keeps P s.storage → v.Keeps P (f s a).storage) (l : List α)
    (h : v.Keeps P s.storage) : v.Keeps P (l.foldl f s).storage := by
  induction l generalizing s with
  | nil => exact h
  | cons a t ih => exact ih (hf s a h)

/-- Another memory, which is canonical where the one before is. -/
theorem Storage.Keeps.of_mem {m : ByteMap} (h : v.Keeps P s.storage) (hm : ByteMap.wf s.mem = true → ByteMap.wf m = true) :
    v.Keeps P (Storage.of m s.cores) := ⟨hm ∘ h.mem, h.core⟩

/-- A core takes buffers that its rights allow. -/
theorem Storage.Keeps.setCore {c : Nat} {k : Core} (h : v.Keeps P s.storage) (hk : (s.storage.core c).Keeps (P c) k.typed) :
    v.Keeps P (s.setCore c k).storage := by
  refine ⟨h.mem, fun j => ?_⟩
  rw [show (s.setCore c k).storage.core j = _ from Storage.of_put_core s.mem s.cores c k j]
  split
  · next e => exact e ▸ (h.core c).trans hk
  · exact h.core j

end

end Sys2Proof.Machine
end

section
/-! SUPPORT for O14 and O45. The operations that leave memory and the typed buffers alone. -/

namespace Sys2Proof.Machine
open Sys2Proof Sys2Proof.Claims

@[simp] theorem State.storage_setBay (s : State) (b : Nat) (y : Bay) : (s.setBay b y).storage = s.storage := by
  simp [State.setBay]

@[simp] theorem State.storage_setSill (s : State) (ch : Nat) (u : Sill) : (s.setSill ch u).storage = s.storage := by
  simp [State.setSill]

@[simp] theorem State.storage_countPackets (s : State) (p n : Nat) : (s.countPackets p n).storage = s.storage := by
  simp [State.countPackets]

@[simp] theorem State.storage_sent (s : State) (pa n : Nat) : (s.sent pa n).storage = s.storage := by
  unfold State.sent
  (repeat' split) <;> rfl

@[simp] theorem State.storage_wake (s : State) (pa n : Nat) : (s.wake pa n).storage = s.storage := by
  unfold State.wake
  exact Storage.of_mapCores _ fun e => by (repeat' split) <;> simp

@[simp] theorem State.storage_dropLines (s : State) (pa n : Nat) : (s.dropLines pa n).storage = s.storage := by
  unfold State.dropLines
  split <;> simp

@[simp] theorem State.storage_dropStale (s : State) (bay : Nat) (ts : List TlbEntry) : (s.dropStale bay ts).storage = s.storage := by
  unfold State.dropStale
  dsimp only
  split <;> exact (Storage.of_mapCores _ fun e => by split <;> simp).trans rfl

@[simp] theorem State.storage_enterTlb (s : State) (bay : Nat) (t : TlbEntry) : (s.enterTlb bay t).storage = s.storage := by
  unfold State.enterTlb
  dsimp only
  split <;> simp

@[simp] theorem State.storage_install (s : State) (bay b : Nat) (va : Word) : (s.install bay b va).storage = s.storage := by
  unfold State.install
  dsimp only
  (repeat' split) <;> simp

@[simp] theorem State.storage_cacheLines (s : State) (bay : Nat) (l : Loc) (n : Nat) : (s.cacheLines bay l n).storage = s.storage := by
  unfold State.cacheLines
  dsimp only
  (repeat' split) <;> rfl

@[simp] theorem State.storage_touched (s : State) (bay b : Nat) (va : Word) (l : Loc) (n : Nat) (need : Need) :
    (s.touched bay b va l n need).storage = s.storage := by
  unfold State.touched
  dsimp only
  split <;> simp

@[simp] theorem State.storage_tlbInvalidate (s : State) (root : Nat) (va : Option Nat) : (s.tlbInvalidate root va).storage = s.storage := by
  unfold State.tlbInvalidate
  refine State.storage_foldl (fun s e => ?_) _ _
  dsimp only
  rw [State.storage_setBay]
  split
  · exact State.storage_dropStale ..
  · exact Storage.of_mapCores _ fun e => by split <;> simp

@[simp] theorem Core.typed_putX (k : Core) (r : RegNo) (v : Word) : (k.putX r v).typed = k.typed := by
  unfold Core.putX
  split <;> simp

@[simp] theorem Core.typed_putF (k : Core) (r : RegNo) (v : Word) : (k.putF r v).typed = k.typed := by
  simp [Core.putF]

@[simp] theorem Core.typed_putD (k : Core) (r : BitVec 4) (v : Desc) : (k.putD r v).typed = k.typed := by
  simp [Core.putD]

@[simp] theorem State.storage_putX (s : State) (r : RegNo) (v : Word) : (s.putX r v).storage = s.storage := by
  simp [State.putX]

@[simp] theorem State.storage_putF (s : State) (r : RegNo) (v : Word) : (s.putF r v).storage = s.storage := by
  simp [State.putF]

@[simp] theorem State.storage_setPeg (s : State) (id : Nat) (p : Peg) : (s.setPeg id p).storage = s.storage := by
  simp [State.setPeg]

@[simp] theorem State.storage_modPeg (s : State) (id : Nat) (f : Peg → Peg) : (s.modPeg id f).storage = s.storage := by
  simp [State.modPeg]

@[simp] theorem State.storage_note (s : State) (kind unitNo bent : Nat) : (s.note kind unitNo bent).storage = s.storage := by
  simp [State.note]

@[simp] theorem State.storage_drain (s : State) (b : Nat) : (s.drain b).storage = s.storage := by
  rfl

@[simp] theorem State.storage_pend (s : State) (id : Nat) (t : Trap) : (s.pend id t).storage = s.storage := by
  simp [State.pend]

@[simp] theorem Core.typed_putLoad (k : Core) (d : LoadDest) (v : Nat) : (k.putLoad d v).typed = k.typed := by
  unfold Core.putLoad
  split <;> simp

@[simp] theorem State.storage_fetchedLine (s : State) (core : Option Nat) (bay : Nat) (slot : Option Nat) (line : Nat) :
    (s.fetchedLine core bay slot line).storage = s.storage := by
  unfold State.fetchedLine
  dsimp only
  (repeat' split) <;> simp

@[simp] theorem State.storage_keepLine (s : State) (core : Option Nat) (bay line : Nat) (c : CacheLine) : (s.keepLine core bay line c).storage = s.storage := by
  unfold State.keepLine
  dsimp only
  (repeat' split) <;> simp

@[simp] theorem State.storage_deferTrap (s : State) (a : Access) (code : Nat) : (s.deferTrap a code).storage = s.storage := by
  unfold State.deferTrap
  (repeat' split) <;> rfl

@[simp] theorem State.storage_loseMerges (s : State) (id : Nat) (va : Word) : (s.loseMerges id va).storage = s.storage := by
  simp [State.loseMerges]

@[simp] theorem State.storage_fence (s : State) (ord : Nat) (mask : BitVec 16) : (s.fence ord mask).storage = s.storage := by
  unfold State.fence
  dsimp only
  split <;> rfl

@[simp] theorem State.storage_heard (s : State) : (s.heard).storage = s.storage := by
  simp [State.heard]

@[simp] theorem State.storage_failMerges (s : State) (id : Nat) : (s.failMerges id).storage = s.storage := by
  unfold State.failMerges
  split <;> simp

@[simp] theorem State.storage_fetched (s : State) : (s.fetched).storage = s.storage := by
  unfold State.fetched
  split <;> simp

@[simp] theorem State.storage_passTime (s : State) (dt dclk : Nat) : (s.passTime dt dclk).storage = s.storage := by
  simp [State.passTime]

@[simp] theorem State.storage_askDelay (s : State) (port seqId origin : Nat) : (s.askDelay port seqId origin).storage = s.storage := by
  simp [State.askDelay]

@[simp] theorem State.storage_correct (s : State) (err : Int) : (s.correct err).storage = s.storage := by
  unfold State.correct
  split <;> simp

@[simp] theorem State.storage_acceptMerge (s : State) (op : MergeOp) (va : Word) (l : Loc) (size : Nat) (cls : Nat) (operand : Word) (release : Bool) :
    (s.acceptMerge op va l size cls operand release).storage = s.storage := by
  simp [State.acceptMerge]

@[simp] theorem State.storage_setPhaser (s : State) (bay n : Nat) (p : Phaser) : (s.setPhaser bay n p).storage = s.storage := by
  simp [State.setPhaser]

@[simp] theorem State.storage_dropEverywhere (s : State) (m : Member) : (s.dropEverywhere m).storage = s.storage := by
  simp [State.dropEverywhere]

@[simp] theorem State.storage_setSem (s : State) (c n v : Nat) : (s.setSem c n v).storage = s.storage := by
  exact State.storage_setCore (s := s) (c := c) (by rw [← State.core_typed]; rfl)

theorem State.storage_addSem {s t : State} {c n : Nat} {d : Int} (h : s.addSem c n d = some t) : t.storage = s.storage := by
  unfold State.addSem at h
  dsimp only at h
  split at h
  · cases h
  · cases h
    simp

@[simp] theorem State.storage_markSlots (s : State) (b : Nat) (addr : Word) (used : Bool) : (s.markSlots b addr used).storage = s.storage := by
  rfl

@[simp] theorem State.storage_lowerJoin (s : State) (id : Option Nat) : (s.lowerJoin id).storage = s.storage := by
  unfold State.lowerJoin
  split <;> simp

@[simp] theorem State.storage_vacate (s : State) : (s.vacate).storage = s.storage := by
  unfold State.vacate
  dsimp only
  split <;> simp

@[simp] theorem State.storage_makeReady (s : State) (id : Nat) : (s.makeReady id).storage = s.storage := by
  simp [State.makeReady]

@[simp] theorem State.storage_wakePeg (s : State) (id : Nat) (suspended : Nat → Nat → Bool) (spinning : Spin → Core → Bool) :
    (s.wakePeg id suspended spinning).storage = s.storage := by
  unfold State.wakePeg
  exact Storage.of_mapCores _ fun e => by (repeat' split) <;> simp

@[simp] theorem Core.typed_setEntry (k : Core) (c : Cmd) : (k.setEntry c).typed = k.typed := by
  simp [Core.setEntry]

@[simp] theorem Core.typed_dropEntry (k : Core) (n : BitVec 32) : (k.dropEntry n).typed = k.typed := by
  simp [Core.dropEntry]

@[simp] theorem State.storage_bridgeCount (s : State) (core bent j : Nat) (b : Word) : (s.bridgeCount core bent j b).storage = s.storage := by
  unfold State.bridgeCount
  dsimp only
  (repeat' split) <;> simp

@[simp] theorem State.storage_signal (s : State) (core : Nat) (c : Cmd) : (s.signal core c).storage = s.storage := by
  unfold State.signal
  split
  · rfl
  · dsimp only
    cases h : s.addSem core c.ws.ssem.toNat c.ws.sinc.toNat with
    | none =>
      dsimp only
      split
      · simp
      · exact (State.storage_foldl (fun _ _ => by split <;> simp) _ _).trans (by simp)
    | some t =>
      dsimp only
      split
      · exact State.storage_addSem h
      · exact (State.storage_foldl (fun _ _ => by split <;> simp) _ _).trans (State.storage_addSem h)

@[simp] theorem State.storage_complete (s : State) (core : Nat) (c : Cmd) (sig : Bool) : (s.complete core c sig).storage = s.storage := by
  unfold State.complete
  split <;> simp

@[simp] theorem State.storage_stopCmd (s : State) (core : Nat) (c : Cmd) (code elem : Nat) (addr : Word) :
    (s.stopCmd core c code elem addr).storage = s.storage := by
  simp [State.stopCmd]

@[simp] theorem State.storage_firstUseCmd (s : State) (core : Nat) (c : Cmd) (w : Nat) : (s.firstUseCmd core c w).storage = s.storage := by
  simp [State.firstUseCmd]

@[simp] theorem State.storage_dropContext (s : State) (core uid : Nat) : (s.dropContext core uid).storage = s.storage := by
  simp [State.dropContext]

@[simp] theorem State.storage_dropCommands (s : State) (id : Nat) : (s.dropCommands id).storage = s.storage := by
  unfold State.dropCommands
  exact Storage.of_mapCores _ fun e => by simp

@[simp] theorem State.storage_dropSaved (s : State) (p : Peg) : (s.dropSaved p).storage = s.storage := by
  unfold State.dropSaved
  split <;> simp [State.storage_foldl]

theorem State.storage_issueMerge {s t : State} {bay b : Nat} {ag : Agent} {peg : Nat} {cmd : Option Nat} {cls : Nat} {va : Word} {st : Stats}
    (h : s.issueMerge bay b ag peg cmd cls va st = .ok t) : t.storage = s.storage := by
  unfold State.issueMerge at h
  (repeat' split at h) <;> cases h <;> simp

@[simp] theorem State.storage_sendLate (s : State) (w : Issuer) (late : List (Loc × List Byte)) : (s.sendLate w late).storage = s.storage := by
  unfold State.sendLate
  exact State.storage_foldl (fun _ _ => by simp) _ _

@[simp] theorem State.storage_touchParts (s : State) (bay b : Nat) (need : Need) (va : Word) (l : List (Loc × Nat)) :
    (s.touchParts bay b need va l).storage = s.storage := by
  induction l generalizing s va with
  | nil => rfl
  | cons e t ih => simp [State.touchParts, ih]

@[simp] theorem State.storage_abortRound (s : State) (bay : Nat) (r : BitVec 32) : (s.abortRound bay r).storage = s.storage := by
  unfold State.abortRound
  dsimp only
  split <;> simp [State.storage_foldl]

@[simp] theorem State.storage_holdMessage (s : State) (bay : Nat) (m : CollMsg) : (s.holdMessage bay m).storage = s.storage := by
  unfold State.holdMessage
  dsimp only
  split <;> rfl

@[simp] theorem State.storage_sendStep (s : State) (memb : Nat) (m : CollMsg) : (s.sendStep memb m).storage = s.storage := by
  unfold State.sendStep
  dsimp only
  (repeat' split) <;> simp

@[simp] theorem State.storage_takeHeld (s : State) (bay : Nat) (c : Cmd) : (s.takeHeld bay c).1.storage = s.storage := by
  simp [State.takeHeld]

@[simp] theorem State.storage_abortDone (s : State) (core : Nat) (c : Cmd) : (s.abortDone core c).storage = s.storage := by
  unfold State.abortDone
  simp [State.storage_foldl]

@[simp] theorem State.storage_dropSillPages (s : State) (root : Nat) (va : Option Nat) : (s.dropSillPages root va).storage = s.storage := by
  unfold State.dropSillPages
  exact Storage.of_mapCores _ fun e => by split <;> simp

@[simp] theorem Core.typed_unlock (k : Core) (b line : Nat) : (k.unlock b line).typed = k.typed := by
  simp [Core.unlock]

@[simp] theorem Core.typed_frameFor (k : Core) (b line : Nat) (locked : Bool) (stamp : Nat) (key : BitVec 512) :
    (k.frameFor b line locked stamp key).typed = k.typed := by
  simp [Core.frameFor]

@[simp] theorem storage_klockLoop (b : Nat) (l : List Nat) (a : State × Nat × Nat × Nat) : (klockLoop b l a).1.storage = a.1.storage := by
  induction l generalizing a with
  | nil => rfl
  | cons w t ih =>
    obtain ⟨s, n, e, sh⟩ := a
    unfold klockLoop
    split
    · exact ih _
    · split
      · rw [ih]; simp
      · split
        · exact ih _
        · next v hv =>
          have hu : ((s.setMe (s.me.unlock v.bent v.line)).modBent v.bent (fun r => { r with lockLost := true })).storage = s.storage := by simp
          dsimp only
          generalize (s.setMe (s.me.unlock v.bent v.line)).modBent v.bent (fun r => { r with lockLost := true }) = u at hu ⊢
          rw [ih, ← hu]
          simp

@[simp] theorem Issue.storage_trap (i : Issue) (m : Move) (c code : Nat) (addr : Word) : (i.trap m c code addr).s.storage = i.s.storage := rfl

@[simp] theorem Issue.storage_trapIf (p : Prop) [Decidable p] (i : Issue) (m : Move) (c code : Nat) (addr : Word) :
    (if p then i.trap m c code addr else i).s.storage = i.s.storage := by
  split <;> rfl

@[simp] theorem Issue.storage_setCore {i : Issue} {b : Before} {k : Core} (h : k.typed = i.s.storage.core b.core) : (i.setCore b k).s.storage = i.s.storage :=
  State.storage_setCore h

@[simp] theorem Issue.storage_fly (i : Issue) (b1 a2 c : Nat) (d : LandDest) (v : Nat) (mask : BitVec 128) :
    (i.fly b1 a2 c d v mask).s.storage = i.s.storage := rfl

@[simp] theorem Issue.storage_result (i : Issue) (c : Nat) (k : KOp) (w v : Nat) : (i.result c k w v).s.storage = i.s.storage := rfl

@[simp] theorem Issue.storage_take (i : Issue) (m : Move) (c u : Nat) (r : KRes) : (i.take m c u r).s.storage = i.s.storage := rfl

/-- A run of steps of an issue that each leave storage alone. -/
theorem Issue.storage_foldl {α : Type} {f : Issue → α → Issue} (h : ∀ i a, (f i a).s.storage = i.s.storage) (l : List α) (i : Issue) :
    (l.foldl f i).s.storage = i.s.storage := by
  induction l generalizing i with
  | nil => rfl
  | cons a t ih => rw [List.foldl_cons, ih, h]

@[simp] theorem Issue.storage_pop (i : Issue) (b : Before) (m : Move) (c idx : Nat) : (i.pop b m c idx).1.s.storage = i.s.storage := by
  unfold Issue.pop
  dsimp only
  split
  · rfl
  · dsimp only
    split <;> rfl

@[simp] theorem Issue.storage_operands (i : Issue) (b : Before) (ms : List Move) (vals : AMap Nat) : (i.operands b ms vals).s.storage = i.s.storage := by
  refine Issue.storage_foldl (fun i m => ?_) _ _
  split
  · refine Issue.storage_foldl (fun i c => ?_) _ _
    split
    · split <;> rfl
    · rfl
  · rfl

@[simp] theorem Issue.storage_bru (i : Issue) (b : Before) (m : Move) (k : KOp) (e : KEnv) : (i.bru b m k e).s.storage = i.s.storage := by
  unfold Issue.bru
  dsimp only
  split
  · rfl
  · split
    · rfl
    · generalize hi : (if (decide (4 ≤ k.op) && decide (k.op ≤ 7) && (b.x.lc.get (k.op - 4) 0).toNat != 0) = true then
          i.fly 1 1 0 (.lc (k.op - 4)) ((b.x.lc.get (k.op - 4) 0).toNat - 1) (BitVec.allOnes 128) else i) = j
      have hj : j.s.storage = i.s.storage := by rw [← hi]; split <;> rfl
      rw [← hj]
      (repeat' split) <;> rfl

@[simp] theorem Issue.storage_global (i : Issue) (b : Before) (m : Move) (c : Nat) (need : Need) (kind : SrfxKind) (va : Word) (n cls : Nat)
    (flag : Option Nat) : (i.global b m c need kind va n cls flag).s.storage = i.s.storage := by
  unfold Issue.global
  dsimp only
  split
  · rfl
  · split <;> simp

@[simp] theorem Issue.storage_syn (i : Issue) (b : Before) (m : Move) (k : KOp) (e : KEnv) : (i.syn b m k e).s.storage = i.s.storage := by
  unfold Issue.syn
  dsimp only
  split
  · rfl
  · rfl
  · exact Issue.storage_foldl (fun _ _ => by simp) _ _
  · exact Issue.storage_foldl (fun _ _ => by simp) _ _
  · split
    · rfl
    · split
      · rfl
      · next h => exact State.storage_addSem h
  · split <;> rfl
  · split
    · rfl
    · split
      · rfl
      · split <;> simp

@[simp] theorem Core.typed_setCtx (k : Core) (x : Context) : (k.setCtx x).typed = k.typed := by
  simp [Core.setCtx]

@[simp] theorem State.storage_setCtx (s : State) (core : Nat) (x : Context) : (s.setCtx core x).storage = s.storage := by
  simp [State.setCtx]

@[simp] theorem State.storage_freezeTrap (s : State) (core : Nat) (x : Context) (t : KTrap) : (s.freezeTrap core x t).storage = s.storage := by
  unfold State.freezeTrap
  dsimp only
  (repeat' split) <;> simp

@[simp] theorem State.storage_ageContexts (s : State) (dclk : Nat) : (s.ageContexts dclk).storage = s.storage := by
  unfold State.ageContexts
  exact Storage.of_mapCores _ fun e => by split <;> simp

@[simp] theorem State.storage_stopCtx (s : State) (core : Nat) (x : Context) : (s.stopCtx core x).storage = s.storage := by
  unfold State.stopCtx
  (repeat' split) <;> simp

@[simp] theorem State.storage_setSession (s : State) (x : Session) : (s.setSession x).storage = s.storage := by
  simp [State.setSession]

@[simp] theorem State.storage_sendOn (s : State) (x : Session) (typ status : Nat) (body : List Byte) : (s.sendOn x typ status body).storage = s.storage := by
  simp [State.sendOn]

@[simp] theorem State.storage_reportMismatch (s : State) (b : Nat) (recAddr : Word) : (s.reportMismatch b recAddr).storage = s.storage := by
  unfold State.reportMismatch
  split <;> simp [State.storage_foldl]

theorem Core.typed_seatCmd {k q : Core} {c : Cmd} {bwd : Bool} (h : k.seatCmd c bwd = .ok q) : q.typed = k.typed := by
  unfold Core.seatCmd at h
  dsimp only at h
  (repeat' split at h) <;> cases h
  simp

theorem Core.typed_unseatCmd {k q : Core} {c : Cmd} (h : k.unseatCmd c = .ok q) : q.typed = k.typed := by
  unfold Core.unseatCmd at h
  dsimp only at h
  split at h <;> cases h
  simp

theorem Core.typed_finSetCmd {k q : Core} {c : Cmd} (h : k.finSetCmd c = .ok q) : q.typed = k.typed := by
  unfold Core.finSetCmd at h
  split at h <;> cases h
  simp

@[simp] theorem Core.typed_showRun (k : Core) (j : Jig) (step : Nat) : (k.showRun j step).typed = k.typed := by
  simp [Core.showRun]

@[simp] theorem State.storage_retireColumn (s : State) (core u bent : Nat) : (s.retireColumn core u bent).storage = s.storage := by
  exact State.storage_setCore (s := s) (c := core) (by rw [← State.core_typed]; rfl)

@[simp] theorem State.storage_residueLost (s : State) (core : Nat) (c : Cmd) : (s.residueLost core c).storage = s.storage := by
  simp [State.residueLost]

@[simp] theorem State.storage_stopRun (s : State) (core : Nat) (j : Jig) (code step : Nat) (addr : Word) :
    (s.stopRun core j code step addr).storage = s.storage := by
  simp [State.stopRun]

@[simp] theorem State.storage_disarm (s : State) (c : Cmd) : (s.disarm c).storage = s.storage := by
  unfold State.disarm
  simp [State.storage_foldl]

@[simp] theorem State.storage_stopSill (s : State) (ch code : Nat) (addr : Word) : (s.stopSill ch code addr).storage = s.storage := by
  unfold State.stopSill
  dsimp only
  split <;> simp

theorem State.storage_sillLoc {s t : State} {ch va : Nat} {need : Need} {l : Loc} (h : s.sillLoc ch va need = .ok (t, l)) : t.storage = s.storage := by
  unfold State.sillLoc at h
  dsimp only at h
  split at h
  · cases h; rfl
  · split at h <;> cases h
    rfl

@[simp] theorem State.storage_sillAccess (s : State) (ch va off n : Nat) (need : Need) (own : Bool) :
    (s.sillAccess ch va off n need own).state.storage = s.storage := by
  unfold State.sillAccess
  dsimp only
  split
  · simp [SillAcc.state]
  · next t l h =>
    have ht := State.storage_sillLoc h
    (repeat' split) <;> simp [SillAcc.state, ht]

theorem State.storage_sweepMerge {s t : State} {ch : Nat} {u : Sill} (h : s.sweepMerge ch u = .ok t) : t.storage = s.storage := by
  unfold State.sweepMerge at h
  split at h
  · cases h; rfl
  · exact State.storage_issueMerge h

theorem Core.typed_sallocCmd {k q : Core} {c : Cmd} {sp : LocalSpace} (h : k.sallocCmd c sp = .ok q) : q.typed = k.typed := by
  unfold Core.sallocCmd at h
  dsimp only at h
  split at h <;> cases h
  simp

@[simp] theorem State.storage_putCmd (s : State) (core : Nat) (c : Cmd) : (s.putCmd core c).storage = s.storage := by
  simp [State.putCmd]

@[simp] theorem Core.typed_freeFrame (k : Core) (id : Nat) (f : CoreFrame) : (k.freeFrame id f).typed = k.typed := by
  simp [Core.freeFrame]

theorem Core.typed_putCtxs {k q : Core} {f : CoreFrame} {l : List Context} (h : k.putCtxs f l = some q) : q.typed = k.typed := by
  induction l generalizing k with
  | nil => cases h; rfl
  | cons x t ih =>
    unfold Core.putCtxs at h
    split at h
    · cases h
    · exact (ih h).trans (by simp)

@[simp] theorem State.storage_loadInto (s : State) (b off : Nat) (compat : Bool) (bundles map : List Byte) :
    (s.loadInto b off compat bundles map).storage = s.storage := by
  exact State.storage_mapCores (s := s) fun _ => ⟨rfl, rfl⟩

@[simp] theorem State.storage_loadNative (s : State) (b : Nat) (d : List Byte) : (s.loadNative b d).s.storage = s.storage := by
  unfold State.loadNative
  (repeat' split) <;> simp

@[simp] theorem State.storage_flushICaches (s : State) : (s.flushICaches).storage = s.storage := by
  unfold State.flushICaches
  exact Storage.of_mapCores _ fun e => by simp

@[simp] theorem State.storage_poisonUnit (s : State) (pa : Nat) : (s.poisonUnit pa).storage = s.storage := by
  unfold State.poisonUnit
  split <;> simp

@[simp] theorem State.storage_countPoison (s : State) : (s.countPoison).storage = s.storage := by
  simp [State.countPoison]

@[simp] theorem State.storage_poisonCluster (s : State) (core uid cid : Nat) (f : CtxCluster → CtxCluster) :
    (s.poisonCluster core uid cid f).storage = s.storage := by
  unfold State.poisonCluster
  dsimp only
  (repeat' split) <;> simp

@[simp] theorem State.storage_storageError (s : State) (u : StorageUnit) : (s.storageError u).storage = s.storage := by
  unfold State.storageError
  cases u with
  | buffer core sp u => cases sp <;> dsimp only <;> (repeat' split) <;> simp
  | scaleRows core u => dsimp only; split <;> simp
  | l2 bay line u => dsimp only; (repeat' split) <;> simp
  | _ => simp

@[simp] theorem State.storage_ecc (s : State) (pa : Nat) (e : EccCheck) : (s.ecc pa e).storage = s.storage := by
  unfold State.ecc
  split <;> simp

theorem State.storage_sendFabric {s t : State} {p : FabricPacket} (h : s.sendFabric p = some t) : t.storage = s.storage := by
  unfold State.sendFabric at h
  split at h <;> cases h
  simp

theorem storage_sendAll {s t : State} {l : List FabricPacket} (h : sendAll s l = some t) : t.storage = s.storage := by
  induction l generalizing s with
  | nil => cases h; rfl
  | cons p l ih =>
    obtain ⟨u, hu, h⟩ := Option.bind_eq_some_iff.mp h
    rw [ih h, State.storage_sendFabric hu]

theorem State.storage_forward {s t : State} {p : FabricPacket} (h : s.forward p = some t) : t.storage = s.storage := by
  unfold State.forward at h
  obtain ⟨u, hu, h⟩ := Option.bind_eq_some_iff.mp h
  replace hu : u.storage = s.storage := (storage_sendAll hu).trans (by simp)
  split at h
  · cases h
    exact hu
  · exact (State.storage_sendFabric h).trans hu

@[simp] theorem State.storage_putRoce (s : State) (port : Nat) (qpn : BitVec 24) (q : QueuePair) (header sealedData : List Byte) :
    (s.putRoce port qpn q header sealedData).storage = s.storage := by
  unfold State.putRoce
  split <;> simp

@[simp] theorem State.storage_sendRoce (s : State) (port : Nat) (qpn : BitVec 24) (ext : Nat) (header data : List Byte) :
    (s.sendRoce port qpn ext header data).storage = s.storage := by
  unfold State.sendRoce
  split <;> simp

@[simp] theorem State.storage_cnp (s : State) (p : RocePacket) (ext : Nat) : (s.cnp p ext).storage = s.storage := by
  unfold State.cnp
  (repeat' split) <;> simp

@[simp] theorem State.storage_readAnswers (s : State) (p : RocePacket) (ext msn n f : Nat) (d : List Byte) :
    (s.readAnswers p ext msn n f d).storage = s.storage := by
  induction f generalizing s d with
  | zero => rfl
  | succ f ih => simp [State.readAnswers, ih]

@[simp] theorem State.storage_measureTemps (s : State) (temps : List Int) : (s.measureTemps temps).storage = s.storage := by
  unfold State.measureTemps
  simp [State.storage_foldl]

@[simp] theorem State.storage_bringUp (s : State) (b : BringUp) (dump : Option Dump) : (s.bringUp b dump).storage = s.blank.storage := by
  simp only [State.bringUp, State.storage_mk, Storage.of_fields]

@[simp] theorem State.storage_blank (s : State) : s.blank.storage = State.reset.storage := by
  simp only [State.blank, State.storage_mk, Storage.of_fields]

@[simp] theorem State.storage_countDispatch (s : State) (b : Nat) : (s.countDispatch b).storage = s.storage := by
  simp [State.countDispatch]

@[simp] theorem Core.typed_resumeCtx (k : Core) (n : BitVec 32) (thr : Option Nat) : (k.resumeCtx n thr).typed = k.typed := by
  unfold Core.resumeCtx
  dsimp only
  (repeat' split) <;> rfl

@[simp] theorem Core.typed_resumeCmd (k : Core) (n : BitVec 32) (thr : Option Nat) : (k.resumeCmd n thr).typed = k.typed := by
  unfold Core.resumeCmd
  (repeat' split) <;> rfl

@[simp] theorem State.storage_dropEntry (s : State) (c : Cmd) (sig : Bool) : (s.dropEntry c sig).storage = s.storage := by
  unfold State.dropEntry
  (repeat' split) <;> simp

@[simp] theorem State.storage_beginTurn (s : State) (t : Turn) : (s.beginTurn t).storage = s.storage := by
  simp [State.beginTurn]

end Sys2Proof.Machine
end

section
/-! SUPPORT for O14 and O45. The operations that write memory keep it canonical, and the typed buffers as they were. -/

namespace Sys2Proof.Machine
open Sys2Proof Sys2Proof.Claims

section
variable {P : Nat → Rights} {v : Storage} {s : State} (h : v.Keeps P s.storage)
include h

/-! ## A write at home -/

/-- A change that leaves the cores alone and memory canonical. -/
theorem Storage.Keeps.of_cores {t : State} (hc : t.cores = s.cores) (hm : ByteMap.wf s.mem = true → ByteMap.wf t.mem = true) :
    v.Keeps P t.storage := by
  have := h.of_mem hm
  rwa [← hc, Storage.of_fields] at this

@[simp] theorem Storage.Keeps.putBytes (slot : Option Nat) (pa : Nat) (d : List Byte) : v.Keeps P (s.putBytes slot pa d).storage := by
  refine h.of_cores ?_ (State.wf_putBytes slot pa d)
  obtain ⟨_, _, e⟩ := State.putBytes_eq s slot pa d
  rw [e]

@[simp] theorem Storage.Keeps.closeAccums (pa n : Nat) : v.Keeps P (s.closeAccums pa n).storage := by
  refine h.of_cores ?_ (State.wf_closeAccums pa n)
  obtain ⟨_, _, e⟩ := State.closeAccums_eq s pa n
  rw [e]

@[simp] theorem Storage.Keeps.readLoc (l : Loc) (n : Nat) : v.Keeps P (s.readLoc l n).1.storage := h.closeAccums ..

@[simp] theorem Storage.Keeps.writeLoc (l : Loc) (data : List Byte) : v.Keeps P (s.writeLoc l data).storage := by
  simp [State.writeLoc, h]

@[simp] theorem Storage.Keeps.accumulate (l : Loc) (op : MergeOp) (size operand : Nat) : v.Keeps P (s.accumulate l op size operand).storage := by
  unfold State.accumulate
  dsimp only
  split <;> simp [h]

@[simp] theorem Storage.Keeps.mergeAtHome (l : Loc) (op : MergeOp) (size operand : Nat) (det : Bool) :
    v.Keeps P (s.mergeAtHome l op size operand det).storage := by
  unfold State.mergeAtHome
  (repeat' split) <;> simp [h]

@[simp] theorem Storage.Keeps.clearUnder (slot pa n : Nat) : v.Keeps P (s.clearUnder slot pa n).storage :=
  (h.closeAccums pa n).of_mem (ByteMap.wf_filter _)

/-! ## Firmware's kill of a bent -/

@[simp] theorem Storage.Keeps.saveWrite (b off : Nat) (data : List Byte) : v.Keeps P (s.saveWrite b off data).storage := by
  unfold State.saveWrite
  (repeat' split) <;> simp [h]

@[simp] theorem Storage.Keeps.recordLast (b cause kind : Nat) : v.Keeps P (s.recordLast b cause kind).storage := by
  unfold State.recordLast
  (repeat' split) <;> simp [h]

@[simp] theorem Storage.Keeps.killBent (b cause kind : Nat) : v.Keeps P (s.killBent b cause kind).storage := by
  simp [State.killBent, h]

/-! ## Accesses -/

@[simp] theorem Storage.Keeps.fetchLoc (core : Option Nat) (bay : Nat) (l : Loc) (n : Nat) : v.Keeps P (s.fetchLoc core bay l n).1.storage := by
  unfold State.fetchLoc
  split
  · exact (h.closeAccums ..).of_eq (State.storage_foldl (fun _ _ => by simp) _ _)
  · exact h.closeAccums ..

@[simp] theorem Storage.Keeps.performHere (a : Access) : v.Keeps P (s.performHere a).storage := by
  unfold State.performHere
  dsimp only
  (repeat' split) <;> simp [h]

@[simp] theorem Storage.Keeps.perform (a : Access) : v.Keeps P (s.perform a).storage := by
  unfold State.perform
  (repeat' split) <;> simp [h]

@[simp] theorem Storage.Keeps.issue (a : Access) : v.Keeps P (s.issue a).storage := by
  unfold State.issue
  split <;> simp [h]

@[simp] theorem Storage.Keeps.accessAll (cls : BitVec 4) (o : BitVec 2) (us : Units) (va : Word) (l : Loc) :
    v.Keeps P (s.accessAll cls o us va l).storage :=
  Storage.Keeps.foldl (fun _ _ ht => ht.issue _) us (by simpa using h)

/-! ## Pegs -/

@[simp] theorem Storage.Keeps.writeRecord (l : Loc) (w : Nat) (pc : Word) : v.Keeps P (s.writeRecord l w pc).storage := by
  simp [State.writeRecord, h]

@[simp] theorem Storage.Keeps.ovqPut (b : Nat) (r : Bent) (n : BitVec 32) (recAddr : Word) : v.Keeps P (s.ovqPut b r n recAddr).storage := by
  unfold State.ovqPut
  split <;> simp [h]

@[simp] theorem Storage.Keeps.ovqWrite (b : Nat) (recAddr : Word) : v.Keeps P (s.ovqWrite b recAddr).storage := by
  unfold State.ovqWrite
  split <;> simp [h]

@[simp] theorem Storage.Keeps.ovqFill (b : Nat) (r : Bent) (n : BitVec 32) (l : List Nat) : v.Keeps P (s.ovqFill b r n l).storage := by
  induction l generalizing s n with
  | nil => exact h
  | cons i t ih =>
    refine ih ?_ _
    split <;> simp [h]

@[simp] theorem Storage.Keeps.leaveQueue (b id : Nat) : v.Keeps P (s.leaveQueue b id).storage := by
  unfold State.leaveQueue
  (repeat' split) <;> simp [h]

@[simp] theorem Storage.Keeps.addPeg (p : Peg) (pl : Place) : v.Keeps P (s.addPeg p pl).1.storage := by
  unfold State.addPeg
  split <;> simp [h]

theorem Storage.Keeps.moveOne {t : State} {bay : Nat} (e : s.moveOne bay = some t) : v.Keeps P t.storage := by
  unfold State.moveOne at e
  split at e
  · cases e
  · obtain ⟨i, -, rfl⟩ := Option.map_eq_some_iff.mp e
    simp [h]

@[simp] theorem Storage.Keeps.moveIn (n bay : Nat) : v.Keeps P (moveIn n bay s).storage := by
  induction n generalizing s with
  | zero => exact h
  | succ n ih =>
    unfold Sys2Proof.Machine.moveIn
    split
    · next e => exact ih (h.moveOne e)
    · exact h

@[simp] theorem Storage.Keeps.removePeg (id : Nat) : v.Keeps P (s.removePeg id).storage := by
  unfold State.removePeg
  split
  · exact h
  · dsimp only
    split <;> simp [h]

@[simp] theorem Storage.Keeps.suspend (l : Loc) (pc : Word) (st : PegState) (w : Option Wait) : v.Keeps P (s.suspend l pc st w).storage := by
  unfold State.suspend
  split <;> simp [h]

@[simp] theorem Storage.Keeps.writeSt (l : Loc) (st : Nat) : v.Keeps P (s.writeSt l st).storage := by
  simp [State.writeSt, h]

@[simp] theorem Storage.Keeps.writeExit (l : Loc) : v.Keeps P (s.writeExit l).storage := by
  simp [State.writeExit, h]

theorem Storage.Keeps.enqueue {t : State} {caller bay : Nat} {addr : Word} {d : List Byte} (e : s.enqueue caller bay addr d = .go t) :
    v.Keeps P t.storage := by
  unfold State.enqueue at e
  dsimp only at e
  (repeat' split at e) <;> cases e <;> simp [h]

@[simp] theorem Storage.Keeps.endWait (id : Nat) (p : Peg) (must : Bool) (f : List Byte → List Byte) :
    v.Keeps P (s.endWait id p must f).storage := by
  unfold State.endWait
  dsimp only
  (repeat' split) <;> simp [h]

@[simp] theorem Storage.Keeps.abandonWait (id : Nat) (p : Peg) : v.Keeps P (s.abandonWait id p).storage := by
  unfold State.abandonWait
  dsimp only
  (repeat' split) <;> simp [h]

/-! ## Bents and their records -/

@[simp] theorem Storage.Keeps.putBentRecord (b : Nat) (r : Bent) : v.Keeps P (s.putBentRecord b r).storage := by
  unfold State.putBentRecord
  dsimp only
  split <;> simp [h]

@[simp] theorem Storage.Keeps.writeBackBent (b : Nat) (r : Bent) : v.Keeps P (s.writeBackBent b r).storage := by
  unfold State.writeBackBent
  dsimp only
  split <;> simp [h]

@[simp] theorem Storage.Keeps.dropSpills (b : Nat) (r : Bent) : v.Keeps P (s.dropSpills b r).storage := by
  unfold State.dropSpills
  split
  · exact h
  · exact Storage.Keeps.foldl (fun _ _ ht => by simp [ht]) _ (by simp [h])

/-! ## Scribe records -/

@[simp] theorem Storage.Keeps.putRecord (l : Loc) (d : List Byte) : v.Keeps P (s.putRecord l d).storage := by
  simp [State.putRecord, h]

@[simp] theorem Storage.Keeps.mergeStats (l : Loc) (st : Stats) : v.Keeps P (s.mergeStats l st).storage := by
  unfold State.mergeStats
  split <;> simp [h]

theorem Storage.Keeps.bindRecord {t : State} {bay b : Nat} {ag : Agent} {va : Word} {st : Stats} (e : s.bindRecord bay b ag va = .ok t st) :
    v.Keeps P t.storage := by
  unfold State.bindRecord at e
  (repeat' split at e) <;> cases e
  simp [h]

/-! ## Accesses of engines and firmware -/

@[simp] theorem Storage.Keeps.readParts (bay : Nat) (l : List (Loc × Nat)) : v.Keeps P (s.readParts bay l).1.storage := by
  induction l generalizing s with
  | nil => exact h
  | cons e t ih => exact ih (h.fetchLoc ..)

@[simp] theorem Storage.Keeps.writePart (w : Issuer) (bay : Nat) (va : Word) (l : Loc) (d : List Byte) :
    v.Keeps P (s.writePart w bay va l d).storage := by
  unfold State.writePart
  split <;> simp [h]

@[simp] theorem Storage.Keeps.writeParts (w : Issuer) (bay : Nat) (va : Word) (l : List (Loc × Nat)) (d : List Byte) :
    v.Keeps P (s.writeParts w bay va l d).storage := by
  induction l generalizing s va d with
  | nil => exact h
  | cons e t ih => exact ih (h.writePart ..) ..

theorem Storage.Keeps.gReadAs {t : State} {bay : Nat} {w : Issuer} {need : Need} {va : Word} {n : Nat} {d : List Byte}
    (e : s.gReadAs bay w need va n = .ok t d) : v.Keeps P t.storage := by
  unfold State.gReadAs at e
  dsimp only at e
  split at e <;> cases e
  split <;> simp [h]

theorem Storage.Keeps.gRead {t : State} {bay : Nat} {w : Issuer} {va : Word} {n : Nat} {d : List Byte} (e : s.gRead bay w va n = .ok t d) :
    v.Keeps P t.storage := h.gReadAs e

theorem Storage.Keeps.gWrite {t : State} {bay : Nat} {w : Issuer} {va : Word} {d r : List Byte} (e : s.gWrite bay w va d = .ok t r) :
    v.Keeps P t.storage := by
  unfold State.gWrite at e
  split at e <;> cases e
  simp [h]

theorem Storage.Keeps.gPatch {t : State} {bay : Nat} {w : Issuer} {p : Spot} {n : Nat} {r : List Byte} (e : s.gPatch bay w p n = .ok t r) :
    v.Keeps P t.storage := by
  unfold State.gPatch at e
  dsimp only at e
  split at e <;> cases e
  exact Storage.Keeps.of_eq (by simp [h]) (State.storage_foldl (fun _ _ => by simp) _ _)

/-! ## The save area -/

theorem Storage.Keeps.saveGet {b off n : Nat} {r : State × List Byte} (e : s.saveGet b off n = some r) : v.Keeps P r.1.storage := by
  unfold State.saveGet at e
  split at e
  · cases e
  · split at e <;> cases e
    next hg => exact h.gRead hg

theorem Storage.Keeps.savePut {t : State} {b off : Nat} {d : List Byte} (e : s.savePut b off d = some t) : v.Keeps P t.storage := by
  unfold State.savePut at e
  split at e
  · cases e
  · split at e <;> cases e
    next hg => exact h.gWrite hg

theorem Storage.Keeps.saveHeader {b : Nat} {r : State × SaveHeader} (e : s.saveHeader b = some r) : v.Keeps P r.1.storage := by
  unfold State.saveHeader at e
  obtain ⟨q, hq, rfl⟩ := Option.map_eq_some_iff.mp e
  exact h.saveGet hq

theorem Storage.Keeps.saveMarked {t : State} {b off : Nat} {d : List Byte} {bad : Nat → Bool} (e : s.saveMarked b off d bad = some t) :
    v.Keeps P t.storage := by
  unfold State.saveMarked at e
  obtain ⟨ls, -, rfl⟩ := Option.map_eq_some_iff.mp e
  simp [h]

theorem Storage.Keeps.spillWindow {t : State} {core w owner : Nat} (e : s.spillWindow core w owner = some t) : v.Keeps P t.storage := by
  unfold State.spillWindow at e
  split at e
  · cases e
  · next hd =>
    split at e
    · obtain ⟨s3, h3, rfl⟩ := Option.map_eq_some_iff.mp e
      obtain ⟨s2, h2, h3⟩ := Option.bind_eq_some_iff.mp h3
      exact ((h.saveHeader hd).saveMarked h2).savePut (t := s3) h3
    · cases e

theorem Storage.Keeps.spillAll {t : State} {core b : Nat} {l : List Nat} (e : s.spillAll core b l = some t) : v.Keeps P t.storage := by
  induction l generalizing s with
  | nil => cases e; exact h
  | cons w l ih =>
    obtain ⟨u, hu, e⟩ := Option.bind_eq_some_iff.mp e
    exact ih (h.spillWindow hu) e

theorem Storage.Keeps.saveCore {t : State} {b off : Nat} {f : CoreFrame} (e : s.saveCore b off f = some t) : v.Keeps P t.storage :=
  Storage.Keeps.saveMarked (by simpa using h) e

theorem Storage.Keeps.framesOf {p : Peg} {r : State × List Byte × Nat} (e : s.framesOf p = some r) : v.Keeps P r.1.storage := by
  unfold State.framesOf at e
  split at e
  · next hd =>
    obtain ⟨q, hq, e⟩ := Option.bind_eq_some_iff.mp e
    have hq := (h.saveHeader hd).saveGet hq
    split at e
    · cases e
      exact hq
    · obtain ⟨u, hu, rfl⟩ := Option.map_eq_some_iff.mp e
      exact hq.saveGet hu
  · cases e

@[simp] theorem Storage.Keeps.savePeg (id : Nat) (p : Peg) : v.Keeps P (s.savePeg id p).storage := by
  unfold State.savePeg
  split
  · exact h.killBent ..
  · exact h.killBent ..
  · next hd =>
    have h1 := h.saveHeader hd
    dsimp only
    split
    · split
      · exact h1.killBent ..
      · next hb =>
        obtain ⟨u, hu, hc⟩ := Option.bind_eq_some_iff.mp hb
        have hu := h1.savePut hu
        split at hc
        · simp [hu.saveCore hc]
        · cases hc
          simp [hu]
    · simp [h1]

/-! ## Images and quotas -/

theorem Storage.Keeps.loadForm {b : Nat} {d : List Byte} {out : Word} {n : Nat} {l : Loaded} (e : s.loadForm b d out n = some l) :
    v.Keeps P l.s.storage := by
  unfold State.loadForm at e
  dsimp only at e
  repeat' split at e
  all_goals cases e
  any_goals exact h
  · next hg => simp [h.gWrite hg]
  · simp [h]

@[simp] theorem Storage.Keeps.mapQuota (at_ base quota key : Nat) : v.Keeps P (s.mapQuota at_ base quota key).storage := by
  unfold State.mapQuota
  exact Storage.Keeps.foldl (fun _ _ ht => by simp [ht]) _ (by simp [h])

@[simp] theorem Storage.Keeps.fatal (cause : Nat) : v.Keeps P (s.fatal cause).storage := by
  unfold State.fatal
  dsimp only
  exact Storage.Keeps.foldl (fun _ _ ht => by simp [ht]) _ (by simp [h])

end

end Sys2Proof.Machine
end

section
/-! SUPPORT for O14 and O45. Writers of typed buffers keep what their rights do not name. -/

namespace Sys2Proof.Machine
open Sys2Proof Sys2Proof.Claims

/-- A table without the entries of some keys. -/
theorem AMap.find?_filter_keys {α : Type} (m : AMap α) (q : Nat → Bool) (n : Nat) :
    AMap.find? (m.filter fun e => q e.1) n = if q n then m.find? n else none := by
  induction m with
  | nil => simp [AMap.find?]
  | cons e t ih =>
    obtain ⟨j, v⟩ := e
    by_cases hn : j = n
    · subst hn
      by_cases hj : q j <;> simp [hj, AMap.find?_cons, ih]
    · by_cases hj : q j <;> simp [hj, hn, AMap.find?_cons, ih]

theorem find?_eraseRange {α : Type} (m : AMap α) (lo n a : Nat) :
    AMap.find? (eraseRange m lo n) a = if lo ≤ a ∧ a < lo + n then none else m.find? a := by
  refine (AMap.find?_filter_keys m (fun j => !(decide (lo ≤ j) && decide (j < lo + n))) a).trans ?_
  by_cases h : lo ≤ a ∧ a < lo + n
  · simp [h]
  · rw [if_neg h, if_pos]
    simp only [Bool.not_eq_true', Bool.and_eq_false_iff, decide_eq_false_iff_not]
    exact not_and_or.mp h

/-! ## The buffers of one core -/

section
variable {r : Rights} {b : Buffers} {k : Core} (h : b.Keeps r k.typed)
include h

theorem Buffers.Keeps.of_eq {m : Buffers} (e : m = k.typed) : b.Keeps r m := e ▸ h

/-- A write of the SRF, by one who may. -/
theorem Buffers.Keeps.writeSrf (hr : r.srf = true) (off : Nat) (d : List Byte) : b.Keeps r (k.writeBuf .srf off d).typed :=
  h.trans ⟨fun hs => (by simp [hr] at hs), fun _ _ => rfl, fun _ => .refl _, fun _ => ⟨rfl, rfl, rfl⟩⟩

/-- A change of the accumulators and their owners, by one who may write them. -/
theorem Buffers.Keeps.writesAcc (hr : r.acc = true) (acc : ByteMap) (own : AMap Word) : b.Keeps r { k.typed with acc := acc, own := own } :=
  h.trans ⟨fun _ => rfl, fun ha => (by simp [hr] at ha), fun ha => (by simp [hr] at ha), fun _ => ⟨rfl, rfl, rfl⟩⟩

theorem Buffers.Keeps.writeAcc (hr : r.acc = true) (off : Nat) (d : List Byte) : b.Keeps r (k.writeBuf .acc off d).typed := h.writesAcc hr _ _

theorem Buffers.Keeps.touch (hr : r.acc = true) {q : Core} {w n : Nat} (e : k.touch w n = .ok q) : b.Keeps r q.typed := by
  unfold Core.touch at e
  dsimp only at e
  (repeat' split at e) <;> cases e
  · exact h.writesAcc hr _ _
  · exact h

theorem Buffers.Keeps.clearWindow (hr : r.clear = true) (w : Nat) : b.Keeps r (k.clearWindow w).typed := by
  refine h.trans ⟨fun _ => rfl, fun _ hc => (by simp [hr] at hc), fun _ => ⟨fun a => ?_, fun j => ?_⟩, fun _ => ⟨rfl, rfl, rfl⟩⟩
  · show AMap.get (eraseRange k.acc (4096 * w) 4096) a 0 = AMap.get k.acc a 0 ∨
      AMap.get (eraseRange k.acc (4096 * w) 4096) a 0 = 0 ∧ (k.accOwn.erase w).get (a / 4096) 0 = 0
    simp only [AMap.get, find?_eraseRange]
    split
    · refine .inr ⟨rfl, ?_⟩
      rw [show a / 4096 = w by omega, AMap.find?_erase_same]
      rfl
    · exact .inl rfl
  · show (k.accOwn.erase w).get j 0 = k.accOwn.get j 0 ∨ (k.accOwn.erase w).get j 0 = 0
    by_cases hj : j = w
    · subst hj; exact .inr (by simp [AMap.get])
    · exact .inl (by simp [AMap.get, hj])

theorem Buffers.Keeps.clearWindows (hr : r.clear = true) (ws : List Nat) : b.Keeps r (ws.foldl Core.clearWindow k).typed := by
  induction ws generalizing k with
  | nil => exact h
  | cons w t ih => exact ih (h.clearWindow hr w)

theorem Buffers.Keeps.clearOwned (hr : r.clear = true) (n : Nat) (ws : List Nat) : b.Keeps r (k.clearOwned n ws).typed := by
  induction ws generalizing k with
  | nil => exact h
  | cons w t ih =>
    refine ih ?_
    split
    · exact h.clearWindow hr w
    · exact h

theorem Buffers.Keeps.freeAlloc (hr : r.clear = true) (a : Alloc) : b.Keeps r (k.freeAlloc a).typed := by
  unfold Core.freeAlloc
  dsimp only
  split
  · exact h
  · exact h
  · exact Buffers.Keeps.clearOwned (k := { k with allocs := k.allocs.filter (fun e => !(decide (e = a))) }) h hr _ _

theorem Buffers.Keeps.freeAllocs (hr : r.clear = true) (sel : Alloc → Bool) : b.Keeps r (k.freeAllocs sel).typed := by
  unfold Core.freeAllocs
  generalize k.allocs.filter sel = l
  induction l generalizing k with
  | nil => exact h
  | cons a t ih => exact ih (h.freeAlloc hr a)

theorem Buffers.Keeps.accAdd (hr : r.acc = true) (t : ET) (rm : RMode) (sat : Bool) (off : Nat) (ds : List (Nat × Word32)) :
    b.Keeps r (accAdd k t rm sat off ds).typed :=
  List.foldlRecOn (motive := fun q : Core => b.Keeps r (Core.typed q)) (indexed 0 ds) _ h fun _ hk _ _ => hk.writeAcc hr _ _

theorem Buffers.Keeps.pushBytes (hr : r.srf = true) (x : Context) (idx a n v : Nat) : b.Keeps r (pushBytes k x idx a n v).1.typed :=
  h.writeSrf hr _ _

theorem Buffers.Keeps.landOne (hr : r.srf = true) (x : Context) (f : Flight) : b.Keeps r (landOne k x f).1.typed := by
  unfold Machine.landOne
  dsimp only
  split
  case h_6 => exact h.pushBytes hr ..
  all_goals exact h

theorem Buffers.Keeps.landAll (hr : r.srf = true) (x : Context) (fs : List Flight) : b.Keeps r (landAll k x fs).1.typed := by
  unfold Machine.landAll
  induction fs generalizing k x with
  | nil => exact h
  | cons f t ih => exact ih (h.landOne hr x f) _

end

/-! ## Windows that end -/

section
variable {P : Nat → Rights} {v : Storage} {s : State}

/-- A change of every core that its rights allow. -/
theorem Storage.Keeps.mapCores (h : v.Keeps P s.storage) {g : Nat × Core → Nat × Core} (hk : ∀ e, (g e).1 = e.1)
    (hg : ∀ c (k : Core), k.typed.Keeps (P c) (g (c, k)).2.typed) : v.Keeps P (State.storage { s with cores := s.cores.map g }) := by
  refine ⟨h.mem, fun c => (h.core c).trans ?_⟩
  show (AMap.get s.cores c Core.reset).typed.Keeps (P c) (AMap.get (s.cores.map g) c Core.reset).typed
  rcases AMap.get_mapCores (cores := s.cores) hk c with e | ⟨k, hk, e⟩
  · rw [e]
  · rw [hk, e]
    exact hg c k

/-- A core takes any buffers, by one who may write them all. -/
theorem Storage.Keeps.setCore_all {c : Nat} {k : Core} (h : v.Keeps P s.storage) (hP : P c = .all) : v.Keeps P (s.setCore c k).storage :=
  h.setCore (hP ▸ Buffers.keeps_all _ _)

end

section
variable {P : Nat → Rights} {v : Storage} {s : State} (hP : ∀ c, (P c).clear = true) (h : v.Keeps P s.storage)
include hP h

theorem Storage.Keeps.freePegAllocs (id : Nat) : v.Keeps P (s.freePegAllocs id).storage :=
  h.mapCores (fun _ => rfl) fun c _ => (Buffers.Keeps.refl ..).freeAllocs (hP c) _

theorem Storage.Keeps.endPeg (id : Nat) (p : Peg) : v.Keeps P (s.endPeg id p).storage := by
  have hw {t : State} (ht : v.Keeps P t.storage) : v.Keeps P ((t.dropCommands id).freePegAllocs id).storage :=
    Storage.Keeps.freePegAllocs hP (by simpa using ht) id
  unfold State.endPeg
  cases s.recordLoc (p.pool.getD homeBay) p .both
  all_goals
    dsimp only
    refine Storage.Keeps.removePeg (Storage.Keeps.of_eq ?_ (State.storage_mapCores fun e => by split <;> exact ⟨rfl, rfl⟩)) id
    rw [State.storage_dropSaved, apply_ite State.storage, State.storage_lowerJoin, ite_self]
  · exact hw (h.recordLast ..)
  · exact hw (h.writeSt ..)

theorem Storage.Keeps.endBent (b : Nat) (r : Bent) : v.Keeps P (s.endBent b r).storage := by
  have ht : v.Keeps P (((s.recordLast b 0x10 0).dropSpills b r).writeBackBent b r).storage :=
    ((h.recordLast b 0x10 0).dropSpills b r).writeBackBent b r
  unfold State.endBent
  generalize ((s.recordLast b 0x10 0).dropSpills b r).writeBackBent b r = t at ht ⊢
  have hc := ht.mapCores (g := fun e =>
    (e.1, { e.2.clearOwned b (rangeFrom 0 192) with frames := e.2.frames.filter (fun f => !(decide (f.bent = b))) })) (fun _ => rfl)
    fun c k => ((Buffers.Keeps.refl (P c) k.typed).clearOwned (hP c) b (rangeFrom 0 192)).of_eq (by simp)
  have hd (u : State) : ((rangeFrom 0 4).foldl (fun s j => s.dropEverywhere (.bridge b j)) u).storage = u.storage :=
    State.storage_foldl (fun _ _ => by simp) _ _
  dsimp only
  generalize hu : (rangeFrom 0 4).foldl _ _ = u
  have hu : v.Keeps P u.storage := by
    rw [← hu, hd]
    exact hc
  (repeat' split) <;> simp [hu]

theorem Storage.Keeps.reapN (n : Nat) : v.Keeps P (reapN n s).storage := by
  induction n generalizing s with
  | zero => exact h
  | succ n ih =>
    unfold Machine.reapN
    split
    · exact ih (Storage.Keeps.endBent hP h ..)
    · exact h

theorem Storage.Keeps.reap : v.Keeps P s.reap.storage := Storage.Keeps.reapN hP h _

end

end Sys2Proof.Machine
end

section
/-! SUPPORT for O14 and O45. The elements of commands keep memory canonical and the buffers of the other cores. -/

namespace Sys2Proof.Machine
open Sys2Proof Sys2Proof.Claims

section
variable {P : Nat → Rights} {v : Storage} {s : State} (h : v.Keeps P s.storage)
include h

/-! ## Places and their bits -/

theorem Storage.Keeps.elemRead (bay : Nat) (w : Issuer) (va : Word) (n : Nat) :
    (s.gRead bay w va n).elem.Holds fun r => v.Keeps P r.1.storage := GOut.holds_elem fun _ _ => h.gRead

theorem Storage.Keeps.elemWrite (bay : Nat) (w : Issuer) (va : Word) (d : List Byte) :
    (s.gWrite bay w va d).elem.Holds fun r => v.Keeps P r.1.storage := GOut.holds_elem fun _ _ => h.gWrite

theorem Storage.Keeps.elemPatch (bay : Nat) (w : Issuer) (p : Spot) (n : Nat) :
    (s.gPatch bay w p n).elem.Holds fun r => v.Keeps P r.1.storage := GOut.holds_elem fun _ _ => h.gPatch

theorem Storage.Keeps.localSpot {core : Nat} (hP : P core = .all) (bent : Nat) (sp : LocalSpace) (f0 : Word) (p : Spot) (write : Bool) :
    (s.localSpot core bent sp f0 p write).Holds fun r => v.Keeps P r.1.storage := by
  unfold State.localSpot
  dsimp only
  split
  · trivial
  · split
    · trivial
    · split
      · split <;> simp [h]
      · split <;> simp [h]
      · split
        · exact h.setCore_all hP
        · trivial

section
variable {j : Job} (hP : P j.core = .all)
include hP

theorem Storage.Keeps.readSpot (d : Dsc) (f0 : Word) (p : Spot) : (s.readSpot j d f0 p).Holds fun r => v.Keeps P r.1.storage := by
  unfold State.readSpot
  split
  · exact (h.elemRead ..).bind fun r hr => hr
  · refine (h.localSpot hP ..).bind fun r hr => ?_
    dsimp only
    split <;> simp [hr]

theorem Storage.Keeps.writeSpot (d : Dsc) (f0 : Word) (p : Spot) (n : Nat) :
    (s.writeSpot j d f0 p n).Holds fun t => v.Keeps P t.storage := by
  unfold State.writeSpot
  split
  · split
    · exact (h.elemWrite ..).bind fun r hr => hr
    · exact (h.elemPatch ..).bind fun r hr => hr
  · exact (h.localSpot hP ..).bind fun r hr => hr.setCore_all hP

theorem Storage.Keeps.readElem (e : Nat) (p : Spot) : (s.readElem j e p).Holds fun r => v.Keeps P r.1.storage := by
  unfold State.readElem
  split
  · exact h.readSpot hP ..
  · exact (h.elemRead ..).bind fun r hr => hr

theorem Storage.Keeps.readSource (e : Nat) (i : Idx) (p : Spot) : (s.readSource j e i p).Holds fun r => v.Keeps P r.1.storage := by
  unfold State.readSource
  refine (h.readElem hP ..).bind fun r hr => ?_
  dsimp only
  split
  · exact (hr.readSpot hP ..).bind fun q hq => hq
  · split
    · exact (hr.readSpot hP ..).bind fun q hq => hq
    · exact hr

theorem Storage.Keeps.sourceSpot (e : Nat) : (s.sourceSpot j e).Holds fun r => v.Keeps P r.1.storage := by
  unfold State.sourceSpot
  split
  · exact h
  · exact h
  · refine (h.readSpot hP ..).bind fun r hr => ?_
    dsimp only
    split <;> simp [hr]
  · refine (h.readSpot hP ..).bind fun r hr => ?_
    dsimp only
    split <;> simp [hr]
  · exact h

theorem Storage.Keeps.destSpot (e : Nat) : (s.destSpot j e).Holds fun r => v.Keeps P r.1.storage := by
  unfold State.destSpot
  split
  · refine (h.readSpot hP ..).bind fun r hr => ?_
    dsimp only
    split <;> simp [hr]
  · exact h

theorem Storage.Keeps.moveScale (e : Nat) (si di : Idx) : (s.moveScale j e si di).Holds fun t => v.Keeps P t.storage := by
  unfold State.moveScale
  split
  · exact h
  · cases j.c.op with
    | sst q =>
      dsimp only
      split
      · exact h
      · split
        · trivial
        · exact h.writeSpot hP ..
    | sld mode cj =>
      dsimp only
      split
      · exact h
      · exact (h.readSpot hP ..).bind fun r hr => hr.setCore_all hP
    | _ =>
      dsimp only
      split
      · exact h
      · split
        · trivial
        · exact h.setCore_all hP

omit hP in
theorem Storage.Keeps.mergeElem (p : Spot) (bits : Nat) : (s.mergeElem j p bits).Holds fun t => v.Keeps P t.storage := by
  unfold State.mergeElem
  dsimp only
  split <;> simp [h]

/-! ## Elements and blocks -/

theorem Storage.Keeps.oneElem (e : Nat) : (s.oneElem j e).Holds fun r => v.Keeps P r.1.storage := by
  unfold State.oneElem
  refine (h.sourceSpot hP ..).bind fun (s1, si, sp) h1 => ?_
  refine (Storage.Keeps.destSpot h1 hP ..).bind fun (s2, di, dp) h2 => ?_
  refine (Storage.Keeps.readSource h2 hP ..).bind fun (s3, raw, n) h3 => ?_
  have put {w : Elem State} (hw : w.Holds fun t => v.Keeps P t.storage) (c : Cmd) : (w.bind (fun s => (s.moveScale j e si di).bind (fun s =>
      (.ok (s, c, e + 1) : Elem Done)))).Holds fun r => v.Keeps P r.1.storage :=
    hw.bind fun t ht => (ht.moveScale hP ..).bind fun u hu => hu
  dsimp only
  repeat' split
  any_goals exact Elem.holds_fault ..
  any_goals exact put (Storage.Keeps.mergeElem h3 ..) _
  all_goals exact put (Storage.Keeps.writeSpot h3 hP ..) _

theorem Storage.Keeps.blockVals (n e : Nat) : (s.blockVals j n e).Holds fun r => v.Keeps P r.1.storage := by
  induction n generalizing s e with
  | zero => exact h
  | succ n ih =>
    refine (h.sourceSpot hP ..).bind fun (s1, si, sp) h1 => ?_
    refine (Storage.Keeps.readSource h1 hP ..).bind fun (s2, raw, n) h2 => ?_
    exact (ih h2 (e + 1)).bind fun r hr => hr

theorem Storage.Keeps.putCodes (e : Nat) (l : List Nat) : (s.putCodes j e l).Holds fun t => v.Keeps P t.storage := by
  induction l generalizing s e with
  | nil => exact h
  | cons q t ih => exact (h.writeSpot hP ..).bind fun u hu => ih hu (e + 1)

theorem Storage.Keeps.blockElem (e : Nat) : (s.blockElem j e).Holds fun r => v.Keeps P r.1.storage := by
  unfold State.blockElem
  refine (h.blockVals hP ..).bind fun (s1, vs) h1 => ?_
  dsimp only
  split
  · refine (Storage.Keeps.sourceSpot h1 hP ..).bind fun (s2, si, sp) h2 => ?_
    refine (Storage.Keeps.readSpot h2 hP ..).bind fun (s3, x) h3 => ?_
    refine (Storage.Keeps.writeSpot h3 hP ..).bind fun s4 h4 => ?_
    exact (h4.putCodes hP ..).bind fun s5 h5 => h5
  · refine (Storage.Keeps.writeSpot h1 hP ..).bind fun s2 h2 => ?_
    exact (h2.putCodes hP ..).bind fun s3 h3 => h3

end

section
variable {core : Nat} (hP : P core = .all)
include hP

theorem Storage.Keeps.readAhead (c : Cmd) (k unit : Nat) : v.Keeps P (s.readAhead core c k unit).1.storage := by
  unfold State.readAhead
  dsimp only
  split
  · exact h
  · split
    · next t i p ht =>
      have hj := h.sourceSpot (j := s.job core c) hP (c.progress + k)
      rw [ht] at hj
      split
      · exact h
      · split
        · next hg => exact Storage.Keeps.gRead hj hg
        · exact h
    · exact h

theorem Storage.Keeps.dataElem (c : Cmd) : (s.dataElem core c).Holds fun r => v.Keeps P r.1.storage := by
  unfold State.dataElem
  dsimp only
  split
  · exact h.blockElem (j := s.job core c) hP _
  · exact h.oneElem (j := s.job core c) hP _

end

theorem Storage.Keeps.scaleOut (core : Nat) (c : Cmd) : (s.scaleOut core c).Holds fun t => v.Keeps P t.storage := by
  have put (q : Bool) (w : Word) (d : List Byte) : (if q then Elem.ok s else
      ((s.gWrite (s.job core c).bay (s.job core c).issuer w d).elem.bind (fun r => .ok r.1))).Holds fun t => v.Keeps P t.storage := by
    split
    · exact h
    · exact (h.elemWrite ..).bind fun r hr => hr
  unfold State.scaleOut
  dsimp only
  split
  · exact put ..
  · exact put ..
  · exact h

/-! ## Collectives and sills -/

theorem Storage.Keeps.collElemStep (core : Nat) (c : Cmd) : (s.collElemStep core c).Holds fun r => v.Keeps P r.1.storage := by
  unfold State.collElemStep
  have ht : v.Keeps P (s.takeHeld (s.bayOf core) c).1.storage := by simpa using h
  dsimp only
  split
  · trivial
  · split
    · split
      · exact ht
      · refine (ht.elemRead ..).bind fun r hr => ?_
        exact hr.of_eq (State.storage_foldl (fun _ _ => by split <;> simp) _ _)
    · split
      · split
        · trivial
        · exact ht
      · refine Elem.Holds.bind (Storage.Keeps.elemWrite (by exact ht) ..) fun r hr => ?_
        exact hr

theorem Storage.Keeps.collFlag (core : Nat) (c : Cmd) : (s.collFlag core c).Holds fun t => v.Keeps P t.storage := by
  unfold State.collFlag
  dsimp only
  split
  · exact h
  · split
    · split <;> trivial
    · exact (h.elemWrite ..).bind fun r hr => hr

theorem Storage.Keeps.abortElem (c : Cmd) : (s.abortElem c).Holds fun r => v.Keeps P r.1.storage := by
  unfold State.abortElem
  dsimp only
  split
  · exact h
  · split
    · simp [h]
    · split <;> simp [h]

theorem Storage.Keeps.sillLoadElem (c : Cmd) : (s.sillLoadElem c).Holds fun r => v.Keeps P r.1.storage := by
  unfold State.sillLoadElem
  dsimp only
  (repeat' split) <;> simp [h]

theorem Storage.Keeps.sillGoElem (core : Nat) (c : Cmd) : (s.sillGoElem core c).Holds fun r => v.Keeps P r.1.storage := by
  unfold State.sillGoElem
  dsimp only
  (repeat' split) <;> simp [h]

theorem Storage.Keeps.cmdElem {core : Nat} (hP : P core = .all) (c : Cmd) : (s.cmdElem core c).Holds fun r => v.Keeps P r.1.storage := by
  unfold State.cmdElem
  split
  · exact h.collElemStep core c
  · exact h.abortElem c
  · exact h.sillLoadElem c
  · exact h.sillGoElem core c
  · split
    · exact h.dataElem hP c
    · split
      · trivial
      · exact h.setCore_all hP

/-! ## Starts of commands -/

/-- The start of an entry keeps storage, where it goes on. -/
def Started.KeepsStorage (P : Nat → Rights) (v : Storage) : Started → Prop
  | .go t _ => v.Keeps P t.storage
  | _ => True

end

section
variable {P : Nat → Rights} {v : Storage} {s : State}

@[simp] theorem Started.keepsStorage_go (t : State) (c : Cmd) : (Started.go t c).KeepsStorage P v ↔ v.Keeps P t.storage := Iff.rfl
@[simp] theorem Started.keepsStorage_fault (code : Nat) (w : Word) (c : Cmd) : (Started.fault code w c).KeepsStorage P v := trivial

end

section
variable {P : Nat → Rights} {v : Storage} {s : State} (h : v.Keeps P s.storage)
include h

theorem Storage.Keeps.quantScale {core : Nat} {c : Cmd} {k : State → Cmd → Started}
    (hk : ∀ t d, v.Keeps P t.storage → (k t d).KeepsStorage P v) : (s.quantScale core c k).KeepsStorage P v := by
  unfold State.quantScale
  dsimp only
  repeat' split
  any_goals exact trivial
  all_goals refine hk _ _ ?_
  any_goals exact h
  all_goals exact h.gReadAs ‹_›

theorem Storage.Keeps.bindCmd {core : Nat} {c : Cmd} {record : Nat} {k : State → Cmd → Started}
    (hk : ∀ t d, v.Keeps P t.storage → (k t d).KeepsStorage P v) : (s.bindCmd core c record k).KeepsStorage P v := by
  unfold State.bindCmd
  split
  · exact hk _ _ h
  · dsimp only
    split
    · trivial
    · trivial
    · trivial
    · next e => exact hk _ _ (h.bindRecord e)

theorem Storage.Keeps.startData (core : Nat) (c : Cmd) : (s.startData core c).KeepsStorage P v := by
  unfold State.startData
  dsimp only
  split
  · trivial
  · split
    · exact h
    · exact h.quantScale fun t d ht => ht.bindCmd fun u e hu => hu

theorem Storage.Keeps.readColl {core : Nat} {c : Cmd} {k : State → List Byte → Started}
    (hk : ∀ t d, v.Keeps P t.storage → (k t d).KeepsStorage P v) : (s.readColl core c k).KeepsStorage P v := by
  unfold State.readColl
  dsimp only
  split
  · trivial
  · split
    · trivial
    · trivial
    · trivial
    · next h1 =>
      have h1 := h.gRead h1
      split
      · trivial
      · split
        · trivial
        · split
          · exact hk _ _ h1
          · split
            · trivial
            · trivial
            · trivial
            · next h2 =>
              split
              · trivial
              · exact hk _ _ (h1.gRead h2)

theorem Storage.Keeps.startColl (core : Nat) (c : Cmd) : (s.startColl core c).KeepsStorage P v := by
  refine h.readColl fun t d ht => ?_
  dsimp only
  split
  · trivial
  · split
    · exact ht
    · exact ht.bindCmd fun u e hu => hu

theorem Storage.Keeps.startAbort (core : Nat) (c : Cmd) : (s.startAbort core c).KeepsStorage P v := h.readColl fun _ _ ht => ht

theorem Storage.Keeps.readLaunch (core : Nat) (c : Cmd) : (s.readLaunch core c).KeepsStorage P v := by
  unfold State.readLaunch
  split
  · exact h
  · split
    · trivial
    · split
      · trivial
      · trivial
      · trivial
      · next e => exact h.gRead e

theorem Storage.Keeps.bindOuts {bay bent uid : Nat} {outs : List Binding} {k : State → List Binding → Started} {c : Cmd}
    (hk : ∀ t l, v.Keeps P t.storage → (k t l).KeepsStorage P v) : (s.bindOuts bay bent uid outs k c).KeepsStorage P v := by
  induction outs generalizing s k with
  | nil => exact hk _ _ h
  | cons o t ih =>
    unfold State.bindOuts
    dsimp only
    split
    · exact ih h fun u l hu => hk _ _ hu
    · split
      · trivial
      · trivial
      · trivial
      · next e => exact ih (h.bindRecord e) fun u l hu => hk _ _ hu

theorem Storage.Keeps.jigScale {j : Jig} {c : Cmd} {k : State → Cmd → Started}
    (hk : ∀ t d, v.Keeps P t.storage → (k t d).KeepsStorage P v) : (s.jigScale j c k).KeepsStorage P v := by
  unfold State.jigScale
  dsimp only
  split
  · exact hk _ _ h
  · split
    · trivial
    · split
      · trivial
      · trivial
      · trivial
      · next e =>
        repeat' split
        any_goals exact Started.keepsStorage_fault ..
        all_goals exact hk _ _ (h.gReadAs e)

theorem Storage.Keeps.startJig (core : Nat) (c : Cmd) : (s.startJig core c).KeepsStorage P v := by
  unfold State.startJig
  dsimp only
  split
  · trivial
  · split
    · exact h
    · exact h.jigScale fun t d ht => ht.bindCmd fun u e hu => hu

theorem Storage.Keeps.startSillLoad (core : Nat) (c : Cmd) : (s.startSillLoad core c).KeepsStorage P v := by
  unfold State.startSillLoad
  dsimp only
  repeat' split
  any_goals exact trivial
  · exact h
  · simp [h]

theorem Storage.Keeps.startSillGo (core : Nat) (c : Cmd) : (s.startSillGo core c).KeepsStorage P v := by
  unfold State.startSillGo
  split
  · trivial
  · exact h

theorem Storage.Keeps.cmdChecks (core : Nat) (c : Cmd) : (s.cmdChecks core c).KeepsStorage P v := by
  unfold State.cmdChecks
  split
  · split
    · trivial
    · exact h
  · exact h.startColl core c
  · exact h.startAbort core c
  · exact h.startSillLoad core c
  · exact h.startSillGo core c
  · split
    · exact h.startData core c
    · exact h

end

end Sys2Proof.Machine
end

section
/-! SUPPORT for O14 and O45. Handed windows, dispatch, and the bundles of kernel contexts. -/

namespace Sys2Proof.Machine
open Sys2Proof Sys2Proof.Claims

/-! ## Windows -/

section
variable {P : Nat → Rights} {v : Storage} {s : State} (h : v.Keeps P s.storage) {core : Nat} (ha : (P core).acc = true)
include h ha

/-- A core's accumulators and their owners change, by one who may write them. -/
theorem Storage.Keeps.setAcc {k : Core} (e : ∃ acc own, k.typed = { s.storage.core core with acc := acc, own := own }) :
    v.Keeps P (s.setCore core k).storage := by
  obtain ⟨acc, own, e⟩ := e
  refine h.setCore ?_
  rw [e, ← State.core_typed]
  exact (Buffers.Keeps.refl ..).writesAcc ha _ _

theorem Storage.Keeps.loadWindow {t : State} {old w b : Nat} (e : s.loadWindow core old w b = some t) : v.Keeps P t.storage := by
  unfold State.loadWindow at e
  dsimp only at e
  split at e
  · cases e
    exact h.setAcc ha ⟨_, _, by rw [← State.core_typed]; rfl⟩
  · split at e
    · cases e
    · split at e <;> cases e
      next u hu =>
      have hs : v.Keeps P u.storage := Storage.Keeps.savePut (by simp [h]) hu
      exact hs.setAcc ha ⟨_, _, by rw [← State.core_typed]; rfl⟩

theorem Storage.Keeps.handOver (w b : Nat) : v.Keeps P (s.handOver core w b).1.storage := by
  have spilled (q : Bool) (n : Nat) : v.Keeps P (if q = true then s else match s.spillWindow core w n with
      | some t => t
      | none => s.killBent n 0x0B 0).storage := by
    split
    · exact h
    · split
      · next e => exact h.spillWindow e
      · simp [h]
  unfold State.handOver
  dsimp only
  split
  · exact h.setAcc ha ⟨_, _, by rw [← State.core_typed]; rfl⟩
  · split
    · next e => exact (spilled _ _).loadWindow ha e
    · exact (spilled _ _).killBent ..

theorem Storage.Keeps.putWindows (b : Nat) (l : List (Nat × Nat)) : v.Keeps P (s.putWindows core b l).storage := by
  induction l generalizing s with
  | nil => exact h
  | cons e t ih =>
    have hr := h.handOver ha e.2 b
    unfold State.putWindows
    dsimp only
    split
    · exact hr
    · split
      · next hw => exact ih (hr.loadWindow ha hw)
      · exact hr.killBent ..

end

/-! ## Dispatch -/

section
variable {P : Nat → Rights} {v : Storage} {s : State} (h : v.Keeps P s.storage) {core : Nat} (hP : P core = .all)
include h hP

theorem Storage.Keeps.startPeg (id : Nat) (p : Peg) (l : Loc) (rec : List Byte) (k : Core) :
    v.Keeps P (s.startPeg core id p l rec k).storage := by
  unfold State.startPeg
  dsimp only
  rw [State.storage_countDispatch, State.storage_modBent, State.storage_modPeg]
  exact (h.writeLoc ..).setCore_all hP

theorem Storage.Keeps.resumePeg (id : Nat) (p : Peg) (l : Loc) (rec : List Byte) : v.Keeps P (s.resumePeg core id p l rec).storage := by
  unfold State.resumePeg
  split
  · exact h.killBent ..
  · next e =>
    have hf := h.framesOf e
    split
    · simpa using hf
    · dsimp only
      split
      · exact Storage.Keeps.startPeg hf hP ..
      · exact (Storage.Keeps.startPeg hf hP ..).putWindows (by rw [hP]; rfl) ..

end

/-! ## Bundles -/

@[simp] theorem Issue.core_typed (i : Issue) (b : Before) : (i.core b).typed = i.s.storage.core b.core := by
  simp only [Issue.core, State.core_typed]

section
variable {P : Nat → Rights} {v : Storage} {b : Before}

/-- A run of steps of an issue that each keep storage. -/
theorem Storage.Keeps.issueFoldl {α : Type} {f : Issue → α → Issue} (hf : ∀ i a, v.Keeps P i.s.storage → v.Keeps P (f i a).s.storage)
    (l : List α) {i : Issue} (h : v.Keeps P i.s.storage) : v.Keeps P (l.foldl f i).s.storage := by
  induction l generalizing i with
  | nil => exact h
  | cons a t ih => exact ih (hf i a h)

section
variable {i : Issue} (h : v.Keeps P i.s.storage)
include h

theorem Storage.Keeps.issueCore {k : Core} (hk : (i.core b).typed.Keeps (P b.core) k.typed) : v.Keeps P (i.setCore b k).s.storage :=
  h.setCore (by rwa [Issue.core_typed] at hk)

section
variable (hs : (P b.core).srf = true)
include hs

theorem Storage.Keeps.push (m : Move) (c idx n : Nat) (popped : Bool) : v.Keeps P (i.push b m c idx n popped).s.storage := by
  unfold Issue.push
  dsimp only
  split
  · exact h
  · split
    · exact h
    · split
      · exact h
      · exact Storage.Keeps.issueCore (i := { i with x := _ }) h ((Buffers.Keeps.refl ..).pushBytes hs ..)

theorem Storage.Keeps.deliverMove (m : Move) (c n : Nat) (popped : Bool) : v.Keeps P (i.deliver b m c n popped).s.storage := by
  unfold Issue.deliver
  dsimp only
  split
  · exact h.of_eq (Issue.storage_foldl (fun _ _ => by simp) _ _)
  · split <;> simp [h]
  · split <;> simp [h]
  · split <;> simp [h]
  · split
    · exact h.push hs ..
    · exact h
  · exact h

omit h in
theorem Storage.Keeps.readMove {r : Issue × AMap Nat} (h : v.Keeps P r.1.s.storage) (m : Move) (c : Nat) :
    v.Keeps P (Issue.readMove b m r c).1.s.storage := by
  have hi := h.of_eq (Issue.storage_trapIf (b.x.sourceBad c m = true) r.1 m c 0x1B 0)
  unfold Issue.readMove
  dsimp only
  generalize (if b.x.sourceBad c m then r.1.trap m c 0x1B 0 else r.1) = i at hi ⊢
  split
  · next idx hsrc =>
    split
    · exact h
    · have hp := i.storage_pop b m c idx
      split
      · next e => rw [e] at hp; exact hi.of_eq hp
      · next e => rw [e] at hp; exact (hi.of_eq hp).deliverMove hs ..
  · exact hi.deliverMove hs ..

theorem Storage.Keeps.readAll (ms : List Move) : v.Keeps P (i.readAll b ms).1.s.storage := by
  unfold Issue.readAll
  refine List.foldlRecOn (motive := fun r : Issue × AMap Nat => v.Keeps P r.1.s.storage) ms _ h fun r hr m _ => ?_
  exact List.foldlRecOn (motive := fun q : Issue × AMap Nat => v.Keeps P q.1.s.storage) b.x.cids _ hr fun q hq c _ =>
    Storage.Keeps.readMove hs hq m c

theorem Storage.Keeps.srfx (m : Move) (k : KOp) (e : KEnv) : v.Keeps P (i.srfx b m k e).s.storage := by
  unfold Issue.srfx
  dsimp only
  split
  · (repeat' split) <;> exact h
  · split
    · exact h
    · exact h.issueCore ((Buffers.Keeps.refl ..).writeSrf hs ..)
  · split <;> simp [h]
  · simp [h]

theorem Storage.Keeps.spl (m : Move) (k : KOp) (e : KEnv) : v.Keeps P (i.spl b m k e).s.storage := by
  unfold Issue.spl
  dsimp only
  split
  · exact h
  · split
    · exact h
    · exact h.issueCore (.refl _ _)
  · repeat' split
    any_goals exact h
    all_goals exact h.issueCore ((Buffers.Keeps.refl ..).writeSrf hs ..)
  · split <;> simp [h]

end

theorem Storage.Keeps.accp (ha : (P b.core).acc = true) (m : Move) (k : KOp) (e : KEnv) : v.Keeps P (i.accp b m k e).s.storage := by
  have hc {w n : Nat} {q : Core} (e : (i.core b).touch w n = .ok q) : v.Keeps P (i.setCore b q).s.storage :=
    h.issueCore ((Buffers.Keeps.refl ..).touch ha e)
  unfold Issue.accp
  dsimp only
  repeat' split
  any_goals exact h
  any_goals exact hc ‹_›
  any_goals exact (hc ‹_›).issueCore ((Buffers.Keeps.refl ..).writeAcc ha ..)
  all_goals exact (hc ‹_›).issueCore ((Buffers.Keeps.refl ..).accAdd ha ..)

section
variable (hs : (P b.core).srf = true) (ha : (P b.core).acc = true)
include hs ha

theorem Storage.Keeps.triggerIn (m : Move) (k : KOp) (ts : List (Option Nat)) (c t : Nat) :
    v.Keeps P (Issue.triggerIn b m k ts i c t).s.storage := by
  have hi := h.of_eq (Issue.storage_trapIf (i.x.operandsBad c k = true) i m c 0x1B 0)
  unfold Issue.triggerIn
  dsimp only
  generalize (if i.x.operandsBad c k then i.trap m c 0x1B 0 else i) = j at hi ⊢
  split
  case h_9 => exact hi.accp ha ..
  case h_10 => exact hi.srfx hs ..
  case h_12 => exact hi.spl hs ..
  all_goals exact hi

theorem Storage.Keeps.triggers (ms : List Move) (vals : AMap Nat) : v.Keeps P (i.triggers b ms vals).s.storage := by
  refine Storage.Keeps.issueFoldl (fun i m h => ?_) _ h
  split
  · next u hu =>
    dsimp only
    split
    · split
      · split <;> simp [h]
      · exact h
    · have hi (ts : List (Option Nat)) : v.Keeps P ((indexed 0 ts).foldl (fun (i : Issue) (e : Nat × Option Nat) => match e.2 with
          | some t => Issue.triggerIn b m (m.slot.kop u) (b.x.cids.map fun c => if b.x.on c m.slot then vals.find? (8 * m.pos + c) else none) i e.1 t
          | none => i) i).s.storage := Storage.Keeps.issueFoldl (fun i e h => by
        split
        · exact h.triggerIn hs ha ..
        · exact h) _ h
      split
      · exact hi _
      · exact hi _
  · exact h

end

end

end

section
variable {P : Nat → Rights} {v : Storage} {s : State} (h : v.Keeps P s.storage) {core : Nat} (hs : (P core).srf = true)
include h hs

theorem Storage.Keeps.issueBundle (ha : (P core).acc = true) (x : Context) (bd : Bundle) : v.Keeps P (s.issueBundle core x bd).storage := by
  unfold State.issueBundle
  dsimp only
  split
  · simpa using h
  · rw [State.storage_setCtx]
    split
    · exact h
    · refine Storage.Keeps.triggers ?_ hs ha ..
      rw [Issue.storage_operands]
      exact Storage.Keeps.readAll (by exact h) hs ..

theorem Storage.Keeps.srfxUnit (o : SrfxOp) (p : SrfxPart) : v.Keeps P (s.srfxUnit core o p).1.storage := by
  unfold State.srfxUnit
  split
  · simp [h]
  · have hf := h.fetchLoc none (s.bayOf core) p.loc p.len
    refine hf.setCore ?_
    rw [← State.core_typed]
    exact (Buffers.Keeps.refl ..).writeSrf hs ..
  · simp [h]

theorem Storage.Keeps.srfxPerform (x : Context) (n : Nat) (o : SrfxOp) : v.Keeps P (s.srfxPerform core x n o).storage := by
  have hr (l : List SrfxPart) : v.Keeps P (l.foldl (fun (r : State × SrfxOp) p => r.1.srfxUnit core r.2 p) ({ s with free := s.free + 1 }, o)).1.storage :=
    List.foldlRecOn (motive := fun r : State × SrfxOp => v.Keeps P r.1.storage) l _ h fun r hr p _ => hr.srfxUnit hs ..
  unfold State.srfxPerform
  dsimp only
  split
  · rw [State.storage_setCtx]
    exact hr _
  · split <;> rw [State.storage_setCtx] <;> exact hr _

/-! ## Steps of jig runs -/

theorem Storage.Keeps.commitStep (ha : (P core).acc = true) (j : Jig) (p : StepAt) (es : List CElem) (c : Cmd) (outs : List (Nat × Bool))
    (ov : Nat) : v.Keeps P (s.commitStep core j p es c outs ov).storage := by
  unfold State.commitStep
  refine h.setCore ?_
  rw [Core.typed_showRun, Core.typed_setEntry, ← State.core_typed]
  refine List.foldlRecOn (motive := fun k : Core => (s.core core).typed.Keeps (P core) k.typed) _ _ ?_ fun k hk o _ => hk.writeSrf hs ..
  refine List.foldlRecOn (motive := fun k : Core => (s.core core).typed.Keeps (P core) k.typed) _ _ (.refl _ _) fun k hk e _ => ?_
  split
  · exact hk.writeAcc ha ..
  · exact hk

theorem Storage.Keeps.jigStep (ha : (P core).acc = true) (c : Cmd) (res : ResidueCheck) : v.Keeps P (s.jigStep core c res).storage := by
  unfold State.jigStep
  dsimp only
  split
  · simp [h]
  · split
    · simp [h]
    · next k hk =>
      have ht : v.Keeps P (s.setCore core k).storage := by
        refine h.setCore ?_
        rw [← State.core_typed]
        split at hk
        · exact (Buffers.Keeps.refl ..).touch ha hk
        · cases hk; exact .refl _ _
      generalize s.setCore core k = t at ht ⊢
      have last {t : State} (ht : v.Keeps P t.storage) (q : Prop) [Decidable q] (j : Jig) (code n : Nat) (w : Word) (p : StepAt) (es : List CElem)
          (r : Cmd × List (Nat × Bool)) (ov : Nat) :
          v.Keeps P (if q then t.stopRun core j code n w else t.commitStep core j p es r.1 r.2 ov).storage := by
        split
        · simpa using ht
        · exact ht.commitStep hs ha ..
      split
      · simpa using ht
      · cases (s.jig core c).residueUnit ((s.jig core c).at_ c.progress) res with
        | none => exact last ht ..
        | some u =>
          dsimp only
          split
          · simpa using ht
          · exact last (by simpa using ht) ..

end

/-! ## Packets at their home -/

/-- What the home of a packet comes to keeps storage, where it is done. -/
def Homed.KeepsStorage (P : Nat → Rights) (v : Storage) : Homed → Prop
  | .done t _ => v.Keeps P t.storage
  | _ => True

section
variable {P : Nat → Rights} {v : Storage} {s : State} (h : v.Keeps P s.storage)
include h

theorem Storage.Keeps.atHome {p : FabricPacket} {pa n : Nat} {reads : Bool} {k : Loc → State × FabricBody}
    (hk : ∀ l, v.Keeps P (k l).1.storage) : (s.atHome p pa n reads k).KeepsStorage P v := by
  unfold State.atHome
  dsimp only
  split
  · exact h
  · split
    · trivial
    · split
      · exact h
      · exact hk _

theorem Storage.Keeps.performPacket (p : FabricPacket) : (s.performPacket p).KeepsStorage P v := by
  unfold State.performPacket
  split
  case h_4 => exact h.atHome fun l => by dsimp only; split <;> simp [h]
  case h_10 => exact h.of_eq (State.storage_holdMessage ..)
  any_goals exact h
  all_goals exact h.atHome fun l => by simp [h]

end

end Sys2Proof.Machine
end

section
/-! SUPPORT for O14 and O45. Answers that keep storage: the pc goes on, branches, jumps, traps and returns. -/

namespace Sys2Proof.Machine
open Sys2Proof Sys2Proof.Claims

/-! ## The operations that move the pc -/

@[simp] theorem State.storage_setPc (s : State) (w : Word) : (s.setPc w).storage = s.storage := by
  simp [State.setPc]

@[simp] theorem State.storage_skip (s : State) : s.skip.storage = s.storage := State.storage_setPc ..

@[simp] theorem State.storage_returnFromTrap (s : State) : s.returnFromTrap.storage = s.storage := by
  simp [State.returnFromTrap]

@[simp] theorem State.storage_deliver (s : State) (t : Trap) (w : Word) : (s.deliver t w).storage = s.storage := by
  unfold State.deliver
  rw [State.storage_modBent]
  exact State.storage_setMe (by simp)

@[simp] theorem Storage.Keeps.takeTrap {P : Nat → Rights} {v : Storage} {s : State} (h : v.Keeps P s.storage) (t : Trap) (w : Word) :
    v.Keeps P (s.takeTrap t w).storage := by
  unfold State.takeTrap
  split <;> simp [h]

/-! ## What an answer keeps -/

/-- Where the answer is a state, it keeps storage. -/
def KeepsStorage (P : Nat → Rights) (v : Storage) : Result → Prop
  | .next t => v.Keeps P t.storage
  | _ => True

@[simp] theorem keepsStorage_next {P : Nat → Rights} {v : Storage} (t : State) : KeepsStorage P v (.next t) ↔ v.Keeps P t.storage := by
  simp only [KeepsStorage]

section
variable {P : Nat → Rights} {v : Storage} {s : State} (h : v.Keeps P s.storage)
include h

@[simp] theorem Storage.Keeps.stay : KeepsStorage P v s.stay := (keepsStorage_next s).mpr h

@[simp] theorem Storage.Keeps.retX (r : RegNo) (w : Word) : KeepsStorage P v (s.retX r w) := by
  simp [State.retX, h]

@[simp] theorem Storage.Keeps.retF (r : RegNo) (w : Word) : KeepsStorage P v (s.retF r w) := by
  simp [State.retF, h]

@[simp] theorem Storage.Keeps.trapWith (code : Nat) (addr info : Word) : KeepsStorage P v (s.trapWith code addr info) := by
  unfold State.trapWith
  split
  · simp [h]
  · simp [h]

@[simp] theorem Storage.Keeps.trap (code : Nat) : KeepsStorage P v (s.trap code) := h.trapWith ..

@[simp] theorem Storage.Keeps.trapAt (code : Nat) (va : Word) : KeepsStorage P v (s.trapAt code va) := h.trapWith ..

@[simp] theorem Storage.Keeps.awaitAcks (scope : Nat) (mask : BitVec 16) : KeepsStorage P v (s.awaitAcks scope mask) := by
  unfold State.awaitAcks
  split <;> simp [h]

@[simp] theorem Storage.Keeps.release {scope : Nat} {mask : BitVec 16} {k : State → Result} (hk : KeepsStorage P v (k s)) :
    KeepsStorage P v (s.release scope mask k) := by
  unfold State.release
  split
  · exact h.awaitAcks ..
  · exact hk

@[simp] theorem Storage.Keeps.ackThen {scope : Nat} {mask : BitVec 16} {k : State → Result} (hk : KeepsStorage P v (k s)) :
    KeepsStorage P v (s.ackThen scope mask k) := by
  unfold State.ackThen
  split
  · exact h.awaitAcks ..
  · exact hk

theorem Storage.Keeps.probe {l : Loc} {n cls : Nat} {need : Need} {reads : Bool} {t : State} (hp : s.probe l n cls need reads = .stall t) :
    v.Keeps P t.storage := by
  unfold State.probe at hp
  dsimp only at hp
  (repeat' split at hp) <;> cases hp <;> simp [h]

theorem Storage.Keeps.withLoc {va : Word} {size align cls : Nat} {need : Need} {reads : Bool} {k : State → Loc → Result}
    (hk : ∀ t l, v.Keeps P t.storage → KeepsStorage P v (k t l)) : KeepsStorage P v (s.withLoc va size align cls need reads k) := by
  unfold State.withLoc
  split
  · exact h.trapAt ..
  · split
    · exact h.trapAt ..
    · split
      · next hp => exact (h.probe hp).stay
      · exact Storage.Keeps.trapAt (by simp [h]) ..
      · exact hk _ _ (by simp [h])

theorem Storage.Keeps.withRecord {k : State → Loc → Result} (hk : ∀ t l, v.Keeps P t.storage → KeepsStorage P v (k t l)) :
    KeepsStorage P v (s.withRecord k) := by
  unfold State.withRecord
  split
  · exact h.stay
  · exact h.withLoc hk

@[simp] theorem Storage.Keeps.suspendAt (l : Loc) (st : PegState) (w : Option Wait) : KeepsStorage P v (s.suspendAt l st w) :=
  h.release (by simp [h])

theorem Storage.Keeps.withScribe {va : Word} {need : Need} {off n : Nat} {k : State → Loc → Result}
    (hk : ∀ t l, v.Keeps P t.storage → KeepsStorage P v (k t l)) : KeepsStorage P v (s.withScribe va need off n k) :=
  h.withLoc fun t l ht => by
    split
    · exact ht.trapAt ..
    · exact hk t l ht

/-! ## Loads, stores and atomics -/

@[simp] theorem Storage.Keeps.dataUnits (va : Word) (size : Nat) (need : Need) (cls : BitVec 4) (o : BitVec 2) (us : Units) :
    KeepsStorage P v (s.dataUnits va size need cls o us) := by
  unfold State.dataUnits
  split
  · exact h.trapAt ..
  · dsimp only
    split
    · exact h.ackThen (by simp [h])
    · simp [h]

@[simp] theorem Storage.Keeps.dataAccess (va : Word) (size : Nat) (need : Need) (cls : BitVec 4) (o : BitVec 2) (kind : AccessKind) :
    KeepsStorage P v (s.dataAccess va size need cls o kind) := h.dataUnits ..

@[simp] theorem Storage.Keeps.load (va : Word) (size : Nat) (cls : BitVec 4) (o : BitVec 2) (d : LoadDest) :
    KeepsStorage P v (s.load va size cls o d) := h.dataAccess ..

@[simp] theorem Storage.Keeps.store (va : Word) (size : Nat) (cls : BitVec 4) (o : BitVec 2) (n : Nat) :
    KeepsStorage P v (s.store va size cls o n) := h.dataAccess ..

theorem Storage.Keeps.mergeAtomic (op : MergeOp) (va : Word) (size : Nat) (cls : BitVec 4) (o : BitVec 2) (operand : Word) :
    KeepsStorage P v (s.mergeAtomic op va size cls o operand) := by
  unfold State.mergeAtomic
  split <;> simp [h]

theorem Storage.Keeps.amo (d a b : RegNo) (p : BitVec 4) (m : BitVec 1) (o : BitVec 2) (c : BitVec 4) (size : Nat) :
    KeepsStorage P v (s.amo d a b p m o c size) := by
  unfold State.amo
  dsimp only
  split
  · exact h.mergeAtomic ..
  · exact h.dataAccess ..

theorem Storage.Keeps.compareSwap (d a b : RegNo) (o : BitVec 2) (c : BitVec 4) (size : Nat) :
    KeepsStorage P v (s.compareSwap d a b o c size) := h.dataAccess ..

/-! ## Branches and jumps -/

theorem Storage.Keeps.branch (taken : Bool) (o : BitVec 16) : KeepsStorage P v (s.branch taken o) := by
  simp [State.branch, h]

theorem Storage.Keeps.execJ (o : BitVec 26) : KeepsStorage P v (execJ o s) := by
  simp [Sys2Proof.Machine.execJ, h]

theorem Storage.Keeps.execJal (o : BitVec 26) : KeepsStorage P v (execJal o s) := by
  simp [Sys2Proof.Machine.execJal, h]

theorem Storage.Keeps.execJalr (d a : RegNo) (i : BitVec 16) : KeepsStorage P v (execJalr d a i s) := by
  unfold Sys2Proof.Machine.execJalr
  dsimp only
  split
  · exact h.trap _
  · simp [h]

end

end Sys2Proof.Machine
end

section
/-! SUPPORT for O14 and O45. Pegs, the journal and bents keep storage. -/

namespace Sys2Proof.Machine
open Sys2Proof Sys2Proof.Claims

/-! ## Pegs -/

section
variable {P : Nat → Rights} {v : Storage} {s : State} (h : v.Keeps P s.storage)
include h

theorem Storage.Keeps.execJoin : KeepsStorage P v (execJoin s) :=
  h.withRecord fun _ _ ht => by
    (repeat' split) <;> simp [ht]

theorem Storage.Keeps.execYield : KeepsStorage P v (execYield s) := h.withRecord fun _ _ ht => ht.suspendAt ..

theorem Storage.Keeps.execExit (hP : ∀ c, (P c).clear = true) : KeepsStorage P v (execExit s) :=
  h.withRecord fun _ _ ht => by
    repeat' split
    · exact ht.trap _
    · exact ht.stay
    · exact ht.release (by simp [Storage.Keeps.freePegAllocs hP ht])
    · exact ht.stay

theorem Storage.Keeps.execSpawn (d a : RegNo) : KeepsStorage P v (execSpawn d a s) :=
  h.withLoc fun t l ht => by
    have hf : v.Keeps P (t.fetchLoc (some t.cur) t.myBay l 64).1.storage := by simp [ht]
    dsimp only
    repeat' split
    any_goals exact hf.trap _
    all_goals
      refine hf.release ?_
      repeat' split
      · exact hf.trapAt ..
      · exact hf.stay
      · exact Storage.Keeps.retX (by simp [hf]) ..

theorem Storage.Keeps.execEnq (d a : RegNo) : KeepsStorage P v (execEnq d a s) := by
  unfold Sys2Proof.Machine.execEnq
  dsimp only
  split
  · exact h.trap _
  · refine h.withLoc fun t l ht => ?_
    have hf : v.Keeps P (t.fetchLoc (some t.cur) t.myBay l 64).1.storage := by simp [ht]
    split
    · exact hf.retX ..
    · exact hf.trapAt ..
    · refine hf.release ?_
      split
      · next he => exact (hf.enqueue he).retX ..
      · exact hf.retX ..
      · exact hf.trapAt ..

theorem Storage.Keeps.execWaitingPegReady (id : Nat) : KeepsStorage P v (execWaitingPegReady id s) := by
  unfold Sys2Proof.Machine.execWaitingPegReady
  dsimp only
  (repeat' split) <;> simp [h]

theorem Storage.Keeps.execMwaitTimeout (id : Nat) : KeepsStorage P v (execMwaitTimeout id s) := by
  simp [Sys2Proof.Machine.execMwaitTimeout, h]

theorem Storage.Keeps.execMonitorLoss (id : Nat) : KeepsStorage P v (execMonitorLoss id s) := by
  simp [Sys2Proof.Machine.execMonitorLoss, h]

/-! ## The journal -/

theorem Storage.Keeps.execJrnlRd (a b : RegNo) : KeepsStorage P v (execJrnlRd a b s) :=
  (keepsStorage_next _).mpr (by simpa using h)

theorem Storage.Keeps.journalCmd (c : Cmd) : KeepsStorage P v (s.journalCmd c) := by
  unfold State.journalCmd
  split
  · exact h.stay
  · simp [h]

theorem Storage.Keeps.execDescLd (c a : BitVec 4) (b : RegNo) : KeepsStorage P v (execDescLd c a b s) :=
  h.withLoc fun t l ht => (keepsStorage_next _).mpr (by simp [ht])

/-! ## Bents -/

theorem Storage.Keeps.addBent (b : Nat) (r : Bent) : v.Keeps P (s.addBent b r).storage := by
  unfold State.addBent
  dsimp only
  refine Storage.Keeps.putBentRecord ?_ b r
  rw [State.storage_foldl fun _ _ => State.storage_foldl (fun _ _ => by simp) _ _]
  exact h

theorem Storage.Keeps.execBentNew (d a : RegNo) : KeepsStorage P v (execBentNew d a s) := by
  unfold Sys2Proof.Machine.execBentNew
  split
  · exact h.trap _
  · refine h.withLoc fun t l ht => ?_
    have hf : v.Keeps P (t.fetchLoc (some t.cur) t.myBay l 256).1.storage := by simp [ht]
    dsimp only
    split
    · exact hf.stay
    · split
      · exact hf.stay
      · split
        · exact hf.trap _
        · split
          · exact hf.trap _
          · split
            · exact hf.retX ..
            · split
              · exact hf.retX ..
              · exact Storage.Keeps.retX (hf.addBent ..) ..

section
variable (hP : ∀ c, (P c).clear = true)
include hP

theorem Storage.Keeps.execBentKill (a : RegNo) : KeepsStorage P v (execBentKill a s) := by
  unfold Sys2Proof.Machine.execBentKill
  dsimp only
  split
  · exact h.trap _
  · split
    · exact h.trap _
    · simpa using Storage.Keeps.reap hP (by simpa using h)

theorem Storage.Keeps.execKill (id : Nat) : KeepsStorage P v (execKill id s) := by
  unfold Sys2Proof.Machine.execKill
  repeat' split
  any_goals exact h.stay
  exact (keepsStorage_next _).mpr (Storage.Keeps.reap hP (Storage.Keeps.endPeg hP h ..))

theorem Storage.Keeps.execBentRecordWriteback (b : Nat) : KeepsStorage P v (execBentRecordWriteback b s) := by
  unfold Sys2Proof.Machine.execBentRecordWriteback
  repeat' split
  any_goals exact h.stay
  exact (keepsStorage_next _).mpr (Storage.Keeps.reap hP (h.writeBackBent ..))

end

end

end Sys2Proof.Machine
end

section
/-! SUPPORT for O14 and O45. Scribe and system instructions, contexts, the jig, the sills and commands keep the pcs aligned. -/

namespace Sys2Proof.Machine
open Sys2Proof Sys2Proof.Claims

section
variable {P : Nat → Rights} {v : Storage} {s : State} (h : v.Keeps P s.storage)
include h

/-! ## Scribe instructions -/

theorem Storage.Keeps.execScrbInit (a : RegNo) (t : BitVec 4) : KeepsStorage P v (execScrbInit a t s) :=
  h.withScribe fun _ _ hu => hu.release (by simp [hu])

theorem Storage.Keeps.execScrbNext (d a : RegNo) : KeepsStorage P v (execScrbNext d a s) :=
  h.withScribe fun _ _ hu => hu.release (Storage.Keeps.retX (by simp [hu]) ..)

theorem Storage.Keeps.execScrbRd (d a : RegNo) (w : BitVec 5) : KeepsStorage P v (execScrbRd d a w s) :=
  h.withScribe fun _ _ hu => by simp [hu]

theorem Storage.Keeps.qscale (d a : RegNo) (t : BitVec 4) (q : BitVec 1) (w : BitVec 2) (exact : Bool) (m : Nat) :
    KeepsStorage P v (s.qscale d a t q w exact m) :=
  h.withScribe fun _ _ hu => by
    dsimp only
    split <;> simp [hu]

theorem Storage.Keeps.execScribeMerge (i : Nat) : KeepsStorage P v (execScribeMerge i s) := by
  unfold Sys2Proof.Machine.execScribeMerge
  (repeat' split) <;> simp [h]

/-! ## System instructions -/

theorem Storage.Keeps.execFence (sc : BitVec 3) (o : BitVec 2) (m : BitVec 16) : KeepsStorage P v (execFence sc o m s) := by
  unfold Sys2Proof.Machine.execFence
  dsimp only
  split <;> simp [h]

theorem Storage.Keeps.execGets (d : RegNo) (i : BitVec 12) : KeepsStorage P v (execGets d i s) := by
  unfold Sys2Proof.Machine.execGets
  split <;> simp [h]

theorem Storage.Keeps.execPuts (a : RegNo) (i : BitVec 12) : KeepsStorage P v (execPuts a i s) := by
  unfold Sys2Proof.Machine.execPuts
  dsimp only
  split
  · simp [h]
  · cases hw : s.me.regs.write i.toNat (s.getX a) with
    | none => dsimp only; (repeat' split) <;> simp [h]
    | some r => simp [h]

theorem Storage.Keeps.execEst (d a : RegNo) (i : BitVec 12) : KeepsStorage P v (execEst d a i s) := by
  unfold Sys2Proof.Machine.execEst
  dsimp only
  split <;> simp [h]

theorem Storage.Keeps.execEcall (i : BitVec 12) : KeepsStorage P v (execEcall i s) := by
  simp [Sys2Proof.Machine.execEcall, h]

theorem Storage.Keeps.tlbi (va : Option Nat) : KeepsStorage P v (s.tlbi va) := by
  unfold State.tlbi
  dsimp only
  split <;> simp [h]

theorem Storage.Keeps.execTlbi (a : RegNo) : KeepsStorage P v (execTlbi a s) := by
  unfold Sys2Proof.Machine.execTlbi
  dsimp only
  split
  · exact h.trap _
  · split
    · simp [h]
    · exact h.tlbi _

theorem Storage.Keeps.execTlbiAll : KeepsStorage P v (execTlbiAll s) := by
  unfold Sys2Proof.Machine.execTlbiAll
  split
  · exact h.tlbi _
  · exact h.trap _

theorem Storage.Keeps.execIflush : KeepsStorage P v (execIflush s) := by
  unfold Sys2Proof.Machine.execIflush
  split
  · exact h.stay
  · rw [keepsStorage_next, State.storage_skip]
    refine h.of_eq (State.storage_mapCores fun _ => ?_)
    exact ⟨rfl, rfl⟩

theorem Storage.Keeps.execKlock (d a : RegNo) : KeepsStorage P v (execKlock d a s) := by
  unfold Sys2Proof.Machine.execKlock
  dsimp only
  refine Storage.Keeps.retX (h.of_eq ?_) ..
  simp

theorem Storage.Keeps.execKunlock (a : RegNo) : KeepsStorage P v (execKunlock a s) := by
  unfold Sys2Proof.Machine.execKunlock
  rw [keepsStorage_next, State.storage_skip, State.storage_setMe (by rw [Core.typed_foldl fun _ _ => by simp, State.me_typed])]
  exact h

/-! ## Collectives -/

theorem Storage.Keeps.execCollTimeout (core : Nat) (n : BitVec 32) : KeepsStorage P v (execCollTimeout core n s) := by
  unfold Sys2Proof.Machine.execCollTimeout
  (repeat' split) <;> simp [h]

theorem Storage.Keeps.execCollAbtMemberTimeout (core : Nat) (n : BitVec 32) : KeepsStorage P v (execCollAbtMemberTimeout core n s) := by
  unfold Sys2Proof.Machine.execCollAbtMemberTimeout
  (repeat' split) <;> simp [h]

/-! ## Kernel contexts -/

theorem Storage.Keeps.execContextLaunch (core : Nat) : KeepsStorage P v (execContextLaunch core s) := by
  unfold Sys2Proof.Machine.execContextLaunch
  dsimp only
  split
  · exact h.stay
  · split
    · exact h.stay
    · split
      · split
        · exact h.stay
        · split
          · exact h.stay
          · (repeat' split) <;> simp [h]
          · simp [h]
          · next e =>
            have ht := h.bindOuts (P := P) (fun t l ht => by simp [ht]) |> (e ▸ ·)
            rw [Started.keepsStorage_go] at ht
            simp [ht]
      · exact h.stay

theorem Storage.Keeps.execBundleIssue {core : Nat} (hs : (P core).srf = true) (ha : (P core).acc = true) (uid : Nat) : KeepsStorage P v (execBundleIssue core uid s) := by
  have hl (x : Context) : v.Keeps P (s.setCore core (landDue (s.core core) x).1).storage := h.setCore (by
    rw [← State.core_typed]
    exact (Buffers.Keeps.refl ..).landAll hs ..)
  unfold Sys2Proof.Machine.execBundleIssue
  split
  · exact h.stay
  · split
    · exact h.stay
    · dsimp only
      split
      · simp [hl]
      · split
        · simp [hl]
        · exact (keepsStorage_next _).mpr (Storage.Keeps.issueBundle (by simpa using hl _) hs ha ..)

theorem Storage.Keeps.execStallStep (core uid : Nat) : KeepsStorage P v (execStallStep core uid s) := by
  unfold Sys2Proof.Machine.execStallStep
  (repeat' split) <;> simp [h]

theorem Storage.Keeps.execImemLineFill (core uid : Nat) : KeepsStorage P v (execImemLineFill core uid s) := by
  unfold Sys2Proof.Machine.execImemLineFill
  (repeat' split) <;> simp [h]

theorem Storage.Keeps.execSrfxFlagSet {core : Nat} (hs : (P core).srf = true) (uid n : Nat) : KeepsStorage P v (execSrfxFlagSet core uid n s) := by
  unfold Sys2Proof.Machine.execSrfxFlagSet
  dsimp only
  (repeat' split) <;> simp [h, h.srfxPerform hs]

theorem Storage.Keeps.execSemarmFlagSet (core uid f : Nat) : KeepsStorage P v (execSemarmFlagSet core uid f s) := by
  unfold Sys2Proof.Machine.execSemarmFlagSet
  (repeat' split) <;> simp [h]

theorem Storage.Keeps.execPharmFlagSet (core uid f : Nat) : KeepsStorage P v (execPharmFlagSet core uid f s) := by
  unfold Sys2Proof.Machine.execPharmFlagSet
  (repeat' split) <;> simp [h]

theorem Storage.Keeps.execContextHalt {core : Nat} (hs : (P core).srf = true) (uid : Nat) : KeepsStorage P v (execContextHalt core uid s) := by
  unfold Sys2Proof.Machine.execContextHalt
  split
  · exact h.stay
  · next x _ =>
    split
    · exact h.stay
    · have hl := (Buffers.Keeps.refl (P core) (s.core core).typed).landAll hs x ((rangeFrom 0 8).map (fun r => x.flight.filter (fun f => f.rem = r))).flatten
      rw [State.core_typed] at hl
      dsimp only
      rw [keepsStorage_next, State.storage_dropEverywhere]
      refine h.setCore ?_
      split
      · rw [Core.typed_setEntry]
        exact hl
      · exact hl

theorem Storage.Keeps.execContextRestFreeze (core uid : Nat) : KeepsStorage P v (execContextRestFreeze core uid s) := by
  unfold Sys2Proof.Machine.execContextRestFreeze
  (repeat' split) <;> simp [h]

theorem Storage.Keeps.execPreemptionEscalated (core uid : Nat) : KeepsStorage P v (execPreemptionEscalated core uid s) := by
  unfold Sys2Proof.Machine.execPreemptionEscalated
  (repeat' split) <;> simp [h]

/-! ## The jig -/

theorem Storage.Keeps.execJigRunStart (core : Nat) : KeepsStorage P v (execJigRunStart core s) := by
  unfold Sys2Proof.Machine.execJigRunStart
  split
  · exact h.stay
  · dsimp only
    split
    · exact h.stay
    · next c _ _ =>
      have hu : v.Keeps P (s.setCore core ((s.core core).showRun (s.jig core c) 0)).storage := by simpa using h
      split
      · exact hu.stay
      · (repeat' split) <;> simp [h]
      · simp [h]
      · next e =>
        have ht := e ▸ hu.startJig core c
        rw [Started.keepsStorage_go] at ht
        simp [ht]

theorem Storage.Keeps.execJigStep {core : Nat} (hs : (P core).srf = true) (ha : (P core).acc = true) (res : ResidueCheck) :
    KeepsStorage P v (execJigStep core res s) := by
  unfold Sys2Proof.Machine.execJigStep
  (repeat' split) <;> simp [h, h.jigStep hs ha]

/-! ## The sills -/

@[simp] theorem Storage.Keeps.sillAccess {ch va off n : Nat} {need : Need} {own : Bool} {a : SillAcc}
    (ha : s.sillAccess ch va off n need own = a) : v.Keeps P a.state.storage := by
  rw [← ha, State.storage_sillAccess]
  exact h

theorem Storage.Keeps.execSillRd (ch : Nat) : KeepsStorage P v (execSillRd ch s) := by
  unfold Sys2Proof.Machine.execSillRd
  split
  · exact h.stay
  · split
    · exact h.stay
    · split
      · next ha => exact (keepsStorage_next _).mpr (h.sillAccess ha)
      · next ha => exact (keepsStorage_next _).mpr (h.sillAccess ha)
      · next ha =>
        have ht := h.sillAccess ha
        dsimp only [SillAcc.state] at ht
        simp [ht]

theorem Storage.Keeps.execSillWr (ch : Nat) : KeepsStorage P v (execSillWr ch s) := by
  unfold Sys2Proof.Machine.execSillWr
  split
  · exact h.stay
  · split
    · exact h.stay
    · split
      · next ha => exact (keepsStorage_next _).mpr (h.sillAccess ha)
      · next ha => exact (keepsStorage_next _).mpr (h.sillAccess ha)
      · next ha =>
        have ht := h.sillAccess ha
        dsimp only [SillAcc.state] at ht
        simp [ht]

theorem Storage.Keeps.execSillLds (ch : Nat) : KeepsStorage P v (execSillLds ch s) := by
  unfold Sys2Proof.Machine.execSillLds
  split
  · exact h.stay
  · split
    · next ha => exact (keepsStorage_next _).mpr (h.sillAccess ha)
    · next ha => exact (keepsStorage_next _).mpr (h.sillAccess ha)
    · next ha =>
      have ht := h.sillAccess ha
      dsimp only [SillAcc.state] at ht
      simp [ht]

theorem Storage.Keeps.sillGate (ch : Nat) (u : Sill) (e : Word) : KeepsStorage P v (s.sillGate ch u e) := by
  unfold State.sillGate
  dsimp only
  split
  · next ha => exact (keepsStorage_next _).mpr (h.sillAccess ha)
  · next ha => exact (keepsStorage_next _).mpr (h.sillAccess ha)
  · next ha =>
    have ht := h.sillAccess ha
    dsimp only [SillAcc.state] at ht
    split <;> simp [ht]

theorem Storage.Keeps.execSillGate (ch : Nat) : KeepsStorage P v (execSillGate ch s) := by
  unfold Sys2Proof.Machine.execSillGate
  split
  · exact h.stay
  · split
    · simp [h]
    · exact h.sillGate ..

theorem Storage.Keeps.execSillGateReread (ch : Nat) : KeepsStorage P v (execSillGateReread ch s) := by
  unfold Sys2Proof.Machine.execSillGateReread
  split
  · exact h.stay
  · split
    · exact h.stay
    · split
      · exact h.sillGate ..
      · exact h.stay

theorem Storage.Keeps.execSillGateTimeout (ch : Nat) : KeepsStorage P v (execSillGateTimeout ch s) := by
  unfold Sys2Proof.Machine.execSillGateTimeout
  (repeat' split) <;> simp [h]

theorem Storage.Keeps.execSillWait (ch : Nat) : KeepsStorage P v (execSillWait ch s) := by
  unfold Sys2Proof.Machine.execSillWait
  split <;> simp [h]

theorem Storage.Keeps.execSillMv (ch : Nat) : KeepsStorage P v (execSillMv ch s) := by
  unfold Sys2Proof.Machine.execSillMv
  split <;> simp [h]

theorem Storage.Keeps.execSillRef (ch : Nat) : KeepsStorage P v (execSillRef ch s) := by
  unfold Sys2Proof.Machine.execSillRef
  dsimp only
  (repeat' split) <;> simp [h]

theorem Storage.Keeps.execSillRefreshInsert (ch : Nat) : KeepsStorage P v (execSillRefreshInsert ch s) := by
  unfold Sys2Proof.Machine.execSillRefreshInsert
  (repeat' split) <;> simp [h]

theorem Storage.Keeps.beginSweep (ch : Nat) (u : Sill) : KeepsStorage P v (s.beginSweep ch u) := by
  unfold State.beginSweep
  dsimp only
  split
  · simp [h]
  · split
    · simp [h]
    · split
      · simp [h]
      · exact h.stay
      · (repeat' split) <;> simp [h]
      · next hb => simp [h.bindRecord hb]

theorem Storage.Keeps.execSillRunStart (ch : Nat) : KeepsStorage P v (execSillRunStart ch s) := by
  unfold Sys2Proof.Machine.execSillRunStart
  split
  · exact h.stay
  · dsimp only
    split
    · exact h.stay
    · exact h.beginSweep ..

theorem Storage.Keeps.sillDone (ch : Nat) (u : Sill) : KeepsStorage P v (s.sillDone ch u) := by
  unfold State.sillDone
  dsimp only
  split
  · exact h.stay
  · split
    · simp [h]
    · split
      · next ha => exact (keepsStorage_next _).mpr (h.sillAccess ha)
      · next ha => exact (keepsStorage_next _).mpr (h.sillAccess ha)
      · next ha =>
        have ht := h.sillAccess ha
        dsimp only [SillAcc.state] at ht
        simp [ht]

theorem Storage.Keeps.execSillPassEnd (ch : Nat) : KeepsStorage P v (execSillPassEnd ch s) := by
  unfold Sys2Proof.Machine.execSillPassEnd
  split
  · exact h.stay
  · split
    · exact h.stay
    · split
      · exact h.sillDone ..
      · split
        · exact h.stay
        · split
          · split <;> simp [h]
          · split
            · simp [h]
            · next hm =>
              have ht := h.of_eq (State.storage_sweepMerge hm)
              dsimp only
              split
              · exact Storage.Keeps.beginSweep (by simpa using ht) ..
              · simp [ht]

/-! ## Commands -/

theorem Storage.Keeps.cmdSilent (core : Nat) (c : Cmd) (va : Word) (elem : Nat) (late : List (Loc × List Byte)) :
    KeepsStorage P v (s.cmdSilent core c va elem late) := by
  unfold State.cmdSilent
  (repeat' split) <;> simp [h]

theorem Storage.Keeps.finish {r : Started} (hr : r.KeepsStorage P v) (core : Nat) (c : Cmd) : KeepsStorage P v (r.finish s core c) := by
  cases r with
  | stall => exact h.stay
  | silent va => exact h.cmdSilent ..
  | fault code addr c => simp [Started.finish, h]
  | go t c =>
    rw [Started.keepsStorage_go] at hr
    simp [Started.finish, hr]

theorem Storage.Keeps.runCmd (core : Nat) (c : Cmd) : KeepsStorage P v (s.runCmd core c) := by
  unfold State.runCmd
  split
  · simp [h]
  · exact Storage.Keeps.finish (by simpa using h) (Storage.Keeps.cmdChecks (by simpa using h) ..) ..

theorem Storage.Keeps.reserve (core : Nat) (c : Cmd) : KeepsStorage P v (s.reserve core c) := by
  unfold State.reserve
  dsimp only
  split
  · exact h.runCmd ..
  · split
    · exact h.runCmd ..
    · simp [h]

theorem Storage.Keeps.execCommandStart (core : Nat) (q : Queue) : KeepsStorage P v (execCommandStart core q s) := by
  unfold Sys2Proof.Machine.execCommandStart
  dsimp only
  split
  · exact h.stay
  · split
    · exact h.stay
    · split
      · exact h.stay
      · split
        · exact h.stay
        · split
          · exact h.runCmd ..
          · split
            · exact h.stay
            · split
              · split
                · exact h.stay
                · exact h.cmdSilent ..
                · simp [h]
                · next e =>
                  have ht := e ▸ h.readLaunch core _
                  rw [Started.keepsStorage_go] at ht
                  split
                  · simp [ht]
                  · exact ht.reserve ..
              · exact h.reserve ..

theorem Storage.Keeps.execCommandElement {core : Nat} (hP : P core = .all) (q : Queue) : KeepsStorage P v (execCommandElement core q s) := by
  unfold Sys2Proof.Machine.execCommandElement
  split
  · exact h.stay
  · split
    · exact h.stay
    · split
      · simp [Storage.Keeps.readAhead (s := { s with free := s.free + 1 }) h hP]
      · split
        · next e =>
          have ht := e ▸ h.cmdElem hP _
          rw [Elem.holds_ok] at ht
          simp [ht]
        · split <;> simp [h]
        · simp [h]
        · exact h.stay
        · exact h.cmdSilent ..

theorem Storage.Keeps.mergeCmd {core : Nat} {c : Cmd} {k : State → Cmd → Result} (hk : ∀ t d, v.Keeps P t.storage → KeepsStorage P v (k t d)) :
    KeepsStorage P v (s.mergeCmd core c k) := by
  unfold State.mergeCmd
  split
  · exact hk _ _ h
  · split
    · simp [h]
    · next hm => exact hk _ _ (h.of_eq (by simpa using State.storage_issueMerge hm))

theorem Storage.Keeps.mergeOwed (core : Nat) (c : Cmd) (l : List (Nat × Stats)) : KeepsStorage P v (s.mergeOwed core c l) := by
  induction l generalizing s with
  | nil => simp [State.mergeOwed, h]
  | cons e t ih =>
    unfold State.mergeOwed
    dsimp only
    split
    · simp [h]
    · next hm => exact ih (h.of_eq (State.storage_issueMerge hm))

theorem Storage.Keeps.close {r : Elem State} (hr : r.Holds fun t => v.Keeps P t.storage) (core : Nat) (c : Cmd) : KeepsStorage P v (r.close s core c) := by
  cases r with
  | ok t => simpa [Elem.close] using hr
  | fault code addr => simp [Elem.close, h]
  | firstUse w => exact h.stay
  | stall => exact h.stay
  | silent va late => exact h.cmdSilent ..

theorem Storage.Keeps.closeColl (core : Nat) (c : Cmd) : KeepsStorage P v (s.closeColl core c) := by
  have hr := h.collFlag core c
  unfold State.closeColl
  dsimp only
  split
  · exact Storage.Keeps.close (by simpa using h) hr ..
  · exact h.close hr ..

theorem Storage.Keeps.finishCmd (core : Nat) (c : Cmd) : KeepsStorage P v (s.finishCmd core c) := by
  have merged {t : State} (ht : v.Keeps P t.storage) (d : Cmd) : KeepsStorage P v (t.mergeCmd core d fun s c => .next (s.complete core c true)) :=
    ht.mergeCmd fun u _ hu => by simpa using hu
  unfold State.finishCmd
  split
  · have hs := h.scaleOut core c
    cases e : s.scaleOut core c with
    | ok t => exact merged (by rwa [e] at hs) _
    | _ => exact h.close (by trivial) ..
  · split
    · exact h.closeColl ..
    · exact h.mergeCmd fun u _ hu => hu.closeColl ..
  · simp [h]
  · (repeat' split) <;> simp [h]
  · exact merged h _

theorem Storage.Keeps.execCommandComplete (core : Nat) (q : Queue) : KeepsStorage P v (execCommandComplete core q s) := by
  unfold Sys2Proof.Machine.execCommandComplete
  dsimp only
  repeat' split
  any_goals exact h.stay
  · exact h.mergeOwed ..
  · exact h.finishCmd ..

end

end Sys2Proof.Machine
end

section
/-! SUPPORT for O14 and O45. Requests, the fabric, arithmetic, host frames and power keep storage. -/

namespace Sys2Proof.Machine
open Sys2Proof Sys2Proof.Claims

/-! ## Requests of a manager -/

/-- The state that a request is answered from keeps storage. -/
def Reply.KeepsStorage (P : Nat → Rights) (v : Storage) : Reply → Prop
  | .wait => True
  | .answer t _ _ => v.Keeps P t.storage

@[simp] theorem Reply.keepsStorage_answer {P : Nat → Rights} {v : Storage} (t : State) (status : Nat) (b : List Byte) :
    (Reply.answer t status b).KeepsStorage P v ↔ v.Keeps P t.storage := Iff.rfl

section
variable {P : Nat → Rights} {v : Storage} {s : State} (h : v.Keeps P s.storage)
include h

@[simp] theorem Storage.Keeps.refuse (status : Nat) : (s.refuse status).KeepsStorage P v := h

theorem Storage.Keeps.request {typ : Nat} {dg : List Byte} {k : State → Session → List Byte → Reply} (hk : ∀ x b, (k s x b).KeepsStorage P v) :
    KeepsStorage P v (s.request typ dg k) := by
  unfold State.request
  split
  · exact h.stay
  · next x b _ =>
    have hr := hk x b
    split
    · exact h.stay
    · next e =>
      rw [e] at hr
      simpa using hr

theorem Storage.Keeps.killBentMsg (hP : ∀ c, (P c).clear = true) (x : Session) (b : List Byte) : (s.killBentMsg x b).KeepsStorage P v := by
  unfold State.killBentMsg
  split
  · exact h.refuse _
  · split
    · exact h.refuse _
    · exact Storage.Keeps.reap hP (by simpa using h)

theorem Storage.Keeps.createBentMsg (x : Session) (b : List Byte) : (s.createBentMsg x b).KeepsStorage P v := by
  unfold State.createBentMsg
  dsimp only
  split
  · exact h.refuse _
  · split
    · exact h.refuse _
    · split
      · exact h.refuse _
      · split
        · split
          · exact h.refuse _
          · rw [Reply.keepsStorage_answer, State.storage_mk, Storage.of_fields]
            exact Storage.Keeps.addBent (by simp [h]) ..
        · exact h.refuse _

theorem Storage.Keeps.enqueuePegMsg (x : Session) (b : List Byte) : (s.enqueuePegMsg x b).KeepsStorage P v := by
  unfold State.enqueuePegMsg
  dsimp only
  split
  · exact h.refuse _
  · split
    · exact h.refuse _
    · split
      · exact h.refuse _
      · split
        · simp [h]
        · split
          · trivial
          · next hg =>
            have ht := h.gRead hg
            split
            · next he => simp [ht.enqueue he]
            · simp [ht]
            · simp [ht]
          · simp [h]

theorem Storage.Keeps.loadImageMsg (x : Session) (b : List Byte) : (s.loadImageMsg x b).KeepsStorage P v := by
  unfold State.loadImageMsg
  dsimp only
  split
  · exact h.refuse _
  · split
    · exact h.refuse _
    · split
      · exact h.refuse _
      · split
        · trivial
        · next hg =>
          have ht := h.gReadAs hg
          split
          · split
            · next hl => simp [ht.loadForm hl]
            · trivial
          · split
            · exact ht.refuse _
            · simp [ht]
        · exact h.refuse _

theorem Storage.Keeps.keyInstallMsg (x : Session) (b : List Byte) : (s.keyInstallMsg x b).KeepsStorage P v := by
  unfold State.keyInstallMsg
  dsimp only
  split
  · exact h.refuse _
  · (repeat' split) <;> simp [h]

theorem Storage.Keeps.attestationMsg (x : Session) (b : List Byte) : (s.attestationMsg x b).KeepsStorage P v := by
  unfold State.attestationMsg
  split <;> simp [h]

theorem Storage.Keeps.telemetryMsg (x : Session) (b : List Byte) : (s.telemetryMsg x b).KeepsStorage P v := by
  unfold State.telemetryMsg
  split <;> simp [h]

theorem Storage.Keeps.dumpMsg (x : Session) (b : List Byte) : (s.dumpMsg x b).KeepsStorage P v := by
  unfold State.dumpMsg
  (repeat' split) <;> simp [h]

theorem Storage.Keeps.execInit (dg : List Byte) : KeepsStorage P v (execInit dg s) := by
  unfold Sys2Proof.Machine.execInit
  dsimp only
  (repeat' split) <;> simp [h]

theorem Storage.Keeps.execConfigurationRecordUpdate (r : ConfigRecord) (signer : RecordSigner) :
    KeepsStorage P v (execConfigurationRecordUpdate r signer s) := by
  unfold Sys2Proof.Machine.execConfigurationRecordUpdate
  (repeat' split) <;> simp [h]

/-! ## Memory, its home and the fabric -/

theorem Storage.Keeps.execPageWalk (bay b : Nat) (va : Word) : KeepsStorage P v (execPageWalk bay b va s) := by
  unfold Sys2Proof.Machine.execPageWalk
  dsimp only
  (repeat' split) <;> simp [h]

theorem Storage.Keeps.execScrub (pa : Nat) (e : EccCheck) : KeepsStorage P v (execScrub pa e s) := by
  unfold Sys2Proof.Machine.execScrub
  split
  · simp [h]
  · trivial

theorem Storage.Keeps.execLineEviction (bay : Nat) (l : CachedAt) : KeepsStorage P v (execLineEviction bay l s) := by
  unfold Sys2Proof.Machine.execLineEviction
  (repeat' split) <;> simp [h]

theorem Storage.Keeps.execHomeAccess (i : Nat) (e : EccCheck) : KeepsStorage P v (execHomeAccess i e s) := by
  unfold Sys2Proof.Machine.execHomeAccess
  (repeat' split) <;> simp [h]

theorem Storage.Keeps.execFabricTimeout (i : Nat) : KeepsStorage P v (execFabricTimeout i s) := by
  unfold Sys2Proof.Machine.execFabricTimeout
  (repeat' split) <;> simp [h]

theorem Storage.Keeps.execFabricErrorAnswer (i : Nat) : KeepsStorage P v (execFabricErrorAnswer i s) := by
  unfold Sys2Proof.Machine.execFabricErrorAnswer
  (repeat' split) <;> simp [h]

theorem Storage.Keeps.execMergeAtHome (i : Nat) (other : Option Nat) : KeepsStorage P v (execMergeAtHome i other s) := by
  unfold Sys2Proof.Machine.execMergeAtHome
  (repeat' split) <;> simp [h]

theorem Storage.Keeps.execLinkBringUp (peer : Nat) (authentic : Bool) : KeepsStorage P v (execLinkBringUp peer authentic s) := by
  unfold Sys2Proof.Machine.execLinkBringUp
  (repeat' split) <;> simp [h]

theorem Storage.Keeps.execLinkKeyRenewal (peer : Nat) : KeepsStorage P v (execLinkKeyRenewal peer s) := by
  unfold Sys2Proof.Machine.execLinkKeyRenewal
  (repeat' split) <;> simp [h]

theorem Storage.Keeps.execFabricPacket (p : FabricPacket) : KeepsStorage P v (execFabricPacket p s) := by
  unfold Sys2Proof.Machine.execFabricPacket
  split
  · exact h.stay
  · split
    · split
      · next hf => exact (keepsStorage_next _).mpr (h.of_eq (State.storage_forward hf))
      · exact h.stay
    · split
      · exact h.stay
      · have hp := h.performPacket p
        split
        · exact h.stay
        · next e =>
          rw [e] at hp
          split
          · next ha => exact (keepsStorage_next _).mpr (Storage.Keeps.of_eq hp (storage_sendAll ha))
          · exact h.stay

/-! ## Arithmetic -/

theorem Storage.Keeps.intOp (d a b : RegNo) (op : Word → Word → Word) : KeepsStorage P v (s.intOp d a b op) := h.retX ..

theorem Storage.Keeps.immOp (d a : RegNo) (i : Word) (op : Word → Word → Word) : KeepsStorage P v (s.immOp d a i op) := h.retX ..

theorem Storage.Keeps.fpFlags {g : FFlags} {k : State → Result} (hk : ∀ t, v.Keeps P t.storage → KeepsStorage P v (k t)) :
    KeepsStorage P v (s.fpFlags g k) := by
  unfold State.fpFlags
  dsimp only
  split
  · simp [h]
  · exact hk _ (by simpa using h)

theorem Storage.Keeps.fpResult (f : Fmt) (m : BitVec 2) (d : RegNo) (g : FFlags) (x : FVal) : KeepsStorage P v (s.fpResult f m d g x) :=
  h.fpFlags fun _ ht => ht.retF ..

theorem Storage.Keeps.fpArith (f : Fmt) (d a b : RegNo) (m : BitVec 2) (op : FVal → FVal → FVal) : KeepsStorage P v (s.fpArith f d a b m op) :=
  h.fpResult ..

theorem Storage.Keeps.fpMinMax (f : Fmt) (d a b : RegNo) (op : FVal → FVal → FVal) : KeepsStorage P v (s.fpMinMax f d a b op) :=
  h.fpFlags fun _ ht => ht.retF ..

theorem Storage.Keeps.fpEq (f : Fmt) (d a b : RegNo) : KeepsStorage P v (s.fpEq f d a b) := h.fpFlags fun _ ht => ht.retX ..

theorem Storage.Keeps.fpCmp (f : Fmt) (d a b : RegNo) (op : FVal → FVal → Bool) : KeepsStorage P v (s.fpCmp f d a b op) :=
  h.fpFlags fun _ ht => ht.retX ..

theorem Storage.Keeps.toInt (f : Fmt) (d a : RegNo) (m : BitVec 2) (uns : Bool) : KeepsStorage P v (s.toInt f d a m uns) :=
  h.fpFlags fun _ ht => ht.retX ..

/-! ## Host frames -/

theorem Storage.Keeps.execPtpMessage (m : PtpMessage) : KeepsStorage P v (execPtpMessage m s) := by
  unfold Sys2Proof.Machine.execPtpMessage
  dsimp only
  split
  · exact h.stay
  · (repeat' split) <;> simp [h]

theorem Storage.Keeps.execArpRequest (port : Nat) (addr : List Byte) : KeepsStorage P v (execArpRequest port addr s) := by
  unfold Sys2Proof.Machine.execArpRequest
  split <;> simp [h]

theorem Storage.Keeps.execNeighborDiscovery (port : Nat) (addr : List Byte) : KeepsStorage P v (execNeighborDiscovery port addr s) := by
  unfold Sys2Proof.Machine.execNeighborDiscovery
  split <;> simp [h]

theorem Storage.Keeps.execFrameDrop (f : EthFrame) : KeepsStorage P v (execFrameDrop f s) := by
  unfold Sys2Proof.Machine.execFrameDrop
  split
  · exact h.stay
  · split
    · exact h.execArpRequest ..
    · exact h.execNeighborDiscovery ..
    · exact h.stay
    · exact h.stay
    · exact h.stay

theorem Storage.Keeps.resendRoce (p : RocePacket) (q : QueuePair) (ext n : Nat) : KeepsStorage P v (s.resendRoce p q ext n) := by
  refine (keepsStorage_next _).mpr (h.of_eq ((State.storage_foldl (fun t i => ?_) _ _).trans (by simp)))
  split
  · rfl
  · split
    · rfl
    · simp

@[simp] theorem Storage.Keeps.ackRoce (p : RocePacket) (q : QueuePair) (ext syndrome : Nat) : KeepsStorage P v (s.ackRoce p q ext syndrome) := by
  simp [State.ackRoce, h]

theorem Storage.Keeps.withRoce {p : RocePacket} {n : Nat} {k : State → QueuePair → Nat → List Byte → Result}
    (hk : ∀ t q e d, v.Keeps P t.storage → KeepsStorage P v (k t q e d)) : KeepsStorage P v (s.withRoce p n k) := by
  unfold State.withRoce
  split
  · exact h.stay
  · next q ext d _ =>
    have ht : v.Keeps P (State.cnp { s with qps := s.qps.put p.qpn.toNat q } p ext).storage := by simpa using h
    dsimp only
    split
    · exact ht.stay
    · split
      · exact ht.resendRoce ..
      · split
        · exact ht.ackRoce ..
        · exact hk _ _ _ _ ht

theorem Storage.Keeps.writeRoce (p : RocePacket) (q : QueuePair) (ext : Nat) (d : List Byte) : KeepsStorage P v (s.writeRoce p q ext d) := by
  unfold State.writeRoce
  extract_lets q more next refused
  generalize (if more = true then d.length != roceData || decide (q.writeLeft ≤ roceData)
    else d.length != q.writeLeft || decide (roceData < d.length)) = bad
  split
  · exact h.ackRoce ..
  · split
    · exact h.ackRoce ..
    · split
      · exact h.ackRoce ..
      · split
        · next hg => exact Storage.Keeps.ackRoce (h.gWrite hg) ..
        · exact h.ackRoce ..
        · simp [h]
        · exact h.stay

theorem Storage.Keeps.execRdmaWrite (p : RocePacket) : KeepsStorage P v (execRdmaWrite p s) := by
  unfold Sys2Proof.Machine.execRdmaWrite
  split
  · exact h.stay
  · refine h.withRoce fun t q e d ht => ?_
    split
    · exact ht.ackRoce ..
    · exact ht.writeRoce ..

theorem Storage.Keeps.execRdmaRead (p : RocePacket) : KeepsStorage P v (execRdmaRead p s) := by
  unfold Sys2Proof.Machine.execRdmaRead
  split
  · exact h.stay
  · refine h.withRoce fun t q e d ht => ?_
    dsimp only
    split
    · exact ht.ackRoce ..
    · split
      · exact ht.ackRoce ..
      · split
        · next hg => simp [ht.gRead hg]
        · exact ht.stay
        · exact ht.ackRoce ..

theorem Storage.Keeps.execRoceInvalidRequest (p : RocePacket) : KeepsStorage P v (execRoceInvalidRequest p s) := by
  unfold Sys2Proof.Machine.execRoceInvalidRequest
  split
  · exact h.stay
  · exact h.withRoce fun _ _ _ _ ht => ht.ackRoce ..

/-! ## Power, heat and bring-up -/

theorem Storage.Keeps.execPowerSample (p : PowerReading) : KeepsStorage P v (execPowerSample p s) := by
  unfold Sys2Proof.Machine.execPowerSample
  dsimp only
  split
  · exact h.stay
  · rw [keepsStorage_next]
    split <;> simp [h]

theorem Storage.Keeps.execThermalHold (bay : Nat) (temp : Int) : KeepsStorage P v (execThermalHold bay temp s) := by
  unfold Sys2Proof.Machine.execThermalHold
  dsimp only
  split
  · exact h.stay
  · rw [keepsStorage_next]
    split <;> simp [h]

theorem Storage.Keeps.execThermalRelease (bay : Nat) (temp : Int) : KeepsStorage P v (execThermalRelease bay temp s) := by
  unfold Sys2Proof.Machine.execThermalRelease
  dsimp only
  (repeat' split) <;> simp [h]

theorem Storage.Keeps.execThermalTrip (bay : Nat) (temp : Int) : KeepsStorage P v (execThermalTrip bay temp s) := by
  unfold Sys2Proof.Machine.execThermalTrip
  split <;> simp [h]

theorem Storage.Keeps.execFirmwareStateError : KeepsStorage P v (execFirmwareStateError s) := by
  unfold Sys2Proof.Machine.execFirmwareStateError
  (repeat' split) <;> simp [h]

theorem Storage.Keeps.execInputPowerFault : KeepsStorage P v (execInputPowerFault s) := by
  unfold Sys2Proof.Machine.execInputPowerFault
  (repeat' split) <;> simp [h]

end

end Sys2Proof.Machine
end

section
/-! SUPPORT for O14 and O45. Dispatch, pre-emption, semaphores, phasers and traps keep storage. -/

namespace Sys2Proof.Machine
open Sys2Proof Sys2Proof.Claims

/-! ## Dispatch, pre-emption and migration -/

section
variable {P : Nat → Rights} {v : Storage} {s : State} (h : v.Keeps P s.storage)
include h

theorem Storage.Keeps.execPegDispatch {core : Nat} (hP : P core = .all) : KeepsStorage P v (execPegDispatch core s) := by
  unfold Sys2Proof.Machine.execPegDispatch
  split
  · exact h.stay
  · split
    · exact h.stay
    · split
      · exact h.stay
      · split
        · simp [h]
        · next l _ =>
          have ht := h.readLoc l 64
          dsimp only
          split
          · simp [h]
          · split
            · exact (keepsStorage_next _).mpr (ht.resumePeg hP ..)
            · exact (keepsStorage_next _).mpr (Storage.Keeps.startPeg (by simpa using ht) hP ..)

theorem Storage.Keeps.execPriorityAgeing (bay bent : Nat) : KeepsStorage P v (execPriorityAgeing bay bent s) := by
  unfold Sys2Proof.Machine.execPriorityAgeing
  dsimp only
  (repeat' split) <;> simp [h]

theorem Storage.Keeps.execPreemptionRequest (id : Nat) : KeepsStorage P v (execPreemptionRequest id s) := by
  unfold Sys2Proof.Machine.execPreemptionRequest
  dsimp only
  (repeat' split) <;> simp [h]

theorem Storage.Keeps.execPreemptionComplete (core : Nat) : KeepsStorage P v (execPreemptionComplete core s) := by
  unfold Sys2Proof.Machine.execPreemptionComplete
  dsimp only
  (repeat' split) <;> simp [h]

theorem Storage.Keeps.execPegMigration (hP : ∀ c, (P c).clear = true) (id core : Nat) : KeepsStorage P v (execPegMigration id core s) := by
  unfold Sys2Proof.Machine.execPegMigration
  dsimp only
  split
  · exact h.stay
  · split
    · exact h.stay
    · split
      · exact h.stay
      · split
        · simp [h]
        · split
          · simp [h]
          · next t ht =>
            rw [keepsStorage_next, State.storage_modPeg]
            refine Storage.Keeps.writeLoc (Storage.Keeps.readLoc ((h.spillAll ht).setCore ?_) ..) ..
            rw [← State.core_typed]
            exact (Buffers.Keeps.refl ..).clearWindows (hP _) _

/-! ## Semaphores, phasers and MWAIT -/

theorem Storage.Keeps.execSemsig (a : RegNo) (n : BitVec 8) : KeepsStorage P v (execSemsig a n s) :=
  h.release (by
    split
    · exact h.trap _
    · next hs => simp [State.storage_addSem hs, h])

theorem Storage.Keeps.execSemwait (a : RegNo) (n : BitVec 8) : KeepsStorage P v (execSemwait a n s) := by
  unfold Sys2Proof.Machine.execSemwait
  split <;> simp [h]

theorem Storage.Keeps.execSemwaitS (a : RegNo) (n : BitVec 8) : KeepsStorage P v (execSemwaitS a n s) :=
  h.withRecord fun _ _ ht => by
    (repeat' split) <;> simp [ht]

theorem Storage.Keeps.withPhaser {n : BitVec 10} {k : Phaser → Result} (hk : ∀ ph, KeepsStorage P v (k ph)) : KeepsStorage P v (s.withPhaser n k) := by
  unfold State.withPhaser
  split
  · exact hk _
  · exact h.trap _

theorem Storage.Keeps.execPhreg (m : BitVec 2) (n : BitVec 10) : KeepsStorage P v (execPhreg m n s) :=
  h.withPhaser fun _ => by
    split <;> simp [h]

theorem Storage.Keeps.execPhdrop (n : BitVec 10) : KeepsStorage P v (execPhdrop n s) :=
  h.withPhaser fun _ => by
    (repeat' split) <;> simp [h]

theorem Storage.Keeps.execPhsig (n : BitVec 10) : KeepsStorage P v (execPhsig n s) :=
  h.withPhaser fun _ => by
    (repeat' split) <;> simp [h]

theorem Storage.Keeps.phaseWait (rec : Loc) (d : RegNo) (n : Nat) (l : BitVec 32) (raised : Bool) :
    KeepsStorage P v (s.phaseWait rec d n l raised) := by
  have marked (p : Prop) [Decidable p] (ph : Phaser) : v.Keeps P (if p then s.setPhaser s.myBay n ph else s).storage := by
    split <;> simp [h]
  unfold State.phaseWait
  dsimp only
  split
  · exact (marked _ _).retX ..
  · exact h.release ((keepsStorage_next _).mpr (Storage.Keeps.suspend (marked _ _) ..))

theorem Storage.Keeps.execPhwait (d : RegNo) (n : BitVec 10) : KeepsStorage P v (execPhwait d n s) :=
  h.withRecord fun _ _ ht => ht.withPhaser fun _ => by
    split
    · exact ht.trap _
    · exact ht.trap _
    · exact ht.phaseWait ..
    · exact ht.phaseWait ..

theorem Storage.Keeps.execMwait (d a : RegNo) : KeepsStorage P v (execMwait d a s) :=
  h.withRecord fun _ _ ht => ht.withLoc fun _ _ hu => by
    dsimp only
    (repeat' split) <;> simp [hu]

theorem Storage.Keeps.execMwaitSpinExpiry (c : Nat) : KeepsStorage P v (execMwaitSpinExpiry c s) := by
  unfold Sys2Proof.Machine.execMwaitSpinExpiry
  dsimp only
  (repeat' split) <;> simp [h]

/-! ## Traps and the ends of the machine's own -/

theorem Storage.Keeps.takePending (sel : Trap → Bool) : KeepsStorage P v (s.takePending sel) := by
  unfold State.takePending
  split
  · split
    · exact h.stay
    · split
      · exact h.stay
      · split
        · exact h.stay
        · exact (keepsStorage_next _).mpr (Storage.Keeps.takeTrap (by simpa using h) ..)
  · exact h.stay

theorem Storage.Keeps.execWatchdog (core : Nat) : KeepsStorage P v (execWatchdog core s) := by
  unfold Sys2Proof.Machine.execWatchdog
  dsimp only
  (repeat' split) <;> simp [h]

theorem Storage.Keeps.execTret : KeepsStorage P v (execTret s) := by
  unfold Sys2Proof.Machine.execTret
  dsimp only
  split
  · exact h.trap _
  · rw [keepsStorage_next, State.storage_returnFromTrap]
    split <;> simp [h]

theorem Storage.Keeps.execJdrop (a : RegNo) : KeepsStorage P v (execJdrop a s) := by
  unfold Sys2Proof.Machine.execJdrop
  dsimp only
  split
  · exact h.trap _
  · (repeat' split) <;> simp [h]

theorem Storage.Keeps.execAccFirstUse {core : Nat} (ha : (P core).acc = true) (w : AccWork) : KeepsStorage P v (execAccFirstUse core w s) := by
  unfold Sys2Proof.Machine.execAccFirstUse
  dsimp only
  (repeat' split) <;> simp [h, h.handOver ha]

end

end Sys2Proof.Machine
end

section
/-! O14 and O45. Every instruction and event keeps memory canonical, and the typed buffers but for its rights. -/

namespace Sys2Proof.Machine
open Sys2Proof Sys2Proof.Claims

/-! ## Rights of instructions and events -/

/-- What an instruction or event may do to the buffers of a core that it may write at all. -/
def Rights.own (i : Instr) : Rights where
  srf := writesAnyBuffer i || writesSrf i
  acc := writesAnyBuffer i || writesAcc i
  clear := writesAnyBuffer i || writesAcc i || clearsWindows i
  rest := writesAnyBuffer i

/-- What it may do to the buffers of each core. -/
def Rights.ofInstr (i : Instr) (c : Nat) : Rights :=
  match writerCore i with
  | some w => if w = c then Rights.own i else .none
  | .none => Rights.own i

theorem Rights.ofInstr_writer {i : Instr} {w : Nat} (h : writerCore i = some w) : Rights.ofInstr i w = Rights.own i := by
  simp [Rights.ofInstr, h]

theorem Rights.ofInstr_other {i : Instr} {w c : Nat} (h : writerCore i = some w) (hc : w ≠ c) : Rights.ofInstr i c = .none := by
  simp [Rights.ofInstr, h, hc]

/-- No core's buffers take more than the rights of the instruction or event name. -/
theorem Rights.ofInstr_cases (i : Instr) (c : Nat) : Rights.ofInstr i c = Rights.own i ∨ Rights.ofInstr i c = .none := by
  unfold Rights.ofInstr
  split
  · split
    · exact .inl rfl
    · exact .inr rfl
  · exact .inl rfl

/-! ## Power -/

section
variable {P : Nat → Rights} {v : Storage} {s : State} (hP : ∀ c, P c = .all)
include hP

/-- With every right, a canonical memory is enough. -/
theorem Storage.Keeps.of_all {w : Storage} (hm : ByteMap.wf w.mem = true) : v.Keeps P w :=
  ⟨fun _ => hm, fun c => hP c ▸ Buffers.keeps_all _ _⟩

theorem keepsStorage_blank {t : State} (ht : t.storage = s.blank.storage) : KeepsStorage P v (.next t) := by
  rw [keepsStorage_next, ht, State.storage_blank]
  exact Storage.Keeps.of_all hP (by decide)

theorem Storage.Keeps.execPowerUp (h : v.Keeps P s.storage) (b : BringUp) : KeepsStorage P v (execPowerUp b s) := by
  unfold Sys2Proof.Machine.execPowerUp
  split
  · exact keepsStorage_blank hP (State.storage_bringUp ..)
  · exact h.stay

theorem Storage.Keeps.execResetInput (h : v.Keeps P s.storage) (b : BringUp) : KeepsStorage P v (execResetInput b s) := by
  unfold Sys2Proof.Machine.execResetInput
  split
  · exact h.stay
  · exact keepsStorage_blank hP (State.storage_bringUp ..)

theorem keepsStorage_execPowerRemoval : KeepsStorage P v (execPowerRemoval s) :=
  keepsStorage_blank (s := s) hP (by simp only [State.storage_mk, Storage.of_fields])

end

/-! ## The boundary -/

section
variable {P : Nat → Rights} {v : Storage} {s : State} (h : v.Keeps P s.storage)
include h

theorem Storage.Keeps.fetchWord {t : State} {va : Word} {w : Word32} (hw : s.fetchWord va = .word t w) : v.Keeps P t.storage := by
  unfold State.fetchWord at hw
  dsimp only at hw
  (repeat' split at hw) <;> cases hw <;> simp [h]

/-- An instruction fetched keeps storage. -/
def Fetched.KeepsStorage (P : Nat → Rights) (v : Storage) : Fetched → Prop
  | .instr t _ => v.Keeps P t.storage
  | .illegal t => v.Keeps P t.storage
  | _ => True

theorem Storage.Keeps.ofDecode (d : Except Reject Instr) : (Fetched.ofDecode s d).KeepsStorage P v := by
  cases d <;> exact h

theorem Storage.Keeps.fetch : s.fetch.KeepsStorage P v := by
  unfold State.fetch
  split
  · trivial
  · trivial
  · next h0 =>
    have h0 := h.fetchWord h0
    split
    · split
      · trivial
      · trivial
      · next h1 => exact (h0.fetchWord h1).ofDecode _
    · exact h0.ofDecode _

theorem Storage.Keeps.boundary : v.Keeps P s.boundary.state.storage := by
  have hf := h.fetch
  unfold State.boundary
  split
  · split
    · exact h
    · split
      · exact h
      · split
        · split <;> simp [Boundary.state, h]
        · split
          · split
            · split <;> exact h
            · exact h
          · split
            · exact h
            · next e => rw [e] at hf; exact hf
            · dsimp only [Boundary.state]
              split <;> simp [h]
            · next e =>
              rw [e] at hf
              replace hf : v.Keeps P _ := hf
              split <;> simpa [Boundary.state] using hf
  · exact h

theorem Storage.Keeps.execInstructionFetchFault : KeepsStorage P v (execInstructionFetchFault s) := by
  unfold Sys2Proof.Machine.execInstructionFetchFault
  split <;> simp [h]

end

/-! ## Every instruction and event -/

theorem Storage.Keeps.exec {v : Storage} {s : State} (i : Instr) (h : v.Keeps (Rights.ofInstr i) s.storage) : KeepsStorage (Rights.ofInstr i) v (exec i s) := by
  unfold Sys2Proof.Machine.exec
  cases i with
  | add | sub | and | or | xor | sll | srl | sra | slt | sltN | min | max | minN | maxN | ror | addW | subW | mul | mulh | mulhN
  | div | divN | rem | remN => exact h.intOp ..
  | clz | ctz | popc | lui | lpc | fmvX | tstamp | eld | semrd | fclassF64 | fclassF32 => exact h.retX ..
  | addi | andi | ori | xori | slti | sltiN | slli | srli | srai | rori => exact h.immOp ..
  | faddF64 | fsubF64 | fmulF64 | faddF32 | fsubF32 | fmulF32 => exact h.fpArith ..
  | fdivF64 | fsqrtF64 | fmaF64 | fdivF32 | fsqrtF32 | fmaF32 | cvtF64I64 | cvtF64N64 | cvtF32I64 | cvtF32N64 | cvtF64F32
  | cvtF32F64 => exact h.fpResult ..
  | fminF64 | fmaxF64 | fminF32 | fmaxF32 => exact h.fpMinMax ..
  | fabsF64 | fnegF64 | fabsF32 | fnegF32 | fmvF => exact h.retF ..
  | feqF64 | feqF32 => exact h.fpEq ..
  | fltF64 | fleF64 | fltF32 | fleF32 => exact h.fpCmp ..
  | cvtI64F64 | cvtN64F64 | cvtI64F32 | cvtN64F32 => exact h.toInt ..
  | ldB | ldH | ldW | ldD | ldBn | ldHn | ldWn | ldFw | ldFd | ldA16 => exact h.load ..
  | ldV16 | stV16 => exact h.dataUnits ..
  | stB | stH | stW | stD | stFw | stFd | stA16 => exact h.store ..
  | amoW | amoD => exact h.amo ..
  | casW | casD => exact h.compareSwap ..
  | beq | bne | blt | bge | bltN | bgeN => exact h.branch ..
  | qscalePow2 | qscaleExact => exact h.qscale ..
  | trap => exact h.trapWith ..
  | illegalInstruction => exact h.trap ..
  | instructionFetchFault => exact h.execInstructionFetchFault
  | sld | sst | sgth | ssct | sred | scpy | sbank | salloc | sfree | seat | unseat | krun | jigGo | jigRev | finSet | coll | collAbt
  | sillLoad | sillGo => exact h.journalCmd ..
  | trapDelivery | deferredDataTrap => exact h.takePending ..
  | killBent => exact h.request fun _ _ => h.killBentMsg (fun _ => rfl) ..
  | createBent => exact h.request fun _ _ => h.createBentMsg ..
  | enqueuePeg => exact h.request fun _ _ => h.enqueuePegMsg ..
  | loadImage => exact h.request fun _ _ => h.loadImageMsg ..
  | keyInstall => exact h.request fun _ _ => h.keyInstallMsg ..
  | attestation => exact h.request fun _ _ => h.attestationMsg ..
  | telemetry => exact h.request fun _ _ => h.telemetryMsg ..
  | dumpRetrieval => exact h.request fun _ _ => h.dumpMsg ..
  | jal => exact h.execJal ..
  | j => exact h.execJ ..
  | jalr => exact h.execJalr ..
  | fence => exact h.execFence ..
  | gets => exact h.execGets ..
  | puts => exact h.execPuts ..
  | mwait => exact h.execMwait ..
  | phreg => exact h.execPhreg ..
  | phdrop => exact h.execPhdrop ..
  | phsig => exact h.execPhsig ..
  | phwait => exact h.execPhwait ..
  | semsig => exact h.execSemsig ..
  | semwait => exact h.execSemwait ..
  | semwaitS => exact h.execSemwaitS ..
  | spawn => exact h.execSpawn ..
  | join => exact h.execJoin
  | yield => exact h.execYield
  | exit => exact h.execExit fun _ => rfl
  | bentNew => exact h.execBentNew ..
  | bentKill => exact h.execBentKill (fun _ => rfl) ..
  | enq => exact h.execEnq ..
  | scrbInit => exact h.execScrbInit ..
  | scrbNext => exact h.execScrbNext ..
  | scrbRd => exact h.execScrbRd ..
  | est => exact h.execEst ..
  | tret => exact h.execTret
  | ecall => exact h.execEcall ..
  | tlbi => exact h.execTlbi ..
  | tlbiAll => exact h.execTlbiAll
  | klock => exact h.execKlock ..
  | kunlock => exact h.execKunlock ..
  | iflush => exact h.execIflush
  | jdrop => exact h.execJdrop ..
  | descLd => exact h.execDescLd ..
  | jrnlRd => exact h.execJrnlRd ..
  | bundleIssue => exact h.execBundleIssue (congrArg Rights.srf (Rights.ofInstr_writer rfl)) (congrArg Rights.acc (Rights.ofInstr_writer rfl)) ..
  | stallStep => exact h.execStallStep ..
  | imemLineFill => exact h.execImemLineFill ..
  | contextLaunch => exact h.execContextLaunch ..
  | contextHalt => exact h.execContextHalt (congrArg Rights.srf (Rights.ofInstr_writer rfl)) ..
  | srfxFlagSet => exact h.execSrfxFlagSet (congrArg Rights.srf (Rights.ofInstr_writer rfl)) ..
  | semarmFlagSet => exact h.execSemarmFlagSet ..
  | pharmFlagSet => exact h.execPharmFlagSet ..
  | commandStart => exact h.execCommandStart ..
  | commandElement => exact h.execCommandElement (Rights.ofInstr_writer rfl) ..
  | commandComplete => exact h.execCommandComplete ..
  | jigRunStart => exact h.execJigRunStart ..
  | jigStep => exact h.execJigStep (congrArg Rights.srf (Rights.ofInstr_writer rfl)) (congrArg Rights.acc (Rights.ofInstr_writer rfl)) ..
  | scribeMerge => exact h.execScribeMerge ..
  | pegDispatch => exact h.execPegDispatch (Rights.ofInstr_writer rfl) ..
  | waitingPegReady => exact h.execWaitingPegReady ..
  | mwaitSpinExpiry => exact h.execMwaitSpinExpiry ..
  | mwaitTimeout => exact h.execMwaitTimeout ..
  | monitorLoss => exact h.execMonitorLoss ..
  | priorityAgeing => exact h.execPriorityAgeing ..
  | preemptionRequest => exact h.execPreemptionRequest ..
  | contextRestFreeze => exact h.execContextRestFreeze ..
  | preemptionEscalated => exact h.execPreemptionEscalated ..
  | preemptionComplete => exact h.execPreemptionComplete ..
  | pegMigration => exact h.execPegMigration (fun _ => rfl) ..
  | kill => exact h.execKill (fun _ => rfl) ..
  | watchdog => exact h.execWatchdog ..
  | accFirstUse => exact h.execAccFirstUse (congrArg Rights.acc (Rights.ofInstr_writer rfl)) ..
  | bentRecordWriteback => exact h.execBentRecordWriteback (fun _ => rfl) ..
  | pageWalk => exact h.execPageWalk ..
  | homeAccess => exact h.execHomeAccess ..
  | mergeAtHome => exact h.execMergeAtHome ..
  | scrub => exact h.execScrub ..
  | sillRunStart => exact h.execSillRunStart ..
  | sillWait => exact h.execSillWait ..
  | sillMv => exact h.execSillMv ..
  | sillRd => exact h.execSillRd ..
  | sillWr => exact h.execSillWr ..
  | sillRef => exact h.execSillRef ..
  | sillGate => exact h.execSillGate ..
  | sillLds => exact h.execSillLds ..
  | sillPassEnd => exact h.execSillPassEnd ..
  | sillGateReread => exact h.execSillGateReread ..
  | sillGateTimeout => exact h.execSillGateTimeout ..
  | sillRefreshInsert => exact h.execSillRefreshInsert ..
  | fabricPacket => exact h.execFabricPacket ..
  | fabricTimeout => exact h.execFabricTimeout ..
  | fabricErrorAnswer => exact h.execFabricErrorAnswer ..
  | linkBringUp => exact h.execLinkBringUp ..
  | linkKeyRenewal => exact h.execLinkKeyRenewal ..
  | collTimeout => exact h.execCollTimeout ..
  | collAbtMemberTimeout => exact h.execCollAbtMemberTimeout ..
  | rdmaWrite => exact h.execRdmaWrite ..
  | rdmaRead => exact h.execRdmaRead ..
  | roceInvalidRequest => exact h.execRoceInvalidRequest ..
  | arpRequest => exact h.execArpRequest ..
  | neighborDiscovery => exact h.execNeighborDiscovery ..
  | frameDrop => exact h.execFrameDrop ..
  | ptpMessage => exact h.execPtpMessage ..
  | init => exact h.execInit ..
  | powerSample => exact h.execPowerSample ..
  | thermalHold => exact h.execThermalHold ..
  | thermalRelease => exact h.execThermalRelease ..
  | thermalTrip => exact h.execThermalTrip ..
  | inputPowerFault => exact h.execInputPowerFault
  | lineEviction => exact h.execLineEviction ..
  | configurationRecordUpdate => exact h.execConfigurationRecordUpdate ..
  | firmwareStateError => exact h.execFirmwareStateError
  | powerUp => exact Storage.Keeps.execPowerUp (fun _ => rfl) h ..
  | resetInput => exact Storage.Keeps.execResetInput (fun _ => rfl) h ..
  | powerRemoval => exact keepsStorage_execPowerRemoval fun _ => rfl
  | collStepMessage => exact (keepsStorage_next _).mpr (by simpa using h)
  | collAbtMessage => exact (keepsStorage_next _).mpr (by simpa using h)
  | datagramDrop => exact h.stay

/-- Settles O14: memory is canonical before a boundary, after it, and after what runs there. -/
theorem stepKeepsMemoryCanonical : Obligations.StepKeepsMemoryCanonical := by
  intro s t hs ht
  have hb : (s.beginTurn s.turn).boundary.state.storage.mem.wf = true :=
    (Storage.Keeps.boundary (P := fun _ => .all) (v := s.storage) (by simp)).mem hs
  have run {u : State} (hu : u.storage.mem.wf = true) (i : Instr) (e : exec i u = .next t) : t.mem.wf = true := by
    have h := Storage.Keeps.exec i (.refl _ u.storage)
    rw [e] at h
    exact h.mem hu
  unfold Sys2Proof.Machine.step at ht
  dsimp only at ht
  split at ht
  · split at ht
    · next e => cases ht; rw [e] at hb; exact hb
    · next e => rw [e] at hb; exact run hb _ ht
  · have hm : (s.beginTurn s.turn).storage.mem.wf = true := by
      rw [State.storage_beginTurn]
      exact hs
    split at ht
    · exact run hm _ ht
    · cases ht; exact hm

/-- Settles O45: what every instruction and event keeps, read off its rights. -/
theorem typedBuffersAreKept : Obligations.TypedBuffersAreKept := by
  intro s t i ht c
  have h := Storage.Keeps.exec i (.refl _ s.storage)
  rw [ht] at h
  have hk : (s.core c).typed.Keeps (Rights.ofInstr i c) (t.core c).typed := by
    rw [State.core_typed, State.core_typed]
    exact h.core c
  have less (f : Rights → Bool) (hn : f .none = false) (ho : f (Rights.own i) = false) : f (Rights.ofInstr i c) = false := by
    rcases Rights.ofInstr_cases i c with e | e <;> rw [e] <;> assumption
  refine ⟨fun hw => ?_, fun hw ha => ⟨fun hc => ?_, ?_⟩, fun w hi hc => ?_⟩
  · obtain ⟨hwb, hrows, hfmt⟩ := hk.rest (less Rights.rest rfl hw)
    exact ⟨hwb, hrows, hfmt, fun hs => hk.srf (less Rights.srf rfl (by simp [Rights.own, hw, hs]))⟩
  · exact hk.acc (less Rights.acc rfl (by simp [Rights.own, hw, ha])) (less Rights.clear rfl (by simp [Rights.own, hw, ha, hc]))
  · exact (hk.cleared (less Rights.acc rfl (by simp [Rights.own, hw, ha]))).1
  · rw [Rights.ofInstr_other hi hc] at hk
    obtain ⟨hwb, hrows, hfmt⟩ := hk.rest rfl
    exact ⟨hk.srf rfl, hwb, hrows, hfmt, hk.acc rfl rfl⟩

end Sys2Proof.Machine
end

section
/-! O31. Locks of kernel lines (R175, R385, R386). -/

namespace Sys2Proof.Machine
open Sys2Proof Sys2Proof.Claims

/-! ## Frames and their locks -/

/-- A frame of another line or bent. -/
theorem Frame.elsewhere_iff (g : Frame) (b l : Nat) : (!(decide (g.bent = b) && decide (g.line = l))) = true ↔ ¬ (g.bent = b ∧ g.line = l) := by
  simp only [Bool.not_eq_true', Bool.and_eq_false_iff, decide_eq_false_iff_not]
  exact not_and_or.symm

section
variable {k : Core} {b l : Nat}

theorem Core.holdsLock_iff : k.holdsLock b l = true ↔ ∃ f ∈ k.frames, f.locked = true ∧ f.bent = b ∧ f.line = l := by
  simp [Core.holdsLock, and_assoc]

/-- Released, a lock is gone; every other stays. -/
theorem Core.holdsLock_unlock {c m : Nat} : (k.unlock b l).holdsLock c m = true ↔ k.holdsLock c m = true ∧ ¬ (c = b ∧ m = l) := by
  simp only [Core.holdsLock_iff, Core.unlock, List.mem_map]
  constructor
  · rintro ⟨_, ⟨f, hf, rfl⟩, hl, hb, hm⟩
    split at hl
    · cases hl
    · next hn =>
      rw [if_neg hn] at hb hm
      exact ⟨⟨f, hf, hl, hb, hm⟩, fun e => hn (by simp [hb, hm, e])⟩
  · rintro ⟨⟨f, hf, hl, hb, hm⟩, hn⟩
    exact ⟨f, ⟨f, hf, if_neg (by simpa [hb, hm] using hn)⟩, hl, hb, hm⟩

/-- The release of a lock that a frame holds leaves fewer. -/
theorem Core.lockCount_unlock_lt {f : Frame} (hf : f ∈ k.frames) (hl : f.locked = true) : (k.unlock f.bent f.line).lockCount < k.lockCount := by
  have e : ((k.unlock f.bent f.line).frames.filter fun g => g.locked).length =
      ((k.frames.filter fun g => g.locked).filter fun g => !(decide (g.bent = f.bent) && decide (g.line = f.line))).length := by
    rw [Core.unlock, List.filter_map, List.length_map, List.filter_filter]
    refine congrArg List.length (List.filter_congr fun g _ => ?_)
    by_cases h : g.bent = f.bent ∧ g.line = f.line
    · simp [h]
    · rw [Function.comp_apply, if_neg (by simpa using h), (g.elsewhere_iff ..).mpr h, Bool.true_and]
  unfold Core.lockCount
  rw [e]
  exact List.length_filter_lt_length_iff_exists.mpr ⟨f, List.mem_filter.mpr ⟨hf, hl⟩, by simp⟩

/-- The frames that stay where a line takes a frame. -/
theorem Core.frames_frameFor (k : Core) (b l : Nat) (locked : Bool) (stamp : Nat) (key : BitVec 512) :
    ∃ rest, (k.frameFor b l locked stamp key).frames = rest ++ [{ bent := b, line := l, locked := locked, stamp := stamp, key := key }] ∧
      rest.Sublist k.frames ∧ (∀ g ∈ rest, ¬ (g.bent = b ∧ g.line = l)) ∧
      ((k.frames.map fun f => (f.bent, f.line)).Nodup → ∀ g ∈ k.frames, g.locked = true → ¬ (g.bent = b ∧ g.line = l) → g ∈ rest) := by
  have own {g : Frame} {fs : List Frame} (h : g ∈ fs.filter fun g => !(decide (g.bent = b) && decide (g.line = l))) : ¬ (g.bent = b ∧ g.line = l) := by
    exact (g.elsewhere_iff b l).mp (List.mem_filter.mp h).2
  have keep {g : Frame} (hg : g ∈ k.frames) (hn : ¬ (g.bent = b ∧ g.line = l)) :
      g ∈ k.frames.filter fun g => !(decide (g.bent = b) && decide (g.line = l)) := List.mem_filter.mpr ⟨hg, (g.elsewhere_iff b l).mpr hn⟩
  refine ⟨_, rfl, ?_⟩
  split
  · exact ⟨List.filter_sublist, fun g hg => own hg, fun _ g hg _ hn => keep hg hn⟩
  · split
    · next v hv =>
      refine ⟨List.filter_sublist.trans List.filter_sublist, fun g hg => own (List.mem_filter.mp hg).1, fun hk g hg hl hn =>
        List.mem_filter.mpr ⟨keep hg hn, (g.elsewhere_iff ..).mpr ?_⟩⟩
      have hvk : v ∈ k.frames := (List.mem_filter.mp (List.mem_of_find?_eq_some hv)).1
      have hvl : v.locked = false := by simpa using List.find?_some hv
      rintro ⟨hb, hm⟩
      have : g = v := List.inj_on_of_nodup_map hk hg hvk (by simp [hb, hm])
      rw [this, hvl] at hl
      cases hl
    · exact ⟨List.filter_sublist, fun g hg => own hg, fun _ g hg _ hn => keep hg hn⟩

/-- A line that takes a frame with a lock holds it, beside one lock more at most. -/
theorem Core.frameFor_locked (k : Core) (b l stamp : Nat) (key : BitVec 512) :
    (k.frameFor b l true stamp key).holdsLock b l = true ∧ (k.frameFor b l true stamp key).lockCount ≤ k.lockCount + 1 := by
  obtain ⟨rest, e, hs, -, -⟩ := k.frames_frameFor b l true stamp key
  refine ⟨Core.holdsLock_iff.mpr ⟨_, e ▸ List.mem_append_right _ (List.mem_singleton_self _), rfl, rfl, rfl⟩, ?_⟩
  unfold Core.lockCount
  rw [e, List.filter_append, List.length_append]
  exact Nat.add_le_add (hs.filter _).length_le (by simp)

/-- With one frame a line, every lock that was held stays, and there is one frame a line still. -/
theorem Core.frameFor_keeps {stamp : Nat} {key : BitVec 512} (hk : (k.frames.map fun f => (f.bent, f.line)).Nodup) :
    ((k.frameFor b l true stamp key).frames.map fun f => (f.bent, f.line)).Nodup ∧
      ∀ c m, k.holdsLock c m = true → (k.frameFor b l true stamp key).holdsLock c m = true := by
  obtain ⟨rest, e, hs, hn, hr⟩ := k.frames_frameFor b l true stamp key
  constructor
  · rw [e, List.map_append, List.nodup_append]
    refine ⟨hk.sublist (hs.map _), by simp, ?_⟩
    simp only [List.mem_map, List.map_cons, List.map_nil, List.mem_singleton]
    rintro _ ⟨g, hg, rfl⟩ _ rfl eq
    exact hn g hg (Prod.mk.inj eq)
  · intro c m h
    obtain ⟨f, hf, hl, hb, hm⟩ := Core.holdsLock_iff.mp h
    by_cases hc : f.bent = b ∧ f.line = l
    · rw [← hb, ← hm, hc.1, hc.2]
      exact (k.frameFor_locked b l stamp key).1
    · exact Core.holdsLock_iff.mpr ⟨f, by rw [e]; exact List.mem_append_left _ (hr hk f hf hl hc), hl, hb, hm⟩

end

/-! ## Lines that are locked, one after another -/

/-- The state with a line of a bent locked in the acting core. -/
def State.lockIn (s : State) (b l : Nat) : State := { s with stamp := s.stamp + 1 }.setMe (s.me.frameFor b l true s.stamp (s.lineKey b))

/-- The state with a frame's lock released for another bent's (R386). -/
def State.releaseLock (s : State) (v : Frame) : State :=
  (s.setMe (s.me.unlock v.bent v.line)).modBent v.bent (fun r => { r with lockLost := true })

theorem klockLoop_cons (b l : Nat) (t : List Nat) (s : State) (n e sh : Nat) : klockLoop b (l :: t) (s, n, e, sh) =
    if s.me.holdsLock b l then klockLoop b t (s, n, e, sh)
    else if s.me.lockCount < 96 then klockLoop b t (s.lockIn b l, n + 1, e, sh)
    else match s.lockVictim b with
      | none => klockLoop b t (s, n, e, sh + 1)
      | some v => klockLoop b t ((s.releaseLock v).lockIn b l, n + 1, e + 1, sh) := rfl

/-- What each line's lock keeps, with room or in place of another lock, a KLOCK's loop keeps. -/
theorem klockLoop_keeps {p : State → Prop} {b : Nat} (room : ∀ s l, p s → s.me.lockCount < 96 → p (s.lockIn b l))
    (evict : ∀ s l v, p s → s.lockVictim b = some v → p ((s.releaseLock v).lockIn b l)) (ls : List Nat) (a : State × Nat × Nat × Nat)
    (h : p a.1) : p (klockLoop b ls a).1 := by
  induction ls generalizing a with
  | nil => exact h
  | cons l t ih =>
    obtain ⟨s, n, e, sh⟩ := a
    rw [klockLoop_cons]
    split
    · exact ih _ h
    · split
      · next hr => exact ih _ (room s l h hr)
      · split
        · exact ih _ h
        · next hv => exact ih _ (evict s l _ h hv)

/-- Two states that agree in memory, in every other core and, but for its frames, in the acting one. -/
structure OnlyFrames (s t : State) : Prop where
  cur : t.cur = s.cur
  mem : t.mem = s.mem
  others : ∀ c, c ≠ s.cur → t.core c = s.core c
  me : t.me = { s.me with frames := t.me.frames }

theorem OnlyFrames.refl (s : State) : OnlyFrames s s := ⟨rfl, rfl, fun _ _ => rfl, rfl⟩

theorem OnlyFrames.lockIn {s t : State} (h : OnlyFrames s t) (b l : Nat) : OnlyFrames s (t.lockIn b l) := by
  refine ⟨h.cur, h.mem, fun c hc => ?_, ?_⟩
  · rw [State.lockIn, State.core_setMe_other _ _ _ (by rw [← h.cur] at hc; exact hc)]
    exact h.others c hc
  · rw [State.lockIn, State.me_setMe, Core.frameFor, h.me]

theorem OnlyFrames.releaseLock {s t : State} (h : OnlyFrames s t) (v : Frame) : OnlyFrames s (t.releaseLock v) := by
  refine ⟨h.cur, h.mem, fun c hc => ?_, ?_⟩
  · rw [State.releaseLock, State.core_modBent, State.core_setMe_other _ _ _ (by rw [← h.cur] at hc; exact hc)]
    exact h.others c hc
  · rw [State.releaseLock, State.me_modBent, State.me_setMe, Core.unlock, h.me]

theorem klockLoop_onlyFrames (b : Nat) (ls : List Nat) (s : State) (n e sh : Nat) : OnlyFrames s (klockLoop b ls (s, n, e, sh)).1 :=
  klockLoop_keeps (fun _ l h _ => h.lockIn b l) (fun _ l v h _ => (h.releaseLock v).lockIn b l) ls _ (.refl s)

theorem me_lockIn (s : State) (b l : Nat) : (s.lockIn b l).me = s.me.frameFor b l true s.stamp (s.lineKey b) := State.me_setMe ..

theorem me_releaseLock (s : State) (v : Frame) : (s.releaseLock v).me = s.me.unlock v.bent v.line := State.me_setMe ..

/-- The lock that makes room is one of the core's. -/
theorem lockVictim_mem {s : State} {b : Nat} {v : Frame} (h : s.lockVictim b = some v) : v ∈ s.me.frames ∧ v.locked = true := by
  unfold State.lockVictim at h
  obtain ⟨hm, -⟩ := best_spec (fun a b => by simp; omega) (fun a b c => by simp; omega) h
  obtain ⟨hv, hl⟩ := List.mem_filter.mp hm
  simp only [Bool.and_eq_true] at hl
  exact ⟨hv, hl.1.1⟩

/-- A core never comes to hold more than 96 locks (R385). -/
theorem klockLoop_lockCount_le {s : State} (h : s.me.lockCount ≤ 96) (b : Nat) (ls : List Nat) (n e sh : Nat) :
    (klockLoop b ls (s, n, e, sh)).1.me.lockCount ≤ 96 := by
  refine klockLoop_keeps (p := fun s => s.me.lockCount ≤ 96) (fun s l _ hr => ?_) (fun s l v h hv => ?_) ls _ h
  · rw [me_lockIn]
    exact (Core.frameFor_locked ..).2.trans hr
  · obtain ⟨hm, hl⟩ := lockVictim_mem hv
    have hlt := Core.lockCount_unlock_lt hm hl
    rw [me_lockIn, me_releaseLock]
    exact (Core.frameFor_locked ..).2.trans (by omega)

/-- With room for every line, and one frame a line, all are locked, and no lock is lost. -/
theorem klockLoop_all {s : State} (b : Nat) (ls : List Nat) (n e sh : Nat) (hk : (s.me.frames.map fun f => (f.bent, f.line)).Nodup)
    (hr : s.me.lockCount + ls.length ≤ 96) :
    (∀ l ∈ ls, (klockLoop b ls (s, n, e, sh)).1.me.holdsLock b l = true) ∧
      ∀ c m, s.me.holdsLock c m = true → (klockLoop b ls (s, n, e, sh)).1.me.holdsLock c m = true := by
  induction ls generalizing s n with
  | nil => exact ⟨fun _ h => (by cases h), fun _ _ h => h⟩
  | cons l t ih =>
    simp only [List.length_cons] at hr
    rw [klockLoop_cons]
    split
    · next hl =>
      obtain ⟨ha, hh⟩ := ih n hk (by omega)
      exact ⟨List.forall_mem_cons.mpr ⟨hh _ _ hl, ha⟩, hh⟩
    · rw [if_pos (by omega)]
      obtain ⟨hself, hcount⟩ := s.me.frameFor_locked b l s.stamp (s.lineKey b)
      obtain ⟨hnodup, hkept⟩ := Core.frameFor_keeps (b := b) (l := l) (stamp := s.stamp) (key := s.lineKey b) hk
      rw [← me_lockIn] at hself hcount hnodup
      simp only [← me_lockIn] at hkept
      obtain ⟨ha, hh⟩ := ih (n + 1) hnodup (by omega)
      exact ⟨List.forall_mem_cons.mpr ⟨hh _ _ hself, ha⟩, fun c m hc => hh c m (hkept c m hc)⟩

/-! ## KLOCK and KUNLOCK -/

/-- The lines that a value names (R175). -/
theorem mem_klockLines (v : Word) (l : Nat) : l ∈ klockLines v ↔ lineNamed v l := by
  unfold klockLines lineNamed
  dsimp only
  rw [mem_rangeFrom, BitVec.extractLsb'_toNat, BitVec.extractLsb'_toNat]
  simp only [Nat.shiftRight_eq_div_pow, Nat.reducePow]
  split <;> omega

/-- The locks of a bent on some lines are released. -/
theorem holdsLock_unlocks (b : Nat) (ls : List Nat) (k : Core) (c m : Nat) :
    (ls.foldl (fun k l => k.unlock b l) k).holdsLock c m = true ↔ k.holdsLock c m = true ∧ ¬ (c = b ∧ m ∈ ls) := by
  induction ls generalizing k with
  | nil => simp
  | cons l t ih =>
    rw [List.foldl_cons, ih, Core.holdsLock_unlock]
    simp only [List.mem_cons]
    tauto

theorem unlocks_frames (b : Nat) (ls : List Nat) (k : Core) :
    ls.foldl (fun k l => k.unlock b l) k = { k with frames := (ls.foldl (fun k l => k.unlock b l) k).frames } := by
  induction ls generalizing k with
  | nil => rfl
  | cons l t ih =>
    rw [List.foldl_cons, ih]
    rfl

/-- KLOCK's state once its loop has run: its answer is in KLOCK.STAT and the register, and the frames are the loop's. -/
theorem execKlock_eq (s : State) (d a : RegNo) : ∃ w : State,
    execKlock d a s = .next (wroteX w d (BitVec.ofNat 64 (((klockLines (s.getX a)).filter (fun l => w.me.holdsLock s.myBent l)).length))) ∧
      w.cur = s.cur ∧ w.mem = s.mem ∧ (∀ c, c ≠ s.cur → w.core c = s.core c) ∧
      w.me = { s.me with
        regs := { s.me.regs with klockStat := w.me.regs.klockStat }
        frames := (klockLoop s.myBent (klockLines (s.getX a)) (s, 0, 0, 0)).1.me.frames } := by
  have hf := klockLoop_onlyFrames s.myBent (klockLines (s.getX a)) s 0 0 0
  unfold execKlock
  dsimp only
  generalize klockLoop s.myBent (klockLines (s.getX a)) (s, 0, 0, 0) = r at hf ⊢
  obtain ⟨u, n, e, sh⟩ := r
  obtain ⟨hcur, hmem, hothers, hme⟩ := hf
  rw [retX_eq_wroteX]
  refine ⟨_, rfl, ?_, ?_, fun c hc => ?_, ?_⟩
  · exact hcur
  · exact hmem
  · rw [State.core_setMe_other _ _ _ (by rw [← hcur] at hc; exact hc)]
    exact hothers c hc
  · rw [State.me_setMe, State.me_modBent, hme]

theorem kernelLineLocks : KernelLineLocks := by
  refine ⟨fun s d a => ?_, fun s a => ⟨_, rfl, fun b l => ?_, ?_⟩⟩
  · obtain ⟨w, he, hcur, hmem, hothers, hme⟩ := execKlock_eq s d a
    have hc := fun h => klockLoop_lockCount_le (s := s) h s.myBent (klockLines (s.getX a)) 0 0 0
    have ha := klockLoop_all (s := s) s.myBent (klockLines (s.getX a)) 0 0 0
    generalize klockLoop s.myBent (klockLines (s.getX a)) (s, 0, 0, 0) = r at hme hc ha
    have hx (q : RegNo) : w.getX q = s.getX q := by
      rw [State.getX, State.getX, hme]
      rfl
    refine ⟨_, he, ?_⟩
    rw [me_wroteX, hme]
    refine ⟨rfl, hmem, fun c hc => ?_, fun q hq => ?_, rfl, rfl, rfl, fun hd => ?_, hc, fun hk hr l hl => (ha hk hr).1 l ((mem_klockLines _ _).mpr hl)⟩
    · rw [← hothers c hc, ← hcur] at *
      exact State.core_setMe_other _ _ _ hc
    · rw [getX_wroteX, if_neg fun h => hq h.1, hx]
    · rw [getX_wroteX, if_pos ⟨rfl, hd⟩, hme]
      rfl
  · have h := holdsLock_unlocks s.myBent (klockLines (s.getX a)) s.me b l
    rw [mem_klockLines] at h
    rw [← h]
    simp only [State.skip, State.setPc, State.me_setMe]
    rfl
  · rw [State.skip, State.setPc, State.me_setMe, State.me_setMe, State.setMe_setMe, State.pc, State.me_setMe]
    generalize hk : (klockLines (s.getX a)).foldl (fun k l => k.unlock s.myBent l) s.me = k
    have hk : k = { s.me with frames := k.frames } := by
      rw [← hk]
      exact unlocks_frames ..
    rw [hk]
    rfl

end Sys2Proof.Machine
end

section
/-! O31. Translations that TLBI and TLBI.ALL remove (R99, R105, R174). -/

namespace Sys2Proof.Machine
open Sys2Proof Sys2Proof.Claims

/-! ## States that agree but for caches -/

/-- Two states that agree but for their bays and the data caches of their cores. -/
structure CachesOnly (s t : State) : Prop where
  rest : t = { s with bays := t.bays, cores := t.cores }
  cores : ∃ g : Nat × Core → AMap CacheLine, t.cores = s.cores.map fun e => (e.1, { e.2 with dcache := g e })

theorem CachesOnly.refl (s : State) : CachesOnly s s :=
  ⟨rfl, fun e => e.2.dcache, (List.map_id _).symm⟩

theorem CachesOnly.trans {s t u : State} (h : CachesOnly s t) (h' : CachesOnly t u) : CachesOnly s u := by
  obtain ⟨ht, g, hg⟩ := h
  obtain ⟨hu, g', hg'⟩ := h'
  refine ⟨?_, fun e => g' (e.1, { e.2 with dcache := g e }), ?_⟩
  · rw [hu, ht]
  · rw [hg', hg, List.map_map]
    rfl

theorem CachesOnly.setBay {s t : State} (h : CachesOnly s t) (b : Nat) (y : Bay) : CachesOnly s (t.setBay b y) := by
  obtain ⟨ht, hg⟩ := h
  refine ⟨?_, hg⟩
  rw [State.setBay, ht]

theorem CachesOnly.mapDcache {s t : State} (h : CachesOnly s t) (q : Nat × Core → Prop) [DecidablePred q] (g : Nat × Core → AMap CacheLine) :
    CachesOnly s { t with cores := t.cores.map fun e => if q e then (e.1, { e.2 with dcache := g e }) else e } := by
  refine h.trans ⟨rfl, fun e => if q e then g e else e.2.dcache, List.map_congr_left fun e _ => ?_⟩
  by_cases hq : q e <;> simp only [hq, if_true, if_false]

/-- A core whose data cache alone differs. -/
theorem CachesOnly.me {s t : State} (h : CachesOnly s t) : ∃ c, t.me = { s.me with dcache := c } := by
  obtain ⟨ht, g, hg⟩ := h
  have hcur : t.cur = s.cur := by rw [ht]
  rw [State.me, State.me, State.core, State.core, hcur, hg]
  rcases AMap.get_mapCores (cores := s.cores) (g := fun e => (e.1, { e.2 with dcache := g e })) (fun _ => rfl) s.cur with e | ⟨k, hk, e⟩
  · exact ⟨_, e.trans rfl⟩
  · exact ⟨_, by rw [e, hk]⟩

theorem CachesOnly.translationBusy {s t : State} (h : CachesOnly s t) (root : Nat) (va : Option Nat) :
    t.translationBusy root va = s.translationBusy root va := by
  obtain ⟨ht, g, hg⟩ := h
  have hc : t.translationBusy root va = State.translationBusy { s with cores := t.cores } root va := by rw [ht]; rfl
  rw [hc]
  simp only [State.translationBusy, hg, List.any_map]
  rfl

/-! ## Steps that each change one bay -/

/-- A run over bays, each step of which relates the bay it names and leaves the others. -/
theorem bay_foldl {R : Bay → Bay → Prop} (htrans : ∀ x y z, R x y → R y z → R x z) {f : State → Nat × Bay → State}
    (hf : ∀ s e, R (s.bay e.1) ((f s e).bay e.1) ∧ ∀ b, b ≠ e.1 → (f s e).bay b = s.bay b) (l : List (Nat × Bay)) (s : State) (b : Nat) :
    R (s.bay b) ((l.foldl f s).bay b) ∨ ((l.foldl f s).bay b = s.bay b ∧ ∀ e ∈ l, e.1 ≠ b) := by
  induction l generalizing s with
  | nil => exact .inr ⟨rfl, fun _ h => (by cases h)⟩
  | cons e t ih =>
    obtain ⟨hown, hother⟩ := hf s e
    rw [List.foldl_cons]
    by_cases hb : b = e.1
    · subst hb
      rcases ih (f s e) with h | ⟨h, -⟩
      · exact .inl (htrans _ _ _ hown h)
      · exact .inl (h.symm ▸ hown)
    · rcases ih (f s e) with h | ⟨h, hn⟩
      · exact .inl (hother b hb ▸ h)
      · refine .inr ⟨h.trans (hother b hb), List.forall_mem_cons.mpr ⟨fun h => hb h.symm, hn⟩⟩

/-! ## What an invalidation leaves of a bay -/

/-- Whether a TLBI of one address, or of all, takes a translation out (R174). -/
def TlbEntry.goneBy (root : Nat) (va : Option Nat) (e : TlbEntry) : Bool :=
  match va with
  | some a => e.covers root a
  | none => decide (e.root = root)

/-- A bay after an invalidation: its TLB without the translations that go; where all go, no walk of the tree and no line of a window page. -/
structure Bay.Purged (root : Nat) (va : Option Nat) (x y : Bay) : Prop where
  tlb : y.tlb = x.tlb.filter fun e => !e.goneBy root va
  walks : va = none → ∀ w ∈ y.walks, w.root ≠ root
  l2 : va = none → ∀ e ∈ y.l2, e.2.data = []

theorem Bay.Purged.trans {root : Nat} {va : Option Nat} (x y z : Bay) (h : Bay.Purged root va x y) (h' : Bay.Purged root va y z) :
    Bay.Purged root va x z :=
  ⟨by rw [h'.tlb, h.tlb, List.filter_filter]; simp, h'.walks, h'.l2⟩

theorem Bay.purged_reset (root : Nat) (va : Option Nat) : Bay.Purged root va Bay.reset Bay.reset :=
  ⟨rfl, fun _ _ h => (by cases h), fun _ _ h => (by cases h)⟩

theorem CachesOnly.dropStale {s t : State} (h : CachesOnly s t) (b : Nat) (ts : List TlbEntry) : CachesOnly s (t.dropStale b ts) := by
  unfold State.dropStale
  dsimp only
  refine CachesOnly.mapDcache ?_ _ _
  split
  · exact h.setBay ..
  · exact h

/-- What a TLBI of an address does at one bay. -/
theorem purged_some (t : State) (root a b : Nat) (gone : List TlbEntry) (walks : List Walk) :
    let u := t.dropStale b gone
    Bay.Purged root (some a) (t.bay b)
      ((u.setBay b { u.bay b with tlb := (u.bay b).tlb.filter fun e => !e.covers root a, walks := walks }).bay b) := by
  obtain ⟨⟨l2, e⟩, -⟩ := bay_dropStale t b gone
  dsimp only
  rw [State.bay_setBay_same, e]
  exact ⟨rfl, fun h => (by cases h), fun h => (by cases h)⟩

/-- What a TLBI.ALL does at one bay, whatever becomes of the cores. -/
theorem purged_none (t : State) (root b : Nat) (cores : AMap Core) :
    let y := t.bay b
    let u : State := { t.setBay b { y with l2 := y.l2.filter fun c => !c.2.stale } with cores := cores }
    Bay.Purged root none y ((u.setBay b { u.bay b with
      tlb := (u.bay b).tlb.filter fun e => !decide (e.root = root)
      walks := (u.bay b).walks.filter fun w => !(decide (w.root = root) && true) }).bay b) := by
  intro y u
  have hu : u.bay b = { y with l2 := y.l2.filter fun c => !c.2.stale } := State.bay_setBay_same t b _
  rw [State.bay_setBay_same, hu]
  refine ⟨rfl, fun _ w hw => ?_, fun _ e he => ?_⟩
  · simpa using (List.mem_filter.mp hw).2
  · simpa [CacheLine.stale] using (List.mem_filter.mp he).2

/-- An invalidation purges every bay and changes nothing but bays and data caches. -/
theorem tlbInvalidate_spec (s : State) (root : Nat) (va : Option Nat) :
    CachesOnly s (s.tlbInvalidate root va) ∧ ∀ b, Bay.Purged root va (s.bay b) ((s.tlbInvalidate root va).bay b) := by
  suffices h : CachesOnly s (s.tlbInvalidate root va) ∧ ∀ b, Bay.Purged root va (s.bay b) ((s.tlbInvalidate root va).bay b) ∨
      ((s.tlbInvalidate root va).bay b = s.bay b ∧ ∀ e ∈ s.bays, e.1 ≠ b) by
    refine ⟨h.1, fun b => (h.2 b).elim id ?_⟩
    rintro ⟨e, hn⟩
    have hr : s.bay b = Bay.reset := by
      rw [State.bay, AMap.get]
      cases hb : s.bays.find? b with
      | none => rfl
      | some y => exact absurd rfl (hn _ (AMap.find?_mem hb))
    rw [e, hr]
    exact Bay.purged_reset root va
  unfold State.tlbInvalidate
  cases va with
  | some a =>
    refine ⟨List.foldlRecOn (motive := CachesOnly s) _ _ (.refl s) fun t ht e _ => (ht.dropStale ..).setBay .., fun b => ?_⟩
    refine bay_foldl Bay.Purged.trans (fun t e => ⟨?_, fun c hc => ?_⟩) s.bays s b
    · exact purged_some ..
    · exact (State.bay_setBay_other _ _ _ _ hc).trans ((bay_dropStale ..).2 c hc)
  | none =>
    refine ⟨List.foldlRecOn (motive := CachesOnly s) _ _ (.refl s) fun t ht e _ => ((ht.setBay ..).mapDcache _ _).setBay .., fun b => ?_⟩
    refine bay_foldl Bay.Purged.trans (fun t e => ⟨?_, fun c hc => ?_⟩) s.bays s b
    · exact purged_none ..
    · exact (State.bay_setBay_other _ _ _ _ hc).trans (State.bay_setBay_other _ _ _ _ hc)

/-! ## TLBI and TLBI.ALL -/

/-- The acting core keeps its registers and its pc where sill units let their translations go. -/
theorem dropSillPages_me (s : State) (root : Nat) (va : Option Nat) : ∃ j, (s.dropSillPages root va).me = { s.me with journal := j } := by
  unfold State.dropSillPages
  extract_lets drop
  show ∃ j, AMap.get (s.cores.map _) s.cur Core.reset = _
  rcases AMap.get_mapCores (cores := s.cores) (g := fun e => if e.2.journal.any (fun c => c.op = .sillLoad && !c.locs.isEmpty && s.root c.bent = root) then
      (e.1, { e.2 with journal := e.2.journal.map (fun c => if s.root c.bent = root then { c with unmapped := drop c.locs c.unmapped } else c) })
      else e) (fun e => by dsimp only; split <;> rfl) s.cur with e | ⟨k, hk, e⟩
  · exact ⟨_, e.trans rfl⟩
  · subst hk
    rw [e]
    split
    · exact ⟨_, rfl⟩
    · exact ⟨_, rfl⟩

/-- An invalidation, where accesses still go through what it removed, and where none does. -/
theorem tlbi_spec (s : State) (va : Option Nat) : ∃ t, s.tlbi va = .next t ∧ (∀ b, t.bay b = (s.tlbInvalidate (s.root s.myBent) va).bay b) ∧
    t.mem = s.mem ∧ t.me.x = s.me.x ∧ t.me.f = s.me.f ∧ t.me.d = s.me.d ∧ t.me.regs = s.me.regs ∧
      t.me.pc = if s.translationBusy (s.root s.myBent) va then s.me.pc else s.me.pc + 4 := by
  obtain ⟨hu, -⟩ := tlbInvalidate_spec s (s.root s.myBent) va
  have hb := hu.translationBusy (s.root s.myBent) va
  obtain ⟨c, hme⟩ := hu.me
  have hm : (s.tlbInvalidate (s.root s.myBent) va).mem = s.mem := by rw [hu.rest]
  unfold State.tlbi
  dsimp only
  generalize s.tlbInvalidate (s.root s.myBent) va = u at hb hme hm ⊢
  rw [hb]
  split
  · exact ⟨u, rfl, fun _ => rfl, hm, by rw [hme], by rw [hme], by rw [hme], by rw [hme], by rw [hme]⟩
  · obtain ⟨j, hj⟩ := dropSillPages_me u (s.root s.myBent) va
    have hs : (u.dropSillPages (s.root s.myBent) va).skip.me = { u.me with journal := j, pc := u.me.pc + 4 } := by
      rw [State.skip, State.setPc, State.me_setMe, State.pc, hj]
    refine ⟨_, rfl, fun _ => rfl, hm, ?_⟩
    rw [hs, hme]
    exact ⟨rfl, rfl, rfl, rfl, rfl⟩

theorem translationsAreRemoved : TranslationsAreRemoved := by
  intro s all a hp i va root
  refine ⟨fun hall hv => ?_, fun hv => ?_⟩
  · have hi : i = .tlbi a := by simp [i, hall]
    rw [hi]
    show execTlbi a s = _
    unfold execTlbi
    dsimp only
    rw [if_neg (by simp [hp]), if_pos fun h => absurd ((extractLsb'_56_8_eq_zero _).mp h) (by omega)]
    rfl
  · have hi : exec i s = s.tlbi va := by
      cases all with
      | true =>
        show execTlbiAll s = _
        exact if_pos hp
      | false =>
        show execTlbi a s = _
        unfold execTlbi
        dsimp only
        rw [if_neg (by simp [hp]), if_neg (not_not.mpr ((extractLsb'_56_8_eq_zero _).mpr (hv.resolve_left Bool.false_ne_true)))]
        rfl
    obtain ⟨t, ht, hbay, hrest⟩ := tlbi_spec s va
    have hpurged := fun b => hbay b ▸ (tlbInvalidate_spec s root va).2 b
    refine ⟨t, hi.trans ht, fun b => ?_, fun hall b => ?_, hrest⟩
    · rw [(hpurged b).tlb]
      refine List.filter_congr fun e _ => ?_
      cases all <;> simp [va, TlbEntry.goneBy, TlbEntry.covers, Bool.and_assoc]
    · have hnone : va = none := by simp [va, hall]
      exact ⟨(hpurged b).walks hnone, (hpurged b).l2 hnone⟩

/-- Settles O31: what KLOCK and KUNLOCK do to the frames of a core, and what an invalidation leaves of the bays. -/
theorem locksAndTranslations : Obligations.LocksAndTranslations := ⟨kernelLineLocks, translationsAreRemoved⟩

end Sys2Proof.Machine
end

section
/-! O52. A collective that times out loses what it has read ahead. -/

namespace Sys2Proof.Machine
open Sys2Proof Sys2Proof.Claims

/-- Whatever a COLL holds read ahead is gone once COLL_TIMEOUT has stopped it (R186, R408). -/
theorem collTimeout_drops_ahead {s t : State} {core : Nat} {n : BitVec 32} {c : Cmd} (hc : (s.core core).entry n = some c) (hop : c.op = .coll)
    (hr : c.ready = true) (hst : c.st ≠ .stopped) (htmo : s.pastTmo c.collTmo c.started = true)
    (ht : exec (.collTimeout core n) s = .next t) : ((t.core core).entry c.seq).map Cmd.ahead = some [] := by
  have he : exec (.collTimeout core n) s = .next (s.stopCmd core c 0x16 c.progress (c.coll.round.zeroExtend 64)) := by
    show execCollTimeout core n s = _
    rw [execCollTimeout, hc]
    simp [hop, hr, hst, htmo]
  rw [he] at ht
  cases ht
  have hseq : c.seq = n := by simpa using List.find?_some hc
  have hk : ((s.stopCmd core c 0x16 c.progress (c.coll.round.zeroExtend 64)).core core) = (s.core core).setEntry { c with
      st := .stopped, ahead := [], trap := some (c.trapOf 0x16 c.progress (c.coll.round.zeroExtend 64)) } := State.core_setCore_same ..
  rw [hk]
  exact congrArg (Option.map Cmd.ahead) (Core.entry_setEntry (hseq ▸ hc) rfl)

/-- A running COLL whose entry holds one unit read ahead, its patience 1 µs. R186 has only data commands read ahead; the statement takes every entry. -/
def aheadColl : Cmd :=
  { State.reset.capture .coll 0 ⟨255, 0, 255, 0⟩ 0 0 0 0 0 with st := .running, ready := true, collTmo := 1, ahead := [(0, [0])] }

/-- The machine that holds that COLL on core 0, 1 µs after its start. -/
def aheadState : State := { State.reset.setCore 0 { Core.reset with journal := [aheadColl] } with elapsed := 1000 }

/-- Refutes O52: `CollMessagesAndTimeouts` has COLL_TIMEOUT leave all of the entry but its state and its trap, where the stop also drops what the
entry holds read ahead (`State.stopCmd`), as the statements on other stops say. The counterexample is a COLL with a unit read ahead. -/
theorem not_fabricAndCollectives : ¬ Obligations.FabricAndCollectives := by
  rintro ⟨-, -, -, h⟩
  have hc : (aheadState.core 0).entry aheadColl.seq = some aheadColl := by decide +kernel
  obtain ⟨t, ht, -, -, he, -⟩ := (h aheadState 0 aheadColl.seq aheadColl hc rfl (by decide) (by decide)).1 rfl (by decide)
  have ha := collTimeout_drops_ahead hc rfl rfl (by decide) (by decide) ht
  rw [show (t.core 0).entry aheadColl.seq = _ from he] at ha
  cases ha

end Sys2Proof.Machine
end

section
/-! SUPPORT for O55. What writes, the end of bents and their creation leave of a machine (R337, R373, R417). -/

namespace Sys2Proof.Machine
open Sys2Proof Sys2Proof.Claims

/-! ## The channel: sessions and messages sent -/

/-- The sessions and what has been sent out. -/
def State.channel (s : State) : List Session × List OutMsg := (s.sessions, s.outbox)

@[simp] theorem State.channel_closeAccums (s : State) (pa n : Nat) : (s.closeAccums pa n).channel = s.channel := by
  obtain ⟨m, k, h⟩ := State.closeAccums_eq s pa n
  rw [h]
  rfl

@[simp] theorem State.channel_writeLoc (s : State) (l : Loc) (data : List Byte) : (s.writeLoc l data).channel = s.channel := by
  obtain ⟨m, k, hc⟩ := State.closeAccums_eq s l.pa data.length
  obtain ⟨bays, hd⟩ := State.dropLines_eq (s.closeAccums l.pa data.length) l.pa data.length
  obtain ⟨m', k', hp⟩ := State.putBytes_eq ((s.closeAccums l.pa data.length).dropLines l.pa data.length) l.slot l.pa data
  change (((s.closeAccums l.pa data.length).dropLines l.pa data.length).putBytes l.slot l.pa data).channel = _
  rw [hp, hd, hc]
  rfl

@[simp] theorem State.channel_saveWrite (s : State) (b off : Nat) (data : List Byte) : (s.saveWrite b off data).channel = s.channel := by
  unfold State.saveWrite
  split
  · rfl
  · split
    · rfl
    · exact State.channel_writeLoc ..

theorem State.channel_foldl {α : Type} {f : State → α → State} (h : ∀ s a, (f s a).channel = s.channel) (l : List α) (s : State) :
    (l.foldl f s).channel = s.channel := by
  induction l generalizing s with
  | nil => rfl
  | cons a t ih => exact (ih _).trans (h s a)

/-- A fold of changes of bays changes bays alone. -/
theorem foldl_bays {α : Type} {f : State → α → State} (h : ∀ s a, ∃ bays, f s a = { s with bays := bays }) (l : List α) (s : State) :
    ∃ bays, l.foldl f s = { s with bays := bays } := by
  induction l generalizing s with
  | nil => exact ⟨_, rfl⟩
  | cons a t ih =>
    obtain ⟨y, hy⟩ := h s a
    obtain ⟨z, hz⟩ := ih (f s a)
    exact ⟨z, by rw [List.foldl_cons, hz, hy]⟩

/-! ## Records of bents -/

/-- `t` is `s` but for what a write of firmware's changes; nothing is sent. -/
structure Noted (s t : State) : Prop extends Stored s t where
  channel : t.channel = s.channel

theorem Noted.refl (s : State) : Noted s s := ⟨Stored.refl s, rfl⟩

theorem Noted.trans {s t u : State} (h : Noted s t) (h' : Noted t u) : Noted s u :=
  ⟨h.toStored.trans h'.toStored, h'.channel.trans h.channel⟩

theorem Noted.writeLoc (s : State) (l : Loc) (data : List Byte) : Noted s (s.writeLoc l data) := ⟨Stored.writeLoc s l data, by simp⟩

theorem Noted.foldl {α : Type} {f : State → α → State} (h : ∀ s a, Noted s (f s a)) (l : List α) (s : State) : Noted s (l.foldl f s) :=
  ⟨Stored.foldl (fun s a => (h s a).toStored) l s, State.channel_foldl (fun s a => (h s a).channel) l s⟩

theorem Noted.putBentRecord (s : State) (b : Nat) (r : Bent) : Noted s (s.putBentRecord b r) := by
  unfold State.putBentRecord
  dsimp only
  split
  · exact Noted.writeLoc ..
  · exact Noted.refl s

theorem Noted.writeBackBent (s : State) (b : Nat) (r : Bent) : Noted s (s.writeBackBent b r) := by
  unfold State.writeBackBent
  dsimp only
  split
  · exact Noted.trans ⟨Stored.closeAccums s _ _, by simp⟩ (Noted.writeLoc ..)
  · exact Noted.refl s

theorem Noted.dropSpills (s : State) (b : Nat) (r : Bent) : Noted s (s.dropSpills b r) := by
  unfold State.dropSpills
  split
  · exact Noted.refl s
  · exact Noted.foldl (fun s e => ⟨Stored.saveWrite s b _ _, by simp⟩) _ s

/-! ## The end of bents -/

/-- What the end of bents leaves: every register, what was sent, and of the bents that go on that they drain. -/
structure Ending (s t : State) : Prop where
  registers : RegistersKept s t
  outbox : t.outbox = s.outbox
  drain : ∀ c q, t.bents.find? c = some q → ∃ r, s.bents.find? c = some r ∧ (r.drain = true → q.drain = true)

theorem Ending.refl (s : State) : Ending s s := ⟨RegistersKept.refl s, rfl, fun _ q h => ⟨q, h, id⟩⟩

theorem Ending.trans {s t u : State} (h : Ending s t) (h' : Ending t u) : Ending s u where
  registers := RegistersKept.trans h.registers h'.registers
  outbox := h'.outbox.trans h.outbox
  drain c q hq := by
    obtain ⟨p, hp, hd'⟩ := h'.drain c q hq
    obtain ⟨r, hr, hd⟩ := h.drain c p hp
    exact ⟨r, hr, fun h => hd' (hd h)⟩

/-- A change that keeps cores, bents and what was sent. -/
theorem Ending.of_fields {s t : State} (hc : t.cores = s.cores) (ho : t.outbox = s.outbox) (hb : t.bents = s.bents) : Ending s t where
  registers c := by
    unfold State.core
    rw [hc]
    exact ⟨rfl, rfl, rfl, rfl, rfl⟩
  outbox := ho
  drain _ q hq := ⟨q, hb ▸ hq, id⟩

theorem Noted.ending {s t : State} (h : Noted s t) : Ending s t where
  registers := h.registersKept
  outbox := congrArg Prod.snd h.channel
  drain _ q hq := ⟨q, h.bents ▸ hq, id⟩

theorem Ending.recordLast (s : State) (b cause kind : Nat) : Ending s (s.recordLast b cause kind) where
  registers := (Mild.recordLast s b cause kind).registersKept
  outbox := by
    unfold State.recordLast
    split
    · rfl
    · split
      · rfl
      · exact congrArg Prod.snd (State.channel_saveWrite s b _ _)
  drain c q hq := by
    obtain ⟨r, hr, hg⟩ := (TreeKept.recordLast s b cause kind).of_find?_some hq
    exact ⟨r, hr, hg.drain⟩

theorem file_clearOwned (b : Nat) (l : List Nat) (k : Core) : (k.clearOwned b l).file = k.file := by
  induction l generalizing k with
  | nil => rfl
  | cons w t ih =>
    refine (ih _).trans ?_
    split <;> rfl

theorem Ending.tlbInvalidate (s : State) (root : Nat) (va : Option Nat) : Ending s (s.tlbInvalidate root va) := by
  obtain ⟨hu, -⟩ := tlbInvalidate_spec s root va
  obtain ⟨hr, g, hg⟩ := hu
  rw [hg] at hr
  rw [hr]
  exact ⟨RegistersKept.mapCores s (fun _ => rfl) fun _ => rfl, rfl, fun _ q h => ⟨q, h, id⟩⟩

theorem Ending.endBent (s : State) (b : Nat) (r : Bent) : Ending s (s.endBent b r) := by
  have hw : Ending s (((s.recordLast b 0x10 0).dropSpills b r).writeBackBent b r) :=
    (Ending.recordLast s b 0x10 0).trans ((Noted.dropSpills _ b r).ending.trans (Noted.writeBackBent _ b r).ending)
  refine hw.trans ?_
  unfold State.endBent
  generalize ((s.recordLast b 0x10 0).dropSpills b r).writeBackBent b r = t
  dsimp only
  generalize hv : State.mk .. = v
  have hv : Ending t v := by
    rw [← hv]
    refine ⟨?_, rfl, fun c q hq => ⟨q, ?_, id⟩⟩
    · exact RegistersKept.mapCores t (fun _ => rfl) fun e => file_clearOwned b _ e.2
    · change (t.bents.erase b).find? c = some q at hq
      by_cases hc : c = b
      · rw [hc, AMap.find?_erase_same] at hq
        cases hq
      · rwa [AMap.find?_erase_other _ _ _ hc] at hq
  refine hv.trans ?_
  obtain ⟨bays, hd⟩ := foldl_bays (f := fun (s : State) j => s.dropEverywhere (.bridge b j)) (fun s j => s.dropEverywhere_eq _) (rangeFrom 0 4) v
  rw [hd]
  refine Ending.trans (t := { v with bays := bays }) (Ending.of_fields rfl rfl rfl) ?_
  have hi : Ending { v with bays := bays } (if r.parent.isNone = true then State.tlbInvalidate { v with bays := bays } b none
      else { v with bays := bays }) := by
    split
    · exact Ending.tlbInvalidate ..
    · exact Ending.refl _
  generalize (if r.parent.isNone = true then _ else _) = w at hi ⊢
  refine hi.trans ?_
  split
  · exact Ending.refl _
  · exact Ending.of_fields rfl rfl rfl

theorem Ending.reapN (n : Nat) (s : State) : Ending s (reapN n s) := by
  induction n generalizing s with
  | zero => exact Ending.refl s
  | succ n ih =>
    unfold Machine.reapN
    split
    · exact (Ending.endBent s ..).trans (ih _)
    · exact Ending.refl s

/-- A drain and the end of the bents that have no work left (R163, R373). -/
theorem drained_reap_drain (s : State) (b : Nat) :
    Drained s (s.drain b).reap b ∧ RegistersKept s (s.drain b).reap ∧ (s.drain b).reap.outbox = s.outbox := by
  obtain ⟨hregs, hout, hdrain⟩ := Ending.reapN (s.drain b).bents.length (s.drain b)
  refine ⟨fun c q hq hu => ?_, RegistersKept.trans (Mild.drain s b).registersKept hregs, hout⟩
  obtain ⟨r, hr, hd⟩ := hdrain c q hq
  rw [State.find?_bents_drain] at hr
  obtain ⟨p, -, rfl⟩ := Option.map_eq_some_iff.mp hr
  exact hd (State.drained_drain hu p)

/-! ## The creation of a bent -/

/-- A bent as it enters the table. -/
def Bent.entered (r : Bent) (at_ : Nat) : Bent := { r with effPrio := r.prio, agedAt := at_ }

/-- A bent enters the table; no register changes and nothing is sent. -/
theorem addBent_spec (s : State) (b : Nat) (r : Bent) :
    RegistersKept s (s.addBent b r) ∧ (s.addBent b r).bents = s.bents.put b (r.entered s.elapsed) ∧ (s.addBent b r).channel = s.channel := by
  obtain ⟨bays, hb⟩ := foldl_bays (f := fun (s : State) bay => ((indexed 0 r.brg).filter (fun e => brgSem e.2 != 0xFF)).foldl
      (fun s e => s.setPhaser bay (brgPh e.2) ((s.phaser bay (brgPh e.2)).register (.bridge b e.1) .sig)) s)
    (fun s bay => foldl_bays (fun s e => ⟨_, rfl⟩) _ s) (rangeFrom 0 8) { s with bents := s.bents.put b (r.entered s.elapsed), free := s.free + 1 }
  have h : s.addBent b r = State.putBentRecord { s with bents := s.bents.put b (r.entered s.elapsed), free := s.free + 1, bays := bays } b
      (r.entered s.elapsed) := congrArg (fun u => State.putBentRecord u b (r.entered s.elapsed)) hb
  have hn := Noted.putBentRecord { s with bents := s.bents.put b (r.entered s.elapsed), free := s.free + 1, bays := bays } b (r.entered s.elapsed)
  rw [← h] at hn
  exact ⟨hn.registersKept, hn.bents, hn.channel⟩

theorem Noted.clearUnder (s : State) (slot pa n : Nat) : Noted s (s.clearUnder slot pa n) :=
  Noted.trans ⟨Stored.closeAccums s pa n, by simp⟩ ⟨Stored.of_fields rfl rfl rfl rfl rfl rfl rfl rfl, rfl⟩

theorem Noted.mapQuota (s : State) (at_ base quota key : Nat) : Noted s (s.mapQuota at_ base quota key) :=
  (Noted.clearUnder s key at_ _).trans (Noted.foldl (fun s _ => Noted.writeLoc s _ _) _ _)

/-- Values put for a list of keys are found, whatever the table held. -/
theorem find?_foldl_put {α : Type} {P : α → Prop} {f : Nat → α} (hf : ∀ n, P (f n)) (l : List Nat) (m : AMap α) {n : Nat}
    (h : n ∈ l ∨ ∃ v, m.find? n = some v ∧ P v) : ∃ v, (l.foldl (fun (m : AMap α) i => m.put i (f i)) m).find? n = some v ∧ P v := by
  induction l generalizing m with
  | nil => exact h.resolve_left List.not_mem_nil
  | cons i t ih =>
    refine ih (m.put i (f i)) ?_
    by_cases hi : n = i
    · exact Or.inr ⟨f i, by rw [hi]; simp, hf i⟩
    · refine h.imp (fun h => (List.mem_cons.mp h).resolve_left hi) fun ⟨v, hv, hp⟩ => ⟨v, ?_, hp⟩
      rw [AMap.find?_put, if_neg hi, hv]

end Sys2Proof.Machine
end

section
/-! SUPPORT for O55. What the messages of the control channel come to (R335, R378, R415, R417). -/

namespace Sys2Proof.Machine
open Sys2Proof Sys2Proof.Claims

/-! ## Requests and their answers -/

section
variable {s : State} {typ : Nat} {dg : List Byte} {x : Session} {body : List Byte}

/-- An accepted request is answered as its meaning answers it. -/
theorem request_answer {k : State → Session → List Byte → Reply} {t : State} {status : Nat} {b : List Byte}
    (ho : s.openDatagram typ dg = some (x, body)) (hk : k s x body = .answer t status b) : s.request typ dg k = .next (replied t x typ status b) := by
  unfold State.request
  rw [ho]
  dsimp only
  rw [hk]
  rfl

theorem owned?_eq {b : Nat} {r : Bent} (hr : s.bents.find? b = some r) (hown : r.owner = x.owner) : s.owned? x b = some r := by
  unfold State.owned?
  rw [hr]
  exact if_pos hown

end

/-! ## CREATE_BENT -/

/-- The bent that a create-bent body asks for. -/
def Session.asksBent (x : Session) (body : List Byte) : Bent := { Bent.ofTemplate (body.take 256) with owner := x.owner, parent := none, level := 1 }

/-- A new bent with its quota at an address, mapped at `base`, and its queue pairs (R417). -/
def State.created (s : State) (c : Bent) (b pa base quota : Nat) (qpns : List Nat) : State :=
  let s := (s.mapQuota pa base quota c.key).addBent b { c with ptroot := pa, quotaAt := pa, quotaLen := tableArea quota + quota }
  let s : State := { s with mgmt := { s.mgmt with draws := s.mgmt.draws + 1 } }
  { s with qps := qpns.foldl (fun (m : AMap QueuePair) q => m.put q (QueuePair.fresh s b q)) s.qps }

theorem created_spec (s : State) (c : Bent) (b pa base quota : Nat) (qpns : List Nat) :
    (s.created c b pa base quota qpns).channel = s.channel ∧ RegistersKept s (s.created c b pa base quota qpns) ∧
    (∃ at_, (s.created c b pa base quota qpns).bents = s.bents.put b (Bent.entered
      { c with ptroot := pa, quotaAt := pa, quotaLen := tableArea quota + quota } at_)) ∧
    ∀ q ∈ qpns, ∃ k, (s.created c b pa base quota qpns).qps.find? q = some k ∧ k.bent = b := by
  have hm := Noted.mapQuota s pa base quota c.key
  obtain ⟨hregs, hbents, hchannel⟩ := addBent_spec (s.mapQuota pa base quota c.key) b
    { c with ptroot := pa, quotaAt := pa, quotaLen := tableArea quota + quota }
  rw [hm.bents] at hbents
  exact ⟨hchannel.trans hm.channel, RegistersKept.trans hm.registersKept hregs, ⟨_, hbents⟩,
    fun q hq => find?_foldl_put (P := fun k : QueuePair => k.bent = b) (fun _ => rfl) qpns _ (Or.inl hq)⟩

section
variable {s : State} {x : Session} {body : List Byte} (hlen : 272 ≤ body.length) (hmod : (body.length - 272) % 4 = 0)
  (hn : (body.length - 272) / 4 ≤ queuePairs)
include hlen hmod hn

theorem createBentMsg_key (hkey : (x.asksBent body).key = 0 ∨ s.keyTaken x.owner (x.asksBent body).key = true) :
    s.createBentMsg x body = .answer s 5 [] := by
  unfold Session.asksBent at hkey
  unfold State.createBentMsg
  dsimp only
  rw [if_neg (by simp; omega), if_pos (by simpa using hkey)]
  rfl

theorem createBentMsg_eq {b pa : Nat} (hkey : (x.asksBent body).key ≠ 0) (htaken : s.keyTaken x.owner (x.asksBent body).key = false)
    (hquota : fieldN body 256 8 % bigPage = 0) (hbase : fieldN body 264 8 % bigPage = 0)
    (hroom : fieldN body 264 8 + (tableArea (fieldN body 256 8) + fieldN body 256 8) ≤ 2 ^ 56)
    (hres : templateReserved (body.take 256) true = false) (hbad : s.badBent (x.asksBent body) 0 1024 = false)
    (hqps : ∀ q ∈ qpnsOf ((body.length - 272) / 4) (body.drop 272), q < 2 ^ 24 ∧ s.qps.find? q = none)
    (hcount : s.qps.length + (body.length - 272) / 4 ≤ queuePairs) (hb : s.pickBent = some b)
    (hplace : s.quotaPlace (tableArea (fieldN body 256 8) + fieldN body 256 8) = some pa) :
    s.createBentMsg x body = .answer (s.created (x.asksBent body) b pa (fieldN body 264 8) (fieldN body 256 8)
      (qpnsOf ((body.length - 272) / 4) (body.drop 272))) 0 (leBytes 4 b) := by
  have hany : (qpnsOf ((body.length - 272) / 4) (body.drop 272)).any (fun q => decide (2 ^ 24 ≤ q) || AMap.has s.qps q) = false :=
    List.any_eq_false.mpr fun q hq => by
      obtain ⟨hlt, hnone⟩ := hqps q hq
      simpa [AMap.has, hnone] using hlt
  unfold Session.asksBent at hkey htaken hbad
  unfold State.createBentMsg
  dsimp only
  rw [if_neg (by simp; omega), if_neg (by simpa using ⟨hkey, htaken⟩), hquota, hbase, hres, hbad, hany, hb, hplace]
  rw [if_neg (by simp only [Bool.or_eq_true, decide_eq_true_eq, Bool.or_false]; omega)]
  dsimp only
  rw [if_neg (by omega)]
  rfl

end

theorem createsBents : CreatesBents := by
  intro s dg x body ho n c quota base size qpns hlen hmod hn
  refine ⟨fun hkey => request_answer ho (createBentMsg_key hlen hmod hn hkey),
    fun b pa hkey htaken hquota hbase hroom hres hbad hqps hcount hb hpa => ?_⟩
  obtain ⟨hchannel, hregs, ⟨since, hbents⟩, hpairs⟩ := created_spec s c b pa base quota qpns
  refine ⟨s.created c b pa base quota qpns, Bent.entered { c with ptroot := pa, quotaAt := pa, quotaLen := size } since,
    request_answer ho (createBentMsg_eq hlen hmod hn hkey htaken hquota hbase hroom hres hbad hqps hcount hb hpa),
    congrArg Prod.fst hchannel, congrArg Prod.snd hchannel, hregs, ?_, rfl, rfl, rfl, rfl, rfl, rfl, rfl, rfl, rfl, rfl, fun o hob => ?_, hpairs⟩
  · rw [hbents, AMap.find?_put, if_pos rfl]
  · rw [hbents, AMap.find?_put, if_neg hob]

/-! ## KILL_BENT and ENQUEUE_PEG -/

/-- The answer of ENQUEUE_PEG, by what the enqueue came to (R164, R417). -/
def Enqueued.reply (u : State) : Enqueued → Reply
  | .go v => .answer v.flushICaches 0 (leBytes 4 0)
  | .status n => .answer u.flushICaches 0 (leBytes 4 n)
  | .fault _ => .answer u.flushICaches 0 (leBytes 4 3)

section
variable {s : State} {dg : List Byte} {x : Session} {body : List Byte} {r : Bent}
  (hr : s.bents.find? (leNat (body.take 4)) = some r) (hown : r.owner = x.owner)
include hr hown

theorem killBentMsg_eq (hlen : body.length = 4) : s.killBentMsg x body = .answer (s.drain (leNat (body.take 4))).reap 0 [] := by
  rw [List.take_of_length_le hlen.le] at hr ⊢
  unfold State.killBentMsg
  rw [if_neg (by omega), owned?_eq hr hown]

/-- An enqueue from the staging window comes to what its record's read comes to. -/
theorem enqueuePegMsg_eq (hlen : body.length = 12) (hoff : fieldN body 4 8 % 64 = 0) (hin : fieldN body 4 8 + 64 ≤ r.stagen)
    (haddr : (r.stage + BitVec.ofNat 64 (fieldN body 4 8)).toNat % 64 = 0) {u : State} {d : List Byte}
    (hread : s.gRead homeBay (Issuer.of s.firmware (leNat (body.take 4))) (r.stage + BitVec.ofNat 64 (fieldN body 4 8)) 64 = .ok u d) :
    s.enqueuePegMsg x body = (u.enqueue (leNat (body.take 4)) u.emptiestBay (r.stage + BitVec.ofNat 64 (fieldN body 4 8)) d).reply u := by
  unfold State.enqueuePegMsg
  have hb : fieldN body 0 4 = leNat (body.take 4) := rfl
  dsimp only
  rw [if_neg (by omega), hb, owned?_eq hr hown]
  dsimp only
  rw [if_neg (by simp; omega), if_neg (by omega), hread]
  rfl

end

/-! ## LOAD_IMAGE -/

/-- An image that is loaded stands in the image space of its bent (R375, R378); memory and registers stay. -/
theorem loadInto_spec {s : State} {b : Nat} {r : Bent} (hr : s.bents.find? b = some r) (off : Nat) (compat : Bool) (bundles map : List Byte) :
    (s.loadInto b off compat bundles map).mem = s.mem ∧ RegistersKept s (s.loadInto b off compat bundles map) ∧
    ∃ q, (s.loadInto b off compat bundles map).bents.find? b = some q ∧
      ∀ i y, bundles[i]? = some y → ByteMap.rd q.image (off + i) = y := by
  refine ⟨rfl, ?_, r.loaded b (s.lineKey b) off compat bundles map, ?_, fun i y hy => ?_⟩
  · exact RegistersKept.trans (Mild.modBent s b _).registersKept (RegistersKept.mapCores _ (fun _ => rfl) fun _ => rfl)
  · change (s.bents.modify b _).find? b = _
    rw [AMap.find?_modify, hr]
    simp
  · obtain ⟨hi, hy⟩ := List.getElem?_eq_some_iff.mp hy
    exact (ByteMap.rd_wrN_inside _ off i bundles hi).trans hy

/-- A read of firmware's, whatever it needs, leaves what its reads of data leave. -/
theorem Stored.of_gReadAs {s t : State} {bay : Nat} {w : Issuer} {need : Need} {va : Word} {n : Nat} {d : List Byte}
    (h : s.gReadAs bay w need va n = .ok t d) : Stored s t := by
  unfold State.gReadAs at h
  dsimp only at h
  split at h <;> cases h
  next ls _ =>
  refine (Stored.touchParts s bay w.bent need va ls).trans ?_
  split
  · exact Stored.readParts ..
  · exact Stored.readParts ..

section
variable {s u : State} {dg : List Byte} {x : Session} {body d : List Byte} {r : Bent}
  (hr : s.bents.find? (leNat (body.take 4)) = some r) (hown : r.owner = x.owner) (hlen : body.length = 36)
  (hin : fieldN body 4 8 + fieldN body 12 8 ≤ r.stagen) (hout : fieldN body 20 8 + fieldN body 28 8 ≤ r.stagen)
  (hapart : overlap (fieldN body 4 8) (fieldN body 12 8) (fieldN body 20 8) (fieldN body 28 8) = false)
  (hread : s.gReadAs homeBay (Issuer.of s.firmware (leNat (body.take 4))) .exec (r.stage + BitVec.ofNat 64 (fieldN body 4 8)) (fieldN body 12 8) =
    .ok u d)
include hr hown hlen hin hout hapart hread

/-- A load whose source can be read answers what the load of a native image comes to. -/
theorem loadImageMsg_native (hz : fieldN body 20 8 = 0 ∧ fieldN body 28 8 = 0) (hmagic : fieldN d 0 4 ≠ vuzenMagic) :
    s.loadImageMsg x body = .answer (u.loadNative (leNat (body.take 4)) d).s 0
      (leBytes 4 (u.loadNative (leNat (body.take 4)) d).status ++ leBytes 4 (u.loadNative (leNat (body.take 4)) d).sealedLen) := by
  have hb : fieldN body 0 4 = leNat (body.take 4) := rfl
  unfold State.loadImageMsg
  dsimp only
  rw [if_neg (by omega), hb, owned?_eq hr hown]
  dsimp only
  rw [hapart, if_neg (by simp; omega), hread]
  dsimp only
  rw [if_neg hmagic, if_neg (by simp [hz])]

/-- A load whose source can be read answers what the load of a form comes to. -/
theorem loadImageMsg_form (hmagic : fieldN d 0 4 = vuzenMagic) {l : Loaded}
    (hl : u.loadForm (leNat (body.take 4)) d (r.stage + BitVec.ofNat 64 (fieldN body 20 8)) (fieldN body 28 8) = some l) :
    s.loadImageMsg x body = .answer l.s 0 (leBytes 4 l.status ++ leBytes 4 l.sealedLen) := by
  have hb : fieldN body 0 4 = leNat (body.take 4) := rfl
  unfold State.loadImageMsg
  dsimp only
  rw [if_neg (by omega), hb, owned?_eq hr hown]
  dsimp only
  rw [hapart, if_neg (by simp; omega), hread]
  dsimp only
  rw [if_pos hmagic, hl]

end

section
variable {u : State} {b : Nat} {d : List Byte}

theorem loadNative_malformed (hp : ImageHeader.parse d = none) : u.loadNative b d = ⟨u, 3, 0⟩ := by
  unfold State.loadNative
  rw [hp]

theorem loadNative_stepping {h : ImageHeader} (hp : ImageHeader.parse d = some h) (hs : h.steps = false) : u.loadNative b d = ⟨u, 1, 0⟩ := by
  unfold State.loadNative
  rw [hp]
  simp only [hs, Bool.not_false, if_true]

theorem loadNative_sealed {h : ImageHeader} (hp : ImageHeader.parse d = some h) (hs : h.steps = true) (hc : h.contents d = none) :
    u.loadNative b d = ⟨u, 2, 0⟩ := by
  unfold State.loadNative
  rw [hp]
  simp only [hs, hc, Bool.not_true, Bool.false_eq_true, if_false]

theorem loadNative_contents {h : ImageHeader} {c : List Byte} (hp : ImageHeader.parse d = some h) (hs : h.steps = true)
    (hc : h.contents d = some c) : u.loadNative b d =
      if u.hasContexts b then ⟨u, 5, 0⟩ else ⟨u.loadInto b h.off h.compat (c.take h.len) (c.drop h.len), 0, 0⟩ := by
  unfold State.loadNative
  rw [hp]
  simp only [hs, hc, Bool.not_true, Bool.false_eq_true, if_false]

variable {out : Word} {outLen : Nat} {code map : List Byte}

theorem loadForm_refused (hf : bundleForm d = none) : u.loadForm b d out outLen = some ⟨u, 4, 0⟩ := by
  unfold State.loadForm
  rw [hf]

theorem loadForm_contexts (hf : bundleForm d = some (code, map)) (hc : u.hasContexts b = true) : u.loadForm b d out outLen = some ⟨u, 5, 0⟩ := by
  unfold State.loadForm
  rw [hf]
  exact if_pos hc

/-- The sealed copy that firmware makes of a form's bundles (R384). -/
def State.formCopy (u : State) (d code map : List Byte) : List Byte := sealedCopy (fieldN d 16 4) (drbgDraw (u.mgmt.draws + 1) 12) code map

theorem loadForm_small (hf : bundleForm d = some (code, map)) (hc : u.hasContexts b = false) (hs : outLen < (u.formCopy d code map).length) :
    u.loadForm b d out outLen = some ⟨u, 6, 0⟩ := by
  unfold State.loadForm
  rw [hf]
  exact (if_neg (by simp [hc])).trans (if_pos hs)

theorem loadForm_loaded (hf : bundleForm d = some (code, map)) (hc : u.hasContexts b = false) (hs : (u.formCopy d code map).length ≤ outLen)
    {v : State} {w : List Byte} (hw : u.gWrite homeBay (Issuer.of u.firmware b) out (u.formCopy d code map) = .ok v w) :
    u.loadForm b d out outLen = some ⟨State.loadInto { v with mgmt := { v.mgmt with draws := v.mgmt.draws + 1 } } b (fieldN d 16 4) false code map,
      0, (u.formCopy d code map).length⟩ := by
  unfold State.formCopy at hs hw ⊢
  unfold State.loadForm
  rw [hf]
  dsimp only
  rw [if_neg (by simp [hc]), if_neg (Nat.not_lt.mpr hs), hw]

end

end Sys2Proof.Machine
end

section
/-! O55. What the accepted requests of the control channel do (R335, R378, R412, R417 to R421, R427, R430). -/

namespace Sys2Proof.Machine
open Sys2Proof Sys2Proof.Claims

/-! ## Services for a bent -/

theorem servesBents : ServesBents := by
  intro s dg x body r b f hr hown
  refine ⟨?_, ?_, ?_, ?_⟩
  · intro ho hlen
    obtain ⟨hdrained, hregs, hout⟩ := drained_reap_drain s b
    exact ⟨_, request_answer ho (killBentMsg_eq hr hown hlen), hdrained, hregs, hout⟩
  · intro ho hlen hoff hin addr answers haddr u d hread
    have hmsg := enqueuePegMsg_eq hr hown hlen hoff hin haddr hread
    exact ⟨fun v hv => request_answer ho (hmsg.trans (congrArg (Enqueued.reply u) hv)),
      fun n hn => request_answer ho (hmsg.trans (congrArg (Enqueued.reply u) hn))⟩
  · intro ho hlen h20 h28 hin u d hread hmagic answers
    have hempty : overlap (f 4 8) (f 12 8) (f 20 8) (f 28 8) = false := by
      rw [h20, h28]
      simp [overlap]
    have hmsg := loadImageMsg_native hr hown hlen hin (show f 20 8 + f 28 8 ≤ r.stagen by omega) hempty hread ⟨h20, h28⟩ hmagic
    have hu := Stored.of_gReadAs hread
    have hanswers {l : Loaded} (hl : u.loadNative b d = l) (hz : l.sealedLen = 0) : answers l.s l.status := by
      refine request_answer ho (hmsg.trans ?_)
      rw [hl, hz]
    refine ⟨fun hp => hanswers (loadNative_malformed hp) rfl, fun h hp => ⟨fun hs => hanswers (loadNative_stepping hp hs) rfl,
      fun hs hc => hanswers (loadNative_sealed hp hs hc) rfl, fun c hs hc => ⟨fun hx => ?_, fun hx => ?_⟩⟩⟩
    · exact hanswers ((loadNative_contents hp hs hc).trans (if_pos hx)) rfl
    · have hr' : u.bents.find? b = some r := by rw [hu.bents, hr]
      obtain ⟨hmem, hregs, q, hq, himage⟩ := loadInto_spec hr' h.off h.compat (c.take h.len) (c.drop h.len)
      exact ⟨u.loadInto b h.off h.compat (c.take h.len) (c.drop h.len), q, hanswers ((loadNative_contents hp hs hc).trans (if_neg (by simp [hx]))) rfl, hq,
        RegistersKept.trans hu.registersKept hregs, hmem, himage⟩
  · intro ho hlen hin hout hapart u d hread hmagic answers
    have hoverlap : overlap (f 4 8) (f 12 8) (f 20 8) (f 28 8) = false := by
      simp only [overlap, Bool.and_eq_false_iff, decide_eq_false_iff_not]
      omega
    have hu := Stored.of_gReadAs hread
    have hanswers {l : Loaded} (hl : u.loadForm b d (r.stage + BitVec.ofNat 64 (f 20 8)) (f 28 8) = some l) : answers l.s l.status l.sealedLen :=
      request_answer ho (loadImageMsg_form hr hown hlen hin hout hoverlap hread hmagic hl)
    refine ⟨fun hf => hanswers (loadForm_refused hf), fun code map hf => ⟨fun hx => hanswers (loadForm_contexts hf hx),
      fun hx hs => hanswers (loadForm_small hf hx hs), fun v w hx hs hw => ?_⟩⟩
    have hfw : s.firmware = u.firmware := by unfold State.firmware; rw [hu.mgmt]
    rw [hfw] at hw
    have hv := Stored.of_gWrite hw
    let y : State := { v with mgmt := { v.mgmt with draws := v.mgmt.draws + 1 } }
    have hr' : y.bents.find? b = some r := by rw [show y.bents = s.bents from hv.bents.trans hu.bents, hr]
    obtain ⟨hmem, hregs, q, hq, himage⟩ := loadInto_spec hr' (fieldN d 16 4) false code map
    exact ⟨y.loadInto b (fieldN d 16 4) false code map, q, hanswers (loadForm_loaded hf hx hs hw), hmem,
      RegistersKept.trans (hu.trans hv).registersKept (RegistersKept.trans (RegistersKept.refl v) hregs), hq, himage⟩

/-! ## KEY_INSTALL -/

theorem installsKeys : InstallsKeys := by
  intro s dg x body r ho b kind qpn hr hown hdrain
  have hb : fieldN body 0 4 = b := rfl
  have hkind : fieldN body 4 4 = kind := rfl
  have hqpn : fieldN body 8 4 = qpn := rfl
  refine ⟨fun hk hlen hkey htaken => request_answer ho ?_, fun q hk hlen hq hqb => request_answer ho ?_⟩
  · unfold State.keyInstallMsg
    dsimp only
    rw [if_neg (by omega), hb, owned?_eq hr hown]
    simp [hkind, hk, hlen, hdrain, hkey, htaken]
  · unfold State.keyInstallMsg
    dsimp only
    rw [if_neg (by omega), hb, owned?_eq hr hown]
    simp [hkind, hk, hlen, hdrain, hqpn, hq, hqb, AMap.modify]

/-! ## ATTESTATION, TELEMETRY and DUMP_RETRIEVAL -/

/-- A field of a report, behind what stands before it. -/
theorem leNat_field {l a c : List Byte} {off n v : Nat} (hl : l = a ++ (leBytes n v ++ c)) (ha : a.length = off) :
    leNat ((l.drop off).take n) = v % 2 ^ (8 * n) := by
  rw [hl, ← ha, List.drop_left, List.take_left' (leBytes_length n v), Machine.leNat_leBytes, Nat.pow_mul]

/-- The temperature bytes of telemetry (R427). -/
def State.tempBytes (s : State) : List Byte := (rangeFrom 0 8).map (fun b => BitVec.ofInt 8 (s.bay b).temp)

theorem tempBytes_length (s : State) : s.tempBytes.length = 8 := rfl

/-- A count of telemetry, 0 below the counts of R40 (R428). -/
def State.reportedCount (s : State) (n : Nat) : Nat := if s.mgmt.phase = .belowCounts then 0 else n

theorem telemetryFor_eq (s : State) (owner : List Byte) : ∃ rest, s.telemetryFor owner =
    leBytes 8 s.timestamp ++ (leBytes 4 s.mgmt.clockMHz ++ (leBytes 4 s.mgmt.avgPower ++ (s.tempBytes ++
      (leBytes 8 (s.reportedCount s.mgmt.corrected.toNat) ++ (leBytes 8 (s.reportedCount s.mgmt.poisonings.toNat) ++ rest))))) := by
  unfold State.telemetryFor
  simp only [List.append_assoc]
  exact ⟨_, rfl⟩

theorem reportedCount_mod (s : State) (c : Word) : s.reportedCount c.toNat % 2 ^ (8 * 8) = s.reportedCount c.toNat := by
  refine Nat.mod_eq_of_lt ?_
  unfold State.reportedCount
  split
  · decide
  · exact c.isLt

/-- The header of a dump, before the cut of a body: 64 bytes (R430). -/
theorem dump_header (d : Dump) : d.header.length = 64 ∧ leNat (d.header.take 4) = 0x444D5031 :=
  ⟨by simp [Dump.header], leNat_field (a := []) (off := 0) (v := 0x444D5031) (by simp only [List.append_assoc]; rfl) rfl⟩

theorem indexed_snd_mem {α : Type} {l : List α} {i : Nat} {e : Nat × α} (h : e ∈ indexed i l) : e.2 ∈ l := by
  induction l generalizing i with
  | nil => cases h
  | cons a t ih =>
    cases h with
    | head => exact List.mem_cons_self
    | tail _ h => exact List.mem_cons_of_mem a (ih h)

/-- An owner without a section is given the header alone (R430). -/
theorem forOwner_of_none {d : Dump} {owner : List Byte} (h : ∀ e ∈ d.sections, e.owner ≠ some owner) : d.forOwner owner = d.header := by
  have hnone (entries : List (List Byte)) : ((indexed 0 d.sections).zip entries).filter (fun e => decide (e.1.2.owner = some owner)) = [] :=
    List.filter_eq_nil_iff.mpr fun e he => by simpa using h _ (indexed_snd_mem (List.of_mem_zip he).1)
  unfold Dump.forOwner
  dsimp only
  rw [hnone]
  simp

theorem reportsState : ReportsState := by
  intro s dg x body
  refine ⟨?_, fun ho hbody => ?_, fun ho hbody => ⟨fun hd => request_answer ho ?_, fun d hd hnone => ?_⟩⟩
  · intro ho hlen c seed rep
    refine request_answer ho ?_
    unfold State.attestationMsg
    rw [if_neg (by omega)]
    rfl
  · subst hbody
    obtain ⟨rest, e⟩ := telemetryFor_eq s x.owner
    refine ⟨s.telemetryFor x.owner, request_answer ho rfl, leNat_field (a := []) (off := 0) e rfl, leNat_field (a := leBytes 8 _) e rfl,
      leNat_field (a := leBytes 8 _ ++ leBytes 4 _) (by rw [e, List.append_assoc]) rfl, fun i hi => ?_, ?_, ?_⟩
    · rw [e, ← List.append_assoc, ← List.append_assoc, List.getElem?_append_right (by simp), List.getElem?_append_left (by simp [tempBytes_length, hi])]
      simp [State.tempBytes, range_eq_rangeFrom, hi]
    · refine (leNat_field (a := leBytes 8 s.timestamp ++ (leBytes 4 s.mgmt.clockMHz ++ (leBytes 4 s.mgmt.avgPower ++ s.tempBytes)))
        (v := s.reportedCount s.mgmt.corrected.toNat) (by rw [e]; simp only [List.append_assoc]; rfl) rfl).trans (reportedCount_mod s _)
    · refine (leNat_field (a := leBytes 8 s.timestamp ++ (leBytes 4 s.mgmt.clockMHz ++ (leBytes 4 s.mgmt.avgPower ++ (s.tempBytes ++
        leBytes 8 (s.reportedCount s.mgmt.corrected.toNat))))) (v := s.reportedCount s.mgmt.poisonings.toNat)
        (by rw [e]; simp only [List.append_assoc]; rfl) rfl).trans (reportedCount_mod s _)
  · subst hbody
    unfold State.dumpMsg
    rw [hd]
    rfl
  · subst hbody
    obtain ⟨hlen, hmagic⟩ := dump_header d
    refine ⟨d.header, request_answer ho ?_, hlen, hmagic⟩
    unfold State.dumpMsg
    rw [hd]
    dsimp only
    rw [forOwner_of_none hnone, List.take_of_length_le (by omega)]
    rfl

/-! ## CONFIGURATION_RECORD_UPDATE -/

theorem configurationRecordUpdate_accepted {s : State} {r : ConfigRecord} {w : RecordSigner} (h : acceptsRecord s.mgmt.config r w = true) :
    exec (.configurationRecordUpdate r w) s = .next { s with mgmt := { s.mgmt with config := r } } := if_pos h

theorem configurationRecordUpdate_rejected {s : State} {r : ConfigRecord} {w : RecordSigner} (h : acceptsRecord s.mgmt.config r w = false) :
    exec (.configurationRecordUpdate r w) s = .next s := if_neg (by simp [h])

theorem updatesTheRecord : UpdatesTheRecord := by
  intro s r old accepted rejected
  refine ⟨fun h => configurationRecordUpdate_accepted ?_, fun h => configurationRecordUpdate_rejected ?_, configurationRecordUpdate_rejected rfl,
    fun i hi h hr => configurationRecordUpdate_accepted ?_, fun i h => configurationRecordUpdate_rejected ?_⟩
  · exact decide_eq_true h
  · exact decide_eq_false (Nat.not_le.mpr h)
  · have hback : { r with floor := old.floor } = old := by rw [hr]
    simp only [acceptsRecord, Bool.and_eq_true, decide_eq_true_eq]
    exact ⟨⟨hi, h⟩, hback⟩
  · simp only [acceptsRecord, Bool.and_eq_false_iff, decide_eq_false_iff_not]
    exact Or.inl (h.symm.imp Nat.not_lt.mpr Nat.not_le.mpr)

/-- Settles O55: each request is answered as its message's meaning gives it. A kill leaves every bent below it draining, since the bents that end leave
the others as they were; a load writes an image that reads back where it was put. -/
theorem controlServices : Obligations.ControlServices := ⟨createsBents, servesBents, installsKeys, reportsState, updatesTheRecord⟩

end Sys2Proof.Machine
end

section
/-! O1 and O2. Words written out from the tables decode, and the words of every well-formed instruction decode to it (R112 to R125, R179). -/

namespace Sys2Proof.Laws
open Sys2Proof Sys2Proof.Claims

/-- Settles O1: each word is decoded. -/
theorem sampleWordsDecode : Obligations.SampleWordsDecode := by
  unfold Obligations.SampleWordsDecode
  decide

/-- The round trip, row by row; the machine's events have no words. -/
theorem roundTrip (i : Instr) : RoundTrip.Statement i := by
  cases i with
  | add => apply RoundTrip.add | sub => apply RoundTrip.sub | and => apply RoundTrip.and | or => apply RoundTrip.or | xor => apply RoundTrip.xor
  | sll => apply RoundTrip.sll | srl => apply RoundTrip.srl | sra => apply RoundTrip.sra | slt => apply RoundTrip.slt | sltN => apply RoundTrip.sltN
  | min => apply RoundTrip.min | max => apply RoundTrip.max | minN => apply RoundTrip.minN | maxN => apply RoundTrip.maxN | ror => apply RoundTrip.ror
  | clz => apply RoundTrip.clz | ctz => apply RoundTrip.ctz | popc => apply RoundTrip.popc | addW => apply RoundTrip.addW
  | subW => apply RoundTrip.subW | mul => apply RoundTrip.mul | mulh => apply RoundTrip.mulh | mulhN => apply RoundTrip.mulhN
  | div => apply RoundTrip.div | divN => apply RoundTrip.divN | rem => apply RoundTrip.rem | remN => apply RoundTrip.remN
  | addi => apply RoundTrip.addi | andi => apply RoundTrip.andi | ori => apply RoundTrip.ori | xori => apply RoundTrip.xori
  | slti => apply RoundTrip.slti | sltiN => apply RoundTrip.sltiN | slli => apply RoundTrip.slli | srli => apply RoundTrip.srli
  | srai => apply RoundTrip.srai | rori => apply RoundTrip.rori | lui => apply RoundTrip.lui | lpc => apply RoundTrip.lpc
  | faddF64 => apply RoundTrip.faddF64 | fsubF64 => apply RoundTrip.fsubF64 | fmulF64 => apply RoundTrip.fmulF64 | fdivF64 => apply RoundTrip.fdivF64
  | fsqrtF64 => apply RoundTrip.fsqrtF64 | fminF64 => apply RoundTrip.fminF64 | fmaxF64 => apply RoundTrip.fmaxF64 | fmaF64 => apply RoundTrip.fmaF64
  | fabsF64 => apply RoundTrip.fabsF64 | fnegF64 => apply RoundTrip.fnegF64 | feqF64 => apply RoundTrip.feqF64 | fltF64 => apply RoundTrip.fltF64
  | fleF64 => apply RoundTrip.fleF64 | fclassF64 => apply RoundTrip.fclassF64 | faddF32 => apply RoundTrip.faddF32
  | fsubF32 => apply RoundTrip.fsubF32 | fmulF32 => apply RoundTrip.fmulF32 | fdivF32 => apply RoundTrip.fdivF32
  | fsqrtF32 => apply RoundTrip.fsqrtF32 | fminF32 => apply RoundTrip.fminF32 | fmaxF32 => apply RoundTrip.fmaxF32 | fmaF32 => apply RoundTrip.fmaF32
  | fabsF32 => apply RoundTrip.fabsF32 | fnegF32 => apply RoundTrip.fnegF32 | feqF32 => apply RoundTrip.feqF32 | fltF32 => apply RoundTrip.fltF32
  | fleF32 => apply RoundTrip.fleF32 | fclassF32 => apply RoundTrip.fclassF32 | cvtF64I64 => apply RoundTrip.cvtF64I64
  | cvtF64N64 => apply RoundTrip.cvtF64N64 | cvtI64F64 => apply RoundTrip.cvtI64F64 | cvtN64F64 => apply RoundTrip.cvtN64F64
  | cvtF32I64 => apply RoundTrip.cvtF32I64 | cvtF32N64 => apply RoundTrip.cvtF32N64 | cvtI64F32 => apply RoundTrip.cvtI64F32
  | cvtN64F32 => apply RoundTrip.cvtN64F32 | cvtF64F32 => apply RoundTrip.cvtF64F32 | cvtF32F64 => apply RoundTrip.cvtF32F64
  | fmvX => apply RoundTrip.fmvX | fmvF => apply RoundTrip.fmvF | ldB => apply RoundTrip.ldB | ldH => apply RoundTrip.ldH | ldW => apply RoundTrip.ldW
  | ldD => apply RoundTrip.ldD | ldBn => apply RoundTrip.ldBn | ldHn => apply RoundTrip.ldHn | ldWn => apply RoundTrip.ldWn
  | ldFw => apply RoundTrip.ldFw | ldFd => apply RoundTrip.ldFd | ldA16 => apply RoundTrip.ldA16 | ldV16 => apply RoundTrip.ldV16
  | stB => apply RoundTrip.stB | stH => apply RoundTrip.stH | stW => apply RoundTrip.stW | stD => apply RoundTrip.stD | stFw => apply RoundTrip.stFw
  | stFd => apply RoundTrip.stFd | stA16 => apply RoundTrip.stA16 | stV16 => apply RoundTrip.stV16 | amoW => apply RoundTrip.amoW
  | amoD => apply RoundTrip.amoD | casW => apply RoundTrip.casW | casD => apply RoundTrip.casD | beq => apply RoundTrip.beq
  | bne => apply RoundTrip.bne | blt => apply RoundTrip.blt | bge => apply RoundTrip.bge | bltN => apply RoundTrip.bltN | bgeN => apply RoundTrip.bgeN
  | j => apply RoundTrip.j | jal => apply RoundTrip.jal | jalr => apply RoundTrip.jalr | fence => apply RoundTrip.fence | gets => apply RoundTrip.gets
  | puts => apply RoundTrip.puts | mwait => apply RoundTrip.mwait | phreg => apply RoundTrip.phreg | phdrop => apply RoundTrip.phdrop
  | phsig => apply RoundTrip.phsig | phwait => apply RoundTrip.phwait | semsig => apply RoundTrip.semsig | semwait => apply RoundTrip.semwait
  | semwaitS => apply RoundTrip.semwaitS | semrd => apply RoundTrip.semrd | spawn => apply RoundTrip.spawn | join => apply RoundTrip.join
  | yield => apply RoundTrip.yield | exit => apply RoundTrip.exit | bentNew => apply RoundTrip.bentNew | bentKill => apply RoundTrip.bentKill
  | enq => apply RoundTrip.enq | scrbInit => apply RoundTrip.scrbInit | scrbNext => apply RoundTrip.scrbNext | scrbRd => apply RoundTrip.scrbRd
  | qscalePow2 => apply RoundTrip.qscalePow2 | qscaleExact => apply RoundTrip.qscaleExact | est => apply RoundTrip.est | eld => apply RoundTrip.eld
  | trap => apply RoundTrip.trap | tret => apply RoundTrip.tret | ecall => apply RoundTrip.ecall | tlbi => apply RoundTrip.tlbi
  | tlbiAll => apply RoundTrip.tlbiAll | klock => apply RoundTrip.klock | kunlock => apply RoundTrip.kunlock | iflush => apply RoundTrip.iflush
  | tstamp => apply RoundTrip.tstamp | jdrop => apply RoundTrip.jdrop | sld => apply RoundTrip.sld | sst => apply RoundTrip.sst
  | sgth => apply RoundTrip.sgth | ssct => apply RoundTrip.ssct | sred => apply RoundTrip.sred | scpy => apply RoundTrip.scpy
  | sbank => apply RoundTrip.sbank | salloc => apply RoundTrip.salloc | sfree => apply RoundTrip.sfree | seat => apply RoundTrip.seat
  | unseat => apply RoundTrip.unseat | krun => apply RoundTrip.krun | jigGo => apply RoundTrip.jigGo | jigRev => apply RoundTrip.jigRev
  | finSet => apply RoundTrip.finSet | coll => apply RoundTrip.coll | collAbt => apply RoundTrip.collAbt | sillLoad => apply RoundTrip.sillLoad
  | sillGo => apply RoundTrip.sillGo | descLd => apply RoundTrip.descLd | jrnlRd => apply RoundTrip.jrnlRd
  | _ => exact fun h => absurd h (by simp [encode])

/-- Settles O2, by the round trip of each row. -/
theorem encodeDecodeRoundTrip : Obligations.EncodeDecodeRoundTrip := by
  intro i rest hi hwf
  exact roundTrip i (by simpa [hasWords] using hi) hwf rest

end Sys2Proof.Laws
end

section
/-! O3. What the decoder accepts is the encoding of what it answers (R112 to R126, R179). -/

namespace Sys2Proof.Laws
open Sys2Proof Sys2Proof.Claims

/-! ## Words -/

/-- What a decoder answers for a word, if anything, has that word as its encoding. -/
def Encodes (w : Word32) (r : Option Instr) : Prop := ∀ i, r = some i → encode i = [w]

theorem Encodes.none (w : Word32) : Encodes w none := fun _ h => nomatch h

theorem Encodes.some {w : Word32} {i : Instr} (h : encode i = [w]) : Encodes w (some i) := fun _ e => Option.some.inj e ▸ h

theorem Encodes.ite {w : Word32} {c : Prop} [Decidable c] {r q : Option Instr} (hr : c → Encodes w r) (hq : Encodes w q) :
    Encodes w (if c then r else q) := by
  split
  · next h => exact hr h
  · exact hq

/-- Each row of the tables is read from the fields that it is written with (R116 to R125). -/
theorem word_encodes (w : Word32) : Encodes w (Decode.word w) := by
  unfold Decode.word Decode.opInt Decode.opMulDiv Decode.opShift Decode.opFp64 Decode.opFp32 Decode.opFcvt Decode.opState Decode.opWait
    Decode.opPeg Decode.opScribe Decode.opEngine Decode.opSystem
  split
  -- down to the rows that answer an instruction, each with the fields that select it
  all_goals
    repeat' first | exact Encodes.none w | refine Encodes.ite (fun _ => ?_) ?_ | refine Encodes.some ?_
  -- the constant fields are those of the word, and neighbouring fields of a word are one field
  all_goals
    simp only [eq_comm (a := w.extractLsb' _ _)] at *
    simp only [encode, *]
    repeat rw [BitVec.extractLsb'_append_extractLsb'_eq_extractLsb' (by rfl)]
    rw [BitVec.extractLsb'_eq_self]

/-! ## Long instructions -/

theorem eq_dReg {x : BitVec 5} {a : BitVec 4} (h : Decode.dField x = some a) : x = Encode.dReg a := by
  revert x a
  decide

theorem eq_sldFlags {x : BitVec 6} {f : SldMode × Bool} (h : Decode.sldFlags x = some f) : x = Encode.sldFlags f.1 f.2 := by
  unfold Decode.sldFlags at h
  split at h <;> cases h <;> rfl

theorem eq_sstFlags {x : BitVec 6} {q : SstQuant} (h : Decode.sstFlags x = some q) : x = Encode.sstFlags q := by
  have hx : ∀ x : BitVec 6, ∀ q ∈ Decode.sstFlags x, x = Encode.sstFlags q := by decide
  exact hx x q h

theorem eq_space {x : BitVec 6} {sp : LocalSpace} (h : Decode.spaceFlags x = some sp) : x = Encode.space sp := by
  unfold Decode.spaceFlags at h
  split at h <;> cases h <;> rfl

theorem eq_flag {x : BitVec 6} (h : x.extractLsb' 1 5 = 0#5) : x = 0#5 ++ Encode.flag (decide (x.extractLsb' 0 1 = 1#1)) := by
  revert x
  decide

theorem eq_bank {x : BitVec 6} (h : x.extractLsb' 4 2 = 0#2) : x = 0#2 ++ x.extractLsb' 0 4 := by
  revert x
  decide

theorem long1_waitSig (w : Word32) : Encode.long1 (Decode.waitSig w) = w := by
  unfold Encode.long1 Decode.waitSig
  repeat rw [BitVec.extractLsb'_append_extractLsb'_eq_extractLsb' (by rfl)]
  rw [BitVec.extractLsb'_eq_self]

theorem noWait_of_waitSig {w : Word32} (h : Decode.waitSig w = ⟨255, 0, 255, 0⟩) : Encode.noWait = w := by
  rw [← long1_waitSig w, h]
  rfl

theorem long0_fields {w : Word32} (hop : w.extractLsb' 26 6 = 0x3F#6) :
    Encode.long0 (w.extractLsb' 20 6) (w.extractLsb' 15 5) (w.extractLsb' 10 5) (w.extractLsb' 6 4) (w.extractLsb' 0 6) = w := by
  unfold Encode.long0
  rw [← hop]
  repeat rw [BitVec.extractLsb'_append_extractLsb'_eq_extractLsb' (by rfl)]
  rw [BitVec.extractLsb'_eq_self]

/-- The words of a long instruction are those that its fields make (R113). -/
theorem long_words {w0 w1 v : Word32} {cmd flg : BitVec 6} {xa xb : BitVec 5} {c : BitVec 4} (hop : w0.extractLsb' 26 6 = 0x3F#6)
    (hcmd : w0.extractLsb' 20 6 = cmd) (ha : w0.extractLsb' 15 5 = xa) (hb : w0.extractLsb' 10 5 = xb) (hc : w0.extractLsb' 6 4 = c)
    (hf : w0.extractLsb' 0 6 = flg) (hv : v = w1) : [Encode.long0 cmd xa xb c flg, v] = [w0, w1] := by
  subst hcmd ha hb hc hf hv
  rw [long0_fields hop]

theorem long_encodes {w0 w1 : Word32} (hop : w0.extractLsb' 26 6 = 0x3F#6) {i : Instr} (h : Decode.long w0 w1 = some i) : encode i = [w0, w1] := by
  unfold Decode.long at h
  dsimp only at h
  have hw := long1_waitSig w1
  split at h
  all_goals
    simp only [Option.bind_eq_bind, Option.bind_eq_some_iff, Option.ite_none_right_eq_some, Option.some.injEq, reduceCtorEq] at h
  case h_1 hcmd =>
    obtain ⟨a, ha, b, hb, f, hf, rfl⟩ := h
    exact long_words hop hcmd (eq_dReg ha) (eq_dReg hb) rfl (eq_sldFlags hf) hw
  case h_2 hcmd =>
    obtain ⟨a, ha, b, hb, q, hq, rfl⟩ := h
    exact long_words hop hcmd (eq_dReg ha) (eq_dReg hb) rfl (eq_sstFlags hq) hw
  case h_3 hcmd | h_5 hcmd =>
    obtain ⟨a, ha, b, hb, hf, rfl⟩ := h
    exact long_words hop hcmd (eq_dReg ha) (eq_dReg hb) rfl hf hw
  case h_4 hcmd =>
    obtain ⟨a, ha, b, hb, hf, rfl⟩ := h
    exact long_words hop hcmd (eq_dReg ha) (eq_dReg hb) rfl (eq_flag hf) hw
  case h_6 hcmd =>
    obtain ⟨a, ha, b, hb, ⟨hf, hc⟩, rfl⟩ := h
    exact long_words hop hcmd (eq_dReg ha) (eq_dReg hb) hc hf hw
  case h_7 hcmd =>
    obtain ⟨⟨hb, hc, hf⟩, rfl⟩ := h
    exact long_words hop hcmd rfl hb hc (eq_bank hf) hw
  case h_8 hcmd | h_9 hcmd =>
    obtain ⟨sp, hsp, hc, rfl⟩ := h
    exact long_words hop hcmd rfl rfl hc (eq_space hsp) hw
  case h_10 hcmd =>
    obtain ⟨a, ha, ⟨hb, hc, hf⟩, rfl⟩ := h
    exact long_words hop hcmd (eq_dReg ha) hb hc (eq_flag hf) hw
  case h_11 hcmd =>
    obtain ⟨a, ha, ⟨hb, hc, hf⟩, rfl⟩ := h
    exact long_words hop hcmd (eq_dReg ha) hb hc hf hw
  case h_12 hcmd | h_16 hcmd | h_17 hcmd =>
    obtain ⟨⟨hb, hf⟩, rfl⟩ := h
    exact long_words hop hcmd rfl hb rfl hf hw
  case h_13 hcmd | h_14 hcmd =>
    obtain ⟨⟨ha, hb, hc, hf⟩, rfl⟩ := h
    exact long_words hop hcmd ha hb hc hf hw
  case h_15 hcmd | h_19 hcmd =>
    obtain ⟨⟨hc, hf⟩, rfl⟩ := h
    exact long_words hop hcmd rfl rfl hc hf hw
  case h_18 hcmd =>
    obtain ⟨hf, rfl⟩ := h
    exact long_words hop hcmd rfl rfl rfl hf hw
  case h_20 hcmd =>
    obtain ⟨a, ha, ⟨hf, hws⟩, rfl⟩ := h
    exact long_words hop hcmd (eq_dReg ha) rfl rfl hf (noWait_of_waitSig hws)
  case h_21 hcmd =>
    obtain ⟨⟨hc, hf, hws⟩, rfl⟩ := h
    exact long_words hop hcmd rfl rfl hc hf (noWait_of_waitSig hws)

/-! ## Bytes -/

/-- Four bytes are those of the word that they make (R112). -/
theorem bytesOfWords_word32 (b0 b1 b2 b3 : Byte) (t : List Word32) :
    bytesOfWords (Decode.word32 b0 b1 b2 b3 :: t) = b0 :: b1 :: b2 :: b3 :: bytesOfWords t := by
  have hn : (Decode.word32 b0 b1 b2 b3).toNat = ((b3.toNat * 2 ^ 8 + b2.toNat) * 2 ^ 8 + b1.toNat) * 2 ^ 8 + b0.toNat := by
    rw [Decode.word32, append_toNat, append_toNat, append_toNat]
  rw [bytesOfWords, field_eq _ 0 8 b0 (by omega), field_eq _ 8 8 b1 (by omega), field_eq _ 16 8 b2 (by omega), field_eq _ 24 8 b3 (by omega)]

theorem accept_ok {r : Option Instr} {i : Instr} (h : Decode.accept r = .ok i) : r = some i ∧ i.wf = true := by
  cases r with
  | none => cases h
  | some j =>
    unfold Decode.accept at h
    dsimp only at h
    split at h
    · next hwf => cases h; exact ⟨rfl, hwf⟩
    · cases h

/-- What the decoder accepts stands at the head of the bytes in one word or in two (R112, R126). -/
theorem bytes_ok {bs rest : List Byte} {i : Instr} (h : Decode.bytes bs = .ok (i, rest)) : i.wf = true ∧
    ((∃ w, bs = bytesOfWords [w] ++ rest ∧ Decode.isLong w = false ∧ Decode.word w = some i) ∨
      ∃ w0 w1, bs = bytesOfWords [w0, w1] ++ rest ∧ Decode.isLong w0 = true ∧ Decode.long w0 w1 = some i) := by
  unfold Decode.bytes at h
  split at h
  case h_1 b0 b1 b2 b3 t =>
    split at h
    · next hlong =>
      split at h
      · next c0 c1 c2 c3 t' =>
        split at h
        · next j hj =>
          cases h
          obtain ⟨hdec, hwf⟩ := accept_ok hj
          exact ⟨hwf, .inr ⟨_, _, by rw [bytesOfWords_word32, bytesOfWords_word32]; rfl, hlong, hdec⟩⟩
        · cases h
      · cases h
    · next hshort =>
      split at h
      · next j hj =>
        cases h
        obtain ⟨hdec, hwf⟩ := accept_ok hj
        exact ⟨hwf, .inl ⟨_, by rw [bytesOfWords_word32]; rfl, Bool.eq_false_iff.mpr hshort, hdec⟩⟩
      · cases h
  case h_2 => cases h

/-- Settles O3: the decoder reads one word or two, and each row that accepts them is read from the fields that it is written with. -/
theorem decodedBytesAreItsWords : Obligations.DecodedBytesAreItsWords := by
  intro bs rest i h
  obtain ⟨hwf, ⟨w, rfl, -, hw⟩ | ⟨w0, w1, rfl, hlong, hw⟩⟩ := bytes_ok h
  · have henc := word_encodes w i hw
    exact ⟨by simp [hasWords, henc], hwf, by rw [henc]⟩
  · have henc := long_encodes (of_decide_eq_true hlong) hw
    exact ⟨by simp [hasWords, henc], hwf, by rw [henc]⟩

end Sys2Proof.Laws
end

section
/-! O8 and O9. Writes of an x register, branches and jumps (R107, R134, R140). -/

namespace Sys2Proof.Machine
open Sys2Proof Sys2Proof.Claims

/-! ## A register written and the pc moved -/

@[simp] theorem me_wentTo (s : State) (pc : Word) : (wentTo s pc).me = { s.me with pc := pc } := s.me_setMe _

/-- Settles O8: what reads of the machine find after the write of one core's register file. -/
theorem registerWriteFrame : Obligations.RegisterWriteFrame := by
  intro s d v t
  have hme : t.me = _ := me_wroteX s d v
  refine ⟨fun hd => ?_, State.getX_zero t, fun r hr => ?_, fun r => ?_, ?_, ?_, ?_, ?_, ?_, fun c hc => s.core_setMe_other c _ hc,
    State.byteAt_congr rfl rfl rfl rfl⟩
  case refine_1 => rw [getX_wroteX, if_pos ⟨rfl, hd⟩]
  case refine_2 => rw [getX_wroteX, if_neg fun h => hr h.1]
  case refine_3 => rw [State.getF, hme]; rfl
  case refine_6 => rw [State.pc, hme]; rfl
  all_goals rw [hme]

/-! ## Branches and jumps -/

theorem skip_eq_passed (s : State) : s.skip = passed s := rfl

theorem setPc_eq_wentTo (s : State) (pc : Word) : s.setPc pc = wentTo s pc := rfl

theorem setPc_setPc (s : State) (a b : Word) : (s.setPc a).setPc b = s.setPc b := by
  simp only [State.setPc, State.me_setMe, State.setMe_setMe]

/-- A jump after a write of a register goes from where the write has moved the pc. -/
theorem setPc_putX (s : State) (d : RegNo) (v pc : Word) : (s.putX d v).setPc pc = wentTo (wroteX s d v) pc := by
  rw [← skip_putX, ← setPc_eq_wentTo, State.skip, setPc_setPc]

theorem brTarget_eq (pc : Word) (o : BitVec 16) : brTarget pc o = pc + BitVec.ofInt 64 (4 * o.toInt) := by
  rw [brTarget, BitVec.ofInt_mul]
  rfl

theorem jTarget_eq (pc : Word) (o : BitVec 26) : jTarget pc o = pc + BitVec.ofInt 64 (4 * o.toInt) := by
  rw [jTarget, BitVec.ofInt_mul]
  rfl

theorem branch_eq_wentTo (s : State) {c taken : Bool} (h : c = taken) (o : BitVec 16) :
    s.branch c o = .next (wentTo s (if taken then s.pc + BitVec.ofInt 64 (4 * o.toInt) else s.pc + 4)) := by
  rw [State.branch, brTarget_eq, h]
  rfl

theorem not_slt_eq (a b : Word) : (!a.slt b) = decide (b.toInt ≤ a.toInt) := by
  rw [Bool.eq_iff_iff, Bool.not_eq_true', Bool.eq_false_iff, ne_eq, BitVec.slt_iff_toInt_lt, Int.not_lt, decide_eq_true_eq]

theorem not_ult_eq (a b : Word) : (!a.ult b) = decide (b.toNat ≤ a.toNat) := by
  rw [Bool.eq_iff_iff, Bool.not_eq_true', Bool.eq_false_iff, ne_eq, BitVec.ult_iff_lt, BitVec.lt_def, Nat.not_lt, decide_eq_true_eq]

theorem low_bits_ne_zero (t : Word) : t.extractLsb' 0 2 ≠ 0 ↔ t.toNat % 4 ≠ 0 := by
  rw [ne_eq, ← BitVec.toNat_inj, BitVec.extractLsb'_toNat]
  simp

theorem branches (s : State) (i : Instr) (taken : Bool) (off : Int) (h : branchOf s i = some (taken, off)) :
    exec i s = .next (wentTo s (if taken then s.pc + BitVec.ofInt 64 (4 * off) else s.pc + 4)) := by
  unfold branchOf at h
  split at h <;> cases h
  case h_1 a b o => exact branch_eq_wentTo s rfl o
  case h_2 a b o => exact branch_eq_wentTo s (decide_not (p := s.getX a = s.getX b)).symm o
  case h_3 a b o => exact branch_eq_wentTo s rfl o
  case h_4 a b o => exact branch_eq_wentTo s (not_slt_eq _ _) o
  case h_5 a b o => exact branch_eq_wentTo s rfl o
  case h_6 a b o => exact branch_eq_wentTo s (not_ult_eq _ _) o
  case h_7 o => exact congrArg (fun pc => Host.Outcome.next (wentTo s pc)) (jTarget_eq s.pc o)

theorem jumpsAndLinks (s : State) (o : BitVec 26) :
    exec (.jal o) s = .next (wentTo (wroteX s 31 (s.pc + 4)) (s.pc + BitVec.ofInt 64 (4 * o.toInt))) := by
  change Host.Outcome.next ((s.putX 31 (s.pc + 4)).setPc (jTarget s.pc o)) = _
  rw [jTarget_eq, setPc_putX]

theorem jumpsToRegister (s : State) (d a : RegNo) (i : BitVec 16) :
    let t := s.getX a + BitVec.ofInt 64 i.toInt
    (t.toNat % 4 = 0 → exec (.jalr d a i) s = .next (wentTo (wroteX s d (s.pc + 4)) t)) ∧
      (t.toNat % 4 ≠ 0 → CanTrap s → exec (.jalr d a i) s = .next (inHandler s 0x05 0 0)) := by
  intro t
  have hx : exec (.jalr d a i) s = if t.extractLsb' 0 2 ≠ 0 then s.trap 0x05 else .next ((s.putX d (s.pc + 4)).setPc t) := rfl
  rw [hx]
  refine ⟨fun h => ?_, fun h htrap => ?_⟩
  · rw [if_neg fun h' => (low_bits_ne_zero t).mp h' h, setPc_putX]
  · rw [if_pos ((low_bits_ne_zero t).mpr h), trap_eq_inHandler htrap (by decide)]

/-- Settles O9: a branch by its comparison, JAL and JALR by their link and target. -/
theorem controlTransfers : Obligations.ControlTransfers := ⟨branches, jumpsAndLinks, jumpsToRegister⟩

end Sys2Proof.Machine
end

section
/-! SUPPORT for O10, O11 and O12. The conditions, rounding and operands of the floating-point instructions (R55, R62, R110, R141). -/

namespace Sys2Proof.Machine
open Sys2Proof Sys2Proof.Claims

/-! ## Conditions and their flags -/

theorem flagBits_eq (g : FFlags) : flagBits g = g.bits.zeroExtend 64 := by
  obtain ⟨_ | _, _ | _, _ | _, _ | _, _ | _⟩ := g <;> rfl

/-- A mask of five bits selects from EN, five bits at bit 8 (R110). -/
theorem enables_eq (csr : Word) (x : BitVec 5) : csr >>> 8 &&& x.zeroExtend 64 = (csr.extractLsb' 8 5 &&& x).zeroExtend 64 := by
  ext i hi
  simp only [BitVec.truncate_eq_setWidth, BitVec.getElem_and, BitVec.getElem_ushiftRight, BitVec.getElem_setWidth, BitVec.getLsbD_and,
    BitVec.getLsbD_extractLsb']
  by_cases h : i < 5
  · simp [h]
  · simp [BitVec.getLsbD_of_ge x i (by omega)]

theorem csrTraps_eq (csr : Word) (g : FFlags) : csrTraps csr g = enabled csr g := by
  have h (y : BitVec 5) : (y.zeroExtend 64 != 0) = (y != 0) := by
    revert y
    decide
  rw [enabled, flagBits_eq, enables_eq, h, csrTraps]

theorem canTrap_withCsr {s : State} (h : CanTrap s) (csr : Word) : CanTrap (withCsr s csr) := by
  have hme : (withCsr s csr).me = { s.me with regs := { s.me.regs with fpCsr := csr } } := s.me_setMe _
  have hbent : (withCsr s csr).myBent = s.myBent := by
    rw [State.myBent, State.peg?, hme]
    rfl
  rw [CanTrap, hbent, hme]
  exact h

/-- Conditions none of which is enabled are recorded, and the instruction goes on (R110). -/
theorem fpFlags_disabled {s : State} {g : FFlags} (h : enabled s.me.regs.fpCsr g = false) (k : State → Result) :
    s.fpFlags g k = k (withCsr s (s.me.regs.fpCsr ||| flagBits g)) := by
  rw [← csrTraps_eq] at h
  rw [flagBits_eq]
  simp only [State.fpFlags, h]
  rfl

/-- An enabled condition is recorded and traps (R110, R134). -/
theorem fpFlags_enabled {s : State} {g : FFlags} (h : enabled s.me.regs.fpCsr g = true) (htrap : CanTrap s) (k : State → Result) :
    s.fpFlags g k = .next (inHandler (withCsr s (s.me.regs.fpCsr ||| flagBits g)) 0x0F 0 0) := by
  rw [← csrTraps_eq] at h
  rw [flagBits_eq]
  simp only [State.fpFlags, h]
  exact trap_eq_inHandler (canTrap_withCsr htrap _) (by decide)

/-- What an instruction leaves that raises conditions, none enabled, and writes an f register. -/
theorem retF_withCsr (s : State) (csr : Word) (d : RegNo) (v : Word) : (withCsr s csr).retF d v = .next (wroteF s d v csr) := by
  have hme : (withCsr s csr).me = { s.me with regs := { s.me.regs with fpCsr := csr } } := s.me_setMe _
  rw [State.retF_eq]
  simp only [State.skip, State.setPc, State.putF, State.setMe_setMe, State.me_setMe, State.pc, Core.putF, hme]
  simp only [withCsr, wroteF, State.setMe, State.setCore, AMap.put_put]

theorem enabled_none (csr : Word) : enabled csr {} = false := by
  rw [enabled, show flagBits {} = 0#64 from rfl, BitVec.and_zero]
  rfl

/-! ## Results -/

/-- An instruction that raises conditions and writes an f register, unless one of them is enabled. -/
def State.fpDelivers (s : State) (d : RegNo) (r : Word × FFlags) : Result := s.fpFlags r.2 (fun t => t.retF d r.1)

/-- One that writes an x register. -/
def State.fpTells (s : State) (d : RegNo) (r : Word × FFlags) : Result := s.fpFlags r.2 (fun t => t.retX d r.1)

theorem fpDelivers_none (s : State) (d : RegNo) (v : Word) : s.fpDelivers d (v, {}) = s.retF d v := by
  have hcsr : s.me.regs.fpCsr ||| flagBits {} = s.me.regs.fpCsr := BitVec.or_zero
  rw [State.fpDelivers, fpFlags_disabled (enabled_none _), hcsr, retF_withCsr, State.retF_eq]
  simp only [State.skip, State.setPc, State.putF, State.setMe_setMe, State.me_setMe, State.pc, Core.putF]
  rfl

theorem fpTells_none (s : State) (d : RegNo) (v : Word) : s.fpTells d (v, {}) = s.retX d v := by
  have hcsr : s.me.regs.fpCsr ||| flagBits {} = s.me.regs.fpCsr := BitVec.or_zero
  have hme (csr : Word) : (withCsr s csr).me = { s.me with regs := { s.me.regs with fpCsr := csr } } := s.me_setMe _
  rw [State.fpTells, fpFlags_disabled (enabled_none _), hcsr, retX_eq_wroteX, retX_eq_wroteX, wroteX, hme]
  simp only [withCsr, AMap.put_put]
  rfl

/-! ## Rounding -/

/-- The rounding mode of an instruction (R55). -/
theorem coreRm_eq {s : State} {m : BitVec 2} (h : rmOk m = true) : s.coreRm m = roundingOf s m := by
  have hm : m = 0 ∨ m = 1 ∨ m = 3 := by
    revert m
    decide
  rcases hm with rfl | rfl | rfl
  · rfl
  · rfl
  · have hd : ∀ x : BitVec 2, (match RMode.ofField 3 x with
        | .sr => .rne
        | r => r) = if x.toNat = 1 then RMode.rz else .rne := by decide
    refine (hd (s.me.regs.rndDef.extractLsb' 0 2)).trans ?_
    simp [roundingOf]

theorem fpResult_eq {s : State} {m : BitVec 2} (hm : rmOk m = true) (f : Fmt) (d : RegNo) (g : FFlags) (v : FVal) :
    s.fpResult f m d g v = s.fpDelivers d (delivered s f m g v) := by
  simp only [State.fpResult, State.fpDelivers, delivered, coreRm_eq hm]
  rfl

/-! ## Operands -/

/-- The operand of a format in an f register (R141). -/
def State.fAt (s : State) (f : Fmt) (r : RegNo) : FVal := fOperand f (s.getF r)

theorem f64At_eq (s : State) (r : RegNo) : f64At s r = s.fAt .f64 r := by
  rw [f64At, State.fAt, fOperand]
  exact congrArg _ (Nat.mod_eq_of_lt (s.getF r).isLt).symm

theorem f32At_eq (s : State) (r : RegNo) : f32At s r = s.fAt .f32 r := rfl

/-! ## Sign bits -/

/-- The low `n` bits of a number with a bit above them. -/
theorem testBit_signed (x n i : Nat) (b : Bool) :
    (x % 2 ^ n + if b then 2 ^ n else 0).testBit i = if i = n then b else decide (i < n) && x.testBit i := by
  have hlow : x % 2 ^ n < 2 ^ n := Nat.mod_lt _ (Nat.two_pow_pos n)
  have e : (x % 2 ^ n + if b then 2 ^ n else 0) = (if b then 2 ^ n else 0) ||| x % 2 ^ n := by
    cases b with
    | false => simp
    | true => simpa [Nat.add_comm] using Nat.two_pow_add_eq_or_of_lt hlow 1
  rw [e, Nat.testBit_or, Nat.testBit_mod_two_pow]
  by_cases h : i = n
  · subst h
    cases b <;> simp
  · cases b <;> simp [h, Ne.symm h]

/-- A number of `n` + 1 bits with its top bit cleared (R142). -/
theorem clear_sign (w : Word) (n : Nat) :
    BitVec.ofNat 64 (w.toNat % 2 ^ (n + 1) % 2 ^ n + if false then 2 ^ n else 0) = w &&& BitVec.ofNat 64 (2 ^ n - 1) := by
  apply BitVec.eq_of_getLsbD_eq
  intro i hi
  simp only [BitVec.getLsbD_ofNat, BitVec.getLsbD_and, testBit_signed, Nat.testBit_mod_two_pow, Nat.testBit_two_pow_sub_one]
  rcases Nat.lt_trichotomy i n with h | h | h
  · simp [h, Nat.ne_of_lt h, hi, BitVec.getLsbD]
    omega
  · simp [h]
  · simp [Nat.ne_of_gt h, Nat.not_lt_of_gt h]

theorem invert_sign (w : Word) (n : Nat) :
    BitVec.ofNat 64 (w.toNat % 2 ^ (n + 1) % 2 ^ n + if !(w.toNat % 2 ^ (n + 1)).testBit n then 2 ^ n else 0) =
      (w &&& BitVec.ofNat 64 (2 ^ (n + 1) - 1)) ^^^ BitVec.ofNat 64 (2 ^ n) := by
  apply BitVec.eq_of_getLsbD_eq
  intro i hi
  simp only [BitVec.getLsbD_ofNat, BitVec.getLsbD_and, BitVec.getLsbD_xor, testBit_signed, Nat.testBit_mod_two_pow,
    Nat.testBit_two_pow_sub_one, Nat.testBit_two_pow]
  rcases Nat.lt_trichotomy i n with h | h | h
  · simp [h, Nat.ne_of_lt h, Nat.ne_of_gt h, Nat.lt_succ_of_lt h, hi, BitVec.getLsbD]
  · subst h
    cases hw : w.toNat.testBit i <;> simp [hw, hi, BitVec.getLsbD]
  · simp [Nat.ne_of_gt h, Nat.ne_of_lt h, Nat.not_lt_of_gt h, show ¬ i < n + 1 by omega]


end Sys2Proof.Machine
end

section
/-! O10, O11 and O12. Every floating-point instruction as the conditions that it raises and the register that it writes (R110, R142 to R144). -/

namespace Sys2Proof.Machine
open Sys2Proof Sys2Proof.Claims

/-! ## Arithmetic -/

section
variable (s : State) (f : Fmt) (d a b : RegNo) {m : BitVec 2} (hm : rmOk m = true)

include hm

theorem fpArith_eq (op : FVal → FVal → FVal) : s.fpArith f d a b m op =
    s.fpDelivers d (delivered s f m (arithFlags [s.fAt f a, s.fAt f b] (op (s.fAt f a) (s.fAt f b))) (op (s.fAt f a) (s.fAt f b))) :=
  fpResult_eq hm f d _ _

theorem fpSqrt_eq : s.fpSqrt f d a m = s.fpDelivers d (delivered s f m (arithFlags [s.fAt f a] (s.fAt f a).sqrt) (s.fAt f a).sqrt) :=
  fpResult_eq hm f d _ _

theorem fpFma_eq : s.fpFma f d a b m =
    let x := s.fAt f a; let y := s.fAt f b; let z := s.fAt f d
    s.fpDelivers d (delivered s f m (eitherFlag (arithFlags [x, y, z] (x.fma y z))
      { invalid := (x.isZero && y.isInf) || (x.isInf && y.isZero) }) (x.fma y z)) :=
  fpResult_eq hm f d _ _

theorem fpDiv_eq : s.fpDiv f d a b m =
    let x := s.fAt f a; let y := s.fAt f b
    s.fpDelivers d (delivered s f m (eitherFlag (arithFlags [x, y] (x.div y)) { divZero := y.isZero && !(x.isZero || x.isInf || x.isNaN) })
      (x.div y)) := by
  simp only [Bool.not_or, ← Bool.and_assoc]
  exact fpResult_eq hm f d _ _

end

theorem fpMinMax_eq (s : State) (f : Fmt) (d a b : RegNo) (op : FVal → FVal → FVal) : s.fpMinMax f d a b op =
    s.fpDelivers d (BitVec.ofNat 64 (f.deliver .rne false 0 (op (s.fAt f a) (s.fAt f b))).1,
      { invalid := (s.fAt f a).isSNaN || (s.fAt f b).isSNaN }) := by
  rw [← Bool.or_false (s.fAt f b).isSNaN]
  rfl

theorem fpAbs_eq (s : State) (f : Fmt) (d a : RegNo) :
    s.fpSign f d a false = s.fpDelivers d (s.getF a &&& BitVec.ofNat 64 (2 ^ f.signBit - 1), {}) := by
  rw [fpDelivers_none, ← clear_sign]
  rfl

theorem fpNeg_eq (s : State) (f : Fmt) (d a : RegNo) : s.fpSign f d a true =
    s.fpDelivers d ((s.getF a &&& BitVec.ofNat 64 (2 ^ (f.signBit + 1) - 1)) ^^^ BitVec.ofNat 64 (2 ^ f.signBit), {}) := by
  rw [fpDelivers_none, ← invert_sign]
  rfl

/-- The arithmetic operations, and what each delivers (R142). -/
theorem exec_arithOf {s : State} {i : Instr} {d : RegNo} {r : Word × FFlags} (hwf : i.wf = true) (h : arithOf s i = some (d, r)) :
    exec i s = s.fpDelivers d r := by
  unfold arithOf at h
  simp only [f64At_eq, f32At_eq] at h
  split at h <;> cases h
  case h_1 a b m => exact fpArith_eq s .f64 d a b hwf FVal.add
  case h_2 a b m => exact fpArith_eq s .f64 d a b hwf FVal.sub
  case h_3 a b m => exact fpArith_eq s .f64 d a b hwf FVal.mul
  case h_4 a b m => exact fpDiv_eq s .f64 d a b hwf
  case h_5 a m => exact fpSqrt_eq s .f64 d a hwf
  case h_6 a b m => exact fpFma_eq s .f64 d a b hwf
  case h_7 a b m => exact fpArith_eq s .f32 d a b hwf FVal.add
  case h_8 a b m => exact fpArith_eq s .f32 d a b hwf FVal.sub
  case h_9 a b m => exact fpArith_eq s .f32 d a b hwf FVal.mul
  case h_10 a b m => exact fpDiv_eq s .f32 d a b hwf
  case h_11 a m => exact fpSqrt_eq s .f32 d a hwf
  case h_12 a b m => exact fpFma_eq s .f32 d a b hwf
  case h_13 a => exact fpAbs_eq s .f64 d a
  case h_14 a =>
    have e : s.getF a &&& BitVec.ofNat 64 (2 ^ (Fmt.f64.signBit + 1) - 1) = s.getF a := BitVec.and_allOnes
    exact (fpNeg_eq s .f64 d a).trans (by rw [e]; rfl)
  case h_15 a => exact fpAbs_eq s .f32 d a
  case h_16 a => exact fpNeg_eq s .f32 d a

theorem exec_minMaxOf {s : State} {i : Instr} {d : RegNo} {r : Word × FFlags} (h : minMaxOf s i = some (d, r)) :
    exec i s = s.fpDelivers d r := by
  unfold minMaxOf at h
  simp only [f64At_eq, f32At_eq] at h
  split at h <;> cases h
  case h_1 a b => exact fpMinMax_eq s .f64 d a b FVal.min
  case h_2 a b => exact fpMinMax_eq s .f64 d a b FVal.max
  case h_3 a b => exact fpMinMax_eq s .f32 d a b FVal.min
  case h_4 a b => exact fpMinMax_eq s .f32 d a b FVal.max

/-! ## Comparisons and classification -/

theorem boolWord_eq_bit {b : Bool} {p : Prop} [Decidable p] (h : b = true ↔ p) : boolWord b = bit p := by
  simp only [boolWord, bit, h]

theorem fpEq_eq (s : State) (f : Fmt) (d a b : RegNo) :
    let x := s.fAt f a; let y := s.fAt f b
    s.fpEq f d a b = s.fpTells d (bit (x.isNaN = false ∧ y.isNaN = false ∧ x.lt y = false ∧ y.lt x = false),
      { invalid := x.isSNaN || y.isSNaN }) := by
  intro x y
  have h : x.feq y = true ↔ x.isNaN = false ∧ y.isNaN = false ∧ x.lt y = false ∧ y.lt x = false := by simp [FVal.feq, and_assoc]
  rw [← boolWord_eq_bit h, ← Bool.or_false y.isSNaN]
  rfl

/-- A comparison with a NaN is false (R143). -/
theorem lt_of_isNaN {x y : FVal} (h : (x.isNaN || y.isNaN) = true) : x.lt y = false := by
  cases x with
  | nan => rfl
  | inf | fin => cases y with
    | nan => rfl
    | inf | fin => cases h

theorem fpLt_eq (s : State) (f : Fmt) (d a b : RegNo) :
    let x := s.fAt f a; let y := s.fAt f b
    s.fpCmp f d a b FVal.lt = s.fpTells d (bit (x.lt y = true), { invalid := x.isNaN || y.isNaN }) := by
  intro x y
  have h : (!(x.isNaN || y.isNaN) && x.lt y) = true ↔ x.lt y = true := by
    cases hn : x.isNaN || y.isNaN with
    | false => rfl
    | true => rw [lt_of_isNaN hn]; rfl
  rw [← boolWord_eq_bit h]
  rfl

theorem fpLe_eq (s : State) (f : Fmt) (d a b : RegNo) :
    let x := s.fAt f a; let y := s.fAt f b
    s.fpCmp f d a b (fun x y => !y.lt x) = s.fpTells d (bit (x.isNaN = false ∧ y.isNaN = false ∧ y.lt x = false),
      { invalid := x.isNaN || y.isNaN }) := by
  intro x y
  have h : (!(x.isNaN || y.isNaN) && !y.lt x) = true ↔ x.isNaN = false ∧ y.isNaN = false ∧ y.lt x = false := by simp [and_assoc]
  rw [← boolWord_eq_bit h]
  rfl

theorem testBit_top {x k : Nat} (h : x < 2 ^ (k + 1)) : x.testBit k = decide (2 ^ k ≤ x) := by
  have hq : x / 2 ^ k < 2 := Nat.div_lt_of_lt_mul (by rwa [Nat.pow_succ] at h)
  rw [Nat.testBit_eq_decide_div_mod_eq, Nat.mod_eq_of_lt hq, decide_eq_decide, ← Nat.one_le_div_iff (Nat.two_pow_pos k)]
  omega

/-- The class of a value by its exponent and fraction fields (R143). -/
theorem fclassOf_eq (f : Fmt) (he : 0 < f.ebits) (hm : 0 < f.mbits) (w : Word) :
    fclassOf f w = classCode f.ebits f.mbits (w.toNat % 2 ^ (f.signBit + 1)) := by
  generalize hx : w.toNat % 2 ^ (f.signBit + 1) = x
  have htop : x / 2 ^ f.mbits % 2 ^ f.ebits < 2 ^ f.ebits := Nat.mod_lt _ (Nat.two_pow_pos _)
  have hpos : 1 < 2 ^ f.ebits := Nat.one_lt_two_pow he.ne'
  have hfrac : x % 2 ^ f.mbits < 2 ^ (f.mbits - 1 + 1) := by
    rw [Nat.sub_add_cancel hm]
    exact Nat.mod_lt _ (Nat.two_pow_pos _)
  have hsign : (if x.testBit f.signBit then 1 else 0) = x / 2 ^ (f.ebits + f.mbits) % 2 := by
    rw [Nat.testBit_eq_decide_div_mod_eq, Fmt.signBit]
    rcases Nat.mod_two_eq_zero_or_one (x / 2 ^ (f.ebits + f.mbits)) with h | h <;> simp [h]
  simp only [fclassOf, classCode, hx, hsign, testBit_top hfrac, decide_eq_true_eq]
  congr 2
  split_ifs <;> omega

/-- A class is a number without conditions. -/
theorem fclass_eq (s : State) (f : Fmt) (he : 0 < f.ebits) (hm : 0 < f.mbits) (d a : RegNo) : s.retX d (BitVec.ofNat 64 (fclassOf f (s.getF a))) =
    s.fpTells d (BitVec.ofNat 64 (classCode f.ebits f.mbits ((s.getF a).toNat % 2 ^ (f.signBit + 1))), {}) := by
  rw [fpTells_none, fclassOf_eq f he hm]

theorem exec_compareOf {s : State} {i : Instr} {d : RegNo} {r : Word × FFlags} (h : compareOf s i = some (d, r)) :
    exec i s = s.fpTells d r := by
  unfold compareOf at h
  simp only [f64At_eq, f32At_eq] at h
  split at h <;> cases h
  case h_1 a b => exact fpEq_eq s .f64 d a b
  case h_2 a b => exact fpLt_eq s .f64 d a b
  case h_3 a b => exact fpLe_eq s .f64 d a b
  case h_4 a =>
    have e : (s.getF a).toNat % 2 ^ (Fmt.f64.signBit + 1) = (s.getF a).toNat := Nat.mod_eq_of_lt (s.getF a).isLt
    exact (fclass_eq s .f64 (by decide) (by decide) d a).trans (by rw [e]; rfl)
  case h_5 a b => exact fpEq_eq s .f32 d a b
  case h_6 a b => exact fpLt_eq s .f32 d a b
  case h_7 a b => exact fpLe_eq s .f32 d a b
  case h_8 a => exact fclass_eq s .f32 (by decide) (by decide) d a

/-! ## Conversions -/

/-- A conversion clamps, and is inexact only inside the range (R144). -/
theorem toInt_eq {s : State} {m : BitVec 2} (hm : rmOk m = true) (f : Fmt) (d a : RegNo) (uns : Bool) :
    s.toInt f d a m uns = s.fpTells d (toIntOf s m (intMin 64 uns) (intMax 64 uns) (s.fAt f a)) := by
  simp only [State.toInt, coreRm_eq hm]
  rw [← State.fAt]
  cases s.fAt f a with
  | nan neg frac => rfl
  | inf neg => rfl
  | fin n c e =>
    simp only [toIntOf, Bool.or_eq_true, decide_eq_true_eq]
    split
    · rfl
    · next h =>
      obtain ⟨hlo, hhi⟩ := not_or.mp h
      rw [clampTo, if_neg hlo, if_neg hhi]
      rfl

theorem exec_cvtFOf {s : State} {i : Instr} {d : RegNo} {r : Word × FFlags} (hwf : i.wf = true) (h : cvtFOf s i = some (d, r)) :
    exec i s = s.fpDelivers d r := by
  unfold cvtFOf at h
  simp only [f64At_eq, f32At_eq] at h
  split at h <;> cases h
  case h_1 a m => exact fpResult_eq hwf .f64 d _ _
  case h_2 a m => exact fpResult_eq hwf .f64 d _ _
  case h_3 a m => exact fpResult_eq hwf .f32 d _ _
  case h_4 a m => exact fpResult_eq hwf .f32 d _ _
  case h_5 a => exact (fpResult_eq (m := 0) rfl .f64 d _ _).trans (by rw [← Bool.or_false (s.fAt .f32 a).isSNaN]; rfl)
  case h_6 a m => exact (fpResult_eq hwf .f32 d _ _).trans (by rw [← Bool.or_false (s.fAt .f64 a).isSNaN]; rfl)
  case h_7 a => exact (fpDelivers_none s d _).symm

theorem exec_cvtXOf {s : State} {i : Instr} {d : RegNo} {r : Word × FFlags} (hwf : i.wf = true) (h : cvtXOf s i = some (d, r)) :
    exec i s = s.fpTells d r := by
  unfold cvtXOf at h
  simp only [f64At_eq, f32At_eq] at h
  split at h <;> cases h
  case h_1 a m => exact toInt_eq hwf .f64 d a false
  case h_2 a m => exact toInt_eq hwf .f64 d a true
  case h_3 a m => exact toInt_eq hwf .f32 d a false
  case h_4 a m => exact toInt_eq hwf .f32 d a true
  case h_5 a => exact (fpTells_none s d _).symm

/-! ## What completes, and what traps -/

theorem fpDelivers_disabled {s : State} {g : FFlags} (h : enabled s.me.regs.fpCsr g = false) (d : RegNo) (v : Word) :
    s.fpDelivers d (v, g) = .next (wroteF s d v (s.me.regs.fpCsr ||| flagBits g)) := by
  rw [State.fpDelivers, fpFlags_disabled h, retF_withCsr]

theorem fpTells_disabled {s : State} {g : FFlags} (h : enabled s.me.regs.fpCsr g = false) (d : RegNo) (v : Word) :
    s.fpTells d (v, g) = .next (wroteX (withCsr s (s.me.regs.fpCsr ||| flagBits g)) d v) := by
  rw [State.fpTells, fpFlags_disabled h, retX_eq_wroteX]

/-- Settles O10: each instruction delivers its result under the conditions that it raises, of which none is enabled. -/
theorem floatArithmeticResults : Obligations.FloatArithmeticResults := by
  intro s i d v g hwf h hen
  rw [← fpDelivers_disabled hen]
  exact h.elim (exec_arithOf hwf) exec_minMaxOf

/-- Settles O11, likewise. -/
theorem floatCompareAndConvert : Obligations.FloatCompareAndConvert := by
  intro s i d v g hwf hen
  rw [← fpDelivers_disabled hen, ← fpTells_disabled hen]
  exact ⟨exec_cvtFOf hwf, fun h => h.elim exec_compareOf (exec_cvtXOf hwf)⟩

/-- Settles O12: whatever it would have written, an instruction whose conditions are enabled traps with them recorded. -/
theorem enabledConditionTraps : Obligations.EnabledConditionTraps := by
  intro s i d v g hwf htrap h hen
  have hf : exec i s = s.fpDelivers d (v, g) ∨ exec i s = s.fpTells d (v, g) := by
    rcases h with h | h | h | h | h
    · exact .inl (exec_arithOf hwf h)
    · exact .inl (exec_minMaxOf h)
    · exact .inr (exec_compareOf h)
    · exact .inl (exec_cvtFOf hwf h)
    · exact .inr (exec_cvtXOf hwf h)
  rcases hf with e | e
  · exact e.trans (fpFlags_enabled hen htrap _)
  · exact e.trans (fpFlags_enabled hen htrap _)

end Sys2Proof.Machine
end

section
/-! O22. State registers and engine registers (R109, R169, R170, R208). -/

namespace Sys2Proof.Machine
open Sys2Proof Sys2Proof.Claims

/-! ## Fields of a written value -/

theorem lowBits_eq_and (v : Word) {n : Nat} (h : n < 64) : lowBits v n = v &&& BitVec.ofNat 64 (2 ^ n - 1) := by
  have hn : 2 ^ n < 2 ^ 64 := Nat.pow_lt_pow_right (by decide) h
  apply BitVec.eq_of_toNat_eq
  rw [lowBits, BitVec.toNat_ofNat, BitVec.toNat_and, BitVec.toNat_ofNat, Nat.mod_eq_of_lt (by omega : 2 ^ n - 1 < 2 ^ 64),
    Nat.and_two_pow_sub_one_eq_mod, Nat.mod_eq_of_lt]
  exact lt_of_le_of_lt (Nat.mod_le _ _) v.isLt

theorem extractLsb'_toNat_eq_and (v : Word) {n : Nat} (h : n < 64) :
    (v.extractLsb' 0 n).toNat = (v &&& BitVec.ofNat 64 (2 ^ n - 1)).toNat := by
  have hlt : v.toNat % 2 ^ n < 2 ^ 64 := lt_of_le_of_lt (Nat.mod_le _ _) v.isLt
  rw [← lowBits_eq_and v h, lowBits, BitVec.toNat_ofNat, BitVec.extractLsb'_toNat, Nat.shiftRight_zero, Nat.mod_eq_of_lt hlt]

/-- The write rules of the RW registers, as a table (R109). -/
theorem write_eq_puttable (r : PegRegs) (n : Nat) (v : Word) :
    r.write n v = ((puttable r v).find? (fun e => decide (e.1 = n))).map Prod.snd := by
  have h2 : v.extractLsb' 0 2 = 0b11 ↔ v &&& 3 = 3 := by
    rw [← BitVec.toNat_inj, ← BitVec.toNat_inj, extractLsb'_toNat_eq_and v (by decide)]
    rfl
  have h3 : 4 < (v.extractLsb' 0 3).toNat ↔ 4 < (v &&& 7).toNat := by
    rw [extractLsb'_toNat_eq_and v (by decide)]
    rfl
  unfold PegRegs.write
  simp only [lowBits_eq_and v (show 2 < 64 by decide), lowBits_eq_and v (show 3 < 64 by decide), lowBits_eq_and v (show 32 < 64 by decide), h2, h3]
  split
  case h_11 =>
    have hnone : (puttable r v).find? (fun e => decide (e.1 = n)) = none := by
      simp only [puttable, List.find?_eq_none, List.forall_mem_cons, List.not_mem_nil, false_implies, implies_true, and_true,
        decide_eq_true_eq]
      grind
    rw [hnone]
    rfl
  all_goals rfl

/-! ## GETS and PUTS -/

theorem valueIn_eq_none {n : Nat} {l : List (Nat × Word)} (h : ∀ e ∈ l, e.1 ≠ n) : valueIn n l = none := by
  induction l with
  | nil => rfl
  | cons e t ih =>
    obtain ⟨he, ht⟩ := List.forall_mem_cons.mp h
    rw [valueIn, if_neg he, ih ht]

theorem stateReg_eq_valueIn (s : State) (n : Nat) : s.stateReg n = valueIn n (gettable s) := by
  unfold State.stateReg PegRegs.read
  split
  case h_11 =>
    split
    case h_15 =>
      symm
      apply valueIn_eq_none
      simp only [gettable, List.forall_mem_cons, List.not_mem_nil, false_implies, implies_true, and_true]
      grind
    all_goals rfl
  all_goals rfl

theorem getsReadsStateRegisters : GetsReadsStateRegisters := by
  intro s d i
  have hx : exec (.gets d i) s = match valueIn i.toNat (gettable s) with
    | some v => s.retX d v
    | none => s.trap 0x01 := by
    rw [← stateReg_eq_valueIn]
    rfl
  rw [hx]
  refine ⟨fun v hv => ?_, fun hv htrap => ?_⟩
  · simp only [hv, retX_eq_wroteX]
  · simp only [hv, trap_eq_inHandler htrap (show 0x01 < 256 by decide)]

/-- The machine after the acting core alone has changed and the pc has moved on. -/
theorem skip_setMe (s : State) (k : Core) (h : k.pc = s.me.pc) : (s.setMe k).skip = coreNow s k := by
  simp only [State.skip, State.setPc, State.setMe_setMe, State.me_setMe, State.pc, h]
  rfl

/-- AGE.LIMIT is held between 16 and 4096 (R347). -/
theorem ageLimitOf_eq (v : Word) : ageLimitOf v = BitVec.ofNat 64 (max 16 (min 4096 (v.toNat % 2 ^ 13))) := by
  simp only [ageLimitOf]
  congr 1
  split_ifs <;> omega

theorem isRoReg_iff (n : Nat) :
    isRoReg n = true ↔ n ∈ [0x000, 0x001, 0x002, 0x010, 0x011, 0x012, 0x029, 0x02A, 0x040, 0x042, 0x043] := List.contains_iff_mem

theorem execPuts_ro {i : BitVec 12} (h : isRoReg i.toNat = true) (s : State) (a : RegNo) : execPuts a i s = .next (passed s) := by
  simp only [execPuts, h]
  rfl

theorem execPuts_rw {s : State} {a : RegNo} {i : BitVec 12} {r : PegRegs} (hro : isRoReg i.toNat = false)
    (hw : s.me.regs.write i.toNat (s.getX a) = some r) : execPuts a i s = .next (coreNow s { s.me with regs := r }) := by
  simp only [execPuts, hro, hw, Bool.false_eq_true, if_false]
  rw [skip_setMe]
  rfl

/-- What is neither read-only nor of level RW traps, unless it is one of the ageing registers and the peg is privileged. -/
theorem execPuts_traps {s : State} {a : RegNo} {i : BitVec 12} (hro : isRoReg i.toNat = false)
    (hw : s.me.regs.write i.toNat (s.getX a) = none) (h : s.privileged = false ∨ i.toNat ∉ [0x060, 0x061, 0x062]) :
    execPuts a i s = s.trap 0x01 := by
  simp only [List.mem_cons, List.not_mem_nil, or_false, not_or] at h
  simp only [execPuts, hro, hw]
  rcases h with hp | hn
  · simp [hp]
  · simp [hn]

theorem isRoReg_of_find {r q : PegRegs} {v : Word} {n : Nat}
    (h : (puttable r v).find? (fun e => decide (e.1 = n)) = some (n, q)) : isRoReg n = false := by
  have hm : n ∈ (puttable r v).map Prod.fst := List.mem_map_of_mem (List.mem_of_find?_eq_some h)
  simp only [puttable, List.map_cons, List.map_nil, List.mem_cons, List.not_mem_nil, or_false] at hm
  rw [Bool.eq_false_iff, ne_eq, isRoReg_iff]
  simp only [List.mem_cons, List.not_mem_nil, or_false]
  omega

theorem write_eq_none {r : PegRegs} {v : Word} {n : Nat} (h : n ∉ (puttable r v).map Prod.fst) : r.write n v = none := by
  rw [write_eq_puttable, Option.map_eq_none_iff, List.find?_eq_none]
  rintro e he hn
  exact h (of_decide_eq_true hn ▸ List.mem_map_of_mem he)

theorem putsWritesStateRegisters : PutsWritesStateRegisters := by
  intro s a i v ro
  refine ⟨fun r hr => ?rw, fun hro => execPuts_ro ((isRoReg_iff _).mpr hro) s a, fun hp => ⟨?limit, ?window, ?age⟩,
    fun htrap hro hrw hno => ?traps⟩
  case rw => exact execPuts_rw (isRoReg_of_find hr) (by rw [write_eq_puttable, hr]; rfl)
  case limit =>
    rintro rfl
    have hx : exec (.puts a 0x060) s = .next (s.setMe { s.me with ageLimit := ageLimitOf v }).skip := by
      change execPuts a 0x060 s = _
      simp only [execPuts, hp]
      rfl
    rw [hx, skip_setMe, ageLimitOf_eq]
    rfl
  case window =>
    rintro rfl
    have hx : exec (.puts a 0x061) s = .next (s.setMe { s.me with restWin := lowBits v 32 }).skip := by
      change execPuts a 0x061 s = _
      simp only [execPuts, hp]
      rfl
    rw [hx, skip_setMe, lowBits_eq_and v (by decide)]
    · rfl
    · rfl
  case age =>
    rintro rfl
    have hx : exec (.puts a 0x062) s = .next (s.setBay s.myBay { s.bay s.myBay with age := lowBits v 16 }).skip := by
      change execPuts a 0x062 s = _
      simp only [execPuts, hp]
      rfl
    rw [hx, lowBits_eq_and v (by decide)]
    rfl
  case traps =>
    have hnro : isRoReg i.toNat = false := Bool.eq_false_iff.mpr fun h => hro ((isRoReg_iff _).mp h)
    exact (execPuts_traps hnro (write_eq_none hrw) hno).trans (trap_eq_inHandler htrap (by decide))

/-! ## EST and ELD -/

theorem jigBits_eq (o : Nat) : jigBits o = shadowBits o := by
  unfold shadowBits
  split
  case h_5 =>
    simp only [jigBits]
    split_ifs <;> omega
  all_goals rfl

theorem engineRegisterAccess : EngineRegisterAccess := by
  intro s d a i n
  have hest : exec (.est d a i) s = execEst d a i s := rfl
  have hn : s.engineIdx a i = n := rfl
  rw [hest, execEst, hn]
  refine ⟨fun h1 h2 => ?_, fun h => ?_, s.me.engineReg n, retX_eq_wroteX s d _, ?_⟩
  · rw [if_pos ⟨h1, h2⟩, lowBits, jigBits_eq]
    exact congrArg _ (skip_setMe s _ rfl)
  · rw [if_neg (by omega)]
    rfl
  · simp only [Core.engineReg]
    refine ⟨fun h => if_pos h, fun h1 h2 => ?_, fun h => ?_, fun h => ?_, fun h => ?_, fun h1 h2 => ?_, fun h1 h2 => ?_, fun h => ?_⟩
    · rw [if_neg (by omega), if_pos ⟨h1, h2⟩]
    · rw [h]; rfl
    · rw [h]; rfl
    · rw [h]; rfl
    · rw [if_neg (by omega), if_neg (by omega), if_neg (by omega), if_neg (by omega), if_neg (by omega), if_pos ⟨h1, h2⟩]
    · rw [if_neg (by omega), if_neg (by omega), if_neg (by omega), if_neg (by omega), if_neg (by omega), if_neg (by omega),
        if_pos ⟨h1, h2⟩]
    · rw [if_neg (by omega), if_neg (by omega), if_neg (by omega), if_neg (by omega), if_neg (by omega), if_neg (by omega),
        if_neg (by omega)]

/-- Settles O22: reads by the table of GETS, writes by that of PUTS, and the jig's registers. -/
theorem stateRegisterAccess : Obligations.StateRegisterAccess :=
  ⟨getsReadsStateRegisters, putsWritesStateRegisters, engineRegisterAccess⟩

end Sys2Proof.Machine
end

section
/-! O23. Instructions and fetches whose effect is a trap (R125, R126, R136, R171). -/

namespace Sys2Proof.Machine
open Sys2Proof Sys2Proof.Claims

/-! ## The outstanding fetch -/

@[simp] theorem me_fetchAnswered (s : State) : (fetchAnswered s).me = { s.me with fetchAsked := none } := s.me_setMe _

theorem myBent_fetchAnswered (s : State) : (fetchAnswered s).myBent = s.myBent := by
  rw [State.myBent, State.peg?, me_fetchAnswered]
  rfl

theorem canTrap_fetchAnswered {s : State} (h : CanTrap s) : CanTrap (fetchAnswered s) := by
  rw [CanTrap, myBent_fetchAnswered, me_fetchAnswered]
  exact h

/-- The handler is entered with no fetch outstanding, whether one was or not. -/
theorem inHandler_fetched (s : State) (code : Nat) (addr info : Word) :
    inHandler s.fetched code addr info = inHandler (fetchAnswered s) code addr info := by
  rw [State.fetched]
  split
  · rfl
  · next h =>
    have hnone : s.me.fetchAsked = none := by simpa using h
    have hk : { s.me with fetchAsked := none } = s.me := by rw [← hnone]
    have hb : (fetchAnswered s).myBent = s.myBent := myBent_fetchAnswered s
    simp only [inHandler, hb, me_fetchAnswered, hk]
    simp only [fetchAnswered, hk, AMap.put_put]

theorem canTrap_fetched {s : State} (h : CanTrap s) : CanTrap s.fetched := by
  rw [State.fetched]
  split
  · exact canTrap_fetchAnswered h
  · exact h

/-- A fetch whose word faults takes the trap at itself (R136). -/
theorem exec_fetchFault {s : State} {c : Nat} (htrap : CanTrap s) (hc : c < 256) (h : s.fetchWord s.me.pc = .fault c s.me.pc) :
    exec .instructionFetchFault s = .next (inHandler (fetchAnswered s) c s.me.pc 0) := by
  have hfetch : s.fetch = .fault c s.me.pc := by
    rw [State.fetch, State.pc, h]
  have hx : exec .instructionFetchFault s = s.fetched.trapAt c s.me.pc := by
    change execInstructionFetchFault s = _
    rw [execInstructionFetchFault, hfetch]
  rw [hx, State.trapAt, trapWith_eq_inHandler (canTrap_fetched htrap) hc, inHandler_fetched]

/-! ## A word's fetch -/

theorem fetchWord_error {s : State} {va : Word} {c : Nat} (h : s.access s.myBay s.myBent va 4 .exec = .error c) :
    s.fetchWord va = .fault c va := by
  rw [State.fetchWord, h]

theorem fetchWord_refused {s : State} {va : Word} {l : Loc} (h : s.access s.myBay s.myBent va 4 .exec = .ok l)
    (hlock : s.lockedOut l.pa 4 = false) (ha : s.answer l.pa 4 = .refused) : s.fetchWord va = .fault 0x1C va := by
  simp only [State.fetchWord, h, hlock, ha]
  rfl

theorem fetchWord_poisoned {s : State} {va : Word} {l : Loc} (h : s.access s.myBay s.myBent va 4 .exec = .ok l)
    (hlock : s.lockedOut l.pa 4 = false) (ha : s.answer l.pa 4 = .here) (hp : s.readPoisoned none s.myBay l 4 = true) :
    s.fetchWord va = .fault 0x1B va := by
  simp only [State.fetchWord, h, hlock, ha, hp]
  rfl

/-- An access of a location, of which nothing else matters. -/
def accessOf (l : Loc) (n : Nat) : Access :=
  { no := 0, agent := .peg 0, core := 0, bent := 0, cls := 0, ord := 0, kind := .store [], va := 0, loc := l, size := n, sent := 0, lost := false }

/-- A location that no window page serves is read where it stands (R99). -/
theorem State.readPoisoned_of_plain {s : State} {l : Loc} (h : l.cp ≠ 2 ∨ s.remote? l.pa = none) (core : Option Nat) (bay n : Nat) :
    s.readPoisoned core bay l n = s.poisoned l.pa n :=
  readPoisoned_eq_poisoned (a := accessOf l n) core bay h

/-! ## The obligation -/

theorem trapsAreTaken : TrapsAreTaken := by
  intro s htrap
  refine ⟨fun i => ?breakpoint, trap_eq_inHandler htrap (by decide), fun c hc h => exec_fetchFault htrap hc (fetchWord_error h),
    fun l hl hlock => ⟨fun ha => ?_, fun ha hplain hp => ?_⟩⟩
  case breakpoint =>
    have hi : BitVec.ofNat 64 i.toNat = i.zeroExtend 64 := BitVec.ofNat_toNat 64 i
    rw [hi]
    exact trapWith_eq_inHandler htrap (by decide) 0 _
  · exact exec_fetchFault htrap (by decide) (fetchWord_refused hl hlock ha)
  · refine exec_fetchFault htrap (by decide) (fetchWord_poisoned hl hlock ha ?_)
    rw [State.readPoisoned_of_plain hplain, hp]

theorem privilegeIsChecked : PrivilegeIsChecked := by
  intro s i hi hp htrap
  rw [← trap_eq_inHandler htrap (show 0x01 < 256 by decide)]
  unfold privilegedOnly at hi
  split at hi
  case h_1 d a => change execBentNew d a s = _; simp only [execBentNew, hp]; rfl
  case h_2 a => change execBentKill a s = _; simp only [execBentKill, hp]; rfl
  case h_3 d a => change execEnq d a s = _; simp only [execEnq, hp]; rfl
  case h_4 a => change execTlbi a s = _; simp only [execTlbi, hp]; rfl
  case h_5 => change execTlbiAll s = _; simp only [execTlbiAll, hp]; rfl
  case h_6 => cases hi

/-- Settles O23: every such trap is one entry of the handler. -/
theorem trappingInstructions : Obligations.TrappingInstructions := ⟨trapsAreTaken, privilegeIsChecked⟩

end Sys2Proof.Machine
end

section
/-! SUPPORT for O4 and O19. One unit of memory as it stands in clear and as the key of slot 0 sees it (R84, R96). -/

namespace Sys2Proof.Machine
open Sys2Proof Sys2Proof.Claims

/-! ## A unit and its decryption -/

/-- Where the HBM4 of package 1 ends in its window (R81): nothing is there, and everything up to it is remote. -/
def windowEnd : Nat := 0x2C000000000

/-- The unit there: `addi x1, x0, 5` in clear, then zeros. -/
def unitData : List Byte := [5, 0, 0x20, 0x0C] ++ List.replicate 28 0

theorem tweak_windowEnd :
    aesEncrypt 0 (leBytes 16 windowEnd) = [32, 49, 161, 36, 189, 114, 124, 115, 190, 70, 190, 107, 224, 122, 214, 185] := by decide +kernel

theorem aesDecrypt_unitData : aesDecrypt 0 [37, 49, 129, 40, 189, 114, 124, 115, 190, 70, 190, 107, 224, 122, 214, 185] =
    [192, 131, 119, 3, 111, 202, 243, 50, 230, 92, 201, 215, 55, 251, 118, 183] := by decide +kernel

/-- What the key 0 makes of the first eight bytes of the unit (R84). -/
def seenBytes : List Byte := [224, 178, 214, 39, 210, 184, 143, 65]

theorem xtsDecrypt_unitData : ∃ rest, xtsDecrypt 0 windowEnd unitData = seenBytes ++ rest := by
  have hhigh : (0 : BitVec 512).extractLsb' 256 256 = 0 := by decide +kernel
  have hlow : (0 : BitVec 512).extractLsb' 0 256 = 0 := by decide +kernel
  have hin : xorBlock (unitData.take 16) (leBytes 16 (leNat [32, 49, 161, 36, 189, 114, 124, 115, 190, 70, 190, 107, 224, 122, 214, 185])) =
    [37, 49, 129, 40, 189, 114, 124, 115, 190, 70, 190, 107, 224, 122, 214, 185] := by decide
  have hout : xorBlock [192, 131, 119, 3, 111, 202, 243, 50, 230, 92, 201, 215, 55, 251, 118, 183]
      (leBytes 16 (leNat [32, 49, 161, 36, 189, 114, 124, 115, 190, 70, 190, 107, 224, 122, 214, 185])) =
    seenBytes ++ [88, 26, 119, 188, 215, 129, 160, 14] := by decide
  simp only [xtsDecrypt, xtsUnit, hhigh, hlow, tweak_windowEnd, hin, aesDecrypt_unitData, hout, List.append_assoc]
  exact ⟨_, rfl⟩

/-- A state that holds the unit in clear, and in whose slot 0 the key is 0, reads it so under slot 0. -/
theorem byteAt_seen {s : State} (hclear : s.unitKey.find? (windowEnd / 32) = none) (hkey : s.keyAt 0 (windowEnd / 32) = 0)
    (htweak : s.tweakOf (windowEnd / 32) = windowEnd) (hdata : ByteMap.rdN s.mem (32 * (windowEnd / 32)) 32 = unitData) {k : Nat} (hk : k < 8) :
    s.byteAt (some 0) (windowEnd + k) = seenBytes.getD k 0 := by
  have hsame : s.sameKey (some 0) (windowEnd / 32) = false := by simp only [State.sameKey, hclear]
  have hstored : s.unitStored (windowEnd / 32) = unitData := by rw [State.unitStored, hclear, ← hdata]
  obtain ⟨rest, hrest⟩ := xtsDecrypt_unitData
  have hunit : s.unitUnder (some 0) (windowEnd / 32) = seenBytes ++ rest := by
    rw [State.unitUnder, hsame, ← hrest, ← hkey, ← hstored]
    simp only [htweak]
    rfl
  have hu : (windowEnd + k) / 32 = windowEnd / 32 := by simp only [windowEnd]; omega
  have hm : (windowEnd + k) % 32 = k := by simp only [windowEnd]; omega
  have hlen : k < seenBytes.length := hk
  rw [State.byteAt, hu, hm, hsame, hunit, nth?_eq_getElem?, List.getElem?_append_left hlen, ← List.getD_eq_getElem?_getD]
  rfl

/-! ## Reads of a plain location -/

theorem State.fetchLoc_of_plain {s : State} {l : Loc} {n : Nat} (core : Option Nat) (bay : Nat) (hplain : l.cp ≠ 2 ∨ s.remote? l.pa = none)
    (hacc : ∀ a ∈ s.accums, a.meets l.pa n = false) : s.fetchLoc core bay l n = (s, meetsBytes s bay l n) :=
  fetchLoc_eq_meetsBytes (a := accessOf l n) core bay hplain hacc

end Sys2Proof.Machine
end

section
/-! O4. A step that does not execute the word at the pc: the L2 table of the acting core's bay lists one line twice, and the fetch itself takes the
first of the two away (R76, R96, R99). -/

namespace Sys2Proof.Machine
open Sys2Proof Sys2Proof.Claims

/-! ## A fetch -/

/-- The fetch of a word that the instruction cache does not hold (R97, R136). -/
theorem fetchWord_fresh {s : State} {va : Word} {l : Loc} (h : s.access s.myBay s.myBent va 4 .exec = .ok l)
    (hlock : s.lockedOut l.pa 4 = false) (ha : s.answer l.pa 4 = .here) (hp : s.readPoisoned none s.myBay l 4 = false)
    (hplain : s.remote? l.pa = none) (hacc : ∀ a ∈ s.accums, a.meets l.pa 4 = false) (hfresh : s.me.icache.find? l.pa = none) :
    let u := s.touched s.myBay s.myBent va l 4 .exec
    let w : Word32 := BitVec.ofNat 32 (leNat (meetsBytes u s.myBay l 4))
    ∃ ic, s.fetchWord va = .word (u.setMe { u.me with icache := ic }) w := by
  intro u w
  have hu : Served s u := Served.touched s _ _ va l 4 .exec
  have hremote : u.remote? l.pa = none := by rw [State.remote?_congr hu.mgmt, hplain]
  have hread : u.fetchLoc none s.myBay l 4 = (u, meetsBytes u s.myBay l 4) :=
    State.fetchLoc_of_plain none _ (.inr hremote) (by rw [hu.accums]; exact hacc)
  have hic : u.me.icache.find? l.pa = none := by
    obtain ⟨dc, asked, e⟩ := hu.me
    rw [e]
    exact hfresh
  refine ⟨keepWord u.me.icache l.pa w, ?_⟩
  simp only [State.fetchWord, h, hlock, ha, hp]
  change (match (u.fetchLoc none s.myBay l 4).1.me.icache.find? l.pa with | none => _ | some _ => _) = _
  rw [hread]
  simp only [hic]
  rfl

/-! ## The state -/

/-- A translation of another tree; 4096 of them fill a TLB. -/
def otherPage : TlbEntry := ⟨0, 0, 0x200000, clearLeaf windowEnd⟩

/-- The line at `windowEnd` twice: as a line of a window page in clear, and behind it as one that stands decrypted under slot 0. -/
def lineTwice : AMap CacheLine := [(windowEnd / 64, ⟨none, [1], []⟩), (windowEnd / 64, ⟨some 0, [], []⟩)]

/-- `addi x1, x0, 5` in clear at the pc of core 0, whose bay has a full TLB, the walk of the pc's page and the line of the instruction twice in
its L2. -/
def twiceBase : State :=
  let s := State.reset.withProgram []
  { s with keys := [(0, 0)], mem := ByteMap.wrN [] windowEnd unitData }.setBay 0 { s.bay 0 with
    tlb := List.replicate 4096 otherPage, walks := [⟨1, 1, .page ⟨1, 0x1000, 0x1000, clearLeaf windowEnd⟩⟩], l2 := lineTwice }

/-- The state in which its turn runs. -/
def twiceTurn : State := twiceBase.beginTurn twiceBase.turn

def pcLoc : Loc := { pa := windowEnd, slot := none, det := false, mw := false, cp := 0 }

theorem twiceTurn_executes : Executes twiceTurn := ⟨1, _, by decide, rfl, by decide, by decide, by decide, .inr (by decide)⟩

theorem twiceTurn_access : twiceTurn.access twiceTurn.myBay twiceTurn.myBent twiceTurn.pc 4 .exec = .ok pcLoc := by decide +kernel

theorem twiceTurn_fetchable : Fetchable twiceTurn twiceTurn.pc 0x0C200005 :=
  ⟨pcLoc, twiceTurn_access, by decide, by decide, by decide, by decide, by decide, by decide +kernel, by decide +kernel, .inl (by decide)⟩

/-! ## What the fetch reads -/

/-- The translation of the fetch enters the full TLB; the window lines of the page that leaves it go, and the second entry of the line shows. -/
theorem seenSlot_touched : ∀ k < 4, (twiceTurn.touched twiceTurn.myBay twiceTurn.myBent twiceTurn.pc pcLoc 4 .exec).seenSlot twiceTurn.myBay pcLoc
    (pcLoc.pa + k) = some 0 := by decide +kernel

/-- The word that the fetch reads, which no table assigns. -/
theorem twiceTurn_fetch : ∃ u ic, Served twiceTurn u ∧ twiceTurn.fetch = .illegal (u.setMe { u.me with icache := ic }) := by
  let u := twiceTurn.touched twiceTurn.myBay twiceTurn.myBent twiceTurn.pc pcLoc 4 .exec
  have hu : Served twiceTurn u := Served.touched _ _ _ _ _ 4 .exec
  have hbytes : meetsBytes u twiceTurn.myBay pcLoc 4 = seenBytes.take 4 := by
    have h (k : Nat) (hk : k < 4) : u.byteAt (u.seenSlot twiceTurn.myBay pcLoc (pcLoc.pa + k)) (pcLoc.pa + k) = seenBytes.getD k 0 := by
      rw [seenSlot_touched k hk, hu.byteAt]
      exact byteAt_seen (by decide) (by decide +kernel) (by decide) (by decide) (by omega)
    rw [meetsBytes, List.map_congr_left (fun k hk => h k (List.mem_range.mp hk))]
    rfl
  obtain ⟨ic, hw⟩ := fetchWord_fresh twiceTurn_access (by decide) (by decide) (by decide) (by decide) (by decide) (by decide)
  rw [show (twiceTurn.touched twiceTurn.myBay twiceTurn.myBent twiceTurn.pc pcLoc 4 .exec) = u from rfl, hbytes] at hw
  have hlong : Decode.isLong (BitVec.ofNat 32 (leNat (seenBytes.take 4))) = false := by decide
  have hbad : Decode.short (BitVec.ofNat 32 (leNat (seenBytes.take 4))) = .error .unassigned := by decide
  refine ⟨u, ic, hu, ?_⟩
  rw [State.fetch, hw]
  simp only [hlong, hbad]
  rfl

theorem canTrap_icache {s : State} (h : CanTrap s) (ic : AMap Word32) : CanTrap (s.setMe { s.me with icache := ic }) := by
  rw [CanTrap, State.myBent, State.peg?, State.me_setMe]
  exact h

theorem getX_inHandler (s : State) (code : Nat) (addr info : Word) (r : RegNo) : (inHandler s code addr info).getX r = s.getX r := by
  have hx : (inHandler s code addr info).me.x = s.me.x := by simp [inHandler, State.me, State.core]
  rw [State.getX, State.getX, Core.getX, Core.getX, hx]

/-! ## The obligation -/

/-- A fetch that finds nothing runs as the event that reports it. -/
theorem step_of_illegal {s u : State} {c : Nat} (hturn : s.turn.act = .core c) (hexec : Executes (s.beginTurn s.turn))
    (hf : (s.beginTurn s.turn).fetch = .illegal u) : step s = exec .illegalInstruction u := by
  obtain ⟨id, p, hid, hp, hhalted, hdrain, hpre, htrap⟩ := hexec
  have hpend : (!hact (s.beginTurn s.turn).me.regs.trapCause && !p.pending.isEmpty) = false := by
    rcases htrap with h | h
    · simp [hact, h]
    · simp [h]
  have hb : (s.beginTurn s.turn).boundary = .run u .illegalInstruction := by
    simp only [State.boundary, hid, hp, hhalted, hdrain, hpre, hpend, hf]
    rfl
  simp only [step, hturn, hb]

/-- Refutes O4: no hypothesis keeps the L2 of the acting core's bay from listing a line twice. In `twiceBase` the first entry is in clear, as
the fetch reads, and belongs to a page whose translation the fetch drops from the full TLB; the second then lets the fetch see the unit under
slot 0, where the word is illegal: the step traps and leaves x1, and does not execute `addi x1, x0, 5`. -/
theorem not_stepRunsItsTurn : ¬ Obligations.StepRunsItsTurn := by
  rintro ⟨⟨hshort, -⟩, -⟩
  obtain ⟨t, -, ht⟩ := hshort twiceBase 0 0x0C200005 (.addi 1 0 5) rfl twiceTurn_executes twiceTurn_fetchable (by decide) (by decide)
  obtain ⟨u, ic, hu, hfetch⟩ := twiceTurn_fetch
  have hcan : CanTrap twiceTurn := ⟨⟨programBent, by decide, by decide⟩, by decide⟩
  have htrap : exec .illegalInstruction (u.setMe { u.me with icache := ic }) =
    .next (inHandler (u.setMe { u.me with icache := ic }) 0x01 0 0) := trap_eq_inHandler (canTrap_icache (hu.canTrap hcan) ic) (by decide)
  have hadd : exec (.addi 1 0 5) t = .next (wroteX t 1 5) := by
    change t.retX 1 (t.getX 0 + 5) = _
    rw [State.getX_zero, retX_eq_wroteX]
    rfl
  have hleft : (inHandler (u.setMe { u.me with icache := ic }) 0x01 0 0).getX 1 = u.getX 1 := by
    rw [getX_inHandler, State.getX, State.me_setMe]
    rfl
  rw [step_of_illegal rfl twiceTurn_executes hfetch, hadd, htrap] at ht
  injection ht with ht
  have h5 : (wroteX t 1 5).getX 1 = 5 := by rw [getX_wroteX, if_pos ⟨rfl, by decide⟩]
  have h0 : u.getX 1 = 0 := by rw [hu.getX]; decide
  rw [← ht, hleft, h0] at h5
  exact absurd h5 (by decide)

end Sys2Proof.Machine
end

section
/-! SUPPORT for O19 and O20. How the accesses of an instruction are issued and perform at once (R100, R146, R289). -/

namespace Sys2Proof.Machine
open Sys2Proof Sys2Proof.Claims

/-! ## Issuing -/

/-- A release write with no merge to wait for does not wait (R289). -/
theorem ackWaits_eq_false {s : State} {scope : Nat} {mask : BitVec 16} (h : ¬ WaitsForMerges s scope mask) :
    s.ackWaits scope mask = false := by
  have hw : ¬ Waits ({ s with pending := [] } : State) scope mask := by
    rintro (⟨a, ha, -⟩ | hm)
    · cases ha
    · exact h hm
  have hr := (Served.refl ({ s with pending := [] } : State)).releaseWaits hw
  rw [State.releaseWaits, Bool.or_eq_false_iff] at hr
  exact hr.2

theorem ordScope_eq (s : State) : s.ordScope = s.me.regs.ordScope.toNat % 8 := by
  rw [State.ordScope, BitVec.extractLsb'_toNat]
  rfl

/-- An access that passes its checks, and that waits for no merge where it releases, has issued (R146). -/
theorem dataUnits_issues {s : State} {va : Word} {n : Nat} {need : Need} {l : Loc} (h : s.access s.myBay s.myBent va n need = .ok l)
    {c : BitVec 4} {o : BitVec 2} (hw : (ordReleases o && !(need = .read)) = true →
      ¬ WaitsForMerges s (s.me.regs.ordScope.toNat % 8) (BitVec.ofNat 16 (2 ^ c.toNat))) (us : Units) :
    s.dataUnits va n need c o us = .next ((s.touched s.myBay s.myBent va l n need).accessAll c o us va l).skip := by
  rw [State.dataUnits, h]
  dsimp only
  split
  · next hr =>
    rw [State.ackThen, ordScope_eq, ackWaits_eq_false (hw hr)]
    rfl
  · rfl

theorem ordReleases_iff (o : BitVec 2) : ordReleases o = true ↔ 2 ≤ o.toNat := by
  revert o
  decide

/-- The accesses stand in the state in which their form has been translated. -/
theorem accessAll_touched (s : State) (m : MemForm) (l : Loc) {c : BitVec 4} {o : BitVec 2} (hc : c.toNat = m.cls) (ho : o.toNat = m.ord)
    (us : Units) :
    (s.touched s.myBay s.myBent m.va l m.size m.need).accessAll c o us m.va l =
      (us.map (fun u => issuedPart s m l u.1 u.2.1 u.2.2)).foldl State.issue (issuing s m l) := by
  have h : Served s (s.touched s.myBay s.myBent m.va l m.size m.need) := Served.touched ..
  have hagent : (s.touched s.myBay s.myBent m.va l m.size m.need).myAgent = s.myAgent := by
    simp only [State.myAgent, h.pegId, h.mgmt]
  have helapsed : (s.touched s.myBay s.myBent m.va l m.size m.need).elapsed = s.elapsed := h.stored.elapsed
  rw [State.accessAll, List.foldl_map, h.stamp]
  refine congrArg (fun f => List.foldl f (issuing s m l) us) (funext fun t => funext fun u => ?_)
  rw [hagent, h.cur, h.myBent, hc, ho, helapsed]
  rfl

/-! ## Performing at once -/

theorem peers_dropStale (s : State) (bay : Nat) (ts : List TlbEntry) : (s.dropStale bay ts).peers = s.peers := by
  unfold State.dropStale
  dsimp only
  split <;> rfl

theorem peers_install (s : State) (bay b : Nat) (va : Word) : (s.install bay b va).peers = s.peers := by
  unfold State.install State.enterTlb
  dsimp only
  split
  · rfl
  · split
    · split
      · rfl
      · exact peers_dropStale s bay _
    · rfl

theorem peers_cacheLines (s : State) (bay : Nat) (l : Loc) (n : Nat) : (s.cacheLines bay l n).peers = s.peers := by
  unfold State.cacheLines
  dsimp only
  split
  · rfl
  · split <;> rfl

theorem capacity_sent (s : State) (pa n q : Nat) : ((s.sent pa n).peer q).capacity = (s.peer q).capacity := by
  have hcount (p k : Nat) : ((s.countPackets p k).peer q).capacity = (s.peer q).capacity := by
    simp only [State.countPackets, State.peer, AMap.get]
    by_cases h : q = s.hop p
    · subst h
      simp
    · simp [h]
  unfold State.sent
  split
  · rfl
  · split
    · exact hcount _ _
    · rfl

/-- An access counts packets on its way; every package keeps its memory. -/
theorem capacity_touched (s : State) (bay b : Nat) (va : Word) (l : Loc) (n : Nat) (need : Need) (q : Nat) :
    ((s.touched bay b va l n need).peer q).capacity = (s.peer q).capacity := by
  have hi : ((s.install bay b va).peer q).capacity = (s.peer q).capacity := by rw [State.peer, State.peer, peers_install]
  unfold State.touched
  dsimp only
  split
  · rw [State.peer, peers_cacheLines, ← State.peer, hi]
  · rw [capacity_sent, hi]

/-- A home that has answered refuses nothing later, whatever packets have been counted since. -/
theorem answer_here {s u : State} (hm : u.mgmt = s.mgmt) (hcap : ∀ q, (u.peer q).capacity = (s.peer q).capacity) {pa n : Nat}
    (hs : s.answer pa n = .here) (hu : u.answer pa n ≠ .silent) : u.answer pa n = .here := by
  simp only [State.answer, State.region_congr hm pa, hm, hcap] at hs hu ⊢
  split at hs
  · next p o hreg =>
    by_cases hp : p = s.mgmt.config.pkg
    · simp [hp] at hs
    · by_cases hu' : u.reachable p (packetsOf pa n) = true
      · by_cases hs' : s.reachable p (packetsOf pa n) = true
        · simpa [hp, hu', hs'] using hs
        · simp [hp, hs'] at hs
      · simp [hreg, hp, hu'] at hu
  · rfl

theorem canPerform_iff (s : State) (a : Access) : s.canPerform a = true ↔
    s.answer a.loc.pa a.size ≠ .silent ∧ s.lockedOut a.loc.pa a.size = false ∧ s.mustWait a = false := by
  simp [State.canPerform, and_assoc]

/-- An access that can perform, at a home that answers, performs when the turn leaves nothing pending (R146). -/
theorem issue_performs {u : State} {a : Access} (hd : u.defer = false) (hc : u.canPerform a = true) (ha : u.answer a.loc.pa a.size = .here) :
    u.issue a = u.performHere a := by
  rw [State.issue, hd, hc, State.perform, ha]
  rfl

/-- In the state in which a form is issued, an access that can perform performs. -/
theorem issue_issuing {s : State} {m : MemForm} {l : Loc} {a : Access} (hd : s.defer = false) (hc : (issuing s m l).canPerform a = true)
    (ha : s.answer a.loc.pa a.size = .here) : (issuing s m l).issue a = (issuing s m l).performHere a := by
  have h : Served s (s.touched s.myBay s.myBent m.va l m.size m.need) := Served.touched ..
  have hdefer : (issuing s m l).defer = false := by
    obtain ⟨_, _, _, e⟩ := h.frame
    rw [issuing, e]
    exact hd
  refine issue_performs hdefer hc (answer_here h.mgmt (fun q => ?_) ha ((canPerform_iff _ _).mp hc).1)
  exact capacity_touched s _ _ m.va l m.size m.need q

/-! ## What a load leaves in the registers -/

/-- A sign-extended number is its balanced residue (R120). -/
theorem signedOf_eq_bmod {w : Nat} (hw : 0 < w) (v : Nat) : signedOf w v = Int.bmod v (2 ^ w) := by
  obtain ⟨k, rfl⟩ : ∃ k, w = k + 1 := ⟨w - 1, by omega⟩
  have hmod : (v : Int) % ((2 ^ (k + 1) : Nat) : Int) = ((v % 2 ^ (k + 1) : Nat) : Int) := (Int.natCast_emod v _).symm
  have hpow : 2 ^ (k + 1) = 2 * 2 ^ k := Nat.pow_succ'
  simp only [signedOf, Int.bmod, hmod, Nat.add_sub_cancel]
  generalize v % 2 ^ (k + 1) = r
  rw [hpow]
  split_ifs <;> omega

theorem extendTo_eq {n v : Nat} (hn : 0 < n) (hv : v < 2 ^ (8 * n)) (sg : Bool) :
    extendTo n sg v = if sg then BitVec.ofInt 64 (Int.bmod v (2 ^ (8 * n))) else BitVec.ofNat 64 v := by
  rw [extendTo, signedOf_eq_bmod (by omega), Nat.mod_eq_of_lt hv]

/-- `u` is `s` as far as the registers of the cores go. -/
structure SameCores (s u : State) : Prop where
  cur : u.cur = s.cur
  core : ∀ c, SameRegs (s.core c) (u.core c)

theorem SameCores.me {s u : State} (h : SameCores s u) : SameRegs s.me u.me := by
  rw [State.me, State.me, h.cur]
  exact h.core s.cur

theorem SameCores.getX {s u : State} (h : SameCores s u) (r : RegNo) : u.getX r = s.getX r := by
  obtain ⟨dc, asked, spin, e⟩ := h.me
  rw [State.getX, e]
  rfl

theorem me_skip (s : State) : s.skip.me = { s.me with pc := s.me.pc + 4 } := me_wentTo s _

/-- A load writes registers of its file and nothing else of its core. -/
theorem putLoad_eq (k : Core) (d : LoadDest) (v : Nat) : ∃ x f, k.putLoad d v = { k with x := x, f := f } := by
  have hput (k : Core) (r : RegNo) (w : Word) : ∃ x, k.putX r w = { k with x := x } := by
    rw [Core.putX]
    split <;> exact ⟨_, rfl⟩
  cases d with
  | none => exact ⟨_, _, rfl⟩
  | x r n sg =>
    obtain ⟨x, h⟩ := hput k r (extendTo n sg v)
    exact ⟨x, k.f, h⟩
  | f r n => exact ⟨k.x, _, rfl⟩
  | pair r =>
    obtain ⟨x, h⟩ := hput k r (BitVec.ofNat 64 v)
    obtain ⟨x', h'⟩ := hput { k with x := x } (r + 1) (BitVec.ofNat 64 (v / 2 ^ 64))
    exact ⟨x', k.f, by rw [Core.putLoad, h, h']⟩

theorem loadedAs_putX {s u : State} (h : SameCores s u) (r : RegNo) {n v : Nat} (hn : 0 < n) (hv : v < 2 ^ (8 * n)) (sg : Bool) :
    LoadedAs s (u.setMe (u.me.putLoad (.x r n sg) v)).skip (.x r n sg) v := by
  have hx (q : RegNo) : (u.setMe (u.me.putLoad (.x r n sg) v)).skip.getX q = if q = r ∧ r ≠ 0 then extendTo n sg v else s.getX q := by
    rw [← h.getX]
    exact (State.getX_skip ..).trans (State.getX_putX ..)
  refine ⟨?_, fun q hq => ?_, fun hr => ?_⟩
  · rw [me_skip, State.me_setMe]
    refine (h.me.putLoad (.x r n sg) v).2.trans ?_
    rw [Core.putLoad, Core.putX]
    split <;> rfl
  · rw [hx, if_neg fun e => hq e.1]
  · rw [hx, if_pos ⟨rfl, hr⟩, extendTo_eq hn hv]

/-- All of the acting core but its x and f registers and what watches its lines stays when it goes on after a write of registers. -/
theorem coreKept_putLoad {s u : State} (h : SameCores s u) (d : LoadDest) (v : Nat) : CoreKept s (u.setMe (u.me.putLoad d v)).skip := by
  obtain ⟨x, f, hk⟩ := putLoad_eq u.me d v
  obtain ⟨dc, asked, spin, hme⟩ := h.me
  have ht : (u.setMe (u.me.putLoad d v)).skip.me = { u.me with x := x, f := f, pc := u.me.pc + 4 } := by
    rw [me_skip, State.me_setMe, hk]
  refine ⟨h.cur, ?_, ?_, ?_, ?_, ?_, ?_, fun c hc => ?_⟩
  case refine_1 => rw [State.pc, ht, hme]; rfl
  case refine_7 =>
    obtain ⟨dc, asked, spin, hcore⟩ := h.core c
    have hc' : c ≠ u.cur := by rwa [h.cur]
    have hother : (u.setMe (u.me.putLoad d v)).skip.core c = u.core c := by
      rw [State.skip, State.setPc, State.setMe_setMe, State.core_setMe_other _ _ _ hc']
    rw [hother, hcore]
    exact ⟨rfl, rfl⟩
  all_goals rw [ht, hme]

/-! ## The state in which a form is issued -/

section
variable (s : State) (m : MemForm) (l : Loc)

theorem issuing_frame : ∃ (cores : AMap Core) (bays : AMap Bay) (peers : AMap Peer),
    issuing s m l = { s with cores := cores, bays := bays, peers := peers, stamp := s.stamp + 1 } := by
  obtain ⟨cores, bays, peers, e⟩ := (Served.touched s s.myBay s.myBent m.va l m.size m.need).frame
  exact ⟨cores, bays, peers, by rw [issuing, e]⟩

theorem issuing_sameCores : SameCores s (issuing s m l) := by
  have h := (Served.touched s s.myBay s.myBent m.va l m.size m.need).stored
  exact ⟨h.cur, h.core⟩

theorem issuing_sameBytes : SameBytes s (issuing s m l) := by
  obtain ⟨cores, bays, peers, e⟩ := issuing_frame s m l
  rw [e]
  exact SameBytes.of_fields rfl rfl rfl rfl

end

end Sys2Proof.Machine
end

section
/-! O20. AMO and CAS (R121, R147, R148). -/

namespace Sys2Proof.Machine
open Sys2Proof Sys2Proof.Claims

/-! ## Operations -/

theorem aopOf_eq (p : BitVec 4) : aopOf p = opOf p := by
  revert p
  decide

theorem aopSigned_eq (op : MergeOp) : aopSigned op = extendsSigned op := by cases op <;> rfl

/-- What memory receives of an operation on bits or integers (R147). -/
theorem aop_of_bitOp {n a b v : Nat} {op : MergeOp} (hn : 0 < n) (ha : a < 2 ^ (8 * n)) (hb : b < 2 ^ (8 * n)) (h : bitOp n op a b = some v) :
    aop op n a b % 2 ^ (8 * n) = v := by
  have hw : 0 < 8 * n := by omega
  have hma := Nat.mod_eq_of_lt ha
  have hmb := Nat.mod_eq_of_lt hb
  cases op <;> cases h
  case add => exact Nat.mod_mod _ _
  case and => rw [aop, Nat.mod_mod, Nat.mod_eq_of_lt (Nat.and_lt_two_pow a hb)]
  case or => rw [aop, Nat.mod_mod, Nat.mod_eq_of_lt (Nat.or_lt_two_pow ha hb)]
  case xor => rw [aop, Nat.mod_mod, Nat.mod_eq_of_lt (Nat.xor_lt_two_pow ha hb)]
  case swap => rw [aop, Nat.mod_mod, hmb]
  case min =>
    simp only [aop, signedOf_eq_bmod hw, hma, hmb]
    split <;> simp [*]
  case max =>
    simp only [aop, signedOf_eq_bmod hw, hma, hmb]
    split <;> simp [*]
  case minn =>
    simp only [aop, hma, hmb]
    rw [← min_def, Nat.mod_eq_of_lt (min_lt_of_left_lt ha)]
  case maxn =>
    simp only [aop, hma, hmb]
    rw [← max_def, Nat.mod_eq_of_lt (max_lt ha hb)]

/-! ## Forms -/

/-- An AMO or CAS reads and writes one integer of the form's size into an x register, and its operand is no wider. -/
def atomicOf (n : Nat) : AccessKind → Prop
  | .amo _ b d => b.toNat < 2 ^ (8 * n) ∧ ∃ r sg, d = .x r n sg
  | .cas _ _ d => ∃ r sg, d = .x r n sg
  | _ => False

/-- An instruction whose form is an atomic is a data access of it. -/
theorem exec_atomicForm {s : State} {i : Instr} {m : MemForm} (h : memFormOf s i = some m) (hk : m.kind.isAtomic = true) :
    ∃ (c : BitVec 4) (o : BitVec 2), c.toNat = m.cls ∧ o.toNat = m.ord ∧ m.need = .both ∧ m.halves = none ∧ 0 < m.size ∧
      atomicOf m.size m.kind ∧ exec i s = s.dataAccess m.va m.size m.need c o m.kind := by
  unfold memFormOf at h
  split at h
  case h_20 d a b p g o c =>
    split at h
    · cases h
    · next hg =>
      cases h
      refine ⟨c, o, rfl, rfl, rfl, rfl, Nat.zero_lt_succ _, ⟨?_, _, _, rfl⟩, ?_⟩
      · exact (BitVec.toNat_ofNat ..).trans_lt (lt_of_le_of_lt (Nat.mod_le _ _) (Nat.mod_lt _ (by decide)))
      · change s.amo d a b p g o c 4 = _
        rw [State.amo, if_neg hg, aopSigned_eq, aopOf_eq]
  case h_21 d a b p g o c =>
    split at h
    · cases h
    · next hg =>
      cases h
      refine ⟨c, o, rfl, rfl, rfl, rfl, Nat.zero_lt_succ _, ⟨(s.getX b).isLt, _, _, rfl⟩, ?_⟩
      change s.amo d a b p g o c 8 = _
      rw [State.amo, if_neg hg, aopSigned_eq, aopOf_eq, Nat.mod_eq_of_lt (show (s.getX b).toNat < 2 ^ (8 * 8) from (s.getX b).isLt),
        BitVec.ofNat_toNat, BitVec.setWidth_eq]
  case h_22 d a b o c =>
    cases h
    exact ⟨c, o, rfl, rfl, rfl, rfl, Nat.zero_lt_succ _, ⟨_, _, rfl⟩, rfl⟩
  case h_23 d a b o c =>
    cases h
    exact ⟨c, o, rfl, rfl, rfl, rfl, Nat.zero_lt_succ _, ⟨_, _, rfl⟩, rfl⟩
  all_goals cases h <;> cases hk

/-- An atomic that can perform performs as it is issued. -/
theorem exec_atomic {s : State} {i : Instr} {m : MemForm} {l : Loc} (h : memFormOf s i = some m) (hk : m.kind.isAtomic = true)
    (hi : Issues s m l) (hd : s.defer = false) (hc : ∀ a ∈ issued s m l, (issuing s m l).canPerform a = true)
    (ha : Answered s (issued s m l)) :
    exec i s = .next ((issuing s m l).performHere (issuedPart s m l m.kind 0 m.size)).skip := by
  obtain ⟨c, o, hcls, hord, hneed, hhalves, -, -, hx⟩ := exec_atomicForm h hk
  have hissued : issued s m l = [issuedPart s m l m.kind 0 m.size] := by rw [issued, hhalves]
  have hmem : issuedPart s m l m.kind 0 m.size ∈ issued s m l := by rw [hissued]; exact List.mem_singleton_self _
  obtain ⟨hacc, hrel⟩ := hi
  have hwait : (ordReleases o && !(m.need = .read)) = true →
      ¬ WaitsForMerges s (s.me.regs.ordScope.toNat % 8) (BitVec.ofNat 16 (2 ^ c.toNat)) := by
    intro hr
    rw [Bool.and_eq_true, ordReleases_iff, hord] at hr
    rw [hcls]
    refine hrel ?_
    have hload : ∀ d, m.kind ≠ .load d := fun d e => by rw [e] at hk; cases hk
    rw [releases, decide_eq_true hr.1]
    split
    · next d e => exact absurd e (hload d)
    · rfl
  rw [hx, State.dataAccess, dataUnits_issues hacc hwait, accessAll_touched s m l hcls hord]
  exact congrArg (fun t => Host.Outcome.next (State.skip t)) (issue_issuing hd (hc _ hmem) (ha _ hmem).1)

/-! ## Completion -/

/-- What an atomic leaves that has left `v` at home and gives its core the old value. -/
theorem atomic_completes {s v : State} {m : MemForm} {l : Loc} (hv : Stored (issuing s m l) v) (hw : OnlyWrites (issuing s m l) v l m.size)
    (r : RegNo) {n old : Nat} (hn : 0 < n) (hold : old < 2 ^ (8 * n)) (sg : Bool) :
    let t := (v.setCore s.cur ((v.core s.cur).putLoad (.x r n sg) old)).skip
    t.bytesAt l.slot l.pa m.size = v.bytesAt l.slot l.pa m.size ∧ LoadedAs s t (.x r n sg) old ∧ OnlyWrites s t l m.size ∧ CoreKept s t := by
  have hs := issuing_sameCores s m l
  have hcores : SameCores s v := ⟨hv.cur.trans hs.cur, fun c => (hs.core c).trans (hv.core c)⟩
  have hme : v.setCore s.cur ((v.core s.cur).putLoad (.x r n sg) old) = v.setMe (v.me.putLoad (.x r n sg) old) := by
    rw [State.setMe, State.me, hcores.cur]
  have hbytes : SameBytes v (v.setMe (v.me.putLoad (.x r n sg) old)).skip := SameBytes.of_fields rfl rfl rfl rfl
  rw [hme]
  exact ⟨hbytes.bytesAt _ _ _, loadedAs_putX hcores r hn hold sg, SameBytes.onlyWrites (issuing_sameBytes s m l) hbytes hw,
    coreKept_putLoad hcores _ _⟩

/-- An atomic's access meets no accumulator and no poison, in the state in which it is issued either. -/
theorem issuing_plain {s : State} {m : MemForm} {l : Loc} {a : Access} (h : Plain s [a]) :
    (issuing s m l).poisoned a.loc.pa a.size = false ∧ ∀ x ∈ (issuing s m l).accums, x.meets a.loc.pa a.size = false := by
  obtain ⟨hans, hpoison⟩ := h
  obtain ⟨cores, bays, peers, e⟩ := issuing_frame s m l
  rw [e]
  exact ⟨hpoison a (List.mem_singleton_self a), (hans a (List.mem_singleton_self a)).2⟩

theorem leNat_bytesAt_lt (s : State) (slot : Option Nat) (pa n : Nat) : leNat (s.bytesAt slot pa n) < 2 ^ (8 * n) := by
  have h := leNat_lt (s.bytesAt slot pa n)
  rwa [State.bytesAt_length, show 256 = 2 ^ 8 from rfl, ← Nat.pow_mul] at h

theorem amosUpdateMemory : AmosUpdateMemory := by
  intro s i m l op b d h hkind hi hd hc hplain old
  have hk : m.kind.isAtomic = true := by rw [hkind]; rfl
  obtain ⟨-, -, -, -, -, hhalves, hn, hform, -⟩ := exec_atomicForm h hk
  rw [hkind] at hform
  obtain ⟨hb, r, sg, rfl⟩ := hform
  have hx := exec_atomic h hk hi hd hc hplain.1
  rw [issued, hhalves] at hplain
  obtain ⟨hpoison, hacc⟩ := issuing_plain hplain
  have hold : leNat ((issuing s m l).bytesAt l.slot l.pa m.size) = old := congrArg leNat ((issuing_sameBytes s m l).bytesAt _ _ _)
  have hlt : old < 2 ^ (8 * m.size) := leNat_bytesAt_lt ..
  obtain ⟨hbytes, hload, hwrites, hkept⟩ := atomic_completes (Stored.writeLoc (issuing s m l) l (leBytes m.size (aop op m.size old b.toNat)))
    (onlyWrites_writeLoc_leBytes _ hacc) r hn hlt sg
  have hval := leNat_writeLoc (issuing s m l) l m.size (aop op m.size old b.toNat)
  rw [← hbytes] at hval
  rw [performHere_amo hkind hpoison rfl hacc] at hx
  refine ⟨_, ?_, hval, fun v hv => hval.trans (aop_of_bitOp hn hlt hb hv), hload, hwrites, hkept⟩
  rw [hx, ← hold]
  rfl

theorem compareAndSwap : CompareAndSwap := by
  intro s i m l x n d h hkind hi hd hc hplain old
  have hk : m.kind.isAtomic = true := by rw [hkind]; rfl
  obtain ⟨-, -, -, -, -, hhalves, hn, hform, -⟩ := exec_atomicForm h hk
  rw [hkind] at hform
  obtain ⟨r, sg, rfl⟩ := hform
  have hx := exec_atomic h hk hi hd hc hplain.1
  rw [issued, hhalves] at hplain
  obtain ⟨hpoison, hacc⟩ := issuing_plain hplain
  have hold : leNat ((issuing s m l).bytesAt l.slot l.pa m.size) = old := congrArg leNat ((issuing_sameBytes s m l).bytesAt _ _ _)
  have hlt : old < 2 ^ (8 * m.size) := leNat_bytesAt_lt ..
  obtain ⟨hstored, -, hw, hval⟩ := swapped_leaves (u := issuing s m l) (a := issuedPart s m l m.kind 0 m.size) x n hacc
  obtain ⟨hbytes, hload, hwrites, hkept⟩ := atomic_completes hstored hw r hn hlt sg
  rw [performHere_cas hkind hpoison rfl hacc] at hx
  refine ⟨_, ?_, ?_, hload, hwrites, hkept⟩
  · rw [hx, ← hold]
    rfl
  · rw [hbytes, ← hold]
    exact hval

/-- Settles O20: an atomic performs as it is issued, and gives its core the old value. -/
theorem atomicsUpdateMemory : Obligations.AtomicsUpdateMemory := ⟨amosUpdateMemory, compareAndSwap⟩

end Sys2Proof.Machine
end

section
/-! O19. A load of 16 bytes in two halves that does not receive what its form meets: a translation of odd size puts the end of another package's
HBM4 between the halves, and the one in the module's own space meets the bay's L2, where the form as a whole meets none (R78, R96, R101). -/

namespace Sys2Proof.Machine
open Sys2Proof Sys2Proof.Claims

/-! ## The state -/

/-- A translation of bent 1's first addresses to the last 8 bytes of package 1's HBM4 and what follows: its size is no power of two. -/
def oddPage : TlbEntry := ⟨1, 0, windowEnd - 8, clearLeaf windowEnd⟩

/-- The program's peg with that translation in its bay's TLB, the line behind the window in its L2 under slot 0, and a link to package 1. -/
def edgeBase : State :=
  let s := State.reset.withProgram []
  { s with keys := [(0, 0)], mem := ByteMap.wrN [] windowEnd unitData, peers := [(1, ⟨2 ^ 40, true, true, 0, 0, 0⟩)] }.setBay 0
    { s.bay 0 with tlb := [oddPage], l2 := [(windowEnd / 64, ⟨some 0, [], []⟩)] }

def edgeLoc : Loc := { pa := windowEnd - 8, slot := none, det := false, mw := false, cp := 0 }

/-- `ld.v16 x2, [x0]`, and its form. -/
def edgeLoad : Instr := .ldV16 1 0 0 0 0

def edgeForm : MemForm :=
  { va := 0, size := 16, need := .read, cls := 0, ord := 0, kind := .load (.pair 2)
    halves := some (.load (.x 2 8 false), .load (.x 3 8 false)) }

/-- The halves of the load, and the state in which they are issued. -/
def lowHalf : Access := issuedPart edgeBase edgeForm edgeLoc (.load (.x 2 8 false)) 0 8

def highHalf : Access := issuedPart edgeBase edgeForm edgeLoc (.load (.x 3 8 false)) 8 8

def edgeIssuing : State := issuing edgeBase edgeForm edgeLoc

theorem edge_access : edgeBase.access edgeBase.myBay edgeBase.myBent 0 16 .read = .ok edgeLoc := by decide +kernel

theorem edge_issues : Issues edgeBase edgeForm edgeLoc := ⟨edge_access, fun h => absurd h (by decide)⟩

theorem edge_canPerform : ∀ a ∈ issued edgeBase edgeForm edgeLoc, edgeIssuing.canPerform a = true := by decide +kernel

theorem edge_answered : Answered edgeBase (issued edgeBase edgeForm edgeLoc) := by
  rw [Answered]
  decide +kernel

theorem edge_plain : ∀ a ∈ issued edgeBase edgeForm edgeLoc,
    (edgeLoc.cp ≠ 2 ∨ edgeBase.remote? a.loc.pa = none) ∧ edgeBase.poisoned a.loc.pa a.size = false := by decide +kernel

/-- The form meets the unit in clear. -/
theorem edge_meets : leNat (meetsBytes edgeIssuing edgeBase.myBay edgeLoc 16) / 2 ^ 64 = 0x0C200005 := by decide +kernel

/-! ## What the load does -/

/-- The machine after one half of a load. -/
def afterHalf (u : State) (a : Access) (r : RegNo) : State :=
  u.setCore a.core ((u.core a.core).putLoad (.x r 8 false) (leNat (meetsBytes u (u.bayOf a.core) a.loc 8)))

theorem exec_edgeLoad : exec edgeLoad edgeBase = .next (afterHalf (afterHalf edgeIssuing lowHalf 2) highHalf 3).skip := by
  have hmem : lowHalf ∈ issued edgeBase edgeForm edgeLoc ∧ highHalf ∈ issued edgeBase edgeForm edgeLoc := ⟨.head _, .tail _ (.head _)⟩
  have hx : exec edgeLoad edgeBase =
    edgeBase.dataUnits 0 16 .read 0 0 [(.load (.x 2 8 false), 0, 8), (.load (.x 3 8 false), 8, 8)] := rfl
  have hlow : edgeIssuing.issue lowHalf = afterHalf edgeIssuing lowHalf 2 :=
    (issue_issuing rfl (edge_canPerform _ hmem.1) (by decide)).trans
      (performHere_load rfl (by decide +kernel) (.inl (by decide)) rfl (by decide +kernel))
  have hhigh : (afterHalf edgeIssuing lowHalf 2).issue highHalf = afterHalf (afterHalf edgeIssuing lowHalf 2) highHalf 3 :=
    (issue_performs rfl (edge_canPerform _ hmem.2) (by decide +kernel)).trans
      (performHere_load rfl (by decide +kernel) (.inl (by decide)) rfl (by decide +kernel))
  rw [hx, dataUnits_issues edge_access (fun h => absurd h (by decide))]
  refine congrArg (fun t => Host.Outcome.next (State.skip t)) ?_
  refine (accessAll_touched edgeBase edgeForm edgeLoc rfl rfl _).trans ?_
  change (edgeIssuing.issue lowHalf).issue highHalf = _
  rw [hlow, hhigh]

/-- The second half meets the unit under slot 0. -/
theorem meetsBytes_highHalf : meetsBytes (afterHalf edgeIssuing lowHalf 2) 0 highHalf.loc 8 = seenBytes := by
  have hslot : ∀ k < 8, (afterHalf edgeIssuing lowHalf 2).seenSlot 0 highHalf.loc (windowEnd + k) = some 0 := by decide +kernel
  have hsame : SameBytes edgeBase (afterHalf edgeIssuing lowHalf 2) :=
    (issuing_sameBytes edgeBase edgeForm edgeLoc).trans (SameBytes.of_fields rfl rfl rfl rfl)
  have h (k : Nat) (hk : k < 8) : (afterHalf edgeIssuing lowHalf 2).byteAt
      ((afterHalf edgeIssuing lowHalf 2).seenSlot 0 highHalf.loc (highHalf.loc.pa + k)) (highHalf.loc.pa + k) = seenBytes.getD k 0 := by
    rw [show highHalf.loc.pa = windowEnd from rfl, hslot k hk, hsame]
    exact byteAt_seen (by decide) (by decide +kernel) (by decide) (by decide) hk
  rw [meetsBytes, List.map_congr_left (fun k hk => h k (List.mem_range.mp hk))]
  rfl

theorem getX_afterHalf (u : State) (a : Access) (r : RegNo) (hr : r ≠ 0) (hc : a.core = u.cur) :
    (afterHalf u a r).skip.getX r = BitVec.ofNat 64 (leNat (meetsBytes u (u.bayOf a.core) a.loc 8) % 2 ^ 64) := by
  have hx : afterHalf u a r = u.putX r (extendTo 8 false (leNat (meetsBytes u (u.bayOf a.core) a.loc 8))) := by rw [afterHalf, hc]; rfl
  rw [State.getX_skip, hx, State.getX_putX, if_pos ⟨rfl, hr⟩]
  rfl

/-- Refutes O19: no hypothesis keeps a TLB from holding a page whose size is no power of two. In `edgeBase` the two halves of a 16-byte load lie in
different memories; the second receives the unit as the bay's L2 holds it under slot 0, and the bytes that the form meets are those in clear. -/
theorem not_loadsAndStores : ¬ Obligations.LoadsAndStores := by
  rintro ⟨hloads, -⟩
  obtain ⟨t, hexec, ⟨-, -, -, hhigh⟩, -⟩ := hloads edgeBase edgeLoad edgeForm edgeLoc (.pair 2) rfl rfl edge_issues rfl edge_canPerform
    edge_answered _ (.inl ⟨edge_plain, rfl⟩)
  have ht : (afterHalf (afterHalf edgeIssuing lowHalf 2) highHalf 3).skip = t := by
    rw [exec_edgeLoad] at hexec
    injection hexec
  have hgot : t.getX 3 = BitVec.ofNat 64 (leNat seenBytes % 2 ^ 64) := by
    rw [← ht, getX_afterHalf _ _ 3 (by decide) (by decide), show State.bayOf _ highHalf.core = 0 from by decide, meetsBytes_highHalf]
  have hclaimed : t.getX 3 = BitVec.ofNat 64 0x0C200005 := by
    rw [← edge_meets]
    exact hhigh (by decide)
  exact absurd (hgot.symm.trans hclaimed) (by decide)

end Sys2Proof.Machine
end
